-- ==== Sys2Proof/Word.lean ====
section
/-! DEFINITION. The word types of the Lemxel manual and the sparse map in which every indexed family of
state is held (registers, memory bytes, tables). -/

namespace Sys2Proof

/-- A byte is 8 bits (R9). -/
abbrev Byte := BitVec 8
/-- A word is 32 bits (R9). -/
abbrev W32 := BitVec 32
/-- A doubleword is 64 bits (R9). -/
abbrev W64 := BitVec 64
/-- A field that names one of s0 to s63 (R323). -/
abbrev R6 := BitVec 6
/-- A field that names one of v0 to v31 (R327). -/
abbrev R5 := BitVec 5

/-- A sparse family indexed by Nat: pairs of index and value. An index that is not listed has the
default that the reader names. -/
abbrev SMap (α : Type) := List (Nat × α)

namespace SMap

variable {α : Type}

/-- The value listed for `k`, if any. -/
def find (k : Nat) : SMap α → Option α
  | [] => none
  | (j, a) :: r => if j = k then some a else find k r

/-- The value at `k`, `d` where none is listed. -/
def get (d : α) (m : SMap α) (k : Nat) : α := (find k m).getD d

/-- Lists `a` at `k`, in the place that keeps indices rising. -/
def put (m : SMap α) (k : Nat) (a : α) : SMap α :=
  match m with
  | [] => [(k, a)]
  | (j, b) :: r =>
    if k < j then (k, a) :: (j, b) :: r
    else if j = k then (k, a) :: r
    else (j, b) :: put r k a

/-- Takes every entry for `k` out. -/
def drop (m : SMap α) (k : Nat) : SMap α := m.filter (fun e => e.1 != k)

/-- Sets `k` to `a` in a family whose unlisted value is `d`: the default is not listed. -/
def set [DecidableEq α] (d : α) (m : SMap α) (k : Nat) (a : α) : SMap α :=
  if a = d then drop m k else put m k a

/-- Changes the value at `k`. -/
def modify (d : α) (m : SMap α) (k : Nat) (f : α → α) : SMap α := put m k (f (get d m k))

/-- The canonical form: indices strictly rise and no entry equals the default. -/
def wf [DecidableEq α] (d : α) : SMap α → Bool
  | [] => true
  | [(_, a)] => decide (a ≠ d)
  | (j, a) :: (k, b) :: r => decide (j < k) && decide (a ≠ d) && wf d ((k, b) :: r)

end SMap

/-- The natural number that little-endian bytes hold (R9). -/
def leNat : List Byte → Nat
  | [] => 0
  | b :: r => b.toNat + 256 * leNat r

/-- The `n` little-endian bytes of a natural number, modulo 2^(8n) (R9). -/
def leBytes : Nat → Nat → List Byte
  | 0, _ => []
  | n + 1, v => BitVec.ofNat 8 v :: leBytes n (v / 256)

/-- Bits [hi:lo] of a natural number (R9). -/
def bits (v hi lo : Nat) : Nat := v / 2 ^ lo % 2 ^ (hi - lo + 1)

/-- Bit n of a natural number (R9). -/
def bitAt (v n : Nat) : Bool := v.testBit n

/-- sext(x, n) of R12: the n-bit pattern x read as a signed integer. -/
def sextNat (x n : Nat) : Int := if x % 2 ^ n < 2 ^ (n - 1) then (x % 2 ^ n : Nat) else ((x % 2 ^ n : Nat) : Int) - (2 ^ n : Nat)

/-- An integer reduced to an n-bit pattern. -/
def wrapInt (x : Int) (n : Nat) : Nat := (x % ((2 ^ n : Nat) : Int)).toNat

/-- A Bool as a bit. -/
def bitOf (b : Bool) : Nat := if b then 1 else 0

/-- The least multiple of `m` that is at least `x`. -/
def roundUp (x m : Nat) : Nat := (x + m - 1) / m * m

/-- ⌈x / m⌉. -/
def ceilDiv (x m : Nat) : Nat := (x + m - 1) / m

end Sys2Proof
end

