-- ==== Sys2Proof/Config.lean ====
section
/-! DEFINITION. What the package fixes (die kinds, positions, memory sizes, substrate wiring, latencies)
and the free values, which are opaque constants: nothing can evaluate them. -/

namespace Sys2Proof.Config

/-- The die kinds of R15. -/
inductive Kind
  | none | hDie | xDie | bDie | mDie | vDie | gDie | reserved
  deriving DecidableEq, Repr

/-- The kind that a KIND code names (R15). -/
def kindOfCode : Nat → Kind
  | 0 => .none | 1 => .hDie | 2 => .xDie | 3 => .bDie | 4 => .mDie | 5 => .vDie | 6 => .gDie | _ => .reserved

/-- Hubs of one die of a kind (R15). -/
def Kind.hubs : Kind → Nat
  | .xDie => 4 | .bDie => 4 | .mDie => 8 | .vDie => 8 | .gDie => 8 | _ => 0

/-- Voltage and frequency islands of one die of a kind (R15, R31). -/
def Kind.islands : Kind → Nat
  | .hDie => 4 | .xDie => 3 | .bDie => 4 | .mDie => 8 | .vDie => 8 | .gDie => 4 | _ => 0

/-- Modules of one die of a kind (R35). -/
def Kind.modules : Kind → Nat
  | .hDie => 4 | .xDie => 12 | .bDie => 12 | .mDie => 8 | .vDie => 4 | .gDie => 4 | _ => 0

/-- The kinds that forward beats (R35). -/
def Kind.routing : Kind → Bool
  | .xDie => true | .bDie => true | _ => false

/-- The units of a hub by ENG code (R268): 0 control core, 1 vector, 2 matrix, 3 and 4 transfer, 5 index, 6 drafting, 7 fabric. -/
def Kind.hasEng : Kind → Nat → Bool
  | .mDie, e => e ≤ 4
  | .vDie, e => e == 0 || e == 1 || e == 3 || e == 6
  | .gDie, e => e == 0 || e == 3 || e == 5
  | .bDie, e => e == 0 || e == 3 || e == 4
  | .xDie, e => e == 0 || e == 3 || e == 7
  | _, _ => false

/-- The fuse bytes of MIX0 to MIX5 on a Bretutrix package with every die fitted-good at stepping 0 (R16, R17).
STEP is DESIGN CHOICE 0 (log 12), safe: no behaviour depends on it (R18). -/
def mixByte (p : Nat) : Nat :=
  if p = 0 then 0x14 else if p ≤ 4 then 0x24 else if p ≤ 12 then 0x34 else if p ≤ 28 then 0x44
  else if p ≤ 36 then 0x54 else if p ≤ 40 then 0x64 else 0

/-- Bytes of a scratchpad or hub store reached as space 0x0 on a die of a kind (R195). -/
def Kind.scratchSize : Kind → Nat
  | .mDie => 8388608 | .vDie => 8388608 | .gDie => 8388608 | .bDie => 262144 | .xDie => 262144 | _ => 0

/-- Bytes of one weight buffer (R195). -/
def weightSize : Nat := 33554432
/-- Bytes of one B-buffer (R195). -/
def bufferSize : Nat := 1073741824
/-- Bytes of one HBM4E stack (R195). -/
def hbmSize : Nat := 68719476736

/-- The substrate of R518: the neighbour position and module that module `m` of position `p` is wired to. -/
def wire (p m : Nat) : Option (Nat × Nat) :=
  if p = 0 then (if m < 4 then some (1 + m, 0) else none)
  else if p ≤ 4 then
    let j := p - 1
    if m = 0 then some (0, j)
    else if m ≤ 2 then some (28 + 2 * j + m, 3)
    else if m ≤ 4 then some (5 + 2 * j + (m - 3), 9)
    else if m ≤ 6 then some (5 + 2 * ((j + 3) % 4) + (m - 5), 10)
    else if m ≤ 8 then some (5 + 2 * ((j + 2) % 4) + (m - 7), 11)
    else if m ≤ 11 then some (1 + (j + (m - 8)) % 4, 12 - (m - 8))
    else none
  else if p ≤ 12 then
    let i := p - 5
    if m = 0 then some (5 + (i + 7) % 8, 1)
    else if m = 1 then some (5 + (i + 1) % 8, 0)
    else if m ≤ 3 then some (13 + 2 * i, m - 2)
    else if m ≤ 5 then some (14 + 2 * i, m - 4)
    else if m = 6 then some (29 + i, 0)
    else if m = 7 then some (29 + (i + 7) % 8, 1)
    else if m = 8 then some (37 + i / 2, 2 + i % 2)
    else if m = 9 then some (1 + i / 2, 3 + i % 2)
    else if m = 10 then some (1 + (i / 2 + 1) % 4, 5 + i % 2)
    else if m = 11 then some (1 + (i / 2 + 2) % 4, 7 + i % 2)
    else none
  else if p ≤ 28 then
    let i := (p - 13) / 2
    let s := (p - 13) % 2
    if m ≤ 1 then some (5 + i, 2 + 2 * s + m)
    else if m ≤ 3 then some (14 + 2 * i - s, m)
    else if m ≤ 5 then some (13 + 2 * ((i + 1) % 8) + s, m + 2)
    else if m ≤ 7 then some (13 + 2 * ((i + 7) % 8) + s, m - 2)
    else none
  else if p ≤ 36 then
    let i := p - 29
    if m = 0 then some (5 + i, 6)
    else if m = 1 then some (5 + (i + 1) % 8, 7)
    else if m = 2 then some (37 + i / 2, i % 2)
    else if m = 3 then some (1 + i / 2, 1 + i % 2)
    else none
  else if p ≤ 40 then
    let j := p - 37
    if m ≤ 1 then some (29 + 2 * j + m, 2)
    else if m ≤ 3 then some (5 + 2 * j + (m - 2), 8)
    else none
  else none

/-- The promised latency P by target class (R200). -/
def promise : Nat → Nat
  | 0 => 128 | 1 => 320 | 2 => 512 | 3 => 768 | 4 => 1088 | 5 => 2048 | 6 => 16320 | _ => 0

/-- The promised latency class for a number of modules (R200). -/
def classOfModules (h : Nat) : Nat :=
  if h = 0 then 0 else if h = 1 then 1 else if h ≤ 3 then 2 else if h ≤ 6 then 3 else 4

/-- Pulses of the nominal oscillator in one microsecond (R5). -/
def cyPerUs : Nat := 1900

/-- FREE VALUE (log 9): the transit, in pulses, of the nth counted packet; the manual fixes none (R45, R187). -/
opaque transit : Nat → Nat
/-- FREE VALUE (log 8): the oscillator of the die at a position in one tick of the model, as a place in the band of
R29. -/
opaque trim : Nat → Nat → Nat
/-- FREE VALUE (log 8): the phase at which a die's oscillator starts at its nth start (R29). -/
opaque phase : Nat → Nat

/-- Ticks of the model: one tick is one period at the top of the band of R29, 1.9 GHz + 100 ppm. -/
def tickUnit : Nat := 1000100
/-- What a die's oscillator gains in a tick, in units of 10^-6 nominal periods: from 100 ppm below the nominal frequency
to 100 ppm above it (R29). -/
def oscillator (p tick : Nat) : Nat := 999900 + trim p tick % 201
/-- FREE VALUE (log 93): the regulator setting that an island's speed monitor asks for, in steps of 5 mV above 0.40 V (R31). -/
opaque speed : Nat → Nat
/-- FREE VALUE (log 106): byte `i` of the slot that carries a control core's timed request or reply, by beat; the manual gives no
layout of it (R198, R199). -/
opaque coreBeat : Nat → Nat → Byte
/-- FREE VALUE (log 94): the parity bytes of RS(192,148) over the first 148 bytes of a frame; the manual names neither the
field polynomial nor the generator (R37). -/
opaque fecParity : List Byte → List Byte
/-- FREE VALUE (log 29): the PASID of a partition's VF, through which its fault ring is addressed (R115). -/
opaque vfPasid : Nat → Nat
/-- FREE VALUE (log 125): the operation code of the mailbox request that reads control spaces and halted hubs at the customer level
(R130, R240); R149 gives none. -/
opaque debugReadCode : Nat
/-- Whether the output of a collective operation cannot be written at this package (R92; log 26). -/
opaque outputFails : Nat → Bool
/-- FREE VALUE (log 14): whether a translation cache still holds an entry at its nth lookup (R206). -/
opaque cacheHolds : Nat → Bool
/-- FREE VALUE (log 10): a byte of an HBM unit written under another key epoch (R128, R131). -/
opaque staleByte : Nat → Nat → Byte
/-- A byte of a saved context, whose format is private to the device (R264, log 58): by key epoch, number of the save and address. -/
opaque contextByte : Nat → Nat → Nat → Byte
/-- What a register takes from a context that was overwritten (log 58): by number of the save, hub and register. -/
opaque brokenContext : Nat → Nat → Nat → W64
/-- The 64-byte line, as flat address ÷ 64, that takes an uncorrectable error in a pulse, if any (R195, log 98). -/
opaque upset : Nat → Option Nat
/-- FREE VALUE (log 109): the word that a hub's instruction store takes from a poisoned line, by H-die cycle, hub and flat address. -/
opaque poisonedCode : Nat → Nat → Nat → Nat
/-- FREE VALUE (log 26): a value that the manual leaves unstated, at its nth use. -/
opaque freeWord : Nat → W64
/-- FREE VALUE (log 11): 64-bit draws of the security engine's TRNG (R132). -/
opaque trng : Nat → W64
/-- FREE VALUE (log 11): DSECRET fuse (R120), reached by nothing but the security engine. -/
opaque dsecret : BitVec 256
/-- FREE VALUE (log 12): KHASH fuse, the digest of Wilkar's public key (R120). -/
opaque khash : BitVec 256
/-- FREE VALUE (log 11): SHA-256, named by R120 to R132 and defined outside the manual. -/
opaque sha256 : List Byte → BitVec 256
/-- FREE VALUE (log 11): SLH-DSA-SHA2-256s verification of a signature over a message under a public key. -/
opaque slhVerify : List Byte → List Byte → List Byte → Bool
/-- FREE VALUE (log 11): SLH-DSA-SHA2-256s signature over a message by the key pair of 96 bytes of seed: SK.seed, SK.prf and PK.seed
(R125). -/
opaque slhSign : List Byte → List Byte → List Byte
/-- FREE VALUE (log 11): the body of the nth SPDM response, by request code and request, whose bytes DMTF SPDM 1.3 fixes and the manual does not. -/
opaque spdmBody : Nat → Nat → List Byte → List Byte
/-- FREE VALUE (log 12): the ROM's own digest, extended into MEAS0 (R122). -/
opaque romDigest : BitVec 256

/-- FREE VALUE (log 11): the public key of the SLH-DSA-SHA2-256s key pair of 96 bytes of seed (R125). -/
opaque slhPublic : List Byte → List Byte
/-- FREE VALUE (log 11): the certificate chain in the read-only region of the boot flash (R125). -/
opaque certChain : List Byte
/-- FREE VALUE (log 11): Wilkar's registry identifier for SLH-DSA-SHA2-256s (R127). -/
opaque extendedAsym : List Byte
/-- FREE VALUE (log 42): the nth reading of a sensor: a temperature in °C, a power in W or a current in A (R32). -/
opaque sensor : Nat → Nat

end Sys2Proof.Config
end

