-- ==== Sys2Proof/Syntax.lean ====
section
/-! DEFINITION. The instructions and device events: one constructor for each row of the opcode table,
in its order, with the operands that the formats of 13_isa_formats.md give the words. -/

namespace Sys2Proof

/-- The instructions. A field named as a register of the map (d, a, b, c) holds its number. What arrives
with a device event stands in the state (Machine.Arg). -/
inductive Instr
  /-- ADD (R343). -/
  | add (d : R6) (a : R6) (b : R6)
  /-- SUB (R343). -/
  | sub (d : R6) (a : R6) (b : R6)
  /-- AND (R343). -/
  | and (d : R6) (a : R6) (b : R6)
  /-- OR (R343). -/
  | or (d : R6) (a : R6) (b : R6)
  /-- XOR (R343). -/
  | xor (d : R6) (a : R6) (b : R6)
  /-- SHL (R343). -/
  | shl (d : R6) (a : R6) (b : R6)
  /-- SHR (R343). -/
  | shr (d : R6) (a : R6) (b : R6)
  /-- SHRA (R343). -/
  | shra (d : R6) (a : R6) (b : R6)
  /-- ROL (R343). -/
  | rol (d : R6) (a : R6) (b : R6)
  /-- ROR (R343). -/
  | ror (d : R6) (a : R6) (b : R6)
  /-- MIN (R343). -/
  | min (d : R6) (a : R6) (b : R6)
  /-- MAX (R343). -/
  | max (d : R6) (a : R6) (b : R6)
  /-- MINU (R343). -/
  | minu (d : R6) (a : R6) (b : R6)
  /-- MAXU (R343). -/
  | maxu (d : R6) (a : R6) (b : R6)
  /-- SLT (R343). -/
  | slt (d : R6) (a : R6) (b : R6)
  /-- SLTU (R343). -/
  | sltu (d : R6) (a : R6) (b : R6)
  /-- MUL (R343). -/
  | mul (d : R6) (a : R6) (b : R6)
  /-- MULH (R343). -/
  | mulh (d : R6) (a : R6) (b : R6)
  /-- MULHU (R343). -/
  | mulhu (d : R6) (a : R6) (b : R6)
  /-- DIV (R343). -/
  | div (d : R6) (a : R6) (b : R6)
  /-- DIVU (R343). -/
  | divu (d : R6) (a : R6) (b : R6)
  /-- REM (R343). -/
  | rem (d : R6) (a : R6) (b : R6)
  /-- REMU (R343). -/
  | remu (d : R6) (a : R6) (b : R6)
  /-- CMPEQ (R343). -/
  | cmpeq (d : BitVec 3) (a : R6) (b : R6)
  /-- CMPLT (R343). -/
  | cmplt (d : BitVec 3) (a : R6) (b : R6)
  /-- CMPLTU (R343). -/
  | cmpltu (d : BitVec 3) (a : R6) (b : R6)
  /-- ADDI (R344). -/
  | addi (d : R6) (a : R6) (i : BitVec 14)
  /-- ANDI (R344). -/
  | andi (d : R6) (a : R6) (i : BitVec 14)
  /-- ORI (R344). -/
  | ori (d : R6) (a : R6) (i : BitVec 14)
  /-- XORI (R344). -/
  | xori (d : R6) (a : R6) (i : BitVec 14)
  /-- SHLI (R344). -/
  | shli (d : R6) (a : R6) (i : BitVec 6)
  /-- SHRI (R344). -/
  | shri (d : R6) (a : R6) (i : BitVec 6)
  /-- SHRAI (R344). -/
  | shrai (d : R6) (a : R6) (i : BitVec 6)
  /-- SLTI (R344). -/
  | slti (d : R6) (a : R6) (i : BitVec 14)
  /-- SLTUI (R344). -/
  | sltui (d : R6) (a : R6) (i : BitVec 14)
  /-- MULI (R344). -/
  | muli (d : R6) (a : R6) (i : BitVec 14)
  /-- LIL (R345). -/
  | lil (d : R6) (i : BitVec 20)
  /-- LIH (R345). -/
  | lih (d : R6) (i : BitVec 20)
  /-- LEA (R346). -/
  | lea (d : R6) (a : R6) (i : BitVec 14)
  /-- PTAG (R346). -/
  | ptag (d : R6) (a : R6) (b : R6)
  /-- PSPACE (R346). -/
  | pspace (d : R6) (a : R6)
  /-- SFADD (R347). -/
  | sfadd (d : R6) (a : R6) (b : R6) (r : BitVec 2)
  /-- SFSUB (R347). -/
  | sfsub (d : R6) (a : R6) (b : R6) (r : BitVec 2)
  /-- SFMUL (R347). -/
  | sfmul (d : R6) (a : R6) (b : R6) (r : BitVec 2)
  /-- SFDIV (R347). -/
  | sfdiv (d : R6) (a : R6) (b : R6) (r : BitVec 2)
  /-- SFSQRT (R347). -/
  | sfsqrt (d : R6) (a : R6) (r : BitVec 2)
  /-- SFMIN (R347). -/
  | sfmin (d : R6) (a : R6) (b : R6)
  /-- SFMAX (R347). -/
  | sfmax (d : R6) (a : R6) (b : R6)
  /-- SFEQ (R347). -/
  | sfeq (d : BitVec 3) (a : R6) (b : R6)
  /-- SFLT (R347). -/
  | sflt (d : BitVec 3) (a : R6) (b : R6)
  /-- SFLE (R347). -/
  | sfle (d : BitVec 3) (a : R6) (b : R6)
  /-- SFCVTS (R347). -/
  | sfcvts (d : R6) (a : R6) (r : BitVec 2)
  /-- SFCVTF (R347). -/
  | sfcvtf (d : R6) (a : R6) (r : BitVec 2)
  /-- LD (R348). -/
  | ld (d : R6) (a : R6) (z : BitVec 2) (i : BitVec 12)
  /-- ST (R348). -/
  | st (d : R6) (a : R6) (z : BitVec 2) (i : BitVec 12)
  /-- LDX (R349). -/
  | ldx (d : R6) (a : R6) (z : BitVec 2) (i : BitVec 12)
  /-- STX (R349). -/
  | stx (d : R6) (a : R6) (z : BitVec 2) (i : BitVec 12)
  /-- AMO_ADD (R351). -/
  | amoAdd (d : R6) (a : R6) (b : R6) (z : BitVec 2)
  /-- AMO_AND (R351). -/
  | amoAnd (d : R6) (a : R6) (b : R6) (z : BitVec 2)
  /-- AMO_OR (R351). -/
  | amoOr (d : R6) (a : R6) (b : R6) (z : BitVec 2)
  /-- AMO_XOR (R351). -/
  | amoXor (d : R6) (a : R6) (b : R6) (z : BitVec 2)
  /-- AMO_MIN (R351). -/
  | amoMin (d : R6) (a : R6) (b : R6) (z : BitVec 2)
  /-- AMO_MAX (R351). -/
  | amoMax (d : R6) (a : R6) (b : R6) (z : BitVec 2)
  /-- AMO_MINU (R351). -/
  | amoMinu (d : R6) (a : R6) (b : R6) (z : BitVec 2)
  /-- AMO_MAXU (R351). -/
  | amoMaxu (d : R6) (a : R6) (b : R6) (z : BitVec 2)
  /-- AMO_XCHG (R351). -/
  | amoXchg (d : R6) (a : R6) (b : R6) (z : BitVec 2)
  /-- AMO_FADD (R351). -/
  | amoFadd (d : R6) (a : R6) (b : R6)
  /-- CAS (R352). -/
  | cas (d : R6) (a : R6) (b : R6) (z : BitVec 2)
  /-- BR (R353). -/
  | br (c : BitVec 4) (h : BitVec 2) (a : R6) (o : BitVec 14)
  /-- CHECK_S (R355). -/
  | checkS (h : BitVec 2) (a : R6) (o : BitVec 14)
  /-- CHECK_P (R355). -/
  | checkP (h : BitVec 2) (a : BitVec 3) (o : BitVec 14)
  /-- LOOP (R357). -/
  | loop (l : BitVec 2) (a : R6) (o : BitVec 14)
  /-- JMP (R354). -/
  | jmp (o : BitVec 26)
  /-- CALL (R354). -/
  | call (o : BitVec 26)
  /-- SEL (R356). -/
  | sel (d : R6) (a : R6) (b : R6) (p : BitVec 3)
  /-- SXV (R358). -/
  | sxv (d : R5) (a : R6)
  /-- VXS (R359). -/
  | vxs (d : R6) (a : R5) (b : R6)
  /-- GO (R361). -/
  | go (e : BitVec 4) (g : BitVec 6) (t : BitVec 16)
  /-- PUSH (R362). -/
  | push (d : R6)
  /-- TLWAIT (R363). -/
  | tlwait (d : R6) (q : R6) (i : BitVec 14)
  /-- TLREAD (R364). -/
  | tlread (d : R6) (q : R6)
  /-- TLREAD_FAIL (R364). -/
  | tlreadFail (d : R6) (q : R6)
  /-- POP (R365). -/
  | pop (d : R6)
  /-- POP_TAG (R365). -/
  | popTag (d : R6)
  /-- PEEKQ (R366). -/
  | peekq (d : R6)
  /-- XLATE_READ (R204). -/
  | xlateRead (h : BitVec 4) (a : R6)
  /-- XLATE_WRITE (R204). -/
  | xlateWrite (h : BitVec 4) (a : R6)
  /-- SLOOK (R215). -/
  | slook (d : R6) (a : R6) (b : R6)
  /-- SFILL (R215). -/
  | sfill (d : R6) (a : R6) (b : R6)
  /-- SEVICT (R215). -/
  | sevict (d : R6) (a : R6)
  /-- PHASE (R181). -/
  | phase (a : R6) (i : BitVec 8)
  /-- WID (R371). -/
  | wid (d : R6) (i : BitVec 14)
  /-- CSRR (R372). -/
  | csrr (k : BitVec 14) (a : R6)
  /-- CSRW (R372). -/
  | csrw (k : BitVec 14) (a : R6)
  /-- NOP (R382). -/
  | nop
  /-- MARK (R228). -/
  | mark
  /-- FENCE (R229). -/
  | fence (s : BitVec 2)
  /-- TRAP (R380). -/
  | trap (k : BitVec 14)
  /-- HALT (R379). -/
  | halt
  /-- DONE (R378). -/
  | done
  /-- RET (R354). -/
  | ret
  /-- CAD (R373). -/
  | cad (d : R6)
  /-- TICK (R374). -/
  | tick (k : BitVec 14) (a : R6)
  /-- STAND (R54). -/
  | stand (a : R6)
  /-- STAND_Q (R54). -/
  | standQ (a : R6)
  /-- BAR (R176). -/
  | bar (l : BitVec 2) (i : BitVec 4)
  /-- XINV (R205). -/
  | xinv (h : BitVec 4)
  /-- FLOAD (R483). -/
  | fload (g : R6) (t : BitVec 16)
  /-- FBIND (R484). -/
  | fbind (g : R6) (c : BitVec 4)
  /-- VADD (R392). -/
  | vadd (d : R5) (a : R5) (b : R5) (m : BitVec 3) (r : BitVec 2)
  /-- VSUB (R392). -/
  | vsub (d : R5) (a : R5) (b : R5) (m : BitVec 3) (r : BitVec 2)
  /-- VMUL (R392). -/
  | vmul (d : R5) (a : R5) (b : R5) (m : BitVec 3) (r : BitVec 2)
  /-- VDIV (R392). -/
  | vdiv (d : R5) (a : R5) (b : R5) (m : BitVec 3) (r : BitVec 2)
  /-- VMIN (R393). -/
  | vmin (d : R5) (a : R5) (b : R5) (m : BitVec 3)
  /-- VMAX (R393). -/
  | vmax (d : R5) (a : R5) (b : R5) (m : BitVec 3)
  /-- VFMA (R392). -/
  | vfma (d : R5) (a : R5) (b : R5) (c : R5) (m : BitVec 3) (r : BitVec 2)
  /-- VSQRT (R392). -/
  | vsqrt (d : R5) (a : R5) (m : BitVec 3) (r : BitVec 2)
  /-- VRCP (R392). -/
  | vrcp (d : R5) (a : R5) (m : BitVec 3) (r : BitVec 2)
  /-- VRSQRT (R392). -/
  | vrsqrt (d : R5) (a : R5) (m : BitVec 3) (r : BitVec 2)
  /-- VEXP2 (R392). -/
  | vexp2 (d : R5) (a : R5) (m : BitVec 3) (r : BitVec 2)
  /-- VLOG2 (R392). -/
  | vlog2 (d : R5) (a : R5) (m : BitVec 3) (r : BitVec 2)
  /-- VLN (R392). -/
  | vln (d : R5) (a : R5) (m : BitVec 3) (r : BitVec 2)
  /-- VTANH (R392). -/
  | vtanh (d : R5) (a : R5) (m : BitVec 3) (r : BitVec 2)
  /-- VNEG (R394). -/
  | vneg (d : R5) (a : R5) (m : BitVec 3)
  /-- VABS (R394). -/
  | vabs (d : R5) (a : R5) (m : BitVec 3)
  /-- VIADD (R395). -/
  | viadd (d : R5) (a : R5) (b : R5) (m : BitVec 3)
  /-- VISUB (R395). -/
  | visub (d : R5) (a : R5) (b : R5) (m : BitVec 3)
  /-- VIMUL (R395). -/
  | vimul (d : R5) (a : R5) (b : R5) (m : BitVec 3)
  /-- VIMIN (R395). -/
  | vimin (d : R5) (a : R5) (b : R5) (m : BitVec 3)
  /-- VIMAX (R395). -/
  | vimax (d : R5) (a : R5) (b : R5) (m : BitVec 3)
  /-- VAND (R395). -/
  | vand (d : R5) (a : R5) (b : R5) (m : BitVec 3)
  /-- VOR (R395). -/
  | vor (d : R5) (a : R5) (b : R5) (m : BitVec 3)
  /-- VXOR (R395). -/
  | vxor (d : R5) (a : R5) (b : R5) (m : BitVec 3)
  /-- VSHL (R395). -/
  | vshl (d : R5) (a : R5) (b : R5) (m : BitVec 3)
  /-- VSHR (R395). -/
  | vshr (d : R5) (a : R5) (b : R5) (m : BitVec 3)
  /-- VSHRA (R395). -/
  | vshra (d : R5) (a : R5) (b : R5) (m : BitVec 3)
  /-- VIADDS (R395). -/
  | viadds (d : R5) (a : R5) (b : R5) (m : BitVec 3)
  /-- VCMPEQ (R396). -/
  | vcmpeq (d : BitVec 3) (a : R5) (b : R5) (m : BitVec 3)
  /-- VCMPNE (R396). -/
  | vcmpne (d : BitVec 3) (a : R5) (b : R5) (m : BitVec 3)
  /-- VCMPLT (R396). -/
  | vcmplt (d : BitVec 3) (a : R5) (b : R5) (m : BitVec 3)
  /-- VCMPLE (R396). -/
  | vcmple (d : BitVec 3) (a : R5) (b : R5) (m : BitVec 3)
  /-- VSEL (R397). -/
  | vsel (d : R5) (a : R5) (b : R5) (c : BitVec 3) (m : BitVec 3)
  /-- VMAND (R398). -/
  | vmand (d : BitVec 3) (a : BitVec 3) (b : BitVec 3)
  /-- VMOR (R398). -/
  | vmor (d : BitVec 3) (a : BitVec 3) (b : BitVec 3)
  /-- VMXOR (R398). -/
  | vmxor (d : BitVec 3) (a : BitVec 3) (b : BitVec 3)
  /-- VMNOT (R398). -/
  | vmnot (d : BitVec 3) (a : BitVec 3)
  /-- VCVT (R399). -/
  | vcvt (d : R5) (a : R5) (t : R5) (o : BitVec 1) (m : BitVec 3) (r : BitVec 2)
  /-- VPACK (R400). -/
  | vpack (d : R5) (a : R5) (f : R5) (c : R5) (r : BitVec 2)
  /-- VUNPACK (R401). -/
  | vunpack (d : R5) (a : R5) (f : R5) (c : R5)
  /-- VPRUNE24 (R402). -/
  | vprune24 (d : R5) (a : R5) (b : R5) (m : BitVec 3)
  /-- VRSUM (R403). -/
  | vrsum (d : R5) (a : R5) (m : BitVec 3)
  /-- VRMAX (R403). -/
  | vrmax (d : R5) (a : R5) (m : BitVec 3)
  /-- VRMIN (R403). -/
  | vrmin (d : R5) (a : R5) (m : BitVec 3)
  /-- VSCAN (R403). -/
  | vscan (d : R5) (a : R5) (m : BitVec 3)
  /-- VARGMAX (R403). -/
  | vargmax (d : R5) (a : R5) (m : BitVec 3)
  /-- VPOPNZ (R403). -/
  | vpopnz (d : R5) (a : R5) (m : BitVec 3)
  /-- VNZMAP (R403). -/
  | vnzmap (d : R5) (a : R5) (m : BitVec 3)
  /-- VPERM (R404). -/
  | vperm (d : R5) (a : R5) (b : R5) (m : BitVec 3)
  /-- VSLIDE (R404). -/
  | vslide (d : R5) (a : R5) (b : R5) (m : BitVec 3)
  /-- VBCAST (R404). -/
  | vbcast (d : R5) (a : R5) (b : R5) (m : BitVec 3)
  /-- VLD (R405). -/
  | vld (d : R5) (a : R5) (o : BitVec 15)
  /-- VST (R405). -/
  | vst (d : R5) (a : R5) (o : BitVec 15)
  /-- VRAND (R407). -/
  | vrand (d : R5) (a : R5) (b : R5) (m : BitVec 3)
  /-- VTGET (R414). -/
  | vtget (d : R5) (a : R5) (b : BitVec 3) (m : BitVec 3)
  /-- VTSET (R414). -/
  | vtset (d : R5) (a : R5) (b : BitVec 3) (m : BitVec 3)
  /-- SHAPE (R408). -/
  | shape (t : BitVec 4) (f : BitVec 1) (g : BitVec 4) (l : BitVec 13)
  /-- SHAPER (R409). -/
  | shaper (a : R5)
  /-- TAN (R411). -/
  | tan (s : BitVec 3) (a : BitVec 1) (b : BitVec 1) (c : BitVec 1)
  /-- VNOP (R410). -/
  | vnop (n : BitVec 16)
  /-- MNOP (R435). -/
  | mnop (n : BitVec 16)
  /-- MLOADW (R419). -/
  | mloadw (e : BitVec 17)
  /-- MSWAP (R421). -/
  | mswap
  /-- MRUN (R428). -/
  | mrun (n : BitVec 2) (r : BitVec 8) (t : BitVec 12) (e : BitVec 17)
  /-- MRUN_S (R429). -/
  | mrunS (n : BitVec 2) (r : BitVec 8) (m : BitVec 4) (t : BitVec 12) (e : BitVec 17)
  /-- MMETA (R422). -/
  | mmeta (n : BitVec 4) (e : BitVec 17)
  /-- MSCQ (R424). -/
  | mscq (n : BitVec 9) (e : BitVec 20)
  /-- MSCMODE (R423). -/
  | mscmode (m : BitVec 1)
  /-- MDRAIN (R432). -/
  | mdrain (n : BitVec 2) (r0 : BitVec 8) (r : BitVec 8) (f : BitVec 4) (t : BitVec 15) (e : BitVec 17)
  /-- MZERO (R431). -/
  | mzero (n : BitVec 2)
  /-- MSETA (R425). -/
  | mseta (e : BitVec 17)
  /-- MMODE (R417). -/
  | mmode (x : BitVec 1) (a : BitVec 4) (w : BitVec 4)
  /-- XFNOP (R330). -/
  | xfnop (n : BitVec 16)
  /-- XFCOPY (R442). -/
  | xfcopy (e : BitVec 16)
  /-- XFCAST (R445). -/
  | xfcast (e : BitVec 16)
  /-- XFZIP (R447). -/
  | xfzip (e : BitVec 16)
  /-- XFUNZIP (R448). -/
  | xfunzip (e : BitVec 16)
  /-- XFFILL (R446). -/
  | xffill (e : BitVec 16)
  /-- XFSEND (R450). -/
  | xfsend (e : BitVec 16)
  /-- XFRECV (R451). -/
  | xfrecv (e : BitVec 16)
  /-- XFVIRT (R452). -/
  | xfvirt (e : BitVec 16)
  /-- IXNOP (R455). -/
  | ixnop (n : BitVec 16)
  /-- IXGATHER (R460). -/
  | ixgather (e : BitVec 17)
  /-- IXSCATTER (R460). -/
  | ixscatter (e : BitVec 17)
  /-- IXSCADD (R460). -/
  | ixscadd (e : BitVec 17)
  /-- IXCOUNT (R460). -/
  | ixcount (e : BitVec 17)
  /-- IXCOMPACT (R460). -/
  | ixcompact (e : BitVec 17)
  /-- IXHIST (R460). -/
  | ixhist (e : BitVec 17)
  /-- IXAMO (R460). -/
  | ixamo (e : BitVec 17)
  /-- IXCAS (R460). -/
  | ixcas (e : BitVec 17)
  /-- INDEX_COMMAND_START (R459). -/
  | indexCommandStart
  /-- INDEX_COMMAND_END (R459). -/
  | indexCommandEnd
  /-- DKEYS (R468). -/
  | dkeys (n : BitVec 13) (k : BitVec 2) (w : BitVec 8) (e : BitVec 17)
  /-- DMATCH (R469). -/
  | dmatch (d : BitVec 3) (m : BitVec 3) (u : BitVec 1) (r : BitVec 13) (p : BitVec 1) (e : BitVec 17)
  /-- DMERGE (R470). -/
  | dmerge (m : BitVec 3) (w : BitVec 11) (e : BitVec 17)
  /-- DUNMERGE (R471). -/
  | dunmerge (m : BitVec 3) (w : BitVec 11) (e : BitVec 17)
  /-- DCOMPOSE (R472). -/
  | dcompose (d : BitVec 3) (a : BitVec 3) (b : BitVec 3)
  /-- DSIZES (R473). -/
  | dsizes (m : BitVec 3) (e : BitVec 17)
  /-- DSAVE (R473). -/
  | dsave (m : BitVec 3) (e : BitVec 17)
  /-- DLOAD (R473). -/
  | dload (m : BitVec 3) (e : BitVec 17)
  /-- DRAFTING_COMMAND_END (R466). -/
  | draftingCommandEnd
  /-- FNOP (R331). -/
  | fnop
  /-- FADD (R477). -/
  | fadd (d : BitVec 4) (a : R5) (b : R5)
  /-- FMUL (R477). -/
  | fmul (d : BitVec 4) (a : R5) (b : R5)
  /-- FMAX (R477). -/
  | fmax (d : BitVec 4) (a : R5) (b : R5)
  /-- FMIN (R477). -/
  | fmin (d : BitVec 4) (a : R5) (b : R5)
  /-- FCMP (R477). -/
  | fcmp (d : BitVec 4) (a : R5) (b : R5) (c : BitVec 2)
  /-- FSEL (R477). -/
  | fsel (d : BitVec 4) (a : R5) (b : R5) (c : R5)
  /-- FACC (R477). -/
  | facc (d : BitVec 4) (a : R5)
  /-- FMOV (R478). -/
  | fmov (d : BitVec 4) (a : R5)
  /-- FROUTE (R478). -/
  | froute (a : R5) (m : BitVec 4)
  /-- FTAKE (R480). -/
  | ftake (d : BitVec 4)
  /-- FEMIT (R481). -/
  | femit (a : R5)
  /-- FLOOPB (R478). -/
  | floopb (t : BitVec 6) (c : BitVec 1) (f : BitVec 4)
  /-- FCVT (R479). -/
  | fcvt (d : BitVec 4) (a : R5) (f : BitVec 3) (t : BitVec 3) (p : BitVec 2)
  /-- FZIP (R479). -/
  | fzip (d : BitVec 4) (a : R5) (b : R5)
  /-- FUNZIP (R479). -/
  | funzip (d : BitVec 4) (a : R5) (h : BitVec 1)
  /-- SEGMENT_START (R174). -/
  | segmentStart
  /-- MATRIX_STEP_COMMIT (R279). -/
  | matrixStepCommit
  /-- TRANSFER_WORD_END (R441). -/
  | transferWordEnd
  /-- REPLY_PORT_ENTRY (R288). -/
  | replyPortEntry
  /-- STORE_MARK_CLOSE (R228). -/
  | storeMarkClose
  /-- FENCE_END (R229). -/
  | fenceEnd
  /-- TLWAIT_END (R363). -/
  | tlwaitEnd
  /-- TICK_EXPIRY (R374). -/
  | tickExpiry
  /-- POP_TAKE (R365). -/
  | popTake
  /-- BARRIER_RELEASE (R177). -/
  | barrierRelease
  /-- ITEM_START (R171). -/
  | itemStart
  /-- ITEM_END (R175). -/
  | itemEnd
  /-- LAUNCH_COMPLETION (R112). -/
  | launchCompletion
  /-- LAUNCH_ABORT (R240). -/
  | launchAbort
  /-- PHASE_DIRECTORY_ANSWER (R185). -/
  | phaseDirectoryAnswer
  /-- HUB_GRANT (R144). -/
  | hubGrant
  /-- AGEING_TICK (R145). -/
  | ageingTick
  /-- DOORBELL_KICK (R105). -/
  | doorbellKick
  /-- SLOT_FETCH (R106). -/
  | slotFetch
  /-- LAUNCH_VALIDATE (R111). -/
  | launchValidate
  /-- SLOT_SAVE (R108). -/
  | slotSave
  /-- SLOT_RESTORE (R108). -/
  | slotRestore
  /-- PREEMPT_REQUEST (R153). -/
  | preemptRequest
  /-- SLOT_ABORT (R139). -/
  | slotAbort
  /-- COUNTED_PREEMPTION (R260). -/
  | countedPreemption
  /-- COUNTED_RESUME (R244). -/
  | countedResume
  /-- WATCHDOG_EXPIRY (R152). -/
  | watchdogExpiry
  /-- BACKSTOP_RESET (R156). -/
  | backstopReset
  /-- HALT_LIMIT_RESET (R251). -/
  | haltLimitReset
  /-- PARTITION_RESET (R158). -/
  | partitionReset
  /-- PARTITION_RESET_DONE (R158). -/
  | partitionResetDone
  /-- PARTITION_SCRUB (R131). -/
  | partitionScrub
  /-- LDMAP_LOCK (R25). -/
  | ldmapLock
  /-- LDMAP_UNLOCK (R26). -/
  | ldmapUnlock
  /-- DIE_FAILURE (R27). -/
  | dieFailure
  /-- PACELINE_FORM (R51). -/
  | pacelineForm
  /-- PACELINE_DISSOLVE (R50). -/
  | pacelineDissolve
  /-- LINK_TRAINING_DONE (R36). -/
  | linkTrainingDone
  /-- FRAME_TRANSMIT (R37). -/
  | frameTransmit
  /-- BAD_FRAME (R40). -/
  | badFrame
  /-- TIMED_BEAT_DELIVERY (R41). -/
  | timedBeatDelivery
  /-- COUNTED_BEAT_RECEIVE (R44). -/
  | countedBeatReceive
  /-- COUNTED_RETRY_TIMEOUT (R44). -/
  | countedRetryTimeout
  /-- READ_REQUEST (R202). -/
  | readRequest
  /-- READ_REPLY (R202). -/
  | readReply
  /-- WRITE (R202). -/
  | write
  /-- WRITE_ACKNOWLEDGEMENT (R202). -/
  | writeAcknowledgement
  /-- ATOMIC_REQUEST (R202). -/
  | atomicRequest
  /-- ATOMIC_REPLY (R202). -/
  | atomicReply
  /-- CONTROL_SPACE_READ (R202). -/
  | controlSpaceRead
  /-- FENCE_MARKER (R202). -/
  | fenceMarker
  /-- COUNTED_REPLY_DEADLINE (R200). -/
  | countedReplyDeadline
  /-- SAMPLE_RECEIVE (R47). -/
  | sampleReceive
  /-- SUBMIN_RECEIVE (R52). -/
  | subminReceive
  /-- DOWN_RECEIVE (R52). -/
  | downReceive
  /-- COAST_RECEIVE (R64). -/
  | coastReceive
  /-- COAST_APPLY (R64). -/
  | coastApply
  /-- HALT_FRAME_RECEIVE (R246). -/
  | haltFrameReceive
  /-- RELEASE_FRAME_RECEIVE (R249). -/
  | releaseFrameReceive
  /-- STAND_ADOPTION (R55). -/
  | standAdoption
  /-- STAND_LEAD_CHECK (R56). -/
  | standLeadCheck
  /-- STAND_HOLD (R57). -/
  | standHold
  /-- STAND_RESUME (R57). -/
  | standResume
  /-- IDLE_STAND_ARM (R519). -/
  | idleStandArm
  /-- QUIET_SAVE (R262). -/
  | quietSave
  /-- TIMED_RESUME (R263). -/
  | timedResume
  /-- FAULT_REPORT_RECEIVE (R116). -/
  | faultReportReceive
  /-- PAGE_FAULT_BATCH_CLOSE (R117). -/
  | pageFaultBatchClose
  /-- PACELINE_HOLD (R247). -/
  | pacelineHold
  /-- PACELINE_RELEASE (R249). -/
  | pacelineRelease
  /-- PACELINE_ABORT (R250). -/
  | pacelineAbort
  /-- FRTAIL_WRITE (R116). -/
  | frtailWrite
  /-- FAULT_RING_ENABLE (R115). -/
  | faultRingEnable
  /-- MAILBOX_GO (R118). -/
  | mailboxGo
  /-- MAILBOX_DONE (R118). -/
  | mailboxDone
  /-- QCREATE (R149). -/
  | qcreate
  /-- QDESTROY (R149). -/
  | qdestroy
  /-- QRESTART (R147). -/
  | qrestart
  /-- QSTAT (R149). -/
  | qstat
  /-- QPRIO (R149). -/
  | qprio
  /-- PSUSPEND (R149). -/
  | psuspend
  /-- PSUSPEND_RESPONSE (R149). -/
  | psuspendResponse
  /-- PRESUME (R149). -/
  | presume
  /-- PRESET (R149). -/
  | preset
  /-- PCONFIG (R150). -/
  | pconfig
  /-- PACEFORM (R150). -/
  | paceform
  /-- SCHED (R150). -/
  | sched
  /-- SLEEP_REQUEST (R133). -/
  | sleepRequest
  /-- PRESET_PF (R150). -/
  | presetPf
  /-- RECOVERY_IMAGE_LOAD (R123). -/
  | recoveryImageLoad
  /-- COLD_RESET (R122). -/
  | coldReset
  /-- FIRMWARE_FIRST_REPORT (R122). -/
  | firmwareFirstReport
  /-- DEBUG_TOKEN (R132). -/
  | debugToken
  /-- GET_VERSION (R127). -/
  | getVersion
  /-- GET_CAPABILITIES (R127). -/
  | getCapabilities
  /-- NEGOTIATE_ALGORITHMS (R127). -/
  | negotiateAlgorithms
  /-- GET_DIGESTS (R127). -/
  | getDigests
  /-- GET_CERTIFICATE (R127). -/
  | getCertificate
  /-- CHALLENGE (R127). -/
  | challenge
  /-- GET_MEASUREMENTS (R127). -/
  | getMeasurements
  /-- KEY_EXCHANGE (R127). -/
  | keyExchange
  /-- FINISH (R127). -/
  | finish
  /-- END_SESSION (R127). -/
  | endSession
  /-- VENDOR_DEFINED_REQUEST (R127). -/
  | vendorDefinedRequest
  /-- IDE_KM (R129). -/
  | ideKm
  /-- TDISP_LOCK_INTERFACE (R129). -/
  | tdispLockInterface
  /-- TDISP_START_INTERFACE (R129). -/
  | tdispStartInterface
  /-- TDISP_STOP_INTERFACE (R129). -/
  | tdispStopInterface
  /-- TDISP_ERROR (R129). -/
  | tdispError
  /-- DEBUG_WINDOW_ACCESS (R101). -/
  | debugWindowAccess
  /-- CONTROL_WINDOW_WRITE (R98). -/
  | controlWindowWrite
  /-- RANKTAB_WRITE (R91). -/
  | ranktabWrite
  /-- XLINV_SHOOTDOWN (R210). -/
  | xlinvShootdown
  /-- SHOOTDOWN (R211). -/
  | shootdown
  /-- XLRETRY (R212). -/
  | xlretry
  /-- TRANSLATION_FILL_REQUEST (R209). -/
  | translationFillRequest
  /-- TRANSLATION_FILL_REPLY (R206). -/
  | translationFillReply
  /-- ENDPOINT_PACKET (R75). -/
  | endpointPacket
  /-- ENDPOINT_PACKET_DELIVER (R78). -/
  | endpointPacketDeliver
  /-- EUZIN_FLIT_RECEIVE (R68). -/
  | euzinFlitReceive
  /-- FLIT_TRANSMIT (R70). -/
  | flitTransmit
  /-- FLIT_RETRY_TIMEOUT (R68). -/
  | flitRetryTimeout
  /-- LONG_LINK_TRAINED (R72). -/
  | longLinkTrained
  /-- COLLECTIVE_CONTRIBUTION (R89). -/
  | collectiveContribution
  /-- READY (R88). -/
  | ready
  /-- COMMIT (R88). -/
  | commit
  /-- ABORT (R88). -/
  | abort
  /-- COLLECTIVE_TIME_LIMIT (R88). -/
  | collectiveTimeLimit
  /-- POWER_LIMIT_EVALUATION (R32). -/
  | powerLimitEvaluation
  /-- VCORE_CURRENT_EVALUATION (R32). -/
  | vcoreCurrentEvaluation
  /-- THERMAL_TRIP (R34). -/
  | thermalTrip
  /-- TRIP_EXIT (R34). -/
  | tripExit
  /-- IDLE_RETAIN_ENTRY (R133). -/
  | idleRetainEntry
  /-- WAKE_FROM_IDLE (R133). -/
  | wakeFromIdle
  /-- WAKE_FROM_SLEEP (R135). -/
  | wakeFromSleep
  /-- POWER_OFF (R133). -/
  | powerOff
  /-- DRAFTING_COMMAND_START (R466). -/
  | draftingCommandStart
  /-- PARTITION_SCRUB_DONE (R131). -/
  | partitionScrubDone
  deriving DecidableEq, Repr

end Sys2Proof
end

