-- ==== Sys2Proof/WellFormed.lean ====
section
/-! DEFINITION. The limits that the maps give a field beyond its width (R324 to R331 and the instruction
chapters): an instruction that breaks one has no encoding (R332). -/

namespace Sys2Proof

/-- The control-register numbers that R167 and R201 define. -/
def isControlReg (k : Nat) : Bool := decide ((0x10 ≤ k ∧ k ≤ 0x19) ∨ (0x1A ≤ k ∧ k ≤ 0x1D))

/-- The combinations of AMX, AF and WF that R418 lists. -/
def legalMode (x a w : Nat) : Bool :=
  (decide (a ≤ 1) && decide (w ≤ 2)) ||
  (decide (a = 2) && decide (w ≤ 2) && decide (x = 1)) ||
  (decide (a ≤ 1) && decide (w = 5 ∨ w = 6) && decide (x = 0)) ||
  (decide (a = 3 ∧ w = 3 ∧ x = 0)) ||
  (decide (a = 4 ∧ w = 4 ∧ x = 0))

/-- Elements of an INFMT-coded format in a 64-bit word (R479): two lanes of FP32, four of 16 bits, eight of 8 bits. -/
def fabricElems (f : Nat) : Nat := if f = 0 then 2 else if f ≤ 2 then 4 else 8

/-- FCVT: exactly one of `f` and `t` is FP32 and `p` lies below half the narrow element count (R479). -/
def legalFcvt (f t p : Nat) : Bool :=
  (decide (f = 0) && decide (1 ≤ t ∧ t ≤ 4) && decide (2 * p < fabricElems t)) ||
  (decide (t = 0) && decide (1 ≤ f ∧ f ≤ 4) && decide (2 * p < fabricElems f))

/-- The instruction's fields lie within the limits of the maps. -/
def Instr.wf : Instr → Bool
  | .add .. => true
  | .sub .. => true
  | .and .. => true
  | .or .. => true
  | .xor .. => true
  | .shl .. => true
  | .shr .. => true
  | .shra .. => true
  | .rol .. => true
  | .ror .. => true
  | .min .. => true
  | .max .. => true
  | .minu .. => true
  | .maxu .. => true
  | .slt .. => true
  | .sltu .. => true
  | .mul .. => true
  | .mulh .. => true
  | .mulhu .. => true
  | .div .. => true
  | .divu .. => true
  | .rem .. => true
  | .remu .. => true
  | .cmpeq .. => true
  | .cmplt .. => true
  | .cmpltu .. => true
  | .addi .. => true
  | .andi .. => true
  | .ori .. => true
  | .xori .. => true
  | .shli .. => true
  | .shri .. => true
  | .shrai .. => true
  | .slti .. => true
  | .sltui .. => true
  | .muli .. => true
  | .lil .. => true
  | .lih .. => true
  | .lea .. => true
  | .ptag .. => true
  | .pspace .. => true
  | .sfadd .. => true
  | .sfsub .. => true
  | .sfmul .. => true
  | .sfdiv .. => true
  | .sfsqrt .. => true
  | .sfmin .. => true
  | .sfmax .. => true
  | .sfeq .. => true
  | .sflt .. => true
  | .sfle .. => true
  | .sfcvts .. => true
  | .sfcvtf .. => true
  | .ld .. => true
  | .st .. => true
  | .ldx .. => true
  | .stx .. => true
  | .amoAdd _ _ _ z => decide (2 ≤ z.toNat)
  | .amoAnd _ _ _ z => decide (2 ≤ z.toNat)
  | .amoOr _ _ _ z => decide (2 ≤ z.toNat)
  | .amoXor _ _ _ z => decide (2 ≤ z.toNat)
  | .amoMin _ _ _ z => decide (2 ≤ z.toNat)
  | .amoMax _ _ _ z => decide (2 ≤ z.toNat)
  | .amoMinu _ _ _ z => decide (2 ≤ z.toNat)
  | .amoMaxu _ _ _ z => decide (2 ≤ z.toNat)
  | .amoXchg _ _ _ z => decide (2 ≤ z.toNat)
  | .amoFadd .. => true
  | .cas _ _ _ z => decide (2 ≤ z.toNat)
  | .br c h a _ => decide (c.toNat ≤ 7 ∧ h.toNat ≤ 1 ∧ (6 ≤ c.toNat → a.toNat < 8))
  | .checkS h _ _ => decide (h.toNat ≤ 1)
  | .checkP h _ _ => decide (h.toNat ≤ 1)
  | .loop _ _ o => decide (1 ≤ o.toNat ∧ o.toNat ≤ 8191)
  | .jmp .. => true
  | .call .. => true
  | .sel .. => true
  | .sxv .. => true
  | .vxs .. => true
  | .go e _ _ => decide (1 ≤ e.toNat ∧ e.toNat ≤ 5)
  | .push .. => true
  | .tlwait _ q _ => decide (q.toNat ≤ 6)
  | .tlread _ q => decide (q.toNat ≤ 6)
  | .tlreadFail _ q => decide (q.toNat ≤ 6)
  | .pop .. => true
  | .popTag .. => true
  | .peekq .. => true
  | .xlateRead .. => true
  | .xlateWrite .. => true
  | .slook .. => true
  | .sfill .. => true
  | .sevict .. => true
  | .phase .. => true
  | .wid _ i => decide (i.toNat ≤ 7)
  | .csrr k _ => isControlReg k.toNat
  | .csrw k _ => isControlReg k.toNat
  | .nop => true
  | .mark => true
  | .fence .. => true
  | .trap .. => true
  | .halt => true
  | .done => true
  | .ret => true
  | .cad .. => true
  | .tick .. => true
  | .stand .. => true
  | .standQ .. => true
  | .bar l _ => decide (l.toNat ≤ 2)
  | .xinv .. => true
  | .fload g _ => decide (g.toNat ≤ 15)
  | .fbind g _ => decide (g.toNat ≤ 15)
  | .vadd .. => true
  | .vsub .. => true
  | .vmul .. => true
  | .vdiv .. => true
  | .vmin .. => true
  | .vmax .. => true
  | .vfma .. => true
  | .vsqrt .. => true
  | .vrcp .. => true
  | .vrsqrt .. => true
  | .vexp2 .. => true
  | .vlog2 .. => true
  | .vln .. => true
  | .vtanh .. => true
  | .vneg .. => true
  | .vabs .. => true
  | .viadd .. => true
  | .visub .. => true
  | .vimul .. => true
  | .vimin .. => true
  | .vimax .. => true
  | .vand .. => true
  | .vor .. => true
  | .vxor .. => true
  | .vshl .. => true
  | .vshr .. => true
  | .vshra .. => true
  | .viadds .. => true
  | .vcmpeq .. => true
  | .vcmpne .. => true
  | .vcmplt .. => true
  | .vcmple .. => true
  | .vsel .. => true
  | .vmand .. => true
  | .vmor .. => true
  | .vmxor .. => true
  | .vmnot .. => true
  | .vcvt _ _ t _ _ _ => decide (t.toNat ≤ 10)
  | .vpack _ _ f _ _ => decide (f.toNat ≤ 4)
  | .vunpack _ _ f _ => decide (f.toNat ≤ 4)
  | .vprune24 .. => true
  | .vrsum .. => true
  | .vrmax .. => true
  | .vrmin .. => true
  | .vscan .. => true
  | .vargmax .. => true
  | .vpopnz .. => true
  | .vnzmap .. => true
  | .vperm .. => true
  | .vslide .. => true
  | .vbcast .. => true
  | .vld .. => true
  | .vst .. => true
  | .vrand .. => true
  | .vtget _ _ b _ => decide (1 ≤ b.toNat ∧ b.toNat ≤ 4)
  | .vtset _ _ b _ => decide (1 ≤ b.toNat ∧ b.toNat ≤ 4)
  | .shape t _ _ _ => decide (t.toNat ≤ 10)
  | .shaper .. => true
  | .tan s _ _ _ => decide (s.toNat ≤ 4)
  | .vnop .. => true
  | .mnop .. => true
  | .mloadw .. => true
  | .mswap => true
  | .mrun .. => true
  | .mrunS _ _ m _ _ => decide (m.toNat % 2 = 0)
  | .mmeta .. => true
  | .mscq .. => true
  | .mscmode .. => true
  | .mdrain _ r0 r f _ _ => decide (f.toNat ≤ 6 ∧ r0.toNat + r.toNat + 1 ≤ 256)
  | .mzero .. => true
  | .mseta .. => true
  | .mmode x a w => legalMode x.toNat a.toNat w.toNat
  | .xfnop .. => true
  | .xfcopy .. => true
  | .xfcast .. => true
  | .xfzip .. => true
  | .xfunzip .. => true
  | .xffill .. => true
  | .xfsend .. => true
  | .xfrecv .. => true
  | .xfvirt .. => true
  | .ixnop .. => true
  | .ixgather .. => true
  | .ixscatter .. => true
  | .ixscadd .. => true
  | .ixcount .. => true
  | .ixcompact .. => true
  | .ixhist .. => true
  | .ixamo .. => true
  | .ixcas .. => true
  | .indexCommandStart => true
  | .indexCommandEnd => true
  | .dkeys n k w _ => decide (n.toNat < 8192 ∧ k.toNat ≤ 2 ∧ w.toNat < 256)
  | .dmatch _ m u r p e => decide (r.toNat ≤ 4096 ∧ (u.toNat = 1 → m.toNat = 0) ∧ (p.toNat = 0 → e.toNat = 0))
  | .dmerge .. => true
  | .dunmerge .. => true
  | .dcompose .. => true
  | .dsizes .. => true
  | .dsave .. => true
  | .dload .. => true
  | .draftingCommandEnd => true
  | .fnop => true
  | .fadd _ a b => decide (a.toNat ≤ 20 ∧ b.toNat ≤ 20)
  | .fmul _ a b => decide (a.toNat ≤ 20 ∧ b.toNat ≤ 20)
  | .fmax _ a b => decide (a.toNat ≤ 20 ∧ b.toNat ≤ 20)
  | .fmin _ a b => decide (a.toNat ≤ 20 ∧ b.toNat ≤ 20)
  | .fcmp _ a b _ => decide (a.toNat ≤ 20 ∧ b.toNat ≤ 20)
  | .fsel _ a b c => decide (a.toNat ≤ 20 ∧ b.toNat ≤ 20 ∧ c.toNat ≤ 20)
  | .facc _ a => decide (a.toNat ≤ 20)
  | .fmov _ a => decide (a.toNat ≤ 20)
  | .froute a m => decide (a.toNat ≤ 20 ∧ m.toNat ≠ 0)
  | .ftake .. => true
  | .femit a => decide (a.toNat ≤ 20)
  | .floopb _ c f => decide (c.toNat = 0 → f.toNat = 0)
  | .fcvt _ a f t p => decide (a.toNat ≤ 20) && legalFcvt f.toNat t.toNat p.toNat
  | .fzip _ a b => decide (a.toNat ≤ 20 ∧ b.toNat ≤ 20)
  | .funzip _ a _ => decide (a.toNat ≤ 20)
  | .segmentStart => true
  | .matrixStepCommit => true
  | .transferWordEnd => true
  | .replyPortEntry => true
  | .storeMarkClose => true
  | .fenceEnd => true
  | .tlwaitEnd => true
  | .tickExpiry => true
  | .popTake => true
  | .barrierRelease => true
  | .itemStart => true
  | .itemEnd => true
  | .launchCompletion => true
  | .launchAbort => true
  | .phaseDirectoryAnswer => true
  | .hubGrant => true
  | .ageingTick => true
  | .doorbellKick => true
  | .slotFetch => true
  | .launchValidate => true
  | .slotSave => true
  | .slotRestore => true
  | .preemptRequest => true
  | .slotAbort => true
  | .countedPreemption => true
  | .countedResume => true
  | .watchdogExpiry => true
  | .backstopReset => true
  | .haltLimitReset => true
  | .partitionReset => true
  | .partitionResetDone => true
  | .partitionScrub => true
  | .ldmapLock => true
  | .ldmapUnlock => true
  | .dieFailure => true
  | .pacelineForm => true
  | .pacelineDissolve => true
  | .linkTrainingDone => true
  | .frameTransmit => true
  | .badFrame => true
  | .timedBeatDelivery => true
  | .countedBeatReceive => true
  | .countedRetryTimeout => true
  | .readRequest => true
  | .readReply => true
  | .write => true
  | .writeAcknowledgement => true
  | .atomicRequest => true
  | .atomicReply => true
  | .controlSpaceRead => true
  | .fenceMarker => true
  | .countedReplyDeadline => true
  | .sampleReceive => true
  | .subminReceive => true
  | .downReceive => true
  | .coastReceive => true
  | .coastApply => true
  | .haltFrameReceive => true
  | .releaseFrameReceive => true
  | .standAdoption => true
  | .standLeadCheck => true
  | .standHold => true
  | .standResume => true
  | .idleStandArm => true
  | .quietSave => true
  | .timedResume => true
  | .faultReportReceive => true
  | .pageFaultBatchClose => true
  | .pacelineHold => true
  | .pacelineRelease => true
  | .pacelineAbort => true
  | .frtailWrite => true
  | .faultRingEnable => true
  | .mailboxGo => true
  | .mailboxDone => true
  | .qcreate => true
  | .qdestroy => true
  | .qrestart => true
  | .qstat => true
  | .qprio => true
  | .psuspend => true
  | .psuspendResponse => true
  | .presume => true
  | .preset => true
  | .pconfig => true
  | .paceform => true
  | .sched => true
  | .sleepRequest => true
  | .presetPf => true
  | .recoveryImageLoad => true
  | .coldReset => true
  | .firmwareFirstReport => true
  | .debugToken => true
  | .getVersion => true
  | .getCapabilities => true
  | .negotiateAlgorithms => true
  | .getDigests => true
  | .getCertificate => true
  | .challenge => true
  | .getMeasurements => true
  | .keyExchange => true
  | .finish => true
  | .endSession => true
  | .vendorDefinedRequest => true
  | .ideKm => true
  | .tdispLockInterface => true
  | .tdispStartInterface => true
  | .tdispStopInterface => true
  | .tdispError => true
  | .debugWindowAccess => true
  | .controlWindowWrite => true
  | .ranktabWrite => true
  | .xlinvShootdown => true
  | .shootdown => true
  | .xlretry => true
  | .translationFillRequest => true
  | .translationFillReply => true
  | .endpointPacket => true
  | .endpointPacketDeliver => true
  | .euzinFlitReceive => true
  | .flitTransmit => true
  | .flitRetryTimeout => true
  | .longLinkTrained => true
  | .collectiveContribution => true
  | .ready => true
  | .commit => true
  | .abort => true
  | .collectiveTimeLimit => true
  | .powerLimitEvaluation => true
  | .vcoreCurrentEvaluation => true
  | .thermalTrip => true
  | .tripExit => true
  | .idleRetainEntry => true
  | .wakeFromIdle => true
  | .wakeFromSleep => true
  | .powerOff => true
  | .draftingCommandStart => true
  | .partitionScrubDone => true

end Sys2Proof
end

