-- ==== Sys2Proof/Decode.lean ====
section
/-! DEFINITION. The decoder of each stream of words, total, rejecting by name (R322 to R333), and the
encoder written from the same maps. A word is a natural number below 2^32. -/

namespace Sys2Proof

/-- Why a word is no instruction (R332). -/
inductive Reject
  /-- The opcode, or a function field, has no assignment. -/
  | unassigned
  /-- A reserved bit is nonzero, or a field lies outside the limits of its map. -/
  | badField
  /-- The extension word would lie beyond the segment. -/
  | noExtension
  deriving DecidableEq, Repr

/-- The streams of R320, the drafting port and the three slots of a fabric bundle (R331). -/
inductive Stream
  | control | vector | matrix | transfer | index | drafting | slotA | slotB | slotC
  deriving DecidableEq, Repr

/-- The instruction `i` where the fields that must be 0 are, and the limits hold. -/
def accept (zero : Bool) (i : Instr) : Except Reject Instr :=
  if zero && i.wf then .ok i else .error .badField

/-- The field of `n` bits at bit `lo` of a word. -/
def field (w lo n : Nat) : BitVec n := BitVec.ofNat n (w / 2 ^ lo)

/-- Whether the `n` bits at bit `lo` of a word are 0. -/
def zeroAt (w lo n : Nat) : Bool := decide (w / 2 ^ lo % 2 ^ n = 0)

/-- The value of the `n` bits at bit `lo` of a word. -/
def fieldNat (w lo n : Nat) : Nat := w / 2 ^ lo % 2 ^ n

/-- Opcode 0x01, the integer register forms (R325). -/
def decodeInt (w : Nat) : Except Reject Instr :=
  match fieldNat w 0 8 with
  | 0 => accept true (.add (field w 20 6) (field w 14 6) (field w 8 6))
  | 1 => accept true (.sub (field w 20 6) (field w 14 6) (field w 8 6))
  | 2 => accept true (.and (field w 20 6) (field w 14 6) (field w 8 6))
  | 3 => accept true (.or (field w 20 6) (field w 14 6) (field w 8 6))
  | 4 => accept true (.xor (field w 20 6) (field w 14 6) (field w 8 6))
  | 5 => accept true (.shl (field w 20 6) (field w 14 6) (field w 8 6))
  | 6 => accept true (.shr (field w 20 6) (field w 14 6) (field w 8 6))
  | 7 => accept true (.shra (field w 20 6) (field w 14 6) (field w 8 6))
  | 8 => accept true (.rol (field w 20 6) (field w 14 6) (field w 8 6))
  | 9 => accept true (.ror (field w 20 6) (field w 14 6) (field w 8 6))
  | 10 => accept true (.min (field w 20 6) (field w 14 6) (field w 8 6))
  | 11 => accept true (.max (field w 20 6) (field w 14 6) (field w 8 6))
  | 12 => accept true (.minu (field w 20 6) (field w 14 6) (field w 8 6))
  | 13 => accept true (.maxu (field w 20 6) (field w 14 6) (field w 8 6))
  | 14 => accept true (.slt (field w 20 6) (field w 14 6) (field w 8 6))
  | 15 => accept true (.sltu (field w 20 6) (field w 14 6) (field w 8 6))
  | 16 => accept true (.mul (field w 20 6) (field w 14 6) (field w 8 6))
  | 17 => accept true (.mulh (field w 20 6) (field w 14 6) (field w 8 6))
  | 18 => accept true (.mulhu (field w 20 6) (field w 14 6) (field w 8 6))
  | 19 => accept true (.div (field w 20 6) (field w 14 6) (field w 8 6))
  | 20 => accept true (.divu (field w 20 6) (field w 14 6) (field w 8 6))
  | 21 => accept true (.rem (field w 20 6) (field w 14 6) (field w 8 6))
  | 22 => accept true (.remu (field w 20 6) (field w 14 6) (field w 8 6))
  | 23 => accept (zeroAt w 23 3) (.cmpeq (field w 20 3) (field w 14 6) (field w 8 6))
  | 24 => accept (zeroAt w 23 3) (.cmplt (field w 20 3) (field w 14 6) (field w 8 6))
  | 25 => accept (zeroAt w 23 3) (.cmpltu (field w 20 3) (field w 14 6) (field w 8 6))
  | _ => .error .unassigned

/-- Opcode 0x10, scalar floating point (R325, R347). -/
def decodeScalarFp (w : Nat) : Except Reject Instr :=
  match fieldNat w 3 5 with
  | 0 => accept (zeroAt w 0 1) (.sfadd (field w 20 6) (field w 14 6) (field w 8 6) (field w 1 2))
  | 1 => accept (zeroAt w 0 1) (.sfsub (field w 20 6) (field w 14 6) (field w 8 6) (field w 1 2))
  | 2 => accept (zeroAt w 0 1) (.sfmul (field w 20 6) (field w 14 6) (field w 8 6) (field w 1 2))
  | 3 => accept (zeroAt w 0 1) (.sfdiv (field w 20 6) (field w 14 6) (field w 8 6) (field w 1 2))
  | 4 => accept (zeroAt w 0 1 && zeroAt w 8 6) (.sfsqrt (field w 20 6) (field w 14 6) (field w 1 2))
  | 5 => accept (zeroAt w 0 3) (.sfmin (field w 20 6) (field w 14 6) (field w 8 6))
  | 6 => accept (zeroAt w 0 3) (.sfmax (field w 20 6) (field w 14 6) (field w 8 6))
  | 7 => accept (zeroAt w 0 3 && zeroAt w 23 3) (.sfeq (field w 20 3) (field w 14 6) (field w 8 6))
  | 8 => accept (zeroAt w 0 3 && zeroAt w 23 3) (.sflt (field w 20 3) (field w 14 6) (field w 8 6))
  | 9 => accept (zeroAt w 0 3 && zeroAt w 23 3) (.sfle (field w 20 3) (field w 14 6) (field w 8 6))
  | 10 => accept (zeroAt w 0 1 && zeroAt w 8 6) (.sfcvts (field w 20 6) (field w 14 6) (field w 1 2))
  | 11 => accept (zeroAt w 0 1 && zeroAt w 8 6) (.sfcvtf (field w 20 6) (field w 14 6) (field w 1 2))
  | _ => .error .unassigned

/-- Opcode 0x15, the atomics (R325, R351). -/
def decodeAmo (w : Nat) : Except Reject Instr :=
  match fieldNat w 4 4 with
  | 0 => accept (zeroAt w 0 2) (.amoAdd (field w 20 6) (field w 14 6) (field w 8 6) (field w 2 2))
  | 1 => accept (zeroAt w 0 2) (.amoAnd (field w 20 6) (field w 14 6) (field w 8 6) (field w 2 2))
  | 2 => accept (zeroAt w 0 2) (.amoOr (field w 20 6) (field w 14 6) (field w 8 6) (field w 2 2))
  | 3 => accept (zeroAt w 0 2) (.amoXor (field w 20 6) (field w 14 6) (field w 8 6) (field w 2 2))
  | 4 => accept (zeroAt w 0 2) (.amoMin (field w 20 6) (field w 14 6) (field w 8 6) (field w 2 2))
  | 5 => accept (zeroAt w 0 2) (.amoMax (field w 20 6) (field w 14 6) (field w 8 6) (field w 2 2))
  | 6 => accept (zeroAt w 0 2) (.amoMinu (field w 20 6) (field w 14 6) (field w 8 6) (field w 2 2))
  | 7 => accept (zeroAt w 0 2) (.amoMaxu (field w 20 6) (field w 14 6) (field w 8 6) (field w 2 2))
  | 8 => accept (zeroAt w 0 2) (.amoXchg (field w 20 6) (field w 14 6) (field w 8 6) (field w 2 2))
  | 9 => accept (zeroAt w 0 2 && decide (fieldNat w 2 2 = 2)) (.amoFadd (field w 20 6) (field w 14 6) (field w 8 6))
  | _ => .error .unassigned

/-- Opcode 0x2A, the system forms (R326). -/
def decodeSystem (w : Nat) : Except Reject Instr :=
  match fieldNat w 20 6 with
  | 0 => accept (zeroAt w 0 20) .nop
  | 1 => accept (zeroAt w 0 20) .mark
  | 2 => accept (zeroAt w 0 6 && zeroAt w 8 12) (.fence (field w 6 2))
  | 3 => accept (zeroAt w 0 6) (.trap (field w 6 14))
  | 4 => accept (zeroAt w 0 20) .halt
  | 5 => accept (zeroAt w 0 20) .done
  | 6 => accept (zeroAt w 0 20) .ret
  | 7 => accept (zeroAt w 6 14) (.cad (field w 0 6))
  | 8 => accept true (.tick (field w 6 14) (field w 0 6))
  | 9 => accept (zeroAt w 6 14) (.stand (field w 0 6))
  | 10 => accept (zeroAt w 6 14) (.standQ (field w 0 6))
  | 11 => accept (zeroAt w 0 6 && zeroAt w 10 8) (.bar (field w 18 2) (field w 6 4))
  | 12 => accept (zeroAt w 0 6 && zeroAt w 10 10) (.xinv (field w 6 4))
  | _ => .error .unassigned

/-- Opcode 0x0F, PTAG and PSPACE (R324, R346). -/
def decodePointer (w : Nat) : Except Reject Instr :=
  match fieldNat w 0 8 with
  | 0 => accept true (.ptag (field w 20 6) (field w 14 6) (field w 8 6))
  | 1 => accept (zeroAt w 8 6) (.pspace (field w 20 6) (field w 14 6))
  | _ => .error .unassigned

/-- Opcode 0x18, CHECK (R324, R355). -/
def decodeCheck (w : Nat) : Except Reject Instr :=
  match fieldNat w 22 4 with
  | 0 => accept true (.checkS (field w 20 2) (field w 14 6) (field w 0 14))
  | 1 => accept (zeroAt w 17 3) (.checkP (field w 20 2) (field w 14 3) (field w 0 14))
  | _ => .error .unassigned

/-- Opcode 0x25, XLATE (R324, R367). -/
def decodeXlate (w : Nat) : Except Reject Instr :=
  match fieldNat w 0 8 with
  | 0 => accept (zeroAt w 24 2 && zeroAt w 8 6) (.xlateRead (field w 20 4) (field w 14 6))
  | 1 => accept (zeroAt w 24 2 && zeroAt w 8 6) (.xlateWrite (field w 20 4) (field w 14 6))
  | _ => .error .unassigned

/-- Opcode 0x26, the slot-table instructions (R324, R369). -/
def decodeSlotTable (w : Nat) : Except Reject Instr :=
  match fieldNat w 0 8 with
  | 0 => accept true (.slook (field w 20 6) (field w 14 6) (field w 8 6))
  | 1 => accept true (.sfill (field w 20 6) (field w 14 6) (field w 8 6))
  | 2 => accept (zeroAt w 8 6) (.sevict (field w 20 6) (field w 14 6))
  | _ => .error .unassigned

/-- Opcode 0x29, CSRR and CSRW (R324, R372). -/
def decodeCsr (w : Nat) : Except Reject Instr :=
  match fieldNat w 20 6 with
  | 0 => accept true (.csrr (field w 6 14) (field w 0 6))
  | 1 => accept true (.csrw (field w 6 14) (field w 0 6))
  | _ => .error .unassigned

/-- A control-core word (R322 to R326). -/
def decodeControl (w : Nat) : Except Reject Instr :=
  match fieldNat w 26 6 with
  | 0x01 => decodeInt w
  | 0x02 => accept true (.addi (field w 20 6) (field w 14 6) (field w 0 14))
  | 0x03 => accept true (.andi (field w 20 6) (field w 14 6) (field w 0 14))
  | 0x04 => accept true (.ori (field w 20 6) (field w 14 6) (field w 0 14))
  | 0x05 => accept true (.xori (field w 20 6) (field w 14 6) (field w 0 14))
  | 0x06 => accept (zeroAt w 6 8) (.shli (field w 20 6) (field w 14 6) (field w 0 6))
  | 0x07 => accept (zeroAt w 6 8) (.shri (field w 20 6) (field w 14 6) (field w 0 6))
  | 0x08 => accept (zeroAt w 6 8) (.shrai (field w 20 6) (field w 14 6) (field w 0 6))
  | 0x09 => accept true (.slti (field w 20 6) (field w 14 6) (field w 0 14))
  | 0x0A => accept true (.sltui (field w 20 6) (field w 14 6) (field w 0 14))
  | 0x0B => accept true (.muli (field w 20 6) (field w 14 6) (field w 0 14))
  | 0x0C => accept true (.lil (field w 20 6) (field w 0 20))
  | 0x0D => accept true (.lih (field w 20 6) (field w 0 20))
  | 0x0E => accept true (.lea (field w 20 6) (field w 14 6) (field w 0 14))
  | 0x0F => decodePointer w
  | 0x10 => decodeScalarFp w
  | 0x11 => accept true (.ld (field w 20 6) (field w 14 6) (field w 12 2) (field w 0 12))
  | 0x12 => accept true (.st (field w 20 6) (field w 14 6) (field w 12 2) (field w 0 12))
  | 0x13 => accept true (.ldx (field w 20 6) (field w 14 6) (field w 12 2) (field w 0 12))
  | 0x14 => accept true (.stx (field w 20 6) (field w 14 6) (field w 12 2) (field w 0 12))
  | 0x15 => decodeAmo w
  | 0x16 => accept (zeroAt w 0 2 && zeroAt w 4 4) (.cas (field w 20 6) (field w 14 6) (field w 8 6) (field w 2 2))
  | 0x17 => accept true (.br (field w 22 4) (field w 20 2) (field w 14 6) (field w 0 14))
  | 0x18 => decodeCheck w
  | 0x19 => accept (zeroAt w 24 2 && zeroAt w 20 2) (.loop (field w 22 2) (field w 14 6) (field w 0 14))
  | 0x1A => accept true (.jmp (field w 0 26))
  | 0x1B => accept true (.call (field w 0 26))
  | 0x1C => accept (zeroAt w 3 5) (.sel (field w 20 6) (field w 14 6) (field w 8 6) (field w 0 3))
  | 0x1D => accept (zeroAt w 0 14 && zeroAt w 25 1) (.sxv (field w 20 5) (field w 14 6))
  | 0x1E => accept (zeroAt w 0 8 && zeroAt w 19 1) (.vxs (field w 20 6) (field w 14 5) (field w 8 6))
  | 0x1F => accept true (.go (field w 22 4) (field w 16 6) (field w 0 16))
  | 0x20 => accept (decide (fieldNat w 14 6 = 6) && zeroAt w 0 14) (.push (field w 20 6))
  | 0x21 => accept true (.tlwait (field w 20 6) (field w 14 6) (field w 0 14))
  | 0x22 => if fieldNat w 0 1 = 1 then accept (zeroAt w 1 13) (.tlreadFail (field w 20 6) (field w 14 6)) else accept (zeroAt w 1 13) (.tlread (field w 20 6) (field w 14 6))
  | 0x23 => if fieldNat w 0 1 = 1 then accept (zeroAt w 1 19) (.popTag (field w 20 6)) else accept (zeroAt w 1 19) (.pop (field w 20 6))
  | 0x24 => accept (zeroAt w 0 20) (.peekq (field w 20 6))
  | 0x25 => decodeXlate w
  | 0x26 => decodeSlotTable w
  | 0x27 => accept (zeroAt w 20 6 && zeroAt w 0 6) (.phase (field w 14 6) (field w 6 8))
  | 0x28 => accept (zeroAt w 14 6) (.wid (field w 20 6) (field w 0 14))
  | 0x29 => decodeCsr w
  | 0x2A => decodeSystem w
  | 0x2B => accept (decide (fieldNat w 22 4 = 7)) (.fload (field w 16 6) (field w 0 16))
  | 0x2C => accept (decide (fieldNat w 22 4 = 7) && zeroAt w 4 12) (.fbind (field w 16 6) (field w 0 4))
  | _ => .error .unassigned

/-- A vector word (R327 to R329). -/
def decodeVector (w : Nat) : Except Reject Instr :=
  match fieldNat w 25 7 with
  | 0x01 => accept (zeroAt w 5 5) (.vadd (field w 20 5) (field w 15 5) (field w 10 5) (field w 2 3) (field w 0 2))
  | 0x02 => accept (zeroAt w 5 5) (.vsub (field w 20 5) (field w 15 5) (field w 10 5) (field w 2 3) (field w 0 2))
  | 0x03 => accept (zeroAt w 5 5) (.vmul (field w 20 5) (field w 15 5) (field w 10 5) (field w 2 3) (field w 0 2))
  | 0x04 => accept (zeroAt w 5 5) (.vdiv (field w 20 5) (field w 15 5) (field w 10 5) (field w 2 3) (field w 0 2))
  | 0x05 => accept (zeroAt w 5 5 && zeroAt w 0 2) (.vmin (field w 20 5) (field w 15 5) (field w 10 5) (field w 2 3))
  | 0x06 => accept (zeroAt w 5 5 && zeroAt w 0 2) (.vmax (field w 20 5) (field w 15 5) (field w 10 5) (field w 2 3))
  | 0x07 => accept true (.vfma (field w 20 5) (field w 15 5) (field w 10 5) (field w 5 5) (field w 2 3) (field w 0 2))
  | 0x08 => accept (zeroAt w 5 10) (.vsqrt (field w 20 5) (field w 15 5) (field w 2 3) (field w 0 2))
  | 0x09 => accept (zeroAt w 5 10) (.vrcp (field w 20 5) (field w 15 5) (field w 2 3) (field w 0 2))
  | 0x0A => accept (zeroAt w 5 10) (.vrsqrt (field w 20 5) (field w 15 5) (field w 2 3) (field w 0 2))
  | 0x0B => accept (zeroAt w 5 10) (.vexp2 (field w 20 5) (field w 15 5) (field w 2 3) (field w 0 2))
  | 0x0C => accept (zeroAt w 5 10) (.vlog2 (field w 20 5) (field w 15 5) (field w 2 3) (field w 0 2))
  | 0x0D => accept (zeroAt w 5 10) (.vln (field w 20 5) (field w 15 5) (field w 2 3) (field w 0 2))
  | 0x0E => accept (zeroAt w 5 10) (.vtanh (field w 20 5) (field w 15 5) (field w 2 3) (field w 0 2))
  | 0x0F => accept (zeroAt w 5 10 && zeroAt w 0 2) (.vneg (field w 20 5) (field w 15 5) (field w 2 3))
  | 0x10 => accept (zeroAt w 5 10 && zeroAt w 0 2) (.vabs (field w 20 5) (field w 15 5) (field w 2 3))
  | 0x11 => accept (zeroAt w 5 5 && zeroAt w 0 2) (.viadd (field w 20 5) (field w 15 5) (field w 10 5) (field w 2 3))
  | 0x12 => accept (zeroAt w 5 5 && zeroAt w 0 2) (.visub (field w 20 5) (field w 15 5) (field w 10 5) (field w 2 3))
  | 0x13 => accept (zeroAt w 5 5 && zeroAt w 0 2) (.vimul (field w 20 5) (field w 15 5) (field w 10 5) (field w 2 3))
  | 0x14 => accept (zeroAt w 5 5 && zeroAt w 0 2) (.vimin (field w 20 5) (field w 15 5) (field w 10 5) (field w 2 3))
  | 0x15 => accept (zeroAt w 5 5 && zeroAt w 0 2) (.vimax (field w 20 5) (field w 15 5) (field w 10 5) (field w 2 3))
  | 0x16 => accept (zeroAt w 5 5 && zeroAt w 0 2) (.vand (field w 20 5) (field w 15 5) (field w 10 5) (field w 2 3))
  | 0x17 => accept (zeroAt w 5 5 && zeroAt w 0 2) (.vor (field w 20 5) (field w 15 5) (field w 10 5) (field w 2 3))
  | 0x18 => accept (zeroAt w 5 5 && zeroAt w 0 2) (.vxor (field w 20 5) (field w 15 5) (field w 10 5) (field w 2 3))
  | 0x19 => accept (zeroAt w 5 5 && zeroAt w 0 2) (.vshl (field w 20 5) (field w 15 5) (field w 10 5) (field w 2 3))
  | 0x1A => accept (zeroAt w 5 5 && zeroAt w 0 2) (.vshr (field w 20 5) (field w 15 5) (field w 10 5) (field w 2 3))
  | 0x1B => accept (zeroAt w 5 5 && zeroAt w 0 2) (.vshra (field w 20 5) (field w 15 5) (field w 10 5) (field w 2 3))
  | 0x1C => accept (zeroAt w 5 5 && zeroAt w 0 2) (.viadds (field w 20 5) (field w 15 5) (field w 10 5) (field w 2 3))
  | 0x20 => accept (zeroAt w 5 5 && zeroAt w 0 2 && zeroAt w 23 2) (.vcmpeq (field w 20 3) (field w 15 5) (field w 10 5) (field w 2 3))
  | 0x21 => accept (zeroAt w 5 5 && zeroAt w 0 2 && zeroAt w 23 2) (.vcmpne (field w 20 3) (field w 15 5) (field w 10 5) (field w 2 3))
  | 0x22 => accept (zeroAt w 5 5 && zeroAt w 0 2 && zeroAt w 23 2) (.vcmplt (field w 20 3) (field w 15 5) (field w 10 5) (field w 2 3))
  | 0x23 => accept (zeroAt w 5 5 && zeroAt w 0 2 && zeroAt w 23 2) (.vcmple (field w 20 3) (field w 15 5) (field w 10 5) (field w 2 3))
  | 0x24 => accept (zeroAt w 8 2 && zeroAt w 0 2) (.vsel (field w 20 5) (field w 15 5) (field w 10 5) (field w 5 3) (field w 2 3))
  | 0x25 => accept (zeroAt w 0 10 && zeroAt w 13 2 && zeroAt w 18 2 && zeroAt w 23 2) (.vmand (field w 20 3) (field w 15 3) (field w 10 3))
  | 0x26 => accept (zeroAt w 0 10 && zeroAt w 13 2 && zeroAt w 18 2 && zeroAt w 23 2) (.vmor (field w 20 3) (field w 15 3) (field w 10 3))
  | 0x27 => accept (zeroAt w 0 10 && zeroAt w 13 2 && zeroAt w 18 2 && zeroAt w 23 2) (.vmxor (field w 20 3) (field w 15 3) (field w 10 3))
  | 0x28 => accept (zeroAt w 0 15 && zeroAt w 18 2 && zeroAt w 23 2) (.vmnot (field w 20 3) (field w 15 3))
  | 0x30 => accept (zeroAt w 6 4) (.vcvt (field w 20 5) (field w 15 5) (field w 10 5) (field w 5 1) (field w 2 3) (field w 0 2))
  | 0x31 => accept (zeroAt w 2 3) (.vpack (field w 20 5) (field w 15 5) (field w 10 5) (field w 5 5) (field w 0 2))
  | 0x32 => accept (zeroAt w 0 5) (.vunpack (field w 20 5) (field w 15 5) (field w 10 5) (field w 5 5))
  | 0x33 => accept (zeroAt w 5 5 && zeroAt w 0 2) (.vprune24 (field w 20 5) (field w 15 5) (field w 10 5) (field w 2 3))
  | 0x38 => accept (zeroAt w 5 10 && zeroAt w 0 2) (.vrsum (field w 20 5) (field w 15 5) (field w 2 3))
  | 0x39 => accept (zeroAt w 5 10 && zeroAt w 0 2) (.vrmax (field w 20 5) (field w 15 5) (field w 2 3))
  | 0x3A => accept (zeroAt w 5 10 && zeroAt w 0 2) (.vrmin (field w 20 5) (field w 15 5) (field w 2 3))
  | 0x3B => accept (zeroAt w 5 10 && zeroAt w 0 2) (.vscan (field w 20 5) (field w 15 5) (field w 2 3))
  | 0x3C => accept (zeroAt w 5 10 && zeroAt w 0 2) (.vargmax (field w 20 5) (field w 15 5) (field w 2 3))
  | 0x3D => accept (zeroAt w 5 10 && zeroAt w 0 2) (.vpopnz (field w 20 5) (field w 15 5) (field w 2 3))
  | 0x3E => accept (zeroAt w 5 10 && zeroAt w 0 2) (.vnzmap (field w 20 5) (field w 15 5) (field w 2 3))
  | 0x40 => accept (zeroAt w 5 5 && zeroAt w 0 2) (.vperm (field w 20 5) (field w 15 5) (field w 10 5) (field w 2 3))
  | 0x41 => accept (zeroAt w 5 5 && zeroAt w 0 2) (.vslide (field w 20 5) (field w 15 5) (field w 10 5) (field w 2 3))
  | 0x42 => accept (zeroAt w 5 5 && zeroAt w 0 2) (.vbcast (field w 20 5) (field w 15 5) (field w 10 5) (field w 2 3))
  | 0x48 => accept true (.vld (field w 20 5) (field w 15 5) (field w 0 15))
  | 0x49 => accept true (.vst (field w 20 5) (field w 15 5) (field w 0 15))
  | 0x50 => accept (zeroAt w 5 5 && zeroAt w 0 2) (.vrand (field w 20 5) (field w 15 5) (field w 10 5) (field w 2 3))
  | 0x58 => accept (zeroAt w 13 2 && zeroAt w 5 5 && zeroAt w 0 2) (.vtget (field w 20 5) (field w 15 5) (field w 10 3) (field w 2 3))
  | 0x59 => accept (zeroAt w 13 2 && zeroAt w 5 5 && zeroAt w 0 2) (.vtset (field w 20 5) (field w 15 5) (field w 10 3) (field w 2 3))
  | 0x5A => accept (zeroAt w 0 3) (.shape (field w 21 4) (field w 20 1) (field w 16 4) (field w 3 13))
  | 0x5B => accept (zeroAt w 20 5 && zeroAt w 0 15) (.shaper (field w 15 5))
  | 0x7E => accept (zeroAt w 0 19) (.tan (field w 22 3) (field w 21 1) (field w 20 1) (field w 19 1))
  | 0x7F => accept (zeroAt w 16 9) (.vnop (field w 0 16))
  | _ => .error .unassigned

/-- Runs `f` on the extension word, where there is one (R330, R332). -/
def withExt (e : Option Nat) (f : Nat → Except Reject Instr) : Except Reject Instr :=
  match e with
  | some x => f x
  | none => .error .noExtension

/-- The matrix opcodes that have an extension word (R330). -/
def matrixHasExt (w : Nat) : Bool :=
  match fieldNat w 26 6 with
  | 0x02 | 0x04 | 0x05 | 0x06 | 0x07 | 0x09 => true
  | _ => false

/-- A matrix word and its extension word (R330, R417 to R435). -/
def decodeMatrix (w : Nat) (ext : Option Nat) : Except Reject Instr :=
  match fieldNat w 26 6 with
  | 0x01 => accept (zeroAt w 16 10) (.mnop (field w 0 16))
  | 0x02 => withExt ext fun x => accept (zeroAt w 0 26 && zeroAt x 17 15) (.mloadw (field x 0 17))
  | 0x03 => accept (zeroAt w 0 26) .mswap
  | 0x04 => withExt ext fun x => accept (zeroAt w 12 4 && zeroAt x 17 15)
      (.mrun (field w 24 2) (field w 16 8) (field w 0 12) (field x 0 17))
  | 0x05 => withExt ext fun x => accept (zeroAt x 17 15)
      (.mrunS (field w 24 2) (field w 16 8) (field w 12 4) (field w 0 12) (field x 0 17))
  | 0x06 => withExt ext fun x => accept (zeroAt w 0 22 && zeroAt x 17 15) (.mmeta (field w 22 4) (field x 0 17))
  | 0x07 => withExt ext fun x => accept (zeroAt w 9 17 && zeroAt x 20 12) (.mscq (field w 0 9) (field x 0 20))
  | 0x08 => accept (zeroAt w 1 25) (.mscmode (field w 0 1))
  | 0x09 => withExt ext fun x => accept (zeroAt w 0 4)
      (.mdrain (field w 24 2) (field w 16 8) (field w 8 8) (field w 4 4) (field x 17 15) (field x 0 17))
  | 0x0A => accept (zeroAt w 0 24) (.mzero (field w 24 2))
  | 0x0B => accept (zeroAt w 17 9) (.mseta (field w 0 17))
  | 0x0C => accept (zeroAt w 9 17) (.mmode (field w 8 1) (field w 4 4) (field w 0 4))
  | _ => .error .unassigned

/-- A transfer word (R330, R436). -/
def decodeTransfer (w : Nat) : Except Reject Instr :=
  match fieldNat w 26 6 with
  | 0x01 => accept (zeroAt w 16 10) (.xfnop (field w 0 16))
  | 0x02 => accept (zeroAt w 16 10) (.xfcopy (field w 0 16))
  | 0x03 => accept (zeroAt w 16 10) (.xfcast (field w 0 16))
  | 0x04 => accept (zeroAt w 16 10) (.xfzip (field w 0 16))
  | 0x05 => accept (zeroAt w 16 10) (.xfunzip (field w 0 16))
  | 0x06 => accept (zeroAt w 16 10) (.xffill (field w 0 16))
  | 0x07 => accept (zeroAt w 16 10) (.xfsend (field w 0 16))
  | 0x08 => accept (zeroAt w 16 10) (.xfrecv (field w 0 16))
  | 0x09 => accept (zeroAt w 16 10) (.xfvirt (field w 0 16))
  | _ => .error .unassigned

/-- An index word (R330, R455). -/
def decodeIndex (w : Nat) : Except Reject Instr :=
  match fieldNat w 26 6 with
  | 0x01 => accept (zeroAt w 16 10) (.ixnop (field w 0 16))
  | 0x02 => accept (zeroAt w 17 9) (.ixgather (field w 0 17))
  | 0x03 => accept (zeroAt w 17 9) (.ixscatter (field w 0 17))
  | 0x04 => accept (zeroAt w 17 9) (.ixscadd (field w 0 17))
  | 0x05 => accept (zeroAt w 17 9) (.ixcount (field w 0 17))
  | 0x06 => accept (zeroAt w 17 9) (.ixcompact (field w 0 17))
  | 0x07 => accept (zeroAt w 17 9) (.ixhist (field w 0 17))
  | 0x08 => accept (zeroAt w 17 9) (.ixamo (field w 0 17))
  | 0x09 => accept (zeroAt w 17 9) (.ixcas (field w 0 17))
  | _ => .error .unassigned

/-- A drafting command and its extension word (R330, R464). -/
def decodeDrafting (w : Nat) (ext : Option Nat) : Except Reject Instr :=
  withExt ext fun x =>
  match fieldNat w 26 6 with
  | 0x01 => accept (zeroAt w 0 3 && zeroAt x 17 15) (.dkeys (field w 13 13) (field w 11 2) (field w 3 8) (field x 0 17))
  | 0x02 => accept (zeroAt w 0 6 && zeroAt x 18 14)
      (.dmatch (field w 23 3) (field w 20 3) (field w 19 1) (field w 6 13) (field x 17 1) (field x 0 17))
  | 0x03 => accept (zeroAt w 21 2 && zeroAt w 0 10 && zeroAt x 17 15) (.dmerge (field w 23 3) (field w 10 11) (field x 0 17))
  | 0x04 => accept (zeroAt w 21 2 && zeroAt w 0 10 && zeroAt x 17 15) (.dunmerge (field w 23 3) (field w 10 11) (field x 0 17))
  | 0x05 => accept (zeroAt w 0 17 && zeroAt x 0 32) (.dcompose (field w 23 3) (field w 20 3) (field w 17 3))
  | 0x06 => accept (zeroAt w 0 23 && zeroAt x 17 15) (.dsizes (field w 23 3) (field x 0 17))
  | 0x07 => accept (zeroAt w 0 23 && zeroAt x 17 15) (.dsave (field w 23 3) (field x 0 17))
  | 0x08 => accept (zeroAt w 0 23 && zeroAt x 17 15) (.dload (field w 23 3) (field x 0 17))
  | _ => .error .unassigned

/-- Slot A of a fabric bundle (R331, R477). -/
def decodeSlotA (w : Nat) : Except Reject Instr :=
  match fieldNat w 27 5 with
  | 0x00 => accept (zeroAt w 0 27) .fnop
  | 0x01 => accept (zeroAt w 0 13) (.fadd (field w 23 4) (field w 18 5) (field w 13 5))
  | 0x02 => accept (zeroAt w 0 13) (.fmul (field w 23 4) (field w 18 5) (field w 13 5))
  | 0x03 => accept (zeroAt w 0 13) (.fmax (field w 23 4) (field w 18 5) (field w 13 5))
  | 0x04 => accept (zeroAt w 0 13) (.fmin (field w 23 4) (field w 18 5) (field w 13 5))
  | 0x05 => accept (zeroAt w 0 6 && zeroAt w 8 5) (.fcmp (field w 23 4) (field w 18 5) (field w 13 5) (field w 6 2))
  | 0x06 => accept (zeroAt w 0 8) (.fsel (field w 23 4) (field w 18 5) (field w 13 5) (field w 8 5))
  | 0x07 => accept (zeroAt w 0 18) (.facc (field w 23 4) (field w 18 5))
  | _ => .error .unassigned

/-- Slot B of a fabric bundle (R331, R478). -/
def decodeSlotB (w : Nat) : Except Reject Instr :=
  match fieldNat w 27 5 with
  | 0x00 => accept (zeroAt w 0 27) .fnop
  | 0x08 => accept (zeroAt w 0 18) (.fmov (field w 23 4) (field w 18 5))
  | 0x09 => accept (zeroAt w 23 4 && zeroAt w 0 14) (.froute (field w 18 5) (field w 14 4))
  | 0x0A => accept (zeroAt w 0 23) (.ftake (field w 23 4))
  | 0x0B => accept (zeroAt w 23 4 && zeroAt w 0 18) (.femit (field w 18 5))
  | 0x0C => accept (zeroAt w 20 1 && zeroAt w 0 15) (.floopb (field w 21 6) (field w 19 1) (field w 15 4))
  | _ => .error .unassigned

/-- Slot C of a fabric bundle (R331, R479). -/
def decodeSlotC (w : Nat) : Except Reject Instr :=
  match fieldNat w 27 5 with
  | 0x00 => accept (zeroAt w 0 27) .fnop
  | 0x10 => accept (zeroAt w 0 10) (.fcvt (field w 23 4) (field w 18 5) (field w 15 3) (field w 12 3) (field w 10 2))
  | 0x11 => accept (zeroAt w 0 13) (.fzip (field w 23 4) (field w 18 5) (field w 13 5))
  | 0x12 => accept (zeroAt w 0 17) (.funzip (field w 23 4) (field w 18 5) (field w 17 1))
  | _ => .error .unassigned

/-- The instruction that a word of a stream is, with the word after it where the stream has extension words. -/
def decode (st : Stream) (w : Nat) (ext : Option Nat) : Except Reject Instr :=
  match st with
  | .control => decodeControl w
  | .vector => decodeVector w
  | .matrix => decodeMatrix w ext
  | .transfer => decodeTransfer w
  | .index => decodeIndex w
  | .drafting => decodeDrafting w ext
  | .slotA => decodeSlotA w
  | .slotB => decodeSlotB w
  | .slotC => decodeSlotC w

/-- A word of format S, and of the other formats whose fields lie at bits 26, 20, 14 and 8 (R322). -/
def packS (op d a b fn : Nat) : Nat := op * 2 ^ 26 + d * 2 ^ 20 + a * 2 ^ 14 + b * 2 ^ 8 + fn
/-- A word of format I or Q (R322). -/
def packI (op d a i : Nat) : Nat := op * 2 ^ 26 + d * 2 ^ 20 + a * 2 ^ 14 + i
/-- A word of format B (R322). -/
def packB (op c h a o : Nat) : Nat := op * 2 ^ 26 + c * 2 ^ 22 + h * 2 ^ 20 + a * 2 ^ 14 + o
/-- A word of format J, and of a step word (R322, R330). -/
def packJ (op x : Nat) : Nat := op * 2 ^ 26 + x
/-- A word of format L (R322). -/
def packL (op e s t : Nat) : Nat := op * 2 ^ 26 + e * 2 ^ 22 + s * 2 ^ 16 + t
/-- A word of format M (R322). -/
def packM (op d a z i : Nat) : Nat := op * 2 ^ 26 + d * 2 ^ 20 + a * 2 ^ 14 + z * 2 ^ 12 + i
/-- A word of format X (R322). -/
def packX (op s k a : Nat) : Nat := op * 2 ^ 26 + s * 2 ^ 20 + k * 2 ^ 6 + a
/-- A vector word (R327). -/
def packV (op d a b c m f : Nat) : Nat :=
  op * 2 ^ 25 + d * 2 ^ 20 + a * 2 ^ 15 + b * 2 ^ 10 + c * 2 ^ 5 + m * 2 ^ 2 + f
/-- A fabric slot word with the fields of slot A (R331, R477). -/
def packF (op d a b x : Nat) : Nat := op * 2 ^ 27 + d * 2 ^ 23 + a * 2 ^ 18 + b * 2 ^ 13 + x

/-- The stream whose words encode an instruction; none for a device event. -/
def streamOf : Instr → Option Stream
  | .add .. => some .control
  | .sub .. => some .control
  | .and .. => some .control
  | .or .. => some .control
  | .xor .. => some .control
  | .shl .. => some .control
  | .shr .. => some .control
  | .shra .. => some .control
  | .rol .. => some .control
  | .ror .. => some .control
  | .min .. => some .control
  | .max .. => some .control
  | .minu .. => some .control
  | .maxu .. => some .control
  | .slt .. => some .control
  | .sltu .. => some .control
  | .mul .. => some .control
  | .mulh .. => some .control
  | .mulhu .. => some .control
  | .div .. => some .control
  | .divu .. => some .control
  | .rem .. => some .control
  | .remu .. => some .control
  | .cmpeq .. => some .control
  | .cmplt .. => some .control
  | .cmpltu .. => some .control
  | .addi .. => some .control
  | .andi .. => some .control
  | .ori .. => some .control
  | .xori .. => some .control
  | .shli .. => some .control
  | .shri .. => some .control
  | .shrai .. => some .control
  | .slti .. => some .control
  | .sltui .. => some .control
  | .muli .. => some .control
  | .lil .. => some .control
  | .lih .. => some .control
  | .lea .. => some .control
  | .ptag .. => some .control
  | .pspace .. => some .control
  | .sfadd .. => some .control
  | .sfsub .. => some .control
  | .sfmul .. => some .control
  | .sfdiv .. => some .control
  | .sfsqrt .. => some .control
  | .sfmin .. => some .control
  | .sfmax .. => some .control
  | .sfeq .. => some .control
  | .sflt .. => some .control
  | .sfle .. => some .control
  | .sfcvts .. => some .control
  | .sfcvtf .. => some .control
  | .ld .. => some .control
  | .st .. => some .control
  | .ldx .. => some .control
  | .stx .. => some .control
  | .amoAdd .. => some .control
  | .amoAnd .. => some .control
  | .amoOr .. => some .control
  | .amoXor .. => some .control
  | .amoMin .. => some .control
  | .amoMax .. => some .control
  | .amoMinu .. => some .control
  | .amoMaxu .. => some .control
  | .amoXchg .. => some .control
  | .amoFadd .. => some .control
  | .cas .. => some .control
  | .br .. => some .control
  | .checkS .. => some .control
  | .checkP .. => some .control
  | .loop .. => some .control
  | .jmp .. => some .control
  | .call .. => some .control
  | .sel .. => some .control
  | .sxv .. => some .control
  | .vxs .. => some .control
  | .go .. => some .control
  | .push .. => some .control
  | .tlwait .. => some .control
  | .tlread .. => some .control
  | .tlreadFail .. => some .control
  | .pop .. => some .control
  | .popTag .. => some .control
  | .peekq .. => some .control
  | .xlateRead .. => some .control
  | .xlateWrite .. => some .control
  | .slook .. => some .control
  | .sfill .. => some .control
  | .sevict .. => some .control
  | .phase .. => some .control
  | .wid .. => some .control
  | .csrr .. => some .control
  | .csrw .. => some .control
  | .nop => some .control
  | .mark => some .control
  | .fence .. => some .control
  | .trap .. => some .control
  | .halt => some .control
  | .done => some .control
  | .ret => some .control
  | .cad .. => some .control
  | .tick .. => some .control
  | .stand .. => some .control
  | .standQ .. => some .control
  | .bar .. => some .control
  | .xinv .. => some .control
  | .fload .. => some .control
  | .fbind .. => some .control
  | .vadd .. => some .vector
  | .vsub .. => some .vector
  | .vmul .. => some .vector
  | .vdiv .. => some .vector
  | .vmin .. => some .vector
  | .vmax .. => some .vector
  | .vfma .. => some .vector
  | .vsqrt .. => some .vector
  | .vrcp .. => some .vector
  | .vrsqrt .. => some .vector
  | .vexp2 .. => some .vector
  | .vlog2 .. => some .vector
  | .vln .. => some .vector
  | .vtanh .. => some .vector
  | .vneg .. => some .vector
  | .vabs .. => some .vector
  | .viadd .. => some .vector
  | .visub .. => some .vector
  | .vimul .. => some .vector
  | .vimin .. => some .vector
  | .vimax .. => some .vector
  | .vand .. => some .vector
  | .vor .. => some .vector
  | .vxor .. => some .vector
  | .vshl .. => some .vector
  | .vshr .. => some .vector
  | .vshra .. => some .vector
  | .viadds .. => some .vector
  | .vcmpeq .. => some .vector
  | .vcmpne .. => some .vector
  | .vcmplt .. => some .vector
  | .vcmple .. => some .vector
  | .vsel .. => some .vector
  | .vmand .. => some .vector
  | .vmor .. => some .vector
  | .vmxor .. => some .vector
  | .vmnot .. => some .vector
  | .vcvt .. => some .vector
  | .vpack .. => some .vector
  | .vunpack .. => some .vector
  | .vprune24 .. => some .vector
  | .vrsum .. => some .vector
  | .vrmax .. => some .vector
  | .vrmin .. => some .vector
  | .vscan .. => some .vector
  | .vargmax .. => some .vector
  | .vpopnz .. => some .vector
  | .vnzmap .. => some .vector
  | .vperm .. => some .vector
  | .vslide .. => some .vector
  | .vbcast .. => some .vector
  | .vld .. => some .vector
  | .vst .. => some .vector
  | .vrand .. => some .vector
  | .vtget .. => some .vector
  | .vtset .. => some .vector
  | .shape .. => some .vector
  | .shaper .. => some .vector
  | .tan .. => some .vector
  | .vnop .. => some .vector
  | .mnop .. => some .matrix
  | .mloadw .. => some .matrix
  | .mswap => some .matrix
  | .mrun .. => some .matrix
  | .mrunS .. => some .matrix
  | .mmeta .. => some .matrix
  | .mscq .. => some .matrix
  | .mscmode .. => some .matrix
  | .mdrain .. => some .matrix
  | .mzero .. => some .matrix
  | .mseta .. => some .matrix
  | .mmode .. => some .matrix
  | .xfnop .. => some .transfer
  | .xfcopy .. => some .transfer
  | .xfcast .. => some .transfer
  | .xfzip .. => some .transfer
  | .xfunzip .. => some .transfer
  | .xffill .. => some .transfer
  | .xfsend .. => some .transfer
  | .xfrecv .. => some .transfer
  | .xfvirt .. => some .transfer
  | .ixnop .. => some .index
  | .ixgather .. => some .index
  | .ixscatter .. => some .index
  | .ixscadd .. => some .index
  | .ixcount .. => some .index
  | .ixcompact .. => some .index
  | .ixhist .. => some .index
  | .ixamo .. => some .index
  | .ixcas .. => some .index
  | .indexCommandStart => none
  | .indexCommandEnd => none
  | .dkeys .. => some .drafting
  | .dmatch .. => some .drafting
  | .dmerge .. => some .drafting
  | .dunmerge .. => some .drafting
  | .dcompose .. => some .drafting
  | .dsizes .. => some .drafting
  | .dsave .. => some .drafting
  | .dload .. => some .drafting
  | .draftingCommandEnd => none
  | .fnop => some .slotA
  | .fadd .. => some .slotA
  | .fmul .. => some .slotA
  | .fmax .. => some .slotA
  | .fmin .. => some .slotA
  | .fcmp .. => some .slotA
  | .fsel .. => some .slotA
  | .facc .. => some .slotA
  | .fmov .. => some .slotB
  | .froute .. => some .slotB
  | .ftake .. => some .slotB
  | .femit .. => some .slotB
  | .floopb .. => some .slotB
  | .fcvt .. => some .slotC
  | .fzip .. => some .slotC
  | .funzip .. => some .slotC
  | .segmentStart => none
  | .matrixStepCommit => none
  | .transferWordEnd => none
  | .replyPortEntry => none
  | .storeMarkClose => none
  | .fenceEnd => none
  | .tlwaitEnd => none
  | .tickExpiry => none
  | .popTake => none
  | .barrierRelease => none
  | .itemStart => none
  | .itemEnd => none
  | .launchCompletion => none
  | .launchAbort => none
  | .phaseDirectoryAnswer => none
  | .hubGrant => none
  | .ageingTick => none
  | .doorbellKick => none
  | .slotFetch => none
  | .launchValidate => none
  | .slotSave => none
  | .slotRestore => none
  | .preemptRequest => none
  | .slotAbort => none
  | .countedPreemption => none
  | .countedResume => none
  | .watchdogExpiry => none
  | .backstopReset => none
  | .haltLimitReset => none
  | .partitionReset => none
  | .partitionResetDone => none
  | .partitionScrub => none
  | .ldmapLock => none
  | .ldmapUnlock => none
  | .dieFailure => none
  | .pacelineForm => none
  | .pacelineDissolve => none
  | .linkTrainingDone => none
  | .frameTransmit => none
  | .badFrame => none
  | .timedBeatDelivery => none
  | .countedBeatReceive => none
  | .countedRetryTimeout => none
  | .readRequest => none
  | .readReply => none
  | .write => none
  | .writeAcknowledgement => none
  | .atomicRequest => none
  | .atomicReply => none
  | .controlSpaceRead => none
  | .fenceMarker => none
  | .countedReplyDeadline => none
  | .sampleReceive => none
  | .subminReceive => none
  | .downReceive => none
  | .coastReceive => none
  | .coastApply => none
  | .haltFrameReceive => none
  | .releaseFrameReceive => none
  | .standAdoption => none
  | .standLeadCheck => none
  | .standHold => none
  | .standResume => none
  | .idleStandArm => none
  | .quietSave => none
  | .timedResume => none
  | .faultReportReceive => none
  | .pageFaultBatchClose => none
  | .pacelineHold => none
  | .pacelineRelease => none
  | .pacelineAbort => none
  | .frtailWrite => none
  | .faultRingEnable => none
  | .mailboxGo => none
  | .mailboxDone => none
  | .qcreate => none
  | .qdestroy => none
  | .qrestart => none
  | .qstat => none
  | .qprio => none
  | .psuspend => none
  | .psuspendResponse => none
  | .presume => none
  | .preset => none
  | .pconfig => none
  | .paceform => none
  | .sched => none
  | .sleepRequest => none
  | .presetPf => none
  | .recoveryImageLoad => none
  | .coldReset => none
  | .firmwareFirstReport => none
  | .debugToken => none
  | .getVersion => none
  | .getCapabilities => none
  | .negotiateAlgorithms => none
  | .getDigests => none
  | .getCertificate => none
  | .challenge => none
  | .getMeasurements => none
  | .keyExchange => none
  | .finish => none
  | .endSession => none
  | .vendorDefinedRequest => none
  | .ideKm => none
  | .tdispLockInterface => none
  | .tdispStartInterface => none
  | .tdispStopInterface => none
  | .tdispError => none
  | .debugWindowAccess => none
  | .controlWindowWrite => none
  | .ranktabWrite => none
  | .xlinvShootdown => none
  | .shootdown => none
  | .xlretry => none
  | .translationFillRequest => none
  | .translationFillReply => none
  | .endpointPacket => none
  | .endpointPacketDeliver => none
  | .euzinFlitReceive => none
  | .flitTransmit => none
  | .flitRetryTimeout => none
  | .longLinkTrained => none
  | .collectiveContribution => none
  | .ready => none
  | .commit => none
  | .abort => none
  | .collectiveTimeLimit => none
  | .powerLimitEvaluation => none
  | .vcoreCurrentEvaluation => none
  | .thermalTrip => none
  | .tripExit => none
  | .idleRetainEntry => none
  | .wakeFromIdle => none
  | .wakeFromSleep => none
  | .powerOff => none
  | .draftingCommandStart => none
  | .partitionScrubDone => none

/-- The words of an instruction, first word first (R322 to R331); no words for a device event. -/
def encode : Instr → List Nat
  | .add d a b => [packS 1 d.toNat a.toNat b.toNat 0]
  | .sub d a b => [packS 1 d.toNat a.toNat b.toNat 1]
  | .and d a b => [packS 1 d.toNat a.toNat b.toNat 2]
  | .or d a b => [packS 1 d.toNat a.toNat b.toNat 3]
  | .xor d a b => [packS 1 d.toNat a.toNat b.toNat 4]
  | .shl d a b => [packS 1 d.toNat a.toNat b.toNat 5]
  | .shr d a b => [packS 1 d.toNat a.toNat b.toNat 6]
  | .shra d a b => [packS 1 d.toNat a.toNat b.toNat 7]
  | .rol d a b => [packS 1 d.toNat a.toNat b.toNat 8]
  | .ror d a b => [packS 1 d.toNat a.toNat b.toNat 9]
  | .min d a b => [packS 1 d.toNat a.toNat b.toNat 10]
  | .max d a b => [packS 1 d.toNat a.toNat b.toNat 11]
  | .minu d a b => [packS 1 d.toNat a.toNat b.toNat 12]
  | .maxu d a b => [packS 1 d.toNat a.toNat b.toNat 13]
  | .slt d a b => [packS 1 d.toNat a.toNat b.toNat 14]
  | .sltu d a b => [packS 1 d.toNat a.toNat b.toNat 15]
  | .mul d a b => [packS 1 d.toNat a.toNat b.toNat 16]
  | .mulh d a b => [packS 1 d.toNat a.toNat b.toNat 17]
  | .mulhu d a b => [packS 1 d.toNat a.toNat b.toNat 18]
  | .div d a b => [packS 1 d.toNat a.toNat b.toNat 19]
  | .divu d a b => [packS 1 d.toNat a.toNat b.toNat 20]
  | .rem d a b => [packS 1 d.toNat a.toNat b.toNat 21]
  | .remu d a b => [packS 1 d.toNat a.toNat b.toNat 22]
  | .cmpeq d a b => [packS 1 d.toNat a.toNat b.toNat 23]
  | .cmplt d a b => [packS 1 d.toNat a.toNat b.toNat 24]
  | .cmpltu d a b => [packS 1 d.toNat a.toNat b.toNat 25]
  | .addi d a i => [packI 2 d.toNat a.toNat i.toNat]
  | .andi d a i => [packI 3 d.toNat a.toNat i.toNat]
  | .ori d a i => [packI 4 d.toNat a.toNat i.toNat]
  | .xori d a i => [packI 5 d.toNat a.toNat i.toNat]
  | .shli d a i => [packI 6 d.toNat a.toNat i.toNat]
  | .shri d a i => [packI 7 d.toNat a.toNat i.toNat]
  | .shrai d a i => [packI 8 d.toNat a.toNat i.toNat]
  | .slti d a i => [packI 9 d.toNat a.toNat i.toNat]
  | .sltui d a i => [packI 10 d.toNat a.toNat i.toNat]
  | .muli d a i => [packI 11 d.toNat a.toNat i.toNat]
  | .lil d i => [packI 12 d.toNat 0 i.toNat]
  | .lih d i => [packI 13 d.toNat 0 i.toNat]
  | .lea d a i => [packI 14 d.toNat a.toNat i.toNat]
  | .ptag d a b => [packS 15 d.toNat a.toNat b.toNat 0]
  | .pspace d a => [packS 15 d.toNat a.toNat 0 1]
  | .sfadd d a b r => [packS 16 d.toNat a.toNat b.toNat (0 + 2 * r.toNat)]
  | .sfsub d a b r => [packS 16 d.toNat a.toNat b.toNat (8 + 2 * r.toNat)]
  | .sfmul d a b r => [packS 16 d.toNat a.toNat b.toNat (16 + 2 * r.toNat)]
  | .sfdiv d a b r => [packS 16 d.toNat a.toNat b.toNat (24 + 2 * r.toNat)]
  | .sfsqrt d a r => [packS 16 d.toNat a.toNat 0 (32 + 2 * r.toNat)]
  | .sfmin d a b => [packS 16 d.toNat a.toNat b.toNat 40]
  | .sfmax d a b => [packS 16 d.toNat a.toNat b.toNat 48]
  | .sfeq d a b => [packS 16 d.toNat a.toNat b.toNat 56]
  | .sflt d a b => [packS 16 d.toNat a.toNat b.toNat 64]
  | .sfle d a b => [packS 16 d.toNat a.toNat b.toNat 72]
  | .sfcvts d a r => [packS 16 d.toNat a.toNat 0 (80 + 2 * r.toNat)]
  | .sfcvtf d a r => [packS 16 d.toNat a.toNat 0 (88 + 2 * r.toNat)]
  | .ld d a z i => [packM 17 d.toNat a.toNat z.toNat i.toNat]
  | .st d a z i => [packM 18 d.toNat a.toNat z.toNat i.toNat]
  | .ldx d a z i => [packM 19 d.toNat a.toNat z.toNat i.toNat]
  | .stx d a z i => [packM 20 d.toNat a.toNat z.toNat i.toNat]
  | .amoAdd d a b z => [packS 21 d.toNat a.toNat b.toNat (0 + 4 * z.toNat)]
  | .amoAnd d a b z => [packS 21 d.toNat a.toNat b.toNat (16 + 4 * z.toNat)]
  | .amoOr d a b z => [packS 21 d.toNat a.toNat b.toNat (32 + 4 * z.toNat)]
  | .amoXor d a b z => [packS 21 d.toNat a.toNat b.toNat (48 + 4 * z.toNat)]
  | .amoMin d a b z => [packS 21 d.toNat a.toNat b.toNat (64 + 4 * z.toNat)]
  | .amoMax d a b z => [packS 21 d.toNat a.toNat b.toNat (80 + 4 * z.toNat)]
  | .amoMinu d a b z => [packS 21 d.toNat a.toNat b.toNat (96 + 4 * z.toNat)]
  | .amoMaxu d a b z => [packS 21 d.toNat a.toNat b.toNat (112 + 4 * z.toNat)]
  | .amoXchg d a b z => [packS 21 d.toNat a.toNat b.toNat (128 + 4 * z.toNat)]
  | .amoFadd d a b => [packS 21 d.toNat a.toNat b.toNat 152]
  | .cas d a b z => [packS 22 d.toNat a.toNat b.toNat (4 * z.toNat)]
  | .br c h a o => [packB 23 c.toNat h.toNat a.toNat o.toNat]
  | .checkS h a o => [packB 24 0 h.toNat a.toNat o.toNat]
  | .checkP h a o => [packB 24 1 h.toNat a.toNat o.toNat]
  | .loop l a o => [packB 25 l.toNat 0 a.toNat o.toNat]
  | .jmp o => [packJ 26 o.toNat]
  | .call o => [packJ 27 o.toNat]
  | .sel d a b p => [packS 28 d.toNat a.toNat b.toNat p.toNat]
  | .sxv d a => [packS 29 d.toNat a.toNat 0 0]
  | .vxs d a b => [packS 30 d.toNat a.toNat b.toNat 0]
  | .go e g t => [packL 31 e.toNat g.toNat t.toNat]
  | .push d => [packI 32 d.toNat 6 0]
  | .tlwait d q i => [packI 33 d.toNat q.toNat i.toNat]
  | .tlread d q => [packI 34 d.toNat q.toNat 0]
  | .tlreadFail d q => [packI 34 d.toNat q.toNat 1]
  | .pop d => [packI 35 d.toNat 0 0]
  | .popTag d => [packI 35 d.toNat 0 1]
  | .peekq d => [packI 36 d.toNat 0 0]
  | .xlateRead h a => [packS 37 h.toNat a.toNat 0 0]
  | .xlateWrite h a => [packS 37 h.toNat a.toNat 0 1]
  | .slook d a b => [packS 38 d.toNat a.toNat b.toNat 0]
  | .sfill d a b => [packS 38 d.toNat a.toNat b.toNat 1]
  | .sevict d a => [packS 38 d.toNat a.toNat 0 2]
  | .phase a i => [packI 39 0 a.toNat (i.toNat * 64)]
  | .wid d i => [packI 40 d.toNat 0 i.toNat]
  | .csrr k a => [packX 41 0 k.toNat a.toNat]
  | .csrw k a => [packX 41 1 k.toNat a.toNat]
  | .nop => [packX 42 0 0 0]
  | .mark => [packX 42 1 0 0]
  | .fence s => [packX 42 2 s.toNat 0]
  | .trap k => [packX 42 3 k.toNat 0]
  | .halt => [packX 42 4 0 0]
  | .done => [packX 42 5 0 0]
  | .ret => [packX 42 6 0 0]
  | .cad d => [packX 42 7 0 d.toNat]
  | .tick k a => [packX 42 8 k.toNat a.toNat]
  | .stand a => [packX 42 9 0 a.toNat]
  | .standQ a => [packX 42 10 0 a.toNat]
  | .bar l i => [packX 42 11 (l.toNat * 4096 + i.toNat) 0]
  | .xinv h => [packX 42 12 h.toNat 0]
  | .fload g t => [packL 43 7 g.toNat t.toNat]
  | .fbind g c => [packL 44 7 g.toNat c.toNat]
  | .vadd d a b m r => [packV 1 d.toNat a.toNat b.toNat 0 m.toNat r.toNat]
  | .vsub d a b m r => [packV 2 d.toNat a.toNat b.toNat 0 m.toNat r.toNat]
  | .vmul d a b m r => [packV 3 d.toNat a.toNat b.toNat 0 m.toNat r.toNat]
  | .vdiv d a b m r => [packV 4 d.toNat a.toNat b.toNat 0 m.toNat r.toNat]
  | .vmin d a b m => [packV 5 d.toNat a.toNat b.toNat 0 m.toNat 0]
  | .vmax d a b m => [packV 6 d.toNat a.toNat b.toNat 0 m.toNat 0]
  | .vfma d a b c m r => [packV 7 d.toNat a.toNat b.toNat c.toNat m.toNat r.toNat]
  | .vsqrt d a m r => [packV 8 d.toNat a.toNat 0 0 m.toNat r.toNat]
  | .vrcp d a m r => [packV 9 d.toNat a.toNat 0 0 m.toNat r.toNat]
  | .vrsqrt d a m r => [packV 10 d.toNat a.toNat 0 0 m.toNat r.toNat]
  | .vexp2 d a m r => [packV 11 d.toNat a.toNat 0 0 m.toNat r.toNat]
  | .vlog2 d a m r => [packV 12 d.toNat a.toNat 0 0 m.toNat r.toNat]
  | .vln d a m r => [packV 13 d.toNat a.toNat 0 0 m.toNat r.toNat]
  | .vtanh d a m r => [packV 14 d.toNat a.toNat 0 0 m.toNat r.toNat]
  | .vneg d a m => [packV 15 d.toNat a.toNat 0 0 m.toNat 0]
  | .vabs d a m => [packV 16 d.toNat a.toNat 0 0 m.toNat 0]
  | .viadd d a b m => [packV 17 d.toNat a.toNat b.toNat 0 m.toNat 0]
  | .visub d a b m => [packV 18 d.toNat a.toNat b.toNat 0 m.toNat 0]
  | .vimul d a b m => [packV 19 d.toNat a.toNat b.toNat 0 m.toNat 0]
  | .vimin d a b m => [packV 20 d.toNat a.toNat b.toNat 0 m.toNat 0]
  | .vimax d a b m => [packV 21 d.toNat a.toNat b.toNat 0 m.toNat 0]
  | .vand d a b m => [packV 22 d.toNat a.toNat b.toNat 0 m.toNat 0]
  | .vor d a b m => [packV 23 d.toNat a.toNat b.toNat 0 m.toNat 0]
  | .vxor d a b m => [packV 24 d.toNat a.toNat b.toNat 0 m.toNat 0]
  | .vshl d a b m => [packV 25 d.toNat a.toNat b.toNat 0 m.toNat 0]
  | .vshr d a b m => [packV 26 d.toNat a.toNat b.toNat 0 m.toNat 0]
  | .vshra d a b m => [packV 27 d.toNat a.toNat b.toNat 0 m.toNat 0]
  | .viadds d a b m => [packV 28 d.toNat a.toNat b.toNat 0 m.toNat 0]
  | .vcmpeq d a b m => [packV 32 d.toNat a.toNat b.toNat 0 m.toNat 0]
  | .vcmpne d a b m => [packV 33 d.toNat a.toNat b.toNat 0 m.toNat 0]
  | .vcmplt d a b m => [packV 34 d.toNat a.toNat b.toNat 0 m.toNat 0]
  | .vcmple d a b m => [packV 35 d.toNat a.toNat b.toNat 0 m.toNat 0]
  | .vsel d a b c m => [packV 36 d.toNat a.toNat b.toNat c.toNat m.toNat 0]
  | .vmand d a b => [packV 37 d.toNat a.toNat b.toNat 0 0 0]
  | .vmor d a b => [packV 38 d.toNat a.toNat b.toNat 0 0 0]
  | .vmxor d a b => [packV 39 d.toNat a.toNat b.toNat 0 0 0]
  | .vmnot d a => [packV 40 d.toNat a.toNat 0 0 0 0]
  | .vcvt d a t o m r => [packV 48 d.toNat a.toNat t.toNat o.toNat m.toNat r.toNat]
  | .vpack d a f c r => [packV 49 d.toNat a.toNat f.toNat c.toNat 0 r.toNat]
  | .vunpack d a f c => [packV 50 d.toNat a.toNat f.toNat c.toNat 0 0]
  | .vprune24 d a b m => [packV 51 d.toNat a.toNat b.toNat 0 m.toNat 0]
  | .vrsum d a m => [packV 56 d.toNat a.toNat 0 0 m.toNat 0]
  | .vrmax d a m => [packV 57 d.toNat a.toNat 0 0 m.toNat 0]
  | .vrmin d a m => [packV 58 d.toNat a.toNat 0 0 m.toNat 0]
  | .vscan d a m => [packV 59 d.toNat a.toNat 0 0 m.toNat 0]
  | .vargmax d a m => [packV 60 d.toNat a.toNat 0 0 m.toNat 0]
  | .vpopnz d a m => [packV 61 d.toNat a.toNat 0 0 m.toNat 0]
  | .vnzmap d a m => [packV 62 d.toNat a.toNat 0 0 m.toNat 0]
  | .vperm d a b m => [packV 64 d.toNat a.toNat b.toNat 0 m.toNat 0]
  | .vslide d a b m => [packV 65 d.toNat a.toNat b.toNat 0 m.toNat 0]
  | .vbcast d a b m => [packV 66 d.toNat a.toNat b.toNat 0 m.toNat 0]
  | .vld d a o => [72 * 2 ^ 25 + d.toNat * 2 ^ 20 + a.toNat * 2 ^ 15 + o.toNat]
  | .vst d a o => [73 * 2 ^ 25 + d.toNat * 2 ^ 20 + a.toNat * 2 ^ 15 + o.toNat]
  | .vrand d a b m => [packV 80 d.toNat a.toNat b.toNat 0 m.toNat 0]
  | .vtget d a b m => [packV 88 d.toNat a.toNat b.toNat 0 m.toNat 0]
  | .vtset d a b m => [packV 89 d.toNat a.toNat b.toNat 0 m.toNat 0]
  | .shape t f g l => [90 * 2 ^ 25 + t.toNat * 2 ^ 21 + f.toNat * 2 ^ 20 + g.toNat * 2 ^ 16 + l.toNat * 2 ^ 3]
  | .shaper a => [packV 91 0 a.toNat 0 0 0 0]
  | .tan s a b c => [126 * 2 ^ 25 + s.toNat * 2 ^ 22 + a.toNat * 2 ^ 21 + b.toNat * 2 ^ 20 + c.toNat * 2 ^ 19]
  | .vnop n => [127 * 2 ^ 25 + n.toNat]
  | .mnop n => [packJ 1 n.toNat]
  | .mloadw e => [packJ 2 0, e.toNat]
  | .mswap => [packJ 3 0]
  | .mrun n r t e => [packJ 4 (n.toNat * 2 ^ 24 + r.toNat * 2 ^ 16 + t.toNat), e.toNat]
  | .mrunS n r m t e => [packJ 5 (n.toNat * 2 ^ 24 + r.toNat * 2 ^ 16 + m.toNat * 2 ^ 12 + t.toNat), e.toNat]
  | .mmeta n e => [packJ 6 (n.toNat * 2 ^ 22), e.toNat]
  | .mscq n e => [packJ 7 n.toNat, e.toNat]
  | .mscmode m => [packJ 8 m.toNat]
  | .mdrain n r0 r f t e => [packJ 9 (n.toNat * 2 ^ 24 + r0.toNat * 2 ^ 16 + r.toNat * 2 ^ 8 + f.toNat * 2 ^ 4), t.toNat * 2 ^ 17 + e.toNat]
  | .mzero n => [packJ 10 (n.toNat * 2 ^ 24)]
  | .mseta e => [packJ 11 e.toNat]
  | .mmode x a w => [packJ 12 (x.toNat * 2 ^ 8 + a.toNat * 2 ^ 4 + w.toNat)]
  | .xfnop n => [packJ 1 n.toNat]
  | .xfcopy e => [packJ 2 e.toNat]
  | .xfcast e => [packJ 3 e.toNat]
  | .xfzip e => [packJ 4 e.toNat]
  | .xfunzip e => [packJ 5 e.toNat]
  | .xffill e => [packJ 6 e.toNat]
  | .xfsend e => [packJ 7 e.toNat]
  | .xfrecv e => [packJ 8 e.toNat]
  | .xfvirt e => [packJ 9 e.toNat]
  | .ixnop n => [packJ 1 n.toNat]
  | .ixgather e => [packJ 2 e.toNat]
  | .ixscatter e => [packJ 3 e.toNat]
  | .ixscadd e => [packJ 4 e.toNat]
  | .ixcount e => [packJ 5 e.toNat]
  | .ixcompact e => [packJ 6 e.toNat]
  | .ixhist e => [packJ 7 e.toNat]
  | .ixamo e => [packJ 8 e.toNat]
  | .ixcas e => [packJ 9 e.toNat]
  | .indexCommandStart => []
  | .indexCommandEnd => []
  | .dkeys n k w e => [packJ 1 (n.toNat * 2 ^ 13 + k.toNat * 2 ^ 11 + w.toNat * 2 ^ 3), e.toNat]
  | .dmatch d m u r p e => [packJ 2 (d.toNat * 2 ^ 23 + m.toNat * 2 ^ 20 + u.toNat * 2 ^ 19 + r.toNat * 2 ^ 6), p.toNat * 2 ^ 17 + e.toNat]
  | .dmerge m w e => [packJ 3 (m.toNat * 2 ^ 23 + w.toNat * 2 ^ 10), e.toNat]
  | .dunmerge m w e => [packJ 4 (m.toNat * 2 ^ 23 + w.toNat * 2 ^ 10), e.toNat]
  | .dcompose d a b => [packJ 5 (d.toNat * 2 ^ 23 + a.toNat * 2 ^ 20 + b.toNat * 2 ^ 17), 0]
  | .dsizes m e => [packJ 6 (m.toNat * 2 ^ 23), e.toNat]
  | .dsave m e => [packJ 7 (m.toNat * 2 ^ 23), e.toNat]
  | .dload m e => [packJ 8 (m.toNat * 2 ^ 23), e.toNat]
  | .draftingCommandEnd => []
  | .fnop => [0]
  | .fadd d a b => [packF 1 d.toNat a.toNat b.toNat 0]
  | .fmul d a b => [packF 2 d.toNat a.toNat b.toNat 0]
  | .fmax d a b => [packF 3 d.toNat a.toNat b.toNat 0]
  | .fmin d a b => [packF 4 d.toNat a.toNat b.toNat 0]
  | .fcmp d a b c => [packF 5 d.toNat a.toNat b.toNat (c.toNat * 2 ^ 6)]
  | .fsel d a b c => [packF 6 d.toNat a.toNat b.toNat (c.toNat * 2 ^ 8)]
  | .facc d a => [packF 7 d.toNat a.toNat 0 0]
  | .fmov d a => [packF 8 d.toNat a.toNat 0 0]
  | .froute a m => [9 * 2 ^ 27 + a.toNat * 2 ^ 18 + m.toNat * 2 ^ 14]
  | .ftake d => [packF 10 d.toNat 0 0 0]
  | .femit a => [packF 11 0 a.toNat 0 0]
  | .floopb t c f => [12 * 2 ^ 27 + t.toNat * 2 ^ 21 + c.toNat * 2 ^ 19 + f.toNat * 2 ^ 15]
  | .fcvt d a f t p => [16 * 2 ^ 27 + d.toNat * 2 ^ 23 + a.toNat * 2 ^ 18 + f.toNat * 2 ^ 15 + t.toNat * 2 ^ 12 + p.toNat * 2 ^ 10]
  | .fzip d a b => [packF 17 d.toNat a.toNat b.toNat 0]
  | .funzip d a h => [18 * 2 ^ 27 + d.toNat * 2 ^ 23 + a.toNat * 2 ^ 18 + h.toNat * 2 ^ 17]
  | .segmentStart => []
  | .matrixStepCommit => []
  | .transferWordEnd => []
  | .replyPortEntry => []
  | .storeMarkClose => []
  | .fenceEnd => []
  | .tlwaitEnd => []
  | .tickExpiry => []
  | .popTake => []
  | .barrierRelease => []
  | .itemStart => []
  | .itemEnd => []
  | .launchCompletion => []
  | .launchAbort => []
  | .phaseDirectoryAnswer => []
  | .hubGrant => []
  | .ageingTick => []
  | .doorbellKick => []
  | .slotFetch => []
  | .launchValidate => []
  | .slotSave => []
  | .slotRestore => []
  | .preemptRequest => []
  | .slotAbort => []
  | .countedPreemption => []
  | .countedResume => []
  | .watchdogExpiry => []
  | .backstopReset => []
  | .haltLimitReset => []
  | .partitionReset => []
  | .partitionResetDone => []
  | .partitionScrub => []
  | .ldmapLock => []
  | .ldmapUnlock => []
  | .dieFailure => []
  | .pacelineForm => []
  | .pacelineDissolve => []
  | .linkTrainingDone => []
  | .frameTransmit => []
  | .badFrame => []
  | .timedBeatDelivery => []
  | .countedBeatReceive => []
  | .countedRetryTimeout => []
  | .readRequest => []
  | .readReply => []
  | .write => []
  | .writeAcknowledgement => []
  | .atomicRequest => []
  | .atomicReply => []
  | .controlSpaceRead => []
  | .fenceMarker => []
  | .countedReplyDeadline => []
  | .sampleReceive => []
  | .subminReceive => []
  | .downReceive => []
  | .coastReceive => []
  | .coastApply => []
  | .haltFrameReceive => []
  | .releaseFrameReceive => []
  | .standAdoption => []
  | .standLeadCheck => []
  | .standHold => []
  | .standResume => []
  | .idleStandArm => []
  | .quietSave => []
  | .timedResume => []
  | .faultReportReceive => []
  | .pageFaultBatchClose => []
  | .pacelineHold => []
  | .pacelineRelease => []
  | .pacelineAbort => []
  | .frtailWrite => []
  | .faultRingEnable => []
  | .mailboxGo => []
  | .mailboxDone => []
  | .qcreate => []
  | .qdestroy => []
  | .qrestart => []
  | .qstat => []
  | .qprio => []
  | .psuspend => []
  | .psuspendResponse => []
  | .presume => []
  | .preset => []
  | .pconfig => []
  | .paceform => []
  | .sched => []
  | .sleepRequest => []
  | .presetPf => []
  | .recoveryImageLoad => []
  | .coldReset => []
  | .firmwareFirstReport => []
  | .debugToken => []
  | .getVersion => []
  | .getCapabilities => []
  | .negotiateAlgorithms => []
  | .getDigests => []
  | .getCertificate => []
  | .challenge => []
  | .getMeasurements => []
  | .keyExchange => []
  | .finish => []
  | .endSession => []
  | .vendorDefinedRequest => []
  | .ideKm => []
  | .tdispLockInterface => []
  | .tdispStartInterface => []
  | .tdispStopInterface => []
  | .tdispError => []
  | .debugWindowAccess => []
  | .controlWindowWrite => []
  | .ranktabWrite => []
  | .xlinvShootdown => []
  | .shootdown => []
  | .xlretry => []
  | .translationFillRequest => []
  | .translationFillReply => []
  | .endpointPacket => []
  | .endpointPacketDeliver => []
  | .euzinFlitReceive => []
  | .flitTransmit => []
  | .flitRetryTimeout => []
  | .longLinkTrained => []
  | .collectiveContribution => []
  | .ready => []
  | .commit => []
  | .abort => []
  | .collectiveTimeLimit => []
  | .powerLimitEvaluation => []
  | .vcoreCurrentEvaluation => []
  | .thermalTrip => []
  | .tripExit => []
  | .idleRetainEntry => []
  | .wakeFromIdle => []
  | .wakeFromSleep => []
  | .powerOff => []
  | .draftingCommandStart => []
  | .partitionScrubDone => []

/-- The instruction as an Option. -/
def okOf (e : Except Reject Instr) : Option Instr :=
  match e with
  | .ok i => some i
  | .error _ => none

/-- The stream that first accepts a table word, in the order of the opcode table: control core, vector,
matrix, transfer, index. The streams reuse each other's opcodes (R324, R328, R330), and a section decides
which map applies (R320); DESIGN CHOICE (log 5) for a word named without its section. -/
def tableStream (w x : Nat) : Option (Stream × Instr) :=
  match okOf (decodeControl w) with
  | some i => some (.control, i)
  | none =>
  match okOf (decodeVector w) with
  | some i => some (.vector, i)
  | none =>
  match okOf (decodeMatrix w (some x)) with
  | some i => some (.matrix, i)
  | none =>
  match okOf (decodeTransfer w) with
  | some i => some (.transfer, i)
  | none =>
  match okOf (decodeIndex w) with
  | some i => some (.index, i)
  | none => none

/-- What the decoder reads from a word of the opcode table; its bits above the first word are 0. -/
def decodeTableWord (nbits w : Nat) : Option Instr :=
  if nbits = 0 then none else (tableStream (w % 2 ^ 32) (w / 2 ^ 32 % 2 ^ 32)).map (·.2)

end Sys2Proof
end

