-- ==== Sys2Proof/Machine/State.lean ====
section
/-! DEFINITION. The state of the package as plain data, the reasons a step can stop, and the state right
after reset. Indexed families are sparse maps; an index that is not listed has the family's default. -/

namespace Sys2Proof.Machine

open Sys2Proof

/-! ### What arrives with an event -/

/-- What a fault report carries to the fault merger (R113, R246). `pl` is the paceline whose halt the
fault asks for, `none` where it asks for none. -/
structure FaultReport where
  kind : Nat := 0
  sub : Nat := 0
  part : Nat := 0
  slot : Nat := 0
  lpos : Nat := 0
  hub : Nat := 0
  eng : Nat := 0
  qid : Nat := 0
  cidx : Nat := 0
  estat : Nat := 0
  mark : Nat := 0
  vabase : Nat := 0
  vapages : Nat := 0
  nmerge : Nat := 0
  ltag : Nat := 0
  /-- The always-on counter at the fault, in ns (TIME, R495). -/
  time : Nat := 0
  /-- It concerns no queue. -/
  noQueue : Bool := false
  pl : Option Nat := none
  deriving DecidableEq, Repr

/-- An endpoint packet (R74, R75, R79). -/
structure EndPacket where
  srank : Nat := 0
  spos : Nat := 0
  shub : Nat := 0
  cls : Nat := 0
  drank : Nat := 0
  dpos : Nat := 0
  dhub : Nat := 0
  words : List W64 := []
  deriving DecidableEq, Repr

/-- What a Euzin flit says (R67). From `dpos` on stand what the manual gives no place in the flit's 256 bytes (log 25): positions
and hubs of an endpoint packet, the place `base` of the first word in its shard, and the X-die and context of the operation that
the flit belongs to at the package that sends it. -/
structure Flit where
  cls : Nat := 0
  seq : Nat := 0
  ack : Nat := 0
  nak : Bool := false
  typ : Nat := 0
  drank : Nat := 0
  srank : Nat := 0
  words : List W64 := []
  dpos : Nat := 0
  dhub : Nat := 0
  spos : Nat := 0
  shub : Nat := 0
  /-- Of collective data: the index of the first word in its shard, and whether the words are results; the context and number of the
  operation of a collective flit; the X-die of this package whose operation it is (log 25). -/
  base : Nat := 0
  res : Bool := false
  op : Option (Nat × Nat) := none
  home : Option Nat := none
  deriving DecidableEq, Repr

/-- One arrival of collective data (R86, R444): `count` is E of the operation, `vals` the elements covered with
their patterns in INFMT. -/
structure Contribution where
  count : Nat := 0
  vals : List (Nat × Nat) := []
  deriving DecidableEq, Repr

/-- What arrives with a device event: the places and numbers it names, a value written, bytes of a message,
a report, a packet, a flit or a contribution. An event uses the fields its meaning reads. -/
structure Arg where
  die : Nat := 0
  hub : Nat := 0
  eng : Nat := 0
  /-- A position (of a die), and a module or port of it. -/
  pos : Nat := 0
  m : Nat := 0
  slot : Nat := 0
  team : Nat := 0
  part : Nat := 0
  /-- A function of the endpoint: 0 the PF, v the VF v (R95). -/
  fn : Nat := 0
  /-- A number that the event's rule names (a packet, a paceline, a step, a context, a level). -/
  n : Nat := 0
  rank : Nat := 0
  off : Nat := 0
  size : Nat := 0
  ok : Bool := true
  value : W64 := 0
  frac : Nat := 0
  /-- CADENCE of the sender at the frame that carries a control word or a counted beat, and its sub-cycle. -/
  sent : Nat := 0
  sub : Nat := 0
  bytes : List Byte := []
  rep : FaultReport := {}
  pkt : EndPacket := {}
  flit : Flit := {}
  con : Contribution := {}
  deriving DecidableEq, Repr

/-! ### The control core (R269) -/

/-- The states of a handle (R203). -/
inductive HState
  | invalid | valid | poison | np | deny | shot
  deriving DecidableEq, Repr

/-- A handle: its state and, when VALID, the page it maps (R203, R204). `home` and `base` place the page
in the flat memory, `vpn` is its virtual page base and `pasid` the address space. -/
structure Handle where
  st : HState := .invalid
  home : Nat := 0
  base : Nat := 0
  size : Nat := 0
  hbm : Bool := false
  w : Bool := false
  pasid : Nat := 0
  va : Nat := 0
  deriving DecidableEq, Repr

/-- A register value with its poison bit (R253). -/
structure PVal where
  v : W64 := 0
  p : Bool := false
  deriving DecidableEq, Repr

/-- An active hardware loop: its counter register, start and end (R357). -/
structure LoopRec where
  lc : Nat
  start : Nat
  last : Nat
  deriving DecidableEq, Repr

/-- An instruction held in a hardware wait with the operand values of its first issue (R228, R384). -/
structure Held where
  instr : Instr
  va : PVal := {}
  vb : PVal := {}
  vd : PVal := {}
  deriving DecidableEq, Repr

/-- The hardware waits of R270. -/
inductive Wait
  | none
  /-- TLWAIT with its timeline and target (R363). -/
  | timeline (q target : Nat)
  /-- TICK with the CADENCE at which the next instruction issues (R374). -/
  | tick (until_ : Nat)
  | pop (d : Nat)
  | popTag (d : Nat)
  /-- FENCE with its scope code (R229). -/
  | fence (scope : Nat)
  /-- DONE, or HALT acting first as DONE (R234, R379). -/
  | done
  | halt
  /-- LD, LDX, AMO or CAS held by an open store mark (R228). -/
  | mark (h : Held)
  /-- A counted PHASE waiting for the directory, with its block's address and issue cycle (R185). -/
  | phase (block t : Nat)
  /-- PUSH to a full port, with its pointer (R289). -/
  | push (x : Nat)
  /-- GO to a full segment queue (R174). -/
  | go (eng seg off : Nat)
  /-- BAR with its level and id (R176). -/
  | bar (level id : Nat)
  /-- FBIND waiting for the bound context's operations to end (R484). -/
  | fbind (g c : Nat)
  deriving DecidableEq, Repr

/-- Whether the control core issues (R240, R260). -/
inductive CoreRun
  | idle | running | stopped | preempted
  deriving DecidableEq, Repr

/-! ### Launches and items (R161 to R175) -/

/-- What a launch fixes for its items. -/
structure Launch where
  slot : Nat := 0
  part : Nat := 0
  pasid : Nat := 0
  qid : Nat := 0
  ltag : Nat := 0
  timed : Bool := false
  plid : Nat := 0
  tk : Nat := 0
  det : Bool := false
  ds : Bool := false
  wl : Bool := false
  args : W64 := 0
  tsize : Nat := 1
  nteam : Nat := 0
  nitem : Nat := 0
  lbase : Nat := 0
  /-- Logical position and hub mask of each die of the hub set (R110). -/
  hubset : SMap Nat := []
  /-- Each section's tagged pointer and length (R110). -/
  code : List (W64 × Nat) := []
  deriving DecidableEq, Repr

/-- The item that a hub holds. -/
structure Item where
  launch : Launch := {}
  lpos : Nat := 0
  team : Nat := 0
  trank : Nat := 0
  /-- The physical die and lowest hub of the team (R163). -/
  lead : Nat := 0
  ord : Nat := 0
  wid : W64 := 0
  fields : List W64 := []
  start : Nat := 0
  deriving DecidableEq, Repr

/-! ### Engines -/

/-- A segment that a GO queued: segment number, start offset and the earliest cycle of R174. -/
structure Segment where
  num : Nat
  /-- Start cycle in the die's CADENCE (R173). -/
  start : Nat
  /-- Issue cycle of the GO in the die's CADENCE. -/
  go : Nat
  deriving DecidableEq, Repr

/-- A chunk that a transfer engine holds: its planes, and the poison of its elements (R283). -/
structure Chunk where
  planes : List (List Byte)
  pois : List Bool
  deriving DecidableEq, Repr

/-- One engine stream of a hub (R173, R174). -/
structure Eng where
  queue : List Segment := []
  /-- The segment being issued. -/
  seg : Option Nat := none
  /-- Index of the next stored word within the segment. -/
  pos : Nat := 0
  /-- CADENCE at which the next word issues. -/
  next : Nat := 0
  /-- CADENCE of the last issue slot the engine has used, plus 1. -/
  free : Nat := 0
  /-- Operations issued and not yet ended. -/
  busy : Nat := 0
  stopped : Bool := false
  /-- The staging buffer of a transfer engine (R283): by word, numbered on its timeline, and chunk, the planes and the poison of the
  elements. -/
  staging : SMap (SMap Chunk) := []
  /-- Pieces of each word that are not yet performed or acknowledged, by timeline number (R441). -/
  pieces : SMap Nat := []
  /-- Failing destinations of a multicast: timeline number, logical position, hub (R443). -/
  fails : List (Nat × Nat × Nat) := []
  deriving DecidableEq, Repr

/-- A timeline (R232, R290): operations issued, count, operations that ended out of order, FAIL. -/
structure Timeline where
  issued : Nat := 0
  count : Nat := 0
  early : List Nat := []
  fail : Bool := false
  deriving DecidableEq, Repr

/-- A reply entry (R286). -/
structure Reply where
  value : W64 := 0
  eng : Nat := 0
  stat : Nat := 0
  psn : Bool := false
  seq : Nat := 0
  deriving DecidableEq, Repr

/-- A completion that waits for its reply entry to enter the queue: the timeline number it advances (R288). -/
structure Port where
  entry : Reply
  /-- The operation's timeline number. -/
  op : Nat
  /-- Entries of words that had issued before the port filled, in the order of their operations. -/
  behind : List Reply := []
  deriving DecidableEq, Repr

/-- The shape register (R275). -/
structure Shape where
  vl : Nat := 1024
  segw : Nat := 0
  ftz : Bool := false
  ety : Nat := 0
  deriving DecidableEq, Repr

/-- The TAN prefix (R329). -/
structure Tan where
  sel : Nat := 0
  ca : Bool := false
  cb : Bool := false
  cc : Bool := false
  deriving DecidableEq, Repr

/-- One declared range (R181), resolved to the flat memory, with its flags. -/
structure Range where
  base : Nat
  len : Nat
  at_ : Bool := false
  wr : Bool := false
  /-- The range named space 0x4 (R217). -/
  slotRel : Bool := false
  deriving DecidableEq, Repr

/-- The sets of every engine of a hub: engine and range (R181). -/
abbrev Sets := List (Nat × Range)

/-- A packet under assembly (R75). -/
structure Packet where
  dpos : Nat
  dhub : Nat
  cls : Nat
  drank : Nat
  words : List W64
  deriving DecidableEq, Repr

/-- The key descriptor of the drafting unit (R465, R468). -/
structure Keys where
  n : Nat
  w : Nat
  kt : Nat
  base : Nat
  deriving DecidableEq, Repr

/-- A drafting map (R465). -/
structure DMap where
  nin : Nat := 0
  nout : Nat := 0
  e : List Nat := []
  s : List Nat := []
  v : List Bool := []
  gen : Nat := 0
  wgen : Nat := 0
  /-- A pre-emption without draft-save took the map (R239, R266). -/
  lost : Bool := false
  deriving DecidableEq, Repr

/-- A drafting command in a port: its command and extension words (R289, R466). -/
structure DCmd where
  w0 : Nat
  w1 : Nat
  deriving DecidableEq, Repr

/-- A counted access in the load or store queue (R226): its packet and what it will write. -/
structure QEntry where
  id : Nat
  /-- Target die (48 for the host, 49 where the handle has no page) and home, for the scopes of R222. -/
  target : Nat
  home : Nat
  load : Bool
  store : Bool
  /-- The request has not gone yet: an atomic stands before it, or it is one and accesses stand before it (R226). -/
  waiting : Bool := false
  /-- The target has sampled or performed it (R226). -/
  sampled : Bool := false
  deriving DecidableEq, Repr

/-- An entry of the pending-write list (R243), as the agenda item it stands for and its REM. -/
structure Barrier where
  slot : Nat
  level : Nat
  id : Nat
  scope : Nat
  /-- Hub keys that take part, and those that have arrived with their arrival mark. -/
  parts : List Nat
  arrived : List (Nat × Nat)
  deriving DecidableEq, Repr

/-! ### Timed effects -/

/-- A write to a vector register: bytes from `off` of the primal (tan 0) or a shadow, and what happens to
the poison of those bytes (R388): set, cleared, or kept. -/
structure VWrite where
  reg : Nat
  tan : Nat
  off : Nat
  bytes : List Byte
  pois : Option Bool
  /-- Bits of each byte that are written; the others keep their values. -/
  mask : Nat := 255
  deriving DecidableEq, Repr

/-- Atomic operations of R351, and CAS. -/
inductive AmoOp
  | add | and | or | xor | min | max | minu | maxu | xchg | fadd | cas
  deriving DecidableEq, Repr

/-- An atomic on its way (R199, R351). `dst` is the register, or none for an element of the index engine. -/
structure AmoReq where
  op : AmoOp
  addr : Nat
  size : Nat
  operand : Nat
  expect : Nat := 0
  pois : Bool := false
  die : Nat
  hub : Nat
  reg : Nat
  at_ : Nat
  deriving DecidableEq, Repr

/-- A slot-table operation on its way (R215, R216). -/
structure SlotReq where
  /-- 0 SLOOK, 1 SFILL, 2 SEVICT. -/
  op : Nat
  bdie : Nat
  a : W64
  b : W64
  part : Nat
  malformed : Bool
  die : Nat
  hub : Nat
  reg : Nat
  at_ : Nat
  deriving DecidableEq, Repr

/-- A decoded transfer descriptor (R437). -/
structure Desc where
  src : W64 := 0
  dst : W64 := 0
  ndim : Nat := 1
  sfmt : Nat := 0
  dfmt : Nat := 0
  rm : Nat := 0
  ovf : Nat := 0
  tan : Bool := false
  mc : Bool := false
  col : Bool := false
  codec : Nat := 0
  esz : Nat := 0
  slot : Nat := 0
  per : Nat := 1
  aux : W64 := 0
  dims : List (Nat × Int × Int) := []
  deriving DecidableEq, Repr

/-- One side of a transfer word: the home die (48 is the host), the flat address of element 0, whether it is
reached by counted requests, their promise, and the handle of a space 0x5 side with whether its page is absent
(R205, R440, R452). -/
structure XfSide where
  die : Nat := 0
  addr : Nat := 0
  far : Bool := false
  prom : Nat := 0
  handle : Option Nat := none
  void : Bool := false
  /-- Logical position and hub that a multicast destination names (R443). -/
  lpos : Nat := 0
  hub : Nat := 0
  deriving DecidableEq, Repr

/-- A transfer word under way: `num` is its timeline number, `k` its tangent planes, `stride` k.tstride at
issue (R223), `peer` the die that its die name means (R449). -/
structure XfWord where
  op : Nat
  d : Desc
  die : Nat
  hub : Nat
  eng : Nat
  issue : Nat
  num : Nat
  k : Nat
  stride : Nat
  src : XfSide := {}
  dsts : List XfSide := []
  peer : Nat := 0
  /-- VALUE, STAT and PSN of the reply entry that a compressing word pushes at its end. -/
  reply : Option (Nat × Nat × Bool) := none
  /-- Segment and word index, for ESTAT (R291). -/
  seg : Nat := 0
  idx : Nat := 0
  /-- The declared sets of its engine at its issue (R182). -/
  sets : List Range := []
  deriving DecidableEq, Repr

/-- A matrix step, drain or load under way. `id` is the number of an MRUN step among its hub's, `num` the
operation's number on tl.m. -/
structure MatStep where
  die : Nat
  arr : Nat
  hub : Nat
  id : Nat
  num : Nat
  acc : Nat
  rows : Nat
  base : Nat
  stride : Nat
  issue : Nat
  /-- Windows: 2 in alternating mode, else 1 (R279). -/
  w : Nat
  /-- AF, WF, AMX and scale mode in force at issue (R428). -/
  af : Nat
  wf : Nat
  amx : Bool
  epi : Bool
  /-- MRUN.s: its metadata pair, with the bytes that it read at its issue and their poison (R415, R429). -/
  md : Option Nat := none
  nib : SMap Byte := []
  nibPois : SMap Bool := []
  k : Nat := 0
  tstride : Nat := 0
  /-- MDRAIN: first row, format, scale base. -/
  row0 : Nat := 0
  fmt : Nat := 0
  scale : Nat := 0
  seg : Nat := 0
  idx : Nat := 0
  deriving DecidableEq, Repr

/-- The micro-operations of the matrix engine on the agenda. -/
inductive MatAct
  /-- An abandoned step issues again (R259). -/
  | start (t : MatStep)
  | enter (t : MatStep) (row : Nat)
  | sample (t : MatStep) (row plane : Nat) (scales : List Nat)
  | writeRow (t : MatStep) (row plane : Nat) (scales : List Nat) (bytes : List (List Byte)) (pois : Bool)
  | loadSample (t : MatStep) (col : Nat)
  | loadWrite (t : MatStep) (col : Nat) (bytes : List Byte) (pois : List Bool)
  | mdSample (t : MatStep) (n : Nat)
  | mdWrite (t : MatStep) (n : Nat) (bytes : List Byte) (pois : List Bool)
  | scqSample (t : MatStep) (n : Nat)
  | scqPush (t : MatStep) (entries : List (List Nat × Bool))
  | drainRow (t : MatStep) (i : Nat)
  | drainScale (t : MatStep) (i : Nat) (vals : List (List Nat)) (pois : List Bool)
  | drainWrite (t : MatStep) (i : Nat) (out : List (List Byte)) (pois : List Bool)
  | zero (die arr acc : Nat)
  | swap (die arr : Nat)
  | mode (die arr af wf : Nat) (amx : Bool)
  | scaleMode (die arr : Nat) (epi : Bool)
  deriving DecidableEq, Repr

/-- What a transfer word takes from its issue: the handles, k.tstride, the declared sets of its engine and the slot tables (R182,
R206, R217). -/
structure XfIssue where
  handles : SMap Handle := []
  tstride : Nat := 0
  sets : List Range := []
  tags : SMap (SMap Nat) := []
  deriving DecidableEq, Repr

/-- The micro-operations of a transfer engine on the agenda: the descriptor, a chunk sampled and performed, a
staged stream performed, a record stream sampled and expanded, beats sampled, put, taken and written. -/
inductive XfAct
  | desc (die hub eng op e issue seg idx : Nat) (w : XfIssue)
  | chunk (t : XfWord) (c : Nat)
  | perform (t : XfWord) (c : Nat) (planes : List (List Byte)) (pois : Bool)
  | multi (t : XfWord)
  | zip (t : XfWord)
  | unzipRead (t : XfWord)
  | unzip (t : XfWord) (bytes : List Byte) (pois : List Bool)
  | beat (t : XfWord) (b : Nat)
  | put (t : XfWord) (b : Nat) (planes : List (List Byte)) (pois : Bool)
  | take (t : XfWord) (b : Nat)
  | takeWrite (t : XfWord) (b : Nat) (planes : List (List Byte)) (pois : Bool)
  deriving DecidableEq, Repr

/-- A decoded index command block (R456). -/
structure IxBlock where
  tab : Nat := 0
  idx : Nat := 0
  dat : Nat := 0
  aux : Nat := 0
  n : Nat := 0
  lim : Nat := 0
  tstr : Nat := 0
  rw : Nat := 1
  ret : Bool := false
  rpy : Bool := false
  esz : Nat := 0
  typ : Nat := 0
  op : Nat := 0
  deriving DecidableEq, Repr

/-- An index command in the queue (R285): its op6, issue cycle, timeline number and, once its block has
been sampled, the block. -/
structure IxCmd where
  op : Nat
  issue : Nat
  num : Nat
  seg : Nat
  idx : Nat
  off : Nat
  /-- The declared sets of engine 5 in force at issue (R458). -/
  sets : List Range := []
  /-- The atomic ranges of other hubs' phases at issue (R188, R458). -/
  others : List Range := []
  block : Option IxBlock := none
  deriving DecidableEq, Repr

/-- What a running index command has gathered (R459 to R463). -/
structure IxRun where
  cmd : IxCmd
  b : IxBlock
  t0 : Nat
  index : List Nat := []
  data : List Nat := []
  auxv : List Nat := []
  dpois : List Bool := []
  apois : List Bool := []
  out : Nat := 0
  swaps : Nat := 0
  first : Nat := 0
  psn : Bool := false
  picked : List (Nat × Nat × Bool) := []
  deriving DecidableEq, Repr

/-- The micro-operations of the index engine on the agenda. -/
inductive IxAct
  | block (die hub issue : Nat)
  | operands (die hub : Nat)
  | sample (die hub j : Nat)
  | perform (die hub j : Nat) (bytes : List Byte) (pois : List Bool)
  | atomic (die hub j : Nat) (bytes : List Byte) (pois : List Bool)
  deriving DecidableEq, Repr

/-- A drafting command under way (R466): its hub, the command, S, E, timeline number and tangent stride, the
header doubleword that DLOAD read at S (R473), and, once its inputs are sampled at S + 2, the map and the key
descriptor that it writes at E and VALUE and STAT of its reply. -/
structure DrRun where
  hub : Nat
  instr : Instr
  s : Nat
  e : Nat
  num : Nat := 0
  stride : Nat := 0
  head : Nat := 0
  map : Option (Nat × DMap) := none
  keys : Option Keys := none
  reply : Option (Nat × Nat) := none
  deriving DecidableEq, Repr

/-- A read in flight at another home: what its data becomes. -/
inductive Cont
  /-- LD: register and CADENCE at which it is written. -/
  | reg (die hub r at_ : Nat)
  /-- The same for an LDX: DONE discards a load that has not written (R234). -/
  | ldx (die hub r at_ : Nat)
  /-- VLD: `n` elements of `w` bytes into register `r`, from the primal region and the planes at `addrs`;
  `blank` shadows take tangent +0; `at_` is the CADENCE of the write (R405, R406). -/
  | vec (die hub r w n : Nat) (addrs : List Nat) (blank at_ : Nat)
  deriving DecidableEq, Repr

/-- One timed effect. -/
inductive Act
  | regS (r : Nat) (v : W64) (p : Bool)
  /-- The register write of an LDX (R349), which DONE discards (R234). -/
  | load (r : Nat) (v : W64) (p : Bool)
  | regP (r : Nat) (v p : Bool)
  | handle (h : Nat) (x : Handle)
  | vec (ws : List VWrite)
  | maskBits (m : Nat) (bs : List (Nat × Bool))
  | shape (x : Shape)
  | tstride (v : W64)
  | write (a : Nat) (bs : List Byte) (p : Bool)
  | sample (a n : Nat) (k : Cont)
  | amo (x : AmoReq)
  | slotOp (x : SlotReq)
  | push (x issue : Nat)
  | portEnter (c : DCmd)
  /-- The block at `x` of the PHASE of mark `t` at `pc` is sampled; `tags` are the slot tables at its issue (R181, R217). -/
  | phaseSample (x t pc : Nat) (tags : SMap (SMap Nat))
  | phaseClose
  | phaseOpen (t pc : Nat)
  | mat (x : MatAct)
  | xf (x : XfAct)
  | ix (x : IxAct)
  | draft (x : DrRun)
  /-- Operation `n` of timeline `q` of the unit's hub ends (R232). -/
  | opEnd (q n : Nat)
  /-- A timed beat has claimed its slot of a frame (R42). -/
  | hop (id : Nat)
  | ev (i : Instr) (a : Arg)
  deriving DecidableEq, Repr

/-- A timed effect with the die and CADENCE at which it comes about, the unit that issued it (logical
position, hub, ENG), its issue order (R221, R243, R272), and the timed beat that carries it, if any (R42). -/
structure Due where
  die : Nat
  at_ : Nat
  lpos : Nat
  hub : Nat
  eng : Nat
  seq : Nat
  act : Act
  beat : Option Nat := none
  /-- DETAIL of the word that issued it, for the record of an error that its read meets (R195, R291). -/
  detail : Nat := 0
  deriving DecidableEq, Repr

/-! ### The hub -/

/-- What a hub carries over between the items of one launch while it runs items of others (R171, R201, R320). -/
structure Carry where
  code : SMap (List Nat) := []
  timelines : SMap Timeline := []
  tstride : W64 := 0
  drainBase : Nat := 0
  deriving DecidableEq, Repr

/-- The state of one hub (R269 to R291). -/
structure Hub where
  s : SMap PVal := []
  p : SMap PVal := []
  lc : SMap PVal := []
  loops : List LoopRec := []
  handles : SMap Handle := []
  pc : Nat := 0
  next : Nat := 0
  run : CoreRun := .idle
  wait : Wait := .none
  tstride : W64 := 0
  item : Option Item := none
  /-- The queue of the launch whose item the hub took last, until that launch leaves the hub (R171, R320), and what it carries for
  other launches, by queue. -/
  took : Option Nat := none
  kept : SMap Carry := []
  /-- Sections of the instruction store as 32-bit words (R320). -/
  code : SMap (List Nat) := []
  streams : SMap Eng := []
  timelines : SMap Timeline := []
  replies : List Reply := []
  ports : SMap Port := []
  accesses : List QEntry := []
  /-- MARK: the accesses that an open store mark waits for (R228). -/
  mark : Option (List Nat) := none
  /-- The hub has written host memory since its last flushing read (R231). -/
  posted : Bool := false
  packet : Option Packet := none
  epcfg : W64 := 0x0000000040000000
  sets : Sets := []
  /-- Issue mark of the PHASE whose sets are in force, and the sets of PHASEs that are not yet in force, by issue mark
  (R182, R185). -/
  setsAt : Nat := 0
  /-- Issue mark of a PHASE of a timed launch that the directory has refused, until the halt withdraws its sets (R185). -/
  refused : Option Nat := none
  pendSets : SMap Sets := []
  vbytes : SMap Byte := []
  vpois : SMap Bool := []
  masks : SMap Bool := []
  shape : Shape := {}
  tan : Option Tan := none
  port : List DCmd := []
  portServed : Nat := 0
  keys : Option Keys := none
  maps : SMap DMap := []
  /-- An entry of the drafting unit that waits for its port (R288). -/
  drHeld : Option Reply := none
  /-- This hub's share of sq: scales, poison and the step they belong to (R424). -/
  sq : List (List Nat × Bool × Nat) := []
  /-- Entries that running steps have popped, which a replay pops again (R259). -/
  popped : List (List Nat × Bool × Nat) := []
  /-- MRUN steps that the hub has issued: the next is number `runs + 1` (R424). -/
  runs : Nat := 0
  drainBase : Nat := 0
  ixq : List IxCmd := []
  ixrun : Option IxRun := none
  ixEnd : Nat := 0
  /-- Matrix steps abandoned and to be replayed, and whether they replay now (R259). -/
  replay : List MatStep := []
  replaying : Bool := false
  /-- The stop reference of a stopped or pre-empted hub, and its pending-write list (R242, R243). -/
  stopRef : Nat := 0
  pending : List Due := []
  deriving DecidableEq, Repr

/-! ### Arrays (R277) -/

/-- The two planes and their records. -/
structure Plane where
  cells : SMap Nat := []
  pois : SMap Bool := []
  scales : SMap Nat := []
  spois : SMap Bool := []
  wf : Nat := 0
  loaded : Bool := false
  /-- CADENCE of the last row entry that used the plane. -/
  lastEntry : Option Nat := none
  deriving DecidableEq, Repr

/-- One M-die array (R164, R277). -/
structure Arr where
  /-- The two planes, and whether plane 1 is the active one. -/
  plane0 : Plane := {}
  plane1 : Plane := {}
  swapped : Bool := false
  /-- Accumulator elements: ((copy × 4 + n) × 5 + tangent) × 65,536 + 256 i + j; copy 0 working, 1 committed. -/
  acc : SMap Nat := []
  apois : SMap Bool := []
  md : SMap Byte := []
  mdpois : SMap Bool := []
  af : Nat := 0
  wf : Nat := 0
  amx : Bool := false
  epi : Bool := false
  /-- Running steps with the rows written so far. -/
  steps : List (MatStep × Nat) := []
  /-- CADENCE of the last column write of an MLOADW in progress. -/
  loading : Option Nat := none
  /-- ARRMODE: LTAG, HELD and OWN (R165). -/
  ltag : Nat := 0
  held : Option Nat := none
  own : Nat := 0
  deriving DecidableEq, Repr

/-! ### Dies (R36, R46 to R65, R206, R214, R263) -/

/-- A counted beat that a module sends: SEQ, the packet that it belongs to and the beats of the packet that follow it (R43);
`own` is false for a beat that only returns an ACK. -/
structure OutBeat where
  seq : Nat := 0
  id : Nat := 0
  left : Nat := 0
  own : Bool := true
  deriving DecidableEq, Repr

/-- The header of a frame (R38). -/
structure FrameHeader where
  fseq : Nat := 0
  sub : Nat := 0
  sch : Bool := false
  /-- Kinds of the slots: 0 empty, 1 timed, 2 counted, 3 reserved. -/
  k0 : Nat := 0
  k1 : Nat := 0
  p0 : Bool := false
  p1 : Bool := false
  dv : Bool := false
  dmark : Nat := 0
  ctype : Nat := 0
  cdata : Nat := 0
  deriving DecidableEq, Repr

/-- A frame before its CRC and parity: the header and two slots of 64 bytes (R37). -/
structure Frame where
  hdr : FrameHeader := {}
  slot0 : List Byte := []
  slot1 : List Byte := []
  deriving DecidableEq, Repr

/-- A control word that waits for frames of a module (R39, R246, R249): in how many it goes, and whether in sub-cycle 0 alone. -/
structure CtlOut where
  ctype : Nat := 0
  cdata : Nat := 0
  left : Nat := 0
  sub0 : Bool := false
  deriving DecidableEq, Repr

/-- One die-to-die module (R36, R37, R43, R44, R47). -/
structure Module where
  up : Bool := false
  fill : Nat := 0x20
  driftV : Bool := false
  stale : Bool := false
  ovr : Bool := false
  rate : Nat := 0
  drift : Nat := 0
  /-- Counted channel (R43, R44): next SEQ to send, next SEQ expected, beats that wait for a free slot of a frame, beats not
  yet acknowledged, when ACK last made progress, and whether the retry timer runs. -/
  sendSeq : Nat := 0
  expSeq : Nat := 0
  outq : List OutBeat := []
  replay : List OutBeat := []
  prog : Nat := 0
  timing : Bool := false
  /-- Latest DV and DMARK of the neighbour (R56). -/
  nbrV : Bool := false
  nbrMark : Nat := 0
  /-- SUBMIN received from a child (R52). -/
  submin : Option Nat := none
  lastSample : Nat := 0
  /-- Control words that wait for frames (R39), and the frame that the module sends in this pulse, or sent last (R37). -/
  ctlq : List CtlOut := []
  tx : Frame := {}
  retraining : Bool := false
  deriving DecidableEq, Repr

/-- A timed beat on its way (R41, R42, R449): sender, receiver and slot, the issuing unit, the frames it takes
as die, module and CADENCE with the number of the one it is in, its delivery CADENCE, and its payload. `stream`
tells an XFSEND beat from a control core's request or reply. -/
structure Beat where
  id : Nat
  src : Nat
  die : Nat
  slot : Nat
  lpos : Nat
  hub : Nat
  eng : Nat
  hops : List (Nat × Nat × Nat)
  hop : Nat := 0
  at_ : Nat
  stream : Bool
  /-- It lost a slot conflict (R42), or came in a bad frame (R40). -/
  dropped : Bool := false
  bad : Bool := false
  planes : List (List Byte) := []
  pois : Bool := false
  deriving DecidableEq, Repr

/-- A translation-cache entry (R206, R209). -/
structure Xlat where
  part : Nat
  pasid : Nat
  va : Nat
  size : Nat
  /-- 0 present, 1 not present, 2 refused. -/
  res : Nat
  home : Nat
  base : Nat
  hbm : Bool
  w : Bool
  deriving DecidableEq, Repr

/-- The coasting request of a limit (R32, R33): its level, and the evaluations that it has stood at level 12 with its
limit exceeded (R34). -/
structure Limit where
  level : Nat := 0
  full : Nat := 0
  deriving DecidableEq, Repr

/-- The state of one die. -/
structure Die where
  /-- The oscillator's place in its period, in units of 1/1,000,100 period, and whether a period began in this tick (R29). -/
  acc : Nat := 0
  clocked : Bool := true
  cad : Nat := 0
  /-- CADENCE less the mark: a negative one where a launch's marks are ahead of CADENCE (R263). -/
  lshift : Int := 0
  /-- Cy of the current scy already passed (R65, R189). -/
  sub : Nat := 0
  /-- Tangent count in force on the die. -/
  tk : Nat := 0
  plid : Nat := 0
  parent : Nat := 0
  member : Bool := false
  root : Bool := false
  ahead : Nat := 0
  lag : Nat := 0
  submin : Nat := 0
  gmin : Nat := 0
  armed : Bool := false
  quiet : Bool := false
  adopt : Bool := false
  idle : Bool := false
  standHubs : Nat := 0
  standM : Nat := 0
  lastStand : Nat := 0
  quietHubs : Nat := 0
  /-- Pulses still to swallow for a stand, and whether the die holds at one. -/
  swallow : Nat := 0
  standing : Bool := false
  /-- The pulse at hand begins no scy of the die: it was swallowed, or is a later sub-cycle. -/
  still : Bool := false
  /-- The pulse at hand is swallowed by a stand, a halt or coasting: its frames are idle (R37). -/
  gap : Bool := false
  /-- Idle frames since the last schedule frame: the number of the frame at hand among them, 0 for a schedule frame. -/
  gaps : Nat := 0
  /-- The die holds at a quiet stand for the H-die's gather (R261). -/
  gather : Bool := false
  /-- Halt mark, whether the die holds at it, and the release wait (R246, R247, R249). -/
  haltAt : Option Nat := none
  held : Bool := false
  release : Option Nat := none
  /-- The schedule clock is frozen for a formation: the die resumes at its CADENCE, the formation mark (R51). -/
  forming : Bool := false
  /-- Coasting level, pattern index, a member's changes with their marks Q, and the level that a die in the counted regime takes
  at its next group boundary (R63, R64). -/
  coast : Nat := 0
  phase : Nat := 0
  coastNext : List (Nat × Nat) := []
  coastOwn : Option Nat := none
  /-- Requests of the junction limit and of the stack's limit (R32, R33). -/
  reqJunc : Limit := {}
  reqStack : Limit := {}
  powered : Bool := true
  /-- The clock gates of the die's islands, a bit each, 1 where the clock is stopped (R31, R133). -/
  gates : Nat := 0
  modules : SMap Module := []
  dtc : List Xlat := []
  /-- B-die: tag table (V and TAG), translation cache (R206, R214). -/
  tags : SMap Nat := []
  bcache : List Xlat := []
  /-- HBM key epoch (R128), and the save areas that contexts were last written to: offset, length and number of the save
  (R154, R264). -/
  epoch : Nat := 0
  saves : List (Nat × Nat × Nat) := []
  /-- V-die: the drafting unit's running command and the last port served (R289). -/
  draft : Option DrRun := none
  /-- The command that starts in this scy, with its hub. -/
  draftGo : Option (Nat × DCmd) := none
  draftLast : Nat := 7
  draftEnd : Nat := 0
  deriving DecidableEq, Repr

/-! ### X-dies (R66 to R93, R476 to R484) -/

/-- A fabric word with its valid bit (R476). -/
structure FWord where
  v : W64 := 0
  ok : Bool := false
  deriving DecidableEq, Repr

/-- A word of collective data: its source rank, its index in the shard, and the number of its operation (R481). -/
structure SWord where
  v : W64
  rank : Nat
  q : Nat
  num : Nat
  deriving DecidableEq, Repr

/-- One fabric element (R81), with its place in the streams of its local link (R481): words taken and emitted
for the operation in progress, and the words taken and not yet emitted, with their source rank and position. -/
structure Elem where
  f : SMap FWord := []
  pc : Nat := 0
  /-- Latches N, E, S, W by 0 to 3. -/
  latch : SMap FWord := []
  phase : Nat := 0
  taken : Nat := 0
  emitted : Nat := 0
  pend : List SWord := []
  deriving DecidableEq, Repr

/-- A bundle's effects, held until the end of its pulse (R82): slots that have acted, register writes, links
driven, the target of a FLOOPB, a take, an emit, and whether the bundle holds (R480). -/
structure FStage where
  slots : Nat := 0
  regs : List (Nat × W64) := []
  links : List (Nat × FWord) := []
  target : Option Nat := none
  take : Bool := false
  emit : Option W64 := none
  hold : Bool := false
  deriving DecidableEq, Repr

/-- A long-link port (R66 to R72). -/
structure LPort where
  up : Bool := false
  train : Bool := false
  lerr : Bool := false
  peer : Nat := 0
  lost : Nat := 0
  retries : Nat := 0
  seq : Nat := 0
  exp : Nat := 0
  /-- Highest SEQ received in order: before the first flit, the one before SEQ 0 (log 25). -/
  ack : Nat := 4095
  nak : Bool := false
  /-- An ACK is still to be returned. -/
  news : Bool := false
  /-- Flits sent and not acknowledged, with their retries; how many of them have gone since the last resending began (R68). -/
  replay : List (Flit × Nat) := []
  gone : Nat := 0
  /-- A transmit event and a retry timer are on their way. -/
  busy : Bool := false
  timing : Bool := false
  queue : List Flit := []
  /-- Flit times at which the last class-3 flits were admitted, the flit time of the last flit sent, and the place in the
  weighted round robin (R70). -/
  shaped : List Nat := []
  times : Nat := 0
  wrr : Nat := 0
  /-- When the oldest unacknowledged flit last made progress, in pulses. -/
  progress : Nat := 0
  deriving DecidableEq, Repr

/-- A collective operation of an X-die (R86 to R92): its context and its number among the context's, E (0 while no own contribution
has come), the elements of the package's own contribution, the words of the own shard by rank and position, its result words, the
shards sent to their owners, the owners that are ready, result words received by shard, words by port that wait for the context to
be bound, and its times. -/
structure Coll where
  ctx : Nat
  num : Nat := 0
  count : Nat := 0
  mine : List (Nat × Nat) := []
  words : List (Nat × Nat × W64) := []
  results : List (Nat × W64) := []
  sent : List Nat := []
  sentReady : Bool := false
  ready : List Nat := []
  committed : Bool := false
  outs : List (Nat × Nat × W64) := []
  early : List (Nat × SWord) := []
  /-- Pulse of the first contribution, and of the first READY at rank 0. -/
  started : Option Nat := none
  firstReady : Option Nat := none
  deriving DecidableEq, Repr

/-- The state of one X-die. -/
structure XDie where
  ports : SMap LPort := []
  colctx : SMap W64 := []
  ranktab : SMap W64 := []
  graphs : SMap (List (List Nat)) := []
  /-- Bound graph: mode, length and bundles; and the bound context and hub. -/
  bound : Option (Nat × Nat × List (List Nat)) := none
  ctx : Option Nat := none
  ctxHub : SMap Nat := []
  elems : SMap Elem := []
  stage : SMap FStage := []
  /-- Words waiting at the local input of an even element (R481). -/
  sources : SMap (List SWord) := []
  /-- Words of the bound context received on a port (R481), and the number of each context's operation: those that have ended. -/
  portWords : SMap Nat := []
  opNums : SMap Nat := []
  colls : List Coll := []
  /-- Committed outputs by context: shard, position and word (R88). -/
  outputs : SMap (List (Nat × Nat × W64)) := []
  deriving DecidableEq, Repr

/-! ### The H-die (R94 to R160) -/

/-- A queue control block (R107). -/
structure Qcb where
  rbase : Nat := 0
  qid : Nat := 0
  part : Nat := 0
  pasid : Nat := 0
  log2n : Nat := 0
  cap : Nat := 0
  prio : Nat := 0
  bprio : Nat := 0
  tail : Nat := 0
  head : Nat := 0
  age : Nat := 0
  wbud : Nat := 0
  wrem : Nat := 0
  state : Nat := 0
  lkind : Nat := 0
  nflt : Nat := 0
  savep : Nat := 0
  ltag : Nat := 0
  fw : List Byte := []
  deriving DecidableEq, Repr

/-- A work-ID field (R110). -/
structure WField where
  extent : Nat := 0
  order : Nat := 0
  width : Nat := 0
  lsb : Nat := 0
  deriving DecidableEq, Repr

/-- A launch record (R110). -/
structure Record where
  bytes : List Byte := []
  deriving DecidableEq, Repr

/-- A launch in progress (R161 to R175). -/
structure Run where
  launch : Launch := {}
  fields : List WField := []
  teams : List (Nat × Nat × Nat) := []
  wlist : W64 := 0
  cie : Bool := false
  cvec : Nat := 0
  caddr : Nat := 0
  cval : W64 := 0
  /-- Next unplaced ordinal; per team, items taken and items started. -/
  next : Nat := 0
  taken : SMap Nat := []
  /-- With WL = 1, each team's list and count; an entry that could not be read has a fault, as 256 × kind + subcode
  (R170). -/
  lists : List (Nat × Nat × Nat) := []
  skipped : Nat := 0
  ended : Nat := 0
  /-- Items placed whose start is pending: team, ordinal, start mark. -/
  placed : List (Nat × Nat × Nat) := []
  tstart : Nat := 0
  tperiod : Nat := 0
  /-- HALT executed: no further placement (R379). A stop or TRAP: the launch aborts (R240, R380). -/
  halt : Bool := false
  abort : Bool := false
  deriving DecidableEq, Repr

/-- One of the 16 slots. -/
structure Slot where
  valid : Bool := false
  qcb : Qcb := {}
  err : Nat := 0
  addr : Nat := 0
  bkstop : Bool := false
  preq : Bool := false
  wdx : Bool := false
  hold : Bool := false
  /-- BUSY of SLOTCTL: a command that firmware has written is in progress (R108). -/
  busy : Bool := false
  /-- The CAP that a QPRIO has set for the queue's next fetch (R149). -/
  newCap : Option Nat := none
  /-- Grace clock and halt clock in µs (R152, R251). -/
  grace : Nat := 0
  halt : Nat := 0
  record : Record := {}
  validated : Bool := false
  granted : Bool := false
  run : Option Run := none
  /-- Restored in the cycle of an ageing tick (R145). -/
  fresh : Bool := false
  /-- The hubs of the launch stand still: its pre-emption saves them, or its context is being reloaded (R244, R260). -/
  stopping : Bool := false
  /-- A scrub passes a launch of the slot (R131). -/
  owes : Bool := false
  deriving DecidableEq, Repr

/-- A saved hub: its whole state with its position, and the array state it holds (R264). -/
structure Saved where
  slotOf : Nat
  qid : Nat
  ltag : Nat
  savep : Nat
  wbud : Nat
  run : Run
  hubs : SMap Hub
  arrays : SMap Arr
  mark : Nat
  barriers : List Barrier
  /-- Number of the save, and its place: B-die and offset (R154). -/
  num : Nat := 0
  area : Nat × Nat := (0, 0)
  /-- The hub that each die's drafting unit served last, in a timed launch (R2, R289). -/
  served : SMap Nat := []
  /-- SRAM of the launch's hubs as the save area holds it, with its poisoned lines; it returns at a resumption after the dies have
  lost power, which `off` tells (R134). -/
  pads : List Host.Cell := []
  padPois : List Nat := []
  off : Bool := false
  deriving DecidableEq, Repr

/-- An open phase in the set directory (R184). -/
structure Phase where
  hub : Nat
  lpos : Nat
  /-- The queue of its launch, the issue mark of its PHASE in a timed one, and the PC of its PHASE. -/
  qid : Nat
  at_ : Option Nat := none
  pc : Nat := 0
  sets : Sets
  /-- The tangents of its launch and the hub's k.tstride, which give the images of the ranges (R186). -/
  k : Nat := 0
  stride : Nat := 0
  deriving DecidableEq, Repr

/-- A page fault in a batch (R117). -/
structure PFault where
  pasid : Nat
  va : Nat
  wr : Bool
  lpos : Nat
  hub : Nat
  slot : Nat
  qid : Nat
  eng : Nat := 0
  mark : Nat := 0
  ltag : Nat := 0
  time : Nat := 0
  deriving DecidableEq, Repr

/-- One partition (R23 to R27, R99, R115, R118, R138 to R160, R207, R381). -/
structure Part where
  ldmap : SMap Nat := []
  ldErr : Nat := 0
  ldBad : Nat := 0
  ldRsn : Nat := 0
  lock : Bool := false
  frbase : Nat := 0
  frEn : Bool := false
  frOvf : Bool := false
  frLost : Nat := 0
  frLog : Nat := 6
  frHead : Nat := 0
  frTail : Nat := 0
  dbdrop : Nat := 0
  mbDone : Bool := false
  mbBusy : Bool := false
  mbReq : SMap Byte := []
  mbRsp : SMap Byte := []
  xldir : Nat := 0
  xlEn : Bool := false
  xlLog : Nat := 0
  xlBusy : Bool := false
  xlDrop : Bool := false
  xlDone : Nat := 0
  xlPend : Nat := 0
  /-- The shootdown in progress: PASID, address, size. -/
  shoot : Option (Nat × Nat × Nat) := none
  xlgen : Nat := 0
  rstOrigin : Nat := 0
  rstPhase : Nat := 0
  rstBusy : Bool := false
  trapV : Bool := false
  trapMore : Bool := false
  trap : W64 := 0
  cap : Nat := 7
  quota : Nat := 16
  suspended : Bool := false
  suspReq : Bool := false
  /-- The slot that firmware holds to make room for a waiting queue (R146). -/
  evict : Option Nat := none
  scrubbing : Bool := false
  /-- The scrub under way enters the customer level (R130). -/
  enter : Bool := false
  /-- R131 has completed and nothing has been written since; firmware has not resumed the partition yet (R134, R158). -/
  clean : Bool := false
  parked : Bool := false
  tdisp : Nat := 0
  /-- Functions whose PRESET waits for BUSY to clear (R149, R150). -/
  waits : List Nat := []
  epoch : Nat := 0
  ownkh : BitVec 256 := 0
  pmeas : SMap (BitVec 256) := []
  /-- The partition is at the customer level (R130). -/
  customer : Bool := false
  /-- Pacelines that the reset under way dissolved. -/
  reform : List Nat := []
  susp : List Saved := []
  phases : List Phase := []
  barriers : List Barrier := []
  batch : List PFault := []
  batchAt : Nat := 0
  lastGrant : Nat := 15
  deriving DecidableEq, Repr

/-- One paceline (R49 to R53, R248). -/
structure Pl where
  mem : Nat := 0
  err : Nat := 0
  root : Nat := 0
  part : Nat := 0
  hops : Nat := 0
  /-- FORM, and the formation under way: 1 its reads of CADENCE, 2 its freezing, 3 its release wave (R49, R51). -/
  form : Bool := false
  stage : Nat := 0
  /-- PLMEMn as it stood at the write of FORM: the members (R49, R50). -/
  taken : Nat := 0
  formed : Bool := false
  mark0 : Nat := 0
  slot : Option Nat := none
  held : Bool := false
  pend : Bool := false
  haltErr : Nat := 0
  nflt : Nat := 0
  kind : Nat := 0
  hmark : Nat := 0
  /-- Order of the lowest fault: mark, LPOS, HUB, ENG. -/
  low : Option (Nat × Nat × Nat × Nat) := none
  retrain : Bool := false
  /-- Members without a launch arm idle stands for marks from `idleFrom`, and with one for marks up to `idleTo` (R519). -/
  idleFrom : Nat := 0
  idleTo : Nat := 0
  /-- The coasting level last ordered (R64). -/
  coast : Nat := 0
  /-- The halted launch met a TRAP (R380). -/
  trap : Bool := false
  deriving DecidableEq, Repr

/-- An SPDM responder of a function (R127, R129). -/
structure Spdm where
  version : Bool := false
  algs : Bool := false
  session : Bool := false
  finished : Bool := false
  ideKey : List Byte := []
  deriving DecidableEq, Repr

/-- The power states of R133. -/
inductive Power
  | active | idleRetain | sleep | trip | off
  deriving DecidableEq, Repr

/-- What belongs to the package as a whole. -/
structure Dev where
  mix : SMap Nat := []
  dieFail : SMap Bool := []
  bootErr : Nat := 0
  bootStage : Nat := 0
  bootSvn : Nat := 0
  bootMinsvn : Nat := 0
  bootDbg : Nat := 0
  bootRec : Bool := false
  bootWake : Nat := 0
  vdbgoff : Bool := false
  meas : SMap (BitVec 256) := []
  dnonce : W64 := 0
  power : Power := .active
  /-- When the dies outside the H-die had their clocks gated, until idle-retain or a wake (R133). -/
  gatedAt : Option Nat := none
  /-- Every partition is being scrubbed for the entry of the vendor level (R130). -/
  vendorEnter : Bool := false
  /-- Requests of the package's power and VCORE limits (R32, R33). -/
  reqPkg : Limit := {}
  reqVcore : Limit := {}
  grace : Nat := 1000
  agestep : Nat := 100
  fwsram : SMap (List Byte) := []
  mgmtIrq : SMap Nat := []
  pfDone : Bool := false
  pfBusy : Bool := false
  pfReq : SMap Byte := []
  pfRsp : SMap Byte := []
  /-- Pending vector (R105). -/
  pend : SMap Bool := []
  /-- When each pending bit was set, in pulses (R146). -/
  pendAt : SMap Nat := []
  /-- QREG by queue: V, PART, MAP, SLOT, DBTAIL (R104). -/
  qregs : SMap (Bool × Nat × Bool × Nat × Nat) := []
  /-- MSI-X tables and pending bits, by function × 65,536 + offset (R97). -/
  msix : SMap Byte := []
  spdm : SMap Spdm := []
  lastUs : Nat := 0
  /-- Regulator settings by 8 × position + island, in mV, that differ from 400 (R31; log 93). -/
  islands : SMap Nat := []
  deriving DecidableEq, Repr

/-- The regulator setting of an island of a die, in mV: 400 from reset to the first evaluation (R31; log 93). -/
def Dev.island (d : Dev) (p i : Nat) : Nat := SMap.get 400 d.islands (8 * p + i)

/-- A counted packet on its way (R43, R45, R202). -/
structure Pkt where
  /-- TYPE of R202. -/
  typ : Nat := 0
  die : Nat := 0
  hub : Nat := 0
  eng : Nat := 0
  part : Nat := 0
  /-- Target die; 48 is the host. -/
  target : Nat := 0
  addr : Nat := 0
  n : Nat := 0
  bytes : List Byte := []
  /-- Tangent planes of a transfer chunk. -/
  planes : List (List Byte) := []
  pois : Bool := false
  amo : Option AmoReq := none
  slotOp : Option SlotReq := none
  /-- Register write of a reply: register and CADENCE of the deadline. -/
  reg : Nat := 0
  at_ : Nat := 0
  /-- Issue order of the instruction (R243), and DETAIL of its word (R291). -/
  ord : Nat := 0
  detail : Nat := 0
  fill : Option PFault := none
  res : Option Xlat := none
  /-- Transfer word and chunk that the packet serves; the number of the destination. -/
  xf : Option (XfWord × Nat) := none
  dst : Nat := 0
  /-- Collective contribution (R444). -/
  con : Contribution := {}
  /-- Endpoint packet (R75), and the record to be written where it is refused. -/
  pkt : EndPacket := {}
  rep : FaultReport := {}
  /-- A reply on its way back, its data with the poison of each element; whether the reply has arrived, and whether
  the promised cycle has passed (R45). -/
  back : Bool := false
  elems : List Bool := []
  done : Bool := false
  late : Bool := false
  /-- The target has discarded the request: no reply comes (R141). -/
  lost : Bool := false
  deriving DecidableEq, Repr

/-- What the device sends outside (R112, R119, R67, R118, R127). -/
inductive Out
  | msix (fn vec : Nat)
  /-- A flit on a long link: its 256 bytes, and the record that they carry. -/
  | flit (pos port : Nat) (bytes : List Byte) (f : Flit)
  | spdm (fn : Nat) (body : List Byte)
  | debugRead (fn : Nat) (bytes : List Byte)
  /-- A host access completed with Unsupported Request: function and BAR (R99, R101). -/
  | unsupported (fn bar : Nat)
  | collective (pos ctx rank kind : Nat)
  deriving DecidableEq, Repr

/-- The unit whose word a step runs. -/
structure Focus where
  die : Nat
  hub : Nat
  eng : Nat
  deriving DecidableEq, Repr

/-- The state of the whole package. The fields from `cur` to `outs` are the model's own bookkeeping. -/
structure State where
  /-- The unit whose word runs next. -/
  cur : Focus
  /-- Events that are due, in order. -/
  inbox : List (Instr × Arg)
  /-- What arrived with the event at hand. -/
  arg : Arg
  /-- Whether this pulse's words have all issued. -/
  ended : Bool
  /-- Effects timed in a die's CADENCE. -/
  agenda : List Due
  /-- Events timed in oscillator pulses. -/
  timers : List (Nat × Instr × Arg)
  /-- Issue order of operations (R243). -/
  seq : Nat
  /-- The model's own counter that supplies fresh free values. -/
  free : Nat
  /-- Counted packets on their way, by number, and the last arrival of each source and destination (R43). -/
  net : SMap Pkt
  netSeq : Nat
  chan : SMap Nat
  outs : List Out
  /-- Oscillator pulses since cold reset (R5). -/
  cy : Nat
  dev : Dev
  slots : SMap Slot
  parts : SMap Part
  pls : SMap Pl
  dies : SMap Die
  /-- Hubs by 8 × position + hub. -/
  hubs : SMap Hub
  /-- Arrays by 4 × position + array. -/
  arrays : SMap Arr
  xdies : SMap XDie
  /-- Timed beats delivered and not yet taken. -/
  beats : List Beat
  /-- Every byte of memory: home × 2^64 + offset (R195, R220). -/
  mem : List Host.Cell
  /-- Poisoned 64-byte lines of memory (R253), by flat address ÷ 64. -/
  lines : SMap Bool
  /-- The key epoch under which each HBM line was written (R128, R131). -/
  epochs : SMap Nat
  /-- Lines with an uncorrectable error, by flat address ÷ 64 (R195). -/
  ecc : SMap Bool
  deriving DecidableEq, Repr

/-- Why the machine stops. -/
inductive Fault
  /-- Raised by the step when the package is in the Off state and nothing arrives from outside: it has no
  state that changes and no next state (R133, R134). Safe: the machine goes no further. -/
  | powerIsOff
  deriving DecidableEq, Repr

/-- Why an instruction has no meaning. -/
inductive Refusal
  /-- Raised by the dispatch for a row of the opcode table whose meaning is not written yet. Safe: the
  machine goes no further. -/
  | notModelled (mnemonic : String)
  deriving DecidableEq, Repr

/-- The MIX entries of the fuses (R17). -/
def mixFuses : SMap Nat :=
  (List.range 48).filterMap fun p => if Config.mixByte p = 0 then none else some (p, Config.mixByte p)

/-- The state right after power is applied, before any instruction: every register at the reset value its
map gives; the values no rule gives are those of logs 2, 3, 4, 6 and 12. The boot ROM's run is the first
event (R122). -/
def State.reset : State where
  cur := ⟨0, 0, 0⟩
  inbox := [(.coldReset, {})]
  arg := {}
  ended := false
  agenda := []
  timers := []
  seq := 0
  free := 0
  net := []
  netSeq := 0
  chan := []
  outs := []
  cy := 0
  dev := { mix := mixFuses }
  slots := []
  parts := []
  pls := []
  dies := []
  hubs := []
  arrays := []
  xdies := []
  beats := []
  mem := []
  lines := []
  epochs := []
  ecc := []

end Sys2Proof.Machine
end

