-- ==== Sys2Proof/Machine/Frames.lean ====
section
/-! DEFINITION. What stands in a frame of a die-to-die module and in the header of a counted beat (R37 to R39, R43): the
layouts, the CRC, and the control words. -/

namespace Sys2Proof.Machine

open Sys2Proof

/-! ### The CRC (R37, R67) -/

/-- One bit of the CRC-32 of IEEE 802.3, least significant bit first. -/
def crcBit (c : Nat) : Nat := if c % 2 = 1 then (c / 2).xor 0xEDB88320 else c / 2

/-- One byte of the CRC-32. -/
def crcByte (c : Nat) (b : Byte) : Nat := (List.range 8).foldl (fun c _ => crcBit c) (c.xor b.toNat)

/-- The CRC-32 of IEEE 802.3 of a string of bytes. -/
def crc32 (bs : List Byte) : Nat := (bs.foldl crcByte 0xFFFFFFFF).xor 0xFFFFFFFF

/-! ### Frames (R37, R38) -/

/-- The 128 bits of a header; reserved bits are sent as 0 (R38). -/
def FrameHeader.bits (h : FrameHeader) : Nat :=
  h.fseq % 256 * 2 ^ 120 + h.sub % 8 * 2 ^ 117 + bitOf h.sch * 2 ^ 116 + h.k0 % 4 * 2 ^ 114 + h.k1 % 4 * 2 ^ 112 +
  bitOf h.p0 * 2 ^ 111 + bitOf h.p1 * 2 ^ 110 + bitOf h.dv * 2 ^ 109 + h.dmark % 2 ^ 32 * 2 ^ 72 + h.ctype % 16 * 2 ^ 68 +
  h.cdata % 2 ^ 64

/-- What a receiver reads in 128 header bits: reserved bits are ignored, and a slot of the reserved kind is treated as empty
(R38). -/
def frameHeaderOf (x : Nat) : FrameHeader :=
  let kind := fun (k : Nat) => if k = 3 then 0 else k
  { fseq := bits x 127 120, sub := bits x 119 117, sch := x.testBit 116, k0 := kind (bits x 115 114), k1 := kind (bits x 113 112)
    p0 := x.testBit 111, p1 := x.testBit 110, dv := x.testBit 109, dmark := bits x 103 72, ctype := bits x 71 68, cdata := bits x 63 0 }

/-- Bytes cut or filled with zeros to a length. -/
def fitBytes (n : Nat) (bs : List Byte) : List Byte := bs.take n ++ List.replicate (n - bs.length) 0

/-- The 144 bytes that the CRC covers. -/
def Frame.body (f : Frame) : List Byte := leBytes 16 f.hdr.bits ++ fitBytes 64 f.slot0 ++ fitBytes 64 f.slot1

/-- The 192 bytes on the lanes: header, slots, CRC-32 and 44 bytes of FEC parity (R37). -/
def Frame.bytes (f : Frame) : List Byte :=
  let x := f.body ++ leBytes 4 (crc32 f.body)
  x ++ fitBytes 44 (Config.fecParity x)

/-- The FEC corrects a frame whose errors, as differences byte by byte, touch at most 22 bytes (R37). -/
def corrected (err : List Byte) : Bool := decide ((err.filter fun b => b != 0).length ≤ 22)

/-! ### Flits (R67) -/

/-- The header of a flit (R67). -/
def Flit.header (f : Flit) : Nat :=
  f.cls % 4 * 2 ^ 62 + f.seq % 4096 * 2 ^ 50 + f.ack % 4096 * 2 ^ 38 + bitOf f.nak * 2 ^ 37 + f.typ % 16 * 2 ^ 33 +
  min f.words.length 30 * 2 ^ 28 + f.drank % 4096 * 2 ^ 16 + f.srank % 4096 * 2 ^ 4

/-- Bytes 0 to 247 of a flit: header and payload (R67). -/
def Flit.body (f : Flit) : List Byte :=
  leBytes 8 f.header ++ fitBytes 240 ((f.words.take 30).flatMap fun w => leBytes 8 w.toNat)

/-- The 256 bytes of a flit (R67). -/
def Flit.bytes (f : Flit) : List Byte := f.body ++ leBytes 4 (crc32 f.body) ++ leBytes 4 0

/-- The CRC of a flit received holds; bytes 252 to 255 are ignored (R67). -/
def flitGood (bs : List Byte) : Bool := leNat ((bs.drop 248).take 4) == crc32 (bs.take 248)

/-- What a receiver reads in a flit's bytes: a LEN above 30 is read as 30, reserved bits are ignored (R67). `side` gives what has
no place in them. -/
def flitOf (bs : List Byte) (side : Flit) : Flit :=
  let h := leNat (bs.take 8)
  { side with
    cls := bits h 63 62, seq := bits h 61 50, ack := bits h 49 38, nak := h.testBit 37, typ := bits h 36 33
    drank := bits h 27 16, srank := bits h 15 4
    words := (List.range (min (bits h 32 28) 30)).map fun i => BitVec.ofNat 64 (leNat ((bs.drop (8 + 8 * i)).take 8)) }

/-! ### Control words (R39) -/

/-- CTYPE codes of R39. -/
def ctSample : Nat := 1
def ctSubmin : Nat := 2
def ctDown : Nat := 3
def ctCoast : Nat := 4
def ctHalt : Nat := 5
def ctRelease : Nat := 6

/-- What a receiver does with a control word; a reserved CTYPE is ignored (R39). -/
def ctlEvent (ctype : Nat) : Option Instr :=
  if ctype = 1 then some .sampleReceive else if ctype = 2 then some .subminReceive else if ctype = 3 then some .downReceive
  else if ctype = 4 then some .coastReceive else if ctype = 5 then some .haltFrameReceive
  else if ctype = 6 then some .releaseFrameReceive else none

/-- CDATA of DOWN: AHEAD and GMIN (R39). -/
def downData (ahead gmin : Nat) : Nat := ahead % 2 ^ 32 * 2 ^ 32 + gmin % 2 ^ 32
/-- CDATA of COAST: the level and bits [47:0] of Q (R39). -/
def coastData (c q : Nat) : Nat := c % 16 * 2 ^ 60 + q % 2 ^ 48
/-- CDATA of HALT: PLID and HMARK (R246). -/
def haltData (plid hmark : Nat) : Nat := plid % 16 * 2 ^ 56 + hmark % 2 ^ 48
/-- CDATA of RELEASE: W and HMARK (R249). -/
def releaseData (w hmark : Nat) : Nat := w % 2 ^ 16 * 2 ^ 48 + hmark % 2 ^ 48

/-! ### Counted beats (R43) -/

/-- The header of a counted beat (R43). -/
structure BeatHeader where
  dpos : Nat := 0
  dhub : Nat := 0
  deng : Nat := 0
  spos : Nat := 0
  shub : Nat := 0
  seq : Nat := 0
  ack : Nat := 0
  typ : Nat := 0
  left : Nat := 0
  deriving DecidableEq, Repr

/-- The first 8 bytes of a counted beat (R43). -/
def BeatHeader.bits (h : BeatHeader) : Nat :=
  h.dpos % 64 * 2 ^ 58 + h.dhub % 8 * 2 ^ 55 + h.deng % 8 * 2 ^ 52 + h.spos % 64 * 2 ^ 46 + h.shub % 8 * 2 ^ 43 +
  h.seq % 4096 * 2 ^ 31 + h.ack % 4096 * 2 ^ 19 + h.typ % 16 * 2 ^ 15 + h.left % 8 * 2 ^ 12

/-- What a receiver reads in a beat's header; bits [11:0] are ignored (R43). -/
def beatHeaderOf (x : Nat) : BeatHeader :=
  { dpos := bits x 63 58, dhub := bits x 57 55, deng := bits x 54 52, spos := bits x 51 46, shub := bits x 45 43
    seq := bits x 42 31, ack := bits x 30 19, typ := bits x 18 15, left := bits x 14 12 }

/-- Beats of a packet of `n` bytes of payload, 56 of them in a beat; LEFT counts at most 8 beats (R43, R45). -/
def beatsFor (n : Nat) : Nat := min 8 (max 1 (ceilDiv n 56))

end Sys2Proof.Machine
end

