-- ==== Sys2Proof/Machine/Ops.lean ====
section
/-! DEFINITION. The named operations over the state: reading and changing each family, memory with its
poison and HBM keys, timed effects, advancing the control core, and taking a fault. -/

namespace Sys2Proof.Machine

open Sys2Proof

/-- A count that stays at its greatest value (R72, R99, R107, R115). -/
def satAdd (top a n : Nat) : Nat := if a + n ≤ top then a + n else top

/-! ### Families -/

def State.die (s : State) (p : Nat) : Die := SMap.get {} s.dies p
def State.setDie (s : State) (p : Nat) (d : Die) : State := { s with dies := SMap.put s.dies p d }
def State.hub (s : State) (p h : Nat) : Hub := SMap.get {} s.hubs (8 * p + h)
def State.setHub (s : State) (p h : Nat) (x : Hub) : State := { s with hubs := SMap.put s.hubs (8 * p + h) x }
def State.arr (s : State) (p a : Nat) : Arr := SMap.get {} s.arrays (4 * p + a)
def State.setArr (s : State) (p a : Nat) (x : Arr) : State := { s with arrays := SMap.put s.arrays (4 * p + a) x }
def State.slot (s : State) (n : Nat) : Slot := SMap.get {} s.slots n
def State.setSlot (s : State) (n : Nat) (x : Slot) : State := { s with slots := SMap.put s.slots n x }
def State.part (s : State) (p : Nat) : Part := SMap.get {} s.parts p
def State.setPart (s : State) (p : Nat) (x : Part) : State := { s with parts := SMap.put s.parts p x }
def State.pl (s : State) (n : Nat) : Pl := SMap.get {} s.pls n
def State.setPl (s : State) (n : Nat) (x : Pl) : State := { s with pls := SMap.put s.pls n x }
def State.xdie (s : State) (p : Nat) : XDie := SMap.get {} s.xdies p
def State.setXdie (s : State) (p : Nat) (x : XDie) : State := { s with xdies := SMap.put s.xdies p x }

/-- The hub that the step runs a word of. -/
def State.curHub (s : State) : Hub := s.hub s.cur.die s.cur.hub
def State.setCurHub (s : State) (h : Hub) : State := s.setHub s.cur.die s.cur.hub h

/-- An engine stream of a hub (R173). -/
def Hub.stream (h : Hub) (e : Nat) : Eng := SMap.get {} h.streams e
def Hub.setStream (h : Hub) (e : Nat) (x : Eng) : Hub := { h with streams := SMap.put h.streams e x }
/-- A timeline: 0 tl.m, 1 tl.v, 2 tl.x0, 3 tl.x1, 4 tl.ix, 5 tl.dr, 6 tl.f (R326). -/
def Hub.timeline (h : Hub) (q : Nat) : Timeline := SMap.get {} h.timelines q
def Hub.setTimeline (h : Hub) (q : Nat) (x : Timeline) : Hub := { h with timelines := SMap.put h.timelines q x }
/-- The launch of the item that a hub holds. -/
def Hub.launch (h : Hub) : Launch := (h.item.getD {}).launch
/-- The logical position of a hub that holds an item. -/
def Hub.lpos (h : Hub) : Nat := (h.item.getD {}).lpos

/-! ### Positions and kinds (R15 to R25) -/

/-- A mix entry is fitted-good (R17, R18). -/
def State.good (s : State) (p : Nat) : Bool :=
  let e := SMap.get 0 s.dev.mix p
  decide (bits e 3 2 = 1) && decide (1 ≤ bits e 7 4 ∧ bits e 7 4 ≤ 6)

/-- The kind of the die at a physical position; none where it is not fitted-good (R18). -/
def State.kind (s : State) (p : Nat) : Config.Kind :=
  if s.good p then Config.kindOfCode (bits (SMap.get 0 s.dev.mix p) 7 4) else .none

/-- The acting H-die (R21). -/
def State.actingH (s : State) : Nat := ((List.range 48).find? fun p => s.kind p == .hDie).getD 0

/-- The physical position bound to a logical position of a partition (R22, R23). -/
def State.phys (s : State) (part l : Nat) : Option Nat :=
  let e := SMap.get 0 (s.part part).ldmap l
  if e.testBit 15 then some (bits e 5 0) else none

/-- The logical position to which a partition's map binds a physical position. -/
def State.logical (s : State) (part p : Nat) : Option Nat := (List.range 48).find? fun l => s.phys part l == some p

/-- The partition whose locked map binds a position, position 0 apart (R25). -/
def State.boundPart (s : State) (p : Nat) : Option Nat :=
  (List.range 16).find? fun q => (s.part q).lock && (s.logical q p).isSome

/-! ### Memory (R195, R220, R253) -/

/-- Homes of the flat memory. -/
def homeScratch (k : Config.Kind) (p h : Nat) : Nat := 8 * p + (if k = .mDie then h / 2 * 2 else h)
def homeWeight (p a : Nat) : Nat := 384 + 4 * p + a
def homeBuf (p : Nat) : Nat := 576 + p
def homeHbm (p : Nat) : Nat := 640 + p
def homeFlash : Nat := 700
/-- Host memory as a partition's VF reaches it, without a PASID or under one (R208, R209). -/
def homeHost (part : Nat) (pasid : Option Nat) : Nat :=
  4096 + part * 2 ^ 21 + (match pasid with | none => 0 | some p => p % 2 ^ 20 + 1)

/-- The flat address of an offset within a home. -/
def flat (home off : Nat) : Nat := home * 2 ^ 64 + off
def homeOf (a : Nat) : Nat := a / 2 ^ 64
/-- The home is on-package SRAM, which carries poison by line (R253). -/
def isSram (home : Nat) : Bool := decide (home < 640)
def isHbm (home : Nat) : Bool := decide (640 ≤ home ∧ home < 688)
/-- The die whose marks time a home; 48 is the host. -/
def homeDie (home : Nat) : Nat :=
  if home < 384 then home / 8 else if home < 576 then (home - 384) / 4 else if home < 640 then home - 576
  else if home < 688 then home - 640 else 48

/-- What a byte that nothing has written reads as: DESIGN CHOICE 0 (log 4), unsafe. -/
def unlisted : Byte := 0

/-- A byte of an HBM line that was not written under the present key: of a context where one was saved there, else of the
line decrypted under a key that did not write it (R128, R154; logs 10 and 58). -/
def Die.blankByte (d : Die) (a : Nat) : Byte :=
  match d.saves.find? fun x => decide (x.1 ≤ a % 2 ^ 64 ∧ a % 2 ^ 64 < x.1 + x.2.1) with
  | some x => Config.contextByte d.epoch x.2.2 a
  | none => Config.staleByte d.epoch a

/-- One byte of the flat memory as stored. -/
def Memory.read (m : List Host.Cell) (a : Nat) : Byte := SMap.get unlisted m a
/-- Writes one byte, keeping the canonical form. -/
def Memory.write (m : List Host.Cell) (a : Nat) (b : Byte) : List Host.Cell := SMap.set unlisted m a b
/-- Writes bytes at ascending addresses. -/
def Memory.writeAll (m : List Host.Cell) (a : Nat) : List Byte → List Host.Cell
  | [] => m
  | b :: r => Memory.writeAll (Memory.write m a b) (a + 1) r
/-- The canonical form of the memory. -/
def Memory.wf (m : List Host.Cell) : Bool := SMap.wf unlisted m

/-- One byte as a reader gets it: an HBM line not written under the present key reads as a free value (R128, log 10). -/
def State.byteAt (s : State) (a : Nat) : Byte :=
  let home := homeOf a
  if isHbm home then
    (if SMap.get 0 s.epochs (a / 64) = (s.die (homeDie home)).epoch then Memory.read s.mem a
     else (s.die (homeDie home)).blankByte a)
  else Memory.read s.mem a

/-- `n` bytes from a flat address. -/
def State.readBytes (s : State) (a : Nat) : Nat → List Byte
  | 0 => []
  | n + 1 => s.byteAt a :: s.readBytes (a + 1) n

/-- Little-endian value of `n` bytes (R9). -/
def State.readNat (s : State) (a n : Nat) : Nat := leNat (s.readBytes a n)

/-- The numbers of the 64-byte lines that `n` bytes at `a` touch. -/
def linesOf (a n : Nat) : List Nat :=
  if n = 0 then [] else (List.range ((a + n - 1) / 64 - a / 64 + 1)).map (· + a / 64)

/-- Some line of an access has an uncorrectable error (R195). -/
def State.eccBad (s : State) (a n : Nat) : Bool := (linesOf a n).any fun l => SMap.get false s.ecc l

/-- Whether any line of an access is read as poisoned: its poison bit is set, or its error is uncorrectable (R195, R253,
R254). -/
def State.poisoned (s : State) (a n : Nat) : Bool := (linesOf a n).any fun l => SMap.get false s.lines l || SMap.get false s.ecc l

/-- The poison of the lines after a write (R256): set by a poisoned write, cleared by a write of the whole
line, otherwise kept. -/
def poisonAfter (m : SMap Bool) (a n : Nat) (p : Bool) : List Nat → SMap Bool
  | [] => m
  | l :: r =>
    let m' :=
      if p then SMap.set false m l true
      else if a ≤ 64 * l ∧ 64 * l + 64 ≤ a + n then SMap.set false m l false
      else m
    poisonAfter m' a n p r

/-- Stamps HBM lines with the key epoch of the write. -/
def stamp (m : SMap Nat) (e : Nat) : List Nat → SMap Nat
  | [] => m
  | l :: r => stamp (SMap.set 0 m l e) e r

/-- The errors that stay after a write: a line that is written whole has none (R195). -/
def eccAfter (m : SMap Bool) (a n : Nat) : List Nat → SMap Bool
  | [] => m
  | l :: r => eccAfter (if a ≤ 64 * l ∧ 64 * l + 64 ≤ a + n then SMap.set false m l false else m) a n r

/-- The memory before a write of `n` bytes at `a`: an HBM unit that the present key has not written, and that the write covers
in part, is decrypted under the present key and written back whole (R128). -/
def State.rewritten (s : State) (a n : Nat) : List Nat → List Host.Cell
  | [] => s.mem
  | l :: r =>
    let d := s.die (homeDie (homeOf a))
    if SMap.get 0 s.epochs l = d.epoch ∨ (a ≤ 64 * l ∧ 64 * l + 64 ≤ a + n) then s.rewritten a n r
    else Memory.writeAll (s.rewritten a n r) (64 * l) ((List.range 64).map fun i => d.blankByte (64 * l + i))

/-- Performs a write of bytes at a flat address at its home (R220), with its poison (R254, R256). -/
def State.writeBytes (s : State) (a : Nat) (bs : List Byte) (p : Bool) : State :=
  let home := homeOf a
  let ls := linesOf a bs.length
  { s with
    mem := Memory.writeAll (if isHbm home then s.rewritten a bs.length ls else s.mem) a bs
    lines := if isSram home then poisonAfter s.lines a bs.length p ls else s.lines
    ecc := if s.ecc.isEmpty then s.ecc else eccAfter s.ecc a bs.length ls
    epochs := if isHbm home then stamp s.epochs (s.die (homeDie home)).epoch ls else s.epochs }

/-! ### Marks and timed effects -/

/-- A die's clocks are gated: it does not advance CADENCE (R133). -/
def Die.gated (d : Die) : Bool := d.gates != 0

/-- CADENCE of the die of the current unit (R46). -/
def State.now (s : State) : Nat := (s.die s.cur.die).cad
/-- The mark of a CADENCE value of a die: CADENCE − LSHIFT (R263). -/
def Die.markAt (d : Die) (c : Nat) : Nat := ((c : Int) - d.lshift).toNat
/-- CADENCE of a die at a mark of its paceline (R263). -/
def Die.cadAt (d : Die) (m : Nat) : Nat := ((m : Int) + d.lshift).toNat
/-- The mark of the current scy (R263, R373). -/
def State.mark (s : State) : Nat := (s.die s.cur.die).markAt s.now
/-- The mark of a die's scy. -/
def State.markOf (s : State) (p : Nat) : Nat := (s.die p).markAt (s.die p).cad
/-- CADENCE of a die at a mark of its paceline (R263). -/
def State.cadOf (s : State) (p mark : Nat) : Nat := (s.die p).cadAt mark

/-- CADENCE of the armed stand: the mark of a launch's stand is CADENCE − LSHIFT, that of an idle stand is CADENCE (R263, R519). -/
def Die.standAt (d : Die) : Nat := if d.idle then d.standM else d.cadAt d.standM

/-- A die forgets its armed stand, and what its neighbours announced. -/
def Die.disarm (d : Die) : Die :=
  { d with
    armed := false, adopt := false, idle := false, standHubs := 0, quietHubs := 0
    modules := d.modules.map fun e => (e.1, { e.2 with nbrV := false }) }

/-- After its S pulses the die begins scy M + 1 and clears A (R57). -/
def Die.leaveStand (d : Die) : Die := { d.disarm with standing := false, gather := false, swallow := 0, lastStand := d.cad }

/-- Places a timed effect on the agenda. -/
def State.post (s : State) (die at_ lpos hub eng : Nat) (a : Act) : State :=
  { s with agenda := ⟨die, at_, lpos, hub, eng, s.seq, a, none, 0⟩ :: s.agenda, seq := s.seq + 1 }

/-- Places what follows an effect of a unit, such as the register write of a sampled load: it keeps the issue order of its
operation (R243, R272), and `beat` carries it, if any. -/
def State.follow (s : State) (d : Due) (die at_ lpos hub eng : Nat) (a : Act) (beat : Option Nat) : State :=
  { s with agenda := ⟨die, at_, lpos, hub, eng, d.seq, a, beat, 0⟩ :: s.agenda }

/-- The stream of the unit at hand. -/
def State.curEng (s : State) : Eng := s.curHub.stream s.cur.eng

/-- The TAN prefix of the word at hand: the vector engine alone has one. -/
def State.curTan (s : State) : Option Tan := if s.cur.eng = 1 then s.curHub.tan else none

/-- Index of the word at hand within its segment; for a word under TAN, that of the TAN (R333). -/
def State.wordIdx (s : State) : Nat := if s.curTan.isSome then s.curEng.pos - 1 else s.curEng.pos

/-- DETAIL of an engine's fault (R291). -/
def detailOf (seg idx low : Nat) : Nat := seg % 2 ^ 16 * 2 ^ 32 + idx % 2 ^ 16 * 2 ^ 16 + low % 2 ^ 16

/-- DETAIL of the drafting port (R291): commands served in the item, and a map register. -/
def Hub.drDetail (h : Hub) (reg : Nat) : Nat := h.portServed % 2 ^ 16 * 2 ^ 16 + reg

/-- DETAIL of the word at hand (R291), with no element or row reached. -/
def State.wordDetail (s : State) : Nat :=
  match s.cur.eng with
  | 0 => s.curHub.pc % 2 ^ 32
  | 6 => s.curHub.drDetail 0
  | 7 => 0
  | e => detailOf (s.curEng.seg.getD 0) s.wordIdx (if e = 1 then 0xFFFF else 0)

/-- Places an effect of the current unit at issue + L (R7, R271, R276). -/
def State.later (s : State) (l : Nat) (a : Act) : State :=
  { s with
    agenda := ⟨s.cur.die, s.now + l, s.curHub.lpos, s.cur.hub, s.cur.eng, s.seq, a, none, s.wordDetail⟩ :: s.agenda, seq := s.seq + 1 }

/-- Places several effects of the current unit. -/
def State.laterAll (s : State) : List (Nat × Act) → State
  | [] => s
  | (l, a) :: r => (s.later l a).laterAll r

/-- An atomic, or a slot-table operation (R187, R216). -/
def Due.atomic (d : Due) : Bool :=
  match d.act with
  | .amo .. | .slotOp .. | .ix (.atomic ..) | .ev .atomicRequest _ => true
  | _ => false

/-- The order in which effects of one scy come about: writes and atomics first, then samples, then events (R7, R14, R220). -/
def Due.rank (d : Due) : Nat :=
  match d.act with
  | .amo .. => 0
  | .slotOp .. => 0
  | .ix (.perform ..) => 0
  | .ix (.atomic ..) => 0
  | .ev .write _ => 0
  | .ev .atomicRequest _ => 0
  | .ev .countedReplyDeadline _ => 0
  | .ev .readRequest _ => 2
  | .ev .controlSpaceRead _ => 2
  | .sample .. => 2
  | .push .. => 2
  | .phaseSample .. => 2
  | .mat (.writeRow ..) => 0
  | .mat (.loadWrite ..) => 1
  | .mat (.mdWrite ..) => 0
  | .mat (.scqPush ..) => 0
  | .mat (.drainWrite ..) => 0
  | .mat (.zero ..) => 0
  | .mat (.swap ..) => 0
  | .mat (.mode ..) => 0
  | .mat (.scaleMode ..) => 0
  | .mat _ => 2
  | .xf (.perform ..) => 0
  | .xf (.multi ..) => 0
  | .xf (.takeWrite ..) => 0
  | .xf (.zip ..) => 0
  | .xf (.unzip ..) => 0
  | .hop .. => 3
  | .xf _ => 2
  | .ix _ => 2
  | .draft .. => 2
  | .ev .matrixStepCommit _ => 1
  | .opEnd .. => 3
  | .ev .. => 3
  | _ => 0

/-- `a` comes about no later than `b` among the effects of one scy: by ascending logical position and hub; writes of one hub by
descending ENG, so that the lowest stands, its atomics by ascending ENG, and one unit's in issue order (R14, R187, R221, R272,
R462). -/
def Due.before (a b : Due) : Bool :=
  if a.rank ≠ b.rank then decide (a.rank < b.rank)
  else if a.lpos ≠ b.lpos then decide (a.lpos < b.lpos)
  else if a.hub ≠ b.hub then decide (a.hub < b.hub)
  else if a.eng ≠ b.eng then
    (if a.rank = 0 && !(a.atomic && b.atomic) then decide (b.eng < a.eng) else decide (a.eng < b.eng))
  else decide (a.seq ≤ b.seq)

/-- Puts an effect in its place. -/
def insertDue (d : Due) : List Due → List Due
  | [] => [d]
  | x :: r => if x.at_ < d.at_ || (x.at_ == d.at_ && x.before d) then x :: insertDue d r else d :: x :: r

/-- Effects in the order in which they come about. -/
def sortDue (l : List Due) : List Due := l.foldr insertDue []

/-- An event after a number of oscillator pulses. -/
def State.after (s : State) (pulses : Nat) (i : Instr) (a : Arg) : State :=
  { s with timers := (s.cy + pulses, i, a) :: s.timers }

/-- A fresh transit of the counted channel, at least 1 pulse (log 9). -/
def State.transit (s : State) : Nat := Config.transit s.free + 1

/-- Takes a free value. -/
def State.useFree (s : State) : State := { s with free := s.free + 1 }

/-! ### The control core (R269 to R273, R342) -/

/-- An s register with its poison; s0 reads 0 (R269). -/
def Hub.readS (h : Hub) (r : Nat) : PVal := if r = 0 then {} else SMap.get {} h.s r
/-- A p register with its poison; p0 reads true (R269). -/
def Hub.readP (h : Hub) (r : Nat) : Bool × Bool :=
  if r = 0 then (true, false) else ((SMap.get {} h.p r).v = 1, (SMap.get {} h.p r).p)

/-- Writes an s register; s0 discards, and a poisoned value reads as zeros (R253, R269). -/
def Hub.writeS (h : Hub) (r : Nat) (v : W64) (p : Bool) : Hub :=
  if r = 0 then h else { h with s := SMap.put h.s r ⟨if p then 0 else v, p⟩ }
/-- Writes a p register; p0 discards (R269). -/
def Hub.writeP (h : Hub) (r : Nat) (v p : Bool) : Hub :=
  if r = 0 then h else { h with p := SMap.put h.p r ⟨if v && !p then 1 else 0, p⟩ }

/-- An s register of the current hub. -/
def State.readS (s : State) (r : R6) : PVal := s.curHub.readS r.toNat

/-- Writes s(d) at issue + L (R7, R342). -/
def State.writeS (s : State) (d : R6) (l : Nat) (v : W64) (p : Bool) : State := s.later l (.regS d.toNat v p)
/-- Writes p(d) at issue + L. -/
def State.writeP (s : State) (d : BitVec 3) (l : Nat) (v p : Bool) : State := s.later l (.regP d.toNat v p)

/-- The loop test after a word at PC `w`: active loops, counters and the next PC where a loop goes round
(R357). Loops stand latest started first. -/
def loopTest (w : Nat) : List LoopRec → SMap PVal → List LoopRec × SMap PVal × Option Nat
  | [], lc => ([], lc, none)
  | l :: r, lc =>
    if l.last = w then
      let c := SMap.get {} lc l.lc
      let n := (c.v.toNat + 2 ^ 32 - 1) % 2 ^ 32
      if n ≠ 0 then (l :: r, SMap.put lc l.lc ⟨BitVec.ofNat 64 n, c.p⟩, some l.start)
      else
        let t := loopTest w r (SMap.put lc l.lc ⟨0, c.p⟩)
        (t.1, t.2.1, t.2.2)
    else
      let t := loopTest w r lc
      (l :: t.1, t.2.1, t.2.2)

/-- The hub after a word that is not a taken branch: the loop test, then the next word at issue + `d`. -/
def Hub.advance (h : Hub) (now d : Nat) : Hub :=
  let t := loopTest h.pc h.loops h.lc
  { h with loops := t.1, lc := t.2.1, pc := t.2.2.getD (h.pc + 4), next := now + d, wait := .none }

/-- Ends a control-core word that issues the next one at issue + `d` (R270). -/
def State.advance (s : State) (d : Nat) : State := s.setCurHub (s.curHub.advance s.now d)

/-- Ends a control-core word with a taken branch, jump, call or return (R353, R354, R357). -/
def State.jump (s : State) (target d : Nat) : State :=
  s.setCurHub { s.curHub with pc := target % 2 ^ 32, next := s.now + d, wait := .none }

/-- Puts the control core into a hardware wait (R270); the wait can end from the next scy on. -/
def State.waitOn (s : State) (w : Wait) : State := s.setCurHub { s.curHub with wait := w, next := s.now + 1 }

/-! ### Faults (R238 to R246) -/

/-- What a unit says of a fault: kind, subcode, ENG, DETAIL (R291) and the fault mark. -/
structure FaultAt where
  kind : Nat
  sub : Nat
  eng : Nat
  detail : Nat
  mark : Nat
  deriving DecidableEq, Repr

/-- ESTAT of R291. -/
def estatOf (eng sub detail : Nat) : Nat := eng % 8 * 2 ^ 61 + sub % 256 * 2 ^ 48 + detail % 2 ^ 48

/-- The timeline of an engine (R290). -/
def timelineOf : Nat → Nat
  | 1 => 1 | 2 => 0 | 3 => 2 | 4 => 3 | 5 => 4 | 6 => 5 | _ => 6

/-- The number that the next word of an engine takes on its timeline (R232, R494): it follows the operations that are counted, and
the index and drafting commands that have issued and are counted once their checks pass. -/
def State.nextNumber (s : State) (die hub eng : Nat) : Nat :=
  let h := s.hub die hub
  let open_ :=
    if eng = 5 then (h.ixq.filter fun c => c.block.isNone).length
    else if eng = 6 then
      let d := s.die die
      h.port.length + (match d.draftGo with | some x => bitOf (decide (x.1 = hub)) | none => 0) +
      (match d.draft with | some r => bitOf (decide (r.hub = hub ∧ r.num = 0)) | none => 0) +
      (s.agenda.filter fun x => decide (x.die = die ∧ x.hub = hub) &&
        (match x.act with | .push .. => true | .portEnter .. => true | _ => false)).length
    else 0
  (h.timeline (timelineOf eng)).issued + open_ + 1

/-- The report of a hub's fault (R113). For an engine CIDX is the number that the word took, or would have taken,
on its timeline (R494): `num` where the word has one; fields that do not apply are 0. -/
def State.reportAs (s : State) (die hub : Nat) (f : FaultAt) (halts : Bool) (num : Option Nat) : FaultReport :=
  let h := s.hub die hub
  let l := h.launch
  { kind := f.kind, sub := f.sub, part := l.part, slot := l.slot, lpos := h.lpos, hub := hub, eng := f.eng,
    qid := l.qid, cidx := if f.eng = 0 then 0 else num.getD (s.nextNumber die hub f.eng), estat := estatOf f.eng f.sub f.detail, mark := f.mark,
    vabase := 0, vapages := 0, nmerge := 0, ltag := l.ltag,
    pl := if halts && l.timed then some l.plid else none }

def State.report (s : State) (die hub : Nat) (f : FaultAt) (halts : Bool) : FaultReport := s.reportAs die hub f halts none

/-- A counted packet whose beats take at most `bound` pulses, by another rule, and at least 1: it arrives by event `i` (R202;
logs 9 and 100). -/
def State.sendWithin (s : State) (bound : Nat) (i : Instr) (p : Pkt) : State :=
  let id := s.netSeq
  (({ s with net := SMap.put s.net id p, netSeq := id + 1 }).after (1 + Config.transit s.free % bound) i { n := id }).useFree

/-- Nanoseconds since cold reset, from the always-on counter (R5, R113). -/
def State.nanos (s : State) : Nat := s.cy * 10 / 19

/-- Sends a report to the fault merger as a counted packet of TYPE 0xC (R116, R202); it arrives before the halt mark of a timed
launch (R246). TIME is that of the fault (R495). -/
def State.sendReport (s : State) (r : FaultReport) : State :=
  s.sendWithin 128 .faultReportReceive { typ := 0xC, part := r.part, target := s.actingH, rep := { r with time := s.nanos } }

/-- Reports on their way to the merger. -/
def State.reports (s : State) : List FaultReport := s.net.filterMap fun e => if e.2.typ = 0xC then some e.2.rep else none

/-- `n` bytes have been read at each place for a hub of a launch: an uncorrectable error is recorded, with the DETAIL of the unit's
word, and stops no unit (R195, R238, R239, R291). -/
def State.eccFor (s : State) (l : Launch) (lpos hub eng detail : Nat) (places : List (Nat × Nat)) : State :=
  match (if s.ecc.isEmpty then none else places.find? fun x => s.eccBad x.1 x.2) with
  | none => s
  | some x =>
    let home := homeOf x.1
    let sub := if isSram home then 1 else 2
    s.sendReport { kind := 0x0E, sub := sub, part := l.part, slot := l.slot, lpos := lpos, hub := hub, eng := eng, qid := l.qid
                   estat := estatOf eng sub detail, mark := s.markOf (homeDie home), ltag := l.ltag }

/-- A unit of a hub has read `n` bytes at each place. -/
def State.eccRead (s : State) (die hub eng detail : Nat) (places : List (Nat × Nat)) : State :=
  s.eccFor (s.hub die hub).launch (s.hub die hub).lpos hub eng detail places

/-- Effects of a unit that settle at a stop: of the control core and, where `vec`, of the vector engine (R242). They come about
off schedule or after resumption, in their order. -/
def Due.settles (d : Due) (die hub : Nat) (vec : Bool) : Bool :=
  decide (d.die = die) && decide (d.hub = hub) && (decide (d.eng = 0) || (vec && decide (d.eng = 1))) &&
  (match d.act with
   | .ev .. | .hop .. | .mat .. | .xf .. | .ix .. | .draft .. | .amo .. | .slotOp .. => false
   | _ => true)

/-- Effects of a hub that a quiet save keeps for the resumption (R242, R262): the whole paceline stands, so what its control core
and vector engine still owe at other members, its atomics and the ends of words that have performed wait with the rest, and the
launch goes on with every effect in its place (R2). -/
def Due.stands (d : Due) (die lpos hub : Nat) : Bool :=
  decide (d.hub = hub) && decide (d.lpos = lpos) &&
  (match d.act with
   | .ev i _ => decide (d.die = die) && (i == .transferWordEnd || i == .replyPortEntry)
   | .hop .. | .mat .. | .xf .. | .ix .. | .draft .. => false
   | .opEnd .. => decide (d.die = die)
   | _ => decide (d.eng = 0 ∨ d.eng = 1))

/-- Stops a hub of a counted launch (R240, R242): the control core and the faulting engine issue no more,
and the pending writes of the control core settle into the pending-write list, and those of the vector engine once it issues no more:
at the stop where it faults or runs no segment, else as its segment ends (log 80). -/
def State.stopHub (s : State) (die hub eng : Nat) : State :=
  let h := s.hub die hub
  let now := (s.die die).cad
  let vec := eng == 1 || (h.stream 1).seg.isNone
  let h := { h with
    run := .stopped, stopRef := if h.run = .stopped then h.stopRef else now
    pending := h.pending ++ s.agenda.filter (·.settles die hub vec) }
  let h := if eng = 0 then h else h.setStream eng { h.stream eng with stopped := true }
  { s.setHub die hub h with agenda := s.agenda.filter fun d => !d.settles die hub vec }

/-- The vector engine of a hub that a counted launch has stopped has issued the last word of its segment: it settles (R240). -/
def State.settleVector (s : State) (die hub : Nat) : State :=
  let h := s.hub die hub
  if h.run == .stopped && !h.launch.timed && (h.stream 1).seg.isNone then
    { s.setHub die hub { h with pending := h.pending ++ s.agenda.filter (·.settles die hub true) } with
      agenda := s.agenda.filter fun d => !d.settles die hub true }
  else s

/-- Marks the launch of a hub for abort once its other items have ended (R240). -/
def State.markAbort (s : State) (slot : Nat) : State :=
  let x := s.slot slot
  s.setSlot slot { x with run := x.run.map fun r => { r with abort := true } }

/-- A die takes a halt mark: the lower of the one it holds and the new one (R246). -/
def Die.halt (d : Die) (h : Nat) : Die := { d with haltAt := some (match d.haltAt with | none => h | some x => min x h) }

/-- The modules of a die that are up, with the position and module at the far end (R36, R518). -/
def State.links (s : State) (p : Nat) : List (Nat × Nat × Nat) :=
  (List.range 12).filterMap fun m =>
    match Config.wire p m with
    | some (q, k) => if (SMap.get {} (s.die p).modules m).up then some (m, q, k) else none
    | none => none

/-- Paceline modules of a member: its modules that are up and face another member (R50). -/
def State.plModules (s : State) (p : Nat) : List Nat :=
  let d := s.die p
  (s.links p).filterMap fun x =>
    let e := s.die x.2.1
    if d.member && e.member && e.plid == d.plid then some x.1 else none

/-- CADENCE of die q at which it reads the frame that die p sends in its scy c: members of one paceline read at c + 24 (R48,
R55); another die 24 of its scy later (log 95). -/
def State.readAt (s : State) (p q c : Nat) : Nat :=
  let d := s.die p
  let e := s.die q
  if d.member && e.member && d.plid == e.plid then c + 24 else e.cad + (c - d.cad) + 24

/-- The pulses that a control word takes over a module: the flight time, which the PHY measures at training and the manual does
not give: 24 (DESIGN CHOICE, log 95). -/
def flightPulses : Nat := 24

/-- A control word leaves in the frame of this pulse; its receiver ignores one of a reserved CTYPE (R39). RELEASE, whose receiver
holds, counts in pulses (R249). -/
def State.sendWord (s : State) (p m ctype cdata : Nat) : State :=
  let d := s.die p
  match Config.wire p m, ctlEvent ctype with
  | some (q, j), some i =>
    let a : Arg := { pos := q, m := j, value := BitVec.ofNat 64 cdata, sent := d.cad, sub := d.sub, size := d.gaps }
    if ctype = ctRelease then s.after flightPulses i a else s.post q (s.readAt p q d.cad) 0 0 0 (.ev i a)
  | _, _ => s

/-- The sub-cycle 0 frame of a mark carries a scheduled control word (R39). -/
def scheduledWord (c : Nat) : Bool := decide (c % 256 = 0 ∨ c % 256 = 64 ∨ c % 256 = 128)

/-- A control word for frames of a module that carry no scheduled one: HALT in the sub-cycle 0 frames of the next four such scy,
COAST in any four (R39, R246). -/
def State.sendFour (s : State) (p m ctype cdata : Nat) : State :=
  let d := s.die p
  let k := SMap.get {} d.modules m
  s.setDie p { d with modules := SMap.put d.modules m { k with ctlq := k.ctlq ++ [⟨ctype, cdata, 4, ctype == ctHalt⟩] } }

/-- HALT goes out on the paceline modules of a member (R246). -/
def State.sendHalt (s : State) (p hmark : Nat) (ms : List Nat) : State :=
  ms.foldl (fun (s : State) m => s.sendFour p m ctHalt (haltData (s.die p).plid hmark)) s

/-- What stands between CADENCE of a member and the marks of its halts: LSHIFT under a launch (R61, R263). -/
def State.haltShift (s : State) (p : Nat) : Int := if (s.pl (s.die p).plid).slot.isSome then (s.die p).lshift else 0

/-- CADENCE of a member at the halt mark H (R246, R263). -/
def State.haltCad (s : State) (p h : Nat) : Nat := ((h : Int) + s.haltShift p).toNat

/-- Raises a halt at a member die: H = F + 256, and HALT with H to its neighbours (R245, R246). -/
def State.raiseHalt (s : State) (p mark : Nat) : State :=
  (s.setDie p ((s.die p).halt (s.haltCad p (mark + 256)))).sendHalt p (mark + 256) (s.plModules p)

/-- Reports of one hub's faults in one scy: neither is a mere record (R238, R241). -/
def FaultReport.beside (x y : FaultReport) : Bool :=
  decide (x.mark = y.mark) && decide (x.hub = y.hub) && decide (x.lpos = y.lpos) && decide (x.slot = y.slot) &&
  decide (x.part = y.part) && decide (x.kind ≠ 0x0D ∧ x.kind ≠ 0x0E ∧ (x.kind ≠ 0x14 ∨ x.pl.isSome = true))

/-- A fault of the same hub and scy is on its way to the merger (R241). -/
def State.reported (s : State) (r : FaultReport) : Bool := s.reports.any fun x => x.beside r

/-- Two faults of a hub in one scy (R241): the control core's, or else that of the lowest ENG, has the record, which is on its way
and takes the place of another; the other is recorded in NFLT alone. -/
def State.countFault (s : State) (r : FaultReport) : State :=
  let x := s.slot r.slot
  let net := s.net.map fun (e : Nat × Pkt) =>
    if e.2.typ = 0xC ∧ e.2.rep.beside r ∧ r.eng < e.2.rep.eng then (e.1, { e.2 with rep := r }) else e
  { s with net := net }.setSlot r.slot { x with qcb := { x.qcb with nflt := satAdd 0xFFFF x.qcb.nflt 1 } }

/-- The record of a hub's fault, or its count where another of the same scy has it (R241). -/
def State.recordFault (s : State) (r : FaultReport) : State := if s.reported r then s.countFault r else s.sendReport r

/-- The H-die sends HALT to the root of a paceline, over the counted channel and within 64 pulses, so that every member has it
before H (R246). -/
def State.haltRoot (s : State) (n hmark : Nat) : State :=
  let p := (s.pl n).root
  (s.after (1 + Config.transit s.free % 64) .haltFrameReceive
    { pos := p, m := 12, value := BitVec.ofNat 64 (haltData n hmark) }).useFree

/-- Takes a fault that a unit of a hub raises (R238, R240, R241, R245). In a counted launch the hub stops;
in a timed launch the paceline halts at F + 256 and the operation's register destinations are poisoned at
their write cycles, `dests`, as effects of the current unit. `num` is the word's timeline number where it has one. -/
def State.takeFaultAs (s : State) (die hub : Nat) (f : FaultAt) (dests : List (Nat × Act)) (num : Option Nat) : State :=
  let h := s.hub die hub
  if h.launch.timed then
    let s := (s.laterAll dests).raiseHalt die f.mark
    s.recordFault (s.reportAs die hub f true num)
  else if h.run = .stopped ∧ s.reported (s.reportAs die hub f false num) then
    (s.stopHub die hub f.eng).countFault (s.reportAs die hub f false num)
  else
    ((s.stopHub die hub f.eng).markAbort h.launch.slot).sendReport (s.reportAs die hub f false num)

def State.takeFault (s : State) (die hub : Nat) (f : FaultAt) (dests : List (Nat × Act)) : State :=
  s.takeFaultAs die hub f dests none

/-- A fault of a control-core instruction (R342): not performed; a timed core goes on with the next word. -/
def State.coreFaultAs (s : State) (kind sub eng detail : Nat) (dests : List (Nat × Act)) : State :=
  let h := s.curHub
  let t := s.takeFault s.cur.die s.cur.hub ⟨kind, sub, eng, detail, s.mark⟩ dests
  if h.launch.timed then t.advance 1 else t

def State.coreFault (s : State) (kind sub : Nat) (dests : List (Nat × Act)) : State :=
  s.coreFaultAs kind sub 0 (s.curHub.pc % 2 ^ 32) dests

/-- The poisoned write of an s register, a destination of a faulted operation (R245). -/
def poisonS (d : R6) (l : Nat) : Nat × Act := (l, .regS d.toNat 0 true)
def poisonP (d : BitVec 3) (l : Nat) : Nat × Act := (l, .regP d.toNat false true)

end Sys2Proof.Machine
end

