-- ==== Sys2Proof/Machine/Access.lean ====
section
/-! DEFINITION. From a tagged pointer to a place in memory: routes (R41, R50), spaces and owners
(R192 to R196), the order of the translation checks (R194), declared sets (R181 to R183) and the class of
a target (R197 to R200). -/

namespace Sys2Proof.Machine

open Sys2Proof

/-! ### Routes (R41, R50, R200) -/

/-- The dies next to `p` that a route may use, first module first: `ok` says which dies take part. -/
def State.nextDies (s : State) (ok : Nat → Bool) (p : Nat) : List Nat :=
  ((s.links p).map (·.2.1)).filter ok

/-- Dies at growing distance from a target, one list a module count: only routing dies are passed (R35). -/
def State.rings (s : State) (ok : Nat → Bool) : Nat → List Nat → List Nat → List (List Nat)
  | 0, _, _ => []
  | fuel + 1, front, seen =>
    let next := (front.flatMap (s.nextDies ok)).filter (fun q => !seen.contains q)
    let next := next.eraseDups
    if next.isEmpty then [] else next :: s.rings ok fuel (next.filter fun q => (s.kind q).routing) (seen ++ next)

/-- Modules on the shortest route between two dies; 0 for a die itself, none where no route joins them. -/
def State.hops (s : State) (ok : Nat → Bool) (p q : Nat) : Option Nat :=
  if p = q then some 0
  else
    match (s.rings ok 16 [q] [q]).findIdx? (·.contains p) with
    | some i => some (i + 1)
    | none => none

/-- The module by which the route from `p` to `q` leaves `p`: the lowest of those on a shortest route (R50). -/
def State.firstModule (s : State) (ok : Nat → Bool) (p q : Nat) : Option Nat :=
  match s.hops ok p q with
  | some (n + 1) =>
    ((s.links p).find? fun x =>
      ok x.2.1 && (s.hops ok x.2.1 q == some n) && (n == 0 || (s.kind x.2.1).routing)).map (·.1)
  | _ => none

/-- L = 24h + 8g for h modules and h − 1 routing dies (R41). -/
def latency (h : Nat) : Nat := 24 * h + 8 * (h - 1)

/-- A die is a member of paceline `n` (R49). -/
def State.isMember (s : State) (n p : Nat) : Bool := (s.die p).member && (s.die p).plid == n

/-- The timed latency between two members, by the launch's timed route table (R41, R449). -/
def State.timedLatency (s : State) (n p q : Nat) : Option Nat :=
  if p = q then some 0 else ((s.hops (s.isMember n) p q).map latency)

/-- A die that carries counted traffic: fitted-good and not failed. -/
def State.alive (s : State) (p : Nat) : Bool := s.good p && !(SMap.get false s.dev.dieFail p)

/-- The promised latency P of a counted access to a die (R200). -/
def State.promiseTo (s : State) (p q : Nat) : Nat :=
  Config.promise (Config.classOfModules ((s.hops s.alive p q).getD 7))

/-! ### Tagged pointers (R192, R193) -/

def ptrSpace (x : Nat) : Nat := bits x 63 60
def ptrPos (x : Nat) : Nat := bits x 59 54
def ptrHub (x : Nat) : Nat := bits x 53 51
def ptrEng (x : Nat) : Nat := bits x 50 48
def ptrOff (x : Nat) : Nat := x % 2 ^ 48

/-- ea(a, e) of R341: e added to OFF; none below 0 or from 2^48 up. -/
def eaOf (x : Nat) (e : Int) : Option Nat :=
  let o : Int := (ptrOff x : Int) + e
  if 0 ≤ o ∧ o < (2 ^ 48 : Nat) then some (x / 2 ^ 48 * 2 ^ 48 + o.toNat) else none

/-- The instruction groups and engines of R196. -/
inductive Group
  | ldst | ldx | stx | amo | vector | index | transfer | matrix | matrixLoad | drafting
  deriving DecidableEq, Repr

/-- Whether a space is open to a group (R196). -/
def openTo : Group → Nat → Bool
  | .ldst, n => n == 0
  | .ldx, n => (1 ≤ n && n ≤ 5) || n == 7
  | .stx, n => n == 1 || n == 2 || n == 4 || n == 5 || n == 6
  | .amo, n => n == 0 || n == 1 || n == 2 || n == 4
  | .vector, n => n == 0
  | .index, n => n == 0
  | .transfer, n => n ≤ 5
  | .matrix, n => n == 0
  | .matrixLoad, n => n == 3
  | .drafting, n => n == 0

/-- Where an access goes: the flat address of its first byte, the home die, whether it is timed (R197), and
the timed latency L. -/
structure Target where
  space : Nat
  addr : Nat
  die : Nat
  timed : Bool
  lat : Nat
  deriving DecidableEq, Repr

/-- A tag-table entry of a B-die: V and TAG (R214). -/
def State.slotValid (s : State) (die n : Nat) : Bool := (SMap.get 0 (s.die die).tags n).testBit 63

/-- The home, limit and home die that a pointer names from a hub, or the subcode of R194 that its owner
fields raise (R193). Spaces 0x5, 0x6 and 0x7 are their callers'. -/
def State.owner (s : State) (die hub part x : Nat) : Except Nat (Nat × Nat × Nat) :=
  let sp := ptrSpace x
  let l := ptrPos x
  let oh := ptrHub x
  let oe := ptrEng x
  if sp = 0 then
    if l = 0 ∧ oh = 0 ∧ oe = 0 then .ok (homeScratch (s.kind die) die hub, (s.kind die).scratchSize, die) else .error 2
  else
    match s.phys part l with
    | none => .error 2
    | some q =>
      let k := s.kind q
      match sp with
      | 1 => if oh < k.hubs ∧ oe = 0 then .ok (homeScratch k q oh, k.scratchSize, q) else .error 2
      | 2 => if k = .bDie ∧ oh = 0 ∧ oe = 0 then .ok (homeBuf q, Config.bufferSize, q) else .error 2
      | 3 => if k = .mDie ∧ oh = 0 ∧ oe ≤ 3 then .ok (homeWeight q oe, Config.weightSize, q) else .error 2
      | 4 => if k = .bDie ∧ oh = 0 ∧ oe = 0 then .ok (homeBuf q, Config.bufferSize, q) else .error 2
      | _ => .error 4

/-- Translates an access of `n` bytes in spaces 0x0 to 0x4, in the order of R194: 1, 4, 2, 3, 11, 8, 5.
The error is the subcode of the translation fault. -/
def State.translate (s : State) (die hub : Nat) (g : Group) (x n align : Nat) : Except Nat Target :=
  let l := (s.hub die hub).launch
  let sp := ptrSpace x
  if 8 ≤ sp then .error 1
  else if !openTo g sp then .error 4
  else
    match s.owner die hub l.part x with
    | .error e => .error e
    | .ok (home, limit, q) =>
      if limit < ptrOff x + n then .error 3
      else if ptrOff x % align ≠ 0 then .error 11
      else if sp = 4 ∧ !((linesOf (ptrOff x) n).all fun ln => s.slotValid q (ln / 1024)) then .error 8
      else
        let onPl := l.timed && s.isMember l.plid q
        if l.timed && !onPl then .error 5
        else
          match (if l.timed then s.timedLatency l.plid die q else some 0) with
          | none => .error 5
          | some lat => .ok ⟨sp, flat home (ptrOff x), q, l.timed, lat⟩

/-- A pointer at the top of its OFF field, past every memory. -/
def pastOff (x : Nat) : Nat := x / 2 ^ 48 * 2 ^ 48 + (2 ^ 48 - 1)

/-- The subcode where the sum of ea leaves the OFF field (R341): the conditions that R194 puts before subcode 3 come first. -/
def State.offCode (s : State) (die hub : Nat) (g : Group) (x : Nat) : Nat :=
  match s.translate die hub g (pastOff x) 2 1 with
  | .error c => c
  | .ok _ => 3

/-! ### Timed beats (R41, R42, R449) -/

/-- The frames that a beat takes on its route: die, module and mark. It leaves each die 32 scy after the one
before it (R41). -/
def State.framesOf (s : State) (n : Nat) : Nat → Nat → Nat → Nat → List (Nat × Nat × Nat)
  | 0, _, _, _ => []
  | f + 1, p, q, mark =>
    if p = q then []
    else
      match s.firstModule (s.isMember n) p q with
      | none => []
      | some m =>
        match Config.wire p m with
        | none => []
        | some (x, _) => (p, m, mark) :: s.framesOf n f x q (mark + 32)

/-- Puts a beat of a unit into a slot at the sender's mark (R41, R449): the state after it, and its number. -/
def State.sendBeat (s : State) (n src dst slot mark lpos hub eng : Nat) (stream : Bool) (planes : List (List Byte))
    (pois : Bool) : State × Nat :=
  let hops := (s.framesOf n 16 src dst mark).map fun x => (x.1, x.2.1, s.cadOf x.1 x.2.2)
  let b : Beat :=
    { id := s.seq, src := src, die := dst, slot := slot, lpos := lpos, hub := hub, eng := eng, hops := hops,
      at_ := s.cadOf dst (mark + (s.timedLatency n src dst).getD 0), stream := stream, planes := planes, pois := pois }
  let id := s.seq
  (({ s with beats := s.beats ++ [b] }).post src (s.cadOf src mark + 1) lpos hub eng (.hop id), id)

/-- Places an effect of the current unit that a timed beat carries, if one does. -/
def State.postOn (s : State) (die at_ lpos hub eng : Nat) (a : Act) (beat : Option Nat) : State :=
  { s with agenda := ⟨die, at_, lpos, hub, eng, s.seq, a, beat, s.wordDetail⟩ :: s.agenda, seq := s.seq + 1 }

/-- A control core's timed request: its effect at the target's mark n + `l`; to another die it takes slot 1 of
the frames of its route (R449). -/
def State.request (s : State) (die l : Nat) (a : Act) : State :=
  let h := s.curHub
  let at_ := s.cadOf die (s.mark + l)
  if die = s.cur.die then s.postOn die at_ h.lpos s.cur.hub 0 a none
  else
    let r := s.sendBeat h.launch.plid s.cur.die die 1 s.mark h.lpos s.cur.hub 0 false [] false
    r.1.postOn die at_ h.lpos s.cur.hub 0 a (some r.2)

/-- A beat by its number. -/
def State.beat (s : State) (id : Nat) : Option Beat := s.beats.find? fun b => b.id == id

/-! ### Declared sets (R181 to R183) -/

/-- The bytes of a range, with its tangent images (R186): base, base + stride, … -/
def Range.covers (r : Range) (a : Nat) : Bool := decide (r.base ≤ a ∧ a < r.base + r.len)

/-- A byte lies in some range that `ok` accepts. -/
def inRanges (ok : Range → Bool) (rs : List Range) (a : Nat) : Bool := rs.any fun r => ok r && r.covers a

/-- Every one of the lines lies in ranges that `ok` accepts. Ranges are whole lines (R181). -/
def allIn (ok : Range → Bool) (rs : List Range) (ls : List Nat) : Bool := ls.all fun l => inRanges ok rs (64 * l)

/-- Some line lies in a range that `ok` accepts. -/
def anyIn (ok : Range → Bool) (rs : List Range) (ls : List Nat) : Bool := ls.any fun l => inRanges ok rs (64 * l)

/-- The kind of an access against sets. -/
inductive Use
  | read | write | atomic
  deriving DecidableEq, Repr

/-- The subcode of R183 that an access to lines raises, if any: 1 a read outside the sets, 2 a write outside
the write set, 3 a plain access inside an atomic range or an atomic outside every one. -/
def setCheck (rs : List Range) (u : Use) (ls : List Nat) : Option Nat :=
  match u with
  | .read =>
    if !allIn (fun _ => true) rs ls then some 1
    else if anyIn (fun r => r.at_) rs ls then some 3
    else none
  | .write =>
    if !allIn (fun r => r.wr) rs ls then some 2
    else if anyIn (fun r => r.at_) rs ls then some 3
    else none
  | .atomic =>
    if !allIn (fun r => r.wr) rs ls then some 2
    else if !allIn (fun r => r.at_ && r.wr) rs ls then some 3
    else none

/-- Two ranges share a byte. -/
def Range.overlaps (r q : Range) : Bool := decide (r.base < q.base + q.len ∧ q.base < r.base + r.len)

/-- The ranges that a range stands for in a launch with k tangents: itself and its images (R186). -/
def Range.images (k stride : Nat) (r : Range) : List Range :=
  (List.range (k + 1)).map fun j => { r with base := r.base + j * stride }

/-- The ranges of an engine of a hub in force (R182), with their images at the k.tstride in force (R186, R223): PHASE may
come before the CSRW, as in the program of R507. -/
def Hub.ranges (h : Hub) (e : Nat) : List Range :=
  h.sets.flatMap fun x => if x.1 = e then x.2.images h.launch.tk h.tstride.toNat else []

/-- The phase is not that of a hub (by 8 × position + hub) in the launch of a queue. -/
def Phase.other (p : Phase) (hub qid : Nat) : Bool := decide (p.hub ≠ hub) || decide (p.qid ≠ qid)

/-- The ranges of an open phase, with their images. -/
def Phase.ranges (p : Phase) : List Range := p.sets.flatMap fun x => x.2.images p.k p.stride

/-- The atomic range that an access falls into overlaps an atomic range of another hub in an open phase of
the partition (R188). `own` are the issuing engine's ranges. -/
def State.sharedAtomic (s : State) (part die hub : Nat) (own : List Range) (a : Nat) : Bool :=
  let mine := own.filter fun r => r.at_ && r.covers a
  (s.part part).phases.any fun ph =>
    ph.other (8 * die + hub) (s.hub die hub).launch.qid &&
    ph.ranges.any fun x => x.at_ && mine.any fun r => r.overlaps x

/-- The atomics that DET permits into a shared atomic range: integer and without a returned value (R188). -/
def detAllows (op : AmoOp) (returns : Bool) : Bool :=
  !returns && (match op with | .xchg => false | .fadd => false | .cas => false | _ => true)

/-! ### Endpoint rings (R77, R78) -/

/-- The receive ring of a hub: flat base and length; none where it is disabled. A ring that runs past the end of the hub's memory
is enabled, with entries at the offsets beyond it (DESIGN CHOICE, log 118). -/
def State.ring (s : State) (die hub : Nat) : Option (Nat × Nat) :=
  let c := (s.hub die hub).epcfg.toNat
  let n := bits c 29 26
  if c.testBit 63 ∧ 1 ≤ n ∧ n ≤ 12 then
    some (flat (homeScratch (s.kind die) die hub) (bits c 14 0 * 256), 256 + 256 * 2 ^ n)
  else none

/-- The line lies in the ring of some hub of the die of its home. -/
def State.inRing (s : State) (line : Nat) : Bool :=
  let die := homeDie (homeOf (64 * line))
  decide (homeOf (64 * line) < 384) &&
  (List.range (s.kind die).hubs).any fun h =>
    match s.ring die h with
    | some (b, n) => decide (b ≤ 64 * line ∧ 64 * line < b + n)
    | none => false

/-- The bytes lie in the TAIL counter of the hub's own ring, which a control-core ST may write (R78). -/
def State.isRingTail (s : State) (die hub a n : Nat) : Bool :=
  match s.ring die hub with
  | some (b, _) => decide (b + 8 ≤ a ∧ a + n ≤ b + 16)
  | none => false

/-- The subcode of a set violation that an access raises against ranges, if any (R78, R182, R183): the ring is
exempt from declared sets, and a write into it raises 5. -/
def State.violationIn (s : State) (rs : List Range) (u : Use) (a n : Nat) : Option Nat :=
  let ls := linesOf a n
  let out := ls.filter fun l => !s.inRing l
  match setCheck rs u out with
  | some c => some c
  | none =>
    if out.length = ls.length then none
    else match u with
      | .read => none
      | _ => some 5

/-- The subcode of a set violation that an access of an engine raises under the sets in force. -/
def State.violation (s : State) (die hub eng : Nat) (u : Use) (a n : Nat) : Option Nat :=
  s.violationIn ((s.hub die hub).ranges eng) u a n

/-- The subcode of a set violation that a control-core ST raises: it alone may write TAIL of its hub's ring (R78). -/
def State.stViolation (s : State) (die hub a n : Nat) : Option Nat :=
  match s.violation die hub 0 .write a n with
  | some 5 => if s.isRingTail die hub a n then none else some 5
  | x => x

end Sys2Proof.Machine
end

