-- ==== Sys2Proof/Machine/Counted.lean ====
section
/-! DEFINITION. The counted channel (R43 to R45, R200, R202, R226): packets over modules with go-back-N retry, and
the load and store queues of a hub. -/

namespace Sys2Proof.Machine

open Sys2Proof

/-- The event by which a packet arrives (R202): an endpoint packet on its way back arrives at its hub. A packet of a reserved
type is discarded. -/
def arrivalEvent (p : Pkt) : Option Instr :=
  match p.typ with
  | 0 => some .readRequest | 1 => some .readReply | 2 => some .write | 3 => some .writeAcknowledgement
  | 4 => some .atomicRequest | 5 => some .atomicReply | 6 => some .translationFillRequest | 7 => some .translationFillReply
  | 8 => some .shootdown | 9 => some (if p.back then .endpointPacketDeliver else .endpointPacket)
  | 0xA => some .collectiveContribution | 0xB => some .controlSpaceRead | 0xC => some .faultReportReceive
  | 0xD => some .fenceMarker | _ => none

/-- An event on a channel: after a transit that the manual does not fix (log 9), and after every earlier event of
the channel (R43, R227). -/
def State.inOrder (s : State) (ch : Nat) (i : Instr) (a : Arg) : State :=
  let t := s.cy + s.transit
  let last := SMap.get 0 s.chan ch
  let at_ := if t ≤ last then last + 1 else t
  { s with chan := SMap.put s.chan ch at_, timers := (at_, i, a) :: s.timers, free := s.free + 1 }

/-- A packet of the control core's store queue, or the flushing read that follows its host writes (R226, R231). -/
def Pkt.ofStores (p : Pkt) : Bool := p.eng == 0 && (p.typ == 2 || p.typ == 4 || p.typ == 0xD)

/-- The channel of one source and one destination (R43), at its last die. The load queue and the store queue of a control core
are two sources, so that no order holds between them (R227). -/
def Pkt.channel (p : Pkt) : Nat :=
  ((((8 * p.die + p.hub) * 8 + p.eng) * 64 + p.target) * 2 + bitOf p.ofStores) * 2 + bitOf p.back

/-- A module of a die. -/
def State.module (s : State) (p m : Nat) : Module := SMap.get {} (s.die p).modules m
def State.setModule (s : State) (p m : Nat) (k : Module) : State :=
  s.setDie p { s.die p with modules := SMap.put (s.die p).modules m k }

/-- Highest SEQ received in order on a module (R43). -/
def Module.ack (k : Module) : Nat := (k.expSeq + 4095) % 4096

/-- Bytes of payload of a packet (R43, R202). -/
def Pkt.payload (p : Pkt) : Nat := if p.planes.isEmpty then p.bytes.length else (p.planes.map List.length).sum

/-- The header of a beat of a packet (R43). A store or engine target is named by the hub and array of its home. -/
def Pkt.header (p : Pkt) (actingH : Nat) (b : OutBeat) (ack : Nat) : BeatHeader :=
  let far := if p.target < 48 then p.target else actingH
  let home := homeOf p.addr
  let hub := if home < 384 then home % 8 else 0
  let eng := if 384 ≤ home ∧ home < 576 then home % 4 else 0
  if p.back then
    { dpos := p.die, dhub := p.hub, deng := p.eng, spos := far, shub := hub, seq := b.seq, ack := ack, typ := p.typ, left := b.left }
  else
    { dpos := far, dhub := hub, deng := eng, spos := p.die, shub := p.hub, seq := b.seq, ack := ack, typ := p.typ, left := b.left }

/-- The beat's header as it stands in its slot: a beat that only returns an ACK names no packet (log 27). -/
def State.beatBits (s : State) (p m : Nat) (b : OutBeat) : Nat :=
  let ack := (s.module p m).ack
  match (if b.own then SMap.find b.id s.net else none) with
  | some k => (k.header s.actingH b ack).bits
  | none => ({ seq := b.seq, ack := ack, left := b.left } : BeatHeader).bits

/-- A beat leaves in a frame of a module; the beats of one module arrive in the order sent (R43, R44). -/
def State.beatOut (s : State) (p m : Nat) (b : OutBeat) : State :=
  match Config.wire p m with
  | none => s
  | some (q, j) =>
    let d := s.die p
    s.inOrder (2 ^ 30 + 16 * p + m) .countedBeatReceive
      { pos := q, m := j, value := BitVec.ofNat 64 (s.beatBits p m b), team := b.id, ok := b.own, sent := d.cad, sub := d.sub, size := d.gaps }

/-- The retry timer of a module runs while beats wait for their ACK (R44). -/
def State.startTimer (s : State) (p m : Nat) : State :=
  let k := s.module p m
  if k.timing || k.replay.isEmpty then s
  else (s.setModule p m { k with timing := true }).after 64 .countedRetryTimeout { pos := p, m := m }

/-- The beats of a packet on a module: SEQ goes on from the last one, LEFT counts down to 0 (R43). -/
def beatsOf (seq id n : Nat) : List OutBeat := (List.range n).map fun i => { seq := (seq + i) % 4096, id := id, left := n - 1 - i }

/-- A packet is to be sent on a module: its beats wait for free slots, and the sender keeps them until their ACK returns
(R43, R44). -/
def State.sendOn (s : State) (p m id : Nat) : State :=
  let k := s.module p m
  let bs := beatsOf k.sendSeq id (beatsFor (SMap.get {} s.net id).payload)
  let k := { k with
    sendSeq := (k.sendSeq + bs.length) % 4096, outq := k.outq ++ bs, replay := k.replay ++ bs
    prog := if k.replay.isEmpty then s.cy else k.prog }
  (s.setModule p m k).startTimer p m

/-- A module returns its ACK by the beats it sends, or by a beat of its own where it has none (R43, R44). -/
def State.returnAck (s : State) (p m : Nat) : State :=
  let k := s.module p m
  if k.outq.isEmpty then s.setModule p m { k with outq := [{ own := false }] } else s

/-- A packet stands at a die: it arrives there, or goes on by the first module of its route (R35, R50). Without a
route it is lost. -/
def State.forward (s : State) (at_ id : Nat) : State :=
  match SMap.find id s.net with
  | none => s
  | some p =>
    let dst := if p.back then p.die else if p.target < 48 then p.target else s.actingH
    if at_ = dst then
      match arrivalEvent p with
      | some i => s.inOrder p.channel i { n := id }
      | none => { s with net := SMap.drop s.net id }
    else
      match s.firstModule s.alive at_ dst with
      | some m => s.sendOn at_ m id
      | none => s

/-- Puts a packet under number `id` on its way. -/
def State.launch (s : State) (from_ id : Nat) (p : Pkt) : State :=
  ({ s with net := SMap.put s.net id p }).forward from_ id

/-- Sends a request of a unit under a fresh number. -/
def State.send (s : State) (p : Pkt) : State := ({ s with netSeq := s.netSeq + 1 }).launch p.die s.netSeq p

/-- The request of an access of the queues may go: no earlier atomic is still to be performed, and before an atomic no earlier
access is (R226). -/
def mayGo (es : List QEntry) (e : QEntry) : Bool :=
  es.all fun x => decide (e.id ≤ x.id) || x.sampled || !((e.load && e.store) || (x.load && x.store))

/-- An access enters the load queue, the store queue or both, and its request goes once it may (R226). -/
def State.sendQueued (s : State) (p : Pkt) (load store : Bool) : State :=
  let h := s.hub p.die p.hub
  let id := s.netSeq
  let e : QEntry := ⟨id, p.target, if p.typ = 0xB then 1024 + p.target else homeOf p.addr, load, store, false, false⟩
  if mayGo h.accesses e then (s.setHub p.die p.hub { h with accesses := h.accesses ++ [e] }).send p
  else
    let s := s.setHub p.die p.hub { h with accesses := h.accesses ++ [{ e with waiting := true }] }
    { s with net := SMap.put s.net id p, netSeq := id + 1 }

/-- The requests that wait in a hub's queues and may go now are sent (R226). -/
def State.sendWaiting (s : State) (die hub : Nat) : State :=
  let h := s.hub die hub
  let es := h.accesses.filter fun e => e.waiting && mayGo h.accesses e
  es.foldl (fun (s : State) e =>
    let h := s.hub die hub
    (s.setHub die hub { h with accesses := h.accesses.map fun x => if x.id = e.id then { x with waiting := false } else x }).forward die e.id) s

/-- The reply of a target: back over the reverse route. -/
def State.reply (s : State) (id : Nat) (p : Pkt) : State :=
  s.launch (if p.target < 48 then p.target else s.actingH) id { p with back := true }

/-- The destination of an LDX has been written: the load is complete (R229). -/
def State.loadDone (s : State) (die hub id : Nat) : State :=
  let h := s.hub die hub
  (s.setHub die hub { h with accesses := h.accesses.filter fun e => decide (e.id ≠ id) || e.store }).sendWaiting die hub

/-- Access `id`, a store or an atomic, has been performed at its target: it is complete (R228, R229). -/
def State.storeDone (s : State) (die hub id : Nat) : State :=
  let h := s.hub die hub
  (s.setHub die hub { h with
    accesses := h.accesses.filter fun e => decide (e.id ≠ id)
    mark := h.mark.map fun l => l.filter fun x => decide (x ≠ id) }).sendWaiting die hub

/-- An LDX has been sampled at its target (R226). -/
def State.loadSampled (s : State) (die hub id : Nat) : State :=
  let h := s.hub die hub
  (s.setHub die hub { h with accesses := h.accesses.map fun e => if e.id = id then { e with sampled := true } else e }).sendWaiting die hub

/-- The register of access `id` of the current hub is written at issue + P (R200). -/
def State.deadline (s : State) (id prom : Nat) : State :=
  s.later prom (.ev .countedReplyDeadline { die := s.cur.die, hub := s.cur.hub, n := id })

/-- A counted LDX, or an atomic (`store`), of the current hub: the request, and its deadline (R200). -/
def State.countedLoad (s : State) (p : Pkt) (store : Bool) (prom : Nat) : State :=
  (s.sendQueued { p with at_ := s.now + prom, ord := s.seq } true store).deadline s.netSeq prom

/-- A counted slot-table instruction: it enters neither queue (R200, R216, R226). -/
def State.countedSlotOp (s : State) (p : Pkt) (prom : Nat) : State :=
  (s.send { p with at_ := s.now + prom, ord := s.seq }).deadline s.netSeq prom

/-- An LDX that is not performed: its destination is poisoned at issue + P, when it is complete (R205, R229). -/
def State.voidLoad (s : State) (p : Pkt) (prom : Nat) : State :=
  let h := s.curHub
  let id := s.netSeq
  let s := s.setCurHub { h with accesses := h.accesses ++ [⟨id, 49, homeOf p.addr, true, false, false, true⟩] }
  ({ s with net := SMap.put s.net id { p with at_ := s.now + prom, ord := s.seq, done := true, pois := true }, netSeq := id + 1 }).deadline id prom

end Sys2Proof.Machine
end

