-- ==== Sys2Proof/Machine/Operands.lean ====
section
/-! DEFINITION. The operand forms of control-core words (R323, R341, R344, R345): immediates, branch
targets and the pointers formed from them. -/

namespace Sys2Proof.Machine

open Sys2Proof

/-- sext(imm14) as a 64-bit pattern (R323, R344). -/
def sext14 (i : BitVec 14) : W64 := i.signExtend 64
/-- zext of a field (R323). -/
def zext64 {n : Nat} (i : BitVec n) : W64 := i.setWidth 64
/-- sext(imm12) in bytes (R348). -/
def off12 (i : BitVec 12) : Int := i.toInt
/-- sext(imm14) in bytes (R370). -/
def off14 (i : BitVec 14) : Int := i.toInt
/-- imm20 of LIL, signed (R345). -/
def sext20 (i : BitVec 20) : W64 := i.signExtend 64
/-- A branch target: PC + 4 × sext(off) (R323, R353, R354), as a byte offset modulo 2^32. -/
def branchTarget (pc : Nat) (o : Int) : Nat := (((pc : Int) + 4 * o) % (2 ^ 32 : Nat)).toNat
/-- Bytes of an access of code z: 0 byte, 1 half, 2 word, 3 doubleword (R323). -/
def sizeOf2 (z : BitVec 2) : Nat := 2 ^ z.toNat
/-- The low n bytes of a register (R348). -/
def lowBytes (v : W64) (n : Nat) : List Byte := leBytes n v.toNat
/-- RM of a two-bit field (R298). -/
def rmOf (r : BitVec 2) : Nat := r.toNat
/-- Bits [31:0] of a register as an FP32 pattern (R347). -/
def lo32 (v : W64) : Nat := v.toNat % 2 ^ 32
/-- An FP32 pattern as a register: bits [63:32] are 0 (R347). -/
def ofLo32 (x : Nat) : W64 := BitVec.ofNat 64 (x % 2 ^ 32)

end Sys2Proof.Machine
end

