-- ==== Sys2Proof/Machine/Flags.lean ====
section
/-! DEFINITION. This hardware has no status flags. What takes their place: the conditions of branches
(R326, R353), the p registers that compares write, and the poison of a result (R254, R342). -/

namespace Sys2Proof.Machine

open Sys2Proof

/-- The conditions eqz to lez test s(a) as S64 (R326, R353). -/
def condS (c : Nat) (v : W64) : Bool :=
  match c with
  | 0 => v.toInt == 0
  | 1 => v.toInt != 0
  | 2 => decide (v.toInt < 0)
  | 3 => decide (0 ≤ v.toInt)
  | 4 => decide (0 < v.toInt)
  | _ => decide (v.toInt ≤ 0)

/-- The poison of a result of two sources (R254, R342). -/
def pois2 (x y : PVal) : Bool := x.p || y.p

end Sys2Proof.Machine
end

