-- ==== Sys2Proof/Machine/Alu.lean ====
section
/-! DEFINITION. Integer arithmetic, immediates, pointers and selection of the control core
(R343 to R346, R356). -/

namespace Sys2Proof.Machine

open Sys2Proof

/-- What a meaning answers. -/
abbrev Res := Host.Outcome State Fault Refusal

/-- A register form: s(d) := f(s(a), s(b)) at issue + l (R343). -/
def aluOp (d a b : R6) (l : Nat) (f : W64 → W64 → W64) (s : State) : State :=
  (s.writeS d l (f (s.readS a).v (s.readS b).v) (pois2 (s.readS a) (s.readS b))).advance 1

/-- An immediate form: s(d) := f(s(a)) at issue + l (R344). -/
def aluImm (d a : R6) (l : Nat) (f : W64 → W64) (s : State) : State :=
  (s.writeS d l (f (s.readS a).v) (s.readS a).p).advance 1

/-- A compare into a p register at issue + 1 (R343). -/
def aluCmp (d : BitVec 3) (a b : R6) (f : W64 → W64 → Bool) (s : State) : State :=
  (s.writeP d 1 (f (s.readS a).v (s.readS b).v) (pois2 (s.readS a) (s.readS b))).advance 1

/-- The shift amount s(b)[5:0] (R343). -/
def amount (b : W64) : Nat := b.toNat % 64

/-- DIV: truncating, −1 for a divisor of 0 (R297). -/
def divS (a b : W64) : W64 := if b = 0 then BitVec.allOnes 64 else BitVec.ofInt 64 (Int.tdiv a.toInt b.toInt)
/-- DIVU: 2^64 − 1 for a divisor of 0 (R297). -/
def divU (a b : W64) : W64 := if b = 0 then BitVec.allOnes 64 else BitVec.ofNat 64 (a.toNat / b.toNat)
/-- REM: the dividend for a divisor of 0 (R297). -/
def remS (a b : W64) : W64 := if b = 0 then a else BitVec.ofInt 64 (Int.tmod a.toInt b.toInt)
/-- REMU (R297). -/
def remU (a b : W64) : W64 := if b = 0 then a else BitVec.ofNat 64 (a.toNat % b.toNat)
/-- High 64 bits of the signed product (R343). -/
def mulHi (a b : W64) : W64 := BitVec.ofInt 64 (a.toInt * b.toInt / (2 ^ 64 : Nat))
/-- High 64 bits of the natural product (R343). -/
def mulHiU (a b : W64) : W64 := BitVec.ofNat 64 (a.toNat * b.toNat / 2 ^ 64)
def minS (a b : W64) : W64 := if b.toInt < a.toInt then b else a
def maxS (a b : W64) : W64 := if a.toInt < b.toInt then b else a
def minU (a b : W64) : W64 := if b.toNat < a.toNat then b else a
def maxU (a b : W64) : W64 := if a.toNat < b.toNat then b else a
def sltS (a b : W64) : W64 := if a.toInt < b.toInt then 1 else 0
def sltU (a b : W64) : W64 := if a.toNat < b.toNat then 1 else 0

/-- ADD (R343). -/
def execAdd (d a b : R6) (s : State) : Res := .next (aluOp d a b 1 (fun x y => x + y) s)
/-- SUB (R343). -/
def execSub (d a b : R6) (s : State) : Res := .next (aluOp d a b 1 (fun x y => x - y) s)
/-- AND (R343). -/
def execAnd (d a b : R6) (s : State) : Res := .next (aluOp d a b 1 (fun x y => x &&& y) s)
/-- OR (R343). -/
def execOr (d a b : R6) (s : State) : Res := .next (aluOp d a b 1 (fun x y => x ||| y) s)
/-- XOR (R343). -/
def execXor (d a b : R6) (s : State) : Res := .next (aluOp d a b 1 (fun x y => x ^^^ y) s)
/-- SHL (R343). -/
def execShl (d a b : R6) (s : State) : Res := .next (aluOp d a b 1 (fun x y => x <<< amount y) s)
/-- SHR (R343). -/
def execShr (d a b : R6) (s : State) : Res := .next (aluOp d a b 1 (fun x y => x >>> amount y) s)
/-- SHRA (R343). -/
def execShra (d a b : R6) (s : State) : Res := .next (aluOp d a b 1 (fun x y => x.sshiftRight (amount y)) s)
/-- ROL (R343). -/
def execRol (d a b : R6) (s : State) : Res := .next (aluOp d a b 1 (fun x y => x.rotateLeft (amount y)) s)
/-- ROR (R343). -/
def execRor (d a b : R6) (s : State) : Res := .next (aluOp d a b 1 (fun x y => x.rotateRight (amount y)) s)
/-- MIN (R343). -/
def execMin (d a b : R6) (s : State) : Res := .next (aluOp d a b 1 minS s)
/-- MAX (R343). -/
def execMax (d a b : R6) (s : State) : Res := .next (aluOp d a b 1 maxS s)
/-- MINU (R343). -/
def execMinu (d a b : R6) (s : State) : Res := .next (aluOp d a b 1 minU s)
/-- MAXU (R343). -/
def execMaxu (d a b : R6) (s : State) : Res := .next (aluOp d a b 1 maxU s)
/-- SLT (R343). -/
def execSlt (d a b : R6) (s : State) : Res := .next (aluOp d a b 1 sltS s)
/-- SLTU (R343). -/
def execSltu (d a b : R6) (s : State) : Res := .next (aluOp d a b 1 sltU s)
/-- MUL (R343). -/
def execMul (d a b : R6) (s : State) : Res := .next (aluOp d a b 3 (fun x y => x * y) s)
/-- MULH (R343). -/
def execMulh (d a b : R6) (s : State) : Res := .next (aluOp d a b 3 mulHi s)
/-- MULHU (R343). -/
def execMulhu (d a b : R6) (s : State) : Res := .next (aluOp d a b 3 mulHiU s)
/-- DIV (R343). -/
def execDiv (d a b : R6) (s : State) : Res := .next (aluOp d a b 36 divS s)
/-- DIVU (R343). -/
def execDivu (d a b : R6) (s : State) : Res := .next (aluOp d a b 36 divU s)
/-- REM (R343). -/
def execRem (d a b : R6) (s : State) : Res := .next (aluOp d a b 36 remS s)
/-- REMU (R343). -/
def execRemu (d a b : R6) (s : State) : Res := .next (aluOp d a b 36 remU s)
/-- CMPEQ (R343). -/
def execCmpeq (d : BitVec 3) (a b : R6) (s : State) : Res := .next (aluCmp d a b (fun x y => x == y) s)
/-- CMPLT (R343). -/
def execCmplt (d : BitVec 3) (a b : R6) (s : State) : Res := .next (aluCmp d a b (fun x y => decide (x.toInt < y.toInt)) s)
/-- CMPLTU (R343). -/
def execCmpltu (d : BitVec 3) (a b : R6) (s : State) : Res := .next (aluCmp d a b (fun x y => decide (x.toNat < y.toNat)) s)
/-- ADDI (R344). -/
def execAddi (d a : R6) (i : BitVec 14) (s : State) : Res := .next (aluImm d a 1 (fun x => x + sext14 i) s)
/-- ANDI (R344). -/
def execAndi (d a : R6) (i : BitVec 14) (s : State) : Res := .next (aluImm d a 1 (fun x => x &&& zext64 i) s)
/-- ORI (R344). -/
def execOri (d a : R6) (i : BitVec 14) (s : State) : Res := .next (aluImm d a 1 (fun x => x ||| zext64 i) s)
/-- XORI (R344). -/
def execXori (d a : R6) (i : BitVec 14) (s : State) : Res := .next (aluImm d a 1 (fun x => x ^^^ zext64 i) s)
/-- SHLI (R344). -/
def execShli (d a : R6) (i : BitVec 6) (s : State) : Res := .next (aluImm d a 1 (fun x => x <<< i.toNat) s)
/-- SHRI (R344). -/
def execShri (d a : R6) (i : BitVec 6) (s : State) : Res := .next (aluImm d a 1 (fun x => x >>> i.toNat) s)
/-- SHRAI (R344). -/
def execShrai (d a : R6) (i : BitVec 6) (s : State) : Res := .next (aluImm d a 1 (fun x => x.sshiftRight i.toNat) s)
/-- SLTI (R344). -/
def execSlti (d a : R6) (i : BitVec 14) (s : State) : Res := .next (aluImm d a 1 (fun x => sltS x (sext14 i)) s)
/-- SLTUI (R344). -/
def execSltui (d a : R6) (i : BitVec 14) (s : State) : Res := .next (aluImm d a 1 (fun x => sltU x (sext14 i)) s)
/-- MULI (R344). -/
def execMuli (d a : R6) (i : BitVec 14) (s : State) : Res := .next (aluImm d a 3 (fun x => x * sext14 i) s)
/-- LIL: s(d) := sext(imm20), without poison (R345). -/
def execLil (d : R6) (i : BitVec 20) (s : State) : Res := .next ((s.writeS d 1 (sext20 i) false).advance 1)
/-- LIH: s(d) := s(d) × 2^20 + imm20; its poison stays (R345). -/
def execLih (d : R6) (i : BitVec 20) (s : State) : Res :=
  .next (aluImm d d 1 (fun x => (x <<< (20 : Nat)) + zext64 i) s)

/-- LEA's result: OFF moves modulo 2^48, bits [63:48] stay (R346). -/
def leaOf (x : W64) (i : BitVec 14) : W64 :=
  BitVec.ofNat 64 (x.toNat / 2 ^ 48 * 2 ^ 48 + (x + sext14 i).toNat % 2 ^ 48)
/-- LEA (R346). -/
def execLea (d a : R6) (i : BitVec 14) (s : State) : Res := .next (aluImm d a 1 (fun x => leaOf x i) s)
/-- PTAG: s(a)[15:0] × 2^48 + s(b)[47:0] (R346). -/
def execPtag (d a b : R6) (s : State) : Res :=
  .next (aluOp d a b 1 (fun x y => BitVec.ofNat 64 (x.toNat % 2 ^ 16 * 2 ^ 48 + y.toNat % 2 ^ 48)) s)
/-- PSPACE: zext(s(a)[63:48]) (R346). -/
def execPspace (d a : R6) (s : State) : Res := .next (aluImm d a 1 (fun x => x >>> (48 : Nat)) s)

/-- SEL reads p(c) and the selected operand only (R356). -/
def execSel (d a b : R6) (p : BitVec 3) (s : State) : Res :=
  let c := s.curHub.readP p.toNat
  let x := if c.1 then s.readS a else s.readS b
  .next ((s.writeS d 1 x.v (c.2 || x.p)).advance 1)

end Sys2Proof.Machine
end

