-- ==== Sys2Proof/Machine/Num.lean ====
section
/-! DEFINITION. Number formats and arithmetic (12_numerics.md): exact values, one rounding, the special
cases of R292 to R302 and the correctly rounded functions. Everything is Nat and Int arithmetic. -/

namespace Sys2Proof.Machine

/-- Which top exponent patterns a format gives away (R292): all to infinities and NaN, only the last
pattern to NaN (E4M3), or none. -/
inductive Top
  | ieee | last | none
  deriving DecidableEq, Repr

/-- A floating-point format of R292. -/
structure Fmt where
  e : Nat
  m : Nat
  top : Top
  deriving DecidableEq, Repr

def fp32 : Fmt := ⟨8, 23, .ieee⟩
def fp16 : Fmt := ⟨5, 10, .ieee⟩
def bf16 : Fmt := ⟨8, 7, .ieee⟩
def e5m2 : Fmt := ⟨5, 2, .ieee⟩
def e4m3 : Fmt := ⟨4, 3, .last⟩
def e3m2 : Fmt := ⟨3, 2, .none⟩
def e2m3 : Fmt := ⟨2, 3, .none⟩
def e2m1 : Fmt := ⟨2, 1, .none⟩

/-- The bias b (R292). -/
def Fmt.bias (f : Fmt) : Nat := 2 ^ (f.e - 1) - 1
/-- Bits of a format (R292). -/
def Fmt.width (f : Fmt) : Nat := 1 + f.e + f.m
/-- The sign bit's weight. -/
def Fmt.signBit (f : Fmt) : Nat := 2 ^ (f.e + f.m)
/-- The magnitude pattern of the largest finite value (R292). -/
def Fmt.maxFinite (f : Fmt) : Nat :=
  match f.top with
  | .ieee => (2 ^ f.e - 1) * 2 ^ f.m - 1
  | .last => 2 ^ (f.e + f.m) - 2
  | .none => 2 ^ (f.e + f.m) - 1
/-- The magnitude pattern of infinity, in the formats that have one. -/
def Fmt.infPattern (f : Fmt) : Nat := (2 ^ f.e - 1) * 2 ^ f.m
/-- The canonical NaN (R292, R293); 0 in the formats that have none. -/
def Fmt.nan (f : Fmt) : Nat :=
  match f.top with
  | .ieee => (2 ^ f.e - 1) * 2 ^ f.m + 2 ^ (f.m - 1)
  | .last => 2 ^ (f.e + f.m) - 1
  | .none => 0
/-- The exponent of a quantum of the subnormals. -/
def Fmt.qmin (f : Fmt) : Int := 1 - (f.bias : Int) - (f.m : Int)

/-- A real number or special value: `num neg m e sticky` has magnitude m × 2^e, or strictly between that and
(m + 1) × 2^e when sticky. -/
inductive Real'
  | nan
  | inf (neg : Bool)
  | num (neg : Bool) (m : Nat) (e : Int) (sticky : Bool)
  deriving DecidableEq, Repr

/-- The value of a pattern (R292). -/
def Fmt.decode (f : Fmt) (x : Nat) : Real' :=
  let neg := x.testBit (f.e + f.m)
  let mag := x % 2 ^ (f.e + f.m)
  let ex := mag / 2 ^ f.m
  let mant := mag % 2 ^ f.m
  match f.top with
  | .ieee =>
    if ex = 2 ^ f.e - 1 then (if mant = 0 then .inf neg else .nan)
    else if ex = 0 then .num neg mant f.qmin false
    else .num neg (2 ^ f.m + mant) (f.qmin + ((ex - 1 : Nat) : Int)) false
  | .last =>
    if mag = 2 ^ (f.e + f.m) - 1 then .nan
    else if ex = 0 then .num neg mant f.qmin false
    else .num neg (2 ^ f.m + mant) (f.qmin + ((ex - 1 : Nat) : Int)) false
  | .none =>
    if ex = 0 then .num neg mant f.qmin false
    else .num neg (2 ^ f.m + mant) (f.qmin + ((ex - 1 : Nat) : Int)) false

/-- How an operation treats an overflow: arithmetic (R300), or a conversion with OVF 0 or 1 (R299). -/
inductive Ovf
  | arith | sat | ieee
  deriving DecidableEq, Repr

/-- The pattern with its sign. -/
def Fmt.signed (f : Fmt) (neg : Bool) (mag : Nat) : Nat := if neg then f.signBit + mag else mag

/-- ±∞ as a result (R299, R300). -/
def Fmt.infinity (f : Fmt) (o : Ovf) (neg : Bool) : Nat :=
  match f.top with
  | .ieee => f.signed neg f.infPattern
  | _ =>
    match o with
    | .ieee => f.nan
    | _ => f.signed neg f.maxFinite

/-- A finite result whose rounded magnitude lies above the largest finite value (R299, R300). RM 0 RNE,
1 towards zero, 2 towards −∞, 3 towards +∞ (R298). -/
def Fmt.overflow (f : Fmt) (o : Ovf) (rm : Nat) (neg : Bool) : Nat :=
  let toMax := rm == 1 || (rm == 2 && !neg) || (rm == 3 && neg)
  match o with
  | .sat => f.signed neg f.maxFinite
  | .arith =>
    match f.top with
    | .ieee => if toMax then f.signed neg f.maxFinite else f.signed neg f.infPattern
    | _ => f.signed neg f.maxFinite
  | .ieee =>
    if toMax then f.signed neg f.maxFinite
    else match f.top with
      | .ieee => f.signed neg f.infPattern
      | _ => f.nan

/-- Rounding up of a magnitude `r` with the discarded part `rem` of `2 ^ sh`, by RM (R298, R319). -/
def roundsUp (rm : Nat) (neg : Bool) (r rem half : Nat) (sticky : Bool) : Bool :=
  let inexact := decide (rem ≠ 0) || sticky
  match rm with
  | 0 => decide (half < rem) || (decide (rem = half) && (sticky || decide (r % 2 = 1)))
  | 1 => false
  | 2 => neg && inexact
  | _ => !neg && inexact

/-- The magnitude pattern of m × 2^e rounded by RM, with the exponent unbounded above (R298). -/
def Fmt.roundMag (f : Fmt) (rm : Nat) (neg : Bool) (m : Nat) (e : Int) (sticky : Bool) : Nat :=
  let top : Int := (Nat.log2 m : Int) + e
  let q0 : Int := top - (f.m : Int)
  let q : Int := if m = 0 then f.qmin else if q0 < f.qmin then f.qmin else q0
  let sh : Int := q - e
  let r' :=
    if sh ≤ 0 then
      let r := m * 2 ^ (-sh).toNat
      if roundsUp rm neg r (if sticky then 1 else 0) 2 false then r + 1 else r
    else
      let k := sh.toNat
      let r := m / 2 ^ k
      if roundsUp rm neg r (m % 2 ^ k) (2 ^ (k - 1)) sticky then r + 1 else r
  (q - f.qmin).toNat * 2 ^ f.m + r'

/-- A value rounded once to a format (R298 to R300). -/
def Fmt.round (f : Fmt) (o : Ovf) (rm : Nat) (v : Real') : Nat :=
  match v with
  | .nan => f.nan
  | .inf neg => f.infinity o neg
  | .num neg m e sticky =>
    let mag := f.roundMag rm neg m e sticky
    if f.maxFinite < mag then f.overflow o rm neg else f.signed neg mag

/-- Whether a pattern is a NaN (R292). -/
def Fmt.isNan (f : Fmt) (x : Nat) : Bool := f.decode x == .nan
/-- Whether a pattern is subnormal (R292). -/
def Fmt.isSubnormal (f : Fmt) (x : Nat) : Bool :=
  decide (x % 2 ^ (f.e + f.m) / 2 ^ f.m = 0) && decide (x % 2 ^ f.m ≠ 0)
/-- FTZ: a subnormal pattern becomes zero of the same sign (R303). -/
def Fmt.flush (f : Fmt) (ftz : Bool) (x : Nat) : Nat :=
  if ftz && f.isSubnormal x then f.signed (x.testBit (f.e + f.m)) 0 else x

/-- The sign, for a number or an infinity. -/
def Real'.neg : Real' → Bool
  | .nan => false
  | .inf n => n
  | .num n .. => n

/-- A value with its sign inverted. -/
def Real'.negate : Real' → Real'
  | .nan => .nan
  | .inf n => .inf (!n)
  | .num n m e s => .num (!n) m e s

/-- Whether a value is a zero. -/
def Real'.isZero : Real' → Bool
  | .num _ m _ s => decide (m = 0) && !s
  | _ => false

/-- m × 2^e as an integer multiple of 2^q, for q ≤ e. -/
def scaled (neg : Bool) (m : Nat) (e q : Int) : Int :=
  let a : Int := ((m * 2 ^ (e - q).toNat : Nat) : Int)
  if neg then -a else a

/-- The exact integer multiple `x` of 2^q as a value; a zero has the sign `z`. -/
def ofInt (x q : Int) (z : Bool) : Real' :=
  if x = 0 then .num z 0 0 false else .num (decide (x < 0)) x.natAbs q false

/-- The exact sum (R300, R301). RM settles the sign of an exact zero. -/
def Real'.add (rm : Nat) (a b : Real') : Real' :=
  match a, b with
  | .nan, _ => .nan
  | _, .nan => .nan
  | .inf x, .inf y => if x = y then .inf x else .nan
  | .inf x, _ => .inf x
  | _, .inf y => .inf y
  | .num na ma ea _, .num nb mb eb _ =>
    let q := if ea ≤ eb then ea else eb
    let z := if na = nb then na else decide (rm = 2)
    ofInt (scaled na ma ea q + scaled nb mb eb q) q z

/-- The exact product (R300, R301). -/
def Real'.mul (a b : Real') : Real' :=
  match a, b with
  | .nan, _ => .nan
  | _, .nan => .nan
  | .inf x, .inf y => .inf (x != y)
  | .inf x, .num n m _ _ => if m = 0 then .nan else .inf (x != n)
  | .num n m _ _, .inf y => if m = 0 then .nan else .inf (n != y)
  | .num na ma ea _, .num nb mb eb _ => .num (na != nb) (ma * mb) (ea + eb) false

/-- The quotient, with 128 bits and a sticky bit below them (R300, R302). -/
def Real'.div (a b : Real') : Real' :=
  match a, b with
  | .nan, _ => .nan
  | _, .nan => .nan
  | .inf _, .inf _ => .nan
  | .inf x, .num n _ _ _ => .inf (x != n)
  | .num n _ _ _, .inf y => .num (n != y) 0 0 false
  | .num na ma ea _, .num nb mb eb _ =>
    if mb = 0 then (if ma = 0 then .nan else .inf (na != nb))
    else if ma = 0 then .num (na != nb) 0 0 false
    else
      let k := 128 + Nat.log2 mb
      let x := ma * 2 ^ k
      .num (na != nb) (x / mb) (ea - eb - (k : Int)) (decide (x % mb ≠ 0))

/-- Bits i to 0 of the integer square root of `n`, given its bits above i as `r`. -/
def isqrtFrom (n : Nat) : Nat → Nat → Nat
  | 0, r => if (r + 1) * (r + 1) ≤ n then r + 1 else r
  | i + 1, r =>
    let c := r + 2 ^ (i + 1)
    isqrtFrom n i (if c * c ≤ n then c else r)

/-- ⌊√n⌋. -/
def isqrt (n : Nat) : Nat := isqrtFrom n (Nat.log2 n / 2 + 1) 0

/-- The square root (R302). -/
def Real'.sqrt (a : Real') : Real' :=
  match a with
  | .nan => .nan
  | .inf neg => if neg then .nan else .inf false
  | .num neg m e _ =>
    if m = 0 then .num neg 0 0 false
    else if neg then .nan
    else
      let odd := e % 2 ≠ 0
      let m' := (if odd then 2 * m else m) * 2 ^ 128
      let e' := if odd then e - 1 else e
      let r := isqrt m'
      .num false r (e' / 2 - 64) (decide (r * r ≠ m'))

/-- The reciprocal square root (R302). -/
def Real'.rsqrt (a : Real') : Real' :=
  match a with
  | .nan => .nan
  | .inf neg => if neg then .nan else .num false 0 0 false
  | .num neg m e _ =>
    if m = 0 then .inf neg
    else if neg then .nan
    else
      let odd := e % 2 ≠ 0
      let m' := if odd then 2 * m else m
      let e' := if odd then e - 1 else e
      let n := 2 ^ (2 * (64 + Nat.log2 m')) / m'
      let r := isqrt n
      .num false r (-(e' / 2) - ((64 + Nat.log2 m' : Nat) : Int)) (decide (m' * (r * r) ≠ 2 ^ (2 * (64 + Nat.log2 m'))))

/-- The reciprocal (R302). -/
def Real'.recip (a : Real') : Real' := (Real'.num false 1 0 false).div a

/-! The correctly rounded transcendental functions: a rigorous interval at a working precision P, doubled
until both ends round alike (R302). Except in the exact cases, taken first, the value is irrational, so the
ends come together; the fuel covers every format of R292 (DEDUCED, log 15). -/

/-- Σ u^(2k+1)/(2k+1) from term index k, in units of 2^-p: `pow` is u^(2k+1). -/
def atanhSum (p u2 : Nat) : Nat → Nat → Nat → Nat → Nat
  | 0, _, _, acc => acc
  | fuel + 1, k, pow, acc =>
    if pow = 0 then acc
    else atanhSum p u2 fuel (k + 1) (pow * u2 / 2 ^ p) (acc + pow / (2 * k + 1))

/-- A lower bound of 2·atanh(a / b) in units of 2^-p, for 0 ≤ a/b ≤ 1/3, short by less than `errOf p`. -/
def atanh2 (p a b : Nat) : Nat :=
  let u := a * 2 ^ p / b
  2 * atanhSum p (u * u / 2 ^ p) p 0 u 0

/-- The error bound of the series at precision p. -/
def errOf (p : Nat) : Nat := 8 * p + 32

/-- A lower bound of ln 2 in units of 2^-p. -/
def ln2Lo (p : Nat) : Nat := atanh2 p 1 3

/-- Σ y^k/k! from term k, in units of 2^-p. -/
def expSum (p y : Nat) : Nat → Nat → Nat → Nat → Nat
  | 0, _, _, acc => acc
  | fuel + 1, k, term, acc =>
    if term = 0 then acc
    else expSum p y fuel (k + 1) (term * y / 2 ^ p / (k + 1)) (acc + term)

/-- A lower bound of exp(y / 2^p) in units of 2^-p, for 0 ≤ y < 2^p, short by less than `errOf p`. -/
def expLo (p y : Nat) : Nat := expSum p y (p + 4) 0 (2 ^ p) 0

/-- The two ends lo < value < hi, in units of 2^-p × 2^n, rounded alike, or none. -/
def Fmt.between (f : Fmt) (rm : Nat) (neg : Bool) (lo hi : Nat) (e : Int) : Option Nat :=
  let a := f.round .arith rm (.num neg lo e true)
  let b := f.round .arith rm (.num neg (hi - 1) e true)
  if a = b then some a else none

/-- Tries the interval `g p` at rising precision. -/
def tryPrecision (g : Nat → Option Nat) : Nat → Nat → Option Nat
  | 0, _ => none
  | fuel + 1, p => match g p with
    | some x => some x
    | none => tryPrecision g fuel (2 * p)

/-- The value ⌊m × 2^e × 2^p⌋ of a magnitude. -/
def fixed (m : Nat) (e : Int) (p : Nat) : Nat :=
  if 0 ≤ e + (p : Int) then m * 2 ^ (e + (p : Int)).toNat else m / 2 ^ (-(e + (p : Int))).toNat

/-- 2^x (R302). -/
def Fmt.exp2 (f : Fmt) (rm : Nat) (a : Real') : Nat :=
  match a with
  | .nan => f.nan
  | .inf neg => if neg then 0 else f.infinity .arith false
  | .num neg m e _ =>
    if m = 0 then f.round .arith rm (.num false 1 0 false)
    else
      let big := (Nat.log2 m : Int) + e
      if 11 ≤ big then
        (if neg then f.round .arith rm (.num false 0 (-4000) true) else f.overflow .arith rm false)
      else
        let isInt := decide (0 ≤ e) || decide (m % 2 ^ (-e).toNat = 0)
        if isInt then
          let k : Int := (fixed m e 0 : Nat)
          f.round .arith rm (.num false 1 (if neg then -k else k) false)
        else
          let g := fun p =>
            -- x = n + y with 0 < y < 1; y lies in [yl, yl + 1] units
            let fl := fixed m e p
            let yl := if neg then 2 ^ p - 1 - fl % 2 ^ p else fl % 2 ^ p
            let n : Int := if neg then -((fl / 2 ^ p : Nat) : Int) - 1 else ((fl / 2 ^ p : Nat) : Int)
            let l := ln2Lo p
            let lo := expLo p (yl * l / 2 ^ p)
            f.between rm false lo (lo + 4 * errOf p) (n - (p : Int))
          (tryPrecision g 6 128).getD 0

/-- The interval of ln x in units of 2^-p, for x = m × 2^e. -/
def lnInterval (m : Nat) (e : Int) (p : Nat) : Int × Int :=
  let n : Int := (Nat.log2 m : Int) + e
  let b := 2 ^ Nat.log2 m
  let l : Int := (atanh2 p (m - b) (m + b) : Nat)
  let c : Int := (ln2Lo p : Nat)
  let er : Int := (errOf p : Nat)
  if 0 ≤ n then (n * c + l, n * (c + er) + l + er) else (n * (c + er) + l, n * c + l + er)

/-- A signed interval, in units of 2^-p, rounded; none while it is not decided. -/
def Fmt.betweenSigned (f : Fmt) (rm : Nat) (i : Int × Int) (p : Nat) : Option Nat :=
  if 0 < i.1 then f.between rm false i.1.toNat i.2.toNat (-(p : Int))
  else if i.2 < 0 then f.between rm true (-i.2).toNat (-i.1).toNat (-(p : Int))
  else none

/-- ln x (R302). -/
def Fmt.ln (f : Fmt) (rm : Nat) (a : Real') : Nat :=
  match a with
  | .nan => f.nan
  | .inf neg => if neg then f.nan else f.infinity .arith false
  | .num neg m e _ =>
    if m = 0 then f.infinity .arith true
    else if neg then f.nan
    else if decide (m = 2 ^ Nat.log2 m) && decide ((Nat.log2 m : Int) + e = 0) then 0
    else (tryPrecision (fun p => f.betweenSigned rm (lnInterval m e p) p) 6 128).getD 0

/-- log2 x (R302). -/
def Fmt.log2 (f : Fmt) (rm : Nat) (a : Real') : Nat :=
  match a with
  | .nan => f.nan
  | .inf neg => if neg then f.nan else f.infinity .arith false
  | .num neg m e _ =>
    if m = 0 then f.infinity .arith true
    else if neg then f.nan
    else
      let n : Int := (Nat.log2 m : Int) + e
      if m = 2 ^ Nat.log2 m then f.round .arith rm (ofInt n 0 false)
      else
        let g := fun p =>
          let b := 2 ^ Nat.log2 m
          let l := atanh2 p (m - b) (m + b)
          let c := ln2Lo p
          let lo : Int := n * 2 ^ p + ((l * 2 ^ p / (c + errOf p) : Nat) : Int)
          let hi : Int := n * 2 ^ p + (((l + errOf p) * 2 ^ p / c + 1 : Nat) : Int)
          f.betweenSigned rm (lo, hi) p
        (tryPrecision g 6 128).getD 0

/-- tanh x (R302): x − x³/3 < tanh x < x for small x, and 1 − 2/(e^2x + 1) otherwise. -/
def Fmt.tanh (f : Fmt) (rm : Nat) (a : Real') : Nat :=
  match a with
  | .nan => f.nan
  | .inf neg => f.round .arith rm (.num neg 1 0 false)
  | .num neg m e _ =>
    let big := (Nat.log2 m : Int) + e
    if m = 0 then f.signed neg 0
    else if big < -32 then
      ((f.between rm neg (m * 2 ^ 60 - m) (m * 2 ^ 60) (e - 60)).getD (f.round .arith rm (.num neg m e false)))
    else if 6 ≤ big then f.round .arith rm (.num neg (2 ^ 100 - 1) (-100) true)
    else
      let g := fun p =>
        let y := fixed m (e + 1) p
        let c := ln2Lo p
        let n := y / (c + errOf p)
        let r := y - n * (c + errOf p)
        -- r is short of the true remainder by at most n × errOf p + 1 units
        let elo := expLo p r
        let ehi := elo + 4 * (errOf p + n * errOf p)
        let el := elo * 2 ^ n
        let eh := ehi * 2 ^ n
        let one := 2 ^ p
        let lo := (el - one) * one / (el + one)
        let hi := (eh - one) * one / (eh + one) + 1
        f.between rm neg lo hi (-(p : Int))
      (tryPrecision g 6 128).getD 0

/-! Operations on patterns. -/

/-- a + b (R301). -/
def Fmt.add (f : Fmt) (rm a b : Nat) : Nat := f.round .arith rm ((f.decode a).add rm (f.decode b))
/-- a − b (R301). -/
def Fmt.sub (f : Fmt) (rm a b : Nat) : Nat := f.round .arith rm ((f.decode a).add rm (f.decode b).negate)
/-- a × b (R301). -/
def Fmt.mul (f : Fmt) (rm a b : Nat) : Nat := f.round .arith rm ((f.decode a).mul (f.decode b))
/-- a / b (R302). -/
def Fmt.div (f : Fmt) (rm a b : Nat) : Nat := f.round .arith rm ((f.decode a).div (f.decode b))
/-- a × b + c with one rounding (R301). -/
def Fmt.fma (f : Fmt) (rm a b c : Nat) : Nat :=
  f.round .arith rm (((f.decode a).mul (f.decode b)).add rm (f.decode c))
/-- √a (R302). -/
def Fmt.sqrt (f : Fmt) (rm a : Nat) : Nat := f.round .arith rm (f.decode a).sqrt
/-- 1/√a (R302). -/
def Fmt.rsqrt (f : Fmt) (rm a : Nat) : Nat := f.round .arith rm (f.decode a).rsqrt
/-- 1/a (R302). -/
def Fmt.recip (f : Fmt) (rm a : Nat) : Nat := f.round .arith rm (f.decode a).recip

/-- How two values compare: none when either is NaN (R301). -/
def Real'.cmp (a b : Real') : Option Ordering :=
  match a, b with
  | .nan, _ => none
  | _, .nan => none
  | .inf x, .inf y => some (if x = y then .eq else if x then .lt else .gt)
  | .inf x, _ => some (if x then .lt else .gt)
  | _, .inf y => some (if y then .gt else .lt)
  | .num na ma ea _, .num nb mb eb _ =>
    let q := if ea ≤ eb then ea else eb
    some (compare (scaled na ma ea q) (scaled nb mb eb q))

/-- a = b, a < b, a ≤ b (R301). -/
def Fmt.eq (f : Fmt) (a b : Nat) : Bool := (f.decode a).cmp (f.decode b) == some .eq
def Fmt.lt (f : Fmt) (a b : Nat) : Bool := (f.decode a).cmp (f.decode b) == some .lt
def Fmt.le (f : Fmt) (a b : Nat) : Bool := f.lt a b || f.eq a b

/-- MIN and MAX: the chosen operand, `none` when either is NaN (R301). `true` takes b. -/
def Fmt.pick (f : Fmt) (max : Bool) (a b : Nat) : Option Bool :=
  match (f.decode a).cmp (f.decode b) with
  | none => none
  | some .eq => some false
  | some .lt => some max
  | some .gt => some (!max)

/-- MIN and MAX (R301). -/
def Fmt.minmax (f : Fmt) (max : Bool) (a b : Nat) : Nat :=
  match f.pick max a b with
  | none => f.nan
  | some false => a
  | some true => b

/-- An integer type: width in bits and whether it is signed (R297). -/
structure ITy where
  bits : Nat
  signed : Bool
  deriving DecidableEq, Repr

/-- The integer that a pattern is. -/
def ITy.decode (t : ITy) (x : Nat) : Int := if t.signed then sextNat x t.bits else ((x % 2 ^ t.bits : Nat) : Int)
def ITy.minVal (t : ITy) : Int := if t.signed then -((2 ^ (t.bits - 1) : Nat) : Int) else 0
def ITy.maxVal (t : ITy) : Int :=
  if t.signed then ((2 ^ (t.bits - 1) : Nat) : Int) - 1 else ((2 ^ t.bits : Nat) : Int) - 1
/-- An exact integer clamped to the type's range (R297). -/
def ITy.clamp (t : ITy) (x : Int) : Nat :=
  wrapInt (if x < t.minVal then t.minVal else if t.maxVal < x then t.maxVal else x) t.bits

/-- A value rounded by RM to an integer; infinities and NaN are the caller's (R299). -/
def roundInt (rm : Nat) (neg : Bool) (m : Nat) (e : Int) : Int :=
  let mag :=
    if 0 ≤ e then m * 2 ^ e.toNat
    else
      let k := (-e).toNat
      let r := m / 2 ^ k
      if roundsUp rm neg r (m % 2 ^ k) (2 ^ (k - 1)) false then r + 1 else r
  if neg then -(mag : Int) else (mag : Int)

/-- Floating point to an integer type: rounds by RM and saturates; NaN gives 0 (R299). -/
def ITy.ofReal (t : ITy) (rm : Nat) (v : Real') : Nat :=
  match v with
  | .nan => 0
  | .inf neg => wrapInt (if neg then t.minVal else t.maxVal) t.bits
  | .num neg m e _ => t.clamp (roundInt rm neg m e)

/-- The element types of the shape register (R275). -/
inductive ETy
  | fp (f : Fmt) | int (t : ITy)
  deriving DecidableEq, Repr

/-- ETYPE codes 0 to 10 (R275); 11 to 15 never stand in the register. -/
def etype : Nat → ETy
  | 0 => .fp fp32 | 1 => .fp bf16 | 2 => .fp fp16 | 3 => .fp e4m3 | 4 => .fp e5m2
  | 5 => .int ⟨32, true⟩ | 6 => .int ⟨32, false⟩ | 7 => .int ⟨16, true⟩ | 8 => .int ⟨16, false⟩
  | 9 => .int ⟨8, true⟩ | _ => .int ⟨8, false⟩

/-- Bytes of an element. -/
def ETy.bytes : ETy → Nat
  | .fp f => f.width / 8
  | .int t => t.bits / 8

/-- Conversion between element types (R299). -/
def convert (src dst : ETy) (rm : Nat) (o : Ovf) (x : Nat) : Nat :=
  match src, dst with
  | .fp f, .fp g => g.round o rm (f.decode x)
  | .fp f, .int t => t.ofReal rm (f.decode x)
  | .int s, .fp g => g.round o rm (ofInt (s.decode x) 0 false)
  | .int s, .int t => wrapInt (s.decode x) t.bits

/-- OVF as a conversion's overflow mode (R298). -/
def ovfOf (b : Nat) : Ovf := if b = 0 then .sat else .ieee

/-- Nonzero by encoding (R304). -/
def ETy.nonzero (t : ETy) (x : Nat) : Bool :=
  match t with
  | .fp f => decide (x % f.signBit ≠ 0)
  | .int i => decide (x % 2 ^ i.bits ≠ 0)

/-- 2^(X − 127) for an E8M0 code below 0xFF (R294). -/
def e8m0 (x : Nat) : Int := (x : Int) - 127

/-- A value times a power of two. -/
def Real'.scale (v : Real') (k : Int) : Real' :=
  match v with
  | .num n m e s => .num n m (e + k) s
  | x => x

/-- ⌊log2⌋ of a magnitude that is not zero. -/
def Real'.log2 : Real' → Int
  | .num _ m e _ => (Nat.log2 m : Int) + e
  | _ => 0

/-- emax of R296: the exponent of the largest power of two in the element format. -/
def Fmt.emax (f : Fmt) : Int := ((f.maxFinite / 2 ^ f.m : Nat) : Int) - (f.bias : Int)

/-- The greater of two floors of log2, over the nonzero values. -/
def maxLog2 : List Real' → Option Int
  | [] => none
  | v :: r =>
    match maxLog2 r with
    | none => if v.isZero then none else some v.log2
    | some k => if v.isZero then some k else some (if v.log2 < k then k else v.log2)

/-- Whether a value is NaN or infinite. -/
def Real'.special : Real' → Bool
  | .num .. => false
  | _ => true

/-- Packs values into an MX block: the scale X and the element patterns (R296). -/
def mxPack (elem : Fmt) (rm : Nat) (xs : List Real') : Nat × List Nat :=
  if xs.any (·.special) then (0xFF, xs.map fun _ => 0)
  else
    match maxLog2 xs with
    | none => (0x7F, xs.map fun v => elem.round .sat rm v)
    | some l =>
      let k := l - elem.emax
      let k := if k < -127 then -127 else if 127 < k then 127 else k
      ((k + 127).toNat, xs.map fun v => elem.round .sat rm (v.scale (-k)))

/-- An element of an MX block: 2^(X − 127) × v; NaN when X is 0xFF (R295). -/
def mxValue (elem : Fmt) (scale x : Nat) : Real' :=
  if scale = 0xFF then .nan else (elem.decode x).scale (e8m0 scale)

/-- The constant ln 2 rounded to a format (R315). -/
def Fmt.ln2 (f : Fmt) : Nat := f.ln 0 (.num false 2 0 false)

end Sys2Proof.Machine
end

