-- ==== Sys2Proof/Machine/VecOps.lean ====
section
/-! DEFINITION. The registers of a vector engine (R274, R275, R388): elements, shadows, masks, poison, and
the effect of a write that lands. -/

namespace Sys2Proof.Machine

open Sys2Proof

/-- Bytes of one v register on a die of a kind (R274). -/
def vregBytes : Config.Kind → Nat
  | .vDie => 4096 | .mDie => 512 | _ => 0

/-- The place of byte `off` of register `r`, primal (tan 0) or shadow. -/
def vkey (tan r off : Nat) : Nat := (tan * 32 + r) * 4096 + off
/-- The place of bit `i` of mask `m`. -/
def mkey (m i : Nat) : Nat := m * 4096 + i

/-- A byte of a v register has poison (R388). -/
def Hub.vbytePois (h : Hub) (r off : Nat) : Bool := SMap.get false h.vpois (vkey 0 r off)

/-- The poison bit of the element at byte `off` of `w` bytes: the OR of its bytes' (R388). -/
def Hub.elemPois (h : Hub) (r off w : Nat) : Bool := (List.range w).any fun i => h.vbytePois r (off + i)

/-- Bytes of a v register or shadow as stored. -/
def Hub.vbytesAt (h : Hub) (tan r off n : Nat) : List Byte := (List.range n).map fun i => SMap.get 0 h.vbytes (vkey tan r (off + i))

/-- An element of a register or shadow; a poisoned one reads as zeros (R253). -/
def Hub.elem (h : Hub) (tan r off w : Nat) : Nat := if h.elemPois r off w then 0 else leNat (h.vbytesAt tan r off w)

/-- Bit `i` of a mask; m0 reads all ones (R274). -/
def Hub.maskBit (h : Hub) (m i : Nat) : Bool := m == 0 || SMap.get false h.masks (mkey m i)

/-- A byte with the bits of `mask` replaced. -/
def blend (mask : Nat) (old new : Byte) : Byte :=
  if mask = 255 then new else (old &&& ~~~(BitVec.ofNat 8 mask)) ||| (new &&& BitVec.ofNat 8 mask)

/-- Writes bytes of a register from `off`. -/
def putBytes (mask : Nat) (m : SMap Byte) (k : Nat) : List Byte → SMap Byte
  | [] => m
  | b :: r => putBytes mask (SMap.set 0 m k (blend mask (SMap.get 0 m k) b)) (k + 1) r

/-- Sets or clears the poison of `n` bytes. -/
def putPois (m : SMap Bool) (k : Nat) (p : Bool) : Nat → SMap Bool
  | 0 => m
  | n + 1 => putPois (SMap.set false m k p) (k + 1) p n

/-- A vector write lands (R388): a poisoned element holds zeros. -/
def Hub.vwrite (h : Hub) (x : VWrite) : Hub :=
  { h with
    vbytes := putBytes x.mask h.vbytes (vkey x.tan x.reg x.off) (if x.pois = some true then x.bytes.map fun _ => 0 else x.bytes)
    vpois := match x.pois with
      | none => h.vpois
      | some p => putPois h.vpois (vkey 0 x.reg x.off) p x.bytes.length }

def Hub.vwriteAll (h : Hub) : List VWrite → Hub
  | [] => h
  | x :: r => (h.vwrite x).vwriteAll r

/-- Mask bits land; m0 discards (R274). -/
def Hub.maskWrite (h : Hub) (m : Nat) : List (Nat × Bool) → Hub
  | [] => h
  | (i, b) :: r => (if m = 0 then h else { h with masks := SMap.set false h.masks (mkey m i) b }).maskWrite m r

/-- What a vector word sees of its engine at issue (R385). -/
structure VCtx where
  h : Hub
  /-- Bytes of a register. -/
  len : Nat
  ety : ETy
  /-- Element width in bytes and element count. -/
  w : Nat
  n : Nat
  /-- VL′ = min(VL, N). -/
  vl : Nat
  ftz : Bool
  /-- Tangents k of the launch. -/
  k : Nat
  tan : Tan

/-- The context of the current hub's vector engine. -/
def State.vctx (s : State) : VCtx :=
  let h := s.curHub
  let len := vregBytes (s.kind s.cur.die)
  let t := etype h.shape.ety
  { h := h, len := len, ety := t, w := t.bytes, n := len / t.bytes, vl := min h.shape.vl (len / t.bytes),
    ftz := h.shape.ftz, k := h.launch.tk, tan := h.tan.getD {} }

/-- active(i) under mask `m` (R385). -/
def VCtx.active (c : VCtx) (m i : Nat) : Bool := decide (i < c.vl) && c.h.maskBit m i
/-- The active element indices under mask `m`, ascending. -/
def VCtx.actives (c : VCtx) (m : Nat) : List Nat := (List.range c.vl).filter fun i => c.h.maskBit m i
/-- Element i of a register, primal or shadow; a shadow above k reads 0 (R191). -/
def VCtx.get (c : VCtx) (tan r i : Nat) : Nat := if c.k < tan then 0 else c.h.elem tan r (i * c.w) c.w
/-- The poison of element i (R388). -/
def VCtx.pois (c : VCtx) (r i : Nat) : Bool := c.h.elemPois r (i * c.w) c.w

end Sys2Proof.Machine
end

