-- ==== Sys2Proof/Machine/Crossing.lean ====
section
/-! DEFINITION. Crossings between the control core and the vector engine (R358 to R360). -/

namespace Sys2Proof.Machine

open Sys2Proof

/-- The hub has unit `e` (R268). -/
def State.hasUnit (s : State) (e : Nat) : Bool := (s.kind s.cur.die).hasEng e

/-- SXV: at n + 6 elements below VL take s(a)[w−1:0], their shadows +0, their poison that of s(a) (R358). -/
def execSxv (d : R5) (a : R6) (s : State) : Res :=
  if !s.hasUnit 1 then .next (s.coreFault 0x01 1 [])
  else
    let c := s.vctx
    let x := s.readS a
    let e := leBytes c.w x.v.toNat
    let prim : VWrite := ⟨d.toNat, 0, 0, (List.replicate c.vl e).flatten, some x.p, 255⟩
    let sh := (List.range c.k).map fun j => (⟨d.toNat, j + 1, 0, List.replicate (c.vl * c.w) 0, none, 255⟩ : VWrite)
    .next ((s.later 6 (.vec (prim :: sh))).advance 1)

/-- VXS: element u(s(b)) of v(a), read at n, at n + 9; 0 beyond the engine's elements (R359). -/
def execVxs (d : R6) (a : R5) (b : R6) (s : State) : Res :=
  if !s.hasUnit 1 then .next (s.coreFault 0x01 1 [poisonS d 9])
  else
    let c := s.vctx
    let i := (s.readS b).v.toNat
    if i < c.n then
      .next ((s.writeS d 9 (BitVec.ofNat 64 (c.get 0 a.toNat i)) ((s.readS b).p || c.pois a.toNat i)).advance 1)
    else .next ((s.writeS d 9 0 (s.readS b).p).advance 1)

end Sys2Proof.Machine
end

