-- ==== Sys2Proof/Machine/LoadStore.lean ====
section
/-! DEFINITION. LD, ST, LDX and STX (R348 to R350), with the endpoint window (R74, R75), handles (R205)
and store marks (R228). -/

namespace Sys2Proof.Machine

open Sys2Proof

/-- Runs an access that an open store mark holds back: it waits with its operands (R228, R384). -/
def heldByMark (i : Instr) (va vb vd : PVal) (k : State → State) (s : State) : State :=
  if s.curHub.mark.isSome then s.waitOn (.mark ⟨i, va, vb, vd⟩) else k s

/-- LD once its pointer is read (R348). A load from space 0x6 is an endpoint fault (R75; log 70). -/
def doLd (d : R6) (z : BitVec 2) (i : BitVec 12) (x : PVal) (s : State) : State :=
  let n := sizeOf2 z
  if x.p then s.coreFault 0x0A 2 [poisonS d 4]
  else
    match eaOf x.v.toNat (off12 i) with
    | none =>
      if ptrSpace x.v.toNat = 6 then s.coreFault 0x12 1 [poisonS d 4]
      else s.coreFault 0x0B (s.offCode s.cur.die s.cur.hub .ldst x.v.toNat) [poisonS d 4]
    | some p =>
      if ptrSpace p = 6 then s.coreFault 0x12 1 [poisonS d 4]
      else match s.translate s.cur.die s.cur.hub .ldst p n 1 with
      | .error c => s.coreFault 0x0B c [poisonS d 4]
      | .ok t =>
        match s.violation s.cur.die s.cur.hub 0 .read t.addr n with
        | some c => s.coreFault 0x02 c [poisonS d 4]
        | none => (s.later 2 (.sample t.addr n (.reg s.cur.die s.cur.hub d.toNat (s.now + 4)))).advance 1

/-- LD: sampled at n + 2, written at n + 4 (R348). -/
def execLd (d a : R6) (z : BitVec 2) (i : BitVec 12) (s : State) : Res :=
  let x := s.readS a
  .next (heldByMark (.ld d a z i) x {} {} (doLd d z i x) s)

/-- ST: performed at n + 3 (R348). -/
def execSt (d a : R6) (z : BitVec 2) (i : BitVec 12) (s : State) : Res :=
  let n := sizeOf2 z
  let x := s.readS a
  if x.p then .next (s.coreFault 0x0A 2 [])
  else
    match eaOf x.v.toNat (off12 i) with
    | none => .next (s.coreFault 0x0B (s.offCode s.cur.die s.cur.hub .ldst x.v.toNat) [])
    | some p =>
      match s.translate s.cur.die s.cur.hub .ldst p n 1 with
      | .error c => .next (s.coreFault 0x0B c [])
      | .ok t =>
        match s.stViolation s.cur.die s.cur.hub t.addr n with
        | some c => .next (s.coreFault 0x02 c [])
        | none => .next ((s.later 3 (.write t.addr (lowBytes (s.readS d).v n) (s.readS d).p)).advance 1)

/-- A handle of the current hub as reads see it now (R203, R204). -/
def State.handleOf (s : State) (h : Nat) : Handle := SMap.get {} s.curHub.handles h

/-- The timed latency of a pointer as far as its owner resolves, for the write cycle of a faulted access
(DEDUCED, log 17): 0 where it does not. -/
def State.latOf (s : State) (x : Nat) : Nat :=
  match s.owner s.cur.die s.cur.hub s.curHub.launch.part x with
  | .ok (_, _, q) => (s.timedLatency s.curHub.launch.plid s.cur.die q).getD 0
  | .error _ => 0

/-- The page access that a handle stands for (R205): the target, or the kind and subcode of the fault; none
where the read is not performed and its destination is poisoned. -/
def handleAccess (h : Handle) (off n : Nat) (wr : Bool) : Except (Nat × Nat) (Option Nat) :=
  match h.st with
  | .valid =>
    if h.size < off + n then .error (0x0B, 3)
    else if wr ∧ !h.w then .error (0x0B, 6)
    else .ok (some (flat h.home (h.base + off)))
  | .poison => if wr then .error (0x0B, 10) else .ok none
  | .np => if wr then .error (0x0B, 10) else .ok none
  | .deny => .error (0x0B, 7)
  | .invalid => .error (0x0C, 1)
  | .shot => .error (0x0C, 2)

/-- The promise of an access through a handle: HBM or host memory (R200). For a handle without a target it is
that of HBM, as in the trace of R206 (DEDUCED, log 18). -/
def handlePromise (h : Handle) : Nat := if h.st = .valid ∧ !h.hbm then Config.promise 6 else Config.promise 5

/-- The cycle, from issue, at which the destination of a faulted LDX is poisoned: that of its target's class, as far as the pointer names
one (R198, R200, R245). -/
def State.ldxCycle (s : State) (x : Nat) : Nat :=
  match ptrSpace x with
  | 5 => handlePromise (SMap.get {} s.curHub.handles (bits x 51 48))
  | 7 => match s.phys s.curHub.launch.part (ptrPos x) with
    | some q => s.promiseTo s.cur.die q
    | none => Config.promise 0
  | _ => 2 * s.latOf x + 8

/-- A packet of the current unit. -/
def State.packet (s : State) (typ target addr n : Nat) : Pkt :=
  { typ := typ, die := s.cur.die, hub := s.cur.hub, eng := s.cur.eng, part := s.curHub.launch.part,
    target := target, addr := addr, n := n, detail := s.wordDetail }

/-- The fault of an LDX or STX whose sum leaves the OFF field: space 0x6 names an endpoint fault for a load, spaces 0x5 and 0x7
check their owner fields first (R75, R193, R194, R341). -/
def State.farOffFault (s : State) (g : Group) (x : Nat) : Nat × Nat :=
  match ptrSpace x with
  | 5 => (0x0B, if bits x 59 52 ≠ 0 then 2 else 3)
  | 6 => if g = .ldx then (0x12, 1) else (0x0B, 3)
  | 7 =>
    if g ≠ .ldx then (0x0B, 4)
    else (0x0B, if (s.phys s.curHub.launch.part (ptrPos x)).isNone || ptrHub x ≠ 0 || ptrEng x ≠ 0 then 2 else 3)
  | _ => (0x0B, s.offCode s.cur.die s.cur.hub g x)

/-- LDX once its pointer is read (R349). -/
def doLdx (d : R6) (z : BitVec 2) (i : BitVec 12) (x : PVal) (s : State) : State :=
  let n := sizeOf2 z
  if x.p then s.coreFault 0x0A 2 [poisonS d (s.ldxCycle x.v.toNat)]
  else
    match eaOf x.v.toNat (off12 i) with
    | none =>
      let f := s.farOffFault .ldx x.v.toNat
      s.coreFault f.1 f.2 [poisonS d (s.ldxCycle x.v.toNat)]
    | some p =>
      let dest := [poisonS d (s.ldxCycle p)]
      match ptrSpace p with
      | 5 =>
        if bits p 59 52 ≠ 0 then s.coreFault 0x0B 2 dest
        else
          let h := s.handleOf (bits p 51 48)
          match handleAccess h (ptrOff p) n false with
          | .error (k, c) => s.coreFault k c dest
          | .ok none => (s.voidLoad { s.packet 0 s.cur.die (flat (homeHbm s.cur.die) 0) n with reg := d.toNat } (handlePromise h)).advance 1
          | .ok (some a) =>
            (s.countedLoad { s.packet 0 (homeDie (homeOf a)) a n with reg := d.toNat } false (handlePromise h)).advance 1
      | 6 => s.coreFault 0x12 1 dest
      | 7 =>
        match s.phys s.curHub.launch.part (ptrPos p) with
        | none => s.coreFault 0x0B 2 dest
        | some q =>
          if ptrHub p ≠ 0 ∨ ptrEng p ≠ 0 then s.coreFault 0x0B 2 dest
          else if 2 ^ 20 < ptrOff p + n then s.coreFault 0x0B 3 dest
          else if n ≠ 8 ∨ ptrOff p % 8 ≠ 0 then s.coreFault 0x0B 11 dest
          else
            (s.countedLoad { s.packet 0xB q (ptrOff p) n with reg := d.toNat } false
              (s.promiseTo s.cur.die q)).advance 1
      | _ =>
        match s.translate s.cur.die s.cur.hub .ldx p n 1 with
        | .error c => s.coreFault 0x0B c dest
        | .ok t =>
          match s.violation s.cur.die s.cur.hub 0 .read t.addr n with
          | some c => s.coreFault 0x02 c dest
          | none =>
            if t.timed then
              (s.request t.die (t.lat + 4)
                (.sample t.addr n (.ldx s.cur.die s.cur.hub d.toNat (s.now + 2 * t.lat + 8)))).advance 1
            else
              (s.countedLoad { s.packet 0 t.die t.addr n with reg := d.toNat } false
                (s.promiseTo s.cur.die t.die)).advance 1

/-- LDX (R349). -/
def execLdx (d a : R6) (z : BitVec 2) (i : BitVec 12) (s : State) : Res :=
  let x := s.readS a
  .next (heldByMark (.ldx d a z i) x {} {} (doLdx d z i x) s)

/-- The packet that a closed assembly buffer becomes (R74, R75, R79). -/
def packetOf (k : Packet) (lpos hub : Nat) : EndPacket :=
  { srank := 0, spos := lpos, shub := hub, cls := k.cls, drank := k.drank, dpos := k.dpos, dhub := k.dhub,
    words := k.words }

/-- The home X-die of a hub: the die bound at HOMEX, or the H-die in a package without X-dies (R75, R77);
the H-die too where HOMEX names no bound X-die (DESIGN CHOICE, log 117). -/
def State.homeX (s : State) : Nat :=
  match s.phys s.curHub.launch.part (bits s.curHub.epcfg.toNat 35 30) with
  | some q => if s.kind q = .xDie then q else s.actingH
  | none => s.actingH

/-- A doubleword stored to the endpoint window (R74, R75). A 31st doubleword whose fields also differ raises subcode 2 (DESIGN
CHOICE, log 70). The closed packet goes over the counted channel as TYPE 0x9, with the record to be written where it is refused. -/
def endpointStore (x : Nat) (v : W64) (s : State) : State :=
  let h := s.curHub
  let o := ptrOff x
  let k : Packet :=
    match h.packet with
    | some k => k
    | none => ⟨bits o 47 42, bits o 41 39, bits o 38 37, bits o 35 24, []⟩
  if k.words.length = 30 then (s.setCurHub { h with packet := none }).coreFault 0x12 2 []
  else if k.dpos ≠ bits o 47 42 ∨ k.dhub ≠ bits o 41 39 ∨ k.cls ≠ bits o 38 37 ∨ k.drank ≠ bits o 35 24 then
    (s.setCurHub { h with packet := none }).coreFault 0x12 3 []
  else
    let k := { k with words := k.words ++ [v] }
    if o.testBit 12 then
      ((s.setCurHub { h with packet := none }).send
        { s.packet 9 s.homeX 0 0 with
          pkt := packetOf k h.lpos s.cur.hub, bytes := List.replicate (8 * k.words.length) 0
          rep := { kind := 0x12, sub := 4, part := h.launch.part, slot := h.launch.slot, lpos := h.lpos, hub := s.cur.hub,
                   qid := h.launch.qid, ltag := h.launch.ltag } }).advance 1
    else (s.setCurHub { h with packet := some k }).advance 1

/-- STX (R349). -/
def execStx (d a : R6) (z : BitVec 2) (i : BitVec 12) (s : State) : Res :=
  let n := sizeOf2 z
  let x := s.readS a
  let v := s.readS d
  if x.p then .next (s.coreFault 0x0A 2 [])
  else
    match eaOf x.v.toNat (off12 i) with
    | none =>
      let f := s.farOffFault .stx x.v.toNat
      .next (s.coreFault f.1 f.2 [])
    | some p =>
      match ptrSpace p with
      | 5 =>
        if bits p 59 52 ≠ 0 then .next (s.coreFault 0x0B 2 [])
        else
          match handleAccess (s.handleOf (bits p 51 48)) (ptrOff p) n true with
          | .error (k, c) => .next (s.coreFault k c [])
          | .ok none => .next (s.coreFault 0x0B 10 [])
          | .ok (some t) =>
            if v.p then .next (s.coreFault 0x0A 1 [])
            else
              let u := s.sendQueued { s.packet 2 (homeDie (homeOf t)) t n with bytes := lowBytes v.v n } false true
              .next ((u.setCurHub { u.curHub with posted := u.curHub.posted || decide (homeDie (homeOf t) = 48) }).advance 1)
      | 6 =>
        if n ≠ 8 ∨ bits p 59 48 ≠ 0 ∨ bits p 2 0 ≠ 0 ∨ p.testBit 36 ∨ bits p 23 13 ≠ 0 then
          .next (s.coreFault 0x12 1 [])
        else if v.p then .next (s.coreFault 0x0A 1 [])
        else .next (endpointStore p v.v s)
      | _ =>
        match s.translate s.cur.die s.cur.hub .stx p n 1 with
        | .error c => .next (s.coreFault 0x0B c [])
        | .ok t =>
          match s.violation s.cur.die s.cur.hub 0 .write t.addr n with
          | some c => .next (s.coreFault 0x02 c [])
          | none =>
            if t.timed then
              .next ((s.request t.die (t.lat + 4) (.write t.addr (lowBytes v.v n) v.p)).advance 1)
            else
              .next ((s.sendQueued { s.packet 2 t.die t.addr n with bytes := lowBytes v.v n, pois := v.p }
                false true).advance 1)

end Sys2Proof.Machine
end

