-- ==== Sys2Proof/Machine/Queues.lean ====
section
/-! DEFINITION. GO, PUSH, the timelines and the reply queue as the control core uses them (R361 to R366),
and the waits of TLWAIT, POP and GO as they end (R173, R174, R233, R287). -/

namespace Sys2Proof.Machine

open Sys2Proof

/-- The section that holds the stream of an engine (R320). -/
def sectionOf : Nat → Nat
  | 1 => 1 | 2 => 2 | 3 => 3 | 4 => 3 | 5 => 4 | _ => 0

/-- Word `i` of a section of the instruction store. -/
def Hub.codeWord (h : Hub) (sec i : Nat) : Option Nat := (SMap.get [] h.code sec)[i]?

/-- The first word index and length of segment `j` of a section; length 0 where it is absent (R321). -/
def Hub.segment (h : Hub) (sec j : Nat) : Nat × Nat :=
  match h.codeWord sec (2 * j), h.codeWord sec (2 * j + 1) with
  | some lo, some hi => (lo / 4, hi % 2 ^ 24)
  | _, _ => (0, 0)

/-- A die's array is shared by both its hubs in the hub set of the launch: windows alternate (R164). -/
def Hub.alternating (h : Hub) (k : Config.Kind) (hub : Nat) : Bool :=
  decide (k = .mDie) &&
  (let m := SMap.get 0 h.launch.hubset h.lpos
   m.testBit (hub / 2 * 2) && m.testBit (hub / 2 * 2 + 1))

/-- The hub's streams of engine `e` issue in alternate windows (R166). -/
def State.alternates (s : State) (die hub e : Nat) : Bool :=
  (e == 1 || e == 2) && (s.hub die hub).alternating (s.kind die) hub

/-- A segment enters an engine's queue (R173, R174). -/
def enqueue (e seg off : Nat) (s : State) : State :=
  let h := s.curHub
  let t := h.stream e
  let start := s.cadOf s.cur.die ((h.item.getD {}).start + off)
  s.setCurHub (h.setStream e { t with queue := t.queue ++ [⟨seg, start, s.now⟩] })

/-- GO once its segment is known to exist (R173, R174). -/
def doGo (e seg off : Nat) (s : State) : State :=
  let h := s.curHub
  let start := (h.item.getD {}).start + off
  if h.launch.timed then
    if start < s.mark + 8 then s.coreFault 0x04 1 []
    else if s.alternates s.cur.die s.cur.hub e && decide (start % 2 ≠ s.cur.hub % 2) then s.coreFault 0x04 3 []
    else (enqueue e seg off s).advance 1
  else if (h.stream e).queue.length < 8 then (enqueue e seg off s).advance 1
  else s.waitOn (.go e seg off)

/-- GO (R361). -/
def execGo (e : BitVec 4) (g : BitVec 6) (t : BitVec 16) (s : State) : Res :=
  if !s.hasUnit e.toNat || decide ((s.curHub.segment (sectionOf e.toNat) g.toNat).2 = 0) then
    .next (s.coreFault 0x01 1 [])
  else .next (doGo e.toNat g.toNat t.toNat s)

/-- Memory as it will stand at CADENCE `at_`, as far as the agenda shows: the stores due by then performed. -/
def State.ahead (s : State) (die at_ : Nat) : State :=
  (sortDue (s.agenda.filter fun d => decide (d.die = die) && decide (d.at_ ≤ at_))).foldl
    (fun (s : State) d => match d.act with
      | .write b bs p => s.writeBytes b bs p
      | _ => s) s

/-- `n` bytes at `a` as they will stand at CADENCE `at_`. -/
def State.peek (s : State) (die at_ a n : Nat) : List Byte := (s.ahead die at_).readBytes a n

/-- The drafting command that eight bytes hold (R330, R464). -/
def draftingOf (bs : List Byte) : Except Reject Instr :=
  decodeDrafting (leNat (bs.take 4)) (some (leNat (bs.drop 4)))

/-- Commands of a hub in its port or on their way into it (R289, R466). -/
def State.portLoad (s : State) (die hub : Nat) : Nat :=
  (s.hub die hub).port.length +
  (s.agenda.filter fun d => decide (d.die = die) && decide (d.hub = hub) &&
    (match d.act with | .push .. => true | .portEnter .. => true | _ => false)).length

/-- The fault of the command that PUSH will sample at n + 2, as far as the agenda shows at n: illegal first, then poisoned (R333,
R362). -/
def State.pushFault (s : State) (a : Nat) : Option (Nat × Nat) :=
  match draftingOf (s.peek s.cur.die (s.now + 2) a 8) with
  | .error _ => some (0x01, 2)
  | .ok _ => if (s.ahead s.cur.die (s.now + 2)).poisoned a 8 then some (0x0A, 3) else none

/-- PUSH with its pointer read (R362). A bad command raises its fault when it is sampled, at n + 2, with n as fault mark. In a counted
launch the core stops at the PUSH itself where what will stand there shows at n (DEDUCED, log 19). -/
def doPush (x : Nat) (s : State) : State :=
  match s.translate s.cur.die s.cur.hub .drafting x 8 8 with
  | .error c => s.coreFault 0x0B c []
  | .ok t =>
    match s.violation s.cur.die s.cur.hub 0 .read t.addr 8 with
    | some c => s.coreFault 0x02 c []
    | none =>
      match (if s.curHub.launch.timed then none else s.pushFault t.addr) with
      | some (k, c) => s.coreFaultAs k c 6 (s.curHub.drDetail 0) []
      | none =>
        if 8 ≤ s.portLoad s.cur.die s.cur.hub then s.waitOn (.push x)
        else (s.later 2 (.push t.addr s.mark)).advance 1

/-- PUSH (R362). -/
def execPush (d : R6) (s : State) : Res :=
  let x := s.readS d
  if !s.hasUnit 6 then .next (s.coreFault 0x01 1 [])
  else if x.p then .next (s.coreFault 0x0A 2 [])
  else .next (doPush x.v.toNat s)

/-- The unit whose timeline `q` names (R290). -/
def unitOf : Nat → Nat
  | 0 => 2 | 1 => 1 | 2 => 3 | 3 => 4 | 4 => 5 | 5 => 6 | _ => 7

/-- TLWAIT (R363). -/
def execTlwait (d q : R6) (i : BitVec 14) (s : State) : Res :=
  let x := s.readS d
  if !s.hasUnit (unitOf q.toNat) then .next (s.coreFault 0x01 1 [])
  else if x.p then .next (s.coreFault 0x0A 2 [])
  else
    let target := (x.v + zext64 i).toNat
    if target ≤ (s.curHub.timeline q.toNat).count then .next (s.advance 1)
    else .next (s.waitOn (.timeline q.toNat target))

/-- TLREAD (R364). -/
def execTlread (d q : R6) (s : State) : Res :=
  .next ((s.writeS d 2 (BitVec.ofNat 64 (s.curHub.timeline q.toNat).count) false).advance 1)
/-- TLREAD.fail (R290, R364). -/
def execTlreadFail (d q : R6) (s : State) : Res :=
  .next ((s.writeS d 2 (if (s.curHub.timeline q.toNat).fail then 1 else 0) false).advance 1)

/-- TAG of a reply entry (R286). -/
def tagOf (r : Reply) : W64 :=
  BitVec.ofNat 64 (r.eng % 8 * 2 ^ 61 + r.stat % 32 * 2 ^ 56 + bitOf r.psn * 2 ^ 55 + r.seq % 2 ^ 55)

/-- POP takes the oldest entry in this scy (R365). -/
def takeReply (d : Nat) (s : State) : State :=
  match s.curHub.replies with
  | [] => s.waitOn (.pop d)
  | r :: rest =>
    ((s.setCurHub { s.curHub with replies := rest }).later 2 (.regS d r.value r.psn)).advance 1

/-- POP.tag reads the oldest entry's TAG in this scy (R365). -/
def takeTag (d : Nat) (s : State) : State :=
  match s.curHub.replies with
  | [] => s.waitOn (.popTag d)
  | r :: _ => (s.later 2 (.regS d (tagOf r) false)).advance 1

/-- POP (R365). -/
def execPop (d : R6) (s : State) : Res := .next (takeReply d.toNat s)
/-- POP.tag (R365). -/
def execPopTag (d : R6) (s : State) : Res := .next (takeTag d.toNat s)
/-- PEEKQ (R366). -/
def execPeekq (d : R6) (s : State) : Res :=
  .next ((s.writeS d 1 (BitVec.ofNat 64 s.curHub.replies.length) false).advance 1)

end Sys2Proof.Machine
end

