-- ==== Sys2Proof/Machine/EngineOps.lean ====
section
/-! DEFINITION. What the engine words share: the issue of a word in its stream (R166, R174, R330), the
timelines (R232, R290), and a fault of an engine's word (R240, R245, R291). -/

namespace Sys2Proof.Machine

open Sys2Proof

/-- Scy between the issue slots of the stream at hand: 2 in alternating mode (R166). -/
def State.period (s : State) : Nat := if s.alternates s.cur.die s.cur.hub s.cur.eng then 2 else 1

/-- Ends the issue of a word of `w` stored words that takes `c` issue slots (R330). -/
def State.retire (s : State) (w c : Nat) : State :=
  let h := s.curHub
  let e := s.curEng
  let len := (h.segment (sectionOf s.cur.eng) (e.seg.getD 0)).2
  let e' := { e with
    pos := e.pos + w, next := s.now + c * s.period, free := s.now + (c - 1) * s.period + 1,
    seg := if len ≤ e.pos + w then none else e.seg }
  s.setCurHub { h.setStream s.cur.eng e' with tan := if s.cur.eng = 1 then none else h.tan }

/-- Counts an operation of timeline `q` as issued; its number is the new count of issued operations (R232). -/
def Hub.issueOp (h : Hub) (q : Nat) : Hub :=
  let t := h.timeline q
  h.setTimeline q { t with issued := t.issued + 1 }

/-- Moves the count over every operation that has ended in order (R232). -/
def settleCount : Nat → Nat → List Nat → Nat × List Nat
  | 0, c, early => (c, early)
  | f + 1, c, early => if early.contains (c + 1) then settleCount f (c + 1) (early.filter fun n => decide (n ≠ c + 1)) else (c, early)

/-- Operation `n` of a timeline has ended (R232). -/
def Timeline.finish (t : Timeline) (n : Nat) : Timeline :=
  let r := settleCount (t.early.length + 1) t.count (n :: t.early)
  { t with count := r.1, early := r.2 }

/-- Operation `n` of a hub's timeline `q` has ended. -/
def State.finishOp (s : State) (die hub q n : Nat) : State :=
  let h := s.hub die hub
  s.setHub die hub (h.setTimeline q ((h.timeline q).finish n))

/-- The number of the next operation of the engine at hand. -/
def State.nextOp (s : State) : Nat := (s.curHub.timeline (timelineOf s.cur.eng)).issued + 1

/-- Issues an operation of the engine at hand. -/
def State.issueOp (s : State) : State := s.setCurHub (s.curHub.issueOp (timelineOf s.cur.eng))

/-- A fault of the word at hand: it is not performed; in a timed launch the stream goes on (R240, R245). `low`
is DETAIL [15:0] of R291; the word holds `w` stored words and `c` issue slots. -/
def State.engFault (s : State) (kind sub low w c : Nat) (dests : List (Nat × Act)) : State :=
  let f : FaultAt := ⟨kind, sub, s.cur.eng, detailOf (s.curEng.seg.getD 0) s.wordIdx (min low 0xFFFF), s.mark⟩
  let t := s.takeFault s.cur.die s.cur.hub f dests
  if s.curHub.launch.timed then t.retire w c else t

end Sys2Proof.Machine
end

