-- ==== Sys2Proof/Machine/Phase.lean ====
section
/-! DEFINITION. Phase blocks, the sets they open and the set directory (R181 to R186, R370). -/

namespace Sys2Proof.Machine

open Sys2Proof

/-- The engines that a header mask names, ascending (R181). -/
def maskEngines (m : Nat) : List Nat := (List.range 7).filter fun e => m.testBit e

/-- Bytes of a phase block with a header mask. -/
def blockSize (m : Nat) : Nat := 64 + 128 * (maskEngines m).length

/-- One 16-byte range of a phase block: none when unused; an error is the kind and subcode (R181). `wr` says
that it stands among the write ranges. -/
def State.rangeOf (s : State) (die hub : Nat) (wr : Bool) (base word : Nat) : Except (Nat × Nat) (List Range) :=
  if !word.testBit 63 then (if base = 0 ∧ word = 0 then .ok [] else .error (0x01, 5))
  else
    let h := s.hub die hub
    let l := h.launch
    let len := word % 2 ^ 32
    let sp := ptrSpace base
    let at_ := word.testBit 62
    let allh := word.testBit 61
    let alld := word.testBit 60
    if bits word 59 32 ≠ 0 ∨ len = 0 ∨ len % 64 ≠ 0 ∨ base % 64 ≠ 0 ∨ 5 ≤ sp ∨ (at_ ∧ !wr) ∨ (alld ∧ !allh) then
      .error (0x01, 5)
    else
      match s.owner die hub l.part base with
      | .error _ => .error (0x01, 5)
      | .ok (home, limit, q) =>
        let o := ptrOff base
        if limit < o + len then .error (0x01, 5)
        else
          -- dies and homes that the flags add (R181)
          let dies := if alld then
              l.hubset.filterMap fun x =>
                match s.phys l.part x.1 with
                | some p => if s.kind p = s.kind q then some (p, x.2) else none
                | none => none
            else if allh then
              l.hubset.filterMap fun x => if s.phys l.part x.1 = some q then some (q, x.2) else none
            else []
          let homes := dies.flatMap fun x =>
            match sp with
            | 2 => [homeBuf x.1]
            | 4 => [homeBuf x.1]
            | 3 => ((List.range 8).filter fun i => x.2.testBit i).map fun i => homeWeight x.1 (i / 2)
            | _ => ((List.range 8).filter fun i => x.2.testBit i).map fun i => homeScratch (s.kind x.1) x.1 i
          let all := (home :: homes).eraseDups
          -- a slot that any of the ranges names must be valid on its own B-die (R217)
          if sp = 4 ∧ !(all.all fun hm => (linesOf o len).all fun ln => s.slotValid (homeDie hm) (ln / 1024)) then .error (0x0B, 8)
          else .ok (all.map fun hm => ⟨flat hm o, len, at_, wr, decide (sp = 4)⟩)

/-- The ranges of one engine's part: four read ranges, then four write ranges (R181). -/
def State.partOf (s : State) (die hub x : Nat) : Nat → Except (Nat × Nat) (List Range)
  | 0 => .ok []
  | i + 1 =>
    match s.partOf die hub x i with
    | .error e => .error e
    | .ok rs =>
      match s.rangeOf die hub (decide (4 ≤ i)) (s.readNat (x + 16 * i) 8) (s.readNat (x + 16 * i + 8) 8) with
      | .error e => .error e
      | .ok r => .ok (rs ++ r)

/-- The parts of a block's engines, from flat address `x` (R181). -/
def State.partsOf (s : State) (die hub : Nat) : Nat → List Nat → Except (Nat × Nat) Sets
  | _, [] => .ok []
  | x, e :: r =>
    match s.partOf die hub x 8 with
    | .error c => .error c
    | .ok rs =>
      match s.partsOf die hub (x + 128) r with
      | .error c => .error c
      | .ok more => .ok (rs.map (fun g => (e, g)) ++ more)

/-- The sets that the block at flat address `x` declares, or the fault (R181, R370): poison of the header, a block that runs past
the end of the scratchpad, poison of its parts, then its fields (log 105). -/
def State.blockSets (s : State) (die hub x : Nat) : Except (Nat × Nat) Sets :=
  let head := s.readNat x 8
  let m := head % 128
  if s.poisoned x 64 then .error (0x0A, 2)
  else if (s.kind die).scratchSize < x % 2 ^ 64 + blockSize m then .error (0x0B, 3)
  else if s.poisoned x (blockSize m) then .error (0x0A, 2)
  else if head / 128 ≠ 0 ∨ s.readNat (x + 8) 56 ≠ 0 then .error (0x01, 5)
  else
    s.partsOf die hub (x + 64) (maskEngines m)

/-- The slot tables of the B-dies, by position. -/
def State.slotTags (s : State) : SMap (SMap Nat) := s.dies.filterMap fun e => if e.2.tags.isEmpty then none else some (e.1, e.2.tags)

/-- The state as a word sees it that issued with these slot tables (R181, R217). -/
def State.withTags (s : State) (tags : SMap (SMap Nat)) : State :=
  { s with dies := s.dies.map fun e => (e.1, { e.2 with tags := SMap.get [] tags e.1 }) }

/-- The subcode of a set conflict between a new range and one of another hub (R184). Subcode 3 never stands alone:
a conflict of an atomic range, which is a write range, with a plain one is a conflict 1 or 2 too, and the lowest
is reported (R185). -/
def conflictOf (new old : Range) : Option Nat :=
  if !new.overlaps old then none
  else if new.wr && old.wr then (if new.at_ && old.at_ then none else some 1)
  else if new.wr || old.wr then some 2
  else none

/-- The lower of two subcodes. -/
def lowest (a b : Option Nat) : Option Nat :=
  match a, b with
  | none, y => y
  | x, none => x
  | some x, some y => some (min x y)

/-- The phase that sets of a hub, declared by the PHASE of mark `t` at `pc`, stand for in the directory (R184, R186). -/
def State.phaseOf (s : State) (die hub t pc : Nat) (sets : Sets) : Phase :=
  let h := s.hub die hub
  let l := h.launch
  ⟨8 * die + hub, h.lpos, l.qid, if l.timed then some t else none, pc, sets, l.tk, h.tstride.toNat⟩

/-- The set conflict of two phases, images included, lowest subcode first (R184 to R186). -/
def Phase.conflict (new old : Phase) : Option Nat :=
  new.ranges.foldl (fun acc x => old.ranges.foldl (fun acc y => lowest acc (conflictOf x y)) acc) none

/-- Of two PHASEs of one timed launch, the one that the directory takes first: by issue mark, logical position and hub. The pulses
in which their dies begin a mark do not matter (R2, R185). -/
def Phase.first (a b : Phase) : Bool :=
  match a.at_, b.at_ with
  | some t, some u => if t ≠ u then decide (t < u) else if a.lpos ≠ b.lpos then decide (a.lpos < b.lpos) else decide (a.hub < b.hub)
  | _, _ => true

/-- An open phase of another hub that the directory took before `new`. -/
def Phase.before (old new : Phase) : Bool := old.other new.hub new.qid && (decide (old.qid ≠ new.qid) || old.first new)

/-- The set conflict that a new phase meets in the directory of its partition (R184 to R186). -/
def State.conflict (s : State) (part : Nat) (new : Phase) : Option Nat :=
  ((s.part part).phases.filter fun ph => ph.before new).foldl (fun acc ph => lowest acc (new.conflict ph)) none

/-- k.tstride takes a value: the images of the hub's open phase move with it (R186, R223). -/
def State.setStride (s : State) (die hub : Nat) (v : W64) : State :=
  let h := s.hub die hub
  let p := s.part h.launch.part
  (s.setPart h.launch.part
    { p with phases := p.phases.map fun ph => if ph.other (8 * die + hub) h.launch.qid then ph else { ph with stride := v.toNat } }).setHub
    die hub { h with tstride := v }

/-- The directory no longer holds the phase of a hub (R182). -/
def State.withdrawPhase (s : State) (die hub : Nat) : State :=
  let l := (s.hub die hub).launch
  let p := s.part l.part
  s.setPart l.part { p with phases := p.phases.filter fun ph => ph.other (8 * die + hub) l.qid }

/-- A hub's phase closes: the directory gives it up, and its sets are empty (R182). -/
def State.closePhase (s : State) (die hub : Nat) : State :=
  (s.withdrawPhase die hub).setHub die hub { s.hub die hub with sets := [] }

/-- The directory holds a hub's new phase, and its sets are in force (R182, R184). -/
def State.openPhase (s : State) (die hub t pc : Nat) (sets : Sets) : State :=
  let h := s.hub die hub
  let u := s.withdrawPhase die hub
  let p := u.part h.launch.part
  (u.setPart h.launch.part { p with phases := p.phases ++ [s.phaseOf die hub t pc sets] }).setHub
    die hub { h with sets := sets, setsAt := t, pendSets := SMap.drop h.pendSets t }

/-- The directory withdraws the sets of a PHASE that met a conflict, where they are still in force (R185). -/
def State.withdrawSets (s : State) (die hub t : Nat) : State := if (s.hub die hub).setsAt = t then s.closePhase die hub else s

/-- A die has halted: the directory withdraws the sets of its hubs' refused PHASEs (R185). -/
def State.withdrawRefused (s : State) (die : Nat) : State :=
  (List.range 8).foldl (fun (s : State) k =>
    match (s.hub die k).refused with
    | some t =>
      let u := s.withdrawSets die k t
      u.setHub die k { u.hub die k with refused := none }
    | none => s) s

/-- A PHASE has issued: its block is sampled from n + 2, the current phase closes at the end of n + 7 and the new sets are in force
from n + 8. In a counted launch, whose current phase stays where the directory finds a conflict, the check at n + 8 closes it
(R181, R182, R185; log 101). -/
def issuePhase (block : Nat) (s : State) : State :=
  let s := s.later 2 (.phaseSample block s.mark (s.curHub.pc % 2 ^ 32) s.slotTags)
  if s.curHub.launch.timed then s.later 8 .phaseClose else s

/-- PHASE (R370). In a timed launch the block is sampled from n + 2 and the sets are in force from n + 8; in a
counted launch the control core waits for the directory (R185). -/
def execPhase (a : R6) (i : BitVec 8) (s : State) : Res :=
  let x := s.readS a
  if x.p then .next (s.coreFault 0x0A 2 [])
  else
    match eaOf x.v.toNat (i.toInt * 64) with
    | none => .next (s.coreFault 0x0B 3 [])
    | some p =>
      if ptrSpace p ≠ 0 ∨ p % 64 ≠ 0 then .next (s.coreFault 0x01 5 [])
      else
        match s.translate s.cur.die s.cur.hub .ldst p 64 1 with
        | .error c => .next (s.coreFault 0x0B c [])
        | .ok t =>
          let s' := issuePhase t.addr s
          if s.curHub.launch.timed then .next (s'.advance 1) else .next (s'.waitOn (.phase t.addr s.mark))

end Sys2Proof.Machine
end

