-- ==== Sys2Proof/Machine/Bulk.lean ====
section
/-! DEFINITION. What the transfer, index and drafting engines share: writes of scattered bytes (R256), the
reply queue and its ports (R286 to R288), and words that wait to issue. -/

namespace Sys2Proof.Machine

open Sys2Proof

/-! ### Scattered writes -/

/-- Writes runs of bytes at flat addresses, in order; the last run to a byte stands. -/
def writeRuns (m : List Host.Cell) : List (Nat × List Byte) → List Host.Cell
  | [] => m
  | (a, bs) :: r => writeRuns (Memory.writeAll m a bs) r

/-- The lines that runs touch. -/
def runLines (rs : List (Nat × List Byte)) : List Nat := (rs.flatMap fun r => linesOf r.1 r.2.length).eraseDups

/-- Every byte of a line is written by some run. -/
def coversLine (rs : List (Nat × List Byte)) (l : Nat) : Bool :=
  (List.range 64).all fun i => rs.any fun r => decide (r.1 ≤ 64 * l + i ∧ 64 * l + i < r.1 + r.2.length)

/-- The poison of lines after one write made of several runs (R256). -/
def poisonRuns (m : SMap Bool) (rs : List (Nat × List Byte)) (p : Bool) : List Nat → SMap Bool
  | [] => m
  | l :: r =>
    poisonRuns (if p then SMap.set false m l true else if coversLine rs l then SMap.set false m l false else m) rs p r

/-- The memory before a write made of runs: each of the HBM units `ls` that the present key has not written, and that the write
covers in part, is decrypted under the present key and written back whole (R128). -/
def State.rewrittenRuns (s : State) (rs : List (Nat × List Byte)) : List Nat → List Host.Cell
  | [] => s.mem
  | l :: r =>
    let d := s.die (homeDie (homeOf (64 * l)))
    if SMap.get 0 s.epochs l = d.epoch ∨ coversLine rs l then s.rewrittenRuns rs r
    else Memory.writeAll (s.rewrittenRuns rs r) (64 * l) ((List.range 64).map fun i => d.blankByte (64 * l + i))

/-- Performs runs of bytes as one write (R220, R254, R256): a poisoned one poisons every line it writes, a
clean one clears the lines that it covers. A line that is written whole has no error any more (R195). -/
def State.writeScatter (s : State) (rs : List (Nat × List Byte)) (p : Bool) : State :=
  let ls := runLines rs
  let sram := ls.filter fun l => isSram (homeOf (64 * l))
  let hbm := ls.filter fun l => isHbm (homeOf (64 * l))
  { s with
    mem := writeRuns (s.rewrittenRuns rs hbm) rs
    lines := poisonRuns s.lines rs p sram
    ecc := if s.ecc.isEmpty then s.ecc else s.ecc.filter fun e => !coversLine rs e.1
    epochs := hbm.foldl (fun m l => SMap.set 0 m l (s.die (homeDie (homeOf (64 * l)))).epoch) s.epochs }

/-! ### The reply queue (R286 to R288) -/

/-- The reply port of an engine holds a waiting entry (R288). -/
def Hub.portFull (h : Hub) (e : Nat) : Bool := (SMap.find e h.ports).isSome

/-- Pushes the entry of an operation of an engine, which ends with it; a full queue leaves it in the port, behind those that wait
there (R287, R288). -/
def State.pushReply (s : State) (die hub e : Nat) (x : Reply) : State :=
  let h := s.hub die hub
  match SMap.find e h.ports with
  | some p => s.setHub die hub { h with ports := SMap.put h.ports e { p with behind := p.behind ++ [x] } }
  | none =>
    if h.replies.length < 16 then
      (s.setHub die hub { h with replies := h.replies ++ [x] }).finishOp die hub (timelineOf e) x.seq
    else s.setHub die hub { h with ports := SMap.put h.ports e { entry := x, op := x.seq } }

/-- A port after its entry has entered the queue: the next one that waits takes its place, the drafting unit's held entry among
them (R288). -/
def Hub.nextInPort (h : Hub) (e : Nat) (p : Port) : Hub :=
  match p.behind with
  | x :: r => { h with ports := SMap.put h.ports e { entry := x, op := x.seq, behind := r } }
  | [] =>
    match (if e = 6 then h.drHeld else none) with
    | some x => { h with ports := SMap.put h.ports e { entry := x, op := x.seq }, drHeld := none }
    | none => { h with ports := SMap.drop h.ports e }

/-- A waiting entry enters the queue where room has appeared, and its operation ends (R288). -/
def execReplyPortEntry (s : State) : Res :=
  let h := s.hub s.arg.die s.arg.hub
  match SMap.find s.arg.eng h.ports with
  | some x =>
    if h.replies.length < 16 then
      .next ((s.setHub s.arg.die s.arg.hub
        { h.nextInPort s.arg.eng x with replies := h.replies ++ [x.entry] }).finishOp
          s.arg.die s.arg.hub (timelineOf s.arg.eng) x.op)
    else .next s
  | none => .next s

/-- The word at hand does not issue in this scy (R288, R440). -/
def State.holdWord (s : State) : State :=
  let h := s.curHub
  s.setCurHub (h.setStream s.cur.eng { h.stream s.cur.eng with next := s.now + 1 })

end Sys2Proof.Machine
end

