-- ==== Sys2Proof/Machine/System.lean ====
section
/-! DEFINITION. Identity, control registers, cadence, ordering, item end and program exits
(R167, R201, R371 to R382), with the conditions that end their waits. -/

namespace Sys2Proof.Machine

open Sys2Proof

/-- WID: the current item's field, work identifier or ordinal (R371). -/
def widOf (t : Item) (e : Nat) : W64 :=
  if e < 6 then t.fields.getD e 0 else if e = 6 then t.wid else BitVec.ofNat 64 t.ord

def execWid (d : R6) (i : BitVec 14) (s : State) : Res :=
  .next ((s.writeS d 1 (widOf (s.curHub.item.getD {}) i.toNat) false).advance 1)

/-- The code of a handle's state in k.hstat (R201, R203). -/
def HState.code : HState → Nat
  | .invalid => 0 | .valid => 1 | .poison => 2 | .np => 3 | .deny => 4 | .shot => 5

/-- k.promise: byte j is P of class j ÷ 64 (R201). -/
def promiseReg : Nat := leNat ((List.range 8).map fun j => BitVec.ofNat 8 (Config.promise j / 64))

/-- The value of a control register of a hub; `xlgen` counts the XLRETRY events of its partition (R167, R201). -/
def Hub.csr (h : Hub) (xlgen k : Nat) : W64 :=
  let t := h.item.getD {}
  let l := t.launch
  match k with
  | 0x10 => l.args
  | 0x11 => BitVec.ofNat 64 t.team
  | 0x12 => BitVec.ofNat 64 t.trank
  | 0x13 => BitVec.ofNat 64 l.tsize
  | 0x14 => BitVec.ofNat 64 l.nteam
  | 0x15 => BitVec.ofNat 64 l.nitem
  | 0x16 => BitVec.ofNat 64 (if l.timed then l.lbase else 0)
  | 0x17 => BitVec.ofNat 64 t.start
  | 0x18 => BitVec.ofNat 64 l.tk
  | 0x19 => BitVec.ofNat 64 l.ltag
  | 0x1A => BitVec.ofNat 64 promiseReg
  | 0x1B => BitVec.ofNat 64 ((List.range 16).foldl (fun a i => a + (SMap.get {} h.handles i).st.code * 2 ^ (3 * i)) 0)
  | 0x1C => BitVec.ofNat 64 (xlgen % 2 ^ 32)
  | _ => h.tstride

/-- CSRR (R372). -/
def execCsrr (k : BitVec 14) (a : R6) (s : State) : Res :=
  .next ((s.writeS a 1 (s.curHub.csr (s.part s.curHub.launch.part).xlgen k.toNat) false).advance 1)

/-- CSRW: k.tstride alone takes writes, with bits [5:0] and [63:48] at 0; any other number is an illegal encoding, which is checked
first (R167, R201, R218, R342, R372). -/
def execCsrw (k : BitVec 14) (a : R6) (s : State) : Res :=
  let x := s.readS a
  if k.toNat ≠ 0x1D then .next (s.coreFault 0x01 4 [])
  else if x.p then .next (s.coreFault 0x0A 2 [])
  else if x.v.toNat % 64 ≠ 0 ∨ 2 ^ 48 ≤ x.v.toNat then .next (s.coreFault 0x01 4 [])
  else .next ((s.later 1 (.tstride x.v)).advance 1)

/-- NOP (R382). -/
def execNop (s : State) : Res := .next (s.advance 1)

/-- MARK: the STX, AMO and CAS not yet performed; a mark over none is closed at once (R228, R377). -/
def execMark (s : State) : Res :=
  let h := s.curHub
  let ids := (h.accesses.filter (·.store)).map (·.id)
  .next ((s.setCurHub { h with mark := if ids.isEmpty then h.mark else some ids }).advance 1)

/-- A queued access's target lies within a scope: 0 hub, 1 die, 2 pkg, 3 sys (R222). -/
def inScope (k : Config.Kind) (die hub sc : Nat) (e : QEntry) : Bool :=
  match sc with
  | 0 => decide (e.home = homeScratch k die hub)
  | 1 => decide (e.target = die)
  | 2 => decide (e.target ≠ 48)
  | _ => true

/-- ST of a hub, and STX, AMO and CAS that go as timed requests, that are not yet performed at their targets: a hub's
writes are told by its logical position and the partition of the die that takes them. -/
def State.openStores (s : State) (die hub : Nat) : Bool :=
  let h := s.hub die hub
  s.agenda.any fun d =>
    match d.act with
    | .write .. => decide (d.eng = 0) && decide (d.hub = hub) && decide (d.lpos = h.lpos) &&
        (decide (d.die = die) || (s.logical h.launch.part d.die).isSome)
    | .amo q => decide (q.die = die) && decide (q.hub = hub)
    | _ => false

/-- Every earlier access within the scope is complete (R229); in a timed launch only counted accesses count
(R224, R230). -/
def State.fenceMet (s : State) (die hub sc : Nat) : Bool :=
  let h := s.hub die hub
  !(h.accesses.any (inScope (s.kind die) die hub sc)) && (h.launch.timed || !s.openStores die hub)

/-- FENCE (R229, R377). FENCE.sys sends the flushing read of R231 behind the hub's host writes, and waits for it. -/
def execFence (sc : BitVec 2) (s : State) : Res :=
  let s :=
    if sc = 3 ∧ s.curHub.posted then
      let u := s.setCurHub { s.curHub with posted := false }
      u.sendQueued { u.packet 0xD 48 (flat (homeHost u.curHub.launch.part (some u.curHub.launch.pasid)) 0) 0 with n := 0 } false true
    else s
  if s.fenceMet s.cur.die s.cur.hub sc.toNat then .next (s.advance 1) else .next (s.waitOn (.fence sc.toNat))

/-- TRAPREC takes a trap (R381). -/
def Part.takeTrap (p : Part) (code lpos hub slot pc : Nat) : Part :=
  if p.trapV then { p with trapMore := true }
  else
    { p with
      trapV := true, trapMore := false
      trap := BitVec.ofNat 64 (code % 2 ^ 14 * 2 ^ 48 + lpos % 64 * 2 ^ 42 + hub % 8 * 2 ^ 39 + slot % 16 * 2 ^ 35 + pc % 2 ^ 32) }

/-- TRAP (R380): in a counted launch the control core stops and the launch aborts once its other items have
ended; in a timed launch the paceline halts at the issue mark + 256 and the H-die then aborts the launch. -/
def execTrap (k : BitVec 14) (s : State) : Res :=
  let h := s.curHub
  let l := h.launch
  let s := s.setPart l.part ((s.part l.part).takeTrap k.toNat h.lpos s.cur.hub l.slot h.pc)
  if l.timed then
    .next (((s.setPl l.plid { s.pl l.plid with trap := true }).raiseHalt s.cur.die s.mark).advance 1)
  else .next ((s.stopHub s.cur.die s.cur.hub 0).markAbort l.slot)

/-- The scope of a barrier at a level for a hub: team number, die or launch (R176). -/
def barScope (t : Item) (die level : Nat) : Nat := if level = 0 then t.team else if level = 1 then die else 0

/-- Hubs of a launch that hold an item in a barrier's scope (R176), by 8 × position + hub. -/
def State.barHubs (s : State) (slot level scope : Nat) : List Nat :=
  s.hubs.filterMap fun e =>
    match e.2.item with
    | some t => if t.launch.slot = slot ∧ barScope t (e.1 / 8) level = scope then some e.1 else none
    | none => none

/-- The same barrier. -/
def Barrier.is (b : Barrier) (slot level id scope : Nat) : Bool :=
  decide (b.slot = slot) && decide (b.level = level) && decide (b.id = id) && decide (b.scope = scope)

/-- Every participant that still holds an item and has not executed DONE has arrived (R176). -/
def Barrier.full (b : Barrier) : Bool := b.parts.all fun k => b.arrived.any fun a => a.1 == k

/-- The release mark of a full generation in a timed launch: the latest arrival mark plus the level's latency (R177). -/
def Barrier.releaseMark (b : Barrier) : Nat :=
  (b.arrived.map (·.2)).foldl max 0 + if b.level = 0 then 2 else if b.level = 1 then 16 else 416

/-- The release of a full generation: in a timed launch at the release mark, on every die of its participants, since marks of
two members need not begin in one pulse; otherwise after the counted channel's time (R177). -/
def State.scheduleRelease (s : State) (part : Nat) (timed : Bool) (b : Barrier) : State :=
  let arg : Arg := { slot := b.slot, m := b.level, n := b.id, team := b.scope, part := part, off := b.releaseMark }
  if timed then
    ((b.arrived.map fun a => a.1 / 8).eraseDups).foldl (fun (s : State) p =>
      s.post p (s.cadOf p b.releaseMark) 0 0 0 (.ev .barrierRelease { arg with die := p })) s
  else (s.after s.transit .barrierRelease arg).useFree

/-- A hub that executes DONE leaves every open generation (R176); one that this fills is released. -/
def State.leaveBarriers (s : State) (die hub : Nat) : List Barrier → State
  | [] => s
  | b :: r =>
    let l := (s.hub die hub).launch
    let key := 8 * die + hub
    let s :=
      if b.slot = l.slot ∧ b.parts.contains key then
        let b' := { b with parts := b.parts.filter fun k => decide (k ≠ key) }
        let p := s.part l.part
        let s := s.setPart l.part { p with barriers := p.barriers.map fun x => if x = b then b' else x }
        if b'.full && !b.full then s.scheduleRelease l.part l.timed b' else s
      else s
    s.leaveBarriers die hub r

/-- DONE's condition: every earlier ST, STX, AMO and CAS has been performed (R234). -/
def State.doneMet (s : State) (die hub : Nat) : Bool :=
  !((s.hub die hub).accesses.any (·.store)) && !s.openStores die hub

/-- What DONE discards of what the hub still has under way (R234, R378): an LDX that is not yet sampled, by its sample or, of the
counted accesses `ids`, by its deadline; a sampled one by its register write. -/
def Due.ofDone (d : Due) (die hub : Nat) (ids : List Nat) : Bool :=
  match d.act with
  | .sample _ _ (.ldx d2 h2 _ _) => decide (d2 = die) && decide (h2 = hub)
  | .load .. => decide (d.die = die) && decide (d.hub = hub)
  | .ev .countedReplyDeadline a => decide (d.die = die) && decide (d.hub = hub) && ids.contains a.n
  | _ => false

/-- DONE takes effect (R234, R378): the directory closes the phase, an open packet is discarded with its record, loops
end, reply entries and every LDX not yet written are discarded, and the core issues no more in the item. Segments that go on
after DONE are still checked against the sets that they had, as the program of R503 to R505 needs, and a PHASE that issued less
than 8 scy before still comes into force, as R182 says of every PHASE (DEDUCED, log 30); an LD is no LDX and still writes. -/
def State.finishDone (s : State) (die hub : Nat) : State :=
  let h := s.hub die hub
  let s := if h.packet.isSome then
      s.sendReport (s.report die hub ⟨0x12, 5, 0, h.pc, s.markOf die⟩ false)
    else s
  let s := s.withdrawPhase die hub
  let s := s.leaveBarriers die hub (s.part h.launch.part).barriers
  let h := s.hub die hub
  let ids := h.accesses.map (·.id)
  let s := s.setHub die hub { h with
    packet := none, loops := [], replies := [], accesses := [], mark := none, wait := .none, run := .idle }
  { s with agenda := s.agenda.filter fun d => !d.ofDone die hub ids }

/-- DONE (R378). -/
def doDone (s : State) : State :=
  if s.doneMet s.cur.die s.cur.hub then s.finishDone s.cur.die s.cur.hub else s.waitOn .done

def execDone (s : State) : Res := .next (doDone s)

/-- HALT takes effect: as DONE, and in a counted launch placement ends (R379). -/
def State.finishHalt (s : State) (die hub : Nat) : State :=
  let l := (s.hub die hub).launch
  let x := s.slot l.slot
  (if l.timed then s else s.setSlot l.slot { x with run := x.run.map fun r => { r with halt := true } }).finishDone die hub

/-- HALT (R379). -/
def execHalt (s : State) : Res :=
  .next (if s.doneMet s.cur.die s.cur.hub then s.finishHalt s.cur.die s.cur.hub else s.waitOn .halt)

/-- CAD: the mark of scy n (R373). -/
def execCad (d : R6) (s : State) : Res :=
  .next ((s.writeS d 1 (BitVec.ofNat 64 (if s.curHub.launch.timed then s.mark else s.now)) false).advance 1)

/-- TICK: the next instruction issues at n + max(c, 1) (R374). -/
def execTick (k : BitVec 14) (a : R6) (s : State) : Res :=
  let x := s.readS a
  if x.p then .next (s.coreFault 0x0A 2 [])
  else
    let c := (x.v + zext64 k).toNat
    if c ≤ 1 then .next (s.advance 1) else .next (s.waitOn (.tick (s.now + c)))

/-- A hub waiting at BAR arrives (R176, R178): it opens a generation or joins the open one; a hub that is no
participant waits for the next. -/
def State.arrive (s : State) (die hub level id : Nat) : State :=
  let h := s.hub die hub
  let t := h.item.getD {}
  let l := t.launch
  let sc := barScope t die level
  let p := s.part l.part
  let key := 8 * die + hub
  match p.barriers.find? (·.is l.slot level id sc) with
  | none =>
    let b : Barrier := ⟨l.slot, level, id, sc, s.barHubs l.slot level sc, [(key, s.markOf die)]⟩
    let s := s.setPart l.part { p with barriers := p.barriers ++ [b] }
    if b.full then s.scheduleRelease l.part l.timed b else s
  | some b =>
    if !b.parts.contains key || b.arrived.any (·.1 == key) then s
    else
      let b' := { b with arrived := b.arrived ++ [(key, s.markOf die)] }
      let s := s.setPart l.part { p with barriers := p.barriers.map fun x => if x = b then b' else x }
      if b'.full then s.scheduleRelease l.part l.timed b' else s

/-- The stores that BAR waits for have been performed, so that every participant's later loads observe them, wherever they
went (R178). -/
def State.barMet (s : State) (die hub : Nat) : Bool :=
  !((s.hub die hub).accesses.any (·.store)) && !s.openStores die hub

/-- BAR (R176, R376). -/
def execBar (l : BitVec 2) (i : BitVec 4) (s : State) : Res :=
  let s' := s.waitOn (.bar l.toNat i.toNat)
  if s.barMet s.cur.die s.cur.hub then .next (s'.arrive s.cur.die s.cur.hub l.toNat i.toNat) else .next s'

end Sys2Proof.Machine
end

