-- ==== Sys2Proof/Machine/FabricControl.lean ====
section
/-! DEFINITION. FLOAD and FBIND (R332, R383, R482 to R484). -/

namespace Sys2Proof.Machine

open Sys2Proof

/-- Bundle `i` of section 5 (R331). -/
def Hub.bundle (h : Hub) (i : Nat) : Option (List Nat) :=
  match h.codeWord 5 (3 * i), h.codeWord 5 (3 * i + 1), h.codeWord 5 (3 * i + 2) with
  | some a, some b, some c => some [a, b, c]
  | _, _, _ => none

/-- `n` bundles from `i`; none where the section does not hold them all. -/
def Hub.bundles (h : Hub) (i : Nat) : Nat → Option (List (List Nat))
  | 0 => some []
  | n + 1 =>
    match h.bundle i, h.bundles (i + 1) n with
    | some b, some r => some (b :: r)
    | _, _ => none

/-- The register that a slot operation writes (R482). -/
def slotDest : Instr → Option Nat
  | .fadd d .. => some d.toNat
  | .fmul d .. => some d.toNat
  | .fmax d .. => some d.toNat
  | .fmin d .. => some d.toNat
  | .fcmp d .. => some d.toNat
  | .fsel d .. => some d.toNat
  | .facc d .. => some d.toNat
  | .fmov d .. => some d.toNat
  | .ftake d => some d.toNat
  | .floopb _ c f => if c = 1 then some f.toNat else none
  | .fcvt d .. => some d.toNat
  | .fzip d .. => some d.toNat
  | .funzip d .. => some d.toNat
  | _ => none

/-- A FLOOPB target at or beyond Lg. -/
def loopTooFar (lg : Nat) : Instr → Bool
  | .floopb t _ _ => decide (lg ≤ t.toNat)
  | _ => false

/-- Whether a bundle may be stored (R331, R482). -/
def bundleOk (lg : Nat) (b : List Nat) : Bool :=
  match b with
  | [x, y, z] =>
    match decodeSlotA x, decodeSlotB y, decodeSlotC z with
    | .ok i, .ok j, .ok k =>
      let ds := [slotDest i, slotDest j, slotDest k].filterMap id
      decide ds.Nodup && !(loopTooFar lg j)
    | _, _, _ => false
  | _ => false

/-- Programs of an image by MODE: one, one per row, one per element (R483). -/
def programs : Nat → Nat
  | 0 => 1 | 1 => 16 | _ => 256

/-- DETAIL of a rejected bundle: row, column and PC; zero row and column for a shared program (R291, R482). -/
def fabricDetail (mode row col pc : Nat) : Nat :=
  (if mode = 0 then 0 else row * 2 ^ 44 + (if mode = 1 then 0 else col * 2 ^ 40)) + pc * 2 ^ 34

/-- FLOAD (R383, R482, R483): subcode 1 where the image does not lie in section 5, subcode 3 where it is
rejected; else graph g holds it and the next word issues at n + 4 + ⌈G/4⌉. -/
def execFload (g : R6) (t : BitVec 16) (s : State) : Res :=
  let h := s.curHub
  if !s.hasUnit 7 then .next (s.coreFault 0x01 1 [])
  else
    match h.bundle t.toNat with
    | some [a, b, c] =>
      let lg := a % 64 + 1
      let mode := a / 64 % 4
      if a / 256 ≠ 0 ∨ b ≠ 0 ∨ c ≠ 0 ∨ mode = 3 then .next (s.coreFaultAs 0x01 3 7 0 [])
      else
        let n := lg * programs mode
        match h.bundles (t.toNat + 1) n with
        | none => .next (s.coreFault 0x01 1 [])
        | some bs =>
          match bs.findIdx? fun x => !bundleOk lg x with
          | some i =>
            let e := i / lg
            let row := if mode = 2 then e / 16 else e
            .next (s.coreFaultAs 0x01 3 7 (fabricDetail mode row (e % 16) (i % lg)) [])
          | none =>
            let x := s.xdie s.cur.die
            .next ((s.setXdie s.cur.die { x with graphs := SMap.put x.graphs g.toNat ([a, b, c] :: bs) }).advance
              (4 + ceilDiv (n + 1) 4))
    | _ => .next (s.coreFault 0x01 1 [])

/-- Fields of COLCTXc (R84). -/
def ctxValid (c : W64) : Bool := c.toNat.testBit 63
def ctxPart (c : W64) : Nat := bits c.toNat 62 59
def ctxGraph (c : W64) : Nat := bits c.toNat 58 55
def ctxIn (c : W64) : Nat := bits c.toNat 54 52
def ctxOut (c : W64) : Nat := bits c.toNat 51 49
def ctxRanks (c : W64) : Nat := bits c.toNat 48 37 + 1
def ctxMine (c : W64) : Nat := bits c.toNat 36 25
def ctxLimit (c : W64) : Nat := if bits c.toNat 15 0 = 0 then 200 else bits c.toNat 15 0

/-- A collective context of an X-die; LIMIT resets to 200 (R84). -/
def XDie.context (x : XDie) (c : Nat) : W64 := SMap.get 200 x.colctx c

/-- A context that FBIND takes for a partition (R84, R484). -/
def ctxUsable (c : W64) (part : Nat) : Bool :=
  ctxValid c && decide (ctxIn c < 5) && decide (ctxOut c < 5) && decide (1 ≤ ctxGraph c ∧ ctxGraph c ≤ 4)
    && decide (ctxPart c = part)

/-- A word of the bound context waits at the even element of its port's row (R80, R481). -/
def XDie.queueWord (x : XDie) (m : Nat) (w : SWord) : XDie :=
  let i := SMap.get 0 x.portWords m
  let n := 32 * m + i % 16
  { x with portWords := SMap.put x.portWords m (i + 1), sources := SMap.put x.sources n (SMap.get [] x.sources n ++ [w]) }

/-- The contributions that waited in the buffer for their context enter its streams (R484). -/
def XDie.takeEarly (x : XDie) (c : Nat) : XDie :=
  let ws := (x.colls.filter fun o => o.ctx == c).flatMap (·.early)
  ws.foldl (fun (x : XDie) w => x.queueWord w.1 w.2) { x with colls := x.colls.map fun o => if o.ctx = c then { o with early := [] } else o }

/-- Installs graph g for context c in every element of an X-die (R484). -/
def XDie.install (x : XDie) (g c hub : Nat) : XDie :=
  match SMap.get [] x.graphs g with
  | ([a, _, _]) :: bs =>
    let k := x.context c
    let e : Elem := { f := [(14, ⟨BitVec.ofNat 64 (ctxMine k), true⟩), (15, ⟨BitVec.ofNat 64 (ctxRanks k - 1), true⟩)] }
    { x with
      bound := some (a / 64 % 4, a % 64 + 1, bs), ctx := some c, ctxHub := SMap.put x.ctxHub c hub
      elems := (List.range 256).map fun i => (i, e), stage := [], sources := [], portWords := [] }.takeEarly c
  | _ => x

/-- An operation of the bound context is in progress (R484). -/
def XDie.busy (x : XDie) : Bool :=
  match x.ctx with
  | none => false
  | some c => x.colls.any fun o => o.ctx == c

/-- FBIND takes effect: the next word issues 64 scy after the install (R484). -/
def doFbind (g c : Nat) (s : State) : State :=
  (s.setXdie s.cur.die ((s.xdie s.cur.die).install g c s.cur.hub)).advance 64

/-- FBIND (R383, R484). -/
def execFbind (g : R6) (c : BitVec 4) (s : State) : Res :=
  let x := s.xdie s.cur.die
  if !s.hasUnit 7 then .next (s.coreFault 0x01 1 [])
  else if !ctxUsable (x.context c.toNat) s.curHub.launch.part || (SMap.get [] x.graphs g.toNat).isEmpty then
    .next (s.coreFaultAs 0x01 6 7 0 [])
  else if x.busy then .next (s.waitOn (.fbind g.toNat c.toNat))
  else .next (doFbind g.toNat c.toNat s)

end Sys2Proof.Machine
end

