-- ==== Sys2Proof/Machine/Fabric.lean ====
section
/-! DEFINITION. The slot operations of the port fabric and the end of a fabric pulse (R80 to R83, R476 to
R481). -/

namespace Sys2Proof.Machine

open Sys2Proof

/-! ### Elements and their local links -/

/-- An element of an X-die, by 16 y + x. -/
def XDie.elem (x : XDie) (n : Nat) : Elem := SMap.get {} x.elems n
def XDie.setElem (x : XDie) (n : Nat) (e : Elem) : XDie := { x with elems := SMap.put x.elems n e }
def XDie.stageOf (x : XDie) (n : Nat) : FStage := SMap.get {} x.stage n

/-- Elements of a word of a format code of R84. -/
def perWord (fmt : Nat) : Nat := if fmt = 0 then 2 else if fmt ≤ 2 then 4 else 8
/-- Bits of an element of a format code. -/
def fabBits (fmt : Nat) : Nat := 64 / perWord fmt
/-- B, the elements of a shard (R86). -/
def shardSize (count ranks : Nat) : Nat := ceilDiv count ranks
/-- Elements of shard j. -/
def shardLen (count ranks j : Nat) : Nat := min count ((j + 1) * shardSize count ranks) - j * shardSize count ranks
/-- Words of shard j in a format. -/
def shardWords (count ranks j fmt : Nat) : Nat := ceilDiv (shardLen count ranks j) (perWord fmt)

/-- The number of a context's operation that is open or is the next to begin. -/
def XDie.opNum (x : XDie) (c : Nat) : Nat := SMap.get 0 x.opNums c
/-- A context's operation by its number. -/
def XDie.opAt (x : XDie) (c n : Nat) : Option Coll := x.colls.find? fun o => o.ctx == c && o.num == n
/-- The open operation of a context on an X-die. -/
def XDie.op (x : XDie) (c : Nat) : Option Coll := x.opAt c (x.opNum c)
def XDie.setOp (x : XDie) (o : Coll) : XDie := { x with colls := x.colls.filter (fun y => !(y.ctx == o.ctx && y.num == o.num)) ++ [o] }

/-- The operation of the bound context. -/
def XDie.boundOp (x : XDie) : Option Coll := x.ctx.bind x.op
/-- The context that is bound. -/
def XDie.boundCtx (x : XDie) : W64 := (x.ctx.map x.context).getD 0

/-- The kth word of the own shard that odd element n serves (R481). -/
def servedWord (n k : Nat) : Nat := n % 16 + 16 * ((n / 16 - 1) / 2 + 8 * k)

/-- Source phase i delivers an invalid word at coasting level c (R63, R83). -/
def freewheels (c i : Nat) : Bool := decide ((i + 1) * c / 16 > i * c / 16)

/-- The word that element n's source has for its next take (R481). -/
def XDie.sourceWord (x : XDie) (n : Nat) : Option W64 :=
  if n / 16 % 2 = 0 then (SMap.get [] x.sources n).head?.map (·.v)
  else
    match x.boundOp with
    | none => none
    | some o =>
      let c := x.boundCtx
      let ranks := ctxRanks c
      let e := x.elem n
      let q := servedWord n (e.taken / ranks)
      if o.count = 0 ∨ shardWords o.count ranks (ctxMine c) (ctxIn c) ≤ q then none
      else (o.words.find? fun w => w.1 == e.taken % ranks && w.2.1 == q).map (·.2.2)

/-- The word that the local input offers in this pulse (R476, R480, R483). -/
def XDie.offered (x : XDie) (coast n : Nat) : Option W64 :=
  if freewheels coast (x.elem n).phase then none else x.sourceWord n

/-- The local output of element n can accept a word: an even element's for a word it has taken, an odd element's
for a word of the shard (R480, R481). -/
def XDie.accepts (x : XDie) (n : Nat) : Bool :=
  let e := x.elem n
  if n / 16 % 2 = 0 then !e.pend.isEmpty
  else
    match x.boundOp with
    | none => false
    | some o =>
      let c := x.boundCtx
      decide (servedWord n e.emitted < shardWords o.count (ctxRanks c) (ctxMine c) (ctxIn c))

/-! ### Slot operations -/

/-- The element at hand: the unit code of a fabric operation is 8 + its slot, its hub the element's number. -/
def State.curX (s : State) : XDie := s.xdie s.cur.die

/-- An operand; none where it is invalid (R476). -/
def State.fabOperand (s : State) (a : Nat) : Option W64 :=
  let x := s.curX
  let e := x.elem s.cur.hub
  let w : FWord := if a < 16 then SMap.get {} e.f a else SMap.get {} e.latch (a - 16)
  if a = 20 then x.offered (s.die s.cur.die).coast s.cur.hub
  else if w.ok then some w.v else none

/-- Adds to the effects of the bundle at hand. -/
def State.fabStage (s : State) (f : FStage → FStage) : State :=
  let x := s.curX
  let g := x.stageOf s.cur.hub
  s.setXdie s.cur.die { x with stage := SMap.put x.stage s.cur.hub { f g with slots := g.slots + 1 } }

/-- A result for register d; none writes nothing (R83). -/
def State.fabResult (s : State) (d : Nat) (v : Option W64) : State :=
  s.fabStage fun g => match v with
    | some w => { g with regs := g.regs ++ [(d, w)] }
    | none => g

/-- Lane i of a word. -/
def lane (w : W64) (i : Nat) : Nat := w.toNat / 2 ^ (32 * i) % 2 ^ 32
/-- A word of two lanes. -/
def ofLanes (x y : Nat) : W64 := BitVec.ofNat 64 (x % 2 ^ 32 + y % 2 ^ 32 * 2 ^ 32)
/-- A lane operation of two words. -/
def lanes2 (f : Nat → Nat → Nat) (a b : W64) : W64 := ofLanes (f (lane a 0) (lane b 0)) (f (lane a 1) (lane b 1))

/-- A slot A operation of two inputs (R477). -/
def fabBinary (d : BitVec 4) (a b : R5) (f : Nat → Nat → Nat) (s : State) : State :=
  s.fabResult d.toNat (match s.fabOperand a.toNat, s.fabOperand b.toNat with
    | some x, some y => some (lanes2 f x y)
    | _, _ => none)

/-- FNOP. -/
def execFnop (s : State) : Res := .next (s.fabStage fun g => g)
/-- FADD (R477). -/
def execFadd (d : BitVec 4) (a b : R5) (s : State) : Res := .next (fabBinary d a b (fp32.add 0) s)
/-- FMUL (R477). -/
def execFmul (d : BitVec 4) (a b : R5) (s : State) : Res := .next (fabBinary d a b (fp32.mul 0) s)
/-- The greater lane; on equality a (R477). -/
def laneMax (x y : Nat) : Nat := if fp32.isNan x || fp32.isNan y then fp32.nan else if fp32.lt x y then y else x
/-- The lesser lane; on equality a (R477). -/
def laneMin (x y : Nat) : Nat := if fp32.isNan x || fp32.isNan y then fp32.nan else if fp32.lt y x then y else x
/-- FMAX (R477). -/
def execFmax (d : BitVec 4) (a b : R5) (s : State) : Res := .next (fabBinary d a b laneMax s)
/-- FMIN (R477). -/
def execFmin (d : BitVec 4) (a b : R5) (s : State) : Res := .next (fabBinary d a b laneMin s)
/-- The relation of FCMP: 0 eq, 1 ne, 2 lt, 3 le (R477). -/
def laneCmp (c x y : Nat) : Bool :=
  match c with
  | 0 => fp32.eq x y
  | 1 => !fp32.eq x y
  | 2 => fp32.lt x y
  | _ => fp32.le x y
/-- FCMP (R477). -/
def execFcmp (d : BitVec 4) (a b : R5) (c : BitVec 2) (s : State) : Res :=
  .next (fabBinary d a b (fun x y => if laneCmp c.toNat x y then 0xFFFFFFFF else 0) s)
/-- A lane is nonzero: by encoding with the sign cleared, as R304 has it (DEDUCED, log 24). -/
def laneNonzero (x : Nat) : Bool := (ETy.fp fp32).nonzero x
/-- FSEL (R477). -/
def execFsel (d : BitVec 4) (a b c : R5) (s : State) : Res :=
  .next (s.fabResult d.toNat (match s.fabOperand a.toNat, s.fabOperand b.toNat, s.fabOperand c.toNat with
    | some x, some y, some z =>
      some (ofLanes (if laneNonzero (lane z 0) then lane x 0 else lane y 0) (if laneNonzero (lane z 1) then lane x 1 else lane y 1))
    | _, _, _ => none))
/-- FACC: fd is an input (R477). -/
def execFacc (d : BitVec 4) (a : R5) (s : State) : Res :=
  .next (s.fabResult d.toNat (match s.fabOperand d.toNat, s.fabOperand a.toNat with
    | some x, some y => some (lanes2 (fp32.add 0) x y)
    | _, _ => none))

/-- FMOV (R478). -/
def execFmov (d : BitVec 4) (a : R5) (s : State) : Res := .next (s.fabResult d.toNat (s.fabOperand a.toNat))
/-- The links that a mask names, bit 3 N, 2 E, 1 S, 0 W, as latch numbers 0 to 3 (R478). -/
def linksOf (m : Nat) : List Nat := (List.range 4).filter fun i => m.testBit (3 - i)
/-- FROUTE: each named link is driven with the word, valid bit included (R478). -/
def execFroute (a : R5) (m : BitVec 4) (s : State) : Res :=
  let w : FWord := match s.fabOperand a.toNat with
    | some v => ⟨v, true⟩
    | none => {}
  .next (s.fabStage fun g => { g with links := g.links ++ (linksOf m.toNat).map fun l => (l, w) })
/-- FTAKE: the next word of the local input; where none is offered the bundle holds (R480). -/
def execFtake (d : BitVec 4) (s : State) : Res :=
  .next (s.fabStage fun g =>
    match s.curX.offered (s.die s.cur.die).coast s.cur.hub with
    | some w => { g with regs := g.regs ++ [(d.toNat, w)], take := true }
    | none => { g with hold := true })
/-- FEMIT: an output that accepts no word holds the bundle; an invalid word sends nothing (R478, R480). -/
def execFemit (a : R5) (s : State) : Res :=
  .next (s.fabStage fun g =>
    if !s.curX.accepts s.cur.hub then { g with hold := true }
    else match s.fabOperand a.toNat with
      | some v => { g with emit := some v }
      | none => g)
/-- FLOOPB (R478). -/
def execFloopb (t : BitVec 6) (c : BitVec 1) (f : BitVec 4) (s : State) : Res :=
  .next (s.fabStage fun g =>
    if c = 0 then { g with target := some t.toNat }
    else
      match s.fabOperand f.toNat with
      | some v =>
        if 1 < v.toNat then { g with regs := g.regs ++ [(f.toNat, v - 1)], target := some t.toNat }
        else { g with regs := g.regs ++ [(f.toNat, 0)] }
      | none => g)

/-- Element j of a word in a format. -/
def fabElem (fmt : Nat) (w : W64) (j : Nat) : Nat := w.toNat / 2 ^ (fabBits fmt * j) % 2 ^ fabBits fmt
/-- A word with element j replaced. -/
def setFabElem (fmt : Nat) (w : Nat) (j v : Nat) : Nat :=
  w - (w / 2 ^ (fabBits fmt * j) % 2 ^ fabBits fmt) * 2 ^ (fabBits fmt * j) + v * 2 ^ (fabBits fmt * j)

/-- FCVT (R479). -/
def execFcvt (d : BitVec 4) (a : R5) (f t : BitVec 3) (p : BitVec 2) (s : State) : Res :=
  let j := 2 * p.toNat
  .next (s.fabResult d.toNat (match s.fabOperand a.toNat with
    | none => none
    | some x =>
      if t = 0 then
        let cv := fun i => convert (etype f.toNat) (.fp fp32) 0 (ovfOf 0) (fabElem f.toNat x i)
        some (ofLanes (cv j) (cv (j + 1)))
      else
        let old := ((s.fabOperand d.toNat).getD 0).toNat
        let cv := fun i => convert (.fp fp32) (etype t.toNat) 0 (ovfOf 0) (lane x i)
        some (BitVec.ofNat 64 (setFabElem t.toNat (setFabElem t.toNat old j (cv 0)) (j + 1) (cv 1)))))
/-- FZIP: a block of four E4M3 elements with its scale (R296, R479). -/
def execFzip (d : BitVec 4) (a b : R5) (s : State) : Res :=
  .next (s.fabResult d.toNat (match s.fabOperand a.toNat, s.fabOperand b.toNat with
    | some x, some y =>
      let k := mxPack e4m3 0 ([lane x 0, lane x 1, lane y 0, lane y 1].map fp32.decode)
      some (BitVec.ofNat 64 (k.2.zipIdx.foldl (fun v e => v + e.1 * 2 ^ (8 * e.2)) (k.1 * 2 ^ 32)))
    | _, _ => none))
/-- FUNZIP (R295, R479). -/
def execFunzip (d : BitVec 4) (a : R5) (h : BitVec 1) (s : State) : Res :=
  .next (s.fabResult d.toNat (match s.fabOperand a.toNat with
    | none => none
    | some x =>
      let cv := fun i => fp32.round .arith 0 (mxValue e4m3 (bits x.toNat 39 32) (x.toNat / 2 ^ (8 * i) % 256))
      some (ofLanes (cv (2 * h.toNat)) (cv (2 * h.toNat + 1)))))

/-! ### Issue and the end of a pulse -/

/-- The bundle of element n at its PC (R483). -/
def XDie.bundleAt (x : XDie) (n : Nat) : Option (List Nat) :=
  x.bound.bind fun (mode, lg, bs) =>
    let prog := if mode = 0 then 0 else if mode = 1 then n / 16 else n
    bs[prog * lg + (x.elem n).pc]?

/-- The first element whose bundle has a slot left in this pulse, with the slot and its word. -/
def XDie.nextSlot (x : XDie) : Option (Nat × Nat × Nat) :=
  if x.bound.isNone then none
  else
    (List.range 256).findSome? fun n =>
      let k := (x.stageOf n).slots
      if 3 ≤ k then none else ((x.bundleAt n).bind fun b => b[k]?).map fun w => (n, k, w)

/-- The element next to n over link l, and the latch it stands in there (R80): none beyond the grid. -/
def neighbour (n l : Nat) : Option (Nat × Nat) :=
  match l with
  | 0 => if 16 ≤ n then some (n - 16, 2) else none
  | 1 => if n % 16 < 15 then some (n + 1, 3) else none
  | 2 => if n < 240 then some (n + 16, 0) else none
  | _ => if 0 < n % 16 then some (n - 1, 1) else none

/-- The buffer after an emitted word: an even element's takes the place of the word it took, unless the operation has ended; an odd
element's is a result (R481). -/
def XDie.emit (x : XDie) (n : Nat) (w : W64) : XDie :=
  let e := x.elem n
  if n / 16 % 2 = 0 then
    match e.pend with
    | [] => x
    | k :: rest =>
      let y := x.setElem n { e with pend := rest, emitted := e.emitted + 1 }
      match x.ctx.bind fun c => x.opAt c k.num with
      | some o => y.setOp { o with words := o.words ++ [(k.rank, k.q, w)] }
      | none => y
  else
    let y := x.setElem n { e with emitted := e.emitted + 1 }
    match x.boundOp with
    | some o => y.setOp { o with results := o.results ++ [(servedWord n e.emitted, w)] }
    | none => y

/-- The source after a take (R481). -/
def XDie.takeWord (x : XDie) (n : Nat) : XDie :=
  let e := x.elem n
  if n / 16 % 2 = 0 then
    match SMap.get [] x.sources n with
    | [] => x
    | w :: r => { x.setElem n { e with taken := e.taken + 1, pend := e.pend ++ [w] } with sources := SMap.put x.sources n r }
  else x.setElem n { e with taken := e.taken + 1 }

/-- What a bundle did takes effect, but for the links (R82, R480). -/
def XDie.commitElem (x : XDie) (lg n : Nat) : XDie :=
  let g := x.stageOf n
  if g.hold then x
  else
    let x := if g.take then x.takeWord n else x
    let x := match g.emit with
      | some w => x.emit n w
      | none => x
    let e := x.elem n
    let pc := g.target.getD (e.pc + 1)
    x.setElem n { e with
      f := g.regs.foldl (fun m r => SMap.put m r.1 ⟨r.2, true⟩) e.f
      pc := if lg ≤ pc then 0 else pc }

/-- The words that stand in an element's latches in the next pulse: those that its neighbours drove (R82, R478). -/
def XDie.latchesOf (x : XDie) (n : Nat) : SMap FWord :=
  (List.range 4).filterMap fun l =>
    match neighbour n l with
    | none => none
    | some (m, back) =>
      let g := x.stageOf m
      if g.hold then none else (g.links.find? fun y => y.1 == back).map fun y => (l, y.2)

/-- The end of a fabric pulse (R82, R83). -/
def XDie.endPulse (x : XDie) : XDie :=
  match x.bound with
  | none => x
  | some (_, lg, _) =>
    let latches := (List.range 256).map fun n => x.latchesOf n
    let y := (List.range 256).foldl (fun (y : XDie) n => y.commitElem lg n) x
    { y with
      stage := []
      elems := (List.range 256).map fun n =>
        let e := y.elem n
        (n, { e with latch := latches.getD n [], phase := (e.phase + 1) % 16 }) }

end Sys2Proof.Machine
end

