-- ==== Sys2Proof/Machine/Stand.lean ====
section
/-! DEFINITION. Track stands (R54 to R62, R519): STAND, STAND.q and the stand events of a die. -/

namespace Sys2Proof.Machine

open Sys2Proof

/-- A fault that a member die raises (R60), with the module that its DETAIL names (0xF: none, R291): the
paceline halts. On a paceline that runs no launch a drift overrun is only recorded, with CADENCE as its mark (R61). -/
def State.dieFault (s : State) (p kind sub modl : Nat) : State :=
  let d := s.die p
  let l := s.pl d.plid
  let slot := l.slot.getD 0
  let q := (s.slot slot).qcb
  match l.slot with
  | none =>
    let halts := kind != 0x05
    (if halts then s.raiseHalt p d.cad else s).sendReport
      { kind := kind, sub := sub, part := l.part, lpos := (s.logical l.part p).getD 0,
        estat := estatOf 0 sub modl, mark := d.cad, noQueue := true, pl := if halts then some d.plid else none }
  | some _ =>
    (s.raiseHalt p (s.markOf p)).sendReport
      { kind := kind, sub := sub, part := l.part, slot := slot, lpos := (s.logical l.part p).getD 0,
        qid := q.qid, estat := estatOf 0 sub modl, mark := s.markOf p, ltag := q.ltag,
        pl := some d.plid }

/-- Hubs of a die in the hub set of the launch on its paceline (R54, R110). -/
def State.launchHubs (s : State) (p : Nat) : List Nat :=
  let l := s.pl (s.die p).plid
  match l.slot.bind fun n => (s.slot n).run with
  | none => []
  | some r =>
    let m := match s.logical r.launch.part p with
      | some x => SMap.get 0 r.launch.hubset x
      | none => 0
    (List.range 8).filter fun h => m.testBit h

/-- Every frame of an armed die carries DV = 1 and the low bits of its mark (R38, R54, R55). A neighbour reads the first of
them at the sender's mark n + 24. -/
def State.announce (s : State) (p m : Nat) : State :=
  (s.plModules p).foldl (fun (s : State) x =>
    match Config.wire p x with
    | some (q, j) =>
      let c := (s.die p).cad
      s.post q (s.readAt p q c) 0 0 0 (.ev .standAdoption { pos := q, m := j, value := BitVec.ofNat 64 m, sent := c })
    | none => s) s

/-- A die arms mark M (R54, R55, R519). -/
def State.arm (s : State) (p m : Nat) (adopt idle : Bool) (hub : Nat) (q : Bool) : State :=
  let d := s.die p
  let s := s.setDie p { d with
    armed := true, adopt := adopt, idle := idle, standM := m
    standHubs := if adopt || idle then 0 else 2 ^ hub, quietHubs := if q then 2 ^ hub else 0 }
  s.announce p m

/-- STAND and STAND.q (R54, R375). A STAND that names another mark than the armed one with fewer than 64 scy left raises
subcode 1: the manual orders the two conditions nowhere (DESIGN CHOICE, log 96). -/
def stand (q : Bool) (a : R6) (s : State) : State :=
  let x := s.readS a
  if x.p then s.coreFault 0x0A 2 []
  else if !s.curHub.launch.timed then s.advance 1
  else
    let p := s.cur.die
    let d := s.die p
    let m := x.v.toNat
    let b := 2 ^ s.cur.hub
    if d.armed && d.standM != m then (s.dieFault p 0x06 1 0xF).advance 1
    else if m < s.mark + 64 then (s.dieFault p 0x06 2 0xF).advance 1
    else if !d.armed then (s.arm p m false false s.cur.hub q).advance 1
    else
      (s.setDie p { d with
        standHubs := d.standHubs ||| b, quietHubs := if q then d.quietHubs ||| b else d.quietHubs }).advance 1

/-- STAND (R375). -/
def execStand (a : R6) (s : State) : Res := .next (stand false a s)
/-- STAND.q (R375). -/
def execStandQ (a : R6) (s : State) : Res := .next (stand true a s)

/-- A die reads frames with DV = 1 from a neighbour (R55, R56): a member without hubs of the launch arms the
first mark above its own with those low bits; an adopting die that sees another DMARK faults. Idle stands, which every
member arms by itself, are not adopted (R519). -/
def execStandAdoption (s : State) : Res :=
  let p := s.arg.pos
  let m := s.arg.value.toNat
  let d := s.die p
  let k := SMap.get {} d.modules s.arg.m
  let s := s.setDie p { d with modules := SMap.put d.modules s.arg.m { k with nbrV := true, nbrMark := m % 2 ^ 32 } }
  let now := s.markOf p
  let up := now / 2 ^ 32 * 2 ^ 32 + m % 2 ^ 32
  let mark := if now < up then up else up + 2 ^ 32
  if !d.member then .next s
  else if d.armed then (if d.adopt && d.standM % 2 ^ 32 != m % 2 ^ 32 then .next (s.dieFault p 0x06 5 s.arg.m) else .next s)
  else if (s.pl d.plid).slot.isSome && (s.launchHubs p).isEmpty then .next (s.arm p mark true false 0 false)
  else .next s

/-- At mark M − 64 every hub of the hub set on the die has issued STAND M (R56). -/
def execStandLeadCheck (s : State) : Res :=
  let p := s.arg.pos
  let d := s.die p
  if d.armed && d.standM == s.arg.n && !d.adopt && !d.idle &&
      !((s.launchHubs p).all fun h => d.standHubs.testBit h) then .next (s.dieFault p 0x06 3 0xF)
  else .next s

/-- S pulses of a hold (R57): RNE(LAG × (1 + k) × 16 / (16 − c)), LAG in units of 2^-16 scy. -/
def swallowed (lag k c : Nat) : Nat :=
  let num := lag * (1 + k) * 16
  let den := 2 ^ 16 * (16 - c)
  let q := num / den
  let r := num % den
  if 2 * r < den ∨ (2 * r = den ∧ q % 2 = 0) then q else q + 1

/-- Q of STANDST (R54). -/
def Die.standQ (d : Die) : Bool := d.standHubs != 0 && d.quietHubs == d.standHubs

/-- A timed beat stands on a module of die p or in one of its elastic buffers: it is in the frame that p sends, or on its way
to p, which receives it or forwards it (R41, R59). -/
def Beat.standsAt (b : Beat) (p : Nat) : Bool :=
  match b.hops.drop b.hop with
  | [] => b.die == p
  | [f] => f.1 == p || b.die == p
  | f :: g :: _ => f.1 == p || g.1 == p

/-- The quiet record of a die (R59, R261): no timed beat in its elastic buffers or on its modules, no engine of its hubs
issuing a segment, and no issued word of an engine other than the vector engine still to perform. -/
def State.quietDie (s : State) (p : Nat) : Bool :=
  !(s.beats.any fun b => b.standsAt p) &&
  (s.die p).draft.isNone &&
  ((List.range 8).all fun h =>
    (s.hub p h).streams.all (fun e => e.2.seg.isNone && e.2.pieces.isEmpty) && (s.hub p h).ixq.isEmpty && (s.hub p h).ixrun.isNone) &&
  !(s.agenda.any fun d => d.die == p && (match d.act with
    | .mat _ | .xf _ | .ix _ | .draft _ | .ev .matrixStepCommit _ => true
    | _ => false))

/-- PREQ is set for the launch of a paceline at a quiet stand: every member with hubs shows Q = 1 (R261). -/
def State.quietStand (s : State) (n : Nat) : Bool :=
  let l := s.pl n
  match l.slot with
  | none => false
  | some k =>
    (s.slot k).preq &&
    ((List.range 48).all fun p => !s.isMember n p || (s.launchHubs p).isEmpty || (s.die p).standQ)

/-- Checks of the end of scy M (R56): the paceline modules whose neighbour lacks the mark. -/
def State.standNeighbours (s : State) (p : Nat) : List Nat :=
  let d := s.die p
  (s.plModules p).filter fun m =>
    let k := SMap.get {} d.modules m
    !(k.nbrV && k.nbrMark == d.standM % 2 ^ 32)

/-- At the end of scy M an armed die checks its neighbours and holds S pulses (R56, R57); a halt at M takes the
stand's place (R62). At a quiet stand with PREQ set the hold lasts until the H-die has gathered, within 2 µs (R261; log 9). -/
def execStandHold (s : State) : Res :=
  let p := s.arg.pos
  let d := s.die p
  if !d.armed || d.cad != d.standAt || d.standing then .next s
  else
    let s := (s.standNeighbours p).foldl (fun (s : State) m => s.dieFault p 0x06 4 m) s
    let d := s.die p
    if d.haltAt == some d.cad then
      .next (s.setDie p { d with standing := false })
    else
      let n := swallowed d.lag d.tk d.coast
      let g := s.quietStand d.plid
      let s := s.setDie p { d with standing := true, swallow := n, gather := g, quiet := s.quietDie p }
      if g then
        if (List.range 48).all fun q => !s.isMember d.plid q || (s.die q).gather then
          .next ((s.after (1 + Config.transit s.free % (2 * Config.cyPerUs)) .quietSave { n := d.plid }).useFree)
        else .next s
      else if n = 0 then .next { s with inbox := s.inbox ++ [(.standResume, { pos := p })] }
      else .next s

/-- STAND_RESUME: the die has swallowed its S pulses (R57). -/
def execStandResume (s : State) : Res :=
  let p := s.arg.pos
  let d := s.die p
  if d.standing && d.swallow == 0 && !d.gather then .next (s.setDie p d.leaveStand) else .next s

/-- How long before its mark an idle stand is armed: the manual says only that one may stand armed for a later mark (DESIGN
CHOICE, log 96). -/
def idleLead : Nat := 128

/-- The mark of the idle stand that a member arms in this scy, if any (R519): every multiple of 16,384 while its paceline runs no
launch, from the first that all members can arm after one; and, as a launch is granted, one that some member has armed. -/
def State.idleDue (s : State) (p : Nat) : Option Nat :=
  let d := s.die p
  let l := s.pl d.plid
  let m := (d.cad / 16384 + 1) * 16384
  if d.member && l.formed && !d.armed && decide (m ≤ d.cad + idleLead) && decide (l.idleFrom ≤ m) && (l.slot.isNone || decide (m ≤ l.idleTo)) then some m
  else none

/-- A member of a paceline arms an idle stand (R519), and announces it as every armed die does (R54). -/
def execIdleStandArm (s : State) : Res :=
  match s.idleDue s.arg.pos with
  | some m => .next (s.arm s.arg.pos m false true 0 false)
  | none => .next s

end Sys2Proof.Machine
end

