-- ==== Sys2Proof/Machine/Reports.lean ====
section
/-! DEFINITION. What the H-die sends outside and keeps of queues: interrupts (R97, R119, R142), host writes, fault
records (R113 to R116, R241, R248) and queue control blocks (R107). -/

namespace Sys2Proof.Machine

open Sys2Proof

/-! ### Interrupts (R97, R119) -/

/-- Vectors of a function's MSI-X table (R119). -/
def vectorsOf (fn : Nat) : Nat := if fn = 0 then 64 else 124

/-- A byte of a function's MSI-X table, or of its pending-bit array from 0x8000. The entries' layout and their reset
value, masked, are those of PCI Express (PRESUMED, log 28). -/
def State.msixByte (s : State) (fn o : Nat) : Byte :=
  SMap.get (if o < 16 * vectorsOf fn ∧ o % 16 = 12 then 1 else 0) s.dev.msix (fn * 65536 + o)

def State.setMsix (s : State) (fn o : Nat) (b : Byte) : State :=
  { s with dev := { s.dev with msix := SMap.put s.dev.msix (fn * 65536 + o) b } }

/-- Signals a vector of a function; a masked one stays pending, and PF vectors 5 to 63 are never signalled (R119). -/
def State.signal (s : State) (fn vec : Nat) : State :=
  if vectorsOf fn ≤ vec || (fn == 0 && decide (5 ≤ vec)) then s
  else if (s.msixByte fn (16 * vec + 12)).toNat.testBit 0 then
    let o := 0x8000 + vec / 8
    s.setMsix fn o (s.msixByte fn o ||| BitVec.ofNat 8 (2 ^ (vec % 8)))
  else { s with outs := s.outs ++ [.msix fn vec] }

/-- Raises a firmware interrupt at a management core (R142): bit 0 a kick, 1 a mailbox, 2 WDX, 3 a faulted or
suspended slot, 4 a reset that has ended. -/
def State.interrupt (s : State) (core cause : Nat) : State :=
  { s with dev := { s.dev with mgmtIrq := SMap.put s.dev.mgmtIrq (core % 4) (SMap.get 0 s.dev.mgmtIrq (core % 4) ||| 2 ^ cause) } }

/-! ### Host memory -/

/-- The address space of a partition's host accesses under a PASID. -/
def State.hostRead (s : State) (part : Nat) (pasid : Option Nat) (a n : Nat) : List Byte :=
  s.readBytes (flat (homeHost part pasid) a) n
def State.hostWrite (s : State) (part : Nat) (pasid : Option Nat) (a : Nat) (bs : List Byte) : State :=
  s.writeBytes (flat (homeHost part pasid) a) bs false

/-! ### Fault records (R113 to R116) -/

/-- The bytes of a record (R113). -/
def FaultReport.bytes (r : FaultReport) (time head : Nat) : List Byte :=
  leBytes 8 (r.kind % 256 * 2 ^ 56 + r.sub % 256 * 2 ^ 48 + r.part % 16 * 2 ^ 44 + r.slot % 16 * 2 ^ 40 + r.lpos % 64 * 2 ^ 34 +
    r.hub % 8 * 2 ^ 31 + r.eng % 8 * 2 ^ 28 + r.qid % 4096 * 2 ^ 16) ++
  leBytes 8 r.cidx ++ leBytes 8 r.estat ++ leBytes 8 r.mark ++ leBytes 8 r.vabase ++
  leBytes 8 (r.vapages % 2 ^ 32 * 2 ^ 32 + r.nmerge % 2 ^ 32) ++ leBytes 8 time ++ leBytes 8 (r.ltag % 2 ^ 32 * 2 ^ 32 + head % 2 ^ 32)

/-- m of a fault ring: LOG2N, read as 6 outside 6 to 16 (R115). -/
def Part.ringLog (p : Part) : Nat := if 6 ≤ p.frLog ∧ p.frLog ≤ 16 then p.frLog else 6

/-- HEAD − TAIL of a fault ring for a tail. -/
def Part.ringFill (p : Part) (tail : Nat) : Nat := (p.frHead + 2 ^ 32 - tail % 2 ^ 32) % 2 ^ 32

/-- A partition's ring takes a record: it is enabled and not full (R116). -/
def Part.takesRecord (p : Part) : Bool := p.frEn && decide (p.ringFill p.frTail < 2 ^ p.ringLog)

/-- Writes a record to its partition's ring, or counts it lost, and sends VF vector 0 (R116). The ring is addressed through the
PASID of the partition's VF, which the manual gives no value (R115; log 29). -/
def State.writeRecord (s : State) (r : FaultReport) : State :=
  let p := s.part r.part
  let s :=
    if p.takesRecord then
      (s.hostWrite r.part (some (Config.vfPasid r.part)) (p.frbase + 64 * (p.frHead % 2 ^ p.ringLog)) (r.bytes r.time p.frHead)).setPart r.part
        { p with frHead := (p.frHead + 1) % 2 ^ 32 }
    else s.setPart r.part { p with frOvf := true, frLost := satAdd 0xFFFFFFFF p.frLost 1 }
  s.signal (r.part + 1) 0

/-- The slot notes a record written for its queue (R107). -/
def State.noteFault (s : State) (slot kind : Nat) : State :=
  let x := s.slot slot
  s.setSlot slot { x with qcb := { x.qcb with lkind := kind, nflt := satAdd 0xFFFF x.qcb.nflt 1 } }

/-- Writes a record about a slot's queue; one that is lost was not written for it (R107). -/
def State.slotRecord (s : State) (r : FaultReport) : State :=
  if (s.part r.part).takesRecord then (s.writeRecord r).noteFault r.slot r.kind else s.writeRecord r

/-- A record names the queue that a slot holds. A LATE reduction, a long-link error, and what a die or a fabric reports outside a
launch concern no queue (R60, R69, R90). -/
def State.recordsSlot (s : State) (r : FaultReport) : Bool :=
  let x := s.slot r.slot
  !r.noQueue && r.kind != 0x10 && r.kind != 0x13 && x.valid && x.qcb.part == r.part && x.qcb.qid == r.qid

/-- Writes a record, for the queue of its slot where it names one. -/
def State.queueRecord (s : State) (r : FaultReport) : State := if s.recordsSlot r then s.slotRecord r else s.writeRecord r

/-- A slot's queue enters the faulted state: VF vector 3 and the firmware interrupt (R119, R142, R143). -/
def State.faultSlot (s : State) (slot : Nat) : State :=
  let x := s.slot slot
  ((s.setSlot slot { x with qcb := { x.qcb with state := 4 }, preq := false, run := none, validated := false }).signal
    (x.qcb.part + 1) 3).interrupt x.qcb.part 3

/-- A record about the launch of a slot, without a hub. One that concerns no launch carries the LTAG of the queue's last one (DESIGN
CHOICE, log 121). -/
def State.launchReport (s : State) (slot kind sub : Nat) : FaultReport :=
  let q := (s.slot slot).qcb
  { kind := kind, sub := sub, part := q.part, slot := slot, qid := q.qid, ltag := q.ltag, time := s.nanos }

/-- A launch is refused with a subcode: a record, and its queue is faulted with HEAD unchanged (R111). -/
def State.refuseLaunch (s : State) (slot sub : Nat) : State := (s.slotRecord (s.launchReport slot 0x17 sub)).faultSlot slot

/-! ### Queue control blocks (R107) -/

/-- The 128 bytes of a QCB. -/
def Qcb.bytes (q : Qcb) : List Byte :=
  leBytes 8 (q.rbase / 256 * 256) ++
  leBytes 8 (q.qid % 2 ^ 12 * 2 ^ 52 + q.part % 16 * 2 ^ 48 + q.pasid % 2 ^ 20 * 2 ^ 28 + q.log2n % 32 * 2 ^ 23 + q.cap % 8 * 2 ^ 20 +
    q.prio % 8 * 2 ^ 17 + q.bprio % 8 * 2 ^ 14) ++
  leBytes 8 (q.tail % 2 ^ 32 * 2 ^ 32 + q.head % 2 ^ 32) ++ leBytes 8 (q.age % 2 ^ 32) ++
  leBytes 8 (q.wbud % 2 ^ 32 * 2 ^ 32 + q.wrem % 2 ^ 32) ++
  leBytes 8 (q.state % 256 * 2 ^ 56 + q.lkind % 256 * 2 ^ 48 + q.nflt % 2 ^ 16 * 2 ^ 32) ++ leBytes 8 q.savep ++
  leBytes 8 (q.ltag % 2 ^ 32) ++ (q.fw ++ List.replicate 64 0).take 64

/-- The QCB that an image holds. -/
def qcbOf (bs : List Byte) : Qcb :=
  let d := fun i => leNat ((bs.drop (8 * i)).take 8)
  { rbase := d 0 / 256 * 256, qid := bits (d 1) 63 52, part := bits (d 1) 51 48, pasid := bits (d 1) 47 28, log2n := bits (d 1) 27 23
    cap := bits (d 1) 22 20, prio := bits (d 1) 19 17, bprio := bits (d 1) 16 14, tail := bits (d 2) 63 32, head := bits (d 2) 31 0
    age := bits (d 3) 31 0, wbud := bits (d 4) 63 32, wrem := bits (d 4) 31 0, state := bits (d 5) 63 56, lkind := bits (d 5) 55 48
    nflt := bits (d 5) 47 32, savep := d 6, ltag := bits (d 7) 31 0, fw := (bs.drop 64).take 64 }

/-! ### Queues (R104, R105) -/

/-- QREGq: V, PART, MAP, SLOT, DBTAIL. -/
def State.qreg (s : State) (q : Nat) : Bool × Nat × Bool × Nat × Nat := SMap.get (false, 0, false, 0, 0) s.dev.qregs q
def State.setQreg (s : State) (q : Nat) (x : Bool × Nat × Bool × Nat × Nat) : State :=
  { s with dev := { s.dev with qregs := SMap.put s.dev.qregs q x } }
/-- The pending bit of a queue. -/
def State.setPend (s : State) (q : Nat) (b : Bool) : State := { s with dev := { s.dev with pend := SMap.set false s.dev.pend q b } }

end Sys2Proof.Machine
end

