-- ==== Sys2Proof/Machine/EvLong.lean ====
section
/-! DEFINITION. Euzin long links, endpoint packets and the rank table (R66 to R79, R85, R91), and what the
collective events share (R86 to R90). -/

namespace Sys2Proof.Machine

open Sys2Proof

/-! ### The rank table and the packages' ranks (R85) -/

def rankValid (e : W64) : Bool := e.toNat.testBit 63
def rankSelf (e : W64) : Bool := e.toNat.testBit 62
def rankXpos (e : W64) : Nat := bits e.toNat 55 50
def rankPort (e : W64) : Nat := bits e.toNat 49 47

def XDie.rank (x : XDie) (r : Nat) : W64 := SMap.get 0 x.ranktab r

/-- The package's own rank: the entry with SELF (R85), the lowest where there are several (DESIGN CHOICE, log 119). -/
def XDie.ownRank (x : XDie) : Option Nat :=
  (x.ranktab.find? fun e => rankValid e.2 && rankSelf e.2).map (·.1)

/-- A port of an X-die. -/
def XDie.port (x : XDie) (m : Nat) : LPort := SMap.get {} x.ports m
def XDie.setPort (x : XDie) (m : Nat) (p : LPort) : XDie := { x with ports := SMap.put x.ports m p }

/-- The flit time of a pulse: 781.25 million flits a second are one in 2.432 pulses (R5, R67). -/
def flitTime (cy : Nat) : Nat := cy * 125 / 304
/-- Pulses without ACK progress after which a port resends: 2 µs (R68). -/
def flitTimeout : Nat := 2 * Config.cyPerUs

/-- A port that is up and has something to send sends it at its next flit time (R67). A flit time in which a port would repeat an
idle flit's ACK is left out (log 25). -/
def State.kickPort (s : State) (pos m : Nat) : State :=
  let x := s.xdie pos
  let p := x.port m
  let due := decide (p.gone < p.replay.length) || p.news || p.nak || (!p.queue.isEmpty && decide (p.replay.length < 512))
  if !p.up || p.busy || !due then s
  else
    let n := max p.times (flitTime s.cy) + 1
    (s.setXdie pos (x.setPort m { p with busy := true })).after (ceilDiv (304 * n) 125 - s.cy) .flitTransmit { pos := pos, m := m }

/-- Queues a flit at a port, which sends it in its turn. -/
def State.queueFlit (s : State) (pos m : Nat) (f : Flit) : State :=
  let x := s.xdie pos
  let p := x.port m
  (s.setXdie pos (x.setPort m { p with queue := p.queue ++ [f] })).kickPort pos m

/-- The X-die and port that lead to a rank, for a partition's positions (R85). -/
def State.routeRank (s : State) (pos part r : Nat) : Option (Nat × Nat) :=
  let e := (s.xdie pos).rank r
  if !rankValid e then none else (s.phys part (rankXpos e)).map fun q => (q, rankPort e)

/-- The partition whose map binds an X-die; partition 0 where none does. -/
def State.partOfDie (s : State) (pos : Nat) : Nat := (s.boundPart pos).getD 0

/-- The rank is this package's: its entry is valid with SELF. A package whose tables hold no such entry is rank 0 (DESIGN CHOICE,
log 70). -/
def XDie.isOwn (x : XDie) (r : Nat) : Bool :=
  (rankValid (x.rank r) && rankSelf (x.rank r)) || (x.ownRank.isNone && r == 0)

/-- Sends a flit towards its destination rank; it is lost where no entry routes it (log 25). -/
def State.sendFlit (s : State) (pos : Nat) (f : Flit) : State :=
  match s.routeRank pos (s.partOfDie pos) f.drank with
  | some (q, m) => s.queueFlit q m f
  | none => s

/-! ### Flits (R67 to R71) -/

/-- The order in which classes 2, 1 and 0 have their turns: weights 4 : 2 : 1 (R70). -/
def wrrOrder : List Nat := [2, 2, 2, 2, 1, 1, 0]

/-- The class that sends next: class 3 while the shaper admits it, else by weighted round robin (R70). -/
def LPort.nextClass (p : LPort) : Option (Nat × Nat) :=
  let has := fun c => p.queue.any fun f => f.cls == c
  if has 3 && decide ((p.shaped.filter fun t => decide (p.times < t + 1024)).length < 128) then some (3, p.wrr)
  else
    ((List.range 7).map fun i => (p.wrr + i) % 7).findSome? fun i =>
      let c := wrrOrder.getD i 0
      if has c then some (c, (i + 1) % 7) else none

/-- The first flit of a class, and the queue without it. -/
def takeClass (c : Nat) : List Flit → Option (Flit × List Flit)
  | [] => none
  | f :: r => if f.cls = c then some (f, r) else (takeClass c r).map fun x => (x.1, f :: x.2)

/-- A port gives a flit to the link. -/
def State.putFlit (s : State) (pos m : Nat) (p : LPort) (f : Flit) : State :=
  { s.setXdie pos ((s.xdie pos).setPort m p) with outs := s.outs ++ [.flit pos m f.bytes f] }

/-- The retry timer of a port runs while flits wait for their ACK (R68). -/
def State.flitTimer (s : State) (pos m : Nat) : State :=
  let x := s.xdie pos
  let p := x.port m
  if p.timing || p.replay.isEmpty then s
  else (s.setXdie pos (x.setPort m { p with timing := true })).after flitTimeout .flitRetryTimeout { pos := pos, m := m }

/-- A port's flit time (R67, R68, R70): a flit that is to be sent again goes first, in order; then the next of the queue while
the replay buffer of 512 has room; then an idle flit that returns an ACK or NAK. The shaper admits a class-3 flit once, before its
first sending (log 25). An idle flit shows the next SEQ without using it up, and is kept nowhere (DESIGN CHOICE, log 114). -/
def execFlitTransmit (s : State) : Res :=
  let pos := s.arg.pos
  let m := s.arg.m
  let x := s.xdie pos
  let p := { x.port m with busy := false, times := flitTime s.cy }
  if !p.up then .next (s.setXdie pos (x.setPort m p))
  else
    let quiet := { p with nak := false, news := false }
    match p.replay[p.gone]? with
    | some (f, k) =>
      let f := { f with ack := p.ack, nak := p.nak }
      .next ((s.putFlit pos m
        { quiet with replay := p.replay.set p.gone (f, k + 1), gone := p.gone + 1, retries := satAdd 0xFFFF p.retries 1 } f).kickPort pos m)
    | none =>
      match (if 512 ≤ p.replay.length then none else p.nextClass.bind fun c => (takeClass c.1 p.queue).map fun q => (c.1, c.2, q)) with
      | some (c, w, f, rest) =>
        let f := { f with seq := p.seq, ack := p.ack, nak := p.nak }
        let s := s.putFlit pos m
          { quiet with
            queue := rest, seq := (p.seq + 1) % 4096, wrr := w, replay := p.replay ++ [(f, 0)], gone := p.gone + 1
            shaped := if c = 3 then (p.shaped.filter fun t => decide (p.times < t + 1024)) ++ [p.times] else p.shaped
            progress := if p.replay.isEmpty then s.cy else p.progress } f
        .next ((s.flitTimer pos m).kickPort pos m)
      | none =>
        if p.news || p.nak then .next ((s.putFlit pos m quiet { seq := p.seq, ack := p.ack, nak := p.nak }).kickPort pos m)
        else .next ((s.setXdie pos (x.setPort m p)).kickPort pos m)

/-- The partition that owns the context bound on an X-die (R69, R84). -/
def XDie.boundParts (x : XDie) : List Nat := x.ctx.toList.map fun c => ctxPart (x.context c)

/-- A control flit's payload word: its kind, 0 READY, 1 COMMIT, 2 ABORT, 3 ABORT after a link error, its context and its operation's
number (R88; log 25). -/
def ctlPayload (kind c num : Nat) : W64 := BitVec.ofNat 64 (kind * 16 + c + num * 256)

/-- A collective control flit to a rank (R88). -/
def State.sendControl (s : State) (pos kind c num mine r : Nat) : State :=
  s.sendFlit pos { cls := 3, typ := 3, drank := r, srank := mine, words := [ctlPayload kind c num], op := some (c, num), home := some pos }

/-- An operation one of whose flits a link error has discarded aborts (R69): where the flit was this package's, at its X-die; where it
passed through, rank 0 is told. -/
def State.abortLost (s : State) (pos : Nat) (f : Option Nat × Nat × Nat) : State :=
  match f.1 with
  | some p => { s with inbox := s.inbox ++ [(.abort, { pos := p, n := f.2.1, off := f.2.2, m := 3 })] }
  | none => s.sendControl pos 3 f.2.1 f.2.2 ((s.xdie pos).ownRank.getD 0) 0

/-- A link error (R69, R119): the port goes down and retrains, its flits are discarded, and every operation with a flit among
them aborts. -/
def State.linkError (s : State) (pos m : Nat) : State :=
  let x := s.xdie pos
  let p := x.port m
  let gone := p.queue ++ p.replay.map (·.1)
  let lost := (gone.filter fun f => f.typ == 1).length
  let s := s.setXdie pos (x.setPort m
    { p with up := false, train := true, lerr := true, lost := satAdd 0xFFFF p.lost lost, queue := [], replay := [], gone := 0 })
  let s := if p.lerr then s else s.signal 0 4
  let s := x.boundParts.foldl (fun (s : State) q =>
    s.sendReport { kind := 0x13, part := q, lpos := (s.logical q pos).getD 0, eng := 7, estat := estatOf 7 0 0, mark := (s.die pos).cad }) s
  ((gone.filterMap fun f => f.op.map fun o => (f.home, o.1, o.2)).eraseDups).foldl (fun (s : State) f => s.abortLost pos f) s

/-- A port is to send every flit again from ACK + 1; none goes a fourth time (R68, R69). -/
def State.resend (s : State) (pos m : Nat) : State :=
  let x := s.xdie pos
  let p := x.port m
  if p.replay.any fun f => decide (2 ≤ f.2) then s.linkError pos m
  else (s.setXdie pos (x.setPort m { p with gone := 0, progress := s.cy })).kickPort pos m

/-- 2 µs pass without progress in ACK: the port resends (R68). -/
def execFlitRetryTimeout (s : State) : Res :=
  let pos := s.arg.pos
  let m := s.arg.m
  let x := s.xdie pos
  let p := x.port m
  if !p.up ∨ p.replay.isEmpty then .next (s.setXdie pos (x.setPort m { p with timing := false }))
  else if s.cy < p.progress + flitTimeout then
    .next (s.after (p.progress + flitTimeout - s.cy) .flitRetryTimeout { pos := pos, m := m })
  else .next ((s.resend pos m).after flitTimeout .flitRetryTimeout { pos := pos, m := m })

/-- A port is trained (R66, R72): its numbers begin again (log 25). TRAIN is 1 only after a link error (DESIGN CHOICE, log 116). -/
def execLongLinkTrained (s : State) : Res :=
  let x := s.xdie s.arg.pos
  let p := x.port s.arg.m
  .next ((s.setXdie s.arg.pos (x.setPort s.arg.m
    { lerr := p.lerr, lost := p.lost, queue := p.queue, up := true, peer := s.arg.n % 4096, progress := s.cy, busy := p.busy
      timing := p.timing, times := p.times, shaped := p.shaped })).kickPort s.arg.pos s.arg.m)

/-! ### Collective operations as every event sees them (R86 to R90) -/

/-- An odd element after its operation has ended: it serves the next one from its first word, and one that stands within a sum
starts its program again (R87; log 26). -/
def Elem.nextOp (e : Elem) (ranks : Nat) : Elem :=
  { e with taken := 0, emitted := 0, pc := if e.taken = e.emitted * ranks then e.pc else 0 }

/-- The open operation of a context has ended: what the buffer and the streams hold of it is gone, and the context's next operation
has the next number (R88, R89). A word that an even element has taken stays with it, and goes nowhere (R481). -/
def XDie.dropOp (x : XDie) (c : Nat) : XDie :=
  let n := x.opNum c
  let here := x.ctx = some c
  { x with
    colls := x.colls.filter fun y => !(y.ctx == c && y.num == n)
    opNums := SMap.set 0 x.opNums c (n + 1)
    sources := if here then (x.sources.map fun e => (e.1, e.2.filter fun w => w.num != n)).filter fun e => !e.2.isEmpty else x.sources
    elems := if here then x.elems.map fun e => (e.1, if e.1 / 16 % 2 = 0 then e.2 else e.2.nextOp (ctxRanks (x.context c))) else x.elems }

/-- Other ranks are at operation `num` of a context: where none is open here it is the next here too (log 25). -/
def XDie.reach (x : XDie) (c num : Nat) : XDie :=
  if (x.op c).isNone && decide (x.opNum c < num) then { x with opNums := SMap.put x.opNums c num } else x

/-- Operation `num` of a context, whose time limit starts with this contribution where it is the first (R88). -/
def State.beginOp (s : State) (pos c num : Nat) : State × Coll :=
  let x := s.xdie pos
  let o := (x.opAt c num).getD { ctx := c, num := num }
  match o.started with
  | some _ => (s, o)
  | none =>
    let o : Coll := { o with started := some s.cy }
    ((s.setXdie pos (x.setOp o)).after (ctxLimit (x.context c) * Config.cyPerUs) .collectiveTimeLimit
      { pos := pos, n := c, off := num, value := BitVec.ofNat 64 s.cy }, o)

/-- Owners: every rank owns its shard, which may hold no element (R86; DEDUCED, log 26). -/
def ownersOf (ranks : Nat) : List Nat := List.range ranks

/-- Data flits of up to 30 words of a shard to a rank, from word `q` of it on (R67, R70). -/
def State.sendData (s : State) (pos c num mine r q : Nat) : Nat → List W64 → State
  | 0, _ => s
  | _, [] => s
  | f + 1, ws =>
    (s.sendFlit pos { cls := 2, typ := 2, drank := r, srank := mine, words := ws.take 30, base := q, op := some (c, num), home := some pos }).sendData
      pos c num mine r (q + 30) f (ws.drop 30)

/-- A result word for a rank leaves by port (y − 1)/2 of the row y that emitted it (R80, R481); where that port is not up, by the
one that the rank table names (DESIGN CHOICE, log 26). -/
def State.sendResult (s : State) (pos c num mine r q : Nat) (w : W64) : State :=
  let f : Flit := { cls := 2, typ := 2, drank := r, srank := mine, words := [w], base := q, res := true, op := some (c, num), home := some pos }
  let m := q / 16 % 8
  if ((s.xdie pos).port m).up then s.queueFlit pos m f else s.sendFlit pos f

/-- Bytes of the reduction buffer that an operation holds: the package's own contributions, the words received from other ranks, and
finished sums (R89). -/
def Coll.size (o : Coll) (fmt mine : Nat) : Nat :=
  o.mine.length * (fabBits fmt / 8) + ((o.words.filter fun w => w.1 != mine).length + o.early.length + o.results.length) * 8

/-- Bytes of the reduction buffer that stand in the streams of the bound graph: words at a local input or taken and not emitted,
and the running FP32 sums of odd elements (R89). -/
def XDie.streamSize (x : XDie) : Nat :=
  let c := x.boundCtx
  (x.sources.map fun e => 8 * e.2.length).sum +
  (x.elems.map fun e =>
    if e.1 / 16 % 2 = 0 then 8 * e.2.pend.length
    else if e.2.emitted * ctxRanks c < e.2.taken then 4 * perWord (ctxIn c) else 0).sum

/-- Bytes of the reduction buffer in use by all 16 contexts (R89). -/
def XDie.used (x : XDie) : Nat := (x.colls.map fun o => o.size (ctxIn (x.context o.ctx)) (ctxMine (x.context o.ctx))).sum + x.streamSize

/-- The reduction buffer holds 8 MiB (R89). -/
def bufferBytes : Nat := 8388608

/-- The words of shard j that the package's own contribution gives; none while elements are missing (R481). -/
def Coll.shardOf (o : Coll) (ranks fmt j : Nat) : Option (List W64) :=
  let len := shardLen o.count ranks j
  let per := perWord fmt
  let base := j * shardSize o.count ranks
  let elem := fun i => (o.mine.find? fun x => x.1 == base + i).map (·.2)
  if (List.range len).all fun i => (elem i).isSome then
    some ((List.range (ceilDiv len per)).map fun q =>
      BitVec.ofNat 64 ((List.range per).foldl (fun v i =>
        v + (if q * per + i < len then (elem (q * per + i)).getD 0 else 0) * 2 ^ (fabBits fmt * i)) 0))
  else none

/-- Sends every complete shard of another rank to its owner, and keeps the own shard as this rank's words. -/
def State.spreadShards (s : State) (pos c : Nat) : List Nat → State
  | [] => s
  | j :: r =>
    let x := s.xdie pos
    let k := x.context c
    let s := match x.op c with
      | none => s
      | some o =>
        if o.sent.contains j then s
        else
          match o.shardOf (ctxRanks k) (ctxIn k) j with
          | none => s
          | some ws =>
            let o := { o with sent := o.sent ++ [j] }
            if j = ctxMine k then
              s.setXdie pos (x.setOp { o with words := o.words ++ ws.zipIdx.map fun (w : W64 × Nat) => (ctxMine k, w.2, w.1) })
            else (s.setXdie pos (x.setOp o)).sendData pos c o.num (ctxMine k) j 0 (ws.length + 1) ws
    s.spreadShards pos c r

/-- The open operation of a context ends at a participant (R90): status to the reply queue of the binding hub, then tl.f, whose
FAIL flag is set where the output was suppressed (R92, R290). -/
def State.endOp (s : State) (pos c status : Nat) : State :=
  let x := s.xdie pos
  let hub := SMap.get 0 x.ctxHub c
  let s := s.setXdie pos (x.dropOp c)
  if (SMap.find c x.ctxHub).isNone then s
  else
    let h := (s.hub pos hub).issueOp 6
    let h := if status = 2 then h.setTimeline 6 { h.timeline 6 with fail := true } else h
    let v := Config.freeWord s.free
    ((s.setHub pos hub h).useFree).pushReply pos hub 7 ⟨v, 7, status, false, (h.timeline 6).issued⟩

/-- The record of an output that the package could not write, which names the X-die and the binding hub as R443 has it; in a timed
launch the paceline halts (R92). -/
def State.suppressed (s : State) (pos c : Nat) : State :=
  let x := s.xdie pos
  let q := ctxPart (x.context c)
  let hub := SMap.get 0 x.ctxHub c
  let l := (s.logical q pos).getD 0
  let s := s.sendReport
    { kind := 0x14, part := q, lpos := l, hub := hub, eng := 7, estat := estatOf 7 0 (2 ^ l), cidx := 2 ^ hub, mark := s.markOf pos, noQueue := true }
  if (s.hub pos hub).launch.timed then s.raiseHalt pos (s.markOf pos) else s

/-- An operation is complete at this rank once COMMIT has come and, but for REDSCAT, every shard (R88, R90). Its output is kept
by context: the manual gives it no address (log 26). An output that the package cannot write is suppressed, with status 2 and a
multicast record (R92); whether it can is a free value. -/
def State.finishColl (s : State) (pos c : Nat) : State :=
  let x := s.xdie pos
  let k := x.context c
  match x.op c with
  | none => s
  | some o =>
    let mine := ctxMine k
    let outs := (o.outs.filter fun (w : Nat × Nat × W64) => w.1 != mine) ++ o.results.map fun (w : Nat × W64) => (mine, w.1, w.2)
    let full := ctxGraph k == 2 || (ownersOf (ctxRanks k)).all fun j =>
      decide ((outs.filter fun w => w.1 == j).length = shardWords o.count (ctxRanks k) j (ctxIn k))
    if o.committed && full then
      if Config.outputFails s.free then ((s.suppressed pos c).useFree).endOp pos c 2
      else ((s.setXdie pos { x with outputs := SMap.put x.outputs c outs }).useFree).endOp pos c 0
    else s

/-- The owner of a shard has finished it when every result word has been emitted: it sends READY to rank 0 (R88). An empty shard
is finished as soon as E is known (DEDUCED, log 26). -/
def State.collReady (s : State) (pos c : Nat) : State :=
  let x := s.xdie pos
  let k := x.context c
  match x.op c with
  | none => s
  | some o =>
    let w := shardWords o.count (ctxRanks k) (ctxMine k) (ctxIn k)
    if o.sentReady || o.count == 0 || decide (o.results.length < w) then s
    else
      let s := s.setXdie pos (x.setOp { o with sentReady := true })
      if ctxMine k = 0 then { s with inbox := s.inbox ++ [(.ready, { pos := pos, n := c, off := o.num, rank := 0 })] }
      else s.sendControl pos 0 c o.num (ctxMine k) 0

/-! ### Receiving flits (R68) -/

/-- A packet goes on over the counted channel from an X-die, or the H-die, to its hub (R75, R78, R202); without such a hub it is
discarded. -/
def State.deliverTo (s : State) (pos part : Nat) (p : EndPacket) : State :=
  match s.phys part p.dpos with
  | none => s
  | some q =>
    if (s.kind q).hubs ≤ p.dhub then s
    else
      ({ s with netSeq := s.netSeq + 1 }).launch pos s.netSeq
        { typ := 9, back := true, die := q, hub := p.dhub, target := pos, part := part, pkt := p
          bytes := List.replicate (8 * p.words.length) 0 }

/-- A contribution's word is placed: in its stream, or in the buffer until its context is bound (R80, R481, R484). A word for which
the buffer has no room aborts its operation (R89). -/
def State.takeWord (s : State) (pos m c : Nat) (w : SWord) : State :=
  let x := s.xdie pos
  if bufferBytes < x.used + 8 then
    { s with inbox := s.inbox ++ [(.abort, { pos := pos, n := c, off := w.num, m := 2 })] }
  else if x.ctx = some c then s.setXdie pos (x.queueWord m w)
  else
    match x.opAt c w.num with
    | some o => s.setXdie pos (x.setOp { o with early := o.early ++ [(m, w)] })
    | none => s

/-- The contributions of a collective-data flit for an operation, from place `q` of their shard on (R80, R88, R481). -/
def State.dataWords (s : State) (pos m c num rank q : Nat) : List W64 → State
  | [] => s
  | w :: r => (s.takeWord pos m c ⟨w, rank, q, num⟩).dataWords pos m c num rank (q + 1) r

/-- The result words of an owner for the open operation of a context, from place `q` of their shard on (R88). -/
def State.resultWords (s : State) (pos c rank q : Nat) (ws : List W64) : State :=
  let x := s.xdie pos
  match x.op c with
  | none => s
  | some o =>
    let new := ws.zipIdx.map fun w => (rank, q + w.2, w.1)
    let kept := o.outs.filter fun (y : Nat × Nat × W64) => !(y.1 == rank && decide (q ≤ y.2.1 ∧ y.2.1 < q + ws.length))
    (s.setXdie pos (x.setOp { o with outs := kept ++ new })).finishColl pos c

/-- A flit that has been accepted in order acts by its TYPE; 4 to 15 are discarded (R67). One for another rank goes on. Collective data
of an operation that has ended is discarded; where a flit says no operation it is the bound context's (log 25). -/
def State.flitAct (s : State) (pos m : Nat) (f : Flit) : State :=
  let x := s.xdie pos
  let v := (f.words.headD 0).toNat
  if f.typ = 0 ∨ 4 ≤ f.typ then s
  else if !x.isOwn f.drank then
    s.sendFlit pos { f with home := none, op := if f.typ = 3 then some (v % 16, v / 256) else if f.typ = 2 then f.op else none }
  else if f.typ = 1 then
    s.deliverTo pos (s.partOfDie pos) { srank := f.srank, spos := f.spos, shub := f.shub, cls := f.cls, drank := f.drank,
                                        dpos := f.dpos, dhub := f.dhub, words := f.words }
  else if f.typ = 2 then
    let c := (f.op.map (·.1)).getD (x.ctx.getD 0)
    let num := (f.op.map (·.2)).getD (x.opNum c)
    if f.op.isNone && x.ctx.isNone || decide (num < x.opNum c) then s
    else if f.res then (if num = x.opNum c then s.resultWords pos c f.srank f.base f.words else s)
    else ((s.setXdie pos (x.reach c num)).beginOp pos c num).1.dataWords pos m c num f.srank f.base f.words
  else
    let e : Instr := if v / 16 % 16 = 0 then .ready else if v / 16 % 16 = 1 then .commit else .abort
    { s with inbox := s.inbox ++ [(e, { pos := pos, n := v % 16, off := v / 256, rank := f.srank, m := if v / 16 % 16 = 3 then 5 else 4 })] }

/-- The context of collective data that a flit brings. -/
def Arg.dataCtx (a : Arg) : Option Nat := if (flitOf a.bytes a.flit).typ = 2 then a.flit.op.map (·.1) else none

/-- A contribution or collective data for a lower context of the X-die arrives in the same pulse: it is placed first (R89). -/
def State.lowerArrival (s : State) (pos c : Nat) : Bool :=
  s.inbox.any fun e =>
    match e.1 with
    | .collectiveContribution => (match SMap.find e.2.n s.net with
      | some p => p.target == pos && decide (p.addr < c)
      | none => false)
    | .euzinFlitReceive => e.2.pos == pos && (match e.2.dataCtx with
      | some k => decide (k < c)
      | none => false)
    | _ => false

/-- A flit's bytes arrive at a port (R67, R68). The ACK and NAK of a good flit act whatever its SEQ; a flit that is bad or out of
order asks for a NAK. -/
def execEuzinFlitReceive (s : State) : Res :=
  let pos := s.arg.pos
  let m := s.arg.m
  let f := flitOf s.arg.bytes s.arg.flit
  let x := s.xdie pos
  let p := x.port m
  if !p.up then .next s
  else if !flitGood s.arg.bytes then .next ((s.setXdie pos (x.setPort m { p with nak := true })).kickPort pos m)
  else if (s.arg.dataCtx.map fun c => s.lowerArrival pos c) == some true then
    .next { s with inbox := s.inbox ++ [(.euzinFlitReceive, s.arg)] }
  else
    let kept := p.replay.filter fun (y : Flit × Nat) => decide ((y.1.seq + 4096 - (f.ack + 1) % 4096) % 4096 < 2048)
    let n := p.replay.length - kept.length
    let s := s.setXdie pos (x.setPort m
      { p with replay := kept, gone := p.gone - n, progress := if 0 < n then s.cy else p.progress })
    let s := if f.nak then s.resend pos m else s.kickPort pos m
    let y := s.xdie pos
    let p := y.port m
    if f.typ = 0 ∨ !p.up then .next s
    else if f.seq ≠ p.exp then .next ((s.setXdie pos (y.setPort m { p with nak := true })).kickPort pos m)
    else
      .next (((s.setXdie pos (y.setPort m { p with exp := (p.exp + 1) % 4096, ack := f.seq, news := true })).kickPort pos m).flitAct pos m f)

/-! ### Endpoint packets (R75 to R79) -/

/-- A closed packet reaches the home X-die, or the H-die in a package without X-dies (R75): it returns to the package, goes on
as a flit, or is refused with subcode 4. An entry whose XPOS names no bound position refuses it too (DESIGN CHOICE, log 70). A
packet of CLS 2 goes in class 2 (DESIGN CHOICE, log 115). -/
def execEndpointPacket (s : State) : Res :=
  match SMap.find s.arg.n s.net with
  | none => .next s
  | some k =>
    let s := { s with net := SMap.drop s.net s.arg.n }
    let pos := k.target
    let x := s.xdie pos
    let p := { k.pkt with srank := x.ownRank.getD 0 }
    let refuse := s.sendReport { k.rep with mark := (s.die pos).cad }
    let e := x.rank p.drank
    if x.isOwn p.drank then .next (s.deliverTo pos k.part p)
    else if s.kind pos ≠ .xDie ∨ !rankValid e then .next refuse
    else
      match s.phys k.part (rankXpos e) with
      | none => .next refuse
      | some q =>
        .next (s.queueFlit q (rankPort e)
          { cls := p.cls, typ := 1, drank := p.drank, srank := p.srank, words := p.words, dpos := p.dpos, dhub := p.dhub,
            spos := p.spos, shub := p.shub })

/-- An entry of the receive ring (R79). -/
def ringEntry (p : EndPacket) : List Byte :=
  let h := p.srank % 4096 * 2 ^ 52 + p.spos % 64 * 2 ^ 46 + p.shub % 8 * 2 ^ 43 + p.cls % 4 * 2 ^ 41 + min p.words.length 30 * 2 ^ 36
  let body := (p.words.take 30).flatMap fun w => leBytes 8 w.toNat
  leBytes 8 h ++ body ++ List.replicate (248 - body.length) 0

/-- A packet reaches its hub (R78): dropped when the ring is full, discarded when it is disabled. -/
def execEndpointPacketDeliver (s : State) : Res :=
  match SMap.find s.arg.n s.net with
  | none => .next s
  | some k =>
    let s := { s with net := SMap.drop s.net s.arg.n }
    match s.ring k.die k.hub with
    | none => .next s
    | some (base, len) =>
      let n := (len - 256) / 256
      let head := s.readNat base 8
      let tail := s.readNat (base + 8) 8
      if (head + 2 ^ 64 - tail) % 2 ^ 64 = n then
        .next (s.writeBytes (base + 16) (leBytes 8 ((s.readNat (base + 16) 8 + 1) % 2 ^ 64)) false)
      else
        let s := s.writeBytes (base + 256 + 256 * (head % n)) (ringEntry k.pkt) false
        .next (s.writeBytes base (leBytes 8 ((head + 1) % 2 ^ 64)) false)

/-! ### RANKTAB (R85, R91) -/

/-- An even element's words that are taken and not emitted go back to the head of its source (R91). -/
def XDie.giveBack (x : XDie) : XDie :=
  { x with
    sources := (List.range 256).filterMap fun n =>
      let l := (x.elem n).pend ++ SMap.get [] x.sources n
      if l.isEmpty then none else some (n, l)
    elems := x.elems.map fun e => (e.1, { e.2 with pc := 0, taken := 0, emitted := 0, pend := [] }) }

/-- An operation restarts for a rank (R91): partial sums and the rank's contributions are discarded, the own contribution to its
shard is sent again, and every time limit that runs begins anew. -/
def State.restartOp (s : State) (pos r : Nat) (o : Coll) : State :=
  let x := s.xdie pos
  let k := x.context o.ctx
  let limit := ctxLimit k * Config.cyPerUs
  let arg : Arg := { pos := pos, n := o.ctx, off := o.num, value := BitVec.ofNat 64 s.cy }
  let o' : Coll := { o with
    words := o.words.filter (fun w => w.1 != r), early := o.early.filter (fun w => w.2.rank != r), results := []
    sent := o.sent.filter (fun j => j != r), sentReady := false, ready := [], committed := false, outs := []
    started := o.started.map fun _ => s.cy, firstReady := o.firstReady.map fun _ => s.cy }
  let x := x.setOp o'
  let x := if x.ctx = some o.ctx then
      let y := x.giveBack
      { y with sources := (y.sources.map fun e => (e.1, e.2.filter fun w => w.rank != r)).filter fun e => !e.2.isEmpty }
    else x
  let s := (s.setXdie pos x).spreadShards pos o.ctx [r]
  let s := if o.started.isSome then s.after limit .collectiveTimeLimit arg else s
  if o.firstReady.isSome then s.after limit .collectiveTimeLimit { arg with ok := false } else s

/-- A rank-table entry is rewritten: every operation in flight that involves the rank restarts (R91). -/
def execRanktabWrite (s : State) : Res :=
  let pos := s.arg.pos
  let r := s.arg.rank
  let mask : W64 := 0xC0FF800000000000
  let x := s.xdie pos
  let x := { x with ranktab := SMap.put x.ranktab r (s.arg.value &&& mask) }
  let hit := x.colls.filter fun o => decide (r < ctxRanks (x.context o.ctx))
  .next (hit.foldl (fun (s : State) o => s.restartOp pos r o) (s.setXdie pos x))

end Sys2Proof.Machine
end

