-- ==== Sys2Proof/Machine/EvColl.lean ====
section
/-! DEFINITION. The events of collective operations (R84, R86 to R93, R444). -/

namespace Sys2Proof.Machine

open Sys2Proof

/-- A contribution of the package's own dies reaches the X-die that its word named (R86, R89, R444): one whose E
differs, that covers an element already received, or that does not fit the 8 MiB buffer aborts the operation. Contributions of one
pulse are placed in ascending context order. -/
def execCollectiveContribution (s : State) : Res :=
  match SMap.find s.arg.n s.net with
  | none => .next s
  | some p =>
    let pos := p.target
    let c := p.addr
    if s.lowerArrival pos c then .next { s with inbox := s.inbox ++ [(.collectiveContribution, s.arg)] }
    else
      let (s', o) := s.beginOp pos c ((s.xdie pos).opNum c)
      let x := s'.xdie pos
      let k := x.context c
      let con := p.con
      let count := if o.count = 0 then con.count else o.count
      let dup := con.vals.any fun v => decide (count ≤ v.1) || o.mine.any fun (y : Nat × Nat) => y.1 == v.1
      let x' := x.setOp { o with count := count, mine := o.mine ++ con.vals }
      let t := if con.count ≠ count ∨ dup ∨ bufferBytes < x'.used then
          { s' with inbox := s'.inbox ++ [(.abort, { pos := pos, n := c, off := o.num, m := 2 })] }
        else ((s'.setXdie pos x').spreadShards pos c (List.range (ctxRanks k))).collReady pos c
      .next (t.reply s.arg.n { p with typ := 3 })

/-- Rank 0 receives READY from an owner (R88), before its own contributions or after: with the last it commits in the next pulse,
unless an ABORT comes with it. -/
def execReady (s : State) : Res :=
  let pos := s.arg.pos
  let c := s.arg.n
  let num := s.arg.off
  let x := s.xdie pos
  let k := x.context c
  if num < x.opNum c then .next s
  else
    let x := x.reach c num
    let o := (x.opAt c num).getD { ctx := c, num := num }
    let o' := { o with ready := o.ready ++ [s.arg.rank], firstReady := some (o.firstReady.getD s.cy) }
    let s := s.setXdie pos (x.setOp o')
    let s := if o.firstReady.isNone then
        s.after (ctxLimit k * Config.cyPerUs) .collectiveTimeLimit { pos := pos, n := c, off := num, ok := false, value := BitVec.ofNat 64 s.cy }
      else s
    if (ownersOf (ctxRanks k)).all (fun j => o'.ready.contains j) then
      .next (s.after 1 .commit { pos := pos, n := c, off := num, rank := 0 })
    else .next s

/-- COMMIT (R88): rank 0 tells every owner; each writes its result, which all but REDSCAT send to every rank. -/
def execCommit (s : State) : Res :=
  let pos := s.arg.pos
  let c := s.arg.n
  let x := s.xdie pos
  let k := x.context c
  let mine := ctxMine k
  match x.op c with
  | none => .next s
  | some o =>
    if o.committed || o.num != s.arg.off then .next s
    else
      let others := (ownersOf (ctxRanks k)).filter fun r => r != mine
      let s := s.setXdie pos (x.setOp { o with committed := true })
      let s := if mine = 0 then others.foldl (fun (s : State) r => s.sendControl pos 1 c o.num mine r) s else s
      let s := if ctxGraph k = 2 then s
        else others.foldl (fun (s : State) r =>
          o.results.foldl (fun (s : State) (w : Nat × W64) => s.sendResult pos c o.num mine r w.1 w.2) s) s
      .next (({ s with outs := s.outs ++ [Out.collective pos c mine 1] }).finishColl pos c)

/-- ABORT (R88, R90): the operation is dropped with status 1 and a LATE record; the detecting rank tells rank 0, which tells
every participant, whether or not the operation has begun there. Subcode 4 is an abort from another rank; `m` is 5
where a link error lies behind it. Once committed an operation aborts for a link error alone (R69), and an operation that has begun
while the one before it is open aborts after that (DEDUCED, log 26). -/
def execAbort (s : State) : Res :=
  let pos := s.arg.pos
  let c := s.arg.n
  let num := s.arg.off
  let x := (s.xdie pos).reach c num
  let k := x.context c
  let mine := ctxMine k
  let wins := s.arg.m == 3 || s.arg.m == 5
  let kind := if wins then 3 else 2
  if num < x.opNum c || ((x.op c).any (·.committed) && !wins && num = x.opNum c) then .next s
  else if x.opNum c < num then .next (s.after 1 .abort s.arg)
  else
  let s := if !ctxValid k then s
    else if mine = 0 then
      ((List.range (ctxRanks k)).filter fun r => r != 0).foldl (fun (s : State) r => s.sendControl pos kind c num mine r) s
    else if s.arg.m < 4 then s.sendControl pos kind c num mine 0
    else s
  if (x.op c).isNone then .next (s.setXdie pos { s.xdie pos with opNums := SMap.set 0 (s.xdie pos).opNums c (num + 1) })
  else
    let q := ctxPart k
    let s := s.sendReport { kind := 0x10, sub := min s.arg.m 4, part := q, lpos := (s.logical q pos).getD 0, hub := SMap.get 0 x.ctxHub c,
                            eng := 7, estat := estatOf 7 (min s.arg.m 4) 0, mark := (s.die pos).cad }
    .next (s.endOp pos c 1)

/-- A time limit expires (R88): an owner's before it sends READY, or rank 0's before it holds every READY. -/
def execCollectiveTimeLimit (s : State) : Res :=
  let pos := s.arg.pos
  let c := s.arg.n
  match (s.xdie pos).opAt c s.arg.off with
  | none => .next s
  | some o =>
    let late := if s.arg.ok then decide (some s.arg.value.toNat = o.started) && !o.sentReady
      else decide (some s.arg.value.toNat = o.firstReady) && !o.committed
    if late then .next { s with inbox := s.inbox ++ [(.abort, { pos := pos, n := c, off := s.arg.off, m := 1 })] } else .next s

end Sys2Proof.Machine
end

