-- ==== Sys2Proof/Machine/Atomics.lean ====
section
/-! DEFINITION. Atomics of the control core (R187, R188, R199, R351, R352) and the read-modify-write that
every atomic performs at its home. -/

namespace Sys2Proof.Machine

open Sys2Proof

/-- The new value of a location, at width `n` bytes (R351, R352). -/
def amoValue (op : AmoOp) (n old x expect : Nat) : Nat :=
  let m := 2 ^ (8 * n)
  let st : ITy := ⟨8 * n, true⟩
  match op with
  | .add => (old + x) % m
  | .and => old &&& x
  | .or => old ||| x
  | .xor => old ^^^ x
  | .min => if st.decode x < st.decode old then x else old
  | .max => if st.decode old < st.decode x then x else old
  | .minu => if x < old then x else old
  | .maxu => if old < x then x else old
  | .xchg => x
  | .fadd => fp32.add 0 old x
  | .cas => if old = expect then x else old

/-- Performs an atomic at its home: the state after it, the old value and whether its line was poisoned, in
which case the line stays so (R256, R351). -/
def State.perform (s : State) (q : AmoReq) : State × Nat × Bool :=
  let old := s.readNat q.addr q.size
  let pois := s.poisoned q.addr q.size
  let v := amoValue q.op q.size old q.operand q.expect
  (s.writeBytes q.addr (leBytes q.size v) (pois || q.pois), old, pois || q.pois)

/-- An AMO or CAS once its operands are read (R351, R352). -/
def doAmo (op : AmoOp) (d : R6) (z : Nat) (x y e : PVal) (s : State) : State :=
  let n := 2 ^ z
  let dest := [poisonS d 400]
  if x.p || y.p || (op == .cas && e.p) then s.coreFault 0x0A 2 dest
  else
    match s.translate s.cur.die s.cur.hub .amo x.v.toNat n n with
    | .error c => s.coreFault 0x0B c dest
    | .ok t =>
      let l := s.curHub.launch
      match s.violation s.cur.die s.cur.hub 0 .atomic t.addr n with
      | some c => s.coreFault 0x02 c dest
      | none =>
        if !l.timed && l.det && s.sharedAtomic l.part s.cur.die s.cur.hub (s.curHub.ranges 0) t.addr
            && !detAllows op (decide (d ≠ 0)) then s.coreFault 0x02 4 dest
        else
          let q : AmoReq :=
            { op := op, addr := t.addr, size := n, operand := y.v.toNat % 2 ^ (8 * n),
              expect := e.v.toNat % 2 ^ (8 * n), die := s.cur.die, hub := s.cur.hub, reg := d.toNat,
              at_ := s.now + 400 }
          if t.timed then
            (s.request t.die 200 (.amo q)).advance 1
          else
            (s.countedLoad { s.packet 4 t.die t.addr n with reg := d.toNat, amo := some q } true
              (s.promiseTo s.cur.die t.die)).advance 1

/-- An AMO reads its pointer and operand; an open store mark holds it (R228). -/
def amo (i : Instr) (op : AmoOp) (d a b : R6) (z : Nat) (s : State) : State :=
  let x := s.readS a
  let y := s.readS b
  heldByMark i x y {} (doAmo op d z x y {}) s

/-- AMO.add (R351). -/
def execAmoAdd (d a b : R6) (z : BitVec 2) (s : State) : Res :=
  .next (amo (.amoAdd d a b z) .add d a b z.toNat s)
/-- AMO.and (R351). -/
def execAmoAnd (d a b : R6) (z : BitVec 2) (s : State) : Res :=
  .next (amo (.amoAnd d a b z) .and d a b z.toNat s)
/-- AMO.or (R351). -/
def execAmoOr (d a b : R6) (z : BitVec 2) (s : State) : Res :=
  .next (amo (.amoOr d a b z) .or d a b z.toNat s)
/-- AMO.xor (R351). -/
def execAmoXor (d a b : R6) (z : BitVec 2) (s : State) : Res :=
  .next (amo (.amoXor d a b z) .xor d a b z.toNat s)
/-- AMO.min (R351). -/
def execAmoMin (d a b : R6) (z : BitVec 2) (s : State) : Res :=
  .next (amo (.amoMin d a b z) .min d a b z.toNat s)
/-- AMO.max (R351). -/
def execAmoMax (d a b : R6) (z : BitVec 2) (s : State) : Res :=
  .next (amo (.amoMax d a b z) .max d a b z.toNat s)
/-- AMO.minu (R351). -/
def execAmoMinu (d a b : R6) (z : BitVec 2) (s : State) : Res :=
  .next (amo (.amoMinu d a b z) .minu d a b z.toNat s)
/-- AMO.maxu (R351). -/
def execAmoMaxu (d a b : R6) (z : BitVec 2) (s : State) : Res :=
  .next (amo (.amoMaxu d a b z) .maxu d a b z.toNat s)
/-- AMO.xchg (R351). -/
def execAmoXchg (d a b : R6) (z : BitVec 2) (s : State) : Res :=
  .next (amo (.amoXchg d a b z) .xchg d a b z.toNat s)
/-- AMO.fadd, FP32 only (R351). -/
def execAmoFadd (d a b : R6) (s : State) : Res := .next (amo (.amoFadd d a b) .fadd d a b 2 s)
/-- CAS: s(d) holds the value compared with (R352). -/
def execCas (d a b : R6) (z : BitVec 2) (s : State) : Res :=
  let x := s.readS a
  let y := s.readS b
  let e := s.readS d
  .next (heldByMark (.cas d a b z) x y e (doAmo .cas d z.toNat x y e) s)

end Sys2Proof.Machine
end

