-- ==== Sys2Proof/Machine/EvHub.lean ====
section
/-! DEFINITION. Segments start, and the waits of a control core end (R173, R174, R176 to R178, R184, R185, R228
to R234, R270, R287, R289, R363 to R365, R374, R484). -/

namespace Sys2Proof.Machine

open Sys2Proof

/-! ### Segments (R173, R174) -/

/-- The first mark of a hub's parity from a cycle on, where its streams alternate (R166, R174). -/
def State.evened (s : State) (die hub e t : Nat) : Nat :=
  if s.alternates die hub e && decide ((s.die die).markAt t % 2 ≠ hub % 2) then t + 1 else t

/-- The queued segment of an engine that starts in this scy, by its place in the queue. -/
def State.segmentDue (s : State) (die hub e : Nat) : Option Nat :=
  let h := s.hub die hub
  let t := h.stream e
  let now := (s.die die).cad
  if h.launch.timed then t.queue.findIdx? fun g => decide (g.start ≤ now)
  else if t.stopped || t.seg.isSome then none
  else
    match t.queue with
    | [] => none
    | g :: _ => if s.evened die hub e (max (max g.start (g.go + 8)) t.free) ≤ now then some 0 else none

/-- SEGMENT_START (R173, R174): a timed segment whose engine is still issuing an earlier one does not start, and
raises missed start with its start cycle as the fault mark. -/
def execSegmentStart (s : State) : Res :=
  let die := s.arg.die
  let hub := s.arg.hub
  let e := s.arg.eng
  let h := s.hub die hub
  let t := h.stream e
  match s.segmentDue die hub e with
  | none => .next s
  | some i =>
    let g := t.queue.getD i ⟨0, 0, 0⟩
    let q := t.queue.eraseIdx i
    if h.launch.timed && (t.seg.isSome || decide (g.start < t.free)) then
      .next ((s.setHub die hub (h.setStream e { t with queue := q })).takeFault die hub
        ⟨0x04, 4, e, detailOf g.num 0 (if e = 1 then 0xFFFF else 0), (s.die die).markAt g.start⟩ [])
    else
      let tan := if e = 1 then none else h.tan
      .next (s.setHub die hub
        { h.setStream e { t with queue := q, seg := some g.num, pos := 0, next := (s.die die).cad } with tan := tan })

/-! ### Waits that an event ends -/

/-- The control core of the hub that an event names is the unit at hand. -/
def State.atCore (s : State) : State := { s with cur := ⟨s.arg.die, s.arg.hub, 0⟩ }

/-- A held access issues, with the operands of its first issue (R228, R384). -/
def runHeld (x : Held) : State → State :=
  match x.instr with
  | .ld d _ z i => doLd d z i x.va
  | .ldx d _ z i => doLdx d z i x.va
  | .amoAdd d _ _ z => doAmo .add d z.toNat x.va x.vb x.vd
  | .amoAnd d _ _ z => doAmo .and d z.toNat x.va x.vb x.vd
  | .amoOr d _ _ z => doAmo .or d z.toNat x.va x.vb x.vd
  | .amoXor d _ _ z => doAmo .xor d z.toNat x.va x.vb x.vd
  | .amoMin d _ _ z => doAmo .min d z.toNat x.va x.vb x.vd
  | .amoMax d _ _ z => doAmo .max d z.toNat x.va x.vb x.vd
  | .amoMinu d _ _ z => doAmo .minu d z.toNat x.va x.vb x.vd
  | .amoMaxu d _ _ z => doAmo .maxu d z.toNat x.va x.vb x.vd
  | .amoXchg d _ _ z => doAmo .xchg d z.toNat x.va x.vb x.vd
  | .amoFadd d _ _ => doAmo .fadd d 2 x.va x.vb x.vd
  | .cas d _ _ z => doAmo .cas d z.toNat x.va x.vb x.vd
  | _ => id

/-- STORE_MARK_CLOSE: the mark's accesses have been performed (R228). -/
def execStoreMarkClose (s : State) : Res :=
  let s := s.atCore
  let h := s.curHub
  if h.mark = some [] then
    let t := s.setCurHub { h with mark := none }
    match h.wait with
    | .mark x => .next (runHeld x (t.setCurHub { t.curHub with wait := .none }))
    | _ => .next t
  else .next s

/-- FENCE_END (R229). -/
def execFenceEnd (s : State) : Res :=
  let s := s.atCore
  match s.curHub.wait with
  | .fence sc => if s.fenceMet s.cur.die s.cur.hub sc then .next (s.advance 1) else .next s
  | _ => .next s

/-- TLWAIT_END: m is the first scy at whose start the timeline meets the target (R363). -/
def execTlwaitEnd (s : State) : Res :=
  let s := s.atCore
  match s.curHub.wait with
  | .timeline q n => if n ≤ (s.curHub.timeline q).count then .next (s.advance 1) else .next s
  | _ => .next s

/-- TICK_EXPIRY: the next instruction issues in this scy (R374). -/
def execTickExpiry (s : State) : Res :=
  let s := s.atCore
  match s.curHub.wait with
  | .tick u => if u ≤ s.now then .next (s.advance 0) else .next s
  | _ => .next s

/-- POP_TAKE: an entry stands in the reply queue at the start of the scy (R287, R365). -/
def execPopTake (s : State) : Res :=
  let s := s.atCore
  match s.curHub.wait with
  | .pop d => .next (takeReply d s)
  | .popTag d => .next (takeTag d s)
  | _ => .next s

/-- Every hub that waits for a released generation goes on at its release mark (R177); in a counted launch, at
once. -/
def State.releaseHubs (s : State) (b : Barrier) (timed : Bool) : List (Nat × Nat) → State
  | [] => s
  | (k, _) :: r =>
    let h := s.hub (k / 8) (k % 8)
    let at_ := if timed then s.cadOf (k / 8) b.releaseMark else (s.die (k / 8)).cad
    let s := if h.wait = .bar b.level b.id then s.setHub (k / 8) (k % 8) (h.advance at_ 0) else s
    s.releaseHubs b timed r

/-- BARRIER_RELEASE (R176, R177): the first of the dies of a timed launch that comes to the release mark releases the generation.
While its launch stands still for a pre-emption a generation stays as it is: it is released after the resumption (R384). -/
def execBarrierRelease (s : State) : Res :=
  let p := s.part s.arg.part
  match p.barriers.find? (·.is s.arg.slot s.arg.m s.arg.n s.arg.team) with
  | none => .next s
  | some b =>
    let timed := ((s.slot s.arg.slot).run.map (·.launch.timed)).getD false
    if b.full && !(s.slot s.arg.slot).stopping && (!timed || b.releaseMark == s.arg.off) then
      let s := s.setPart s.arg.part { p with barriers := p.barriers.filter fun x => decide (x ≠ b) }
      .next (s.releaseHubs b timed b.arrived)
    else .next s

/-- PHASE_DIRECTORY_ANSWER: the directory's answer to the PHASE that a control core of a counted launch issued at `n` and still
waits at: one that stands still for a pre-emption issues its PHASE again, and takes no answer (R384); `off` is the subcode of a conflict, which stops the core at the PHASE while the previous phase stays in force, and 0
where the new sets are in force (R182, R184, R185). -/
def execPhaseDirectoryAnswer (s : State) : Res :=
  let s := s.atCore
  match s.curHub.wait with
  | .phase _ t =>
    if t ≠ s.arg.n ∨ s.curHub.run ≠ .running then .next s
    else if s.arg.off = 0 then .next (s.advance 1)
    else .next ((s.setCurHub { s.curHub with wait := .none }).coreFault 0x03 s.arg.off [])
  | _ => .next s

/-! ### When a wait ends -/

/-- The event that ends the wait of a running control core in this scy, if any. -/
def State.waitEvent (s : State) (die hub : Nat) : Option Instr :=
  let h := s.hub die hub
  if h.mark = some [] then some .storeMarkClose
  else
    match h.wait with
    | .timeline q n => if n ≤ (h.timeline q).count then some .tlwaitEnd else none
    | .tick u => if u ≤ (s.die die).cad then some .tickExpiry else none
    | .pop _ => if h.replies.isEmpty then none else some .popTake
    | .popTag _ => if h.replies.isEmpty then none else some .popTake
    | .fence sc => if s.fenceMet die hub sc then some .fenceEnd else none
    | _ => none

/-- The hub's BAR can be counted as an arrival (R176, R178). -/
def State.canArrive (s : State) (die hub level id : Nat) : Bool :=
  let t := (s.hub die hub).item.getD {}
  let key := 8 * die + hub
  s.barMet die hub &&
  match (s.part t.launch.part).barriers.find? (·.is t.launch.slot level id (barScope t die level)) with
  | none => true
  | some b => b.parts.contains key && !(b.arrived.any (·.1 == key))

/-- A wait that has no event of its own ends in this scy: the state after it (R174, R176, R234, R289, R484). -/
def State.settleWait (s : State) (die hub : Nat) : Option State :=
  let t := { s with cur := ⟨die, hub, 0⟩ }
  let h := s.hub die hub
  match h.wait with
  | .done => if s.doneMet die hub then some (t.finishDone die hub) else none
  | .halt => if s.doneMet die hub then some (t.finishHalt die hub) else none
  | .go e g o => if (h.stream e).queue.length < 8 then some ((enqueue e g o t).advance 1) else none
  | .push x => if s.portLoad die hub < 8 then some (doPush x t) else none
  | .fbind g c => if (s.xdie die).busy then none else some (doFbind g c t)
  | .bar l i => if s.canArrive die hub l i then some (t.arrive die hub l i) else none
  | _ => none

end Sys2Proof.Machine
end

