-- ==== Sys2Proof/Machine/Launch.lean ====
section
/-! DEFINITION. Launch records, items, teams and grants (R110, R111, R144, R161 to R175, R320, R321), and how a
launch leaves the hubs. -/

namespace Sys2Proof.Machine

open Sys2Proof

/-! ### The record (R110) -/

/-- A little-endian field of a record's bytes. -/
def recNat (bs : List Byte) (o n : Nat) : Nat := leNat ((bs.drop o).take n)

def recCode (bs : List Byte) (j : Nat) : Nat := recNat bs (0x40 + 8 * j) 8
def recClen (bs : List Byte) (j : Nat) : Nat := recNat bs (0x70 + 4 * j) 4
def recField (bs : List Byte) (i : Nat) : WField :=
  let d := recNat bs (0x90 + 8 * i) 8
  { extent := bits d 63 32, order := bits d 23 21, width := bits d 20 14, lsb := bits d 5 0 }
/-- The nonzero hub masks by logical position. -/
def recHubs (bs : List Byte) : List (Nat × Nat) :=
  (List.range 48).filterMap fun l => let m := recNat bs (0xC0 + l) 1; if m = 0 then none else some (l, m)
def recTeam (bs : List Byte) : Nat := 2 ^ bits (recNat bs 0 8) 44 43
def recTimed (bs : List Byte) : Bool := (recNat bs 0 8).testBit 52

/-- Used fields (R161). -/
def usedFields (fs : List WField) : List WField := fs.filter fun f => decide (f.width ≠ 0)
/-- N, the product of the extents of the used fields (R161). -/
def itemCount (fs : List WField) : Nat := (usedFields fs).foldl (fun n f => n * f.extent) 1

/-- The value of a field for an ordinal (R162): ORDER 0 is the outermost loop. -/
def fieldValue (fs : List WField) (n : Nat) (f : WField) : Nat :=
  if f.width = 0 then 0
  else n / ((usedFields fs).foldl (fun x g => if f.order < g.order then x * g.extent else x) 1) % f.extent

/-- A work identifier from its field values (R161). -/
def workId : List WField → List Nat → Nat
  | f :: fs, v :: vs => (if f.width = 0 then 0 else v * 2 ^ f.lsb) + workId fs vs
  | _, _ => 0

/-! ### Teams (R163) -/

/-- The hubs of a mask, ascending. -/
def maskHubs (m : Nat) : List Nat := (List.range 8).filter fun h => m.testBit h

/-- Every run of `n` hubs of a set is one team, as its position and mask; none where some run is no team. -/
def teamsOf (n : Nat) : Nat → List (Nat × Nat) → Option (List (Nat × Nat))
  | 0, _ => none
  | _ + 1, [] => some []
  | f + 1, x :: r =>
    let t := (x :: r).take n
    if t.length = n ∧ t.all (fun y => y.1 == x.1) ∧ x.2 % n = 0 then
      (teamsOf n f ((x :: r).drop n)).map fun ts => (x.1, t.foldl (fun m y => m + 2 ^ y.2) 0) :: ts
    else none

/-- The teams of a hub set, in order. -/
def hubTeams (n : Nat) (hs : List (Nat × Nat)) : Option (List (Nat × Nat)) :=
  let all := hs.flatMap fun x => (maskHubs x.2).map fun h => (x.1, h)
  if all.isEmpty then none else teamsOf n (all.length + 1) all

/-! ### Validation (R111) -/

/-- Subcode 2: the format, the reserved bits and PLID of a counted record (R110, R111); CADDR's alignment, for which R111 names no
subcode, is among them (DESIGN CHOICE, log 120). -/
def recordShape (bs : List Byte) : Bool :=
  let d0 := recNat bs 0 8
  bits d0 63 56 == 1 && d0 % 2 ^ 32 == 0 && recNat bs 0x38 8 == 0 && recNat bs 0x88 8 == 0 &&
  recNat bs 0xF0 8 == 0 && recNat bs 0xF8 8 == 0 && recNat bs 0x20 8 % 8 == 0 &&
  ((List.range 6).all fun i =>
    let d := recNat bs (0x90 + 8 * i) 8
    bits d 31 24 == 0 && bits d 13 6 == 0 && (bits d 20 14 != 0 || d == 0)) &&
  (recTimed bs || bits d0 51 48 == 0)

/-- The engine that runs section j (R268). -/
def sectionEng : Nat → Nat
  | 1 => 1 | 2 => 2 | 3 => 3 | 4 => 5 | 5 => 7 | _ => 0

/-- Subcode 3. -/
def State.recordArgs (s : State) (part : Nat) (bs : List Byte) : Bool :=
  let d0 := recNat bs 0 8
  let kinds := (recHubs bs).map fun x => match s.phys part x.1 with | some p => s.kind p | none => .none
  let wlist := recNat bs 0x30 8
  decide (bits d0 47 45 ≤ 4) && (!d0.testBit 39 || decide (4 ≤ bits d0 38 32 ∧ bits d0 38 32 ≤ 123)) &&
  ((List.range 6).all fun j => j == 0 || recClen bs j == 0 || kinds.any (·.hasEng (sectionEng j))) &&
  (!d0.testBit 42 || kinds.any (· == .vDie)) &&
  (if d0.testBit 40 then wlist != 0 && wlist % 8 == 0 else wlist == 0)

/-- Bits that a field covers. -/
def fieldBits (f : WField) : List Nat := (List.range f.width).map (· + f.lsb)

/-- Subcode 4; an EXTENT of 0 breaks R110's "at least 1" (DEDUCED, log 31). -/
def fieldsOk (fs : List WField) : Bool :=
  let us := usedFields fs
  (us.all fun f => decide (f.lsb + f.width ≤ 64) && decide (1 ≤ f.extent ∧ f.extent ≤ 2 ^ f.width)) &&
  decide ((us.flatMap fieldBits).Nodup) &&
  ((List.range us.length).all fun o => (us.filter fun f => f.order == o).length == 1) &&
  decide (itemCount fs ≤ 2 ^ 48)

/-- Subcode 6: the hub set lies on bound positions with those hubs, in whole teams. -/
def State.hubsOk (s : State) (part : Nat) (bs : List Byte) : Bool :=
  ((recHubs bs).all fun x => match s.phys part x.1 with
    | some p => decide (x.2 < 2 ^ (s.kind p).hubs)
    | none => false) &&
  (hubTeams (recTeam bs) (recHubs bs)).isSome

/-- Subcode 7: a timed launch's paceline is the partition's, and every die of the hub set is a member. -/
def State.paceOk (s : State) (part : Nat) (bs : List Byte) : Bool :=
  let n := bits (recNat bs 0 8) 51 48
  !recTimed bs ||
  ((s.pl n).formed && (s.pl n).part == part &&
   (recHubs bs).all fun x => match s.phys part x.1 with | some p => s.isMember n p | none => false)

/-- Where a hub or the H-die reads `n` bytes of spaces 0x0 to 0x4 for a partition, in the order of R194; the error is
a subcode. -/
def State.codePlace (s : State) (die hub part x n : Nat) : Except Nat Nat :=
  let sp := ptrSpace x
  if 8 ≤ sp then .error 1
  else if 5 ≤ sp then .error 4
  else match s.owner die hub part x with
    | .error e => .error e
    | .ok (home, limit, q) =>
      if limit < ptrOff x + n then .error 3
      else if sp = 4 ∧ !((linesOf (ptrOff x) n).all fun ln => s.slotValid q (ln / 1024)) then .error 8
      else .ok (flat home (ptrOff x))

/-- A place in spaces 0x1 to 0x4 that the H-die reads for a partition (R170). -/
def State.hPlace (s : State) (part x n : Nat) : Except Nat Nat :=
  if ptrSpace x = 0 then .error 4 else s.codePlace s.actingH 0 part x n

/-- One entry of a segment directory (R321). -/
def segmentOk (clen d : Nat) : Bool :=
  let len := bits d 55 32
  bits d 63 56 == 0 && (len == 0 || (decide (512 ≤ d % 2 ^ 32) && d % 4 == 0 && decide (d % 2 ^ 32 + 4 * len ≤ clen)))

/-- The hubs of a record's hub set: physical die and hub. -/
def State.setHubs (s : State) (part : Nat) (bs : List Byte) : List (Nat × Nat) :=
  (recHubs bs).flatMap fun x => match s.phys part x.1 with | some p => (maskHubs x.2).map fun h => (p, h) | none => []

/-- A section as one hub finds it is well formed (R320, R321). -/
def State.sectionAt (s : State) (part x n j : Nat) (h : Nat × Nat) : Bool :=
  match s.codePlace h.1 h.2 part x n with
  | .error _ => false
  | .ok a => j == 0 || j == 5 || (decide (512 ≤ n) && (List.range 64).all fun i => segmentOk n (s.readNat (a + 8 * i) 8))

/-- Section j of a record is well formed for every hub that copies it: each hub of the set reads it through CODEj, in
spaces 0x0 to 0x4 (R320, R321; DEDUCED, log 31). -/
def State.sectionOk (s : State) (part : Nat) (bs : List Byte) (j : Nat) : Bool :=
  let n := recClen bs j
  let x := recCode bs j
  if 8 ≤ ptrSpace x then false
  else if n = 0 then j != 0
  else
    (j != 0 || x != 0) && decide (n ≤ 262144) && n % (if j = 5 then 12 else 4) == 0 &&
    (s.setHubs part bs).all (s.sectionAt part x n j)

/-- The subcode of a launch-refused record, if any (R111). An empty record is one whose fetch failed. -/
def State.refusal (s : State) (part : Nat) (bs : List Byte) : Option Nat :=
  if bs.length < 256 then some 1
  else if !recordShape bs then some 2
  else if !s.recordArgs part bs then some 3
  else if !fieldsOk ((List.range 6).map (recField bs)) then some 4
  else if !(s.part part).lock then some 5
  else if !s.hubsOk part bs then some 6
  else if !s.paceOk part bs then some 7
  else if !((List.range 6).all (s.sectionOk part bs)) || decide (8 ≤ ptrSpace (recNat bs 0x18 8)) ||
      ((recNat bs 0 8).testBit 40 && !(let sp := ptrSpace (recNat bs 0x30 8); decide (1 ≤ sp ∧ sp ≤ 4))) then some 8
  else none

/-! ### The launch (R161 to R170) -/

/-- One doubleword that the derailleur reads from a list: its value, or 256 × kind + subcode of the fault that the
team's first hub raises (R170). -/
def State.listWord (s : State) (part x : Nat) (e : Int) : Except Nat Nat :=
  match eaOf x e with
  | none => .error (0x0B * 256 + (match s.hPlace part (pastOff x) 8 with
    | .error c => c
    | .ok _ => 3))
  | some y =>
    match s.hPlace part y 8 with
    | .error c => .error (0x0B * 256 + c)
    | .ok a => if s.poisoned a 8 then .error (0x0A * 256 + 2) else .ok (s.readNat a 8)

/-- Team t's entry of the work-list table (R170). An entry whose reserved bits, or whose LIST's low bits, are not 0
is taken as one that cannot be read, subcode 3 (DESIGN CHOICE, log 32); an entry that faults counts one item, whose
start raises the fault. -/
def State.listEntry (s : State) (part wlist t : Nat) : Nat × Nat × Nat :=
  match s.listWord part wlist (16 * t), s.listWord part wlist (16 * t + 8) with
  | .ok p, .ok c => if p % 8 = 0 ∧ c < 2 ^ 32 then (p, c, 0) else (p, 1, 0x0B * 256 + 3)
  | .error f, _ => (0, 1, f)
  | _, .error f => (0, 1, f)

/-- The launch that a validated record describes. -/
def State.runOf (s : State) (slot : Nat) : Run :=
  let x := s.slot slot
  let bs := x.record.bytes
  let d0 := recNat bs 0 8
  let part := x.qcb.part
  let fs := (List.range 6).map (recField bs)
  let ts := (hubTeams (recTeam bs) (recHubs bs)).getD []
  let wl := d0.testBit 40
  let lists := if wl then (List.range ts.length).map (s.listEntry part (recNat bs 0x30 8)) else []
  let n := if wl then (lists.map (·.2.1)).sum else itemCount fs
  { launch :=
      { slot := slot, part := part, pasid := x.qcb.pasid, qid := x.qcb.qid, ltag := x.qcb.ltag, timed := recTimed bs
        plid := bits d0 51 48, tk := bits d0 47 45, det := d0.testBit 41, ds := d0.testBit 42, wl := wl
        args := BitVec.ofNat 64 (recNat bs 0x18 8), tsize := recTeam bs, nteam := ts.length, nitem := n
        hubset := recHubs bs, code := (List.range 6).map fun j => (BitVec.ofNat 64 (recCode bs j), recClen bs j) }
    fields := fs
    teams := ts.map fun t => (t.1, (s.phys part t.1).getD 0, t.2)
    wlist := BitVec.ofNat 64 (recNat bs 0x30 8), cie := d0.testBit 39, cvec := bits d0 38 32
    caddr := recNat bs 0x20 8, cval := BitVec.ofNat 64 (recNat bs 0x28 8), lists := lists
    tstart := recNat bs 0x10 8 % 2 ^ 32, tperiod := recNat bs 0x10 8 / 2 ^ 32 }

/-- Every hub of the launch: die and hub. -/
def Run.hubs (r : Run) : List (Nat × Nat) := r.teams.flatMap fun t => (maskHubs t.2.2).map fun h => (t.2.1, h)

/-- Items that team t runs in all: of its list, or in a timed launch its share of the enumeration (R168, R170). -/
def Run.share (r : Run) (t : Nat) : Nat :=
  if r.launch.wl then (r.lists.getD t (0, 0, 0)).2.1 else (r.launch.nitem + r.teams.length - 1 - t) / r.teams.length

/-- Items that team t has taken. -/
def Run.got (r : Run) (t : Nat) : Nat := SMap.get 0 r.taken t

/-- Team t may take a further item. -/
def Run.more (r : Run) (t : Nat) : Bool :=
  !r.halt && !r.abort &&
  (if r.launch.wl || r.launch.timed then decide (r.got t < r.share t) else decide (r.next < r.launch.nitem))

/-- A launch has items that are not yet placed. -/
def Run.unplaced (r : Run) : Bool := (List.range r.teams.length).any r.more

/-- The ordinal of team t's jth item (R168, R170); in a counted launch without lists the next in enumeration order. -/
def Run.ordinal (r : Run) (t j : Nat) : Nat :=
  if r.launch.wl then ((r.lists.take t).map (·.2.1)).sum + j else if r.launch.timed then t + j * r.teams.length else r.next

/-- The start mark of team t's jth item in a timed launch (R168, R170). -/
def Run.startMark (r : Run) (j : Nat) : Nat := r.launch.lbase + r.tstart + j * r.tperiod

/-- The item of an ordinal; with lists, the jth of team t, or the fault of reading it. -/
def State.itemOf (s : State) (r : Run) (t j ord start : Nat) : Except Nat Item :=
  let tm := r.teams.getD t (0, 0, 0)
  let mk := fun (vs : List Nat) (w : Nat) =>
    ({ launch := r.launch, lpos := tm.1, team := t, lead := tm.2.1 * 8 + (maskHubs tm.2.2).headD 0, ord := ord
       wid := BitVec.ofNat 64 w, fields := vs.map (BitVec.ofNat 64), start := start } : Item)
  if r.launch.wl then
    let e := r.lists.getD t (0, 0, 0)
    if e.2.2 ≠ 0 then .error e.2.2
    else match s.listWord r.launch.part e.1 (8 * j) with
      | .error f => .error f
      | .ok w => .ok (mk (r.fields.map fun f => if f.width = 0 then 0 else w / 2 ^ f.lsb % 2 ^ f.width) w)
  else
    let vs := r.fields.map (fieldValue r.fields ord)
    .ok (mk vs (workId r.fields vs))

/-! ### A hub takes an item (R171) -/

/-- The words of a section that a hub copies (R320). The instruction store has no poison (R253): a word from a poisoned line is a
free value (log 109). -/
def State.sectionWords (s : State) (die hub part : Nat) (x : W64 × Nat) : List Nat :=
  match s.codePlace die hub part x.1.toNat x.2 with
  | .error _ => []
  | .ok a =>
    let bad := s.poisoned a x.2
    (List.range (x.2 / 4)).map fun i =>
      if bad && s.poisoned (a + 4 * i) 4 then Config.poisonedCode s.cy (8 * die + hub) (a + 4 * i) % 2 ^ 32 else s.readNat (a + 4 * i) 4

/-- Where a hub reads the sections of a launch. -/
def State.sectionPlaces (s : State) (die hub : Nat) (l : Launch) : List (Nat × Nat) :=
  l.code.filterMap fun x => match s.codePlace die hub l.part x.1.toNat x.2 with
    | .error _ => none
    | .ok a => some (a, x.2)

/-- A doubleword of a list, where it can be read (R170). -/
def State.listPlace (s : State) (part x : Nat) (e : Int) : List (Nat × Nat) :=
  match eaOf x e with
  | none => []
  | some y => match s.hPlace part y 8 with
    | .error _ => []
    | .ok a => [(a, 8)]

/-- A hub takes its first item of a launch: the sections are copied, timelines and replies are cleared, and the
drafting unit forgets, and k.tstride and the drain-scale base are 0 (R171, R201, R265, R320, R425). -/
def State.firstItem (s : State) (die hub : Nat) (l : Launch) (h : Hub) : Hub :=
  { h with
    code := (l.code.zipIdx.map fun x => (x.2, s.sectionWords die hub l.part x.1)).filter fun e => !e.2.isEmpty
    timelines := [], tstride := 0, drainBase := 0, keys := none
    maps := (List.range 8).map fun i => let m := SMap.get {} h.maps i; (i, { m with gen := m.gen + 1, lost := false }) }

/-- A hub turns to the launch of an item. Of a launch that it left for items of others it goes on with what it carries: between
items of one launch the instruction store, the timelines, k.tstride and the drain-scale base stay (R171, R201, R320, R425; DEDUCED,
log 99). -/
def State.turnTo (s : State) (die hub : Nat) (l : Launch) : Hub :=
  let h := s.hub die hub
  if h.took = some l.qid then h
  else
    let kept := match h.took with
      | some q => SMap.put h.kept q ⟨h.code, h.timelines, h.tstride, h.drainBase⟩
      | none => h.kept
    let h := { h with
      took := some l.qid, kept := SMap.drop kept l.qid, streams := [], replies := [], ports := [], accesses := [], mark := none
      packet := none, port := [], drHeld := none, ixq := [], ixrun := none, replay := [], replaying := false, pending := [], popped := [] }
    match SMap.find l.qid kept with
    | some c => { h with code := c.code, timelines := c.timelines, tstride := c.tstride, drainBase := c.drainBase }
    | none => s.firstItem die hub l h

/-- The state of R171 at the lead point. -/
def Hub.preload (h : Hub) (t : Item) (now : Nat) : Hub :=
  let v : List W64 := (List.range 6).map (fun i => t.fields.getD i 0) ++ [t.wid, BitVec.ofNat 64 t.ord]
  { h with
    s := v.zipIdx.map fun x => (x.2 + 1, (⟨x.1, false⟩ : PVal))
    p := [], lc := [], loops := [], handles := [], vbytes := [], vpois := [], masks := [], shape := {}, tan := none
    sets := [], pendSets := [], refused := none, pc := 0, next := now, run := .running, wait := .none, item := some t, portServed := 0 }

/-- A register write that a unit of the hub still owes from its last item. -/
def Due.owed (d : Due) (die hub : Nat) : Bool :=
  decide (d.die = die) && decide (d.hub = hub) &&
  (match d.act with
   | .ev .countedReplyDeadline _ => true
   | .regS .. | .load .. | .regP .. | .handle .. | .vec .. | .maskBits .. | .shape _ | .tstride _ => true
   | _ => false)

/-- A hub holds neither a launch nor what it carries of it: it takes the launch's first item. -/
def Hub.isNew (h : Hub) (l : Launch) : Bool := decide (h.took ≠ some l.qid) && (SMap.find l.qid h.kept).isNone

/-- A hub takes an item at its lead point: it is set as R171 says, whatever its last item still owed (DEDUCED,
log 33), and its die runs at the launch's k (R190). An uncorrectable error in a section that it copies is recorded (R195). -/
def State.takeItem (s : State) (die hub : Nat) (t : Item) : State :=
  let h := s.turnTo die hub t.launch
  let rank := hub - t.lead % 8
  let s := { s with agenda := s.agenda.filter fun (d : Due) => !d.owed die hub }
  let fresh := (s.hub die hub).isNew t.launch
  let s := s.setHub die hub (h.preload { t with trank := rank } (s.die die).cad)
  let s := s.setDie die { s.die die with tk := t.launch.tk }
  if fresh then s.eccRead die hub 0 0 (s.sectionPlaces die hub t.launch) else s

/-! ### Free hubs and grants (R144, R164, R190) -/

/-- The team's item is on its way. -/
def Run.coming (r : Run) (t : Nat) : Bool := r.placed.any (·.1 == t)

/-- Items on their way: launch, die and hub mask of their teams. -/
def State.comings (s : State) : List (Launch × Nat × Nat) :=
  s.slots.flatMap fun e => match e.2.run with
    | some r => r.placed.map fun x => (r.launch, (r.teams.getD x.1 (0, 0, 0)).2)
    | none => []

/-- An item is on its way to a hub. -/
def State.expects (s : State) (die hub : Nat) : Bool := s.comings.any fun x => x.2.1 == die && x.2.2.testBit hub

/-- Every item that a die runs, or that is on its way to it, has tangent count `k` (R190). -/
def State.sameTk (s : State) (die k : Nat) : Bool :=
  ((List.range 8).all fun h => match (s.hub die h).item with
    | some t => t.launch.tk == k
    | none => true) &&
  s.comings.all fun x => x.2.1 != die || x.1.tk == k

/-- A die is named by a paceline that is being formed (R50, R51). -/
def State.inForming (s : State) (p : Nat) : Bool := s.pls.any fun e => decide (e.2.stage ≠ 0) && e.2.taken.testBit p

/-- A hub is free for a launch: it holds no item, its array is not held by another launch (R164), its die runs no
item with another k (R190), and in a counted launch its die is no member of a formed paceline (R53). -/
def State.hubFree (s : State) (l : Launch) (die hub : Nat) : Bool :=
  let h := s.hub die hub
  let d := s.die die
  h.item.isNone && !s.expects die hub && d.powered && !d.gated && (l.timed || !(d.member || s.inForming die)) &&
  (s.kind die != .mDie || (match (s.arr die (hub / 2)).held with | none => true | some q => q == l.qid)) &&
  (if l.timed then d.member && d.plid == l.plid else s.sameTk die l.tk)

/-- A team of a launch is free. -/
def State.teamFree (s : State) (r : Run) (avoid : List (Nat × Nat)) (t : Nat) : Bool :=
  let tm := r.teams.getD t (0, 0, 0)
  !r.coming t && (maskHubs tm.2.2).all fun h => s.hubFree r.launch tm.2.1 h && !avoid.contains (tm.2.1, h)

/-- The launch that a slot would run: its own, its saved one, or the one that its record describes. -/
def State.runFor (s : State) (slot : Nat) : Option Run :=
  let x := s.slot slot
  if x.qcb.state = 2 then x.run
  else if x.qcb.state = 3 then ((s.part x.qcb.part).susp.find? fun v => v.qid == x.qcb.qid && v.ltag == x.qcb.ltag).map (·.run)
  else if x.qcb.state = 1 ∧ x.validated then some (s.runOf slot)
  else none

/-- The slot is a candidate of its partition (R143). -/
def State.candidate (s : State) (slot : Nat) : Bool :=
  let x := s.slot slot
  x.valid &&
  (match x.qcb.state with
   | 1 => x.validated
   | 2 => match x.run with
     | some r => !r.launch.timed && r.unplaced
     | none => false
   | 3 => !x.hold
   | _ => false)

/-- A candidate takes a grant unless HOLD is set, or its launch is being pre-empted or reloaded (R139, R244, R260). -/
def State.takesGrant (s : State) (slot : Nat) : Bool :=
  let x := s.slot slot
  s.candidate slot && !x.hold && !(x.qcb.state == 2 && (x.preq || x.stopping))

/-- Launches of a partition may start (R129, R131, R133, R134, R158; the TDISP state is DEDUCED, log 34). -/
def State.mayStart (s : State) (part : Nat) : Bool :=
  let p := s.part part
  p.lock && p.tdisp == 2 && !p.scrubbing && !p.rstBusy && !p.parked && s.dev.power == .active && s.dev.gatedAt.isNone && !s.dev.bootRec

/-- Candidates of a partition that take grants, in the order of R144. -/
def State.candidates (s : State) (part : Nat) : List Nat :=
  let last := (s.part part).lastGrant
  let cs := ((List.range 16).map fun i => (last + 1 + i) % 16).filter fun n => s.takesGrant n && (s.slot n).qcb.part == part
  (List.range 8).flatMap fun i => cs.filter fun n => (s.slot n).qcb.prio == 7 - i

/-- A launch that is granted only with its whole hub set (R144). -/
def wholeSet (x : Slot) (r : Run) : Bool := r.launch.timed || x.qcb.state == 3

/-- The whole hub set is free; a timed launch needs its paceline too. -/
def State.setFree (s : State) (r : Run) (avoid : List (Nat × Nat)) : Bool :=
  ((List.range r.teams.length).all fun t => s.teamFree r avoid t) &&
  (!r.launch.timed || ((s.pl r.launch.plid).formed && (s.pl r.launch.plid).slot.isNone && !(s.pl r.launch.plid).held))

/-- The teams that a counted candidate can be granted now, ascending. -/
def State.freeTeams (s : State) (r : Run) (avoid : List (Nat × Nat)) : List Nat :=
  (List.range r.teams.length).filter fun t => r.more t && s.teamFree r avoid t

/-- Some candidate of a list can be granted hubs, past those whose hubs are reserved (R144). -/
def State.someGrant (s : State) : List (Nat × Nat) → List Nat → Bool
  | _, [] => false
  | avoid, n :: rest =>
    match s.runFor n with
    | none => s.someGrant avoid rest
    | some r =>
      if wholeSet (s.slot n) r then s.setFree r avoid || s.someGrant (avoid ++ r.hubs) rest
      else !(s.freeTeams r avoid).isEmpty || s.someGrant avoid rest

/-- Some candidate of a partition can be granted hubs. -/
def State.grantable (s : State) (part : Nat) : Bool := s.mayStart part && s.someGrant [] (s.candidates part)

/-! ### Hubs leave a launch -/

/-- A launch takes an array that no other launch holds, in the window mode that its hub set gives (R164, R165). -/
def State.holdArray (s : State) (l : Launch) (die a : Nat) : State :=
  let own := bits (SMap.get 0 l.hubset ((s.logical l.part die).getD 48)) (2 * a + 1) (2 * a)
  let x := s.arr die a
  if s.kind die != .mDie || own = 0 || x.held.isSome then s
  else s.setArr die a { x with held := some l.qid, ltag := l.ltag, own := if own = 3 then 0 else own }

/-- The arrays of a launch's teams that no other launch holds are held (R164). One that another launch still holds is taken with
the first item that is placed there after that launch has ended (DEDUCED, log 99). -/
def State.holdArrays (s : State) (l : Launch) (teams : List (Nat × Nat × Nat)) : State :=
  teams.foldl (fun (s : State) t => (maskHubs t.2.2).foldl (fun (s : State) h => s.holdArray l t.2.1 (h / 2)) s) s

/-- The arrays of a launch are held no more. -/
def State.freeArrays (s : State) (l : Launch) : State :=
  { s with arrays := s.arrays.map fun (e : Nat × Arr) => if e.2.held = some l.qid then (e.1, { e.2 with held := none, own := 3, ltag := 0 }) else e }

/-- Open phases that the hubs of a list hold in a launch are closed (R182, R184). -/
def State.closePhases (s : State) (part qid : Nat) (keys : List Nat) : State :=
  let p := s.part part
  s.setPart part { p with phases := p.phases.filter fun ph => decide (ph.qid ≠ qid) || !keys.contains ph.hub }

/-- A die that belongs to no paceline runs at the tangent count of its items, and at none where it has no item (R189, R190). -/
def State.settleTk (s : State) : State :=
  { s with dies := s.dies.map fun (e : Nat × Die) =>
      if e.2.member || e.2.tk = 0 then e
      else (e.1, { e.2 with tk := ((List.range 8).findSome? fun h => (s.hub e.1 h).item.map (·.launch.tk)).getD 0 }) }

/-- CADENCE of the member of a paceline that is furthest on. -/
def State.lastCad (s : State) (n : Nat) : Nat :=
  s.dies.foldl (fun a (e : Nat × Die) => if e.2.member && e.2.plid == n then max a e.2.cad else a) 0

/-- No launch runs on a paceline: no tangents run, a stand that the launch has left armed goes (the manual is silent on it,
DESIGN CHOICE, log 96), and idle stands go on from the next multiple of 16,384 that lies 64 scy ahead of every member
(R52, R519; log 96). LSHIFT keeps its value (R263). -/
def State.freePaceline (s : State) (n : Nat) : State :=
  let s := { s with dies := s.dies.map fun (e : Nat × Die) =>
    if e.2.member && e.2.plid == n then
      (e.1, { (if e.2.armed && !e.2.idle && !e.2.standing then e.2.disarm else e.2) with tk := 0 })
    else e }
  s.setPl n { s.pl n with slot := none, trap := false, idleFrom := (s.lastCad n + 63) / 16384 * 16384 + 16384 }

/-- A launch takes a paceline: an idle stand that some member has armed is armed by every member (R519). -/
def State.takePaceline (s : State) (n slot : Nat) : State :=
  let m := s.dies.foldl (fun a (e : Nat × Die) => if e.2.member && e.2.plid == n && e.2.armed && e.2.idle then max a e.2.standM else a) 0
  s.setPl n { s.pl n with slot := some slot, trap := false, idleTo := m }

/-- LSHIFT of a paceline's members is 0 at an abort and a quiet save (R250, R262). -/
def State.zeroShift (s : State) (n : Nat) : State :=
  { s with dies := s.dies.map fun (e : Nat × Die) => if e.2.member && e.2.plid == n then (e.1, { e.2 with lshift := 0 }) else e }

/-- An item start or a barrier's release of a slot that has not yet come about. -/
def startsItem (slot : Nat) (i : Instr) (a : Arg) : Bool := (i == .itemStart || i == .barrierRelease) && a.slot == slot

/-- A hub holds the state of a launch. -/
def Hub.holds (h : Hub) (l : Launch) : Bool := h.took == some l.qid

/-- The hubs of a launch that hold its state; another may hold an item of a different launch. -/
def State.heldHubs (s : State) (r : Run) : List (Nat × Nat) := r.hubs.filter fun x => (s.hub x.1 x.2).holds r.launch

/-- A launch leaves its hubs, arrays, barriers and paceline; `keep` says which hubs keep their state. -/
def State.leaveHubs (s : State) (slot : Nat) (r : Run) (keep : Hub → Bool) : State :=
  let l := r.launch
  let hs := r.hubs
  let hubs := s.hubs.map fun (e : Nat × Hub) =>
    if !hs.contains (e.1 / 8, e.1 % 8) then e
    else if !e.2.holds l then (e.1, { e.2 with kept := SMap.drop e.2.kept l.qid })
    else if keep e.2 then e
    else (e.1, { e.2 with item := none, took := none, run := .idle, wait := .none })
  let s := { s with
    hubs := hubs, timers := s.timers.filter (fun (t : Nat × Instr × Arg) => !startsItem slot t.2.1 t.2.2)
    agenda := s.agenda.filter fun (d : Due) => match d.act with | .ev i a => !startsItem slot i a | _ => true }
  let p := s.part l.part
  let s := s.setPart l.part { p with barriers := p.barriers.filter fun b => decide (b.slot ≠ slot) }
  let s := (s.closePhases l.part l.qid (hs.map fun x => 8 * x.1 + x.2)).freeArrays l
  (if l.timed then s.freePaceline l.plid else s).settleTk

/-- What a hub keeps when its launch is thrown away: its registers, memory of drafting maps and long-link
configuration; nothing runs in it, and its share of sq is empty (DEDUCED, log 50). -/
def Hub.discard (h : Hub) : Hub :=
  { h with
    run := .idle, wait := .none, item := none, took := none, streams := [], replies := [], ports := [], accesses := []
    mark := none, packet := none, sets := [], pendSets := [], port := [], drHeld := none, ixq := [], ixrun := none
    replay := [], pending := [], loops := [], tan := none, timelines := [], sq := [], popped := [] }

/-- Events of a hub's own work, which go with its launch. -/
def ofLaunch (i : Instr) : Bool :=
  i == .matrixStepCommit || i == .transferWordEnd || i == .replyPortEntry || i == .indexCommandStart || i == .indexCommandEnd ||
  i == .draftingCommandStart || i == .draftingCommandEnd || i == .countedReplyDeadline || i == .barrierRelease ||
  i == .timedBeatDelivery || i == .standLeadCheck || i == .itemStart

/-- The members of a timed launch's paceline hold no longer: they go on without it (R247, R249, R250). -/
def State.endHold (s : State) (l : Launch) : State :=
  if !l.timed then s
  else
    let n := l.plid
    let p := s.pl n
    let w := 24 * p.hops + 64
    { s with
      pls := SMap.put s.pls n { p with held := false, pend := false, nflt := 0, kind := 0, low := none }
      dies := s.dies.map fun (e : Nat × Die) =>
        if e.2.member && e.2.plid == n then
          (e.1, { e.2 with
            haltAt := none, release := if e.2.held then some w else none, gather := false
            swallow := if e.2.gather then w else e.2.swallow })
        else e }

/-- A launch is thrown away at once (R250, R27, R34, R131): its hubs discard their items, and every effect and beat of
them goes. -/
def State.discardLaunch (s : State) (slot : Nat) (r : Run) : State :=
  let hs := s.heldHubs r
  let s := { s with
    agenda := s.agenda.filter fun (d : Due) =>
      !s.beats.any (fun b => d.beat == some b.id && hs.contains (b.src, b.hub)) &&
      (!hs.contains (d.die, d.hub) || (match d.act with | .ev i _ => !ofLaunch i | _ => false))
    beats := s.beats.filter fun (b : Beat) => !hs.contains (b.src, b.hub)
    hubs := s.hubs.map fun (e : Nat × Hub) => if hs.contains (e.1 / 8, e.1 % 8) then (e.1, e.2.discard) else e
    arrays := s.arrays.map fun (e : Nat × Arr) => if e.2.held = some r.launch.qid then (e.1, { e.2 with steps := [], loading := none }) else e
    dies := s.dies.map fun (e : Nat × Die) =>
      let d := e.2
      if hs.any (·.1 == e.1) then
        (e.1, { d with
          draft := match d.draft with | some x => if hs.contains (e.1, x.hub) then none else some x | none => none
          draftGo := match d.draftGo with | some x => if hs.contains (e.1, x.1) then none else some x | none => none })
      else e }
  let s := (s.leaveHubs slot r fun _ => false).endHold r.launch
  if r.launch.timed then s.zeroShift r.launch.plid else s

/-- The saved launch of a slot (R520). -/
def State.savedOf (s : State) (slot : Nat) : Option Saved :=
  let q := (s.slot slot).qcb
  (s.part q.part).susp.find? fun v => v.qid == q.qid && v.ltag == q.ltag

/-- A suspended launch is discarded (R139, R520): its entry, its phases and its arrays go. -/
def State.discardSaved (s : State) (part : Nat) (v : Saved) : State :=
  let p := s.part part
  let s := s.setPart part { p with susp := p.susp.filter fun x => !(x.qid == v.qid && x.ltag == v.ltag) }
  (s.closePhases part v.qid (v.run.hubs.map fun x => 8 * x.1 + x.2)).freeArrays v.run.launch

end Sys2Proof.Machine
end

