-- ==== Sys2Proof/Machine/VecWord.lean ====
section
/-! DEFINITION. The form that every vector word shares (R385 to R391, R411 to R413): its elements as they are
read and written, its TAN prefix, the ETYPE it accepts, and its faults. -/

namespace Sys2Proof.Machine

open Sys2Proof

/-- One element that a word writes: index, value, poison and tangents. -/
structure Elt where
  i : Nat
  v : Nat
  p : Bool
  ts : List Nat

/-- The plane that a word reads: 0 the primal values, or the shadow that TSEL selects (R413). -/
def VCtx.plane (c : VCtx) : Nat := c.tan.sel
/-- The tangents that a word computes: none under TSEL (R413). -/
def VCtx.ks (c : VCtx) : List Nat := if c.tan.sel = 0 then (List.range c.k).map (· + 1) else []
/-- Element i of a source register. -/
def VCtx.src (c : VCtx) (r i : Nat) : Nat := c.get c.plane r i

/-- The writes of an element `w` bytes wide at byte `off` of register `d` (R388, R389, R413). -/
def VCtx.writes (c : VCtx) (d off w v : Nat) (p : Bool) (ts : List Nat) : List VWrite :=
  if c.tan.sel = 0 then
    ⟨d, 0, off, leBytes w v, some p, 255⟩ :: (ts.zipIdx.map fun x => ⟨d, x.2 + 1, off, leBytes w x.1, none, 255⟩)
  else if c.k < c.tan.sel then []
  else [⟨d, c.tan.sel, off, leBytes w v, if p then some true else none, 255⟩]

/-- The writes of elements under the ETYPE in force. -/
def VCtx.emit (c : VCtx) (d : Nat) (es : List Elt) : List VWrite :=
  es.flatMap fun e => c.writes d (e.i * c.w) c.w e.v e.p e.ts

/-- Tangent +0 for every live tangent. -/
def VCtx.noTan (c : VCtx) : List Nat := c.ks.map fun _ => 0

/-- The TAN fields that a word takes (R411). -/
structure TanOk where
  a : Bool := false
  b : Bool := false
  c : Bool := false
  sel : Bool := false

/-- A TAN before the word is legal (R411). -/
def tanLegal (ok : Option TanOk) (t : Option Tan) : Bool :=
  match t, ok with
  | none, _ => true
  | some _, none => false
  | some t, some ok =>
    (!t.ca || ok.a) && (!t.cb || ok.b) && (!t.cc || ok.c) && (t.sel == 0 || ok.sel) &&
    (t.sel == 0 || !(t.ca || t.cb || t.cc))

/-- The poisoned active elements of a faulted word's destinations at its write cycle (R245, R391). -/
def VCtx.ruin (c : VCtx) (m l : Nat) (ds : List Nat) : List (Nat × Act) :=
  [(l, .vec (ds.flatMap fun d => (c.actives m).map fun i => ⟨d, 0, i * c.w, List.replicate c.w 0, some true, 255⟩))]

/-- What an assigned but illegal vector word names as its destinations (R245, R391): mask, latency and registers. -/
def vecDest (w : Nat) : Nat × Nat × List Nat :=
  let o := bits w 31 25
  let d := bits w 24 20
  let m := bits w 4 2
  if 0x01 ≤ o ∧ o ≤ 0x1C then
    (m, if o = 0x04 ∨ o = 0x08 then 14 else if o = 0x07 then 5 else if 0x09 ≤ o ∧ o ≤ 0x0E then 12 else 4, [d])
  else if o = 0x24 ∨ o = 0x58 then (m, 4, [d])
  else if o = 0x59 then (m, 4, [bits w 19 15])
  else if o = 0x30 ∨ (0x40 ≤ o ∧ o ≤ 0x42) then (m, 6, [d])
  else if o = 0x31 then (0, 8, [d, bits w 9 5])
  else if o = 0x32 then (0, 6, [d])
  else if o = 0x33 then (m, 8, [d, bits w 14 10])
  else if (0x38 ≤ o ∧ o ≤ 0x3E) ∨ o = 0x50 then (m, 12, [d])
  else if o = 0x48 then (0, 5, [d])
  else (0, 0, [])

/-- The poison that an illegal vector word leaves at its write cycle (R245, R391). -/
def State.ruinOf (s : State) (w : Nat) : List (Nat × Act) :=
  let x := vecDest w
  if x.2.2.isEmpty then [] else s.vctx.ruin x.1 x.2.1 x.2.2

/-- A vector word: illegal under a TAN or an ETYPE that it does not take (R386, R411); otherwise `f` gives its
effects at issue + l. `ds` are its destination registers under mask `m`. -/
def vecWord (tan : Option TanOk) (ety : Nat → Bool) (m l : Nat) (ds : List Nat) (f : VCtx → List VWrite)
    (s : State) : State :=
  let c := s.vctx
  if !tanLegal tan s.curTan || !ety c.h.shape.ety then s.engFault 0x01 2 0xFFFF 1 1 (c.ruin m l ds)
  else (s.later l (.vec (f c))).retire 1 1

/-- ETYPE 0 to 4 (R386). -/
def isFpTy (t : Nat) : Bool := decide (t < 5)
/-- ETYPE 5 to 10. -/
def isIntTy (t : Nat) : Bool := decide (5 ≤ t)
/-- Every ETYPE. -/
def anyTy (_ : Nat) : Bool := true

/-- Bits and signedness of an element for integer words; FP types are read as natural patterns (R386). -/
def ETy.asInt : ETy → ITy
  | .fp f => ⟨f.width, false⟩
  | .int t => t

/-- The format of an FP element type. -/
def ETy.fmt : ETy → Fmt
  | .fp f => f
  | .int _ => fp32

/-- Whether a pattern is FP. -/
def ETy.isFp : ETy → Bool
  | .fp _ => true
  | .int _ => false

/-- A source FP element under FTZ (R303). -/
def VCtx.fsrc (c : VCtx) (r i : Nat) : Nat := c.ety.fmt.flush c.ftz (c.src r i)
/-- A source tangent under FTZ. -/
def VCtx.ftan (c : VCtx) (j r i : Nat) : Nat := c.ety.fmt.flush c.ftz (c.get j r i)

end Sys2Proof.Machine
end

