-- ==== Sys2Proof/Machine/VectorConv.lean ====
section
/-! DEFINITION. Conversions, MX packing and 2:4 selection of the vector engine (R399 to R402). -/

namespace Sys2Proof.Machine

open Sys2Proof

/-- A conversion with FTZ on FP inputs and results (R299, R303). -/
def convertFtz (src dst : ETy) (rm : Nat) (o : Ovf) (ftz : Bool) (x : Nat) : Nat :=
  let x := match src with
    | .fp f => f.flush ftz x
    | .int _ => x
  let y := convert src dst rm o x
  match dst with
  | .fp f => f.flush ftz y
  | .int _ => y

/-- VCVT (R399). The elements written lie below min(VL′, N of the destination). -/
def execVcvt (d a : R5) (t : R5) (o : BitVec 1) (m : BitVec 3) (r : BitVec 2) (s : State) : Res :=
  .next (vecWord (some ⟨true, false, false, true⟩) anyTy m.toNat 6 [d.toNat]
    (fun c =>
      let dst := etype t.toNat
      let wd := dst.bytes
      ((c.actives m.toNat).filter fun i => decide (i < c.len / wd)).flatMap fun i =>
        let cv := fun x => convertFtz c.ety dst (rmOf r) (ovfOf o.toNat) c.ftz x
        let ts := c.ks.map fun j => if c.ety.isFp && dst.isFp && !c.tan.ca then cv (c.get j a.toNat i) else 0
        c.writes d.toNat (i * wd) wd (cv (c.src a.toNat i)) (c.pois a.toNat i) ts) s)

/-- The element format of VPACK and VUNPACK (R328). -/
def packFmt : Nat → Fmt
  | 0 => e4m3 | 1 => e5m2 | 2 => e3m2 | 3 => e2m3 | _ => e2m1

/-- Bytes of a packed block of 32 elements (R400). -/
def blockBytes (f : Fmt) : Nat := 4 * f.width

/-- Elements of a block as little-endian bytes, element j at bit j × width (R295, R400). -/
def packElems (f : Fmt) (xs : List Nat) : List Byte :=
  leBytes (blockBytes f) (xs.foldr (fun x acc => x + acc * 2 ^ f.width) 0)

/-- Element j of packed bytes. -/
def packedElem (f : Fmt) (bs : List Byte) (j : Nat) : Nat := leNat bs / 2 ^ (j * f.width) % 2 ^ f.width

/-- Block g of a source register in plane `t`, elements at or beyond VL′ as +0, subnormals flushed under FTZ
(R303, R400). -/
def VCtx.block (c : VCtx) (t r g : Nat) : List Real' :=
  (List.range 32).map fun j =>
    if 32 * g + j < c.vl then c.ety.fmt.decode (c.ety.fmt.flush c.ftz (c.get t r (32 * g + j))) else .num false 0 0 false

/-- The writes of one packed block and its scale in plane `t` (R400). -/
def VCtx.packBlock (c : VCtx) (f : Fmt) (rm d a e g t : Nat) (p : Option Bool) : List VWrite :=
  let r := mxPack f rm (c.block t a g)
  [⟨d, t, blockBytes f * g, packElems f r.2, p, 255⟩, ⟨e, t, g, leBytes 1 r.1, p, 255⟩]

/-- VPACK (R400). -/
def execVpack (d a : R5) (f : R5) (e : R5) (r : BitVec 2) (s : State) : Res :=
  .next (vecWord none (fun t => decide (t < 3)) 0 8 [d.toNat, e.toNat]
    (fun c => (List.range (ceilDiv c.vl 32)).flatMap fun g =>
      let p := (List.range 32).any fun j => decide (32 * g + j < c.vl) && c.pois a.toNat (32 * g + j)
      c.packBlock (packFmt f.toNat) (rmOf r) d.toNat a.toNat e.toNat g 0 (some p) ++
        c.ks.flatMap fun t => c.packBlock (packFmt f.toNat) (rmOf r) d.toNat a.toNat e.toNat g t none) s)

/-- Element 32g + j of VUNPACK in plane `t` (R401). -/
def VCtx.unpacked (c : VCtx) (f : Fmt) (t a e g j : Nat) : Nat :=
  let n := blockBytes f
  if c.k < t then 0
  else
    let bs := c.h.vbytesAt t a (n * g) n
    let x := leNat (c.h.vbytesAt t e g 1)
    c.ety.fmt.flush c.ftz (c.ety.fmt.round .sat 0 (mxValue f x (packedElem f bs j)))

/-- VUNPACK (R401). -/
def execVunpack (d a : R5) (f : R5) (e : R5) (s : State) : Res :=
  .next (vecWord none (fun t => decide (t < 3)) 0 6 [d.toNat]
    (fun c =>
      let m := packFmt f.toNat
      c.emit d.toNat ((List.range c.vl).map fun i =>
        let g := i / 32
        let j := i % 32
        let lo := blockBytes m * g + j * m.width / 8
        let hi := blockBytes m * g + (j * m.width + m.width - 1) / 8
        let p := c.h.elemPois a.toNat lo (hi - lo + 1) || c.h.vbytePois e.toNat g
        ⟨i, if p then 0 else c.unpacked m 0 a.toNat e.toNat g j, p, c.ks.map fun t => c.unpacked m t a.toNat e.toNat g j⟩)) s)

/-- The magnitude key of an element of a group: 0 for an inactive one (R305, R402). -/
def VCtx.key (c : VCtx) (m a i : Nat) : Nat := if c.active m i then c.get 0 a i % 128 else 0

/-- The position of the largest key among the positions `ps`, the lower on a tie (R305). -/
def largest (key : Nat → Nat) : List Nat → Nat
  | [] => 0
  | [p] => p
  | p :: r => let q := largest key r; if key p < key q then q else p

/-- The two positions kept of a group, ascending (R402). -/
def keepTwo (key : Nat → Nat) : Nat × Nat :=
  let x := largest key [0, 1, 2, 3]
  let y := largest key ([0, 1, 2, 3].filter fun p => decide (p ≠ x))
  (min x y, max x y)

/-- A kept element: with its poison and tangents, or +0 when inactive (R402). -/
def VCtx.kept (c : VCtx) (m a i : Nat) : Nat × Bool × List Nat :=
  if c.active m i then (c.get 0 a i, c.pois a i, c.ks.map fun t => c.get t a i) else (0, false, c.ks.map fun _ => 0)

/-- VPRUNE24 (R402). The metadata carries no tangent: the shadows of v(b) keep their values. -/
def execVprune24 (d a b : R5) (m : BitVec 3) (s : State) : Res :=
  .next (vecWord none (fun t => t == 3 || t == 4) m.toNat 8 [d.toNat, b.toNat]
    (fun c =>
      let groups := ceilDiv c.vl 4
      let pick := fun g => keepTwo fun p => c.key m.toNat a.toNat (4 * g + p)
      let gp := fun g => (List.range 4).any fun p => c.active m.toNat (4 * g + p) && c.pois a.toNat (4 * g + p)
      let vals := (List.range groups).flatMap fun g =>
        let x := c.kept m.toNat a.toNat (4 * g + (pick g).1)
        let y := c.kept m.toNat a.toNat (4 * g + (pick g).2)
        c.writes d.toNat (2 * g) 1 x.1 x.2.1 x.2.2 ++ c.writes d.toNat (2 * g + 1) 1 y.1 y.2.1 y.2.2
      let meta_ := (List.range (ceilDiv groups 2)).map fun q =>
        let lo := (pick (2 * q)).1 + 4 * (pick (2 * q)).2
        let hi := if 2 * q + 1 < groups then (pick (2 * q + 1)).1 + 4 * (pick (2 * q + 1)).2 else 0
        let p := gp (2 * q) || (decide (2 * q + 1 < groups) && gp (2 * q + 1))
        (⟨b.toNat, 0, q, leBytes 1 (lo + 16 * hi), some p, if 2 * q + 1 < groups then 255 else 15⟩ : VWrite)
      vals ++ meta_) s)

end Sys2Proof.Machine
end

