-- ==== Sys2Proof/Machine/VectorMem.lean ====
section
/-! DEFINITION. Vector loads and stores with their tangent planes (R405, R406, R218, R219). -/

namespace Sys2Proof.Machine

open Sys2Proof

/-- The kind and subcode of the fault that plane accesses raise: a plane outside the memory, or no stride
(R219). -/
def State.planeFault (s : State) (g : Group) (stride : Nat) (x n : Nat) : List Nat → Option Nat
  | [] => none
  | j :: r =>
    if stride = 0 then some 9
    else
      match s.translate s.cur.die s.cur.hub g (x + j * stride) n 1 with
      | .ok _ => s.planeFault g stride x n r
      | .error _ => some 9

/-- The addresses of an access of the vector engine, primal first, then the planes `ks`, or its fault (R405,
R406). -/
def State.vecAddrs (s : State) (u : Use) (x n : Nat) (ks : List Nat) : Except (Nat × Nat) (List Nat) :=
  let stride := s.curHub.tstride.toNat
  match s.translate s.cur.die s.cur.hub .vector x n 1 with
  | .error c => .error (0x0B, c)
  | .ok t =>
    match s.planeFault .vector stride x n ks with
    | some c => .error (0x0B, c)
    | none =>
      let as := t.addr :: ks.map fun j => t.addr + j * stride
      match as.findSome? fun a => s.violation s.cur.die s.cur.hub 1 u a n with
      | some c => .error (0x02, c)
      | none => .ok as

/-- VLD (R405, R406): sampled at n + 2, written at n + 5. -/
def execVld (d a : R5) (o : BitVec 15) (s : State) : Res :=
  let c := s.vctx
  let n := c.vl * c.w
  let ruin := c.ruin 0 5 [d.toNat]
  if !tanLegal (some ⟨true, false, false, false⟩) s.curTan then .next (s.engFault 0x01 2 0xFFFF 1 1 ruin)
  else if c.h.elemPois a.toNat 0 4 then .next (s.engFault 0x0A 2 0xFFFF 1 1 ruin)
  else if n = 0 then .next (s.retire 1 1)
  else
    let ks := if c.tan.ca then [] else c.ks
    match s.vecAddrs .read (c.h.elem 0 a.toNat 0 4 + 64 * o.toNat) n ks with
    | .error (k, sub) => .next (s.engFault k sub 0xFFFF 1 1 ruin)
    | .ok as =>
      .next ((s.later 2 (.sample (as.headD 0) n (.vec s.cur.die s.cur.hub d.toNat c.w c.vl as
        (if c.tan.ca then c.k else 0) (s.now + 5)))).retire 1 1)

/-- The writes of VST: each plane whole, then the poisoned elements again, which poison their lines (R405,
R406). -/
def VCtx.stores (c : VCtx) (d : Nat) (as : List Nat) : List (Nat × Act) :=
  as.zipIdx.flatMap fun x =>
    (3, .write x.1 (((List.range c.vl).map fun i => leBytes c.w (c.get x.2 d i)).flatten) false) ::
    (((List.range c.vl).filter fun i => c.pois d i).map fun i =>
      (3, .write (x.1 + i * c.w) (leBytes c.w (c.get x.2 d i)) true))

/-- Ends operation `n` of timeline `q` of the current hub at issue + l. -/
def State.endOpAt (s : State) (l q n : Nat) : State :=
  s.later l (.opEnd q n)

/-- VST (R405, R406): performed at n + 3; it advances tl.v (R290). -/
def execVst (d a : R5) (o : BitVec 15) (s : State) : Res :=
  let c := s.vctx
  let n := c.vl * c.w
  if !tanLegal (some ⟨true, false, false, false⟩) s.curTan then .next (s.engFault 0x01 2 0xFFFF 1 1 [])
  else if c.h.elemPois a.toNat 0 4 then .next (s.engFault 0x0A 2 0xFFFF 1 1 [])
  else if n = 0 then .next (((s.endOpAt 3 1 s.nextOp).issueOp).retire 1 1)
  else
    match s.vecAddrs .write (c.h.elem 0 a.toNat 0 4 + 64 * o.toNat) n (if c.tan.ca then [] else c.ks) with
    | .error (k, sub) => .next (s.engFault k sub 0xFFFF 1 1 [])
    | .ok as => .next ((((s.laterAll (c.stores d.toNat as)).endOpAt 3 1 s.nextOp).issueOp).retire 1 1)

end Sys2Proof.Machine
end

