-- ==== Sys2Proof/Machine/Matrix.lean ====
section
/-! DEFINITION. The matrix words and the arrays they act on (R258, R259, R277 to R282, R306 to R308,
R415 to R435). -/

namespace Sys2Proof.Machine

open Sys2Proof

/-- DETAIL of a matrix word that has reached a row (R291). -/
def MatStep.detail (t : MatStep) (row : Nat) : Nat := detailOf t.seg t.idx (row % 256 * 256 + 64 * t.acc)

/-! ### The array -/

/-- The array of the hub at hand (R164). -/
def State.curArr (s : State) : Arr := s.arr s.cur.die (s.cur.hub / 2)
def State.setCurArr (s : State) (x : Arr) : State := s.setArr s.cur.die (s.cur.hub / 2) x

/-- Number of the active plane; the shadow is the other. -/
def Arr.activeNo (a : Arr) : Nat := if a.swapped then 1 else 0
/-- A plane by number. -/
def Arr.plane (a : Arr) (n : Nat) : Plane := if n = 0 then a.plane0 else a.plane1
def Arr.setPlane (a : Arr) (n : Nat) (p : Plane) : Arr := if n = 0 then { a with plane0 := p } else { a with plane1 := p }
/-- The active and the shadow plane (R277). -/
def Arr.active (a : Arr) : Plane := a.plane a.activeNo
def Arr.shadow (a : Arr) : Plane := a.plane (1 - a.activeNo)

/-- The place of an element of an accumulator: copy 0 working, 1 committed; tangent 0 the primal value. -/
def accKey (copy n tan i j : Nat) : Nat := ((copy * 4 + n) * 5 + tan) * 65536 + 256 * i + j

/-- 32 bits of an accumulator element. -/
def Arr.accAt (a : Arr) (copy n tan i j : Nat) : Nat := SMap.get 0 a.acc (accKey copy n tan i j)
/-- Poison of an accumulator element, shared by its tangents (R253). -/
def Arr.accPois (a : Arr) (copy n i j : Nat) : Bool := SMap.get false a.apois (accKey copy n 0 i j)

/-- Copies rows below `r` of an accumulator from one copy to the other (R258, R259). -/
def Arr.copyRows (a : Arr) (src dst n r : Nat) : Arr :=
  (List.range r).foldl (fun a i => (List.range 256).foldl (fun (a : Arr) j =>
    { a with
      acc := (List.range 5).foldl (fun m t => SMap.set 0 m (accKey dst n t i j) (a.accAt src n t i j)) a.acc
      apois := SMap.set false a.apois (accKey dst n 0 i j) (a.accPois src n i j) }) a) a

/-- The row cost c in halves: 1 for E2M1 with MXFP4, 4 for BF16, else 2 (R279, R418). -/
def rowCost2 (af wf : Nat) : Nat := if af = 2 ∧ wf = 2 then 1 else if af = 3 then 4 else 2

/-- ⌊c·i⌋ windows. -/
def rowWindow (af wf i : Nat) : Nat := rowCost2 af wf * i / 2

/-- The entry cycle of row i of a step (R279). -/
def MatStep.entry (t : MatStep) (i : Nat) : Nat := t.issue + t.w * rowWindow t.af t.wf i
/-- The last row entry of a step. -/
def MatStep.lastEntry (t : MatStep) : Nat := t.entry (t.rows - 1)

/-- 2:4 weight formats (R417). -/
def isSparse (wf : Nat) : Bool := decide (5 ≤ wf)
/-- The format in which plane cells are read (R278, R420): MXFP4 weights stand as E4M3. -/
def cellFmt (wf : Nat) : Fmt := match wf with
  | 1 => e5m2 | 3 => bf16 | 6 => e5m2 | _ => e4m3
/-- The format of activations (R417). -/
def actFmt (af : Nat) : Fmt := match af with
  | 1 => e5m2 | 2 => e2m1 | 3 => bf16 | _ => e4m3
/-- Bytes of one activation row (R427). -/
def rowBytes (af wf : Nat) : Nat := if isSparse wf then 512 else if af = 2 then 128 else if af = 3 then 512 else 256
/-- Column size S (R420). -/
def colBytes (wf : Nat) : Nat := if wf = 3 then 512 else if wf = 2 then 136 else 256

/-- K position r of an activation row (R427). -/
def actAt (af : Nat) (bs : List Byte) (r : Nat) : Nat :=
  match af with
  | 2 => (bs.getD (r / 2) 0).toNat / 2 ^ (4 * (r % 2)) % 16
  | 3 => (bs.getD (2 * r) 0).toNat + 256 * (bs.getD (2 * r + 1) 0).toNat
  | _ => (bs.getD r 0).toNat

/-! ### Sums (R306 to R308, R428, R429) -/

/-- The exact sum of the products of a group (R306). -/
def exactSum : List Real' → Real'
  | [] => .num false 0 0 false
  | [x] => x
  | x :: r => x.add 0 (exactSum r)

/-- One group's contribution to an element (R306). -/
def groupStep (acc : Nat) (ps : List Real') (sa sb : Option Int) : Nat :=
  match sa, sb with
  | some x, some y => fp32.add 0 acc (fp32.round .arith 0 ((exactSum ps).scale (x + y)))
  | _, _ => fp32.add 0 acc fp32.nan

/-- A scale code: none for 0xFF (R295, R306). -/
def scaleOf (x : Nat) : Option Int := if x = 0xFF then none else some (e8m0 x)

/-- A nibble of metadata for dense group q of column j of an md register (R422). -/
def MatStep.nibble (t : MatStep) (md q j : Nat) : Nat :=
  (SMap.get 0 t.nib (md * 8192 + 32 * j + q / 2)).toNat / 2 ^ (4 * (q % 2)) % 16

/-- The md register and group for dense group q of a pair (R429). -/
def mdFor (m q : Nat) : Nat × Nat := if q < 64 then (m, q) else (m + 1, q - 64)

/-- The products of group g of element (·, j), for a row whose K positions `x` gives (R306, R429). -/
def MatStep.products (t : MatStep) (p : Plane) (x : Nat → Nat) (g j : Nat) : List Real' :=
  let w := fun r => (cellFmt t.wf).decode (SMap.get 0 p.cells (256 * j + r))
  let v := fun r => (actFmt t.af).decode (x r)
  match t.md with
  | none => (List.range 32).map fun k => (v (32 * g + k)).mul (w (32 * g + k))
  | some m => (List.range 8).flatMap fun i =>
      let q := 8 * g + i
      let n := t.nibble (mdFor m q).1 (mdFor m q).2 j
      [(v (4 * q + n % 4)).mul (w (2 * q)), (v (4 * q + n / 4)).mul (w (2 * q + 1))]

/-- Element (i, j) of a step in one plane of tangents (R306, R308). `scales` are the row's, none where sa is 0. -/
def MatStep.element (t : MatStep) (p : Plane) (x : Nat → Nat) (scales : List Nat) (j start : Nat) : Nat :=
  if t.af = 4 then
    let s8 : ITy := ⟨8, true⟩
    let sum : Int := (List.range 256).foldl (fun acc r => acc + s8.decode (x r) * s8.decode (SMap.get 0 p.cells (256 * j + r))) 0
    wrapInt ((start : Int) + sum) 32
  else
    (List.range (if t.md.isSome then 16 else 8)).foldl (fun acc g =>
      let sa := if scales.isEmpty then some 0 else scaleOf (scales.getD g 0)
      let sb := if t.epi || p.wf != 2 then some 0 else scaleOf (SMap.get 0 p.scales (256 * g + j))
      groupStep acc (t.products p x g j) sa sb) start

/-- Some weight, plane scale or metadata byte of column j is poisoned (R254, R429). -/
def MatStep.colPois (t : MatStep) (p : Plane) (j : Nat) : Bool :=
  ((List.range 256).any fun r => SMap.get false p.pois (256 * j + r)) ||
  (p.wf == 2 && (List.range 8).any fun g => SMap.get false p.spois (256 * g + j)) ||
  (match t.md with
   | none => false
   | some m => (List.range 64).any fun b => SMap.get false t.nibPois ((m + b / 32) * 8192 + 32 * j + b % 32))

/-- Writes row i of the working copy (R279, R317): `rows` are the row's bytes, primal first. -/
def MatStep.writeRow (t : MatStep) (a : Arr) (i plane : Nat) (scales : List Nat) (rows : List (List Byte)) (pois : Bool) : Arr :=
  let p := a.plane plane
  (List.range 256).foldl (fun (a' : Arr) j =>
    let bad := pois || t.colPois p j || a.accPois 1 t.acc i j
    { a' with
      acc := rows.zipIdx.foldl (fun m r =>
        let v := if t.af = 4 ∧ r.2 ≠ 0 then 0
          else t.element p (actAt t.af r.1) scales j (a.accAt 1 t.acc r.2 i j)
        SMap.set 0 m (accKey 0 t.acc r.2 i j) (if bad then 0 else v)) a'.acc
      apois := SMap.set false a'.apois (accKey 0 t.acc 0 i j) bad }) a

/-! ### Stops and faults -/

/-- The running steps of a hub. -/
def Arr.stepsOf (a : Arr) (hub : Nat) : List MatStep := (a.steps.map (·.1)).filter fun t => decide (t.hub = hub)

/-- Abandons a step: its working copy is discarded (R259). Rows that an earlier step into the accumulator has written, which still
runs, stay: the later step has written none yet (R279, R430). -/
def Arr.abandon (a : Arr) (t : MatStep) : Arr :=
  let rest := a.steps.filter fun x => !(x.1.hub == t.hub && x.1.id == t.id)
  let shared := rest.any fun x => x.1.acc == t.acc && decide (x.1.issue < t.issue)
  { (if shared then a else a.copyRows 1 0 t.acc 256) with steps := rest }

/-- Abandons every running step of a hub; they replay if the launch resumes, before those whose replay has not begun (R259,
R430). -/
def State.abandonSteps (s : State) (die hub : Nat) : State :=
  let a := s.arr die (hub / 2)
  let ts := a.stepsOf hub
  let h := s.hub die hub
  let mine := fun (e : List Nat × Bool × Nat) => ts.any fun t => t.id == e.2.2
  let s := { s with agenda := s.agenda.filter fun d => !(d.die == die && d.hub == hub && (match d.act with | .mat (.start _) => true | _ => false)) }
  (s.setArr die (hub / 2) (ts.foldl Arr.abandon a)).setHub die hub
    { h with
      replay := ts ++ h.replay.filter (fun x => !ts.any fun t => t.id == x.id), replaying := false, sq := h.popped.filter mine ++ h.sq, popped := h.popped.filter fun e => !mine e }

/-- A fault of a matrix word at its issue; `acc` is the accumulator of its DETAIL (R291, R415, R433). -/
def matFault (kind sub acc w c : Nat) (s : State) : State :=
  let t := s.engFault kind sub (64 * acc) w c []
  if s.curHub.launch.timed then t else t.abandonSteps s.cur.die s.cur.hub

/-- A fault of a step under way: the step is abandoned (R259, R433). -/
def State.stepFault (s : State) (t : MatStep) (sub row : Nat) : State :=
  let f : FaultAt := ⟨0x08, sub, 2, t.detail row, s.markOf t.die⟩
  let s := s.setArr t.die t.arr ((s.arr t.die t.arr).abandon t)
  let timed := (s.hub t.die t.hub).launch.timed
  let r := s.takeFaultAs t.die t.hub f [] (some t.num)
  if timed then r else r.abandonSteps t.die t.hub

/-! ### Row entries, samples and writes (R279) -/

/-- Places a matrix micro-operation of a hub on the agenda at a CADENCE of its die. -/
def State.matAt (s : State) (t : MatStep) (at_ : Nat) (x : MatAct) : State :=
  s.post t.die at_ (s.hub t.die t.hub).lpos t.hub 2 (Act.mat x)

/-- The step is still running. -/
def State.stepLive (s : State) (t : MatStep) : Bool :=
  (s.arr t.die t.arr).steps.any fun x => x.1.hub == t.hub && x.1.id == t.id

/-- Row i enters: it takes the active plane, and in an MX step pops its sq entry (R279, R424). -/
def State.enterRow (s : State) (t : MatStep) (i : Nat) : State :=
  if !s.stepLive t then s
  else
    let a := s.arr t.die t.arr
    let n := a.activeNo
    let now := (s.die t.die).cad
    let s := s.setArr t.die t.arr (a.setPlane n { a.plane n with lastEntry := some now })
    let h := s.hub t.die t.hub
    let next := fun (s : State) => if i + 1 < t.rows then s.matAt t (t.entry (i + 1)) (.enter t (i + 1)) else s
    if t.amx && !t.epi then
      match h.sq with
      | e :: r =>
        if e.2.2 = t.id then
          next ((s.setHub t.die t.hub { h with sq := r, popped := h.popped ++ [e] }).matAt t (now + 2) (.sample t i n (if e.2.1 then [] else e.1)))
        else s.stepFault t 2 i
      | [] => s.stepFault t 2 i
    else next (s.matAt t (now + 2) (.sample t i n []))

/-- Rows that enter in the same window as row i enter with it, in ascending order (R279). -/
def State.enterRows (s : State) (t : MatStep) (i : Nat) : Nat → State
  | 0 => s
  | n + 1 =>
    if i + 1 < t.rows ∧ t.entry (i + 1) = t.entry i then
      let s' := s.enterRow t i
      ({ s' with agenda := s'.agenda.filter fun d => decide (d.act ≠ Act.mat (.enter t (i + 1))) }).enterRows t (i + 1) n
    else s.enterRow t i

/-- Row i samples the scratchpad, primal and planes (R279, R317). A poisoned scale poisons the row (R424): the
entry's scales then come empty in an MX step. -/
def State.sampleRow (s : State) (t : MatStep) (i plane : Nat) (scales : List Nat) : State :=
  if !s.stepLive t then s
  else
    let n := rowBytes t.af t.wf
    let at_ := fun j => t.base + i * t.stride + j * t.tstride
    let ks := List.range (t.k + 1)
    let pois := (ks.any fun j => s.poisoned (at_ j) n) || (t.amx && !t.epi && scales.isEmpty)
    (s.eccRead t.die t.hub 2 (t.detail i) (ks.map fun j => (at_ j, n))).matAt t (t.entry i + 264) (.writeRow t i plane scales (ks.map fun j => s.readBytes (at_ j) n) pois)

/-- Row i is written; with the last the step ends and commits, unless entries of it are left (R279, R281). -/
def State.writeRow (s : State) (t : MatStep) (i plane : Nat) (scales : List Nat) (rows : List (List Byte)) (pois : Bool) : State :=
  if !s.stepLive t then s
  else
    let a := t.writeRow (s.arr t.die t.arr) i plane scales rows pois
    let a := { a with steps := a.steps.map fun x => if x.1.hub = t.hub ∧ x.1.id = t.id then (x.1, x.2 + 1) else x }
    let s := s.setArr t.die t.arr a
    if i + 1 < t.rows then s
    else if t.amx && !t.epi && (s.hub t.die t.hub).sq.any (fun e => e.2.2 == t.id) then s.stepFault t 3 i
    else
      s.post t.die (s.die t.die).cad (s.hub t.die t.hub).lpos t.hub 2
        (.ev .matrixStepCommit { die := t.die, m := t.arr, hub := t.hub, n := t.id })

/-- A step commits (R258, R279): its rows become the committed copy, and tl.m counts it in the next scy (R416). -/
def execMatrixStepCommit (s : State) : Res :=
  let die := s.arg.die
  let arr := s.arg.m
  let a := s.arr die arr
  match a.steps.find? fun x => x.1.hub == s.arg.hub && x.1.id == s.arg.n && x.1.rows == x.2 with
  | none => .next s
  | some x =>
    let a := { a.copyRows 0 1 x.1.acc x.1.rows with steps := a.steps.filter fun y => !(y.1.hub == x.1.hub && y.1.id == x.1.id) }
    let h := s.hub die x.1.hub
    let left := h.replay.filter fun y => decide (y.id ≠ x.1.id)
    let s := s.setHub die x.1.hub { h with
      popped := h.popped.filter fun e => decide (e.2.2 ≠ x.1.id), replay := left, replaying := h.replaying && !left.isEmpty }
    .next ((s.setArr die arr a).post die ((s.die die).cad + 1) h.lpos x.1.hub 2 (.opEnd 0 x.1.num))

/-! ### Words -/

/-- A record of the word at hand (R428). -/
def State.matStep (s : State) (acc rows base stride : Nat) (md : Option Nat) : MatStep :=
  let a := s.curArr
  let h := s.curHub
  { die := s.cur.die, arr := s.cur.hub / 2, hub := s.cur.hub, id := h.runs + 1, num := s.nextOp, acc := acc, rows := rows,
    base := base, stride := stride, issue := s.now, w := s.period, af := a.af, wf := a.wf, amx := a.amx, epi := a.epi,
    md := md, k := h.launch.tk, tstride := h.tstride.toNat, seg := s.curEng.seg.getD 0, idx := s.wordIdx }

/-- Bounds, planes and sets of ranges of `n` bytes in the own scratchpad, engine 2 (R415): the fault, if any.
`os` are the offsets of the ranges; `planes` asks for the tangent planes. -/
def State.matCheck (s : State) (u : Use) (os : List Nat) (n : Nat) (planes : Bool) : Option (Nat × Nat) :=
  let size := (s.kind s.cur.die).scratchSize
  let base := flat (homeScratch (s.kind s.cur.die) s.cur.die s.cur.hub) 0
  let k := if planes then s.curHub.launch.tk else 0
  let ts := s.curHub.tstride.toNat
  if os.any fun o => decide (size < o + n) then some (0x0B, 3)
  else if k ≠ 0 ∧ (ts = 0 ∨ os.any fun o => decide (size < o + k * ts + n)) then some (0x0B, 9)
  else
    (os.findSome? fun o => (List.range (k + 1)).findSome? fun j =>
      s.violation s.cur.die s.cur.hub 2 u (base + o + j * ts) n).map fun c => (0x02, c)

/-- The own scratchpad's flat address (R193). -/
def State.ownBase (s : State) : Nat := flat (homeScratch (s.kind s.cur.die) s.cur.die s.cur.hub) 0

/-- MNOP (R435). -/
def execMnop (n : BitVec 16) (s : State) : Res := .next (s.retire 1 (n.toNat + 1))

/-- MMODE: the mode register at issue + 1 (R417); an illegal combination does not decode (R418). -/
def execMmode (x : BitVec 1) (a w : BitVec 4) (s : State) : Res :=
  if !legalMode x.toNat a.toNat w.toNat then .next (matFault 0x01 2 0 1 1 s)
  else .next ((s.later 1 (.mat (.mode s.cur.die (s.cur.hub / 2) a.toNat w.toNat (decide (x = 1))))).retire 1 1)

/-- MSCMODE: discards the hub's sq entries; the mode at issue + 1 (R423). -/
def execMscmode (m : BitVec 1) (s : State) : Res :=
  .next (((s.setCurHub { s.curHub with sq := [] }).later 1
    (.mat (.scaleMode s.cur.die (s.cur.hub / 2) (decide (m = 1))))).retire 1 1)

/-- MSETA (R425). -/
def execMseta (e : BitVec 17) (s : State) : Res :=
  .next ((s.setCurHub { s.curHub with drainBase := e.toNat * 64 }).retire 1 1)

/-- MZERO at issue + 1 (R431). -/
def execMzero (n : BitVec 2) (s : State) : Res :=
  if s.curArr.steps.any fun x => x.1.acc == n.toNat then .next (matFault 0x08 8 n.toNat 1 1 s)
  else .next ((s.later 1 (.mat (.zero s.cur.die (s.cur.hub / 2) n.toNat))).retire 1 1)

/-- An MLOADW is still writing the shadow plane (R433). -/
def Arr.loadingAt (a : Arr) (now : Nat) : Bool :=
  match a.loading with
  | some e => decide (now ≤ e)
  | none => false

/-- MSWAP at issue + 1 (R280, R421). -/
def execMswap (s : State) : Res :=
  if s.curArr.loadingAt s.now then .next (matFault 0x08 5 0 1 1 s)
  else .next ((s.later 1 (.mat (.swap s.cur.die (s.cur.hub / 2)))).retire 1 1)

/-- MLOADW (R419, R420): columns written at issue + 16 + j, sampled 2 scy before. -/
def execMloadw (e : BitVec 17) (s : State) : Res :=
  let a := s.curArr
  let off := e.toNat * 256
  let n := 256 * colBytes a.wf
  let base := flat (homeWeight s.cur.die (s.cur.hub / 2)) off
  if Config.weightSize < off + n then .next (matFault 0x0B 3 0 2 1 s)
  else
    match s.violation s.cur.die s.cur.hub 2 .read base n with
    | some c => .next (matFault 0x02 c 0 2 1 s)
    | none =>
      if (match a.shadow.lastEntry with | some l => decide (s.now + 16 < l + 264) | none => false) then
        .next (matFault 0x08 1 0 2 1 s)
      else if a.loadingAt s.now then .next (matFault 0x08 9 0 2 1 s)
      else
        let t := s.matStep 0 0 base 0 none
        .next ((((s.setCurArr { a with loading := some (s.now + 271) }).later 14 (.mat (.loadSample t 0))).issueOp).retire 2 1)

/-- MMETA: sampled at issue + 2, written at issue + 8 (R422). -/
def execMmeta (n : BitVec 4) (e : BitVec 17) (s : State) : Res :=
  match s.matCheck .read [e.toNat * 64] 8192 false with
  | some (k, c) => .next (matFault k c 0 2 1 s)
  | none =>
    let t := s.matStep 0 0 (s.ownBase + e.toNat * 64) 0 none
    .next (((s.later 2 (.mat (.mdSample t n.toNat))).issueOp).retire 2 1)

/-- Entries of a hub's MSCQ words that have not entered sq yet (R424). -/
def State.scqComing (s : State) (die hub : Nat) : Nat :=
  (s.agenda.map fun d => match d.act with
    | .mat (.scqSample t n) => if t.die = die ∧ t.hub = hub ∧ !t.epi then n else 0
    | .mat (.scqPush t es) => if t.die = die ∧ t.hub = hub then es.length else 0
    | _ => 0).sum

/-- MSCQ: sampled at issue + 2, in the queue at issue + 4 (R424). -/
def execMscq (n : BitVec 9) (e : BitVec 20) (s : State) : Res :=
  let cnt := n.toNat + 1
  match s.matCheck .read [e.toNat * 8] (8 * cnt) false with
  | some (k, c) => .next (matFault k c 0 2 1 s)
  | none =>
    let size := if s.period = 2 then 256 else 512
    if !s.curArr.epi && decide (size < s.curHub.sq.length + s.scqComing s.cur.die s.cur.hub + cnt) then
      .next (matFault 0x08 4 0 2 1 s)
    else
      let t := s.matStep 0 0 (s.ownBase + e.toNat * 8) 0 none
      .next ((s.later 2 (.mat (.scqSample t cnt))).retire 2 1)

/-- The stream desynchronisation that a step meets at its issue, lowest subcode first (R430, R433). -/
def State.stepClash (s : State) (acc : Nat) : Option Nat :=
  let a := s.curArr
  let p := a.active
  if !p.loaded || p.wf != a.wf then some 6
  else if (a.stepsOf s.cur.hub).any fun t => decide (s.now ≤ t.lastEntry) then some 7
  else if a.steps.any fun x => x.1.hub != s.cur.hub && x.1.acc == acc then some 8
  else none

/-- The offsets of the rows of a step or drain. -/
def rowOffsets (e stride rows : Nat) : List Nat := (List.range rows).map fun i => e + i * stride

/-- Starts a step: its first rows enter at its issue (R279). Entries of a step that is no MX step are discarded
(R424). -/
def startStep (t : MatStep) (s : State) : State :=
  let a := s.curArr
  let h := s.curHub
  let mx := t.amx && !t.epi
  let h := { h with runs := t.id, sq := if mx then h.sq else h.sq.filter fun e => decide (e.2.2 ≠ t.id) }
  let s := (s.setCurHub h).setCurArr { a with steps := a.steps ++ [(t, 0)] }
  s.enterRows t 0 t.rows

/-- MRUN (R426 to R430). -/
def execMrun (n : BitVec 2) (r : BitVec 8) (t : BitVec 12) (e : BitVec 17) (s : State) : Res :=
  let a := s.curArr
  let rows := r.toNat + 1
  let off := e.toNat * 64
  let stride := t.toNat * 64
  match s.matCheck .read (rowOffsets off stride rows) (rowBytes a.af a.wf) true with
  | some (k, c) => .next (matFault k c n.toNat 2 1 s)
  | none =>
    if isSparse a.wf then .next (matFault 0x09 2 n.toNat 2 1 s)
    else
      match s.stepClash n.toNat with
      | some c => .next (matFault 0x08 c n.toNat 2 1 s)
      | none =>
        .next ((startStep (s.matStep n.toNat rows (s.ownBase + off) stride none) s).issueOp.retire 2 1)

/-- The six nibbles of R402. -/
def legalNibble (n : Nat) : Bool := decide (n % 4 < n / 4)

/-- Every nibble of a pair of md registers is legal, poisoned bytes apart (R429). -/
def Arr.pairLegal (a : Arr) (m : Nat) : Bool :=
  (List.range 16384).all fun i =>
    let b := m * 8192 + i
    SMap.get false a.mdpois b ||
      (let v := (SMap.get 0 a.md b).toNat; legalNibble (v % 16) && legalNibble (v / 16))

/-- MRUN.s (R426, R429). -/
def execMrunS (n : BitVec 2) (r : BitVec 8) (m : BitVec 4) (t : BitVec 12) (e : BitVec 17) (s : State) : Res :=
  let a := s.curArr
  let rows := r.toNat + 1
  let off := e.toNat * 64
  let stride := t.toNat * 64
  match s.matCheck .read (rowOffsets off stride rows) (rowBytes a.af a.wf) true with
  | some (k, c) => .next (matFault k c n.toNat 2 1 s)
  | none =>
    if !isSparse a.wf then .next (matFault 0x09 2 n.toNat 2 1 s)
    else
      match s.stepClash n.toNat with
      | some c => .next (matFault 0x08 c n.toNat 2 1 s)
      | none =>
        if !a.pairLegal m.toNat then .next (matFault 0x09 1 n.toNat 2 1 s)
        else
          let mine := fun (k : Nat) => decide (m.toNat * 8192 ≤ k ∧ k < (m.toNat + 2) * 8192)
          .next ((startStep { s.matStep n.toNat rows (s.ownBase + off) stride (some m.toNat) with
            nib := a.md.filter fun e => mine e.1, nibPois := a.mdpois.filter fun e => mine e.1 } s).issueOp.retire 2 1)

/-! ### Drain (R282, R432) -/

/-- Bytes of a drained element. -/
def drainWidth : Nat → Nat
  | 0 => 4 | 1 => 2 | 2 => 2 | 3 => 1 | 4 => 1 | 5 => 4 | _ => 1

/-- The drain formats 0 to 4. -/
def drainFmt : Nat → Fmt
  | 0 => fp32 | 1 => bf16 | 2 => fp16 | 3 => e4m3 | _ => e5m2

/-- convert(x, fmt) of R432: `x` is an FP32 value, or an S32 in INT8 mode. -/
def drainConvert (int8 : Bool) (fmt x : Nat) (k : Option Int) : Nat :=
  if int8 then
    let v := (ITy.mk 32 true).decode x
    match fmt with
    | 5 => x
    | 6 => (ITy.mk 8 true).clamp v
    | _ => (drainFmt fmt).round .sat 0 (ofInt v 0 false)
  else
    let v := match k with
      | some e => (fp32.decode x).scale e
      | none => .nan
    match fmt with
    | 5 => (ITy.mk 32 true).ofReal 0 v
    | 6 => (ITy.mk 8 true).ofReal 0 v
    | _ => (drainFmt fmt).round .sat 0 v

/-- The drain applies the scale block (R432). -/
def MatStep.drainScaled (t : MatStep) : Bool := t.epi && t.af != 4

/-- Places the write of drain row i, with its converted planes (R282). -/
def State.drainOut (s : State) (t : MatStep) (i delay : Nat) (vals : List (List Nat)) (pois : List Bool) (k : Nat → Option Int) : State :=
  let w := drainWidth t.fmt
  let out := vals.map fun l => (l.zipIdx.map fun x => leBytes w (drainConvert (t.af == 4) t.fmt x.1 (k x.2))).flatten
  s.matAt t ((s.die t.die).cad + delay) (.drainWrite t i out pois)

/-- Drain row i at its window: the committed row, primal and tangents, which are +0 in INT8 mode (R282, R317). -/
def State.drainRow (s : State) (t : MatStep) (i : Nat) : State :=
  let a := s.arr t.die t.arr
  let row := t.row0 + i
  let vals := (List.range (t.k + 1)).map fun tan => (List.range 256).map fun j =>
    if a.accPois 1 t.acc row j || (t.af == 4 && tan != 0) then 0 else a.accAt 1 t.acc tan row j
  let pois := (List.range 256).map fun j => a.accPois 1 t.acc row j
  let now := (s.die t.die).cad
  let s := if i + 1 < t.rows then s.matAt t (now + t.w) (.drainRow t (i + 1)) else s
  if t.drainScaled then s.matAt t (now + 2) (.drainScale t i vals pois)
  else s.drainOut t i 16 vals pois fun _ => some 0

/-- The scale block at its window's issue + 2 (R432). -/
def State.drainScale (s : State) (t : MatStep) (i : Nat) (vals : List (List Nat)) (pois : List Bool) : State :=
  let ra := s.readNat (t.scale + t.row0 + i) 1
  let cb := fun j => s.readNat (t.scale + 256 + j) 1
  let rp := s.poisoned (t.scale + t.row0 + i) 1
  let k := fun j => match scaleOf ra, scaleOf (cb j) with
    | some x, some y => some (x + y)
    | _, _ => none
  (s.eccRead t.die t.hub 2 (t.detail i) [(t.scale + t.row0 + i, 1), (t.scale + 256, 256)]).drainOut t i 14 vals (pois.zipIdx.map fun x => x.1 || rp || s.poisoned (t.scale + 256 + x.2) 1) k

/-- Drain row i is performed, with its planes; a poisoned element poisons its line (R254, R282). -/
def State.drainWrite (s : State) (t : MatStep) (i : Nat) (out : List (List Byte)) (pois : List Bool) : State :=
  let w := drainWidth t.fmt
  let s := out.zipIdx.foldl (fun (s : State) x =>
    let a := t.base + i * t.stride + x.2 * t.tstride
    let s := s.writeBytes a x.1 false
    pois.zipIdx.foldl (fun (s : State) p => if p.1 then s.writeBytes (a + p.2 * w) (List.replicate w 0) true else s) s) s
  if i + 1 < t.rows then s
  else s.post t.die ((s.die t.die).cad + 1) (s.hub t.die t.hub).lpos t.hub 2 (.opEnd 0 t.num)

/-- MDRAIN (R432). -/
def execMdrain (n : BitVec 2) (r0 r : BitVec 8) (f : BitVec 4) (t : BitVec 15) (e : BitVec 17) (s : State) : Res :=
  let rows := r.toNat + 1
  let off := e.toNat * 64
  let stride := t.toNat * 64
  let d := { s.matStep n.toNat rows (s.ownBase + off) stride none with
    row0 := r0.toNat, fmt := f.toNat, scale := s.ownBase + s.curHub.drainBase }
  let scales := if d.drainScaled then s.matCheck .read [s.curHub.drainBase] 512 false else none
  let rowsAt := rowOffsets off stride rows
  let n' := 256 * drainWidth f.toNat
  let size := (s.kind s.cur.die).scratchSize
  let outOfBounds := rowsAt.any fun o => decide (size < o + n')
  let fault := if outOfBounds then some (0x0B, 3)
    else if scales == some (0x0B, 3) then scales
    else match s.matCheck .write rowsAt n' true with
      | some (0x0B, c) => some (0x0B, c)
      | x => lowestOf x scales
  match fault with
  | some (k, c) => .next (matFault k c n.toNat 2 rows s)
  | none => .next (((s.drainRow d 0).issueOp).retire 2 rows)
where
  /-- Of two set violations, the lower subcode. -/
  lowestOf (x y : Option (Nat × Nat)) : Option (Nat × Nat) :=
    match x, y with
    | none, y => y
    | x, none => x
    | some x, some y => some (if y.2 < x.2 then y else x)

/-! ### The micro-operations as they come about -/

/-- Column j of the shadow plane is sampled (R419). -/
def State.loadSample (s : State) (t : MatStep) (j : Nat) : State :=
  let n := colBytes t.wf
  let a := t.base + j * n
  let s := if j < 255 then s.matAt t ((s.die t.die).cad + 1) (.loadSample t (j + 1)) else s
  (s.eccRead t.die t.hub 2 (t.detail 0) [(a, n)]).matAt t ((s.die t.die).cad + 2) (.loadWrite t j (s.readBytes a n) ((List.range n).map fun i => s.poisoned (a + i) 1))

/-- The cell of K position r of a column, and whether its bytes are poisoned (R278, R420). -/
def cellOf (wf : Nat) (bs : List Byte) (pois : List Bool) (r : Nat) : Nat × Bool :=
  match wf with
  | 3 => ((bs.getD (2 * r) 0).toNat + 256 * (bs.getD (2 * r + 1) 0).toNat, pois.getD (2 * r) false || pois.getD (2 * r + 1) false)
  | 2 =>
    let x := (bs.getD (8 + r / 2) 0).toNat / 2 ^ (4 * (r % 2)) % 16
    (e4m3.round .sat 0 (e2m1.decode x), pois.getD (8 + r / 2) false)
  | _ => ((bs.getD r 0).toNat, pois.getD r false)

/-- Column j is written to the shadow plane; with the last, the plane records its WF (R419, R420). -/
def State.loadWrite (s : State) (t : MatStep) (j : Nat) (bs : List Byte) (pois : List Bool) : State :=
  let a := s.arr t.die t.arr
  let n := 1 - a.activeNo
  let p := a.plane n
  let p := (List.range 256).foldl (fun (p : Plane) r =>
    let c := cellOf t.wf bs pois r
    { p with cells := SMap.set 0 p.cells (256 * j + r) c.1, pois := SMap.set false p.pois (256 * j + r) c.2 }) p
  let p := if t.wf = 2 then
      (List.range 8).foldl (fun (p : Plane) g =>
        { p with
          scales := SMap.set 0 p.scales (256 * g + j) (bs.getD g 0).toNat
          spois := SMap.set false p.spois (256 * g + j) (pois.getD g false) }) p
    else p
  let p := if j = 255 then { p with wf := t.wf, loaded := true } else p
  let s := s.setArr t.die t.arr (a.setPlane n p)
  if j < 255 then s
  else s.post t.die ((s.die t.die).cad + 1) (s.hub t.die t.hub).lpos t.hub 2 (.opEnd 0 t.num)

/-- MMETA's sample (R422). -/
def State.mdSample (s : State) (t : MatStep) (n : Nat) : State :=
  (s.eccRead t.die t.hub 2 (t.detail 0) [(t.base, 8192)]).matAt t ((s.die t.die).cad + 6) (.mdWrite t n (s.readBytes t.base 8192) ((List.range 8192).map fun i => s.poisoned (t.base + i) 1))

/-- MMETA's write (R422). -/
def State.mdWrite (s : State) (t : MatStep) (n : Nat) (bs : List Byte) (pois : List Bool) : State :=
  let a := s.arr t.die t.arr
  let md := bs.zipIdx.foldl (fun m x => SMap.set 0 m (n * 8192 + x.2) x.1) a.md
  let mp := pois.zipIdx.foldl (fun m x => SMap.set false m (n * 8192 + x.2) x.1) a.mdpois
  (s.setArr t.die t.arr { a with md := md, mdpois := mp }).post t.die ((s.die t.die).cad + 1) (s.hub t.die t.hub).lpos t.hub 2 (.opEnd 0 t.num)

/-- MSCQ's sample; in epilogue mode nothing is pushed (R424). -/
def State.scqSample (s : State) (t : MatStep) (n : Nat) : State :=
  let s := s.eccRead t.die t.hub 2 (t.detail 0) [(t.base, 8 * n)]
  if t.epi then s
  else
    let es := (List.range n).map fun i =>
      ((s.readBytes (t.base + 8 * i) 8).map (·.toNat), s.poisoned (t.base + 8 * i) 8)
    s.matAt t ((s.die t.die).cad + 2) (.scqPush t es)

/-- MSCQ's entries enter the hub's share, unless the step they belong to has issued as no MX step (R424). -/
def State.scqPush (s : State) (t : MatStep) (es : List (List Nat × Bool)) : State :=
  let h := s.hub t.die t.hub
  let live := decide (h.runs < t.id) ||
    ((s.arr t.die t.arr).stepsOf t.hub).any fun x => x.id == t.id && x.amx && !x.epi
  if live then s.setHub t.die t.hub { h with sq := h.sq ++ es.map fun e => (e.1, e.2, t.id) } else s

/-- MZERO's effect (R431). -/
def Arr.zero (a : Arr) (n : Nat) : Arr :=
  let inAcc := fun (k : Nat) => decide (k / 327680 % 4 = n)
  { a with acc := a.acc.filter fun e => !inAcc e.1, apois := a.apois.filter fun e => !inAcc e.1 }

/-- A micro-operation of the matrix engine comes about. -/
def State.landMat (s : State) : MatAct → State
  | .start t => { startStep t { s with cur := ⟨t.die, t.hub, 2⟩ } with cur := s.cur }
  | .enter t i => s.enterRows t i t.rows
  | .sample t i p sc => s.sampleRow t i p sc
  | .writeRow t i p sc rows pois => s.writeRow t i p sc rows pois
  | .loadSample t j => s.loadSample t j
  | .loadWrite t j bs pois => s.loadWrite t j bs pois
  | .mdSample t n => s.mdSample t n
  | .mdWrite t n bs pois => s.mdWrite t n bs pois
  | .scqSample t n => s.scqSample t n
  | .scqPush t es => s.scqPush t es
  | .drainRow t i => s.drainRow t i
  | .drainScale t i vals pois => s.drainScale t i vals pois
  | .drainWrite t i out pois => s.drainWrite t i out pois
  | .zero die arr n => s.setArr die arr ((s.arr die arr).zero n)
  | .swap die arr => let a := s.arr die arr; s.setArr die arr { a with swapped := !a.swapped }
  | .mode die arr af wf amx => s.setArr die arr { s.arr die arr with af := af, wf := wf, amx := amx }
  | .scaleMode die arr e => s.setArr die arr { s.arr die arr with epi := e }

end Sys2Proof.Machine
end

