-- ==== Sys2Proof/Machine/EvLaunch.lean ====
section
/-! DEFINITION. Grants, item starts and ends, completion and abort (R112, R144, R168 to R175, R240), and the
pre-emption and resumption of launches (R242 to R244, R259 to R266, R520). -/

namespace Sys2Proof.Machine

open Sys2Proof

/-! ### Items -/

/-- The slot's launch after a change. -/
def State.setRun (s : State) (slot : Nat) (r : Run) : State := s.setSlot slot { s.slot slot with run := some r }

/-- Posts the start of team t's jth item at its lead point, in the CADENCE of its die (R168, R171). -/
def State.schedule (s : State) (slot : Nat) (r : Run) (t j : Nat) : State :=
  let die := (r.teams.getD t (0, 0, 0)).2.1
  if j < r.share t then
    s.post die (s.cadOf die (r.startMark j - 64)) 0 0 0 (.ev .itemStart { die := die, slot := slot, team := t, n := r.ordinal t j, m := j })
  else s

/-- Every hub of a team takes an item. -/
def State.takeAll (s : State) (die : Nat) (t : Item) : List Nat → State
  | [] => s
  | h :: r => (s.takeItem die h t).takeAll die t r

/-- Work of an engine of a hub is still to come about. -/
def State.engActs (s : State) (die hub : Nat) : Bool :=
  s.agenda.any fun d => d.die == die && d.hub == hub && d.eng != 0

/-- The drafting unit works for a hub. -/
def State.draftsFor (s : State) (die hub : Nat) : Bool :=
  let d := s.die die
  (match d.draft with | some x => x.hub == hub | none => false) || (match d.draftGo with | some x => x.1 == hub | none => false)

/-- Every engine of a hub has issued the last word of its last segment and performed that segment's writes (R175). -/
def State.drained (s : State) (die hub : Nat) : Bool :=
  let h := s.hub die hub
  (h.streams.all fun e => e.2.seg.isNone && e.2.queue.isEmpty && e.2.pieces.isEmpty && decide (e.2.free ≤ (s.die die).cad)) &&
  (h.timelines.all fun t => t.2.issued == t.2.count) &&
  h.ixq.isEmpty && h.ixrun.isNone && h.port.isEmpty && h.ports.isEmpty && h.drHeld.isNone &&
  !s.engActs die hub && !s.draftsFor die hub

/-- The item has ended at a hub. -/
def State.itemEnded (s : State) (die hub : Nat) : Bool :=
  let h := s.hub die hub
  h.item.isSome && h.run == .idle && s.drained die hub

/-- The team whose item a step may end: every hub of it has ended (R175). -/
def State.teamEnded (s : State) (r : Run) (t : Nat) : Bool :=
  let tm := r.teams.getD t (0, 0, 0)
  let hs := maskHubs tm.2.2
  !hs.isEmpty && hs.all fun h => s.itemEnded tm.2.1 h && (s.hub tm.2.1 h).launch.slot == r.launch.slot

/-- What of a hub's PHASE is still to come: dropped at the end of its item, and of a PHASE that waits for the directory at a stop,
since it issues again at resumption (R175, R384). -/
def Due.ofPhase (d : Due) (die hub : Nat) : Bool :=
  d.die == die && d.hub == hub && (match d.act with
    | .phaseSample .. | .phaseOpen .. => true
    | _ => false)

/-- A team's item has ended: the team is free, and its hubs hold no sets (R171, R175). -/
def State.endItem (s : State) (r : Run) (t : Nat) : State :=
  let tm := r.teams.getD t (0, 0, 0)
  let hs := (maskHubs tm.2.2).map fun h => 8 * tm.2.1 + h
  let hubs := s.hubs.map fun (e : Nat × Hub) => if hs.contains e.1 then (e.1, { e.2 with item := none, sets := [], pendSets := [] }) else e
  ({ s with hubs := hubs, agenda := s.agenda.filter fun d => !hs.any fun k => d.ofPhase (k / 8) (k % 8) }.closePhases r.launch.part r.launch.qid hs).settleTk

/-- A team cannot start an item at its lead point: missed start subcode 2 (R172). -/
def State.missStart (s : State) (r : Run) (die hub ord : Nat) : State :=
  let l := r.launch
  (s.raiseHalt die (s.markOf die)).sendReport
    { kind := 0x04, sub := 2, part := l.part, slot := l.slot, lpos := (s.logical l.part die).getD 0, hub := hub, qid := l.qid
      cidx := ord, estat := estatOf 0 2 0, mark := s.markOf die, ltag := l.ltag, pl := some l.plid }

/-- The fault of a list that could not be read, in the first hub of the team (R170). In a timed launch the item is
skipped. -/
def State.listFault (s : State) (r : Run) (t die hub f : Nat) : State :=
  let tm := r.teams.getD t (0, 0, 0)
  let it : Item := { launch := r.launch, lpos := tm.1, team := t, lead := 8 * die + hub }
  let u := (s.takeItem die hub it).takeFault die hub ⟨f / 256, f % 256, 0, 0, s.markOf die⟩ []
  if r.launch.timed then u.setHub die hub { u.hub die hub with item := none, run := .idle } else u

/-- The derailleur has read a list of team t: an uncorrectable error is recorded against the team's first hub (R170, R195; log 110). -/
def State.listEcc (s : State) (r : Run) (t : Nat) (places : List (Nat × Nat)) : State :=
  let tm := r.teams.getD t (0, 0, 0)
  s.eccFor r.launch tm.1 ((maskHubs tm.2.2).headD 0) 0 0 places

/-- Team t's entry of the work-list table has been read (R170). -/
def State.entryRead (s : State) (r : Run) (t : Nat) : State :=
  s.listEcc r t (s.listPlace r.launch.part r.wlist.toNat (16 * t) ++ s.listPlace r.launch.part r.wlist.toNat (16 * t + 8))

/-- The table of a launch with work lists has been read (R170). -/
def State.tableRead (s : State) (r : Run) : State :=
  if r.launch.wl then (List.range r.teams.length).foldl (fun (s : State) t => s.entryRead r t) s else s

/-- Team t's jth work identifier has been read (R170). -/
def State.itemRead (s : State) (r : Run) (t j : Nat) : State :=
  if r.launch.wl then s.listEcc r t (s.listPlace r.launch.part (r.lists.getD t (0, 0, 0)).1 (8 * j)) else s

/-- ITEM_START (R169 to R172): at the lead point the team's hubs are set and their control cores begin section 0. -/
def execItemStart (s : State) : Res :=
  let slot := s.arg.slot
  let t := s.arg.team
  let j := s.arg.m
  match (s.slot slot).run with
  | none => .next s
  | some r =>
    let tm := r.teams.getD t (0, 0, 0)
    let die := tm.2.1
    let hubs := maskHubs tm.2.2
    let first := hubs.headD 0
    -- an item that has ended by now leaves the team free (R172)
    let left := s.teamEnded r t
    let s := if left then s.endItem r t else s
    let r := if left then { r with ended := r.ended + 1 } else r
    let busy := hubs.any fun h => (s.hub die h).item.isSome
    if r.launch.timed then
      let r := { r with taken := SMap.put r.taken t (r.got t + 1) }
      let s := s.schedule slot r t (j + 1)
      if busy then .next ((s.setRun slot { r with skipped := r.skipped + 1 }).missStart r die first s.arg.n)
      else match s.itemOf r t j s.arg.n (r.startMark j) with
        | .ok it => .next (((s.itemRead r t j).setRun slot r).takeAll die it hubs)
        | .error f => .next (((s.itemRead r t j).setRun slot { r with skipped := r.skipped + 1 }).listFault r t die first f)
    else if busy then .next (s.setRun slot r)
    else
      let r := { r with placed := r.placed.filter fun x => decide (x.1 ≠ t) }
      match s.itemOf r t j s.arg.n (s.markOf die + 64) with
      | .ok it => .next (((s.itemRead r t j).setRun slot r).takeAll die it hubs)
      | .error f => .next (((s.itemRead r t j).setRun slot r).listFault r t die first f)

/-- ITEM_END (R175). -/
def execItemEnd (s : State) : Res :=
  match (s.slot s.arg.slot).run with
  | none => .next s
  | some r =>
    if s.teamEnded r s.arg.team then .next ((s.endItem r s.arg.team).setRun s.arg.slot { r with ended := r.ended + 1 }) else .next s

/-- A launch's last item has ended at every team (R175, R235). -/
def Run.finished (r : Run) : Bool :=
  !r.abort && !r.unplaced && r.placed.isEmpty && decide ((r.taken.map (·.2)).sum = r.ended + r.skipped)

/-- LAUNCH_COMPLETION (R112, R235): the completion write, then HEAD, then the interrupt. -/
def execLaunchCompletion (s : State) : Res :=
  let slot := s.arg.slot
  let x := s.slot slot
  match x.run with
  | none => .next s
  | some r =>
    if x.qcb.state = 2 ∧ r.finished ∧ !x.stopping then
      let q := x.qcb
      let s := if r.caddr = 0 then s else s.hostWrite q.part (some q.pasid) r.caddr (leBytes 8 r.cval.toNat)
      let s := s.leaveHubs slot r fun _ => false
      let s := s.setSlot slot { s.slot slot with
        run := none, validated := false, preq := false
        qcb := { q with head := (q.head + 1) % 2 ^ 32, state := 0 } }
      .next (if r.cie then s.signal (q.part + 1) r.cvec else s)
    else .next s

/-- A stopped hub stands still: its other engines have run their segments to the last word (R240). -/
def State.stillStopped (s : State) (die hub : Nat) : Bool :=
  let h := s.hub die hub
  (h.run == .stopped || h.run == .preempted) && (h.streams.all fun e => e.2.seg.isNone || e.2.stopped) && !s.engActs die hub

/-- A fault report of a launch is on its way: its record and VF vector 0 come before vector 3 (R119). -/
def State.reportComing (s : State) (l : Launch) : Bool :=
  s.reports.any fun r => r.part == l.part && r.slot == l.slot && r.qid == l.qid && r.ltag == l.ltag

/-- Every other item of a launch that aborts has ended, and its faults are recorded (R119, R240). -/
def State.abortReady (s : State) (r : Run) : Bool :=
  r.abort && r.placed.isEmpty && !s.reportComing r.launch &&
  (s.heldHubs r).all fun x => (s.hub x.1 x.2).item.isNone || s.itemEnded x.1 x.2 || s.stillStopped x.1 x.2

/-- LAUNCH_ABORT (R240): the queue becomes faulted and no completion write is made; a stopped hub keeps its state. -/
def execLaunchAbort (s : State) : Res :=
  let slot := s.arg.slot
  match (s.slot slot).run with
  | none => .next s
  | some r =>
    if s.abortReady r then .next ((s.leaveHubs slot r fun h => h.run == .stopped).faultSlot slot) else .next s

/-! ### Grants (R144, R168, R169) -/

/-- Places the next item of a counted launch on team t; placements reach their dies in enumeration order (R169). -/
def State.place (s : State) (slot t : Nat) : State :=
  match (s.slot slot).run with
  | none => s
  | some r =>
    if !r.more t then s
    else
      let j := r.got t
      let o := r.ordinal t j
      let s := s.setRun slot { r with next := r.next + 1, taken := SMap.put r.taken t (j + 1), placed := r.placed ++ [(t, o, 0)] }
      let s := s.holdArrays r.launch [r.teams.getD t (0, 0, 0)]
      s.inOrder (2 ^ 31 + slot) .itemStart { slot := slot, team := t, n := o, m := j }

def State.placeAll (s : State) (slot : Nat) : List Nat → State
  | [] => s
  | t :: r => (s.place slot t).placeAll slot r

/-- CADENCE of a paceline's root. -/
def State.rootCad (s : State) (n : Nat) : Nat := (s.die (s.pl n).root).cad

/-- A timed launch takes its paceline: the base mark, LSHIFT 0 and TK on every member (R52, R168, R263). Its drafting units serve
port 0 first, whatever another launch left (R2, R319; log 107). -/
def State.startTimed (s : State) (slot : Nat) (r : Run) : State :=
  let n := r.launch.plid
  let b := roundUp (s.rootCad n + 4096) 256
  let r := { r with launch := { r.launch with lbase := b } }
  let s := { s with dies := s.dies.map fun (e : Nat × Die) =>
    if e.2.member && e.2.plid == n then (e.1, { e.2 with tk := r.launch.tk, lshift := 0, draftLast := 7 }) else e }
  let s := (s.takePaceline n slot).setRun slot r
  (List.range r.teams.length).foldl (fun s t => s.schedule slot r t 0) s

/-- A fetched launch begins to run (R143). -/
def State.startRun (s : State) (slot : Nat) (r : Run) : State :=
  let x := s.slot slot
  let w := recNat x.record.bytes 8 8 % 2 ^ 32
  let wb := if w = 0 ∨ 10000000 < w then 10000000 else w
  let s := s.setSlot slot { x with
    run := some r, bkstop := false, grace := 0, halt := 0, stopping := false
    qcb := { x.qcb with state := 2, wbud := wb, wrem := wb } }
  let s := (s.holdArrays r.launch r.teams).tableRead r
  if r.launch.timed then s.startTimed slot r else s

/-- A map's generation at a resumption without draft-save (R266). -/
def DMap.bump (m : DMap) : DMap := { m with gen := m.gen + 1, lost := m.lost || m.wgen == m.gen }

/-- The place of a hub's context, `i`th of its launch (R264), has been written since the save: the lines that the present key wrote
there, or a later save. -/
def State.brokenAt (s : State) (v : Saved) (i : Nat) : Bool :=
  let o := v.area.2 + i * 2 ^ 22
  let a := flat (homeHbm v.area.1) o
  (s.epochs.any fun e => decide (a / 64 ≤ e.1 ∧ e.1 < (a + 2 ^ 22) / 64)) ||
  (match (s.die v.area.1).saves.find? fun x => decide (x.1 ≤ o ∧ o < x.1 + x.2.1) with
   | some x => x.2.2 != v.num
   | none => true)

/-- The hub that a context is loaded into (R264 to R266): its receive ring, its maps without draft-save and what it carries for
other launches are its own; registers from a context that was overwritten are free values (log 58). -/
def State.reload (s : State) (slot : Nat) (v : Saved) (i : Nat) (e : Nat × Hub) : Hub :=
  let h := SMap.get {} s.hubs e.1
  let kept := match h.took with
    | some q => SMap.put h.kept q ⟨h.code, h.timelines, h.tstride, h.drainBase⟩
    | none => h.kept
  { e.2 with
    epcfg := h.epcfg, kept := SMap.drop kept v.qid
    maps := if v.run.launch.ds then e.2.maps else (List.range 8).map fun i => (i, (SMap.get {} h.maps i).bump)
    item := e.2.item.map fun (t : Item) => { t with launch := { t.launch with slot := slot } }
    s := if s.brokenAt v i then (List.range 63).map fun r => (r + 1, ⟨Config.brokenContext v.num e.1 (r + 1), false⟩) else e.2.s }

/-- Homes of the SRAM of hubs: scratchpads, and the weight buffers of M-die hubs (R134; log 113). -/
def State.padHomes (s : State) (hs : List (Nat × Nat)) : List Nat :=
  hs.flatMap fun y => homeScratch (s.kind y.1) y.1 y.2 :: (if s.kind y.1 = .mDie then [homeWeight y.1 (y.2 / 2)] else [])

/-- The SRAM of a launch's hubs comes back from its save area (R134). -/
def State.restorePads (s : State) (v : Saved) : State :=
  if v.off then
    { s with
      mem := v.pads.foldl (fun (m : List Host.Cell) c => Memory.write m c.1 c.2) s.mem
      lines := v.padPois.foldl (fun (m : SMap Bool) l => SMap.set false m l true) s.lines }
  else s

/-- A suspended launch is granted its hubs: its entry leaves the directory, its context is being reloaded (R143, R189, R244,
R264, R520). -/
def State.regrant (s : State) (slot : Nat) (v : Saved) : State :=
  let x := s.slot slot
  let p := s.part x.qcb.part
  let s := s.setPart x.qcb.part { p with
    susp := p.susp.filter fun y => !(y.qid == v.qid && y.ltag == v.ltag), barriers := p.barriers ++ v.barriers.map fun b => { b with slot := slot } }
  let run := { v.run with launch := { v.run.launch with slot := slot } }
  let s := s.setSlot slot { x with run := some run, stopping := true, qcb := { x.qcb with state := 2 } }
  let place := fun (k : Nat) => (run.hubs.findIdx? fun y => 8 * y.1 + y.2 == k).getD 0
  let s := { s with
    hubs := v.hubs.foldl (fun (m : SMap Hub) (e : Nat × Hub) => SMap.put m e.1 (s.reload slot v (place e.1) e)) s.hubs
    arrays := v.arrays.foldl (fun (m : SMap Arr) (e : Nat × Arr) => SMap.put m e.1 e.2) s.arrays }
  let s := s.restorePads v
  let n := run.launch.plid
  if run.launch.timed then
    let s := { s with dies := s.dies.map fun (e : Nat × Die) => (e.1, { e.2 with draftLast := SMap.get e.2.draftLast v.served e.1 }) }
    ((s.setPl n { s.pl n with slot := some slot }).after s.transit .timedResume { slot := slot, n := v.mark }).useFree
  else
    let s := v.hubs.foldl (fun (s : State) e =>
      if e.2.item.isSome then s.setDie (e.1 / 8) { s.die (e.1 / 8) with tk := run.launch.tk } else s) s
    (s.after (1 + Config.transit s.free % 190000) .countedResume { slot := slot }).useFree

/-- A candidate takes its grant: a suspended launch or a timed one as a whole, a counted one its teams (R143, R144). -/
def State.grant (s : State) (part n : Nat) (teams : List Nat) : State :=
  let x := s.slot n
  let s := if x.qcb.state = 3 then (match s.savedOf n with | some v => s.regrant n v | none => s)
    else if x.qcb.state = 1 then s.startRun n (s.runOf n) else s
  let s := s.placeAll n teams
  let y := s.slot n
  let s := s.setSlot n { y with granted := true, qcb := { y.qcb with prio := y.qcb.bprio, age := 0 } }
  s.setPart part { s.part part with lastGrant := n }

/-- The arbiter considers candidates in order: a counted one takes each free team that it has an item for; another takes its whole
hub set, or reserves what of it is free (R144). -/
def State.arbitrate (s : State) (part : Nat) : List (Nat × Nat) → List Nat → State
  | _, [] => s
  | avoid, n :: rest =>
    match s.runFor n with
    | none => s.arbitrate part avoid rest
    | some r =>
      if wholeSet (s.slot n) r then
        if s.setFree r avoid then (s.grant part n []).arbitrate part avoid rest
        else s.arbitrate part (avoid ++ r.hubs) rest
      else
        let ts := s.freeTeams r avoid
        (if ts.isEmpty then s else s.grant part n ts).arbitrate part avoid rest

/-- HUB_GRANT (R144): the grants of one H-die cycle in one partition. -/
def execHubGrant (s : State) : Res :=
  let part := s.arg.part
  if s.mayStart part then .next (s.arbitrate part [] (s.candidates part)) else .next s

/-! ### Pre-emption (R242 to R244, R260 to R262) -/

/-- A hub's units stop: the control core and the vector engine settle their pending writes, no engine issues a
further word, and running steps are abandoned (R242, R259, R260). -/
def State.standStill (s : State) (die hub : Nat) (ref : Nat) (quiet : Bool) : State :=
  let h := s.hub die hub
  let waits := match h.wait with
    | .phase .. => true
    | _ => false
  let s := if waits then { s with agenda := s.agenda.filter fun d => !d.ofPhase die hub } else s
  let keeps := fun (d : Due) => if quiet then d.stands die h.lpos hub else d.settles die hub true
  let settled := s.agenda.filter keeps
  let h := { h with
    run := if h.run = .running then .preempted else h.run, stopRef := ref, next := max h.next ref
    pending := h.pending ++ settled, pendSets := if waits then [] else h.pendSets
    streams := h.streams.map fun e => (e.1, { e.2 with stopped := true, next := max e.2.next ref }) }
  let s : State := { s.setHub die hub h with agenda := s.agenda.filter fun d => !keeps d }
  if s.kind die = .mDie then s.abandonSteps die hub else s

/-- Hubs that hold an item stand still from CADENCE `ref` of their dies. -/
def State.standAll (s : State) (quiet : Bool) (ref : Nat → Nat) : List (Nat × Nat) → State
  | [] => s
  | (d, h) :: r => (if (s.hub d h).item.isSome then s.standStill d h (ref d) quiet else s).standAll quiet ref r

/-- A hub that stands still has nothing more under way (R260). -/
def State.savable (s : State) (die hub : Nat) : Bool :=
  let h := s.hub die hub
  h.accesses.isEmpty && (h.streams.all fun e => e.2.pieces.isEmpty) && h.ixq.isEmpty && h.ixrun.isNone &&
  !s.draftsFor die hub && !(s.agenda.any fun d => d.die == die && d.hub == hub)

/-- The save area of a launch of `n` hubs, `n` × 4 MiB from SAVEP, is written by the device: its bytes are the contexts' private
format under the B-die's key (R154, R264; log 58). -/
def State.writeContexts (s : State) (area : Nat × Nat) (n num : Nat) : State :=
  let a := flat (homeHbm area.1) area.2
  let z := n * 2 ^ 22
  let line := fun (l : Nat) => decide (a / 64 ≤ l ∧ l < (a + z) / 64)
  let d := s.die area.1
  ({ s with
      mem := s.mem.filter fun (c : Host.Cell) => !decide (a ≤ c.1 ∧ c.1 < a + z)
      epochs := s.epochs.filter fun (e : Nat × Nat) => !line e.1
      ecc := s.ecc.filter fun (e : Nat × Bool) => !line e.1 }).setDie area.1
    { d with saves := (area.2, z, num) :: d.saves.filter fun x => !decide (area.2 ≤ x.1 ∧ x.1 + x.2.1 ≤ area.2 + z) }

/-- The context of a hub in a launch: its whole state where it holds the launch's, else what it carries for it (R264). -/
def Hub.contextOf (h : Hub) (l : Launch) : Option Hub :=
  if h.holds l then some { h with kept := [] }
  else (SMap.find l.qid h.kept).map fun c => { took := some l.qid, code := c.code, timelines := c.timelines, tstride := c.tstride, drainBase := c.drainBase }

/-- The context of a launch is written and its hubs are given up (R264, R520): SRAM, phases and arrays stay. Where its
watchdog has expired the shipped firmware aborts it at once, before it can be granted again (R155; DEDUCED, log 48). -/
def State.saveLaunch (s : State) (slot mark : Nat) (r : Run) : State :=
  let x := s.slot slot
  let p := s.part x.qcb.part
  let l := r.launch
  let keys := r.hubs.map fun y => 8 * y.1 + y.2
  let area := ((s.phys x.qcb.part (5 + bits x.qcb.savep 38 36)).getD 0, x.qcb.savep % 2 ^ 36)
  let v : Saved :=
    { slotOf := slot, qid := x.qcb.qid, ltag := x.qcb.ltag, savep := x.qcb.savep, wbud := x.qcb.wbud, run := r, mark := mark
      num := s.free, area := area
      hubs := s.hubs.filterMap fun e => if keys.contains e.1 then (e.2.contextOf l).map fun h => (e.1, h) else none
      arrays := s.arrays.filter fun e => e.2.held == some x.qcb.qid
      barriers := p.barriers.filter fun b => b.slot == slot
      pads := s.mem.filter fun (c : Host.Cell) => (s.padHomes r.hubs).contains (homeOf c.1)
      padPois := s.lines.filterMap fun (e : Nat × Bool) => if (s.padHomes r.hubs).contains (homeOf (64 * e.1)) then some e.1 else none
      served := if l.timed then (s.dies.filter fun e => e.2.member && e.2.plid == l.plid).map fun e => (e.1, e.2.draftLast) else [] }
  let s := s.setPart x.qcb.part { p with susp := p.susp ++ [v], barriers := p.barriers.filter fun b => decide (b.slot ≠ slot) }
  let s := { s with
    hubs := s.hubs.map fun (e : Nat × Hub) =>
      if !keys.contains e.1 then e
      else if e.2.holds l then (e.1, e.2.discard)
      else (e.1, { e.2 with kept := SMap.drop e.2.kept l.qid })
    agenda := s.agenda.filter fun (d : Due) => match d.act with | .ev i a => !startsItem slot i a | _ => true }
  let s := ((s.writeContexts area keys.length v.num).useFree).settleTk
  let s := if l.timed then (s.freePaceline l.plid).zeroShift l.plid else s
  let s := (s.setSlot slot { s.slot slot with run := none, preq := false, stopping := false, qcb := { x.qcb with state := 3 } }).interrupt x.qcb.part 3
  if x.wdx then { s with inbox := (.slotAbort, { slot := slot }) :: s.inbox } else s

/-- COUNTED_PREEMPTION (R260): the hubs stop; once everything under way is complete the launch is suspended. -/
def execCountedPreemption (s : State) : Res :=
  let slot := s.arg.slot
  let x := s.slot slot
  match x.run with
  | none => .next s
  | some r =>
    if !x.preq || x.qcb.state != 2 || r.launch.timed || r.abort || !r.placed.isEmpty then .next s
    else if !x.stopping then .next ((s.standAll false (fun d => (s.die d).cad) (s.heldHubs r)).setSlot slot { x with stopping := true })
    else if (s.heldHubs r).all fun h => s.savable h.1 h.2 then .next (s.saveLaunch slot 0 r)
    else .next s

/-- CADENCE values inside an effect, moved with it. -/
def Act.shift (f : Nat → Nat) : Act → Act
  | .sample a n (.reg d h r at_) => .sample a n (.reg d h r (f at_))
  | .sample a n (.ldx d h r at_) => .sample a n (.ldx d h r (f at_))
  | .sample a n (.vec d h r w k addrs b at_) => .sample a n (.vec d h r w k addrs b (f at_))
  | .amo q => .amo { q with at_ := f q.at_ }
  | .slotOp q => .slotOp { q with at_ := f q.at_ }
  | x => x

/-- The hub's cycles moved to a resumption reference (R244). -/
def Hub.shift (f : Nat → Nat) (h : Hub) : Hub :=
  { h with
    run := if h.run = .preempted then .running else h.run, next := f h.next, ixEnd := f h.ixEnd, pending := []
    wait := match h.wait with
      | .tick u => .tick (f u)
      | w => w
    streams := h.streams.map fun e =>
      (e.1, { e.2 with
        stopped := false, next := f e.2.next, free := f e.2.free
        queue := e.2.queue.map fun g => { g with start := f g.start, go := f g.go } }) }

/-- Abandoned steps issue again, each in the first window after the last row entry of the one before it; the rest
of the segment follows, and the hub's other engines issue nothing before the last of them has ended (R259, R430). -/
def State.replaySteps (s : State) (die hub : Nat) : Nat → List MatStep → State
  | at_, [] =>
    let h := s.hub die hub
    let e := h.stream 2
    s.setHub die hub { h.setStream 2 { e with next := max at_ e.next, free := max at_ e.free } with replaying := true }
  | at_, t :: r =>
    let t' := { t with issue := s.evened die hub 2 at_ }
    (s.matAt t' t'.issue (.start t')).replaySteps die hub (t'.lastEntry + t'.w) r

/-- A PHASE that waited for the directory issues again at the stop point, with its block address (R384). -/
def State.rephase (s : State) (die hub ref : Nat) : State :=
  let h := s.hub die hub
  match h.wait with
  | .phase b _ =>
    let t := (s.die die).markAt ref
    (s.setHub die hub { h with wait := .phase b t }).post die (ref + 2) h.lpos hub 0 (.phaseSample b t (h.pc % 2 ^ 32) s.slotTags)
  | _ => s

/-- A hub resumes at the CADENCE `ref` of its die (R244); streams that alternate go on in marks of the hub's parity (R166). -/
def State.resumeHub (s : State) (die hub ref : Nat) : State :=
  let h := s.hub die hub
  let f := fun x => x + ref - h.stopRef
  let k := h.shift f
  let k := { k with streams := k.streams.map fun e => (e.1, { e.2 with next := s.evened die hub e.1 e.2.next }) }
  let s : State := { s.setHub die hub k with
    agenda := s.agenda ++ h.pending.map fun (d : Due) => { d with at_ := f d.at_, act := d.act.shift f } }
  let s := s.rephase die hub ref
  let s := if h.port.isEmpty then s else s.post die ref 0 0 6 (.ev .draftingCommandStart { die := die })
  if h.replay.isEmpty then s
  else s.replaySteps die hub (max ref (if (h.stream 2).seg.isSome then f (h.stream 2).next else ref)) h.replay

def State.resumeAll (s : State) (ref : Nat → Nat) : List (Nat × Nat) → State
  | [] => s
  | (d, h) :: r => (if (s.hub d h).item.isSome then s.resumeHub d h (ref d) else s).resumeAll ref r

/-- Full generations of a launch's barriers are released again after a resumption (R178). -/
def State.rebar (s : State) (slot part : Nat) (timed : Bool) : State :=
  ((s.part part).barriers.filter fun b => b.slot == slot && b.full).foldl
    (fun s b => s.scheduleRelease part timed b) s

/-- COUNTED_RESUME (R244): each hub resumes at the mark P + 64 of its die. -/
def execCountedResume (s : State) : Res :=
  let slot := s.arg.slot
  let x := s.slot slot
  match x.run with
  | none => .next s
  | some r =>
    if x.stopping && x.qcb.state == 2 && !r.launch.timed then
      let s := s.setSlot slot { x with stopping := false }
      .next ((s.resumeAll (fun d => (s.die d).cad + 64) (s.heldHubs r)).rebar slot x.qcb.part false)
    else .next s

/-- TIMED_RESUME (R263): X is the smallest multiple of 256 at least the root's CADENCE plus 4,096; every member's marks
go on from M + 1 at X. -/
def execTimedResume (s : State) : Res :=
  let slot := s.arg.slot
  let x := s.slot slot
  match x.run with
  | none => .next s
  | some r =>
    if x.stopping && x.qcb.state == 2 && r.launch.timed then
      let n := r.launch.plid
      let c := roundUp (s.rootCad n + 4096) 256
      let s := { s with dies := s.dies.map fun (e : Nat × Die) =>
        if e.2.member && e.2.plid == n then (e.1, { e.2 with tk := r.launch.tk, lshift := (c : Int) - s.arg.n }) else e }
      let s := s.setSlot slot { x with stopping := false }
      let s := s.resumeAll (fun _ => c) (s.heldHubs r)
      let s := (List.range r.teams.length).foldl (fun s t => s.schedule slot r t (r.got t)) s
      .next (s.rebar slot x.qcb.part true)
    else .next s

/-! ### The quiet save (R261, R262) -/

/-- The members of a paceline leave a hold together after `w` pulses, the tree's depth included (R249). -/
def State.releaseAll (s : State) (n w : Nat) : State :=
  let s := { s with dies := s.dies.map fun (e : Nat × Die) =>
    if e.2.member && e.2.plid == n && (e.2.standing || e.2.held) then
      (e.1, if e.2.standing then { e.2 with gather := false, swallow := w } else { e.2 with release := some w })
    else e }
  s

/-- Counted loads of a launch that are still on their way; at the save one counts as settled once its reply is
there or `waited` pulses have passed its promise (R243). -/
def State.openLoads (s : State) (r : Run) (waited : Nat) : Bool :=
  s.agenda.any fun d => r.hubs.contains (d.die, d.hub) && (match d.act with
    | .ev i a => i == .countedReplyDeadline && decide ((s.die d.die).cad + waited < d.at_) &&
        (match SMap.find a.n s.net with | some p => !p.done | none => false)
    | _ => false)

/-- Counted loads become entries of the pending-write list: the data where the reply has come, else poison; atomics and slot-table
operations complete (R243). -/
def State.settleLoads (s : State) : List Due → State
  | [] => s
  | d :: r =>
    let s := match d.act with
      | .ev .countedReplyDeadline a =>
        match SMap.find a.n s.net with
        | some p =>
          let h := s.hub d.die d.hub
          let v := if p.done && !p.pois then BitVec.ofNat 64 (leNat p.bytes) else 0
          let bad := !p.done || p.pois
          let h := if p.amo.isNone && p.slotOp.isNone then { h with pending := h.pending ++ [{ d with act := .load p.reg v bad }] }
            else h.writeS p.reg v bad
          let h := { h with
            accesses := h.accesses.filter fun e => decide (e.id ≠ a.n) }
          { s.setHub d.die d.hub h with agenda := s.agenda.filter fun x => decide (x ≠ d) }
        | none => s
      | _ => s
    s.settleLoads r

/-- QUIET_SAVE (R261, R262, R267): every member has sent its quiet record. When every member is quiet and no halt is
due, the launch is saved and the members go on with none; otherwise the paceline is released. `size` counts the
pulses for which open loads have been waited for. -/
def execQuietSave (s : State) : Res :=
  let n := s.arg.n
  let l := s.pl n
  let ms := (List.range 48).filter fun p => s.isMember n p
  let w := 24 * l.hops + 64
  match l.slot with
  | none => .next (s.releaseAll n w)
  | some slot =>
    match (s.slot slot).run with
    | none => .next (s.releaseAll n w)
    | some r =>
      if !(ms.all fun p => (s.die p).gather) then .next s
      else if !(ms.all fun p => (s.die p).quiet) || ms.any (fun p => (s.die p).haltAt.isSome) then .next (s.releaseAll n w)
      else if s.openLoads r s.arg.size || r.hubs.any (fun h => (s.hub h.1 h.2).accesses.any (·.store)) then
        .next (s.after 1 .quietSave { s.arg with size := s.arg.size + 1 })
      else
        let s := s.settleLoads (s.agenda.filter fun d => r.hubs.contains (d.die, d.hub))
        let m := s.markOf l.root
        let s := s.standAll true (fun d => (s.die d).cad + 1) (s.heldHubs r)
        .next ((s.saveLaunch slot (m + 1) r).releaseAll n w)

end Sys2Proof.Machine
end

