-- ==== Sys2Proof/Machine/DieSpace.lean ====
section
/-! DEFINITION. The control space of a die as reads see it (R36, R46, R47, R52, R54, R72, R77, R84, R85, R100,
R165, R214, R263). -/

namespace Sys2Proof.Machine

open Sys2Proof

/-- LNKINFOn (R36). -/
def State.lnkInfo (s : State) (p m : Nat) : Nat :=
  match Config.wire p m with
  | none => 0
  | some (q, j) => q * 2 ^ 10 + j * 2 ^ 6 + 2 + bitOf (SMap.get {} (s.die p).modules m).up

/-- LDRIFTn (R47). -/
def Module.ldrift (k : Module) : Nat :=
  bitOf k.driftV * 2 ^ 63 + bitOf k.stale * 2 ^ 62 + bitOf k.ovr * 2 ^ 61 + k.fill % 256 * 2 ^ 48 + k.rate % 2 ^ 16 * 2 ^ 32 + k.drift % 2 ^ 32

/-- PACECFG (R52). -/
def Die.paceCfg (d : Die) : Nat :=
  d.plid * 2 ^ 12 + d.parent * 2 ^ 8 + bitOf d.member * 2 ^ 7 + bitOf d.root * 2 ^ 6 + (if d.member then d.tk else 0)

/-- STANDST (R54). -/
def Die.standSt (d : Die) : Nat :=
  bitOf d.armed * 2 ^ 63 + bitOf d.standQ * 2 ^ 62 + bitOf d.adopt * 2 ^ 61 + bitOf d.idle * 2 ^ 60 + d.standHubs % 256

/-- PORTSTn (R72). -/
def LPort.status (x : LPort) : Nat :=
  x.retries % 2 ^ 16 * 2 ^ 32 + x.lost % 2 ^ 16 * 2 ^ 16 + x.peer % 2 ^ 12 * 2 ^ 4 + bitOf x.lerr * 4 + bitOf x.train * 2 + bitOf x.up

/-- ARRMODEa: OWN is 0 from reset to the first launch that holds the array, the register's reset value, and 3 from the end of one
(R165; log 111). -/
def Arr.mode (x : Arr) : Nat := x.ltag % 2 ^ 12 * 2 ^ 4 + bitOf x.held.isSome * 4 + x.own % 4

/-- A doubleword of a die's control space; unassigned places read 0 (R100). -/
def State.dieReg (s : State) (p o : Nat) : Nat :=
  let d := s.die p
  let k := s.kind p
  let x := s.xdie p
  if k = .none ∨ o % 8 ≠ 0 then 0
  else if o = 0x000 then d.cad % 2 ^ 64
  else if o = 0x008 then d.paceCfg
  else if o = 0x010 then d.ahead % 2 ^ 32 * 2 ^ 32 + d.lag % 2 ^ 32
  else if o = 0x018 then d.standSt
  else if o = 0x020 then d.standM % 2 ^ 64
  else if o = 0x028 then wrapInt d.lshift 64
  else if 0x100 ≤ o ∧ o < 0x100 + 8 * k.modules then s.lnkInfo p ((o - 0x100) / 8)
  else if 0x200 ≤ o ∧ o < 0x200 + 8 * k.modules then (SMap.get {} d.modules ((o - 0x200) / 8)).ldrift
  else if 0x10000 ≤ o ∧ o < 0x10000 + 0x1000 * k.hubs ∧ o % 0x1000 = 0 then (s.hub p ((o - 0x10000) / 0x1000)).epcfg.toNat
  else if k = .xDie ∧ 0x20000 ≤ o ∧ o < 0x20040 then (SMap.get {} x.ports ((o - 0x20000) / 8)).status
  else if k = .xDie ∧ 0x21000 ≤ o ∧ o < 0x21080 then (SMap.get 200 x.colctx ((o - 0x21000) / 8)).toNat
  else if k = .xDie ∧ 0x30000 ≤ o ∧ o < 0x38000 then (SMap.get 0 x.ranktab ((o - 0x30000) / 8)).toNat
  else if k = .mDie ∧ 0x40000 ≤ o ∧ o < 0x40020 then (s.arr p ((o - 0x40000) / 8)).mode
  else if k = .bDie ∧ 0x80000 ≤ o ∧ o < 0xA0000 then SMap.get 0 d.tags ((o - 0x80000) / 8)
  else 0

end Sys2Proof.Machine
end

