-- ==== Sys2Proof/Machine/Scrub.lean ====
section
/-! DEFINITION. Measurements and keys of partitions (R126, R128), the loss of launches (R27, R139, R520), the start of
a partition reset (R156 to R158) and the scrub of dies (R131). -/

namespace Sys2Proof.Machine

open Sys2Proof

/-! ### Measurements and keys -/

/-- A digest as bytes (R9). -/
def digestBytes (x : BitVec 256) : List Byte := leBytes 32 x.toNat

/-- MEAS := SHA-256(MEAS ‖ value) (R126). -/
def extendMeas (m : BitVec 256) (bs : List Byte) : BitVec 256 := Config.sha256 (digestBytes m ++ bs)

def State.extendDev (s : State) (i : Nat) (bs : List Byte) : State :=
  { s with dev := { s.dev with meas := SMap.put s.dev.meas i (extendMeas (SMap.get 0 s.dev.meas i) bs) } }

def State.extendPart (s : State) (part i : Nat) (bs : List Byte) : State :=
  let p := s.part part
  s.setPart part { p with pmeas := SMap.put p.pmeas i (extendMeas (SMap.get 0 p.pmeas i) bs) }

/-- The 96 bytes of LDMAP0 to LDMAP11. -/
def Part.mapBytes (p : Part) : List Byte := (List.range 48).flatMap fun l => leBytes 2 (SMap.get 0 p.ldmap l)

/-- The key under which a partition's B-dies write HBM: one for each epoch (R128). -/
def keyOf (part epoch : Nat) : Nat := 16 * epoch + part + 1

/-- Physical positions of the dies that a partition's locked map binds, position 0 apart (R25). -/
def State.boundDies (s : State) (part : Nat) : List Nat :=
  if !(s.part part).lock then []
  else ((List.range 48).filterMap fun l => s.phys part l).filter fun p => p != 0

/-- A partition's key is installed on its B-dies (R128). -/
def State.installKey (s : State) (part : Nat) : State :=
  let ds := s.boundDies part
  { s with dies := ds.foldl (fun (m : SMap Die) p => SMap.put m p { SMap.get {} m p with epoch := keyOf part (s.part part).epoch }) s.dies }

/-! ### Answers to mailboxes (R118, R148) -/

/-- Firmware fills MBOXRSP with doublewords, from the status on, and sets DONE when it comes to it. -/
def State.respond (s : State) (fn : Nat) (ws : List Nat) : State :=
  let m : SMap Byte := (ws.flatMap (leBytes 8)).zipIdx.map fun x => (x.2, x.1)
  let s := if fn = 0 then { s with dev := { s.dev with pfRsp := m } }
    else s.setPart (fn - 1) { s.part (fn - 1) with mbRsp := m }
  (s.after s.transit .mailboxDone { fn := fn }).useFree

/-- Doubleword i of a mailbox. -/
def mailWord (m : SMap Byte) (i : Nat) : Nat := leNat ((List.range 8).map fun j => SMap.get 0 m (8 * i + j))

/-- Doubleword i of a function's request. -/
def State.mail (s : State) (fn i : Nat) : Nat := mailWord (if fn = 0 then s.dev.pfReq else (s.part (fn - 1)).mbReq) i

/-- Bits that a request leaves unnamed are 0: `ms` gives, for the named doublewords from 1 on, the bound that their value
stays below (R148). -/
def State.mailOk (s : State) (fn : Nat) (ms : List Nat) : Bool :=
  (ms.zipIdx.all fun x => decide (s.mail fn (x.2 + 1) < x.1)) &&
  (List.range (31 - ms.length)).all fun i => s.mail fn (ms.length + 1 + i) == 0

/-! ### Launches that are lost -/

/-- Slots that hold a queue of a partition. -/
def State.slotsOf (s : State) (part : Nat) : List Nat :=
  (List.range 16).filter fun n => (s.slot n).valid && (s.slot n).qcb.part == part

/-- A watchdog record of a slot: CIDX holds WBUD, and MARK the mark of the root of a timed launch's paceline (R157, R510). -/
def State.dogRecord (s : State) (slot sub : Nat) : State :=
  let mark := match (s.slot slot).run with
    | some r => if r.launch.timed then s.markOf (s.pl r.launch.plid).root else 0
    | none => 0
  s.slotRecord { s.launchReport slot 0x11 sub with cidx := (s.slot slot).qcb.wbud, mark := mark }

/-- The running or suspended launch of a slot is thrown away; its slot keeps its state. -/
def State.dropLaunch (s : State) (slot : Nat) : State :=
  let x := s.slot slot
  let s := match x.run with
    | some r => s.discardLaunch slot r
    | none => s
  let s := match (if x.qcb.state = 3 then s.savedOf slot else none) with
    | some v => s.discardSaved x.qcb.part v
    | none => s
  s.setSlot slot { s.slot slot with run := none, validated := false, preq := false, stopping := false }

/-- Suspended launches of a partition whose queues are held in no slot are lost, each with one record (R520). -/
def State.loseSaved (s : State) (part kind sub : Nat) : State :=
  let held := (s.slotsOf part).map fun n => (s.slot n).qcb.qid
  let lost := (s.part part).susp.filter fun v => !held.contains v.qid
  lost.foldl (fun (s : State) v =>
    (s.discardSaved part v).writeRecord
      { kind := kind, sub := sub, part := part, qid := v.qid, ltag := v.ltag, cidx := if kind = 0x11 then v.wbud else 0, time := s.nanos }) s

/-- Every launch of a partition is aborted with a record, and its queue becomes faulted (R27, R34). `susp` says whether
suspended launches go too. -/
def State.abortAll (s : State) (part kind sub : Nat) (susp : Bool) : State :=
  (s.slotsOf part).foldl (fun (s : State) n =>
    let st := (s.slot n).qcb.state
    if st = 2 ∨ (susp ∧ st = 3) then ((s.slotRecord (s.launchReport n kind sub)).dropLaunch n).faultSlot n else s) s

/-! ### The partition reset (R156 to R158) -/

/-- The members of a partition's pacelines swallow pulses as in a halt: from the end of their next scy on, or at once where they
stand or hold already (R158, R514). A halt of the pacelines is over. -/
def State.holdMembers (s : State) (part : Nat) : State :=
  { s with
    dies := s.dies.map fun (e : Nat × Die) =>
      let l := s.pl e.2.plid
      if e.2.member && l.formed && l.part == part then
        let d := { e.2 with release := none, gather := false, armed := false }
        (e.1, if d.held || d.standing then { d with held := true, haltAt := none, standing := false, swallow := 0 }
          else { d with haltAt := some (d.cad + 1) })
      else e
    pls := s.pls.map fun (e : Nat × Pl) =>
      if e.2.formed && e.2.part == part then (e.1, { e.2 with held := false, pend := false, trap := false, nflt := 0, kind := 0, low := none })
      else e }

/-- Collectives of a partition end late at every rank (R158). -/
def State.endCollectives (s : State) (part : Nat) : State :=
  let es := (s.boundDies part).flatMap fun p => (s.xdie p).colls.map fun o => (Instr.abort, ({ pos := p, n := o.ctx, off := o.num, m := 1 } : Arg))
  { s with inbox := s.inbox ++ es }

/-- Step 1 of R158: the records, HOLD and STATE; step 2 falls in the next scy (R514). `origin` is 1 for firmware and 2 for
hardware, `who` the slot whose watchdog started the reset. -/
def State.startReset (s : State) (part origin : Nat) (who : Option Nat) : State :=
  if (s.part part).rstBusy then s
  else
    let s := (s.slotsOf part).foldl (fun (s : State) n =>
      let st := (s.slot n).qcb.state
      let owes := st == 2 || st == 3
      let s := if owes then s.dogRecord n (if who = some n then (if origin = 1 then 3 else 4) else 5) else s
      let preq := (s.slot n).preq
      let s := if st = 3 then s.dropLaunch n else s
      let x := s.slot n
      s.setSlot n { x with
        hold := true, owes := owes, preq := preq, validated := false, stopping := false
        bkstop := x.bkstop || (origin == 2 && who == some n), qcb := { x.qcb with state := 5 } }) s
    let s := (s.holdMembers part).setPart part { s.part part with rstBusy := true, rstPhase := 1, rstOrigin := origin, enter := false, reform := [], evict := none }
    s.after 1 .partitionReset { part := part, m := 1 }

/-- Step 2 of R158, one scy after step 1: the hubs stop and the engines discard their work; PREQ stays until step 4 (R512). Then the
drain of step 3, which takes at most 200 µs. -/
def State.stopPart (s : State) (part : Nat) : State :=
  let p := s.part part
  if !p.rstBusy || p.rstPhase != 1 then s
  else
    let s := (s.slotsOf part).foldl (fun (s : State) n =>
      let preq := (s.slot n).preq
      let s := s.dropLaunch n
      s.setSlot n { s.slot n with preq := preq }) s
    let s := (s.endCollectives part).setPart part { s.part part with rstPhase := 3 }
    (s.after (32 + Config.transit s.free % (199 * Config.cyPerUs)) .partitionScrub { part := part }).useFree

/-! ### The scrub (R131) -/

/-- An effect that belongs to hubs and engines of a die, and not to its frames. -/
def Due.zeroed (d : Due) (p : Nat) : Bool :=
  decide (d.die = p) && (match d.act with | .ev i _ => ofLaunch i | _ => true)

/-- Every SRAM, register file, accumulator, reply queue, map and buffer of a die is zeroed, and its stand and launch
registers return to 0 (R131). -/
def State.zeroDie (s : State) (p : Nat) : State :=
  let d := s.die p
  let x := s.xdie p
  let sram := fun (a : Nat) => isSram (homeOf a) && homeDie (homeOf a) == p
  { s with
    mem := s.mem.filter fun (c : Host.Cell) => !sram c.1
    lines := s.lines.filter fun (c : Nat × Bool) => !sram (64 * c.1)
    ecc := s.ecc.filter fun (c : Nat × Bool) => !sram (64 * c.1)
    hubs := s.hubs.filterMap fun (e : Nat × Hub) =>
      if e.1 / 8 = p then some (e.1, { epcfg := e.2.epcfg }) else some e
    arrays := s.arrays.filter fun (e : Nat × Arr) => e.1 / 4 != p
    agenda := s.agenda.filter fun (e : Due) => !e.zeroed p
    beats := s.beats.filter fun (b : Beat) => b.die != p && b.src != p
    dies := SMap.put s.dies p { d with
      lshift := 0, ahead := 0, lag := 0, armed := false, adopt := false, idle := false, standHubs := 0, quietHubs := 0
      standM := 0, tags := [], dtc := [], bcache := [], draft := none, draftGo := none, draftLast := 7, draftEnd := 0 }
    xdies := if s.xdies.any (·.1 == p) then
        SMap.put s.xdies p { x with
          graphs := [], bound := none, ctx := none, ctxHub := [], elems := [], stage := [], sources := [], portWords := []
          colls := [], outputs := [] }
      else s.xdies }

def State.zeroDies (s : State) : List Nat → State
  | [] => s
  | p :: r => (s.zeroDie p).zeroDies r

/-- Step 1 of a scrub (R131, R158): launches are aborted, and every slot holding a queue of the partition is idle. In a
partition reset the records have been written, and HOLD stays. -/
def State.passLaunches (s : State) (part : Nat) : State :=
  let reset := (s.part part).rstBusy
  let s := (s.slotsOf part).foldl (fun (s : State) n =>
    let st := (s.slot n).qcb.state
    let live := st == 2 || st == 3
    let s := if live then s.slotRecord (s.launchReport n 0x1A 1) else s
    let s := if live || (s.slot n).run.isSome then s.dropLaunch n else s
    let x := s.slot n
    s.setSlot n { x with
      owes := false, validated := false, preq := false, run := none
      qcb := { x.qcb with state := 0, head := if live || x.owes then (x.qcb.head + 1) % 2 ^ 32 else x.qcb.head } }) s
  if reset then s.loseSaved part 0x11 5 else s.loseSaved part 0x1A 1

/-- Steps 2 and 3 of a scrub, which ends within 5 ms; no launch starts before. Counted beats of the partition, and to or from its
dies, that are still in flight are discarded: the drain of R158, and the dies' buffers of R131. -/
def State.scrubDies (s : State) (part : Nat) : State :=
  let p := s.part part
  let s := s.setPart part { p with
    epoch := p.epoch + 1, scrubbing := true, phases := [], barriers := [], susp := []
    rstPhase := if p.rstBusy then 4 else p.rstPhase }
  let ds := s.boundDies part
  let s := (s.installKey part).zeroDies ds
  let s := { s with net := s.net.filter fun (e : Nat × Pkt) => e.2.typ == 0xC || e.2.typ == 8 || !(e.2.part == part || ds.contains e.2.die || ds.contains e.2.target) }
  let s := { s with timers := s.timers.filter fun (t : Nat × Instr × Arg) => !(t.2.1 == Instr.partitionScrubDone && t.2.2.part == part) }
  (s.after (1 + Config.transit s.free % (4900 * Config.cyPerUs)) .partitionScrubDone { part := part }).useFree

/-- Steps 1 to 3 of a scrub (R131). -/
def State.scrub (s : State) (part : Nat) : State := (s.passLaunches part).scrubDies part

end Sys2Proof.Machine
end

