-- ==== Sys2Proof/Machine/EvSlot.lean ====
section
/-! DEFINITION. Queue slots: kicks, fetches, SAVE and RESTORE, ageing, pre-emption requests and the watchdog (R103 to R111,
R137 to R145, R151 to R157, R251, R520). -/

namespace Sys2Proof.Machine

open Sys2Proof

/-- AGESTEP and GRACE as read (R138). -/
def Dev.ageStep (d : Dev) : Nat := if d.agestep = 0 then 1 else d.agestep
def Dev.graceUs (d : Dev) : Nat := if d.grace = 0 then 1 else min d.grace 1000000

/-- A change of a slot's QCB. -/
def State.setQcb (s : State) (slot : Nat) (f : Qcb → Qcb) : State := s.setSlot slot { s.slot slot with qcb := f (s.slot slot).qcb }

/-- AGEING_TICK (R145). -/
def execAgeingTick (s : State) : Res :=
  .next ((List.range 16).foldl (fun (s : State) n =>
    let x := s.slot n
    let q := x.qcb
    let q := if s.candidate n && !x.granted && !x.fresh then { q with prio := min (q.prio + 1) 7, age := (q.age + 1) % 2 ^ 32 } else q
    if x.valid then s.setSlot n { x with qcb := q, granted := false, fresh := false } else s) s)

/-- The pending bit of a queue is set, and the wake interrupt raised (R105, R146). -/
def State.wake (s : State) (q part : Nat) : State :=
  let s := if SMap.get false s.dev.pend q then s else { s with dev := { s.dev with pendAt := SMap.put s.dev.pendAt q s.cy } }
  (s.setPend q true).interrupt part 0

/-- The dies outside the H-die have their clocks gated (R133). -/
def State.dozing (s : State) : Bool := s.dev.power == .idleRetain || s.dev.gatedAt.isSome

/-- A kick, a debug-window access or a firmware request clocks gated dies again (R133). -/
def State.wakeDies (s : State) : State := if s.dozing then { s with inbox := s.inbox ++ [(.wakeFromIdle, {})] } else s

/-- A kick wakes the device from idle-retain and from sleep (R133). -/
def State.wakeDevice (s : State) : State :=
  if s.dev.power == .sleep then { s with inbox := s.inbox ++ [(.wakeFromSleep, {})] } else s.wakeDies

/-- DOORBELL_KICK: an aligned 8-byte write of a doorbell page, or a 4-byte write at its offset 0 (R99, R103 to R105;
log 35). -/
def execDoorbellKick (s : State) : Res :=
  let o := s.arg.off
  let n := s.arg.size
  let q := o / 4096
  if !((n == 4 || n == 8) && o % n == 0) then .next { s with outs := s.outs ++ [.unsupported s.arg.fn 2] }
  else if s.arg.fn = 0 || 16 < s.arg.fn || s.dev.bootRec || 4096 ≤ q || !((n == 8 && o % 8 == 0) || (n == 4 && o % 4096 == 0)) then .next s
  else
    let part := s.arg.fn - 1
    match s.qreg q with
    | (v, owner, map, slot, _) =>
      if !v || owner != part then .next (s.setPart part { s.part part with dbdrop := satAdd 0xFFFFFFFF (s.part part).dbdrop 1 })
      else
        let t := s.arg.value.toNat % 2 ^ 32
        let s := s.wakeDevice.setQreg q (v, owner, map, slot, t)
        if map then .next (s.setQcb slot fun b => { b with tail := t })
        else .next (s.wake q part)

/-- A slot fetches (R106, R143). -/
def State.fetches (s : State) (slot : Nat) : Bool :=
  let x := s.slot slot
  x.valid && !x.hold && x.qcb.state == 0 && x.qcb.tail != x.qcb.head && s.dev.power == .active && s.dev.gatedAt.isNone && !s.dev.bootRec

/-- SLOT_FETCH (R106, R143): a tail out of range faults the queue; else record HEAD is read through the queue's PASID.
`ok` is false for a read that the host did not complete. -/
def execSlotFetch (s : State) : Res :=
  let slot := s.arg.slot
  let x := s.slot slot
  let q := x.qcb
  if !s.fetches slot then .next s
  else if 2 ^ q.log2n < (q.tail + 2 ^ 32 - q.head) % 2 ^ 32 then
    .next ((s.slotRecord (s.launchReport slot 0x18 1)).faultSlot slot)
  else
    let bs := if s.arg.ok then s.hostRead q.part (some q.pasid) (q.rbase / 256 * 256 + 256 * (q.head % 2 ^ q.log2n)) 256 else []
    let q := { q with cap := x.newCap.getD q.cap }
    let p := min (bits (recNat bs 0 8) 55 53) q.cap
    let s := s.setSlot slot { x with
      newCap := none, record := { bytes := bs }, validated := false
      qcb := { q with state := 1, bprio := p, prio := p, age := 0, ltag := recNat bs 8 8 / 2 ^ 32 } }
    .next ((s.after s.transit .launchValidate { slot := slot }).useFree)

/-- LAUNCH_VALIDATE (R111): the slot becomes a candidate, or its queue is faulted with HEAD unchanged. -/
def execLaunchValidate (s : State) : Res :=
  let slot := s.arg.slot
  let x := s.slot slot
  if x.qcb.state != 1 || x.validated then .next s
  else
    match s.refusal x.qcb.part x.record.bytes with
    | some c => .next (s.refuseLaunch slot c)
    | none => .next (s.setSlot slot { x with validated := true })

/-- A write of HOLD; a slot that has fetched and taken no grant is idle again (R139, R143). Firmware that clears HOLD resumes a
scrubbed partition (R134, R158). -/
def State.setHold (s : State) (slot : Nat) (b : Bool) : State :=
  let x := s.slot slot
  let back := b && x.qcb.state == 1
  let s := if !b && (s.part x.qcb.part).parked then s.setPart x.qcb.part { s.part x.qcb.part with parked := false } else s
  s.setSlot slot { x with hold := b, validated := x.validated && !back, qcb := if back then { x.qcb with state := 0 } else x.qcb }

/-- The result of a command in SLOTCTL (R108). -/
def State.slotErr (s : State) (slot e : Nat) : State := s.setSlot slot { s.slot slot with err := e }

/-- A kick of a queue falls in the same H-die cycle as a slot command of it. -/
def State.kickComing (s : State) (q : Nat) : Bool := s.inbox.any fun e => e.1 == .doorbellKick && e.2.off / 4096 == q

/-- The kicks of a queue go before the slot command at hand (R109). -/
def State.kicksFirst (s : State) (q : Nat) (i : Instr) : State :=
  let kick := fun (e : Instr × Arg) => e.1 == .doorbellKick && e.2.off / 4096 == q
  { s with inbox := s.inbox.filter kick ++ (i, s.arg) :: s.inbox.filter fun e => !kick e }

/-- SLOT_SAVE: SAVE with ADDR in `off` (R108, R109). -/
def execSlotSave (s : State) : Res :=
  let slot := s.arg.slot
  let x := s.slot slot
  let q := x.qcb
  if x.valid && s.kickComing q.qid then .next (s.kicksFirst q.qid .slotSave)
  else
  let s := s.setSlot slot { x with addr := s.arg.off % 2 ^ 48, busy := false }
  if !x.valid || !(q.state == 0 || q.state == 3 || q.state == 4) then .next (s.slotErr slot 1)
  else if s.arg.off % 128 ≠ 0 then .next (s.slotErr slot 2)
  else
    match s.qreg q.qid with
    | (v, part, _, _, t) =>
      let q := { q with tail := t, cap := x.newCap.getD q.cap }
      let s := { s with dev := { s.dev with fwsram := SMap.put s.dev.fwsram (s.arg.off % 2 ^ 48) q.bytes } }
      let s := if t ≠ q.head ∨ q.state = 3 then
          let w := if SMap.get false s.dev.pend q.qid then s
            else { s with dev := { s.dev with pendAt := SMap.put s.dev.pendAt q.qid s.cy } }
          w.setPend q.qid true
        else s
      let s := s.setQreg q.qid (v, part, false, 0, t)
      .next (s.setSlot slot { (s.slot slot) with
        valid := false, qcb := {}, err := 0, record := {}, validated := false, granted := false, run := none
        newCap := none })

/-- SAVEP has the form of R154 and its area lies in a bound B-die's stack, for a launch of `n` hubs. -/
def State.savepOk (s : State) (part savep n : Nat) : Bool :=
  let i := bits savep 38 36
  decide (savep < 2 ^ 39) && decide (savep % 2 ^ 22 = 0) &&
  (match s.phys part (5 + i) with | some p => (s.part part).lock && s.kind p == .bDie | none => false) &&
  decide (savep % 2 ^ 36 + n * 2 ^ 22 ≤ Config.hbmSize)

/-- RESTORE's checks of an image (R108, R137, R147, R154, R520). -/
def State.imageOk (s : State) (q : Qcb) : Bool :=
  (match s.qreg q.qid with | (v, part, map, _, _) => v && part == q.part && !map) &&
  (q.state == 0 || q.state == 3 || q.state == 4) && decide (q.wbud ≤ 10000000) && decide (q.wrem ≤ q.wbud) &&
  (q.state != 3 ||
    (match (s.part q.part).susp.find? fun v => v.qid == q.qid && v.ltag == q.ltag && v.savep == q.savep with
     | some v => s.savepOk q.part q.savep v.run.hubs.length
     | none => false))

/-- SLOT_RESTORE: RESTORE with ADDR in `off` (R108, R139). A tick that is still to come in this cycle leaves the slot as it is
(R145). -/
def execSlotRestore (s : State) : Res :=
  let slot := s.arg.slot
  let x := s.slot slot
  let q := qcbOf (SMap.get [] s.dev.fwsram (s.arg.off % 2 ^ 48))
  if !x.valid && s.kickComing q.qid then .next (s.kicksFirst q.qid .slotRestore)
  else
  let s := s.setSlot slot { x with addr := s.arg.off % 2 ^ 48, busy := false }
  if x.valid then .next (s.slotErr slot 1)
  else if s.arg.off % 128 ≠ 0 then .next (s.slotErr slot 2)
  else
    if !s.imageOk q then .next (s.slotErr slot 2)
    else
      match s.qreg q.qid with
      | (v, part, _, _, t) =>
        let s := s.setQreg q.qid (v, part, true, slot, t)
        let y := s.slot slot
        .next ((s.setSlot slot { y with
          valid := true, qcb := { q with tail := t }, err := 0, bkstop := false
          fresh := s.inbox.any fun e => e.1 == .ageingTick }).setPend q.qid false)

/-- PREEMPT_REQUEST: a write of PRE (R153, R154). -/
def execPreemptRequest (s : State) : Res :=
  let slot := s.arg.slot
  let x := s.slot slot
  match x.run with
  | none => .next s
  | some r =>
    if x.qcb.state != 2 || x.preq then .next s
    else if s.savepOk x.qcb.part x.qcb.savep r.hubs.length then .next (s.setSlot slot { x with preq := true })
    else .next (s.slotRecord (s.launchReport slot 0x18 2))

/-- SLOT_ABORT: a write of ABORT while the launch is suspended (R139, R157). -/
def execSlotAbort (s : State) : Res :=
  let slot := s.arg.slot
  let x := s.slot slot
  if x.qcb.state != 3 then .next s
  else
    let s := (s.dogRecord slot 2).dropLaunch slot
    .next ((s.setQcb slot fun q => { q with head := (q.head + 1) % 2 ^ 32 }).faultSlot slot)

/-- WATCHDOG_EXPIRY (R152); the shipped firmware writes PRE at once (R155). -/
def execWatchdogExpiry (s : State) : Res :=
  let slot := s.arg.slot
  let x := s.slot slot
  if x.qcb.state != 2 || x.qcb.wrem != 0 then .next s
  else
    let s := (((s.setSlot slot { x with wdx := true, grace := 0 }).dogRecord slot 1).interrupt x.qcb.part 2)
    .next ((s.after s.transit .preemptRequest { slot := slot }).useFree)

/-- A firmware GO for a partition: a write to PARTRSTp, or a PRESET that firmware serves (R149, R150, R156). -/
def State.isGo (s : State) (part : Nat) (e : Instr × Arg) : Bool :=
  (e.1 == .partitionReset && e.2.part == part && e.2.m == 0) ||
  (e.1 == .preset && e.2.part == part && s.mailOk (part + 1) []) ||
  (e.1 == .presetPf && s.mail 0 1 == part && s.mailOk 0 [16])

/-- A firmware GO for the partition waits in the same H-die cycle (R156, R251). -/
def State.goComing (s : State) (part : Nat) : Bool := s.inbox.any (s.isGo part)

/-- The hardware starts a partition reset for a slot; a firmware GO in the same H-die cycle counts as the starter, for the slot
that it names, or else this one (R156). -/
def State.hardReset (s : State) (slot : Nat) : State :=
  let part := (s.slot slot).qcb.part
  match s.inbox.find? (s.isGo part) with
  | some e => s.startReset part 1 (some (if e.1 == .partitionReset && e.2.n != 0 then e.2.n - 1 else slot))
  | none => s.startReset part 2 (some slot)

/-- BACKSTOP_RESET (R156). -/
def execBackstopReset (s : State) : Res :=
  let slot := s.arg.slot
  let x := s.slot slot
  if x.qcb.state == 2 && decide (2 * s.dev.graceUs ≤ x.grace) then .next (s.hardReset slot) else .next s

/-- HALT_LIMIT_RESET (R251). -/
def execHaltLimitReset (s : State) : Res :=
  let slot := s.arg.slot
  let x := s.slot slot
  if x.qcb.state == 2 && decide (10000000 ≤ x.halt) then .next (s.hardReset slot) else .next s

end Sys2Proof.Machine
end

