-- ==== Sys2Proof/Machine/Window.lean ====
section
/-! DEFINITION. The control window as it reads (R17, R24, R27, R49, R97 to R100, R104, R105, R107, R108, R115, R118,
R124, R138 to R140, R207, R248, R381). -/

namespace Sys2Proof.Machine

open Sys2Proof

/-- Firmware's own port to the registers, beside the functions 0 to 16 (R98). -/
def firmwareFn : Nat := 17

/-- MIXn (R17). -/
def State.mixReg (s : State) (n : Nat) : Nat := leNat ((List.range 8).map fun j => BitVec.ofNat 8 (SMap.get 0 s.dev.mix (8 * n + j)))

/-- DIEFAIL (R27). -/
def State.dieFailReg (s : State) : Nat := (List.range 48).foldl (fun a p => a + bitOf (SMap.get false s.dev.dieFail p) * 2 ^ p) 0

/-- BOOTST (R124). -/
def State.bootReg (s : State) : Nat :=
  let d := s.dev
  let cdbg := (List.range 16).foldl (fun a p => a + bitOf (s.part p).customer * 2 ^ p) 0
  d.bootErr % 256 * 2 ^ 48 + d.bootStage % 256 * 2 ^ 40 + d.bootSvn % 256 * 2 ^ 32 + cdbg * 2 ^ 16 + d.bootMinsvn % 256 * 2 ^ 8 +
  d.bootDbg % 4 * 4 + bitOf d.bootRec * 2 + d.bootWake % 2

/-- PLCTLn (R49). -/
def Pl.ctl (l : Pl) : Nat :=
  l.err % 16 * 2 ^ 28 + l.root % 64 * 2 ^ 18 + l.part % 16 * 2 ^ 12 + l.hops % 16 * 2 ^ 8 + bitOf l.formed * 2 + bitOf l.form

/-- LDMAPCTL (R24). -/
def Part.ldmapCtl (p : Part) : Nat := p.ldErr % 4 * 2 ^ 14 + p.ldBad % 64 * 2 ^ 8 + p.ldRsn % 8 * 4 + bitOf p.lock

/-- LDMAPn (R23). -/
def Part.ldmapReg (p : Part) (n : Nat) : Nat := leNat ((p.ldmap |> fun m => (List.range 4).flatMap fun j => leBytes 2 (SMap.get 0 m (4 * n + j))))

/-- FRCTL (R115): LOG2N reads back as written, and only m is 6 where it is outside 6 to 16 (DESIGN CHOICE, log 122). -/
def Part.frCtl (p : Part) : Nat := bitOf p.frEn * 2 ^ 63 + bitOf p.frOvf * 2 ^ 62 + p.frLost % 2 ^ 32 * 2 ^ 5 + p.frLog % 32

/-- PLHALTn (R248). -/
def Pl.haltReg (l : Pl) : Nat :=
  bitOf l.held * 2 ^ 63 + bitOf l.pend * 2 ^ 62 + l.haltErr % 16 * 2 ^ 58 + l.nflt % 256 * 2 ^ 48 + l.kind % 256 * 2 ^ 40

/-- A doubleword of partition block `part` at offset `o` (R99). -/
def State.partReg (s : State) (part o : Nat) : Nat :=
  let p := s.part part
  if o < 0x60 then p.ldmapReg (o / 8)
  else if o = 0x60 then p.ldmapCtl
  else if o = 0x100 then p.frbase
  else if o = 0x108 then p.frCtl
  else if o = 0x110 then p.frHead
  else if o = 0x118 then p.frTail
  else if o = 0x120 then p.dbdrop
  else if o = 0x200 then bitOf p.mbDone * 2 + bitOf p.mbBusy
  else if o = 0x300 then p.xldir
  else if o = 0x308 then bitOf p.xlEn * 2 ^ 63 + p.xlLog % 32
  else if o = 0x318 then bitOf p.xlBusy * 2 ^ 63 + bitOf p.xlDrop * 2 ^ 62 + p.xlDone % 2 ^ 32
  else if 0x400 ≤ o ∧ o < 0x500 then mailWord p.mbReq ((o - 0x400) / 8)
  else if 0x500 ≤ o ∧ o < 0x600 then mailWord p.mbRsp ((o - 0x500) / 8)
  else if 0x600 ≤ o ∧ o < 0x700 then
    let l := s.pl ((o - 0x600) / 16)
    if l.formed ∧ l.part = part then (if o % 16 = 0 then l.haltReg else l.hmark) else 0
  else if o = 0x700 then bitOf p.trapV * 2 ^ 63 + bitOf p.trapMore * 2 ^ 62 + p.trap.toNat % 2 ^ 62
  else 0

/-- QREGq (R104). -/
def State.qregReg (s : State) (q : Nat) : Nat :=
  match s.qreg q with
  | (v, part, map, slot, t) => bitOf v * 2 ^ 63 + part % 16 * 2 ^ 59 + bitOf map * 2 ^ 58 + slot % 16 * 2 ^ 54 + t % 2 ^ 32

/-- PENDn with the queues that `mine` accepts (R98, R105). -/
def State.pendReg (s : State) (n : Nat) (mine : Nat → Bool) : Nat :=
  (List.range 64).foldl (fun a j => a + bitOf (SMap.get false s.dev.pend (64 * n + j) && mine (64 * n + j)) * 2 ^ j) 0

/-- The partition of a function; none for the PF and for firmware. -/
def partOfFn (fn : Nat) : Option Nat := if 1 ≤ fn ∧ fn ≤ 16 then some (fn - 1) else none

/-- A function may see what belongs to a partition. -/
def sees (fn part : Nat) : Bool := match partOfFn fn with | some p => p == part | none => true

/-- An offset lies in a function's MSI-X table, or in its pending-bit array (R97). -/
def inMsix (fn o : Nat) : Bool := decide (o < 16 * vectorsOf fn) || decide (0x8000 ≤ o ∧ o < 0x8000 + 8 * ceilDiv (vectorsOf fn) 64)

/-- A doubleword of the control window as a function reads it; a refused read gives 0 (R97, R98). -/
def State.windowReg (s : State) (fn o : Nat) : Nat :=
  if 0x100 ≤ o ∧ o < 0x130 then s.mixReg ((o - 0x100) / 8)
  else if o = 0x180 then s.dieFailReg
  else if o = 0x200 then s.bootReg
  else if 0x1000 ≤ o ∧ o < 0x1100 then
    let l := s.pl ((o - 0x1000) / 16)
    if sees fn l.part then (if o % 16 = 0 then l.mem % 2 ^ 48 else l.ctl) else 0
  else if 0x80000 ≤ o ∧ o < 0x80600 then
    if (partOfFn fn).isSome then 0
    else
      let x := o - 0x80000
      let d := s.dev
      if x = 0x200 then bitOf d.pfDone * 2 + bitOf d.pfBusy
      else if 0x400 ≤ x ∧ x < 0x500 then mailWord d.pfReq ((x - 0x400) / 8)
      else if 0x500 ≤ x then mailWord d.pfRsp ((x - 0x500) / 8)
      else 0
  else if 0x100000 ≤ o ∧ o < 0x200000 then
    let part := (o - 0x100000) / 0x10000
    if sees fn part then s.partReg part (o % 0x10000) else 0
  else if 0x200000 ≤ o ∧ o < 0x200800 then
    let x := s.slot ((o - 0x200000) / 128)
    if x.valid && sees fn x.qcb.part then leNat ((x.qcb.bytes.drop (o % 128)).take 8) else 0
  else if 0x200800 ≤ o ∧ o < 0x200880 then
    let x := s.slot ((o - 0x200800) / 8)
    if (partOfFn fn).isNone || (x.valid && sees fn x.qcb.part) then bitOf x.busy * 2 ^ 60 + x.err % 4 * 2 ^ 58 + x.addr % 2 ^ 48 else 0
  else if 0x300000 ≤ o ∧ o < 0x300200 then
    s.pendReg ((o - 0x300000) / 8) fun q => sees fn (s.qreg q).2.1 && ((partOfFn fn).isNone || (s.qreg q).1)
  else if 0x310000 ≤ o ∧ o < 0x318000 then
    let q := (o - 0x310000) / 8
    if (partOfFn fn).isNone || ((s.qreg q).1 && sees fn (s.qreg q).2.1) then s.qregReg q else 0
  else if 0x400000 ≤ o ∧ o < 0x410000 then
    if fn ≤ 16 && inMsix fn (o - 0x400000) then leNat ((List.range 8).map fun j => s.msixByte fn (o - 0x400000 + j)) else 0
  else if 0x1000000 ≤ o ∧ o < 0x4000000 then
    let p := (o - 0x1000000) / 0x100000
    match partOfFn fn with
    | none => s.dieReg p (o % 0x100000)
    | some q => if (s.part q).lock && (s.logical q p).isSome then s.dieReg p (o % 0x100000) else 0
  else 0

/-- A host access of a window has a size and an alignment that the device takes (R99). -/
def windowOk (off size : Nat) : Bool := (size == 4 || size == 8) && off % size == 0

/-- Every VF is disabled while the ROM keeps the device in recovery (R123). -/
def State.vfOff (s : State) (fn : Nat) : Bool := s.dev.bootRec && fn != 0

/-- A host read of the control window: its value, or none for Unsupported Request (R97 to R99). -/
def State.windowRead (s : State) (fn off size : Nat) : Option Nat :=
  if !windowOk off size || s.vfOff fn then none
  else
    let v := if off < 0x4000000 then s.windowReg fn (off / 8 * 8) else 0
    some (if size = 8 then v else v / 2 ^ (8 * (off % 8)) % 2 ^ 32)

/-- A host read of the doorbell window: 0 for every function (R99, R103). -/
def State.doorbellRead (s : State) (fn off size : Nat) : Option Nat := if windowOk off size && !s.vfOff fn then some 0 else none

/-- SLOTACTs (R139) and PARTRSTp (R140), which only firmware reads, and SCHEDCFG (R138). -/
def Slot.act (x : Slot) : Nat := bitOf x.bkstop * 128 + bitOf x.preq * 32 + bitOf x.wdx * 4 + bitOf x.hold
def Part.rst (p : Part) : Nat := p.rstOrigin % 4 * 64 + p.rstPhase % 8 * 8 + bitOf p.rstBusy * 2
def Dev.sched (d : Dev) : Nat := d.grace % 2 ^ 20 * 2 ^ 32 + d.agestep % 2 ^ 20

end Sys2Proof.Machine
end

