-- ==== Sys2Proof/Machine/EvHost.lean ====
section
/-! DEFINITION. Writes of the control window, the mailboxes and the debug window (R11, R97 to R101, R115, R118, R119,
R129, R130, R148, R207, R248). -/

namespace Sys2Proof.Machine

open Sys2Proof

/-! ### Fields under a partial write (R10, R11, R99) -/

/-- The written bits take the new value, the others keep the old one. -/
def merge (old v mask : Nat) : Nat := (old &&& (2 ^ 64 - 1 - mask)) ||| (v &&& mask)

/-- A 1 is written to bit `n`. -/
def strikes (v mask n : Nat) : Bool := (v &&& mask).testBit n

/-- A W1C bit after a write. -/
def w1c (b : Bool) (v mask n : Nat) : Bool := b && !strikes v mask n

/-- Puts an event behind what is due. -/
def State.raise (s : State) (i : Instr) (a : Arg) : State := { s with inbox := s.inbox ++ [(i, a)] }

/-- What a register write brings about, before anything else that is due: later writes find it done (R115, R118). -/
def State.strike (s : State) (i : Instr) (a : Arg) : State := { s with inbox := (i, a) :: s.inbox }

/-- The interface of a partition is locked: its settings are frozen (R129). In ERROR firmware's register writes are taken (DESIGN
CHOICE, log 124). -/
def State.frozen (s : State) (part : Nat) : Bool := (s.part part).tdisp == 1 || (s.part part).tdisp == 2

/-! ### Partition blocks (R99) -/

/-- LDMAP entries take writes while LOCK is 0 (R23). -/
def Part.writeMap (p : Part) (n v mask : Nat) : Part :=
  if p.lock then p
  else
    let x := merge (p.ldmapReg n) v mask
    { p with ldmap := (List.range 4).foldl (fun m j => SMap.set 0 m (4 * n + j) (bits x (16 * j + 15) (16 * j) &&& 0x8F3F)) p.ldmap }

/-- FRCTL: LOG2N while EN is 0, OVF, and EN (R115). -/
def State.writeFrctl (s : State) (part v mask : Nat) : State :=
  let p := s.part part
  let x := merge p.frCtl v mask
  let s := s.setPart part { p with
    frOvf := w1c p.frOvf v mask 62, frLog := if p.frEn then p.frLog else x % 32, frEn := p.frEn && x.testBit 63 }
  if !p.frEn && x.testBit 63 then s.strike .faultRingEnable { part := part } else s

/-- The fault ring's settings that a write would change (R115, R129). -/
def Part.ringChange (p : Part) (o v mask : Nat) : Bool :=
  if o = 0x100 then !p.frEn && merge p.frbase v mask / 4096 != p.frbase / 4096
  else if o = 0x108 then
    let x := merge p.frCtl v mask
    x.testBit 63 != p.frEn || (!p.frEn && x % 32 != p.frLog)
  else false

/-- A write of a partition block: `fw` is firmware's port, `vf` the partition's own VF, which alone of the host's
functions writes the mailbox (R99, R118). Frozen settings refuse firmware's changes; a host's change of a frozen fault ring
puts the interface in ERROR (R129, log 38). -/
def State.writePart (s : State) (part o v mask : Nat) (fw vf : Bool) : State :=
  let p := s.part part
  if fw && s.frozen part && (decide (o ≤ 0x60) || o == 0x100 || o == 0x108) then s
  else if o < 0x60 then (if fw then s.setPart part (p.writeMap (o / 8) v mask) else s)
  else if o = 0x60 then
    (if fw && mask.testBit 0 then s.strike (if v.testBit 0 then .ldmapLock else .ldmapUnlock) { part := part } else s)
  else if s.frozen part && p.ringChange o v mask then s.strike .tdispError { fn := part + 1 }
  else if o = 0x100 then (if p.frEn then s else s.setPart part { p with frbase := merge p.frbase v mask / 4096 * 4096 })
  else if o = 0x108 then s.writeFrctl part v mask
  else if o = 0x118 then (if mask.testBit 0 then s.strike .frtailWrite { part := part, value := BitVec.ofNat 64 (v % 2 ^ 32) } else s)
  else if o = 0x200 then (if vf then s.setPart part { p with mbDone := w1c p.mbDone v mask 1 } else s)
  else if o = 0x208 then (if vf && strikes v mask 0 then s.strike .mailboxGo { fn := part + 1 } else s)
  else if o = 0x300 then (if p.xlEn then s else s.setPart part { p with xldir := merge p.xldir v mask / 4096 * 4096 })
  else if o = 0x308 then
    let x := merge (bitOf p.xlEn * 2 ^ 63 + p.xlLog) v mask
    s.setPart part { p with xlEn := x.testBit 63, xlLog := if p.xlEn then p.xlLog else x % 32 }
  else if o = 0x310 then s.strike .xlinvShootdown { part := part, value := BitVec.ofNat 64 (v &&& mask) }
  else if o = 0x318 then s.setPart part { p with xlDrop := w1c p.xlDrop v mask 62 }
  else if o = 0x320 then (if strikes v mask 0 then s.strike .xlretry { part := part } else s)
  else if 0x400 ≤ o ∧ o < 0x500 then
    if vf && !p.mbBusy then
      let x := merge (mailWord p.mbReq ((o - 0x400) / 8)) v mask
      s.setPart part { p with mbReq := (leBytes 8 x).zipIdx.foldl (fun m b => SMap.put m (o - 0x400 + b.2) b.1) p.mbReq }
    else s
  else if 0x500 ≤ o ∧ o < 0x600 then
    if fw then
      let x := merge (mailWord p.mbRsp ((o - 0x500) / 8)) v mask
      s.setPart part { p with mbRsp := (leBytes 8 x).zipIdx.foldl (fun m b => SMap.put m (o - 0x500 + b.2) b.1) p.mbRsp }
    else s
  else if 0x600 ≤ o ∧ o < 0x700 ∧ o % 16 = 0 then
    let n := (o - 0x600) / 16
    if strikes v mask 1 then s.strike .pacelineAbort { part := part, n := n }
    else if strikes v mask 0 then s.strike .pacelineRelease { part := part, n := n }
    else s
  else if o = 0x700 then s.setPart part { p with trapV := w1c p.trapV v mask 63, trapMore := w1c p.trapMore v mask 62 }
  else s

/-! ### The other registers -/

/-- A doubleword of a function's MSI-X table or pending-bit array (R97, R98); a vector that is no longer masked and
was pending is signalled (PRESUMED, log 28). -/
def State.writeMsix (s : State) (fn o v mask : Nat) : State :=
  let old := leNat ((List.range 8).map fun j => s.msixByte fn (o + j))
  let s := (leBytes 8 (merge old v mask)).zipIdx.foldl (fun (s : State) b => s.setMsix fn (o + b.2) b.1) s
  if o < 0x8000 then
    let vec := o / 16
    let k := 0x8000 + vec / 8
    let b := (s.msixByte fn k).toNat
    if o % 16 = 8 && b.testBit (vec % 8) && !(s.msixByte fn (16 * vec + 12)).toNat.testBit 0 then
      (s.setMsix fn k (BitVec.ofNat 8 (b - 2 ^ (vec % 8)))).signal fn vec
    else s
  else s

/-- A write of a die's control space by firmware (R47, R72, R77, R84, R85, R100). The header of a receive ring that it enables
reads 0 but for its counters (R78), which keep what the scratchpad holds there (DESIGN CHOICE, log 118). -/
def State.writeDie (s : State) (p o v mask : Nat) : State :=
  let k := s.kind p
  let x := s.xdie p
  if 0x200 ≤ o ∧ o < 0x200 + 8 * k.modules then
    let m := (o - 0x200) / 8
    let y := s.module p m
    s.setModule p m { y with stale := w1c y.stale v mask 62, ovr := w1c y.ovr v mask 61 }
  else if 0x10000 ≤ o ∧ o < 0x10000 + 0x1000 * k.hubs ∧ o % 0x1000 = 0 then
    let h := (o - 0x10000) / 0x1000
    let y := s.hub p h
    let s := s.setHub p h { y with epcfg := BitVec.ofNat 64 (merge y.epcfg.toNat v mask &&& 0x8000000FFC007FFF) }
    match s.ring p h with
    | some (b, _) => s.writeBytes (b + 24) (List.replicate 232 0) false
    | none => s
  else if k = .xDie ∧ 0x20000 ≤ o ∧ o < 0x20040 then
    let n := (o - 0x20000) / 8
    let y : LPort := SMap.get {} x.ports n
    s.setXdie p { x with ports := SMap.put x.ports n { y with lerr := w1c y.lerr v mask 2 } }
  else if k = .xDie ∧ 0x21000 ≤ o ∧ o < 0x21080 then
    let n := (o - 0x21000) / 8
    s.setXdie p { x with
      colctx := SMap.put x.colctx n (BitVec.ofNat 64 (merge (SMap.get 200 x.colctx n).toNat v mask &&& 0xFFFFFFFFFE00FFFF)) }
  else if k = .xDie ∧ 0x30000 ≤ o ∧ o < 0x38000 then
    let r := (o - 0x30000) / 8
    s.strike .ranktabWrite { pos := p, rank := r, value := BitVec.ofNat 64 (merge (SMap.get 0 x.ranktab r).toNat v mask) }
  else s

/-- Firmware's registers that lie outside the control window: SLOTACTs, PARTRSTp and SCHEDCFG, and its requests to the security
engine to extend MEAS4 to MEAS7 with 8 bytes of configuration (R126), which the model places from 2^26 on (DESIGN CHOICE,
log 39). -/
def State.writeFirmware (s : State) (o v mask : Nat) : State :=
  if o < 128 then
    let n := o / 8
    let x := s.slot n
    let s := s.setSlot n { x with wdx := w1c x.wdx v mask 2 }
    let s := if mask.testBit 0 then s.setHold n (v.testBit 0) else s
    let s := if strikes v mask 4 then s.strike .preemptRequest { slot := n } else s
    if strikes v mask 3 then s.strike .slotAbort { slot := n } else s
  else if o < 256 then
    (if strikes v mask 0 then s.strike .partitionReset { part := (o - 128) / 8 } else s)
  else if o = 256 then
    let x := merge s.dev.sched v mask
    { s with dev := { s.dev with grace := bits x 51 32, agestep := bits x 19 0 } }
  else if 512 ≤ o ∧ o < 544 then s.extendDev (4 + (o - 512) / 8) (leBytes 8 (v &&& mask))
  else s

/-- A firmware write of the control window (R98); settings of a locked interface refuse it (R129). -/
def State.writeByFirmware (s : State) (o v mask : Nat) : State :=
  if 0x1000 ≤ o ∧ o < 0x1100 then
    let n := (o - 0x1000) / 16
    let l := s.pl n
    if s.frozen l.part || (o % 16 ≠ 0 && s.frozen (bits (merge l.ctl v mask) 15 12)) then s
    else if o % 16 = 0 then (if l.formed then s else s.setPl n { l with mem := merge l.mem v mask % 2 ^ 48 })
    else
      let s := if l.formed then s else s.setPl n { l with part := bits (merge l.ctl v mask) 15 12 }
      if mask.testBit 0 then s.strike (if v.testBit 0 then .pacelineForm else .pacelineDissolve) { n := n } else s
  else if 0x200800 ≤ o ∧ o < 0x200880 then
    let n := (o - 0x200800) / 8
    let x := merge (s.slot n).addr v mask
    if (s.slot n).busy then s
    else match bits (v &&& mask) 63 61 with
    | 1 => (s.setSlot n { s.slot n with busy := true }).strike .slotSave { slot := n, off := x % 2 ^ 48 }
    | 2 => (s.setSlot n { s.slot n with busy := true }).strike .slotRestore { slot := n, off := x % 2 ^ 48 }
    | _ => s.setSlot n { s.slot n with addr := x % 2 ^ 48 }
  else if 0x300000 ≤ o ∧ o < 0x300200 then
    let n := (o - 0x300000) / 8
    (List.range 64).foldl (fun (s : State) j => if strikes v mask j then s.setPend (64 * n + j) false else s) s
  else if 0x310000 ≤ o ∧ o < 0x318000 then
    let q := (o - 0x310000) / 8
    match s.qreg q with
    | (old, part, map, slot, t) =>
      let x := merge (s.qregReg q) v mask
      if (old && s.frozen part) || (x.testBit 63 && s.frozen (bits x 62 59)) then s
      else s.setQreg q (x.testBit 63, bits x 62 59, map, slot, t)
  else if 0x1000000 ≤ o ∧ o < 0x4000000 then s.writeDie ((o - 0x1000000) / 0x100000) (o % 0x100000) v mask
  else if 0x4000000 ≤ o then s.writeFirmware (o - 0x4000000) v mask
  else s

/-- An access that the device completes with Unsupported Request (R99, R101). -/
def State.refuseAccess (s : State) (bar : Nat) : State := { s with outs := s.outs ++ [.unsupported s.arg.fn bar] }

/-- CONTROL_WINDOW_WRITE (R98, R99): a write of `size` bytes at `off` by a function, or by firmware. In sleep only the PF's GO
is taken, which wakes the device (R133, R134); in recovery the VFs are disabled (R123). -/
def execControlWindowWrite (s : State) : Res :=
  let a := s.arg
  let fw := a.fn == firmwareFn
  if firmwareFn < a.fn || (!fw && decide (0x4000000 ≤ a.off)) then .next s
  else if !windowOk a.off a.size then .next (s.refuseAccess 0)
  else if !fw && (s.dev.power == .sleep && !(a.fn == 0 && a.off / 8 * 8 == 0x80208) || s.dev.power == .off || (s.dev.bootRec && a.fn != 0)) then
    .next s
  else
    let o := a.off / 8 * 8
    let low := a.off % 8 = 4
    let mask := if a.size = 8 then 2 ^ 64 - 1 else if low then 0xFFFFFFFF00000000 else 0xFFFFFFFF
    let v := if a.size = 8 then a.value.toNat else if low then a.value.toNat % 2 ^ 32 * 2 ^ 32 else a.value.toNat % 2 ^ 32
    if 0x100000 ≤ o ∧ o < 0x200000 then
      let part := (o - 0x100000) / 0x10000
      if sees a.fn part then .next (s.writePart part (o % 0x10000) v mask fw (partOfFn a.fn == some part)) else .next s
    else if 0x80000 ≤ o ∧ o < 0x80600 then
      let x := o - 0x80000
      let d := s.dev
      if fw then
        if 0x500 ≤ x then
          let y := merge (mailWord d.pfRsp ((x - 0x500) / 8)) v mask
          .next { s with dev := { d with pfRsp := (leBytes 8 y).zipIdx.foldl (fun m b => SMap.put m (x - 0x500 + b.2) b.1) d.pfRsp } }
        else .next s
      else if a.fn ≠ 0 then .next s
      else if x = 0x200 then .next { s with dev := { d with pfDone := w1c d.pfDone v mask 1 } }
      else if x = 0x208 then .next (if strikes v mask 0 then s.strike .mailboxGo { fn := 0 } else s)
      else if 0x400 ≤ x ∧ x < 0x500 ∧ !d.pfBusy then
        let y := merge (mailWord d.pfReq ((x - 0x400) / 8)) v mask
        .next { s with dev := { d with pfReq := (leBytes 8 y).zipIdx.foldl (fun m b => SMap.put m (x - 0x400 + b.2) b.1) d.pfReq } }
      else .next s
    else if 0x400000 ≤ o ∧ o < 0x410000 then
      .next (if a.fn ≤ 16 && inMsix a.fn (o - 0x400000) then s.writeMsix a.fn (o - 0x400000) v mask else s)
    else .next (if fw then s.writeByFirmware o v mask else s)

/-! ### Mailboxes (R118, R148 to R150) -/

/-- The event that serves a request, or the status of one that no operation serves (R148 to R150). -/
def mailEvent (fn code : Nat) : Except Nat Instr :=
  let pf := fn = 0
  if 2 ^ 16 ≤ code then .error 2
  else match code with
    | 0x0001 => if pf then .error 1 else .ok .qcreate
    | 0x0002 => if pf then .error 5 else .ok .qdestroy
    | 0x0003 => if pf then .error 5 else .ok .qrestart
    | 0x0004 => if pf then .error 5 else .ok .qstat
    | 0x0005 => if pf then .error 5 else .ok .qprio
    | 0x0006 => if pf then .error 5 else .ok .psuspend
    | 0x0007 => if pf then .error 5 else .ok .presume
    | 0x0008 => if pf then .error 5 else .ok .preset
    | 0x0010 => if pf then .ok .pconfig else .error 5
    | 0x0011 => if pf then .ok .paceform else .error 5
    | 0x0012 => if pf then .ok .sched else .error 5
    | 0x0020 => if pf then .ok .sleepRequest else .error 5
    | 0x0021 => if pf then .ok .presetPf else .error 5
    | _ => .error 1

/-- Eight bytes of a hub's v registers and shadows, in the places of `vkey`, with the bytes' poison (R274, R388). -/
def Hub.vword (h : Hub) (i : Nat) : PVal :=
  ⟨BitVec.ofNat 64 (leNat ((List.range 8).map fun j => SMap.get 0 h.vbytes (8 * i + j))),
    (List.range 8).any fun j => SMap.get false h.vpois (8 * i + j)⟩

/-- 64 bits of a hub's masks, in the places of `mkey` (R274). -/
def Hub.maskWord (h : Hub) (i : Nat) : W64 :=
  BitVec.ofNat 64 ((List.range 64).foldl (fun a b => a + bitOf (SMap.get false h.masks (64 * i + b)) * 2 ^ b) 0)

/-- An accumulator element of an array, in the places of `accKey`; its poison is that of the primal one (R253, R277). -/
def Arr.accWord (a : Arr) (k : Nat) : PVal :=
  ⟨BitVec.ofNat 64 (SMap.get 0 a.acc k), SMap.get false a.apois (k / 327680 * 327680 + k % 65536)⟩

/-- Word `n` of a hub's engine state, as a debug read returns it: the s, p and lc registers, the pc, k.tstride, the timelines'
counts and FAIL bits, and from 2^20, 2^21, 2^22 and 2^23 on the v registers, the masks, the accumulators and the cells of the
planes of its array; the rest reads 0. The order is the model's (log 125). -/
def State.engineWord (s : State) (p hub n : Nat) : PVal :=
  let h := s.hub p hub
  let a := s.arr p (hub / 2)
  if n < 64 then h.readS n
  else if n < 72 then ⟨BitVec.ofNat 64 (bitOf (h.readP (n - 64)).1), (h.readP (n - 64)).2⟩
  else if n < 80 then SMap.get {} h.lc (n - 72)
  else if n = 80 then ⟨BitVec.ofNat 64 h.pc, false⟩
  else if n = 81 then ⟨h.tstride, false⟩
  else if n < 96 then ⟨BitVec.ofNat 64 (h.timeline (n - 82)).count, false⟩
  else if n < 110 then ⟨BitVec.ofNat 64 (bitOf (h.timeline (n - 96)).fail), false⟩
  else if n < 2 ^ 20 then {}
  else if n < 2 ^ 21 then h.vword (n - 2 ^ 20)
  else if n < 2 ^ 22 then ⟨h.maskWord (n - 2 ^ 21), false⟩
  else if n < 2 ^ 23 then a.accWord (n - 2 ^ 22)
  else
    let k := n - 2 ^ 23
    ⟨BitVec.ofNat 64 (SMap.get 0 (a.plane (k / 65536)).cells (k % 65536)), SMap.get false (a.plane (k / 65536)).pois (k % 65536)⟩

/-- A hub that a launch of the partition holds stands still: its core or its paceline is halted (R240, R247). -/
def State.halted (s : State) (part p hub : Nat) : Bool :=
  let h := s.hub p hub
  h.item.isSome && h.launch.part == part && (h.run == .stopped || (s.die p).held)

/-- A debug read through the mailbox of a partition at the customer level (R130, R240): doubleword 1 names a physical position of
the partition's map, doubleword 2 is 0 for the die's control space and 1 + hub for a halted hub's engine state, and doubleword 3
is the offset or the number of the word. The answer holds the word, then its poison. The manual fixes no code and no layout of
this request: they are the model's (log 125). -/
def State.debugRead (s : State) (part : Nat) : List Nat :=
  let fn := part + 1
  let p := s.mail fn 1
  let k := s.mail fn 2
  let o := s.mail fn 3
  if !s.mailOk fn [48, 9, 2 ^ 32] || (s.logical part p).isNone then [2]
  else if !((s.part part).customer && (s.part part).lock) then [5]
  else if k = 0 then [0, s.dieReg p o]
  else if s.halted part p (k - 1) then [0, (s.engineWord p (k - 1) o).v.toNat, bitOf (s.engineWord p (k - 1) o).p]
  else [3]

/-- Firmware serves a request (R118, R148 to R150); one for a partition whose reset runs gets status 3 (R158). -/
def State.serve (s : State) (fn : Nat) : State :=
  if fn ≠ 0 ∧ (s.part (fn - 1)).rstBusy then s.respond fn [3]
  else match mailEvent fn (mailWord (if fn = 0 then s.dev.pfReq else (s.part (fn - 1)).mbReq) 0) with
    | .ok i => (s.after s.transit i { part := fn - 1 }).useFree
    | .error c =>
      let code := mailWord (if fn = 0 then s.dev.pfReq else (s.part (fn - 1)).mbReq) 0
      if c = 1 ∧ fn ≠ 0 ∧ code = Config.debugReadCode then s.respond fn (s.debugRead (fn - 1)) else s.respond fn [c]

/-- Firmware runs (R122, R133). -/
def State.fwRuns (s : State) : Bool :=
  s.dev.bootStage == 6 && !s.dev.bootRec && (s.dev.power == .active || s.dev.power == .idleRetain)

/-- The ROM in recovery serves the PF mailbox (R123); a request that names no host image gets 1 (DESIGN CHOICE, log 123). -/
def State.romServe (s : State) : State :=
  if mailWord s.dev.pfReq 0 = 1 then (s.after s.transit .recoveryImageLoad {}).useFree else s.respond 0 [1]

/-- MAILBOX_GO (R118, R142): BUSY sets and a management core is interrupted; firmware, once it runs, or the ROM in
recovery (R123) serves the request. The PF's GO wakes the device from sleep, and a request from idle-retain (R133). -/
def execMailboxGo (s : State) : Res :=
  let fn := s.arg.fn
  let s := if s.dev.power = .sleep ∧ fn = 0 then s.raise .wakeFromSleep {}
    else s.wakeDies
  if fn = 0 then
    if s.dev.pfBusy then .next s
    else
      let s := { s with dev := { s.dev with pfBusy := true } }.interrupt 0 1
      if s.dev.bootRec then .next s.romServe
      else .next (if s.fwRuns then s.serve 0 else s)
  else if 16 < fn || s.dev.bootRec then .next s
  else
    let part := fn - 1
    let p := s.part part
    if p.mbBusy then .next s
    else
      let s := (s.setPart part { p with mbBusy := true }).interrupt part 1
      .next (if s.fwRuns then s.serve fn else s)

/-- MAILBOX_DONE (R118, R119). -/
def execMailboxDone (s : State) : Res :=
  let fn := s.arg.fn
  if fn = 0 then .next ({ s with dev := { s.dev with pfDone := true, pfBusy := false } }.signal 0 3)
  else .next ((s.setPart (fn - 1) { s.part (fn - 1) with mbDone := true, mbBusy := false }).signal fn 2)

/-! ### The debug window (R101, R130, R134) -/

/-- The B-die that an access may reach (R101). -/
def State.debugDie (s : State) (fn off : Nat) : Option Nat :=
  let p := 5 + bits off 32 30
  if s.kind p != .bDie || s.dev.power == .sleep || s.dev.power == .off || s.dev.power == .trip then none
  else if s.dev.bootDbg = 2 then (if fn = 0 then some p else none)
  else match partOfFn fn with
    | some q => if (s.part q).customer && (s.part q).lock && (s.logical q p).isSome then some p else none
    | none => none

/-- DEBUG_WINDOW_ACCESS: a read of `size` bytes, or with `n` = 1 a write of `bytes`, at BAR4 offset `off`; any access
that is not permitted is completed with Unsupported Request (R101). In idle-retain it clocks the dies again (R133). -/
def execDebugWindowAccess (s : State) : Res :=
  let a := s.arg
  let s := s.wakeDies
  match s.debugDie a.fn a.off with
  | none => .next (s.refuseAccess 4)
  | some p =>
    let x := flat (homeBuf p) (a.off % 2 ^ 30)
    if a.n = 1 then
      let s := { s with parts := s.parts.map fun (e : Nat × Part) => (e.1, if (s.logical e.1 p).isSome then { e.2 with clean := false } else e.2) }
      .next (s.writeBytes x (a.bytes.take (2 ^ 30 - a.off % 2 ^ 30)) false)
    else .next { s with outs := s.outs ++ [.debugRead a.fn (s.readBytes x (min a.size (2 ^ 30 - a.off % 2 ^ 30)))] }

end Sys2Proof.Machine
end

