-- ==== Sys2Proof/Machine/EvLink.lean ====
section
/-! DEFINITION. The die-to-die modules (R36 to R44): training, frames and their control words, bad frames, and the
retry of the counted channel. -/

namespace Sys2Proof.Machine

open Sys2Proof

/-- LINK_TRAINING_DONE: a module and its far end are trained and carry frames (R36); a paceline that waits for it
can be released once every module of its members has been retrained (R252). A module that faces a failed die stays down (R36). -/
def execLinkTrainingDone (s : State) : Res :=
  let p := s.arg.pos
  let m := s.arg.m
  match Config.wire p m with
  | none => .next s
  | some (q, j) =>
    let up := s.alive p && s.alive q
    let raise := fun (s : State) (p m : Nat) => s.setModule p m { s.module p m with up := up, retraining := false, ctlq := [] }
    let s := raise (raise s p m) q j
    .next { s with pls := s.pls.map fun x =>
      if x.2.retrain && !((List.range 48).any fun d => s.isMember x.1 d && (s.die d).modules.any fun k => k.2.retraining) then
        (x.1, { x.2 with retrain := false })
      else x }

/-! ### Frames (R37 to R39, R52) -/

/-- A signed value as a 32-bit pattern, and back (R52). -/
def pat32 (x : Int) : Nat := wrapInt x 32
def int32 (x : Nat) : Int := sextNat x 32

/-- Child members of a die: position and the die's module towards each (R51). -/
def State.children (s : State) (p : Nat) : List (Nat × Nat) :=
  (s.links p).filterMap fun x =>
    let e := s.die x.2.1
    if s.isMember (s.die p).plid x.2.1 && !e.root && e.parent == x.2.2 then some (x.2.1, x.1) else none

/-- SUBMIN of a member (R52): the least of its AHEAD and its children's SUBMIN. -/
def State.subMin (s : State) (p : Nat) : Int :=
  let d := s.die p
  (s.children p).foldl (fun a x =>
    match (SMap.get {} d.modules x.2).submin with
    | some v => min a (int32 v)
    | none => a) (int32 d.ahead)

/-- The mark at which a receiver takes a SAMPLE, against its CADENCE in that scy, in units of 2^-16 scy: what has passed of the
receiver's scy when the sender's begins, to the nearest unit, ties to even (R47). -/
def samplePhase (from_ at_ : Die) : Int :=
  let den : Int := Config.tickUnit * (1 + at_.tk)
  let num : Int := ((at_.sub : Int) * Config.tickUnit + at_.acc - from_.acc) * 65536
  let q := num / den
  let r := num % den
  if 2 * r < den ∨ (2 * r = den ∧ q % 2 = 0) then q else q + 1

/-- The scheduled control word of a module's frame in the first pulse of a scy, CTYPE and CDATA (R39, R52). -/
def State.ctlWord (s : State) (p m : Nat) : Nat × Nat :=
  let d := s.die p
  if d.cad % 256 = 0 then (ctSample, d.cad)
  else if d.cad % 256 = 64 ∧ d.member ∧ !d.root ∧ d.parent = m then (ctSubmin, d.submin)
  else if d.cad % 256 = 128 ∧ d.member ∧ (s.children p).any (·.2 == m) then (ctDown, downData d.ahead d.gmin)
  else (0, 0)

/-- A member's values before they are sent: SUBMIN at mark 64 of a round, and the root's AHEAD, GMIN and LAG at mark 128 (R52). -/
def State.paceRound (s : State) (p : Nat) : State :=
  let d := s.die p
  if !d.member then s
  else if d.cad % 256 = 64 then s.setDie p { d with submin := pat32 (s.subMin p) }
  else if d.cad % 256 = 128 ∧ d.root then s.setDie p { d with ahead := 0, gmin := d.submin, lag := pat32 (max 0 (- int32 d.submin)) }
  else s

/-- A SAMPLE reaches its receiver 24 of the receiver's scy later, at the phase that stands between the two oscillators when the
sender's scy begins (R29, R41, R47; log 95). -/
def State.sendSample (s : State) (p m : Nat) : State :=
  match Config.wire p m with
  | none => s
  | some (q, j) =>
    let d := s.die p
    let e := s.die q
    s.post q (e.cad + 24) 0 0 0 (.ev .sampleReceive
      { pos := q, m := j, value := BitVec.ofNat 64 d.cad, sent := d.cad, frac := wrapInt (samplePhase d e) 32 })

/-- A scheduled control word of a die's new scy, on one module (R39, R52). -/
def State.sendScheduled (s : State) (p m : Nat) : State :=
  let w := s.ctlWord p m
  if w.1 = ctSample then s.sendSample p m else s.sendWord p m w.1 w.2

/-- The frame that a die sends in this pulse begins a scy: it may carry a scheduled control word (R39). -/
def Die.heads (d : Die) : Bool := !d.still && d.sub == 0

/-- The place, among the control words that wait for frames of a module, of the one that rides in this pulse's frame, which carries
no scheduled one (R39, R246). -/
def State.rides (s : State) (p m : Nat) : Option Nat :=
  let d := s.die p
  if d.heads && (s.ctlWord p m).1 ≠ 0 then none
  else (s.module p m).ctlq.findIdx? fun x => !x.sub0 || d.heads

/-- A control word that waits goes out with the frame of this pulse (R39, R246, R249). -/
def State.sendRiding (s : State) (p m : Nat) : State :=
  match s.rides p m with
  | none => s
  | some i =>
    let k := s.module p m
    let x := k.ctlq.getD i {}
    let q := if x.left ≤ 1 then k.ctlq.eraseIdx i else k.ctlq.set i { x with left := x.left - 1 }
    (s.setModule p m { k with ctlq := q }).sendWord p m x.ctype x.cdata

/-! ### The slots of a frame (R37, R42, R43, R65) -/

/-- A timed beat takes a slot of the frame that die p sends on module m in this pulse; a control core's request or reply takes
its slot in sub-cycle 0 alone (R65, R449). -/
def State.claimed (s : State) (p m slot : Nat) : Bool :=
  let d := s.die p
  !d.gap && s.beats.any fun b => b.slot == slot && !b.dropped && b.hops.contains (p, m, d.cad) && (b.stream || d.sub == 0)

/-- The slots of the frame that no timed beat claims (R43). -/
def State.freeSlots (s : State) (p m : Nat) : List Nat := [0, 1].filter fun x => !s.claimed p m x

/-- The control word of the frame that die p sends on module m in this pulse, CTYPE and CDATA (R39). -/
def State.wordOf (s : State) (p m : Nat) : Nat × Nat :=
  match s.rides p m with
  | some i => let x := (s.module p m).ctlq.getD i {}; (x.ctype, x.cdata)
  | none => if (s.die p).heads then s.ctlWord p m else (0, 0)

/-- The header of the frame that die p sends on module m in this pulse (R38, R39): a schedule frame in a schedule pulse, else an
idle frame. -/
def State.frameHeader (s : State) (p m : Nat) : FrameHeader :=
  let d := s.die p
  let out := (s.module p m).outq
  let free := s.freeSlots p m
  let kind := fun (x : Nat) => if s.claimed p m x then 1 else if (free.idxOf x) < out.length then 2 else 0
  let pois := fun (x : Nat) => s.beats.any fun b => b.slot == x && b.pois && b.hops.contains (p, m, d.cad) && s.claimed p m x
  let word := s.wordOf p m
  { fseq := if d.gap then 0 else d.cad % 256, sub := if d.gap then 0 else d.sub, sch := !d.gap
    k0 := kind 0, k1 := kind 1, p0 := pois 0, p1 := pois 1, dv := d.armed, dmark := if d.armed then d.standM % 2 ^ 32 else 0
    ctype := word.1, cdata := word.2 }

/-- The 64 bytes of a counted beat: its header, then its 56 bytes of the packet's payload (R43). -/
def State.beatBytes (s : State) (p m : Nat) (b : OutBeat) : List Byte :=
  let data := match (if b.own then SMap.find b.id s.net else none) with
    | some k => if k.planes.isEmpty then k.bytes else k.planes.flatten
    | none => []
  let n := beatsFor data.length
  leBytes 8 (s.beatBits p m b) ++ fitBytes 56 (data.drop (56 * (n - 1 - b.left)))

/-- The bytes of a slot of this pulse's frame (R37): a timed stream beat's plane, whose tangents follow in the later sub-cycles
(R65); a control core's request or reply, whose layout the manual does not give (free bytes, log 106); or a counted beat. -/
def State.slotBytes (s : State) (p m slot : Nat) : List Byte :=
  let d := s.die p
  if s.claimed p m slot then
    match s.beats.find? fun b => b.slot == slot && !b.dropped && b.hops.contains (p, m, d.cad) with
    | some b => if b.stream then fitBytes 64 (b.planes.getD d.sub []) else (List.range 64).map (Config.coreBeat b.id)
    | none => fitBytes 64 []
  else
    match (s.module p m).outq[(s.freeSlots p m).idxOf slot]? with
    | some b => s.beatBytes p m b
    | none => fitBytes 64 []

/-- The frame that die p sends on module m in this pulse, before its CRC and parity (R37). -/
def State.frameOf (s : State) (p m : Nat) : Frame :=
  { hdr := s.frameHeader p m, slot0 := s.slotBytes p m 0, slot1 := s.slotBytes p m 1 }

/-- Counted beats leave in the slots that no timed beat claims (R43). -/
def State.sendCounted (s : State) (p m : Nat) : State :=
  let k := s.module p m
  let n := (s.freeSlots p m).length
  (k.outq.take n).foldl (fun (s : State) b => s.beatOut p m b) (s.setModule p m { k with outq := k.outq.drop n })

/-- One frame of a die's pulse (R37): what it holds leaves with it. -/
def State.sendFrame (s : State) (p m : Nat) : State :=
  let s := s.setModule p m { s.module p m with tx := s.frameOf p m }
  let s := if (s.die p).heads then s.sendScheduled p m else s
  (s.sendRiding p m).sendCounted p m

/-- FRAME_TRANSMIT: a frame on each trained module in every pulse of a die's oscillator, schedule or idle (R37, R39, R43, R65).
Timed beats have claimed their slots where they were sent, and DV and DMARK go out where a die arms (R42, R54). -/
def execFrameTransmit (s : State) : Res :=
  let p := s.arg.pos
  let s := if (s.die p).heads then s.paceRound p else s
  .next ((s.links p).foldl (fun (s : State) x => s.sendFrame p x.1) s)

/-- The event is the receipt, on module m of die p, of the control word of the frame that the far end sent in its scy c, sub-cycle
j, the g-th idle frame after the schedule frame, 0 for that frame itself (R40). -/
def lostWord (p m c j g : Nat) (i : Instr) (a : Arg) : Bool :=
  a.pos == p && a.m == m && a.sent == c && a.sub == j && a.size == g &&
  (i == .sampleReceive || i == .subminReceive || i == .downReceive || i == .coastReceive || i == .haltFrameReceive ||
   i == .releaseFrameReceive)

/-- The same, of an effect on the agenda. -/
def Due.lostWord (p m c j g : Nat) (d : Due) : Bool :=
  match d.act with
  | .ev i a => Sys2Proof.Machine.lostWord p m c j g i a
  | _ => false

/-- DV and DMARK of the frame; the next frame carries them again (R38, R54). -/
def lostMark (p m c : Nat) (d : Due) : Bool :=
  match d.act with
  | .ev i a => a.pos == p && a.m == m && a.sent == c && i == .standAdoption
  | _ => false

/-- The news of an armed stand comes with the frame after the lost one. -/
def Due.nextFrame (d : Due) : Due :=
  match d.act with
  | .ev i a => { d with at_ := d.at_ + 1, act := .ev i { a with sent := a.sent + 1 } }
  | _ => d

/-- BAD_FRAME (R37, R40): the frame that the far end of a module sent in scy `sent`, sub-cycle `sub`, came with the errors
`bytes`; `size` is 0 for a schedule frame, else its number among the idle frames after one. The FEC corrects errors in up to 22
bytes. A frame that stays bad delivers its timed beats poisoned, discards its counted beats and loses its control word. A word sent
in four frames takes effect by any one of them. -/
def execBadFrame (s : State) : Res :=
  let p := s.arg.pos
  let m := s.arg.m
  let c := s.arg.sent
  let j := s.arg.sub
  let g := s.arg.size
  if s.arg.bytes != [] && corrected s.arg.bytes then .next s
  else
    let hit := fun (b : Beat) =>
      g == 0 && (b.stream || j == 0) && b.hops.any fun f => decide (f.2.2 = c) && Config.wire f.1 f.2.1 == some (p, m)
    let gone := fun (x : Nat × Instr × Arg) =>
      (x.2.1 == .countedBeatReceive && x.2.2.pos == p && x.2.2.m == m && x.2.2.sent == c && x.2.2.sub == j && x.2.2.size == g) ||
      lostWord p m c j g x.2.1 x.2.2
    let stale := s.agenda.any fun d => Due.lostWord p m c j g d && (match d.act with | .ev i _ => i == .sampleReceive | _ => false)
    let s := { s with
      beats := s.beats.map fun b => if hit b then { b with bad := true } else b
      timers := s.timers.filter fun x => !gone x
      agenda := (s.agenda.filter fun d => !Due.lostWord p m c j g d).map fun d =>
        if j == 0 && g == 0 && lostMark p m c d then d.nextFrame else d }
    .next (if stale then s.setModule p m { s.module p m with stale := true } else s)

/-! ### Retry of the counted channel (R43, R44) -/

/-- The beats that an ACK leaves unacknowledged. -/
def unacked (a : Nat) (l : List OutBeat) : List OutBeat :=
  match l.findIdx? fun x => x.seq == a with
  | some i => l.drop (i + 1)
  | none => l

/-- The ACK of a beat frees the beats sent the other way, and is progress where it frees one (R44). -/
def Module.takeAck (k : Module) (ack now : Nat) : Module :=
  let left := unacked ack k.replay
  { k with replay := left, prog := if left.length < k.replay.length then now else k.prog }

/-- COUNTED_BEAT_RECEIVE (R43, R44): its ACK frees the beats sent the other way; the beat with the next SEQ is accepted and
acknowledged, and with the last beat of its packet the packet goes on; any other beat is discarded, and the ACK is told again. -/
def execCountedBeatReceive (s : State) : Res :=
  let p := s.arg.pos
  let m := s.arg.m
  let h := beatHeaderOf s.arg.value.toNat
  let k := (s.module p m).takeAck h.ack s.cy
  let s := s.setModule p m k
  if s.arg.ok && decide (h.seq = k.expSeq) then
    let s := (s.setModule p m { k with expSeq := (k.expSeq + 1) % 4096 }).returnAck p m
    .next (if h.left = 0 then s.forward p s.arg.team else s)
  else if s.arg.ok then .next (s.returnAck p m)
  else .next s

/-- COUNTED_RETRY_TIMEOUT (R44): after 64 cy without progress in ACK every beat not acknowledged is sent again, from the first;
the timer starts anew with progress and stops where nothing waits. -/
def execCountedRetryTimeout (s : State) : Res :=
  let p := s.arg.pos
  let m := s.arg.m
  let k := s.module p m
  if k.replay.isEmpty then .next (s.setModule p m { k with timing := false })
  else if s.cy < k.prog + 64 then .next (s.after (k.prog + 64 - s.cy) .countedRetryTimeout { pos := p, m := m })
  else .next ((s.setModule p m { k with outq := k.replay, prog := s.cy }).after 64 .countedRetryTimeout { pos := p, m := m })

end Sys2Proof.Machine
end

