-- ==== Sys2Proof/Machine/EvPart.lean ====
section
/-! DEFINITION. Partition resets and scrubs, the lock of a logical die map, and the failure of a die (R24 to R27, R126,
R131, R158, R252, R520). -/

namespace Sys2Proof.Machine

open Sys2Proof

/-- The slot of a partition whose backstop or halt limit is to start a reset in the same H-die cycle (R156, R251). -/
def State.hardComing (s : State) (part : Nat) : Option Nat :=
  (s.inbox.find? fun e => (e.1 == .backstopReset || e.1 == .haltLimitReset) && (s.slot e.2.slot).qcb.part == part &&
    (s.slot e.2.slot).qcb.state == 2).map (·.2.slot)

/-- PARTITION_RESET: a write of GO to PARTRSTp (R158), `m` 0; `n` is 1 plus the slot whose watchdog firmware answers, 0 for
none. It goes before the hardware's own start in the same H-die cycle, for the same slot (R156). With `m` 1 the reset goes on to
its step 2. -/
def execPartitionReset (s : State) : Res :=
  if s.arg.m = 0 then .next (s.startReset s.arg.part 1 (if s.arg.n = 0 then s.hardComing s.arg.part else some (s.arg.n - 1)))
  else .next (s.stopPart s.arg.part)

/-- PARTITION_SCRUB (R131), as step 4 of a reset or of its own. -/
def execPartitionScrub (s : State) : Res := .next (s.scrub s.arg.part)

/-- A paceline is dissolved: its members belong to none (R49, R158). -/
def State.dissolve (s : State) (n : Nat) : State :=
  let l := s.pl n
  let s := { s with dies := s.dies.map fun (e : Nat × Die) =>
    if e.2.member && e.2.plid == n then
      (e.1, { e.2 with
        member := false, root := false, plid := 0, parent := 0, tk := 0, lshift := 0, ahead := 0, lag := 0, held := false
        forming := false, haltAt := none, release := none, armed := false, adopt := false, idle := false, standing := false
        gather := false, swallow := 0, coastNext := [] })
    else e }
  s.setPl n { l with
    form := false, stage := 0, formed := false, slot := none, held := false, pend := false, nflt := 0, kind := 0, low := none, trap := false, retrain := false }

/-- The pacelines of a partition that are formed or being formed. -/
def State.pacelinesOf (s : State) (part : Nat) : List Nat :=
  (List.range 16).filter fun n => (s.pl n).form && (s.pl n).part == part

/-- The vendor level begins once every partition's scrub has ended, that of a reset under way among them (R130, R135). -/
def State.enterVendor (s : State) : State :=
  if s.dev.vendorEnter && (List.range 16).all fun p => !(s.part p).scrubbing && !((s.part p).rstBusy && (s.part p).rstPhase < 4) then
    ({ s with dev := { s.dev with vendorEnter := false, bootDbg := 2 } }.signal 0 1).extendDev 3 [2, 0]
  else s

/-- PARTITION_SCRUB_DONE (R131, R134, R158): PMEASp.3 takes the new epoch, the customer level ends, or begins where the scrub
entered it, with MEAS3 (R130, R135); the partition is scrubbed until firmware resumes it, and a reset goes on to step 5. -/
def execPartitionScrubDone (s : State) : Res :=
  let part := s.arg.part
  let p := s.part part
  if !p.scrubbing then .next s
  else
    let s := s.setPart part { p with scrubbing := false, enter := false, customer := p.enter, clean := true, parked := true }
    let s := s.extendPart part 3 (leBytes 8 p.epoch)
    let s := if p.customer = p.enter then s else s.signal 0 1
    let s := (if p.enter then s.extendDev 3 [1, BitVec.ofNat 8 part] else s).enterVendor
    if p.rstBusy then
      let ns := s.pacelinesOf part
      let s := ns.foldl (fun (s : State) n => s.dissolve n) s
      let s := s.setPart part { s.part part with rstPhase := 5, reform := ns }
      .next { s with inbox := s.inbox ++ [(.partitionResetDone, { part := part })] }
    else .next s

/-- Firmware clears HOLD after a partition reset, unless the partition is suspended (R149, R158). -/
def State.clearHolds (s : State) (part : Nat) : State :=
  let p := s.part part
  let s := s.setPart part { p with reform := [], parked := p.parked && (p.suspended || p.suspReq) }
  if p.suspended || p.suspReq then s
  else (s.slotsOf part).foldl (fun (s : State) n => s.setSlot n { s.slot n with hold := false }) s

/-- PARTITION_RESET_DONE: BUSY clears (R142, R158). The shipped firmware then forms the partition's pacelines again, and clears
HOLD once they are formed, as the traces of R160 and R514 show. -/
def execPartitionResetDone (s : State) : Res :=
  let part := s.arg.part
  let p := s.part part
  if p.rstBusy then
    let s := (s.setPart part { p with rstBusy := false, rstPhase := 0, waits := [] }).interrupt part 4
    let s := if p.reform.isEmpty then s.clearHolds part
      else { s with inbox := s.inbox ++ p.reform.map fun n => (.pacelineForm, { n := n }) }
    .next (p.waits.foldl (fun (s : State) fn => s.respond fn [0]) s)
  else .next s

/-! ### The logical die map (R23 to R26) -/

/-- KIND codes of dies (R15). -/
def kindCode : Config.Kind → Nat
  | .none => 0 | .hDie => 1 | .xDie => 2 | .bDie => 3 | .mDie => 4 | .vDie => 5 | .gDie => 6 | .reserved => 7

/-- RSN of the first check that an entry fails, if any (R25). -/
def State.entryBad (s : State) (part l : Nat) : Option Nat :=
  let p := s.part part
  let e := SMap.get 0 p.ldmap l
  let q := bits e 5 0
  if !s.good q || kindCode (s.kind q) != bits e 11 8 then some 1
  else if SMap.get false s.dev.dieFail q then some 2
  else if (List.range l).any fun k => s.phys part k == some q then some 3
  else if q != 0 && (List.range 16).any fun r => r != part && (s.part r).lock && (s.logical r q).isSome then some 4
  else none

/-- The first failure of R25 as ERR, RSN and BADPOS. -/
def State.mapBad (s : State) (part : Nat) : Option (Nat × Nat × Nat) :=
  if s.phys part 0 != some s.actingH then some (1, 5, 0)
  else
    let ls := (List.range 48).filter fun l => (s.phys part l).isSome
    match ls.find? fun l => (s.entryBad part l).isSome with
    | some l => some (1, (s.entryBad part l).getD 0, l)
    | none =>
      let count := fun (k : Config.Kind) => (ls.filter fun l => match s.phys part l with | some q => s.kind q == k | none => false).length
      if 2 * count .bDie < count .mDie then some (2, 0, 0) else none

/-- LDMAP_LOCK: a write of 1 to LOCK (R24 to R26); the locked map extends PMEASp.0 and its B-dies take the partition's
key (R126, R128). -/
def execLdmapLock (s : State) : Res :=
  let part := s.arg.part
  let p := s.part part
  if p.lock then .next (s.setPart part { p with ldErr := 0, ldRsn := 0, ldBad := 0 })
  else
    match s.mapBad part with
    | some (e, r, l) => .next (s.setPart part { p with ldErr := e, ldRsn := r, ldBad := l })
    | none =>
      let s := s.setPart part { p with lock := true, ldErr := 0, ldRsn := 0, ldBad := 0 }
      .next ((s.extendPart part 0 p.mapBytes).installKey part)

/-- The launches of a partition that have been validated and have no grant yet are refused: their map is not locked (R25, R111). -/
def State.refuseWaiting (s : State) (part : Nat) : State :=
  ((s.slotsOf part).filter fun n => (s.slot n).qcb.state == 1 && (s.slot n).validated).foldl (fun (s : State) n => s.refuseLaunch n 5) s

/-- LDMAP_UNLOCK: a write of 0 to LOCK, ignored while the partition has a running or suspended launch (R26). -/
def execLdmapUnlock (s : State) : Res :=
  let part := s.arg.part
  let p := s.part part
  if !p.lock then .next (s.setPart part { p with ldErr := 0, ldRsn := 0, ldBad := 0 })
  else if !p.susp.isEmpty || (s.slotsOf part).any fun n => (s.slot n).qcb.state == 2 || (s.slot n).qcb.state == 3 then
    .next (s.setPart part { p with ldErr := 3 })
  else .next ((s.setPart part { p with lock := false, ldErr := 0, ldRsn := 0, ldBad := 0 }).refuseWaiting part)

/-! ### The failure of a die (R27, R252) -/

/-- A module and its far end carry frames no more (R36). -/
def State.unlink (s : State) (p m : Nat) : State :=
  let down := fun (s : State) (p m : Nat) => s.setModule p m { s.module p m with up := false }
  match Config.wire p m with
  | some (q, j) => down (down s p m) q j
  | none => down s p m

/-- Every module of a failed die is down (R36). Its neighbours on another partition's pacelines halt and retrain the module
that faces it (R252). -/
def State.retrainFrom (s : State) (pos : Nat) : List (Nat × Nat × Nat) → State
  | [] => s
  | (m, q, k) :: r =>
    let s := s.unlink pos m
    let d := s.die q
    let l := s.pl d.plid
    let foreign := d.member && l.formed && (s.part l.part).lock && (s.logical l.part pos).isNone
    let s := if foreign then
        let s := s.setModule q k { s.module q k with retraining := true }
        let s := (s.setPl d.plid { s.pl d.plid with retrain := true }).dieFault q 0x19 1 k
        (s.after s.transit .linkTrainingDone { pos := q, m := k }).useFree
      else s
    s.retrainFrom pos r

/-- DIE_FAILURE: subcode `n`, 1 for an internal failure and 2 for the loss of link training (R27, R239, R520). -/
def execDieFailure (s : State) : Res :=
  let pos := s.arg.pos
  if SMap.get false s.dev.dieFail pos || 48 ≤ pos then .next s
  else
    let s := { s with dev := { s.dev with dieFail := SMap.set false s.dev.dieFail pos true } }
    let s := s.signal 0 2
    let s := s.retrainFrom pos (s.links pos)
    .next ((List.range 16).foldl (fun (s : State) part =>
      if (s.part part).lock && (s.logical part pos).isSome then
        (s.abortAll part 0x15 s.arg.n true).loseSaved part 0x15 s.arg.n
      else s) s)

end Sys2Proof.Machine
end

