-- ==== Sys2Proof/Machine/EvPace.lean ====
section
/-! DEFINITION. Pacelines: forming and dissolving (R49 to R51), drift (R47, R48, R52, R61), coasting (R64), and halts
(R246 to R250). -/

namespace Sys2Proof.Machine

open Sys2Proof

/-! ### Forming (R49 to R51) -/

/-- The members that PLMEMn names; once FORM is set, those that it named then (R49, R50). -/
def Pl.members (l : Pl) : List Nat := (List.range 48).filter fun p => (if l.form then l.taken else l.mem).testBit p

/-- A die holds an item of a launch, or is a member of a paceline that runs one. -/
def State.runsLaunch (s : State) (p : Nat) : Bool :=
  ((List.range 8).any fun h => (s.hub p h).item.isSome || s.expects p h) || ((s.die p).member && (s.pl (s.die p).plid).slot.isSome)

/-- The largest module count between two members by routes over members; none where a pair has no route. -/
def State.span (s : State) (ms : List Nat) : Option Nat :=
  (ms.flatMap fun p => ms.map fun q => s.hops ms.contains p q).foldl
    (fun a h => match a, h with | some a, some h => some (max a h) | _, _ => none) (some 0)

/-- ERR of a formation: the first check of R50 that fails, 0 where none does. -/
def State.formErr (s : State) (n : Nat) : Nat :=
  let l := s.pl n
  let ms := l.members
  if ms.isEmpty || ms.any fun p => s.kind p == .hDie then 6
  else if ms.any fun p => !s.good p || !(s.part l.part).lock || (s.logical l.part p).isNone then 1
  else match s.span ms with
    | none => 2
    | some h =>
      if 6 < h ∨ 192 < latency h then 3
      else if ms.any (fun p => (s.die p).member && (s.die p).plid != n) || s.pls.any (fun e => e.1 != n && e.2.form && ms.any e.2.members.contains) then 4
      else if ms.any s.runsLaunch then 5
      else 0

/-- The level that a set of dies applies: the highest of the package's requests and the dies' own (R33). -/
def State.coastFor (s : State) (ms : List Nat) : Nat :=
  (ms.map fun p => max (s.die p).reqJunc.level (s.die p).reqStack.level).foldl max (max s.dev.reqPkg.level s.dev.reqVcore.level)

/-- A member freezes its schedule clock, sets CADENCE := F and its tree registers (R51, R52), with the idle stand of mark F
armed and shown in its frames (R519). It takes at once the level that the H-die found as the formation began, as every member
does, and its pattern starts with the first pulse of F (DESIGN CHOICE, log 96). -/
def State.enrol (s : State) (n p : Nat) : State :=
  let l := s.pl n
  let ms := l.members
  let d := s.die p
  let s := s.setDie p { d with
    cad := l.mark0, sub := 0, lshift := 0, tk := 0, plid := n, member := true, root := p == l.root
    parent := (s.firstModule ms.contains p l.root).getD 0, ahead := 0, lag := 0, gmin := 0, submin := 0
    armed := true, adopt := false, idle := true, standM := l.mark0, standHubs := 0, quietHubs := 0
    standing := false, swallow := 0, gather := false, lastStand := l.mark0, haltAt := none, held := true, forming := true
    release := none, coast := l.coast, phase := 0, coastNext := [], coastOwn := none
    modules := d.modules.map fun e =>
      let k := e.2
      match Config.wire p e.1 with
      | some (q, _) => (e.1, { k with submin := none, nbrV := ms.contains q, nbrMark := l.mark0 % 2 ^ 32 })
      | none => (e.1, k) }
  s

/-- The time that the H-die's reads, its sending of F and its release wave take over the counted channel (R51): a free value
below 4,096 pulses, so that F lies ahead of every member's CADENCE when it comes (log 97). -/
def State.formTransit (s : State) : Nat := Config.transit s.free % 4096 + 1

/-- The next stage of a formation. -/
def State.formNext (s : State) (n stage pos : Nat) : State :=
  (s.after s.formTransit .pacelineForm { n := n, m := stage, pos := pos }).useFree

/-- PACELINE_FORM (R49 to R51): the write of 1 to FORM and its checks (`m` 0); CADENCE of every member is read, C and F follow,
and F is sent (1); a member freezes, and with the last of them the release wave leaves the root (2); every member has resumed at
F (3). -/
def execPacelineForm (s : State) : Res :=
  let n := s.arg.n
  let l := s.pl n
  if s.arg.m = 0 then
    if l.form then .next s
    else
      let e := s.formErr n
      if e ≠ 0 then .next (s.setPl n { l with err := e })
      else .next ((s.setPl n { l with err := 0, form := true, stage := 1, taken := l.mem }).formNext n 1 0)
  else if l.stage ≠ s.arg.m then .next s
  else if s.arg.m = 1 then
    let ms := l.members
    let c := (ms.map fun p => (s.die p).cad).foldl max 0
    let s := s.setPl n { l with
      stage := 2, root := ms.headD 0, hops := (s.span ms).getD 0, mark0 := roundUp (c + 131072) 65536, slot := none, held := false
      pend := false, haltErr := 0, nflt := 0, kind := 0, low := none, retrain := false, trap := false, coast := s.coastFor ms, idleFrom := 0, idleTo := 0 }
    .next (ms.foldl (fun (s : State) p => s.formNext n 2 p) s)
  else if s.arg.m = 2 then
    let s := s.enrol n s.arg.pos
    if l.members.all fun p => (s.die p).forming then
      let w := 24 * l.hops + 64
      let s := (s.setPl n { l with stage := 3 }).after (w + 24) .pacelineForm { n := n, m := 3 }
      .next { s with inbox := s.inbox ++ [(.releaseFrameReceive, { pos := l.root, value := BitVec.ofNat 64 (releaseData w l.mark0) })] }
    else .next s
  else if l.members.any fun p => (s.die p).forming then .next (s.after 1 .pacelineForm { n := n, m := 3 })
  else .next (s.setPl n { l with stage := 0, formed := true })

/-- PACELINE_DISSOLVE: a write of 0 to FORM (R50), ignored while a member runs a launch. -/
def execPacelineDissolve (s : State) : Res :=
  let n := s.arg.n
  let l := s.pl n
  if !l.form then .next (s.setPl n { l with err := 0 })
  else if l.formed && l.members.any s.runsLaunch then .next (s.setPl n { l with err := 5 })
  else
    let s := s.dissolve n
    .next (s.setPl n { s.pl n with err := 0 })

/-! ### Drift (R47, R48, R52, R61) -/

/-- DRIFT rounded to the nearest scy, ties away from zero (R48). -/
def driftScy (x : Int) : Int := if 0 ≤ x then (x + 32768) / 65536 else - ((- x + 32768) / 65536)

/-- FILL for a DRIFT (R48), within 0 to 64. -/
def fillOf (x : Int) : Nat := (max 0 (min 64 (32 + driftScy x))).toNat

/-- The drift-overrun subcode that a member raises at a SAMPLE, if any; `h` is the CADENCE of H (R60, R61). Where conditions 1 and
2 hold together subcode 1 is raised: the manual does not order them (DESIGN CHOICE, log 96). -/
def driftBad (drift rate : Int) (fill h now : Nat) : Option Nat :=
  let x := 256 * drift + rate * ((h : Int) - now)
  let lim : Int := 24 * 65536 * 256
  if lim < x ∨ x < - lim then some 1 else if fill < 8 ∨ 56 < fill then some 2 else none

/-- SAMPLE_RECEIVE (R47, R48, R61): DRIFT := S + 24 − m, with the fraction of m in `frac`. RATE is the signed 16-bit difference
from the previous DRIFT; it is 0 at the first SAMPLE of a module, which has none (log 36). -/
def execSampleReceive (s : State) : Res :=
  let p := s.arg.pos
  let m := s.arg.m
  let d := s.die p
  let k := s.module p m
  let drift : Int := ((s.arg.value.toNat : Int) + 24 - d.cad) * 65536 - int32 s.arg.frac
  let rate : Nat := if k.driftV then wrapInt (drift - int32 k.drift) 16 else 0
  let fill := fillOf drift
  let far := match Config.wire p m with | some (q, _) => s.isMember d.plid q | none => false
  let h := if d.armed then d.standAt else d.lastStand + 65536
  let bad := if d.member && far && !d.standing && !d.held then driftBad drift (sextNat rate 16) fill h d.cad else none
  let s := s.setModule p m { k with
    driftV := true, drift := pat32 drift, rate := rate, fill := fill, lastSample := d.cad, ovr := k.ovr || bad.isSome }
  match bad with
  | some c => .next (s.dieFault p 0x05 c m)
  | none => .next s

/-- SUBMIN_RECEIVE (R52). -/
def execSubminReceive (s : State) : Res :=
  let k := s.module s.arg.pos s.arg.m
  .next (s.setModule s.arg.pos s.arg.m { k with submin := some (s.arg.value.toNat % 2 ^ 32) })

/-- DOWN_RECEIVE (R52): AHEAD, GMIN and LAG of a member that is not the root. -/
def execDownReceive (s : State) : Res :=
  let p := s.arg.pos
  let d := s.die p
  let v := s.arg.value.toNat
  if d.member && !d.root && d.parent == s.arg.m then
    let a := int32 (bits v 63 32) - int32 (s.module p s.arg.m).drift
    .next (s.setDie p { d with ahead := pat32 a, gmin := bits v 31 0, lag := pat32 (max 0 (a - int32 (bits v 31 0))) })
  else .next s

/-! ### Coasting (R64) -/

/-- A 48-bit mark near a die's CADENCE. -/
def State.near48 (s : State) (p m : Nat) : Nat := (s.die p).cad / 2 ^ 48 * 2 ^ 48 + m % 2 ^ 48

/-- COAST_RECEIVE: level c from the mark Q (R60, R64); of the four frames of an order the first that arrives good counts
(R40). -/
def execCoastReceive (s : State) : Res :=
  let p := s.arg.pos
  let d := s.die p
  let v := s.arg.value.toNat
  let c := bits v 63 60
  let q := s.near48 p v
  if !d.member || 12 < c || d.coastNext.contains (c, q) then .next s
  else if q ≤ d.cad then .next (s.dieFault p 0x05 3 0xF)
  else .next ((s.setDie p { d with coastNext := d.coastNext ++ [(c, q)] }).post p q 0 0 0 (.ev .coastApply { pos := p }))

/-- COAST_APPLY: the level ordered last for Q holds from the first pulse of scy Q, with i = 0 at that pulse (R64). -/
def execCoastApply (s : State) : Res :=
  let p := s.arg.pos
  let d := s.die p
  match (d.coastNext.filter fun x => x.2 == d.cad).getLast? with
  | some x => .next (s.setDie p { d with coast := x.1, phase := 1, coastNext := d.coastNext.filter fun y => decide (d.cad < y.2) })
  | none => .next s

/-! ### Halts (R246 to R250) -/

/-- HALT_FRAME_RECEIVE: a member keeps the lower halt mark, and passes on a mark that is new to it (R246). -/
def execHaltFrameReceive (s : State) : Res :=
  let p := s.arg.pos
  let d := s.die p
  let v := s.arg.value.toNat
  let now := ((d.cad : Int) - s.haltShift p).toNat
  let hm := now / 2 ^ 48 * 2 ^ 48 + v % 2 ^ 48
  let h := s.haltCad p hm
  let known := match d.haltAt with | some x => decide (x ≤ h) | none => false
  if !d.member || d.plid != bits v 59 56 || d.held || known then .next s
  else .next ((s.setDie p (d.halt h)).sendHalt p hm ((s.plModules p).filter fun m => m != s.arg.m))

/-- The held launch of a paceline ends: its hubs and beats are discarded, the members go on with none, and the queue
becomes faulted (R250). -/
def State.abortPaceline (s : State) (n : Nat) : State :=
  match (s.pl n).slot with
  | none => s.endHold { timed := true, plid := n }
  | some slot =>
    match (s.slot slot).run with
    | some r => (s.discardLaunch slot r).faultSlot slot
    | none => (s.freePaceline n).zeroShift n

/-- PACELINE_HOLD: at the end of scy H a member holds; with the last of them the paceline is held, and after a TRAP
the H-die aborts its launch (R247, R248, R380). The sets of a refused PHASE go with the halt (R185). -/
def execPacelineHold (s : State) : Res :=
  let p := s.arg.pos
  let d := s.die p
  if d.haltAt != some d.cad || d.held then .next s
  else
    let s := (s.setDie p { d with held := true, haltAt := none, standing := false, swallow := 0, gather := false }).withdrawRefused p
    let n := d.plid
    let l := s.pl n
    if (List.range 48).all fun q => !s.isMember n q || (s.die q).held then
      if (s.part l.part).rstBusy then .next s
      else
      let s := s.setPl n { l with held := true, pend := false, hmark := ((d.cad : Int) - s.haltShift p).toNat }
      .next (if l.trap then s.abortPaceline n else s)
    else .next s

/-- The halt clock of a paceline's launch clears (R251). -/
def State.clearHalt (s : State) (n : Nat) : State :=
  match (s.pl n).slot with
  | some k => s.setSlot k { s.slot k with halt := 0 }
  | none => s

/-- PACELINE_RELEASE: a write of RELEASE to PLHALTn in a partition's block (R248, R249, R252). -/
def execPacelineRelease (s : State) : Res :=
  let n := s.arg.n
  let l := s.pl n
  if !l.formed || l.part != s.arg.part then .next s
  else if !l.held then .next (s.setPl n { l with haltErr := 1 })
  else if l.retrain then .next (s.setPl n { l with haltErr := 2 })
  else
    let s := (s.clearHalt n).setPl n { l with held := false, pend := false, nflt := 0, kind := 0, low := none, haltErr := 0 }
    .next { s with inbox := s.inbox ++ [(.releaseFrameReceive, { pos := l.root, value := BitVec.ofNat 64 (releaseData (24 * l.hops + 64) l.hmark) })] }

/-- PACELINE_ABORT: a write of ABORT to PLHALTn (R248, R250). -/
def execPacelineAbort (s : State) : Res :=
  let n := s.arg.n
  let l := s.pl n
  if !l.formed || l.part != s.arg.part then .next s
  else if !l.held then .next (s.setPl n { l with haltErr := 1 })
  else .next ((s.clearHalt n |>.setPl n { l with haltErr := 0 }).abortPaceline n)

/-- RELEASE_FRAME_RECEIVE: the die begins scy H + 1 after W pulses, and forwards the word to its children, in the frame of this
pulse, with W less the flight time of the module (R249). -/
def execReleaseFrameReceive (s : State) : Res :=
  let p := s.arg.pos
  let d := s.die p
  let v := s.arg.value.toNat
  let w := bits v 63 48
  if !d.held then .next s
  else
    let s := s.setDie p { d with release := some w }
    .next ((s.children p).foldl (fun (s : State) x =>
      let k := s.module p x.2
      s.setModule p x.2 { k with ctlq := ⟨ctRelease, releaseData (w - flightPulses) v, 1, false⟩ :: k.ctlq }) s)

end Sys2Proof.Machine
end

