-- ==== Sys2Proof/Machine/EvMail.lean ====
section
/-! DEFINITION. The requests that firmware serves through the mailboxes (R133, R146 to R150, R154, R158). -/

namespace Sys2Proof.Machine

open Sys2Proof

/-! ### Requests (R148) -/

/-- The image of a queue in firmware SRAM, at 128 × QID (DESIGN CHOICE, log 40). -/
def imageAt (q : Nat) : Nat := 128 * q
def State.image (s : State) (q : Nat) : Qcb := qcbOf (SMap.get [] s.dev.fwsram (imageAt q))
def State.setImage (s : State) (q : Nat) (b : Qcb) : State := { s with dev := { s.dev with fwsram := SMap.put s.dev.fwsram (imageAt q) b.bytes } }

/-- A queue of a partition (R149). -/
def State.owns (s : State) (part q : Nat) : Bool := (s.qreg q).1 && (s.qreg q).2.1 == part
/-- The slot that holds a queue. -/
def State.heldBy (s : State) (q : Nat) : Option Nat := if (s.qreg q).2.2.1 then some (s.qreg q).2.2.2.1 else none
/-- The QCB of a queue, live or saved. -/
def State.qcb (s : State) (q : Nat) : Qcb := match s.heldBy q with | some n => (s.slot n).qcb | none => s.image q
/-- Changes the QCB of a queue where it is; of a faulted queue in a slot, by SAVE and RESTORE in one (R107, R147). -/
def State.editQcb (s : State) (q : Nat) (f : Qcb → Qcb) : State :=
  match s.heldBy q with
  | some n => s.setQcb n f
  | none => s.setImage q (f (s.image q))

/-- Firmware answers a request of a function. -/
def State.answer (s : State) (fn : Nat) (ws : List Nat) : Res := .next (s.respond fn ws)

/-- Serves a VF's request that `ok` accepts as well formed. -/
def State.serveVf (s : State) (ms : List Nat) (f : State → Nat → Res) : Res :=
  let fn := s.arg.part + 1
  if s.mailOk fn ms then f s fn else s.answer fn [2]

/-- The interface takes no changes of its settings (R129). -/
def State.locked (s : State) (part : Nat) : Bool := (s.part part).tdisp != 0

/-! ### Queues (R147, R149) -/

/-- QCREATE (R149). -/
def execQcreate (s : State) : Res :=
  s.serveVf [4096, 2 ^ 64, 2048, 2 ^ 20] fun s fn =>
    let part := s.arg.part
    let q := s.mail fn 1
    let c := s.mail fn 3
    let n := c % 32
    if s.locked part then s.answer fn [4]
    else if (s.qreg q).1 || n = 0 || 20 < n || bits c 7 5 != 0 || (s.part part).cap < bits c 10 8 || s.mail fn 2 % 256 != 0 then s.answer fn [2]
    else
      let s := s.setImage q { rbase := s.mail fn 2, qid := q, part := part, pasid := s.mail fn 4, log2n := n, cap := bits c 10 8 }
      ((s.setQreg q (true, part, false, 0, 0)).setPend q false).answer fn [0]

/-- A slot is left empty (R108). -/
def State.emptySlot (s : State) (n : Nat) : State :=
  s.setSlot n { s.slot n with valid := false, qcb := {}, err := 0, record := {}, validated := false, granted := false, run := none, newCap := none }

/-- QDESTROY (R149). -/
def execQdestroy (s : State) : Res :=
  s.serveVf [4096] fun s fn =>
    let part := s.arg.part
    let q := s.mail fn 1
    let b := s.qcb q
    if s.locked part then s.answer fn [4]
    else if !s.owns part q then s.answer fn [2]
    else if !(b.state == 0 || b.state == 4) || (s.qreg q).2.2.2.2 != b.head then s.answer fn [3]
    else
      let s := match s.heldBy q with | some n => s.emptySlot n | none => s
      ((s.setQreg q (false, part, false, 0, (s.qreg q).2.2.2.2)).setPend q false).answer fn [0]

/-- A stopped hub's state goes when its queue is restarted (R240). -/
def State.dropStopped (s : State) (q : Nat) : State :=
  let gone := fun (h : Hub) => h.run == .stopped && h.item.isSome && h.launch.qid == q
  { s with
    agenda := s.agenda.filter fun (d : Due) => !gone (s.hub d.die d.hub) || (match d.act with | .ev i _ => !ofLaunch i | _ => false)
    hubs := s.hubs.map fun (e : Nat × Hub) => if gone e.2 then (e.1, e.2.discard) else e }

/-- QRESTART (R147): SAVE, STATE := idle in the image, HEAD + 1 with SKIP, RESTORE. -/
def execQrestart (s : State) : Res :=
  s.serveVf [4096, 2] fun s fn =>
    let q := s.mail fn 1
    let skip := s.mail fn 2
    if !s.owns s.arg.part q then s.answer fn [2]
    else if (s.qcb q).state != 4 then s.answer fn [3]
    else
      let t := (s.qreg q).2.2.2.2
      let s := s.dropStopped q
      let s := s.editQcb q fun b => { b with state := 0, tail := t, head := (b.head + skip) % 2 ^ 32 }
      match s.heldBy q with
      | some n =>
        let s := s.setImage q (s.slot n).qcb
        (s.setSlot n { s.slot n with addr := imageAt q, err := 0, bkstop := false, record := {}, validated := false }).answer fn [0]
      | none => ((if t ≠ (s.qcb q).head then s.wake q s.arg.part else s.setPend q false)).answer fn [0]

/-- QSTAT (R149). -/
def execQstat (s : State) : Res :=
  s.serveVf [4096] fun s fn =>
    let q := s.mail fn 1
    if !s.owns s.arg.part q then s.answer fn [2]
    else
      let bs := (s.qcb q).bytes
      s.answer fn (0 :: (List.range 16).map fun i => leNat ((bs.drop (8 * i)).take 8))

/-- QPRIO (R149). -/
def execQprio (s : State) : Res :=
  s.serveVf [4096, 8] fun s fn =>
    let q := s.mail fn 1
    let c := s.mail fn 2
    if !s.owns s.arg.part q || (s.part s.arg.part).cap < c then s.answer fn [2]
    else match s.heldBy q with
      | some n => (s.setSlot n { s.slot n with newCap := some c }).answer fn [0]
      | none => (s.setImage q { s.image q with cap := c }).answer fn [0]

/-! ### Partitions (R149, R158) -/

/-- PSUSPEND (R149): HOLD and PRE on every slot of the partition; the answer follows. -/
def execPsuspend (s : State) : Res :=
  s.serveVf [] fun s _ =>
    let part := s.arg.part
    let s := (s.slotsOf part).foldl (fun (s : State) n => (s.setHold n true).raise .preemptRequest { slot := n }) s
    let s := s.setPart part { s.part part with suspReq := true }
    .next (s.after Config.cyPerUs .psuspendResponse { part := part, n := s.cy + s.dev.graceUs * Config.cyPerUs })

/-- PSUSPEND_RESPONSE (R149): status 0 once every launch is suspended, or 3 when GRACE passes first, at `n`,
which leaves PREQ pending. -/
def execPsuspendResponse (s : State) : Res :=
  let part := s.arg.part
  let p := s.part part
  if !p.suspReq then .next s
  else if !((s.slotsOf part).any fun n => (s.slot n).qcb.state == 2) then
    (s.setPart part { p with suspReq := false, suspended := true }).answer (part + 1) [0]
  else if s.arg.n ≤ s.cy then s.answer (part + 1) [3]
  else .next (s.after Config.cyPerUs .psuspendResponse s.arg)

/-- PRESUME (R149); it resumes a scrubbed partition too (R134). -/
def execPresume (s : State) : Res :=
  s.serveVf [] fun s fn =>
    let part := s.arg.part
    let s := (s.slotsOf part).foldl (fun (s : State) n => s.setHold n false) s
    (s.setPart part { s.part part with suspReq := false, suspended := false, parked := false }).answer fn [0]

/-- GO to PARTRSTp; the answer waits until BUSY clears (R149, R160). -/
def State.presetFor (s : State) (part fn : Nat) : State :=
  let s := s.startReset part 1 (s.hardComing part)
  s.setPart part { s.part part with waits := (s.part part).waits ++ [fn] }

/-- PRESET of a VF (R149). -/
def execPreset (s : State) : Res := s.serveVf [] fun s fn => .next (s.presetFor s.arg.part fn)

/-! ### The PF's requests (R150) -/

/-- Serves a PF request that is well formed. -/
def State.servePf (s : State) (ms : List Nat) (f : State → Res) : Res := if s.mailOk 0 ms then f s else s.answer 0 [2]

/-- PCONFIG (R150): the map is written as R23 lets it be, then LOCK. -/
def execPconfig (s : State) : Res :=
  s.servePf ([16, 8, 17] ++ List.replicate 12 (2 ^ 64)) fun s =>
    let part := s.mail 0 1
    if s.mail 0 3 = 0 then s.answer 0 [2]
    else if s.locked part then s.answer 0 [4]
    else
      let p := { s.part part with cap := s.mail 0 2, quota := s.mail 0 3 }
      let p := (List.range 12).foldl (fun (p : Part) n => p.writeMap n (s.mail 0 (4 + n)) (2 ^ 64 - 1)) p
      match execLdmapLock { (s.setPart part p) with arg := { part := part } } with
      | .next t => t.answer 0 [0, (t.part part).ldmapCtl]
      | r => r

/-- PACEFORM (R150). -/
def execPaceform (s : State) : Res :=
  s.servePf [16, 16, 2 ^ 48] fun s =>
    let n := s.mail 0 1
    let part := s.mail 0 2
    if s.locked part || s.locked (s.pl n).part then s.answer 0 [4]
    else
      let l := s.pl n
      let s := if l.formed then s else s.setPl n { l with mem := s.mail 0 3, part := part }
      match execPacelineForm { s with arg := { n := n } } with
      | .next t => t.answer 0 [0, (t.pl n).ctl]
      | r => r

/-- SCHED (R138, R150). -/
def execSched (s : State) : Res :=
  s.servePf [2 ^ 64] fun s =>
    let v := s.mail 0 1
    ({ s with dev := { s.dev with grace := bits v 51 32, agestep := bits v 19 0 } }).answer 0 [0]

/-- PRESET of the PF (R150). -/
def execPresetPf (s : State) : Res := s.servePf [16] fun s => .next (s.presetFor (s.mail 0 1) 0)

/-! ### Sleep (R133 to R135) -/

/-- A partition runs a launch or has one suspended. -/
def State.hasLaunch (s : State) (part : Nat) : Bool :=
  !(s.part part).susp.isEmpty || (s.slotsOf part).any fun n => (s.slot n).qcb.state == 2 || (s.slot n).qcb.state == 3

/-- What the H-die still does with its dies off. -/
def outlives (i : Instr) : Bool :=
  i == .pageFaultBatchClose || i == .shootdown || i == .mailboxDone || i == .faultReportReceive || i == .launchValidate

/-- Every die outside the always-on island loses power: all SRAM, hubs, arrays, counters and what is under way go, and
pacelines are dissolved; HBM keeps its contents and each B-die its key (R34, R46, R133, R134). -/
def State.powerDown (s : State) (p : Power) : State :=
  { s with
    dev := { s.dev with power := p, gatedAt := none, vendorEnter := false }
    ended := false, agenda := [], timers := s.timers.filter fun (t : Nat × Instr × Arg) => outlives t.2.1, net := s.net.filter fun (e : Nat × Pkt) => e.2.typ == 8 || e.2.typ == 0xC, chan := [], beats := []
    slots := s.slots.map fun (e : Nat × Slot) => (e.1, { e.2 with run := none, stopping := false })
    parts := s.parts.map fun (e : Nat × Part) => (e.1, { e.2 with susp := e.2.susp.map fun v => { v with off := true } })
    pls := s.pls.map fun (e : Nat × Pl) => (e.1, ({ mem := e.2.mem, part := e.2.part } : Pl))
    dies := (List.range 48).map fun p => (p, ({ powered := false, epoch := (s.die p).epoch, saves := (s.die p).saves } : Die))
    hubs := [], arrays := [], xdies := []
    mem := s.mem.filter fun (c : Host.Cell) => !isSram (homeOf c.1)
    lines := [], ecc := s.ecc.filter fun (e : Nat × Bool) => !isSram (homeOf (64 * e.1)) }

/-- The PF's response is in place at once (R118). -/
def State.answerNow (s : State) (ws : List Nat) : State :=
  ({ s with dev := { s.dev with
      pfRsp := (ws.flatMap (leBytes 8)).zipIdx.map fun (x : Byte × Nat) => (x.2, x.1), pfDone := true, pfBusy := false } }).signal 0 3

/-- SLEEP_REQUEST (R133, R150): refused with a launch running or suspended, or a scrub in progress; R133's condition is
taken over the last example after R135 (log 41). -/
def execSleepRequest (s : State) : Res :=
  s.servePf [] fun s =>
    if (List.range 16).any fun p => s.hasLaunch p || (s.part p).scrubbing || (s.part p).rstBusy then s.answer 0 [3]
    else .next ((s.answerNow [0]).powerDown .sleep)

end Sys2Proof.Machine
end

