-- ==== Sys2Proof/Machine/EvTrust.lean ====
section
/-! DEFINITION. The boot ROM, recovery, firmware's first report and debug tokens (R120 to R126, R130 to R135). -/

namespace Sys2Proof.Machine

open Sys2Proof

/-! ### BOOTST (R124) -/

/-- A change of BOOTST raises PF vector 1. -/
def State.boot (s : State) (f : Dev → Dev) : State := { s with dev := f s.dev }.signal 0 1

/-- The ROM sets STAGE before a step (R122). -/
def State.stage (s : State) (n : Nat) : State := s.boot fun d => { d with bootStage := n }

/-! ### The image (R121, R122) -/

/-- Where the ROM reads an image: the flat address of its first byte and the bytes that can be read. -/
structure ImageAt where
  base : Nat
  len : Nat
  deriving DecidableEq, Repr

/-- The boot flash (R121). -/
def flashImage : ImageAt := ⟨flat homeFlash 0, 0x2000000⟩

/-- Bytes of an image from an offset; none where they cannot be read. -/
def State.imageBytes (s : State) (i : ImageAt) (o n : Nat) : Option (List Byte) :=
  if o + n ≤ i.len then some (s.readBytes (i.base + o) n) else none

/-- A little-endian field of a list of bytes. -/
def fieldOf (bs : List Byte) (o n : Nat) : Nat := leNat ((bs.drop o).take n)

def imageHeader : Nat := 0x7600
def bodyLen (h : List Byte) : Nat := fieldOf h 8 8

/-- Step 3: MAGIC, HVER, BODYLEN, ENTRY and the reserved fields; BODYLEN is from 4 MiB to 16 MiB (DEDUCED, log 43). -/
def headerOk (h : List Byte) : Bool :=
  fieldOf h 0 4 == 0x4C584D31 && fieldOf h 4 2 == 1 && fieldOf h 7 1 == 0 &&
  decide (0x400000 ≤ bodyLen h ∧ bodyLen h ≤ 0x1000000) && bodyLen h % 4 == 0 &&
  decide (fieldOf h 0x10 8 < bodyLen h) && fieldOf h 0x10 8 % 4 == 0 && fieldOf h 0x18 8 == 0 &&
  fieldOf h 0x80 128 == 0 && fieldOf h 0x7560 160 == 0

/-- Step 6: the body against BDIGEST. -/
def State.bodyErr (s : State) (i : ImageAt) (h : List Byte) : Nat :=
  match s.imageBytes i imageHeader (bodyLen h) with
  | none => 2
  | some b => if (Config.sha256 b).toNat = fieldOf h 0x20 32 then 0 else 6

/-- Steps 4 to 7: the ERR of the first check that fails, 0 where all hold. -/
def State.verifyErr (s : State) (i : ImageAt) (h : List Byte) : Nat :=
  let key := (h.drop 0x40).take 64
  if Config.sha256 key ≠ Config.khash then 4
  else if !Config.slhVerify key (h.take 0x100) ((h.drop 0x100).take 29792) then 5
  else
    let e := s.bodyErr i h
    if e ≠ 0 then e else if fieldOf h 6 1 < s.dev.bootMinsvn then 7 else 0

/-- Steps 3 to 7 of an image: ERR. -/
def State.imageErr (s : State) (i : ImageAt) : Nat × List Byte :=
  match s.imageBytes i 0 imageHeader with
  | none => (2, [])
  | some h => if headerOk h then (s.verifyErr i h, h) else (3, h)

/-- Step 8 (R122, R125, R132): MEAS2, MINSVN, the identity key and the start of firmware, whose first report follows. -/
def State.startFirmware (s : State) (h : List Byte) : State :=
  let svn := fieldOf h 6 1
  let s := s.extendDev 2 (h.take 0x100)
  let s := s.boot fun d => { d with bootStage := 5, bootErr := 0, bootRec := false, bootMinsvn := max d.bootMinsvn svn, bootSvn := svn }
  (s.after s.transit .firmwareFirstReport {}).useFree

/-- An image's check has come to step 4: its header was read and is well formed (R122). -/
def pastHeader (r : Nat × List Byte) : Bool := r.1 == 0 || decide (4 ≤ r.1) || (r.1 == 2 && !r.2.isEmpty)

/-- Steps 3 to 8 of the stored image, of whose flash the first `n` bytes can be read; a failure keeps the device in recovery, where
the ROM serves a request that waits in the PF mailbox (R123). -/
def State.bootImage (s : State) (n : Nat) : State :=
  let s := s.stage 3
  let r := s.imageErr { flashImage with len := min n flashImage.len }
  let s := if pastHeader r then s.stage 4 else s
  if r.1 = 0 then s.startFirmware r.2
  else
    let s := s.boot fun d => { d with bootErr := r.1, bootRec := true }
    if s.dev.pfBusy then s.romServe else s

/-- The bytes of the flash that a boot can read: all of them, or, where the flash fails, those below the place that the event
names. -/
def Arg.flashBytes (a : Arg) : Nat := if a.ok then flashImage.len else a.off

/-! ### The mix (R20) -/

/-- The fitted-good dies of a kind. -/
def State.fitted (s : State) (k : Config.Kind) : Nat := ((List.range 48).filter fun p => s.kind p == k).length

/-- R20; no MIX entry lies past position 47. -/
def State.mixOk (s : State) : Bool := decide (1 ≤ s.fitted .hDie) && decide (s.fitted .mDie ≤ 2 * s.fitted .bDie)

/-- The 48 bytes of MIX0 to MIX5. -/
def State.mixBytes (s : State) : List Byte := (List.range 48).map fun p => BitVec.ofNat 8 (SMap.get 0 s.dev.mix p)

/-- Every die's oscillator starts at a phase of its own (R29; log 8). -/
def State.startClocks (s : State) : State :=
  { s with dies := (List.range 48).foldl (fun (m : SMap Die) p =>
      SMap.put m p { SMap.get {} m p with acc := Config.phase (48 * s.free + p) % Config.tickUnit }) s.dies }

/-- Every wired module between two fitted-good dies is trained in some time of its own (R36). -/
def State.trainLinks (s : State) : State :=
  ((List.range 48).flatMap fun p => (List.range (s.kind p).modules).filterMap fun m =>
    match Config.wire p m with
    | some (q, _) => if decide (p < q) && s.good q then some (p, m) else none
    | none => none).foldl
    (fun (s : State) (x : Nat × Nat) => (s.after s.transit .linkTrainingDone { pos := x.1, m := x.2 }).useFree) s

/-- The ROM's run along R122, with a new DNONCE (R132). A mix that is not permitted ends the boot (R20). -/
def State.runRom (s : State) (n : Nat) : State :=
  let s : State := { s.useFree with dev := { s.dev with dnonce := Config.trng s.free, bootErr := 0, bootRec := false } }
  let s := s.stage 1
  let s := (s.extendDev 0 (digestBytes Config.romDigest)).extendDev 1 s.mixBytes
  let s := s.stage 2
  if s.mixOk then s.bootImage n else s.boot fun d => { d with bootErr := 1 }

/-! ### Cold reset (R122, R133) -/

/-- The machine before the ROM's first step: every register at its reset value. The fuses, the flash and host memory
stay as they are, and so does what is on its way from outside. -/
def State.cold (s : State) : State :=
  { State.reset with
    inbox := s.inbox, free := s.free, outs := s.outs
    dev := { mix := s.dev.mix, vdbgoff := s.dev.vdbgoff, bootMinsvn := s.dev.bootMinsvn }
    mem := s.mem.filter fun (c : Host.Cell) => decide (homeFlash ≤ homeOf c.1) }

/-- COLD_RESET (R122): the dies leave reset, their oscillators start, their modules train, and the ROM runs. -/
def execColdReset (s : State) : Res := .next (s.cold.startClocks.trainLinks.runRom s.arg.flashBytes)

/-- FIRMWARE_FIRST_REPORT (R122): STAGE 6; firmware serves the requests that wait (R118). -/
def execFirmwareFirstReport (s : State) : Res :=
  if s.dev.bootStage ≠ 5 then .next s
  else
    let s := s.stage 6
    let s := if s.dev.pfBusy && !((List.range 16).any fun p => (s.part p).waits.contains 0) then s.serve 0 else s
    .next ((List.range 16).foldl (fun (s : State) p =>
      if (s.part p).mbBusy && !(s.part p).waits.contains (p + 1) then s.serve (p + 1) else s) s)

/-- RECOVERY_IMAGE_LOAD (R123): the ROM fetches the image through the PF without a PASID, applies steps 3 to 7, and
answers 0 or the ERR code; a good image is written to the flash and boots. -/
def execRecoveryImageLoad (s : State) : Res :=
  if !s.dev.bootRec then .next s
  else
    let i : ImageAt := ⟨flat (homeHost 16 none) (s.mail 0 1), s.mail 0 2⟩
    let s := s.stage 3
    let r := s.imageErr i
    let s := if pastHeader r then s.stage 4 else s
    if r.1 ≠ 0 then .next ((s.boot fun d => { d with bootErr := r.1 }).respond 0 [r.1])
    else
      let bs := (s.imageBytes i 0 (imageHeader + bodyLen r.2)).getD []
      .next (((s.writeBytes (flat homeFlash 0) bs false).startFirmware r.2).respond 0 [0])

/-! ### The identity key (R125) -/

/-- HMAC-SHA-256, as FIPS 198-1 defines it (PRESUMED, log 11). -/
def hmac (key msg : List Byte) : List Byte :=
  let k := key ++ List.replicate (64 - key.length) 0
  digestBytes (Config.sha256 (k.map (· ^^^ 0x5C) ++ digestBytes (Config.sha256 (k.map (· ^^^ 0x36) ++ msg))))

/-- A number in big-endian bytes. -/
def beBytes (n x : Nat) : List Byte := (leBytes n x).reverse

/-- The counter-mode KDF of NIST SP 800-108 with HMAC-SHA-256: a 32-bit counter from 1, the label, a zero byte, an empty context
and the length in bits (the widths and the context are a DESIGN CHOICE, log 11). -/
def kdf (key label : List Byte) (n : Nat) : List Byte :=
  ((List.range (ceilDiv n 32)).flatMap fun i => hmac key (beBytes 4 (i + 1) ++ label ++ [0] ++ beBytes 4 (8 * n))).take n

/-- The label lemxel-ident. -/
def identLabel : List Byte := [0x6C, 0x65, 0x6D, 0x78, 0x65, 0x6C, 0x2D, 0x69, 0x64, 0x65, 0x6E, 0x74]

/-- SK.seed, SK.prf and PK.seed of the identity key pair (R125). -/
def identitySeed : List Byte := kdf (digestBytes Config.dsecret) identLabel 96

/-- A signature by the identity key (R125, R127). -/
def identitySign (msg : List Byte) : List Byte := Config.slhSign identitySeed msg

/-! ### Debug tokens (R130, R132) -/

/-- What every token must hold; `h` is the digest that its signer's key must have. -/
def State.tokenOk (s : State) (t : List Byte) (h : BitVec 256) : Bool :=
  let pk := (t.drop 0x20).take 64
  decide (t.length = 0x60 + 29792) && fieldOf t 0 1 == 1 && fieldOf t 3 5 == 0 &&
  fieldOf t 8 16 == (Config.sha256 (Config.slhPublic identitySeed)).toNat % 2 ^ 128 &&
  fieldOf t 0x18 8 == s.dev.dnonce.toNat && decide (Config.sha256 pk = h) && Config.slhVerify pk (t.take 0x60) ((t.drop 0x60).take 29792)

/-- DEBUG_TOKEN: a token that came through a function's mailbox and that firmware, while it runs, passes on unchanged (R130, R132,
R135; log 102); in a partition's reset its request gets status 3 (R158). A level begins, with MEAS3, when its scrubs end (R131 step 4). -/
def execDebugToken (s : State) : Res :=
  let t := s.arg.bytes
  let fn := s.arg.fn
  let part := fieldOf t 2 1
  if 16 < fn || !s.fwRuns then .next s
  else match fieldOf t 1 1 with
    | 1 =>
      let p := s.part part
      if p.rstBusy then .next (if fn = part + 1 then s.respond fn [3] else s)
      else if fn ≠ part + 1 ∨ !s.tokenOk t p.ownkh ∨ (s.hasLaunch part ∧ !p.scrubbing) then .next s
      else
        .next ((s.setPart part { p with enter := true }).scrub part)
    | 2 =>
      if fn ≠ 0 ∨ part ≠ 0 ∨ !s.tokenOk t Config.khash ∨ s.dev.vdbgoff ∨ (List.range 16).any s.hasLaunch then .next s
      else
        .next ((List.range 16).foldl (fun (s : State) p => if (s.part p).rstBusy then s else s.scrub p) { s with dev := { s.dev with vendorEnter := true } })
    | _ => .next s

end Sys2Proof.Machine
end

