-- ==== Sys2Proof/Machine/EvPower.lean ====
section
/-! DEFINITION. The power controller: limits and coasting (R32, R33, R64), the thermal trip (R34), idle-retain, wake and the
Off state (R133 to R135). -/

namespace Sys2Proof.Machine

open Sys2Proof

/-! ### Limits (R32, R33) -/

/-- A request after an evaluation: `up` and `down` say whether its limit asks for more, or for less; at level 12 with its
limit exceeded the evaluations are counted (R34). -/
def Limit.eval (l : Limit) (up down : Bool) : Limit :=
  if up then { level := min 12 (l.level + 1), full := if l.level = 12 then l.full + 1 else 0 }
  else { level := if down then l.level - 1 else l.level, full := 0 }

/-- The dies that are powered, the acting H-die among them; the other H-dies are held in reset (R21, R31). -/
def State.liveDies (s : State) : List Nat :=
  (List.range 48).filter fun p => s.good p && (s.kind p != .hDie || p == s.actingH) && (s.die p).powered

/-- The far end of the module by which a COAST order comes to a member: its neighbour towards the root, at the root its first
neighbour (log 95). -/
def State.coastFrom (s : State) (p : Nat) : Option (Nat × Nat) :=
  let d := s.die p
  ((s.links p).find? fun x => d.root || x.1 == d.parent).map (·.2)

/-- COAST goes to every member of a paceline whose level changes, for the mark Q of R64, in four frames of the neighbour that
faces it (R39). -/
def State.orderCoast (s : State) (n : Nat) : State :=
  let l := s.pl n
  if !l.formed then s
  else
    let ms := l.members
    let c := s.coastFor ms
    if c = l.coast then s
    else
      let q := roundUp ((s.die l.root).cad + 4096) 256
      ms.foldl (fun (s : State) p =>
        match s.coastFrom p with
        | some (x, m) => s.sendFour x m ctCoast (coastData c q)
        | none => s) (s.setPl n { l with coast := c })

/-- A die in the counted regime takes its level at its next group boundary (R33, R64). -/
def State.coastAlone (s : State) (p : Nat) : State :=
  let d := s.die p
  let c := s.coastFor [p]
  if d.member || c = d.coast && d.coastOwn.isNone then s else s.setDie p { d with coastOwn := some c }

/-- The levels that the requests ask for are ordered (R33). -/
def State.orderLevels (s : State) : State :=
  (List.range 16).foldl (fun (s : State) n => s.orderCoast n) (s.liveDies.foldl (fun (s : State) p => s.coastAlone p) s)

/-- The junction and stack limits of a die, with their readings (R32); the trip temperatures of R34. -/
def State.evalDie (s : State) (p : Nat) : State × Bool :=
  let d := s.die p
  let t := Config.sensor s.free
  let b := s.kind p == .bDie
  let h := if b then Config.sensor (s.free + 1) else 0
  let d := { d with
    reqJunc := d.reqJunc.eval (decide (95 < t)) (decide (t < 90))
    reqStack := d.reqStack.eval (decide (95 < h)) (decide (h < 90)) }
  ((s.useFree.useFree).setDie p d, decide (110 ≤ t) || decide (105 ≤ h) || decide (10 ≤ d.reqJunc.full) || decide (10 ≤ d.reqStack.full))

/-- The regulator of every island of a die, between 0.40 V and 0.55 V in steps of 5 mV, as the island's speed monitor asks (R31;
log 93). -/
def State.setIslands (s : State) (p : Nat) : State :=
  (List.range (s.kind p).islands).foldl (fun (s : State) i =>
    { s.useFree with dev := { s.dev with islands := SMap.set 400 s.dev.islands (8 * p + i) (400 + 5 * (Config.speed s.free % 31)) } }) s

/-- Every die in turn; whether some die trips. -/
def State.evalDies (s : State) : List Nat → State × Bool
  | [] => (s, false)
  | p :: r =>
    let x := (s.setIslands p).evalDie p
    let y := x.1.evalDies r
    (y.1, x.2 || y.2)

/-- A trip that the limits call for (R34). -/
def State.tripIf (s : State) (b : Bool) : State := if b then s.raise .thermalTrip {} else s

/-- POWER_LIMIT_EVALUATION (R32, R33): every 1 ms. -/
def execPowerLimitEvaluation (s : State) : Res :=
  let x := s.evalDies s.liveDies
  let s := x.1
  let w := Config.sensor s.free
  let r := s.dev.reqPkg.eval (decide (3000 < w)) (decide (w < 2900))
  let s : State := { s.useFree with dev := { s.dev with reqPkg := r } }
  .next (s.orderLevels.tripIf (x.2 || decide (10 ≤ r.full)))

/-- VCORE_CURRENT_EVALUATION (R32): every 10 µs, with the mean over 10 µs and that over 1 ms. The request may be lowered at
each of these evaluations too: the manual names the 10 µs beside the raising alone (DESIGN CHOICE, log 96). -/
def execVcoreCurrentEvaluation (s : State) : Res :=
  let r := s.dev.reqVcore.eval (decide (5800 < Config.sensor s.free)) (decide (Config.sensor (s.free + 1) < 5400))
  let s : State := { s.useFree.useFree with dev := { s.dev with reqVcore := r } }
  .next (s.orderLevels.tripIf (decide (1000 ≤ r.full)))

/-! ### The trip (R34) -/

/-- Running launches of a partition are aborted by a trip, with one record, about the lowest slot among them (R34; its
subcode is 0, DESIGN CHOICE, log 47). -/
def State.tripPart (s : State) (part : Nat) : State :=
  let ns := (s.slotsOf part).filter fun n => (s.slot n).qcb.state == 2
  match ns with
  | [] => s
  | n :: _ => ns.foldl (fun (s : State) n => (s.dropLaunch n).faultSlot n) (s.slotRecord (s.launchReport n 0x16 0))

/-- THERMAL_TRIP (R34): running launches are aborted, every die but the always-on island is off, and PF vector 0 is
raised. -/
def execThermalTrip (s : State) : Res :=
  if s.dev.power = .sleep ∨ s.dev.power = .off ∨ s.dev.power = .trip then .next s
  else .next ((((List.range 16).foldl (fun (s : State) p => s.tripPart p) s).powerDown .trip).signal 0 0)

/-! ### Waking (R34, R133 to R135) -/

/-- A partition's measurements are rebuilt from its retained map, queue list, OWNKH and epoch (R135). -/
def State.remeasure (s : State) (part : Nat) : State :=
  let p := s.part part
  let s := s.setPart part { p with pmeas := [], customer := false, enter := false }
  let s := if p.lock then s.extendPart part 0 p.mapBytes else s
  let s := if p.tdisp = 1 ∨ p.tdisp = 2 then s.extendPart part 1
      (((List.range 4096).filter fun q => s.owns part q).flatMap fun q => leBytes 2 q) else s
  let s := if p.ownkh = 0 then s else s.extendPart part 2 (digestBytes p.ownkh)
  if p.epoch = 0 then s else s.extendPart part 3 (leBytes 8 p.epoch)

/-- Every die is powered again, and the ROM boots with WAKE = 1, `n` bytes of the flash being readable; a scrub that the trip
interrupted restarts from its step 2, and a partition reset goes on at its step 4 (R131, R135, R160). -/
def State.wakeUp (s : State) (n : Nat) : State :=
  let s := { s with
    dev := { s.dev with power := .active, meas := [], bootWake := 1, bootDbg := 0, bootErr := 0, spdm := [], reqPkg := {}, reqVcore := {} }
    dies := s.dies.map fun (e : Nat × Die) => (e.1, { e.2 with powered := true }) }
  let s := (List.range 16).foldl (fun (s : State) p => s.remeasure p) s
  let s := s.startClocks.trainLinks.runRom n
  (List.range 16).foldl (fun (s : State) p =>
    if (s.part p).scrubbing then s.scrubDies p else if (s.part p).rstBusy then s.scrub p else s) s

/-- TRIP_EXIT (R34): on the host's request, `ok` telling that every sensor reads below 85 °C. -/
def execTripExit (s : State) : Res := if s.dev.power = .trip ∧ s.arg.ok then .next (s.wakeUp flashImage.len) else .next s

/-- WAKE_FROM_SLEEP (R133, R135); `ok` is false where the flash cannot be read. -/
def execWakeFromSleep (s : State) : Res := if s.dev.power = .sleep then .next (s.wakeUp s.arg.flashBytes) else .next s

/-- No hub holds an item, no paceline is formed, and no slot has work for the dies (R133; the last is the model's condition for
gating, log 41). -/
def State.restful (s : State) : Bool :=
  (s.hubs.all fun e => e.2.item.isNone) && (s.pls.all fun e => !e.2.formed) &&
  s.slots.all fun e => e.2.qcb.state != 1 && e.2.qcb.state != 2

/-- Every island of every die outside the H-die has its clock gated, or clocked again (R31, R133). -/
def State.gateDies (s : State) (b : Bool) : State :=
  { s with dies := (List.range 48).foldl (fun (m : SMap Die) p =>
      if s.good p && s.kind p != .hDie then SMap.put m p { SMap.get {} m p with gates := if b then 2 ^ (s.kind p).islands - 1 else 0 } else m) s.dies }

/-- IDLE_RETAIN_ENTRY (R133): the power controller gates the dies' clocks; once they have been gated for 1 ms, the event with the
time in `n`, the device is in idle-retain. -/
def execIdleRetainEntry (s : State) : Res :=
  if s.dev.power ≠ .active ∨ !s.restful then .next s
  else
    match s.dev.gatedAt with
    | none =>
      let s := { s.gateDies true with dev := { s.dev with gatedAt := some s.cy } }
      .next (s.after (1000 * Config.cyPerUs) .idleRetainEntry { n := s.cy })
    | some t =>
      if s.arg.n = t ∧ t + 1000 * Config.cyPerUs ≤ s.cy then .next { s with dev := { s.dev with power := .idleRetain, gatedAt := none } }
      else .next s

/-- WAKE_FROM_IDLE (R133, R135): the dies are clocked, within 20 µs; nothing is lost. -/
def execWakeFromIdle (s : State) : Res :=
  if s.dozing then .next { s.gateDies false with dev := { s.dev with power := .active, gatedAt := none } } else .next s

/-- POWER_OFF (R133, R134): loss of VAON. Nothing is kept but the fuses, the flash and what lies outside. -/
def execPowerOff (s : State) : Res :=
  let t := s.cold
  .next { t with dev := { t.dev with power := .off } }

end Sys2Proof.Machine
end

