-- ==== Sys2Proof/Machine/Firmware.lean ====
section
/-! DEFINITION. What the shipped firmware does of its own accord: it maps queues onto slots (R146, R147, R154, R520) and
answers an expired watchdog (R155). It acts in the H-die cycle of every µs (DESIGN CHOICE, log 48). -/

namespace Sys2Proof.Machine

open Sys2Proof

/-! ### Watchdogs (R155, R160) -/

/-- Firmware's answer to WDX of a slot: ABORT once the launch is suspended, and GO to PARTRSTp when the grace clock
reaches GRACE; where the queue is faulted, WDX is cleared. A WDX that a partition reset has left set (R512) is cleared once the
slot's next launch runs (DESIGN CHOICE, log 112). -/
def State.answerDog (s : State) (n : Nat) : State :=
  let x := s.slot n
  if !x.valid || !x.wdx then s
  else match x.qcb.state with
    | 2 => if 0 < x.qcb.wrem then s.setSlot n { x with wdx := false }
        else if s.dev.graceUs ≤ x.grace ∧ !(s.part x.qcb.part).rstBusy
        then s.raise .partitionReset { part := x.qcb.part, n := n + 1 } else s
    | 3 => s.raise .slotAbort { slot := n }
    | 4 => s.setSlot n { x with wdx := false }
    | _ => s

/-! ### Mapping (R146) -/

/-- Pending queues of a partition. -/
def State.pendingOf (s : State) (part : Nat) : List Nat :=
  (s.dev.pend.filterMap fun (e : Nat × Bool) => if e.2 && s.owns part e.1 && (s.heldBy e.1).isNone then some e.1 else none)

/-- W in µs: the time since a queue's pending bit was set. -/
def State.waited (s : State) (q : Nat) : Nat := (s.cy - SMap.get s.cy s.dev.pendAt q) / Config.cyPerUs

/-- The effective priority of a pending queue. -/
def State.effPrio (s : State) (q : Nat) : Nat := min 7 ((s.image q).cap + s.waited q / s.dev.ageStep)

/-- The pending queue with the highest effective priority; ties go to the lower QID. -/
def State.bestQueue (s : State) : List Nat → Option Nat
  | [] => none
  | q :: r =>
    match s.bestQueue r with
    | none => some q
    | some b => if s.effPrio q < s.effPrio b ∨ (s.effPrio q = s.effPrio b ∧ b < q) then some b else some q

/-- The lowest-numbered empty slot. -/
def State.emptyOne (s : State) : Option Nat := (List.range 16).find? fun n => !(s.slot n).valid

/-- A slot that is idle with TAIL = HEAD after a SAVE: the lowest of the partition. -/
def State.evictable (s : State) (part : Nat) : Option Nat :=
  (s.slotsOf part).find? fun n =>
    let q := (s.slot n).qcb
    q.state == 0 && (s.qreg q.qid).2.2.2.2 == q.head

/-- The fetching or suspended slot with the lowest PRIO, ties to the highest slot. -/
def State.leastSlot (s : State) : List Nat → Option Nat
  | [] => none
  | n :: r =>
    let st := (s.slot n).qcb.state
    match s.leastSlot r with
    | none => if st = 1 ∨ st = 3 then some n else none
    | some m => if (st = 1 ∨ st = 3) ∧ (s.slot n).qcb.prio < (s.slot m).qcb.prio then some n else some m

/-- The save area that firmware sets in an image: the lowest bound B-die, a 2 GiB window for each QID modulo 16 from
byte 0 (R154; DESIGN CHOICE, log 49). -/
def State.saveArea (s : State) (part q : Nat) : Nat :=
  let i := ((List.range 8).find? fun i => match s.phys part (5 + i) with
    | some p => s.kind p == .bDie
    | none => false).getD 0
  i * 2 ^ 36 + q % 16 * 2 ^ 31

/-- The image that firmware restores: a launch that was lost while its queue lay in no slot leaves it faulted, HEAD + 1
(R520), with VF vector 3 (R119). -/
def State.readyImage (s : State) (part q : Nat) : State :=
  let b := s.image q
  if b.state = 3 then (if s.imageOk b then s
    else ((s.setImage q { b with state := 4, head := (b.head + 1) % 2 ^ 32 }).signal (part + 1) 3).interrupt part 3)
  else s.setImage q { b with savep := s.saveArea part q }

/-- RESTORE of a queue into a slot. -/
def State.mapInto (s : State) (part q n : Nat) : State := (s.readyImage part q).raise .slotRestore { slot := n, off := imageAt q }

/-- SAVE of a slot, then RESTORE of a queue there. -/
def State.swapInto (s : State) (part q n : Nat) : State :=
  (s.raise .slotSave { slot := n, off := imageAt (s.slot n).qcb.qid }).mapInto part q n

/-- One mapping of a partition (R146): where no slot is free or evictable, a queue that has waited 8 × AGESTEP takes the slot of the
least fetching or suspended one. -/
def State.mapQueues (s : State) (part : Nat) : State :=
  let p := s.part part
  let s := match p.evict with
    | some n => (if p.parked || p.suspended || p.suspReq || p.rstBusy then s else s.setHold n false).setPart part { p with evict := none }
    | none => s
  if p.parked || p.suspended || p.suspReq || p.rstBusy then s
  else
    let qs := s.pendingOf part
    match s.bestQueue qs with
    | none => s
    | some q =>
      match (if (s.slotsOf part).length < p.quota then s.emptyOne else none) with
      | some n => s.mapInto part q n
      | none =>
        match s.evictable part with
        | some n => s.swapInto part q n
        | none =>
          match s.bestQueue (qs.filter fun x => decide (8 * s.dev.ageStep ≤ s.waited x)), s.leastSlot (s.slotsOf part) with
          | some w, some n => ((s.setHold n true).setPart part { s.part part with evict := some n }).swapInto part w n
          | _, _ => s

/-- Firmware clears HOLD after a partition reset once every paceline that it forms again is formed, or is refused (R158, R514). -/
def State.settleReset (s : State) (part : Nat) : State :=
  let p := s.part part
  if p.rstBusy || p.reform.isEmpty || p.reform.any fun n => (s.pl n).form && !(s.pl n).formed then s else s.clearHolds part

/-- What firmware does in one µs. -/
def State.firmware (s : State) : State :=
  if !s.fwRuns then s
  else
    let s := { s with dev := { s.dev with mgmtIrq := [] } }
    let s := (List.range 16).foldl (fun (s : State) n => s.answerDog n) s
    (List.range 16).foldl (fun (s : State) p => (s.settleReset p).mapQueues p) s

end Sys2Proof.Machine
end

