-- ==== Sys2Proof/Machine/VectorFp.lean ====
section
/-! DEFINITION. Floating-point vector words (R392 to R394) with their tangents (R314 to R316). -/

namespace Sys2Proof.Machine

open Sys2Proof

/-- Negation of a pattern: NaN gives the canonical NaN (R394). -/
def Fmt.negate (f : Fmt) (x : Nat) : Nat :=
  if f.isNan x then f.nan else if x.testBit (f.e + f.m) then x - f.signBit else x + f.signBit
/-- Magnitude of a pattern: NaN gives the canonical NaN (R394). -/
def Fmt.magnitude (f : Fmt) (x : Nat) : Nat := if f.isNan x then f.nan else x % f.signBit

/-- The operations of R392 to R394, MIN and MAX apart. -/
inductive FpOp
  | add | sub | mul | div | fma | sqrt | rcp | rsqrt | exp2 | log2 | ln | tanh | neg | abs
  deriving DecidableEq, Repr

/-- How a word rounds: format, RM and FTZ (R298, R301, R303). -/
structure Rounding where
  f : Fmt
  rm : Nat
  ftz : Bool

def Rounding.out (x : Rounding) (v : Nat) : Nat := x.f.flush x.ftz v
def Rounding.add (x : Rounding) (a b : Nat) : Nat := x.out (x.f.add x.rm a b)
def Rounding.sub (x : Rounding) (a b : Nat) : Nat := x.out (x.f.sub x.rm a b)
def Rounding.mul (x : Rounding) (a b : Nat) : Nat := x.out (x.f.mul x.rm a b)
def Rounding.div (x : Rounding) (a b : Nat) : Nat := x.out (x.f.div x.rm a b)
/-- A constant in the format (R315). -/
def Rounding.const (x : Rounding) (neg : Bool) (m : Nat) (e : Int) : Nat := x.f.round .arith 0 (.num neg m e false)
/-- A NaN tangent is canonical (R314). -/
def Rounding.canon (x : Rounding) (v : Nat) : Nat := if x.f.isNan v then x.f.nan else v

/-- The primal result on operands already flushed (R392, R394). -/
def FpOp.primal (op : FpOp) (x : Rounding) (a b c : Nat) : Nat :=
  let f := x.f
  match op with
  | .add => x.add a b
  | .sub => x.sub a b
  | .mul => x.mul a b
  | .div => x.div a b
  | .fma => x.out (f.fma x.rm a b c)
  | .sqrt => x.out (f.sqrt x.rm a)
  | .rcp => x.out (f.recip x.rm a)
  | .rsqrt => x.out (f.rsqrt x.rm a)
  | .exp2 => x.out (f.exp2 x.rm (f.decode a))
  | .log2 => x.out (f.log2 x.rm (f.decode a))
  | .ln => x.out (f.ln x.rm (f.decode a))
  | .tanh => x.out (f.tanh x.rm (f.decode a))
  | .neg => f.negate a
  | .abs => f.magnitude a

/-- The sum of the terms that are present (R316). -/
def Rounding.sum (x : Rounding) (u v : Option Nat) : Option Nat :=
  match u, v with
  | none, w => w
  | w, none => w
  | some u, some v => some (x.add u v)

/-- The tangent of a result (R315, R316): `ta`, `tb`, `tc` are absent for a constant operand; +0 when nothing is
left. -/
def FpOp.tangent (op : FpOp) (x : Rounding) (a b y : Nat) (ta tb tc : Option Nat) : Nat :=
  let f := x.f
  let r : Option Nat :=
    match op with
    | .add => x.sum ta tb
    | .sub =>
      match ta, tb with
      | some u, some v => some (x.sub u v)
      | none, some v => some (f.negate v)
      | u, none => u
    | .mul => x.sum (ta.map fun t => x.mul t b) (tb.map fun t => x.mul a t)
    | .fma => x.sum (x.sum (ta.map fun t => x.mul t b) (tb.map fun t => x.mul a t)) tc
    | .div =>
      let n : Option Nat :=
        match ta, tb with
        | some u, some v => some (x.sub u (x.mul y v))
        | none, some v => some (f.negate (x.mul y v))
        | u, none => u
      n.map fun t => x.div t b
    | .sqrt => ta.map fun t => x.div t (x.mul (x.const false 2 0) y)
    | .rsqrt => ta.map fun t => x.mul (x.mul (x.const true 1 (-1)) (x.mul (x.mul y y) y)) t
    | .rcp => ta.map fun t => f.negate (x.mul (x.mul y y) t)
    | .exp2 => ta.map fun t => x.mul (x.mul y f.ln2) t
    | .log2 => ta.map fun t => x.div t (x.mul a f.ln2)
    | .ln => ta.map fun t => x.div t a
    | .tanh => ta.map fun t => x.mul (x.sub (x.const false 1 0) (x.mul y y)) t
    | .neg => ta.map f.negate
    | .abs => ta.map fun t => if a.testBit (f.e + f.m) then f.negate t else t
  x.canon (r.getD 0)

/-- The rounding of a vector word. -/
def VCtx.rounding (c : VCtx) (rm : Nat) : Rounding := ⟨c.ety.fmt, rm, c.ftz⟩

/-- A tangent operand: absent when the TAN prefix marks the operand constant (R412). -/
def VCtx.tanOf (c : VCtx) (const : Bool) (j r i : Nat) : Option Nat := if const then none else some (c.ftan j r i)

/-- Element i of an FP word of up to three sources (R392, R394). -/
def VCtx.fpElt (c : VCtx) (op : FpOp) (n rm a b e i : Nat) : Elt :=
  let x := c.rounding rm
  let va := c.fsrc a i
  let vb := if 2 ≤ n then c.fsrc b i else 0
  let vc := if 3 ≤ n then c.fsrc e i else 0
  let y := op.primal x va vb vc
  { i := i, v := y, p := c.pois a i || (decide (2 ≤ n) && c.pois b i) || (decide (3 ≤ n) && c.pois e i)
    ts := c.ks.map fun j =>
      op.tangent x va vb y (c.tanOf c.tan.ca j a i)
        (if 2 ≤ n then c.tanOf c.tan.cb j b i else none) (if 3 ≤ n then c.tanOf c.tan.cc j e i else none) }

/-- An FP word of `n` sources (R392). -/
def fpWord (op : FpOp) (n l : Nat) (d a b e : R5) (m : BitVec 3) (rm : Nat) (s : State) : State :=
  vecWord (some ⟨true, decide (2 ≤ n), decide (3 ≤ n), true⟩) isFpTy m.toNat l [d.toNat]
    (fun c => c.emit d.toNat ((c.actives m.toNat).map fun i => c.fpElt op n rm a.toNat b.toNat e.toNat i)) s

/-- VADD (R392). -/
def execVadd (d a b : R5) (m : BitVec 3) (r : BitVec 2) (s : State) : Res := .next (fpWord .add 2 4 d a b 0 m (rmOf r) s)
/-- VSUB (R392). -/
def execVsub (d a b : R5) (m : BitVec 3) (r : BitVec 2) (s : State) : Res := .next (fpWord .sub 2 4 d a b 0 m (rmOf r) s)
/-- VMUL (R392). -/
def execVmul (d a b : R5) (m : BitVec 3) (r : BitVec 2) (s : State) : Res := .next (fpWord .mul 2 4 d a b 0 m (rmOf r) s)
/-- VDIV (R392). -/
def execVdiv (d a b : R5) (m : BitVec 3) (r : BitVec 2) (s : State) : Res := .next (fpWord .div 2 14 d a b 0 m (rmOf r) s)
/-- VFMA (R392). -/
def execVfma (d a b c : R5) (m : BitVec 3) (r : BitVec 2) (s : State) : Res := .next (fpWord .fma 3 5 d a b c m (rmOf r) s)
/-- VSQRT (R392). -/
def execVsqrt (d a : R5) (m : BitVec 3) (r : BitVec 2) (s : State) : Res := .next (fpWord .sqrt 1 14 d a 0 0 m (rmOf r) s)
/-- VRCP (R392). -/
def execVrcp (d a : R5) (m : BitVec 3) (r : BitVec 2) (s : State) : Res := .next (fpWord .rcp 1 12 d a 0 0 m (rmOf r) s)
/-- VRSQRT (R392). -/
def execVrsqrt (d a : R5) (m : BitVec 3) (r : BitVec 2) (s : State) : Res := .next (fpWord .rsqrt 1 12 d a 0 0 m (rmOf r) s)
/-- VEXP2 (R392). -/
def execVexp2 (d a : R5) (m : BitVec 3) (r : BitVec 2) (s : State) : Res := .next (fpWord .exp2 1 12 d a 0 0 m (rmOf r) s)
/-- VLOG2 (R392). -/
def execVlog2 (d a : R5) (m : BitVec 3) (r : BitVec 2) (s : State) : Res := .next (fpWord .log2 1 12 d a 0 0 m (rmOf r) s)
/-- VLN (R392). -/
def execVln (d a : R5) (m : BitVec 3) (r : BitVec 2) (s : State) : Res := .next (fpWord .ln 1 12 d a 0 0 m (rmOf r) s)
/-- VTANH (R392). -/
def execVtanh (d a : R5) (m : BitVec 3) (r : BitVec 2) (s : State) : Res := .next (fpWord .tanh 1 12 d a 0 0 m (rmOf r) s)
/-- VNEG (R394). -/
def execVneg (d a : R5) (m : BitVec 3) (s : State) : Res := .next (fpWord .neg 1 4 d a 0 0 m 0 s)
/-- VABS (R394). -/
def execVabs (d a : R5) (m : BitVec 3) (s : State) : Res := .next (fpWord .abs 1 4 d a 0 0 m 0 s)

/-- Element i of VMIN or VMAX: the operand taken brings its tangents, a constant one +0; NaN gives canonical NaN
throughout (R393, R412). -/
def VCtx.minmaxElt (c : VCtx) (max : Bool) (a b i : Nat) : Elt :=
  let f := c.ety.fmt
  let x := c.rounding 0
  let va := c.fsrc a i
  let vb := c.fsrc b i
  let t := fun (const : Bool) (r : Nat) => c.ks.map fun j => if const then 0 else x.canon (c.ftan j r i)
  match f.pick max va vb with
  | none => ⟨i, f.nan, c.pois a i || c.pois b i, c.ks.map fun _ => if c.tan.ca && c.tan.cb then 0 else f.nan⟩
  | some false => ⟨i, va, c.pois a i || c.pois b i, t c.tan.ca a⟩
  | some true => ⟨i, vb, c.pois a i || c.pois b i, t c.tan.cb b⟩

/-- VMIN and VMAX (R393). -/
def minmaxWord (max : Bool) (d a b : R5) (m : BitVec 3) (s : State) : State :=
  vecWord (some ⟨true, true, false, true⟩) isFpTy m.toNat 4 [d.toNat]
    (fun c => c.emit d.toNat ((c.actives m.toNat).map fun i => c.minmaxElt max a.toNat b.toNat i)) s

/-- VMIN (R393). -/
def execVmin (d a b : R5) (m : BitVec 3) (s : State) : Res := .next (minmaxWord false d a b m s)
/-- VMAX (R393). -/
def execVmax (d a b : R5) (m : BitVec 3) (s : State) : Res := .next (minmaxWord true d a b m s)

end Sys2Proof.Machine
end

