-- ==== Sys2Proof/Machine/VectorRed.lean ====
section
/-! DEFINITION. Vector reductions and scans (R309 to R311, R403). -/

namespace Sys2Proof.Machine

open Sys2Proof

/-- One level of the tree of R309: adjacent pairs, lower index first; absent members pass their partner up. -/
def treeLevel {α : Type} (f : α → α → α) : List (Option α) → List (Option α)
  | [] => []
  | [x] => [x]
  | none :: y :: r => y :: treeLevel f r
  | some x :: none :: r => some x :: treeLevel f r
  | some x :: some y :: r => some (f x y) :: treeLevel f r

/-- The levels of the tree. -/
def treeUp {α : Type} (f : α → α → α) : Nat → List (Option α) → Option α
  | 0, l => (l.head?).join
  | n + 1, l => if l.length ≤ 1 then (l.head?).join else treeUp f n (treeLevel f l)

/-- The fixed binary tree of R309. -/
def tree {α : Type} (f : α → α → α) (l : List (Option α)) : Option α := treeUp f l.length l

/-- Elements of a segment: SEGW as it is read (R275, R403). -/
def VCtx.segLen (c : VCtx) : Nat := if c.h.shape.segw = 0 then c.vl else 2 ^ (min c.h.shape.segw 12)
/-- Segments S (R403). -/
def VCtx.segs (c : VCtx) : Nat := if c.vl = 0 then 0 else ceilDiv c.vl c.segLen
/-- The element indices of segment q. -/
def VCtx.segment (c : VCtx) (q : Nat) : List Nat :=
  (List.range (min c.segLen (c.vl - q * c.segLen))).map (· + q * c.segLen)
/-- The present elements of segment q. -/
def VCtx.present (c : VCtx) (m q : Nat) : List Nat := (c.segment q).filter fun i => c.h.maskBit m i
/-- Some present element of segment q is poisoned (R254). -/
def VCtx.segPois (c : VCtx) (m a q : Nat) : Bool := (c.present m q).any fun i => c.pois a i

/-- a + b of the ETYPE: FP by RNE with FTZ, integers wrap (R309). -/
def VCtx.plus (c : VCtx) (x y : Nat) : Nat :=
  match c.ety with
  | .fp _ => (c.rounding 0).add x y
  | .int t => (x + y) % 2 ^ t.bits

/-- An element of plane `t` as a reduction reads it. -/
def VCtx.red (c : VCtx) (t r i : Nat) : Nat := if c.ety.isFp then c.ftan t r i else c.get t r i

/-- A NaN tangent of a result is canonical (R314). -/
def VCtx.canonTan (c : VCtx) (v : Nat) : Nat := (c.rounding 0).canon v

/-- VRSUM (R403). -/
def execVrsum (d a : R5) (m : BitVec 3) (s : State) : Res :=
  .next (vecWord (some ⟨true, false, false, true⟩) anyTy m.toNat 12 [d.toNat]
    (fun c => c.emit d.toNat ((List.range c.segs).map fun q =>
      let sum := fun t => (tree c.plus ((c.segment q).map fun i => if c.h.maskBit m.toNat i then some (c.red t a.toNat i) else none)).getD 0
      ⟨q, sum c.plane, c.segPois m.toNat a.toNat q,
        c.ks.map fun t => if c.ety.isFp && !c.tan.ca then c.canonTan (sum t) else 0⟩)) s)

/-- MAX or MIN of two elements with their tangents (R301, R315). -/
def VCtx.best (c : VCtx) (max : Bool) (x y : Nat × List Nat) : Nat × List Nat :=
  match c.ety with
  | .fp f =>
    match f.pick max x.1 y.1 with
    | none => (f.nan, x.2.map fun _ => f.nan)
    | some false => x
    | some true => y
  | .int t =>
    if max then (if t.decode x.1 < t.decode y.1 then y else x) else (if t.decode y.1 < t.decode x.1 then y else x)

/-- VRMAX and VRMIN (R403). -/
def extremeWord (max : Bool) (d a : R5) (m : BitVec 3) (s : State) : State :=
  vecWord (some ⟨true, false, false, true⟩) anyTy m.toNat 12 [d.toNat]
    (fun c => c.emit d.toNat ((List.range c.segs).map fun q =>
      let r := tree (c.best max) ((c.segment q).map fun i =>
        if c.h.maskBit m.toNat i then some (c.red c.plane a.toNat i, c.ks.map fun t => c.red t a.toNat i) else none)
      let r := r.getD (if c.ety.isFp then c.ety.fmt.nan else 0, c.ks.map fun _ => 0)
      ⟨q, r.1, c.segPois m.toNat a.toNat q, if c.ety.isFp && !c.tan.ca then r.2.map c.canonTan else c.noTan⟩)) s

/-- VRMAX (R403). -/
def execVrmax (d a : R5) (m : BitVec 3) (s : State) : Res := .next (extremeWord true d a m s)
/-- VRMIN (R403). -/
def execVrmin (d a : R5) (m : BitVec 3) (s : State) : Res := .next (extremeWord false d a m s)

/-- The inclusive prefix over present elements in ascending order (R310). -/
def scanFrom (f : Nat → Nat → Nat) : Option Nat → List Nat → List Nat
  | _, [] => []
  | none, x :: r => x :: scanFrom f (some x) r
  | some y, x :: r => f y x :: scanFrom f (some (f y x)) r

/-- VSCAN (R403). -/
def execVscan (d a : R5) (m : BitVec 3) (s : State) : Res :=
  .next (vecWord (some ⟨true, false, false, true⟩) anyTy m.toNat 12 [d.toNat]
    (fun c => c.emit d.toNat ((List.range c.segs).flatMap fun q =>
      let is := c.present m.toNat q
      let scan := fun t => scanFrom c.plus none (is.map fun i => c.red t a.toNat i)
      let prim := scan c.plane
      let tans := c.ks.map fun t => if c.ety.isFp && !c.tan.ca then (scan t).map c.canonTan else is.map fun _ => 0
      is.zipIdx.map fun x =>
        ⟨x.1, prim.getD x.2 0, c.segPois m.toNat a.toNat q, tans.map fun l => l.getD x.2 0⟩)) s)

/-- `x` ranks above `y` in VARGMAX: NaN above every other value, zeros equal (R311). -/
def VCtx.above (c : VCtx) (x y : Nat) : Bool :=
  match c.ety with
  | .fp f => if f.isNan y then false else f.isNan x || f.lt y x
  | .int t => decide (t.decode y < t.decode x)

/-- The index of the greatest of the present elements, the lowest on a tie (R311). -/
def VCtx.argmax (c : VCtx) (a : Nat) : List Nat → Nat → Nat
  | [], b => b
  | i :: r, b => c.argmax a r (if c.above (c.red 0 a i) (c.red 0 a b) then i else b)

/-- The writes of a 32-bit slot: none beyond the register (R403). -/
def VCtx.slotWrites (c : VCtx) (d q v : Nat) (p : Bool) : List VWrite :=
  if 4 * q + 4 ≤ c.len then c.writes d (4 * q) 4 v p c.noTan else []

/-- VARGMAX (R311, R403). -/
def execVargmax (d a : R5) (m : BitVec 3) (s : State) : Res :=
  .next (vecWord none anyTy m.toNat 12 [d.toNat]
    (fun c => (List.range c.segs).flatMap fun q =>
      let v := match c.present m.toNat q with
        | [] => 0xFFFFFFFF
        | i :: r => c.argmax a.toNat r i
      c.slotWrites d.toNat q v (c.segPois m.toNat a.toNat q)) s)

/-- VPOPNZ (R304, R403). -/
def execVpopnz (d a : R5) (m : BitVec 3) (s : State) : Res :=
  .next (vecWord none anyTy m.toNat 12 [d.toNat]
    (fun c => (List.range c.segs).flatMap fun q =>
      c.slotWrites d.toNat q ((c.present m.toNat q).countP fun i => c.ety.nonzero (c.get 0 a.toNat i))
        (c.segPois m.toNat a.toNat q)) s)

/-- Bits as a number, the first the least significant. -/
def ofBits : List Bool → Nat
  | [] => 0
  | b :: r => bitOf b + 2 * ofBits r

/-- VNZMAP (R304, R403): bits beyond VL′ of the last byte keep their values; every element that holds a written bit takes tangent +0. -/
def execVnzmap (d a : R5) (m : BitVec 3) (s : State) : Res :=
  .next (vecWord none anyTy m.toNat 12 [d.toNat]
    (fun c =>
      let p := (c.actives m.toNat).any fun i => c.pois a.toNat i
      let bytes := ceilDiv c.vl 8
      ((List.range bytes).map fun q =>
        let n := min 8 (c.vl - 8 * q)
        let v := ofBits ((List.range n).map fun j => c.active m.toNat (8 * q + j) && c.ety.nonzero (c.get 0 a.toNat (8 * q + j)))
        (⟨d.toNat, 0, q, leBytes 1 v, some p, 2 ^ n - 1⟩ : VWrite)) ++
      c.ks.map fun t => ⟨d.toNat, t, 0, List.replicate (roundUp bytes c.w) 0, none, 255⟩) s)

end Sys2Proof.Machine
end

