-- ==== Sys2Proof/Machine/Drafting.lean ====
section
/-! DEFINITION. The drafting unit (R265, R266, R289, R312, R318, R464 to R475). -/

namespace Sys2Proof.Machine

open Sys2Proof

/-! ### Maps and keys (R465, R468) -/

/-- Map m of a hub. -/
def Hub.map (h : Hub) (m : Nat) : DMap := SMap.get {} h.maps m

def DMap.to (m : DMap) (t : Nat) : Nat := m.e.getD t 0
def DMap.size (m : DMap) (t : Nat) : Nat := m.s.getD t 0
def DMap.live (m : DMap) (t : Nat) : Bool := m.v.getD t false
/-- Members of group u, ascending. -/
def DMap.members (m : DMap) (u : Nat) : List Nat := (List.range m.nin).filter fun t => decide (m.to t = u)
/-- Σ S(t) over E(t) = u. -/
def DMap.groupSize (m : DMap) (u : Nat) : Nat := ((m.members u).map m.size).sum
/-- Survivors, ascending. -/
def DMap.survivors (m : DMap) : List Nat := (List.range m.nin).filter m.live

/-- A strictly ascending list. -/
def ascending : List Nat → Bool
  | [] => true
  | [_] => true
  | x :: y :: r => decide (x < y) && ascending (y :: r)

/-- A well-formed map (R465). -/
def DMap.wellFormed (m : DMap) : Bool :=
  decide (1 ≤ m.nin ∧ m.nin ≤ 65536) && decide (1 ≤ m.nout ∧ m.nout ≤ 65536) &&
  (List.range m.nin).all (fun t => decide (m.to t < m.nout) && decide (1 ≤ m.size t ∧ m.size t ≤ 2 ^ 24)) &&
  (List.range m.nout).all (fun u => decide (((m.members u).filter m.live).length = 1) && decide (m.groupSize u ≤ 2 ^ 24)) &&
  ascending (m.survivors.map m.to)

/-- A command that reads map m finds it lost: subcode 1 after a pre-emption without draft-save, else 2 (R239, R265). -/
def Hub.mapLost (h : Hub) (m : Nat) : Option Nat :=
  let x := h.map m
  if x.wgen = x.gen then none else if x.lost then some 1 else some 2

/-- Byte width of KT, and its format. -/
def keyBytes (kt : Nat) : Nat := if kt = 2 then 4 else 2
def keyFmt (kt : Nat) : Fmt := match kt with | 0 => bf16 | 1 => fp16 | _ => fp32
/-- RSk and RSx of R466. -/
def Keys.row (k : Keys) : Nat := roundUp (k.w * keyBytes k.kt) 64
def rowSize (dw : Nat) : Nat := roundUp (dw * 4) 64
/-- Z of R473. -/
def imageSize (nin : Nat) : Nat := 64 + 64 * (ceilDiv (2 * nin) 64 + ceilDiv (4 * nin) 64 + ceilDiv nin 512)

/-! ### Starting a command (R466, R467) -/

/-- A span of a command: offset, bytes, written, and with tangent images. -/
structure DSpan where
  off : Nat
  len : Nat
  wr : Bool
  planes : Bool := false

/-- What a command brings to its checks at S: the maps that it reads, whether it needs a key descriptor, whether
lengths agree, its spans, its map register and D. -/
structure DPlan where
  reads : List Nat
  keys : Bool := false
  agree : Bool := true
  spans : List DSpan := []
  reg : Nat := 0
  d : Nat

/-- A fault of the command at hand: it writes nothing and pushes nothing, and the unit may start the next command
in the following scy (R467). `num` is its number where it has one. -/
def State.drFault (s : State) (die hub kind sub reg : Nat) (num : Option Nat) : State :=
  let h := s.hub die hub
  let f : FaultAt := ⟨kind, sub, 6, h.drDetail reg, s.markOf die⟩
  let s := s.takeFaultAs die hub f [] num
  let h := s.hub die hub
  let now := (s.die die).cad
  let s := (s.setHub die hub { h with portServed := h.portServed + 1 }).setDie die
    { s.die die with draft := none, draftGo := none, draftEnd := now }
  s.post die (now + 1) 0 0 6 (.ev .draftingCommandStart { die := die })

/-- The span check of R467, order 4: subcode 3, or 9 for an image. -/
def State.drBounds (s : State) (die k stride : Nat) (xs : List DSpan) : Option Nat :=
  let size := (s.kind die).scratchSize
  if xs.any fun x => decide (size < x.off + x.len) then some 3
  else if k ≠ 0 ∧ xs.any fun x => x.planes && (decide (stride = 0) || decide (size < x.off + k * stride + x.len)) then some 9
  else none

/-- The set check of R467, order 5. -/
def State.drSets (s : State) (die hub k stride : Nat) (xs : List DSpan) : Option Nat :=
  let base := flat (homeScratch (s.kind die) die hub) 0
  xs.foldl (fun acc x => (List.range (if x.planes then k + 1 else 1)).foldl (fun acc j =>
    lowest acc (s.violation die hub 6 (if x.wr then .write else .read) (base + x.off + j * stride) x.len)) acc) none

/-- A drafting command starts: the checks of R467 in order, then its inputs at S + 2. -/
def drStart (i : Instr) (p : DPlan) (head : Nat) (s : State) : State :=
  let die := s.cur.die
  let hub := s.cur.hub
  let h := s.curHub
  let k := h.launch.tk
  let stride := h.tstride.toNat
  let num := some ((h.timeline 5).issued + 1)
  match p.reads.findSome? h.mapLost with
  | some c => s.drFault die hub 0x0F c p.reg num
  | none =>
    if p.keys && h.keys.isNone then s.drFault die hub 0x0F 4 p.reg num
    else if !p.agree then s.drFault die hub 0x0F 3 p.reg num
    else
      match s.drBounds die k stride p.spans with
      | some c => s.drFault die hub 0x0B c p.reg num
      | none =>
        match s.drSets die hub k stride p.spans with
        | some c => s.drFault die hub 0x02 c p.reg num
        | none =>
          let now := s.now
          let r : DrRun := { hub := hub, instr := i, s := now, e := now + p.d, stride := stride, head := head }
          let d := s.die die
          let s := s.setDie die { d with draft := some r, draftGo := none, draftEnd := now + p.d }
          s.post die (now + (if p.d < 2 then p.d else 2)) h.lpos hub 6 (.draft r)

/-- Ports that may be served: commands wait, the hub has not stopped (in a timed launch a core that has run out of words stops no
engine, R245), and no entry of the unit waits for the hub's
reply port (R288, R289, R475). -/
def Hub.drReady (h : Hub) : Bool :=
  !h.port.isEmpty && h.drHeld.isNone && !(h.stream 6).stopped && (h.run != .stopped || h.launch.timed) && h.run != .preempted

/-- A port may be served now: its launch is not being pre-empted (R260). -/
def State.drWaits (s : State) (die hub : Nat) : Bool :=
  (s.hub die hub).drReady && !(s.slot (s.hub die hub).launch.slot).stopping

/-- The unit of a die starts its next command: from the port after the last one served (R289, R466). -/
def execDraftingCommandStart (s : State) : Res :=
  let die := s.arg.die
  let d := s.die die
  if d.draft.isSome || d.draftGo.isSome then .next s
  else
    match ((List.range 8).map fun i => (d.draftLast + 1 + i) % 8).find? fun x => s.drWaits die x with
    | none => .next s
    | some x =>
      let h := s.hub die x
      match h.port with
      | [] => .next s
      | c :: r => .next ((s.setHub die x { h with port := r }).setDie die { d with draftLast := x, draftGo := some (x, c) })

/-! ### Commands at S -/

/-- Offset of an e field. -/
def eOff {n : Nat} (e : BitVec n) : Nat := 64 * e.toNat

/-- DKEYS (R468): D = 1. -/
def execDkeys (n : BitVec 13) (k : BitVec 2) (w : BitVec 8) (e : BitVec 17) (s : State) : Res :=
  .next (drStart (.dkeys n k w e) { reads := [], d := 1 } 0 s)

/-- DMATCH (R469). -/
def execDmatch (d m : BitVec 3) (u : BitVec 1) (r : BitVec 13) (p : BitVec 1) (e : BitVec 17) (s : State) : Res :=
  let h := s.curHub
  let k := h.keys.getD ⟨1, 1, 0, 0⟩
  let keys : DSpan := { off := k.base, len := (k.n - 1) * k.row + k.w * keyBytes k.kt, wr := false }
  let prot : List DSpan := if p = 1 then [{ off := eOff e, len := ceilDiv k.n 8, wr := false }] else []
  .next (drStart (.dmatch d m u r p e)
    { reads := if u = 1 then [] else [m.toNat], keys := true
      agree := u == 1 || (h.map m.toNat).nout == k.n
      spans := keys :: prot, reg := d.toNat
      d := 24 + k.n * (k.row / 64) + ceilDiv (ceilDiv k.n 2 * (k.n / 2) * k.w) 8192 + ceilDiv k.n 16 } 0 s)

/-- The spans and D of DMERGE and DUNMERGE (R466, R470, R471). -/
def mergePlan (m w e : Nat) (x : DMap) (inRows outRows : Nat) : DPlan :=
  let rs := rowSize w
  { reads := [m], reg := m, d := 16 + 2 * x.nin * (rs / 64)
    spans := [{ off := e, len := (inRows - 1) * rs + 4 * w, wr := false, planes := true },
              { off := e, len := (outRows - 1) * rs + 4 * w, wr := true, planes := true }] }

/-- DMERGE (R470, R474). -/
def execDmerge (m : BitVec 3) (w : BitVec 11) (e : BitVec 17) (s : State) : Res :=
  let x := s.curHub.map m.toNat
  .next (drStart (.dmerge m w e) (mergePlan m.toNat (w.toNat + 1) (eOff e) x x.nin x.nout) 0 s)

/-- DUNMERGE (R471, R474). -/
def execDunmerge (m : BitVec 3) (w : BitVec 11) (e : BitVec 17) (s : State) : Res :=
  let x := s.curHub.map m.toNat
  .next (drStart (.dunmerge m w e) (mergePlan m.toNat (w.toNat + 1) (eOff e) x x.nout x.nin) 0 s)

/-- DCOMPOSE (R472). -/
def execDcompose (d a b : BitVec 3) (s : State) : Res :=
  let h := s.curHub
  .next (drStart (.dcompose d a b)
    { reads := [a.toNat, b.toNat], agree := (h.map a.toNat).nout == (h.map b.toNat).nin, reg := d.toNat
      d := 16 + ceilDiv (h.map a.toNat).nin 32 } 0 s)

/-- DSIZES (R473, R474). -/
def execDsizes (m : BitVec 3) (e : BitVec 17) (s : State) : Res :=
  let x := s.curHub.map m.toNat
  .next (drStart (.dsizes m e)
    { reads := [m.toNat], spans := [{ off := eOff e, len := 4 * x.nout, wr := true, planes := true }], reg := m.toNat
      d := 16 + ceilDiv x.nin 32 + ceilDiv x.nout 16 } 0 s)

/-- DSAVE (R473). -/
def execDsave (m : BitVec 3) (e : BitVec 17) (s : State) : Res :=
  let z := imageSize (s.curHub.map m.toNat).nin
  .next (drStart (.dsave m e)
    { reads := [m.toNat], spans := [{ off := eOff e, len := z, wr := true }], reg := m.toNat, d := 16 + z / 64 } 0 s)

/-- DLOAD: the header doubleword at S gives NIN (R473). -/
def execDload (m : BitVec 3) (e : BitVec 17) (s : State) : Res :=
  let a := flat (homeScratch (s.kind s.cur.die) s.cur.die s.cur.hub) (eOff e)
  let s := s.eccRead s.cur.die s.cur.hub 6 s.wordDetail [(a, 8)]
  if s.poisoned a 8 then .next (s.drFault s.cur.die s.cur.hub 0x0A 3 m.toNat none)
  else
    let x := s.readNat a 8
    let z := imageSize (x % 65536 + 1)
    .next (drStart (.dload m e)
      { reads := [], spans := [{ off := eOff e, len := z, wr := false }], reg := m.toNat, d := 16 + z / 64 } x s)

/-! ### Matching (R312, R469) -/

/-- A score ranks below another: NaN below every other score, −0 equal to +0. -/
def scoreLess (x y : Nat) : Bool :=
  if fp32.isNan x then !fp32.isNan y else if fp32.isNan y then false else fp32.lt x y

/-- The dot product of R312: rounded products, then the tree of R309. -/
def dotOf (x y : List Nat) : Nat :=
  (tree (fp32.add 0) ((x.zip y).map fun p => some (fp32.mul 0 p.1 p.2))).getD 0

/-- The score of two keys with their squared norms (R312). -/
def scoreOf (x y : List Nat) : Nat :=
  fp32.mul 0 (fp32.mul 0 (dotOf x y) (fp32.rsqrt 0 (dotOf x x))) (fp32.rsqrt 0 (dotOf y y))

/-- The best partner of a token: the highest score, ties to the lower. -/
def bestOf (score : Nat → Nat) : List Nat → Option (Nat × Nat)
  | [] => none
  | b :: r =>
    match bestOf score r with
    | none => some (b, score b)
    | some x => if scoreLess (score b) x.2 then some x else some (b, score b)

/-- Inserts an edge (score, a, b) in descending score, ties to the lower a. -/
def insertEdge (x : Nat × Nat × Nat) : List (Nat × Nat × Nat) → List (Nat × Nat × Nat)
  | [] => [x]
  | y :: r =>
    if scoreLess x.1 y.1 || (!scoreLess y.1 x.1 && decide (y.2.1 < x.2.1)) then y :: insertEdge x r else x :: y :: r

/-- The edges that are kept, in rank order, against r and the group limit (R469). -/
def keepEdges (r : Nat) (size : Nat → Nat) (g : SMap Nat) (kept : List (Nat × Nat)) : List (Nat × Nat × Nat) → List (Nat × Nat)
  | [] => kept
  | (_, a, b) :: rest =>
    let now := (SMap.find b g).getD (size b)
    if kept.length < r ∧ now + size a ≤ 2 ^ 24 then
      keepEdges r size (SMap.put g b (now + size a)) (kept ++ [(a, b)]) rest
    else keepEdges r size g kept rest

/-- The map of a match over n tokens: `key` gives a token's key as FP32, `prot` what is protected. -/
def matchMap (n r : Nat) (key : Nat → List Nat) (prot : Nat → Bool) (size : Nat → Nat) : DMap :=
  let free := (List.range n).filter fun t => !prot t
  let as := free.filter fun t => t % 2 == 0
  let bs := free.filter fun t => t % 2 == 1
  let edges := as.filterMap fun a => (bestOf (fun b => scoreOf (key a) (key b)) bs).map fun x => (x.2, a, x.1)
  let kept := keepEdges r size [] [] (edges.foldr insertEdge [])
  let gone := fun t => kept.any fun x => x.1 == t
  let live := (List.range n).filter fun t => !gone t
  let place := fun t => (live.findIdx? (· == t)).getD 0
  { nin := n, nout := live.length, s := (List.range n).map size, v := (List.range n).map fun t => !gone t
    e := (List.range n).map fun t => match kept.find? fun x => x.1 == t with
      | some x => place x.2
      | none => place t }

/-! ### Merging (R312, R318, R470, R471) -/

/-- A natural number up to 2^24 as FP32. -/
def ofSize (n : Nat) : Nat := fp32.round .arith 0 (ofInt n 0 false)

/-- One element of a merged group: the survivor first, then the others ascending. -/
def mergeElem (den : Nat) : List (Nat × Nat) → Nat
  | [] => 0
  | (sb, xb) :: r =>
    fp32.div 0 (r.foldl (fun num x => fp32.add 0 num (fp32.mul 0 (ofSize x.1) x.2)) (fp32.mul 0 (ofSize sb) xb)) (ofSize den)

/-- Row u of DMERGE from rows of FP32 elements. -/
def mergeRow (m : DMap) (dw : Nat) (row : Nat → List Nat) (u : Nat) : List Nat :=
  let ts := m.members u
  let b := (ts.filter m.live).headD 0
  let rest := ts.filter fun t => decide (t ≠ b)
  if rest.isEmpty then row b
  else (List.range dw).map fun i => mergeElem (m.groupSize u) ((b :: rest).map fun t => (m.size t, (row t).getD i 0))

/-! ### Images (R473) -/

/-- Zero bytes up to the next multiple of 64. -/
def padTo64 (bs : List Byte) : List Byte := bs ++ List.replicate (roundUp bs.length 64 - bs.length) 0

/-- The image of a map. -/
def DMap.image (m : DMap) : List Byte :=
  let v := (List.range (ceilDiv m.nin 8)).map fun i =>
    BitVec.ofNat 8 ((List.range 8).foldl (fun a b => a + bitOf (m.live (8 * i + b)) * 2 ^ b) 0)
  padTo64 (leBytes 8 (m.nin - 1 + (m.nout - 1) * 65536)) ++ padTo64 ((m.e.map (leBytes 2)).flatten) ++
    padTo64 ((m.s.map (leBytes 4)).flatten) ++ padTo64 v

/-- A field of an image. -/
def imageNat (bs : List Byte) (o n : Nat) : Nat := leNat ((bs.drop o).take n)

/-- The map that an image holds; none where it is not well formed or its padding is not 0. -/
def imageMap (head : Nat) (bs : List Byte) : Option DMap :=
  let n := head % 65536 + 1
  let eAt := 64
  let sAt := eAt + roundUp (2 * n) 64
  let vAt := sAt + roundUp (4 * n) 64
  let m : DMap := { nin := n, nout := bits head 31 16 + 1,
                    e := (List.range n).map fun t => imageNat bs (eAt + 2 * t) 2,
                    s := (List.range n).map fun t => imageNat bs (sAt + 4 * t) 4,
                    v := (List.range n).map fun t => (imageNat bs (vAt + t / 8) 1).testBit (t % 8) }
  if imageNat bs 0 8 = head ∧ m.nout ≤ m.nin ∧ m.wellFormed ∧ m.image = bs then some m else none

/-! ### Inputs at S + 2 and results (R466) -/

/-- Outputs of a command: memory runs as offset and bytes, the map it writes, the key descriptor, the reply. -/
structure DOut where
  runs : List (Nat × List Byte) := []
  map : Option (Nat × DMap) := none
  keys : Option Keys := none
  reply : Option (Nat × Nat) := none

/-- FP32 elements of a row in plane j of a hub's scratchpad. -/
def State.fpRow (s : State) (a dw : Nat) : List Nat := (List.range dw).map fun i => s.readNat (a + 4 * i) 4

/-- A row as bytes. -/
def rowOut (xs : List Nat) : List Byte := (xs.map (leBytes 4)).flatten

/-- What a merge reads and writes in every plane. -/
def State.mergeRuns (s : State) (die hub : Nat) (r : DrRun) (m dw off : Nat) (undo : Bool) : List (Nat × List Byte) :=
  let base := flat (homeScratch (s.kind die) die hub) 0
  let h := s.hub die hub
  let x := h.map m
  let rs := rowSize dw
  (List.range (h.launch.tk + 1)).flatMap fun j =>
    let at_ := off + j * r.stride
    let row := fun t => s.fpRow (base + at_ + t * rs) dw
    if undo then (List.range x.nin).map fun t => (at_ + t * rs, rowOut (row (x.to t)))
    else (List.range x.nout).map fun u => (at_ + u * rs, rowOut (mergeRow x dw row u))

/-- The spans that a running command reads, for their poison (R467). -/
def State.drReads (s : State) (die : Nat) (r : DrRun) : List (Nat × Nat) :=
  let h := s.hub die r.hub
  let planes := fun (off len : Nat) => (List.range (h.launch.tk + 1)).map fun j => (off + j * r.stride, len)
  match r.instr with
  | .dmatch _ _ _ _ p e =>
    let k := h.keys.getD ⟨1, 1, 0, 0⟩
    ((List.range k.n).map fun t => (k.base + t * k.row, k.w * keyBytes k.kt)) ++ (if p = 1 then [(eOff e, ceilDiv k.n 8)] else [])
  | .dmerge m w e => (List.range (h.map m.toNat).nin).flatMap fun t => planes (eOff e + t * rowSize (w.toNat + 1)) (4 * (w.toNat + 1))
  | .dunmerge m w e => (List.range (h.map m.toNat).nout).flatMap fun t => planes (eOff e + t * rowSize (w.toNat + 1)) (4 * (w.toNat + 1))
  | .dload _ e => [(eOff e, imageSize (r.head % 65536 + 1))]
  | _ => []

/-- The results of a command from its sampled inputs (R468 to R474). -/
def State.drResult (s : State) (die : Nat) (r : DrRun) : DOut :=
  let h := s.hub die r.hub
  let base := flat (homeScratch (s.kind die) die r.hub) 0
  match r.instr with
  | .dkeys n k w e => { keys := some ⟨n.toNat + 1, w.toNat + 1, k.toNat, eOff e⟩ }
  | .dmatch d m u q p e =>
    let k := h.keys.getD ⟨1, 1, 0, 0⟩
    let f := keyFmt k.kt
    let key := fun t => (List.range k.w).map fun i =>
      fp32.round .arith 0 (f.decode (s.readNat (base + k.base + t * k.row + i * keyBytes k.kt) (keyBytes k.kt)))
    let prot := fun t => p == 1 && (s.readNat (base + eOff e + t / 8) 1).testBit (t % 8)
    let size := fun t => if u = 1 then 1 else (h.map m.toNat).groupSize t
    let x := matchMap k.n q.toNat key prot size
    { map := some (d.toNat, x), reply := some (x.nout, 0) }
  | .dmerge m w e => { runs := s.mergeRuns die r.hub r m.toNat (w.toNat + 1) (eOff e) false }
  | .dunmerge m w e => { runs := s.mergeRuns die r.hub r m.toNat (w.toNat + 1) (eOff e) true }
  | .dcompose d a b =>
    let x := h.map a.toNat
    let y := h.map b.toNat
    { map := some (d.toNat,
        { nin := x.nin, nout := y.nout, s := x.s
          e := (List.range x.nin).map fun t => y.to (x.to t)
          v := (List.range x.nin).map fun t => x.live t && y.live (x.to t) }) }
  | .dsizes m e =>
    let x := h.map m.toNat
    let v := (List.range x.nout).flatMap fun u => leBytes 4 (fp32.ln 0 (ofInt (x.groupSize u) 0 false))
    { runs := (eOff e, v) :: (List.range h.launch.tk).map fun j => (eOff e + (j + 1) * r.stride, List.replicate v.length 0) }
  | .dsave m e => { runs := [(eOff e, (h.map m.toNat).image)] }
  | .dload m e =>
    let n := r.head % 65536 + 1
    match imageMap r.head (s.readBytes (base + eOff e) (imageSize n)) with
    | some x => { map := some (m.toNat, x), reply := some (n, 0) }
    | none => { reply := some (n, 1) }
  | _ => {}

/-- The map register that DETAIL names. -/
def drReg : Instr → Nat
  | .dmatch d .. => d.toNat
  | .dmerge m .. => m.toNat
  | .dunmerge m .. => m.toNat
  | .dcompose d .. => d.toNat
  | .dsizes m _ => m.toNat
  | .dsave m _ => m.toNat
  | .dload m _ => m.toNat
  | _ => 0

/-- Writes of the unit at E. -/
def State.drWrites (s : State) (die hub e base : Nat) : List (Nat × List Byte) → State
  | [] => s
  | (o, bs) :: r => (s.post die e (s.hub die hub).lpos hub 6 (.write (base + o) bs false)).drWrites die hub e base r

/-- The inputs of the running command are sampled at S + 2 (R466); a poisoned one faults (R467). Its writes come
about at E; its reply is pushed at E after the pops of that scy, and tl.dr advances at E + 1. -/
def State.landDraft (s : State) (die : Nat) (x : DrRun) : State :=
  match (s.die die).draft with
  | none => s
  | some r =>
    if r.s ≠ x.s then s
    else
      let base := flat (homeScratch (s.kind die) die r.hub) 0
      let s := s.eccRead die r.hub 6 ((s.hub die r.hub).drDetail (drReg r.instr)) ((s.drReads die r).map fun p => (base + p.1, p.2))
      if (s.drReads die r).any fun p => s.poisoned (base + p.1) p.2 then
        s.drFault die r.hub 0x0A 3 (drReg r.instr) (some (((s.hub die r.hub).timeline 5).issued + 1))
      else
        let o := s.drResult die r
        let h := (s.hub die r.hub).issueOp 5
        let r := { r with num := (h.timeline 5).issued, map := o.map, keys := o.keys, reply := o.reply }
        let s := (s.setHub die r.hub h).setDie die { s.die die with draft := some r }
        (s.drWrites die r.hub r.e base o.runs).post die (r.e + 1) h.lpos r.hub 6 (.ev .draftingCommandEnd { die := die })

/-- The hub after the results of a command that stand in the unit (R265). -/
def Hub.drCommit (h : Hub) (r : DrRun) : Hub :=
  let h := match r.map with
    | none => h
    | some (m, x) => { h with maps := SMap.put h.maps m { x with gen := (h.map m).gen, wgen := (h.map m).gen } }
  let h := match r.keys with
    | none => h
    | some k => { h with keys := some k }
  { h with portServed := h.portServed + 1 }

/-- The running command ends (R288, R466): an entry that finds its port occupied is held there. -/
def execDraftingCommandEnd (s : State) : Res :=
  let die := s.arg.die
  let d := s.die die
  match d.draft with
  | none => .next s
  | some r =>
    let s := (s.setHub die r.hub ((s.hub die r.hub).drCommit r)).setDie die { d with draft := none, draftEnd := d.cad - 1 }
    let s := match r.reply with
      | none => s.finishOp die r.hub 5 r.num
      | some (v, st) =>
        let x : Reply := ⟨BitVec.ofNat 64 v, 6, st, false, r.num⟩
        let h := s.hub die r.hub
        if h.portFull 6 then s.setHub die r.hub { h with drHeld := some x } else s.pushReply die r.hub 6 x
    .next (s.post die d.cad 0 0 6 (.ev .draftingCommandStart { die := die }))

/-- PUSH samples its command at n + 2, and it enters the port at n + 3 (R362, R466). The command is decoded first (R333); a bad one
faults with the PUSH's issue mark, and the PUSH is not performed. -/
def State.landPush (s : State) (die hub x issue : Nat) : State :=
  let h := s.hub die hub
  let s := s.eccRead die hub 0 (h.drDetail 0) [(x, 8)]
  let c : DCmd := ⟨s.readNat x 4, s.readNat (x + 4) 4⟩
  let bad : Option (Nat × Nat) := match decodeDrafting c.w0 (some c.w1) with
    | .error _ => some (0x01, 2)
    | .ok _ => if s.poisoned x 8 then some (0x0A, 3) else none
  match bad with
  | some (k, sub) => s.takeFault die hub ⟨k, sub, 6, h.drDetail 0, issue⟩ []
  | none => s.post die ((s.die die).cad + 1) h.lpos hub 0 (.portEnter c)

/-- A command enters the port; an idle unit starts it (R289, R466). -/
def State.landPort (s : State) (die hub : Nat) (c : DCmd) : State :=
  let h := s.hub die hub
  (s.setHub die hub { h with port := h.port ++ [c] }).post die (s.die die).cad 0 0 6
    (.ev .draftingCommandStart { die := die })

end Sys2Proof.Machine
end

