-- ==== Sys2Proof/Machine/Index.lean ====
section
/-! DEFINITION. The index engine (R285, R455 to R463). -/

namespace Sys2Proof.Machine

open Sys2Proof

/-! ### Blocks (R455 to R457) -/

/-- A little-endian field of `n` bytes at `o`. -/
def blockField (bs : List Byte) (o n : Nat) : Nat := leNat ((bs.drop o).take n)

/-- The fields of a command block (R456). -/
def ixBlockOf (bs : List Byte) : IxBlock :=
  let c := blockField bs 0x30 8
  { tab := blockField bs 0 8, idx := blockField bs 8 8, dat := blockField bs 0x10 8, aux := blockField bs 0x18 8,
    n := blockField bs 0x24 4, lim := blockField bs 0x20 4, tstr := blockField bs 0x2C 4,
    rw := bits (blockField bs 0x28 8) 19 8 + 1, ret := c.testBit 15, rpy := c.testBit 14, esz := bits c 13 12,
    typ := bits c 11 8, op := bits c 7 4 }

/-- Reserved bits of a block are 0 and assigned fields hold assigned values (R456). -/
def ixReserved (bs : List Byte) : Bool :=
  let d := blockField bs 0x28 8
  let c := blockField bs 0x30 8
  decide (bits d 31 20 = 0) && decide (bits d 7 0 = 0) && decide (bits c 63 16 = 0) && decide (bits c 3 0 = 0) &&
  decide (blockField bs 0x38 8 = 0) && decide (bits c 11 8 ≤ 10) && decide (bits c 7 4 ≤ 9) &&
  decide (blockField bs 0x24 4 ≤ 2097152)

def ixGather : Nat := 2
def ixScatter : Nat := 3
def ixScadd : Nat := 4
def ixCount : Nat := 5
def ixCompact : Nat := 6
def ixHist : Nat := 7
def ixAmo : Nat := 8
def ixCas : Nat := 9

/-- Bytes of an element and of a row. -/
def IxBlock.w (b : IxBlock) : Nat := 2 ^ b.esz
def IxBlock.rb (b : IxBlock) : Nat := b.rw * b.w

/-- A command that works on rows. -/
def ixRows (op : Nat) : Bool := op == ixGather || op == ixScatter || op == ixScadd

/-- A block meets its command's row (R457). -/
def IxBlock.legal (b : IxBlock) (op : Nat) : Bool :=
  let uses (l : List Nat) := l.contains op
  let tyOk := b.w == (etype b.typ).bytes
  (uses [2, 3, 4, 7, 8, 9] || (b.tab == 0 && b.lim == 0)) &&
  (uses [2, 3, 4, 6, 7, 8, 9] || b.idx == 0) &&
  (uses [2, 3, 4, 5, 6, 8, 9] || b.dat == 0) &&
  (uses [6, 9] || (op == ixAmo && b.ret) || b.aux == 0) &&
  (uses [2, 3, 4, 8, 9] || b.tstr == 0) &&
  (ixRows op || b.rw == 1) &&
  (uses [4, 5, 6] || b.typ == 0) &&
  (uses [2, 3, 4, 5, 6, 8, 9] || b.esz == 0) &&
  (uses [8] || b.op == 0) &&
  (uses [8, 9] || !b.ret) &&
  (uses [2, 3, 4, 7, 8] || !b.rpy) &&
  (op != ixScadd || (tyOk && [0, 1, 2, 5, 6].contains b.typ)) &&
  (!uses [5, 6] || tyOk) &&
  (!uses [8, 9] || decide (2 ≤ b.esz)) &&
  (op != ixAmo || b.op != 9 || b.esz == 2)

/-! ### Spans and checks (R458) -/

/-- A span: offset in the scratchpad, bytes, whether it is written and whether it is the atomic table. -/
structure Span where
  off : Nat
  len : Nat
  wr : Bool
  table : Bool := false

/-- The spans that a command can touch (R458). -/
def IxBlock.spans (b : IxBlock) (op : Nat) : List Span :=
  let tab := if b.lim = 0 then 0 else if op = ixHist then 4 * b.lim else (b.lim - 1) * b.tstr + b.rb
  let row := b.n * (if ixRows op then b.rb else b.w)
  let at_ := fun (p len : Nat) (wr t : Bool) => (⟨ptrOff p, len, wr, t⟩ : Span)
  match op with
  | 2 => [at_ b.tab tab false false, at_ b.idx (4 * b.n) false false, at_ b.dat row true false]
  | 3 => [at_ b.tab tab true false, at_ b.idx (4 * b.n) false false, at_ b.dat row false false]
  | 4 => [at_ b.tab tab true true, at_ b.idx (4 * b.n) false false, at_ b.dat row false false]
  | 5 => [at_ b.dat row false false]
  | 6 => [at_ b.idx (4 * b.n) true false, at_ b.dat row false false, at_ b.aux row true false]
  | 7 => [at_ b.tab tab true true, at_ b.idx (4 * b.n) false false]
  | 8 => [at_ b.tab tab true true, at_ b.idx (4 * b.n) false false, at_ b.dat row false false] ++
      (if b.ret then [at_ b.aux row true false] else [])
  | _ => [at_ b.tab tab true true, at_ b.idx (4 * b.n) false false, at_ b.dat row false false, at_ b.aux row b.ret false]

/-- The pointers that a command uses. -/
def IxBlock.pointers (b : IxBlock) (op : Nat) : List Nat :=
  match op with
  | 5 => [b.dat]
  | 6 => [b.idx, b.dat, b.aux]
  | 7 => [b.tab, b.idx]
  | 8 => [b.tab, b.idx, b.dat] ++ (if b.ret then [b.aux] else [])
  | 9 => [b.tab, b.idx, b.dat, b.aux]
  | _ => [b.tab, b.idx, b.dat]

/-- Check 4 (R458): a read outside the sets is 1, a write outside the write set 2; a write into a ring is 5 (R78). -/
def State.spanOutside (s : State) (rs : List Range) (base : Nat) (x : Span) : Option Nat :=
  let ls := linesOf (base + x.off) x.len
  let out := ls.filter fun l => !s.inRing l
  if x.wr then
    (if !allIn (fun r => r.wr) rs out then some 2 else if out.length ≠ ls.length then some 5 else none)
  else if !allIn (fun _ => true) rs out then some 1 else none

/-- Check 5 (R458): the table lies in atomic ranges, any other span outside them. -/
def spanAtomic (rs : List Range) (base : Nat) (x : Span) : Bool :=
  let ls := linesOf (base + x.off) x.len
  if x.table then !allIn (fun r => r.at_ && r.wr) rs ls else anyIn (fun r => r.at_) rs ls

/-- An index atomic that DET permits into a shared atomic range (R462). -/
def IxBlock.detAllows (b : IxBlock) (op : Nat) : Bool :=
  op == ixHist || (op == ixScadd && (b.typ == 5 || b.typ == 6)) || (op == ixAmo && !b.ret && decide (b.op ≤ 7))

/-- The atomic ranges that the open phases of other hubs of the partition hold (R188). -/
def State.othersAtomic (s : State) (die hub : Nat) : List Range :=
  let l := (s.hub die hub).launch
  (s.part l.part).phases.flatMap fun ph => if ph.other (8 * die + hub) l.qid then ph.ranges.filter (·.at_) else []

/-- Check 6 (R188, R458): the table's atomic ranges meet another hub's. -/
def ixShared (others rs : List Range) (base : Nat) (x : Span) : Bool :=
  let span : Range := { base := base + x.off, len := x.len }
  let mine := rs.filter fun r => r.at_ && r.overlaps span
  x.table && others.any fun y => mine.any fun r => r.overlaps y

/-- The scratchpad of a hub as a flat address. -/
def State.padBase (s : State) (die hub : Nat) : Nat := flat (homeScratch (s.kind die) die hub) 0

/-- The fault of a command's block check, first failing check first (R458). -/
def State.ixCheck (s : State) (die hub op off : Nat) (rs others : List Range) : Except (Nat × Nat) IxBlock :=
  let base := flat (homeScratch (s.kind die) die hub) 0
  let size := (s.kind die).scratchSize
  let l := (s.hub die hub).launch
  if size < off + 64 then .error (0x0B, 3)
  else if s.poisoned (base + off) 64 then .error (0x0A, 2)
  else
    let bs := s.readBytes (base + off) 64
    let b := ixBlockOf bs
    let ps := b.pointers op
    let spans := (b.spans op).filter fun x => decide (x.len ≠ 0)
    if !ixReserved bs || !b.legal op then .error (0x01, 2)
    else if ps.any fun p => ptrSpace p != 0 then .error (0x0B, 4)
    else if ps.any fun p => bits p 59 48 != 0 then .error (0x0B, 2)
    else if spans.any fun x => decide (size < x.off + x.len) then .error (0x0B, 3)
    else
      match spans.foldl (fun a x => lowest a (s.spanOutside rs base x)) none with
      | some c => .error (0x02, c)
      | none =>
        if spans.any (spanAtomic rs base) then .error (0x02, 3)
        else if !l.timed && l.det && spans.any (ixShared others rs base) && !b.detAllows op then .error (0x02, 4)
        else .ok b

/-! ### The queue (R285, R459) -/

/-- Places a micro-operation of the index engine on the agenda. -/
def State.ixAt (s : State) (die hub at_ : Nat) (x : Act) : State := s.post die at_ (s.hub die hub).lpos hub 5 x

/-- The next command of the queue starts at max(issue + 4, E′ + 1), once its block has been checked (R459). -/
def State.ixNext (s : State) (die hub : Nat) : State :=
  let h := s.hub die hub
  match h.ixrun, h.ixq with
  | none, c :: _ =>
    if c.block.isSome then
      s.ixAt die hub (max (c.issue + 4) (h.ixEnd + 1)) (.ev .indexCommandStart { die := die, hub := hub })
    else s
  | _, _ => s

/-- The block of the command that issued at `issue` is sampled and checked (R458). A command that faults takes no
further part; in a counted launch those behind it leave the queue (R285). -/
def State.ixBlock (s : State) (die hub issue : Nat) : State :=
  let h := s.hub die hub
  match h.ixq.find? fun c => c.issue == issue with
  | none => s
  | some c =>
    let s := s.eccRead die hub 5 (detailOf c.seg c.idx 0) [(s.padBase die hub + c.off, 64)]
    match s.ixCheck die hub c.op c.off c.sets c.others with
    | .ok b =>
      let n := (h.timeline 4).issued + 1
      let q := h.ixq.map fun x => if x.issue = issue then { x with block := some b, num := n } else x
      let s := s.setHub die hub ({ h with ixq := q }.issueOp 4)
      if (q.head?.map (·.issue)) = some issue then s.ixNext die hub else s
    | .error (k, sub) =>
      let q := if h.launch.timed then h.ixq.filter fun x => decide (x.issue ≠ issue) else h.ixq.filter fun x => decide (x.issue < issue)
      (s.setHub die hub { h with ixq := q }).takeFaultAs die hub
        ⟨k, sub, 5, detailOf c.seg c.idx 0, (s.die die).markAt issue⟩ [] (some ((h.timeline 4).issued + 1))

/-- A command pushes a reply entry (R461). -/
def IxBlock.replies (b : IxBlock) (op : Nat) : Bool :=
  op == ixCount || op == ixCompact || op == ixCas || b.rpy || (op == ixAmo && b.ret)

/-- q and C of R459. -/
def IxBlock.q (b : IxBlock) : Nat := ceilDiv b.rb 64
def IxBlock.c (b : IxBlock) : Nat := ceilDiv (b.n * b.w) 64
/-- X of R459. -/
def IxBlock.x (b : IxBlock) (op : Nat) : Nat :=
  if ixRows op then b.n * b.q else if op = ixCount ∨ op = ixCompact then b.c else b.n

/-- A command starts its run at t0 (R459). Its reply is pushed at E after the pops of that scy, and tl.ix advances
at E + 1. -/
def execIndexCommandStart (s : State) : Res :=
  let die := s.arg.die
  let hub := s.arg.hub
  let h := s.hub die hub
  match h.ixrun, h.ixq with
  | none, c :: r =>
    match c.block with
    | none => .next s
    | some b =>
      let t0 := (s.die die).cad
      let s := s.setHub die hub { h with ixq := r, ixrun := some { cmd := c, b := b, t0 := t0 } }
      .next ((s.ixAt die hub (t0 + 2) (.ix (.operands die hub))).ixAt die hub (t0 + 8 + b.x c.op + 1)
        (.ev .indexCommandEnd { die := die, hub := hub }))
  | _, _ => .next s

/-! ### Operands and elements (R459, R460, R463) -/

/-- `n` elements of `w` bytes from an offset, with the poison of each. -/
def State.elementsAt (s : State) (base w n : Nat) : List (Nat × Bool) :=
  (List.range n).map fun j => (s.readNat (base + j * w) w, s.poisoned (base + j * w) w)

/-- The first action of a run after its operands are sampled. -/
def State.ixFirst (s : State) (die hub : Nat) (r : IxRun) : State :=
  if r.b.n = 0 then s
  else if ixRows r.cmd.op ∨ r.cmd.op = ixCount ∨ r.cmd.op = ixCompact then
    s.ixAt die hub (r.t0 + 4) (.ix (.sample die hub 0))
  else s.ixAt die hub (r.t0 + 8) (.ix (.atomic die hub 0 [] []))

/-- At t0 + 2 the index array is sampled, and the operands of IXAMO and IXCAS. A poisoned index faults and the
command performs nothing (R463). -/
def State.ixOperands (s : State) (die hub : Nat) : State :=
  let h := s.hub die hub
  match h.ixrun with
  | none => s
  | some r =>
    let b := r.b
    let op := r.cmd.op
    let base := s.padBase die hub
    let idx := if op = ixCount ∨ op = ixCompact then [] else s.elementsAt (base + ptrOff b.idx) 4 b.n
    let rmw := op == ixAmo || op == ixCas
    let dat := if rmw then s.elementsAt (base + ptrOff b.dat) b.w b.n else []
    let aux := if op = ixCas then s.elementsAt (base + ptrOff b.aux) b.w b.n else []
    let s := s.eccRead die hub 5 (detailOf r.cmd.seg r.cmd.idx 0) ([(base + ptrOff b.idx, if op = ixCount ∨ op = ixCompact then 0 else 4 * b.n),
      (base + ptrOff b.dat, if rmw then b.w * b.n else 0), (base + ptrOff b.aux, if op = ixCas then b.w * b.n else 0)])
    match idx.findIdx? (·.2) with
    | some j =>
      let q := if h.launch.timed then h.ixq.map fun c => { c with num := if c.block.isSome then c.num - 1 else c.num } else []
      let t := h.timeline 4
      let h := ({ h with ixq := q, ixrun := none, ixEnd := r.t0 + 8 + b.x op }).setTimeline 4 { t with issued := t.issued - (if h.launch.timed then 1 else (h.ixq.filter fun (c : IxCmd) => c.block.isSome).length + 1) }
      ((s.setHub die hub h).takeFaultAs die hub
        ⟨0x0A, 3, 5, detailOf r.cmd.seg r.cmd.idx (min j 0xFFFF), s.markOf die⟩ [] (some r.cmd.num)).ixNext die hub
    | none =>
      let r := { r with
        index := idx.map (·.1), data := dat.map (·.1), dpois := dat.map (·.2), auxv := aux.map (·.1), apois := aux.map (·.2)
        out := (idx.filter fun x => decide (b.lim ≤ x.1)).length
        psn := (dat.any (·.2)) || (aux.any (·.2)) }
      (s.setHub die hub { h with ixrun := some r }).ixFirst die hub r

/-- The address of table row or element i (R456, R457). -/
def IxRun.tabAt (r : IxRun) (base i : Nat) : Nat :=
  base + ptrOff r.b.tab + i * (if r.cmd.op = ixHist then 4 else r.b.tstr)

/-- A row of elements as bytes, and the poison of each element. -/
def State.rowAt (s : State) (a w n : Nat) : List Byte × List Bool :=
  (s.readBytes a (w * n), (List.range n).map fun e => s.poisoned (a + e * w) w)

/-- Elements j of chunk c of DAT (R459). -/
def IxRun.chunk (r : IxRun) (c : Nat) : List Nat :=
  let m := 64 / r.b.w
  (List.range (min m (r.b.n - c * m))).map (· + c * m)

/-- Sample j of a run: a row of the table or of DAT, or a chunk of DAT. -/
def State.ixSample (s : State) (die hub j : Nat) : State :=
  let h := s.hub die hub
  match h.ixrun with
  | none => s
  | some r =>
    let b := r.b
    let op := r.cmd.op
    let base := s.padBase die hub
    let now := (s.die die).cad
    if ixRows op then
      let s := if j + 1 < b.n then s.ixAt die hub (now + b.q) (.ix (.sample die hub (j + 1))) else s
      let i := r.index.getD j 0
      let src := if op = ixGather then r.tabAt base i else base + ptrOff b.dat + j * b.rb
      let x := if op = ixGather ∧ b.lim ≤ i then (List.replicate b.rb 0, List.replicate b.rw false) else s.rowAt src b.w b.rw
      let s := s.eccRead die hub 5 (detailOf r.cmd.seg r.cmd.idx (min j 0xFFFF)) [(src, if op = ixGather ∧ b.lim ≤ i then 0 else b.rb)]
      s.ixAt die hub (now + 4) (.ix (if op = ixScadd then .atomic die hub j x.1 x.2 else .perform die hub j x.1 x.2))
    else
      let xs := (r.chunk j).map fun e =>
        (e, s.readNat (base + ptrOff b.dat + e * b.w) b.w, s.poisoned (base + ptrOff b.dat + e * b.w) b.w)
      let keep := xs.filter fun x => (etype b.typ).nonzero x.2.1
      let r := { r with picked := r.picked ++ keep, psn := r.psn || xs.any (·.2.2) }
      let s := (s.setHub die hub { h with ixrun := some r }).eccRead die hub 5 (detailOf r.cmd.seg r.cmd.idx (min (j * (64 / b.w)) 0xFFFF)) (xs.map fun x => (base + ptrOff b.dat + x.1 * b.w, b.w))
      if j + 1 < b.c then s.ixAt die hub (now + 1) (.ix (.sample die hub (j + 1)))
      else if op = ixCompact then s.ixAt die hub (now + 5) (.ix (.perform die hub 0 [] []))
      else s

/-- Writes a row with the poison of its elements (R254, R256). -/
def State.writeRowOf (s : State) (a w : Nat) (bs : List Byte) (ps : List Bool) : State :=
  let s := s.writeScatter [(a, bs)] false
  ps.zipIdx.foldl (fun (s : State) p =>
    if p.1 then s.writeBytes (a + p.2 * w) ((bs.drop (p.2 * w)).take w) true else s) s

/-- A plain write of a run: a DAT row, a table row, or everything that IXCOMPACT writes (R460, R463). -/
def State.ixPerform (s : State) (die hub j : Nat) (bs : List Byte) (ps : List Bool) : State :=
  let h := s.hub die hub
  match h.ixrun with
  | none => s
  | some r =>
    let b := r.b
    let base := s.padBase die hub
    let i := r.index.getD j 0
    if r.cmd.op = ixGather then s.writeRowOf (base + ptrOff b.dat + j * b.rb) b.w bs ps
    else if r.cmd.op = ixScatter then (if i < b.lim then s.writeRowOf (r.tabAt base i) b.w bs ps else s)
    else
      let ps := r.picked.map (·.2.2)
      let s := s.writeRowOf (base + ptrOff b.idx) 4 ((r.picked.map fun x => leBytes 4 x.1).flatten) ps
      s.writeRowOf (base + ptrOff b.aux) b.w ((r.picked.map fun x => leBytes b.w x.2.1).flatten) ps

/-- The sum of IXSCADD in one element (R460). -/
def scaddValue (typ w x y : Nat) : Nat :=
  match etype typ with
  | .fp f => f.add 0 x y
  | .int _ => (x + y) % 2 ^ (8 * w)

/-- The operation that OP of IXAMO names (R325, R456). -/
def ixOpOf : Nat → AmoOp
  | 0 => .add | 1 => .and | 2 => .or | 3 => .xor | 4 => .min | 5 => .max | 6 => .minu | 7 => .maxu | 8 => .xchg | _ => .fadd

/-- IXSCADD's row (R460). -/
def State.scaddRow (s : State) (a : Nat) (b : IxBlock) (bs : List Byte) (ps : List Bool) : State :=
  ps.zipIdx.foldl (fun (s : State) p =>
    let x := a + p.2 * b.w
    s.writeBytes x (leBytes b.w (scaddValue b.typ b.w (s.readNat x b.w) (leNat ((bs.drop (p.2 * b.w)).take b.w))))
      (p.1 || s.poisoned x b.w)) s

/-- One atomic of a run (R460, R462, R463). -/
def State.ixAtomic (s : State) (die hub j : Nat) (bs : List Byte) (ps : List Bool) : State :=
  match (s.hub die hub).ixrun with
  | none => s
  | some r =>
    let b := r.b
    let op := r.cmd.op
    let base := s.padBase die hub
    let i := r.index.getD j 0
    let a := r.tabAt base i
    let within := decide (i < b.lim)
    let s := s.eccRead die hub 5 (detailOf r.cmd.seg r.cmd.idx (min j 0xFFFF)) [(a, if !within then 0 else if op = ixScadd then b.rb else if op = ixHist then 4 else b.w)]
    if op = ixScadd then (if within then s.scaddRow a b bs ps else s)
    else
      let s := if j + 1 < b.n then s.ixAt die hub ((s.die die).cad + 1) (.ix (.atomic die hub (j + 1) [] [])) else s
      let auxAt := base + ptrOff b.aux + j * b.w
      if op = ixHist then
        (if within then s.writeBytes a (leBytes 4 ((s.readNat a 4 + 1) % 2 ^ 32)) (s.poisoned a 4) else s)
      else
        let old := s.readNat a b.w
        let x := r.data.getD j 0
        let bad := s.poisoned a b.w || r.dpois.getD j false || r.apois.getD j false
        if op = ixAmo then
          let s := if within then s.writeBytes a (leBytes b.w (amoValue (ixOpOf b.op) b.w old x 0)) bad else s
          let s := if b.ret then
              s.writeBytes auxAt (leBytes b.w (if within then old else 0)) (within && bad) else s
          let r := { r with psn := r.psn || (within && bad), first := if j = 0 ∧ within then old else r.first }
          s.setHub die hub { s.hub die hub with ixrun := some r }
        else if within then
          let hit := decide (old = r.auxv.getD j 0)
          let s := s.writeBytes a (leBytes b.w (if hit then x else old)) bad
          let s := if b.ret then s.writeBytes auxAt (leBytes b.w old) bad else s
          let r := { r with psn := r.psn || bad, swaps := r.swaps + bitOf hit }
          s.setHub die hub { s.hub die hub with ixrun := some r }
        else s

/-! ### The end of a command (R288, R459, R461) -/

/-- VALUE and PSN of a command's reply entry (R461, R463). -/
def IxRun.value (r : IxRun) : Nat × Bool :=
  let op := r.cmd.op
  if op = ixCount ∨ op = ixCompact then (r.picked.length, r.psn)
  else if op = ixCas then (r.swaps, r.psn)
  else if op = ixAmo ∧ r.b.ret then (r.first, r.psn)
  else (r.out, false)

/-- A command ends: its reply is pushed and tl.ix advances; one whose port holds an entry is held (R288). -/
def execIndexCommandEnd (s : State) : Res :=
  let die := s.arg.die
  let hub := s.arg.hub
  let h := s.hub die hub
  match h.ixrun with
  | none => .next s
  | some r =>
    let now := (s.die die).cad
    let done := s.setHub die hub { h with ixrun := none, ixEnd := now - 1 }
    if !r.b.replies r.cmd.op then .next ((done.finishOp die hub 4 r.cmd.num).ixNext die hub)
    else if h.portFull 5 then .next (s.ixAt die hub (now + 1) (.ev .indexCommandEnd { die := die, hub := hub }))
    else
      let v := r.value
      .next ((done.pushReply die hub 5 ⟨BitVec.ofNat 64 v.1, 5, bitOf (decide (r.out ≠ 0)), v.2, r.cmd.num⟩).ixNext die hub)

/-- A micro-operation of the index engine comes about. -/
def State.landIx (s : State) : IxAct → State
  | .block die hub issue => s.ixBlock die hub issue
  | .operands die hub => s.ixOperands die hub
  | .sample die hub j => s.ixSample die hub j
  | .perform die hub j bs ps => s.ixPerform die hub j bs ps
  | .atomic die hub j bs ps => s.ixAtomic die hub j bs ps

/-! ### Words -/

/-- Commands of the hub from their issue to their end (R459). -/
def Hub.ixLoad (h : Hub) : Nat := h.ixq.length + (if h.ixrun.isSome then 1 else 0)

/-- The word's command would push a reply entry, as far as its block will show at issue + 2 (DEDUCED, log 23). -/
def State.ixWillReply (s : State) (op off : Nat) : Bool :=
  (ixBlockOf (s.peek s.cur.die (s.now + 2) (s.padBase s.cur.die s.cur.hub + off) 64)).replies op

/-- An index word enters the command queue at its issue; a full queue, or a port that holds an entry, makes it wait
(R285, R288). -/
def ixWord (op e : Nat) (s : State) : State :=
  let h := s.curHub
  let off := 64 * e
  if 16 ≤ h.ixLoad || (h.portFull 5 && s.ixWillReply op off) then s.holdWord
  else
    let c : IxCmd :=
      { op := op, issue := s.now, num := 0, seg := s.curEng.seg.getD 0, idx := s.wordIdx, off := off, sets := h.ranges 5
        others := s.othersAtomic s.cur.die s.cur.hub }
    ((s.setCurHub { h with ixq := h.ixq ++ [c] }).later 2 (.ix (.block s.cur.die s.cur.hub s.now))).retire 1 1

/-- IXNOP (R330, R455). -/
def execIxnop (n : BitVec 16) (s : State) : Res := .next (s.retire 1 (n.toNat + 1))
/-- IXGATHER (R460). -/
def execIxgather (e : BitVec 17) (s : State) : Res := .next (ixWord ixGather e.toNat s)
/-- IXSCATTER (R460). -/
def execIxscatter (e : BitVec 17) (s : State) : Res := .next (ixWord ixScatter e.toNat s)
/-- IXSCADD (R460). -/
def execIxscadd (e : BitVec 17) (s : State) : Res := .next (ixWord ixScadd e.toNat s)
/-- IXCOUNT (R460). -/
def execIxcount (e : BitVec 17) (s : State) : Res := .next (ixWord ixCount e.toNat s)
/-- IXCOMPACT (R460). -/
def execIxcompact (e : BitVec 17) (s : State) : Res := .next (ixWord ixCompact e.toNat s)
/-- IXHIST (R460). -/
def execIxhist (e : BitVec 17) (s : State) : Res := .next (ixWord ixHist e.toNat s)
/-- IXAMO (R460). -/
def execIxamo (e : BitVec 17) (s : State) : Res := .next (ixWord ixAmo e.toNat s)
/-- IXCAS (R460). -/
def execIxcas (e : BitVec 17) (s : State) : Res := .next (ixWord ixCas e.toNat s)

end Sys2Proof.Machine
end

