-- ==== Sys2Proof/Machine/Transfer.lean ====
section
/-! DEFINITION. The transfer words (R283, R284, R436 to R454). -/

namespace Sys2Proof.Machine

open Sys2Proof

/-- DETAIL of a transfer word (R291). -/
def XfWord.detail (t : XfWord) : Nat := detailOf t.seg t.idx 0

/-! ### Descriptors (R437, R438) -/

/-- A little-endian field of `n` bytes at `o` of a list of bytes. -/
def fieldAt (bs : List Byte) (o n : Nat) : Nat := leNat ((bs.drop o).take n)

/-- Place of dimension d in the 256 bytes of a descriptor and its continuation. -/
def dimAt (d : Nat) : Nat := if d < 8 then 0x20 + 12 * d else 128 + 12 * (d - 8)

/-- Dimension d: extent and strides. -/
def dimOf (bs : List Byte) (d : Nat) : Nat × Int × Int :=
  (fieldAt bs (dimAt d) 4, sextNat (fieldAt bs (dimAt d + 4) 4) 32, sextNat (fieldAt bs (dimAt d + 8) 4) 32)

/-- NDIM of a control doubleword. -/
def ndimOf (ctl : Nat) : Nat := bits ctl 63 60 + 1

/-- The descriptor that bytes hold; none where a reserved bit, an unassigned value or a dimension entry breaks
R437 or R438. -/
def descOf (bs : List Byte) : Option Desc :=
  let c := fieldAt bs 0x10 8
  let n := ndimOf c
  let slots := if n ≤ 8 then 8 else 16
  let dims := (List.range n).map (dimOf bs)
  let rest := (List.range (slots - n)).map fun i => dimOf bs (n + i)
  if c.testBit 45 ∨ bits c 39 37 ≠ 0 ∨ bits c 35 32 ≠ 0 ∨ bits c 15 0 ≠ 0 ∨ 1 < bits c 44 43 ∨ 3 < bits c 42 40 ∨
      10 < bits c 59 56 ∨ 10 < bits c 55 52 ∨ (dims.any fun d => d.1 == 0) ∨
      (rest.any fun d => d != (0, 0, 0)) ∨ (8 < n ∧ fieldAt bs 224 32 ≠ 0) then none
  else
    some
      { src := BitVec.ofNat 64 (fieldAt bs 0 8), dst := BitVec.ofNat 64 (fieldAt bs 8 8), ndim := n,
        sfmt := bits c 59 56, dfmt := bits c 55 52, rm := bits c 51 50, ovf := bits c 49 49, tan := c.testBit 48,
        mc := c.testBit 47, col := c.testBit 46, codec := bits c 44 43, esz := bits c 42 40, slot := bits c 36 36,
        per := bits c 31 16 + 1, aux := BitVec.ofNat 64 (fieldAt bs 0x18 8), dims := dims }

/-- op6 of the transfer words (R438). -/
def opCopy : Nat := 2
def opCast : Nat := 3
def opZip : Nat := 4
def opUnzip : Nat := 5
def opFill : Nat := 6
def opSend : Nat := 7
def opRecv : Nat := 8
def opVirt : Nat := 9

/-- Bytes of an element of a type code (R275). -/
def widthOf (f : Nat) : Nat := (etype f).bytes
/-- Source and destination width of an element. -/
def Desc.sw (d : Desc) (op : Nat) : Nat := if op = opCast then widthOf d.sfmt else 2 ^ d.esz
def Desc.dw (d : Desc) (op : Nat) : Nat := if op = opCast then widthOf d.dfmt else 2 ^ d.esz
/-- Elements of the word. -/
def Desc.count (d : Desc) : Nat := d.dims.foldl (fun n x => n * x.1) 1
/-- Tiles of a compressing word: iterations of dimensions 1 and up (R447). -/
def Desc.tiles (d : Desc) : Nat := (d.dims.drop 1).foldl (fun n x => n * x.1) 1
/-- Elements of a tile. -/
def Desc.tile (d : Desc) : Nat := (d.dims.headD (1, 0, 0)).1
/-- Width of the larger stream. -/
def Desc.wide (d : Desc) (op : Nat) : Nat := max (d.sw op) (d.dw op)
/-- Elements of a chunk. -/
def Desc.per64 (d : Desc) (op : Nat) : Nat := 64 / d.wide op
/-- C of R437. -/
def Desc.chunks (d : Desc) (op : Nat) : Nat := ceilDiv (d.count * d.wide op) 64

/-- The fields that a word does not use are 0 (R438). -/
def Desc.unusedZero (d : Desc) (op : Nat) : Bool :=
  let uses (l : List Nat) := l.contains op
  (uses [opCast, opZip, opUnzip] || d.sfmt == 0) && (uses [opCast] || (d.dfmt == 0 && d.rm == 0 && d.ovf == 0)) &&
  (uses [opCopy, opCast, opFill, opSend, opRecv] || !d.tan) && (uses [opCopy] || (!d.mc && !d.col)) &&
  (uses [opZip, opUnzip] || d.codec == 0) && (!uses [opCast] || d.esz == 0) &&
  (uses [opSend, opRecv] || (d.slot == 0 && d.per == 1)) && (uses [opCopy, opZip, opFill] || d.aux == 0)

/-- The die name fields other than OPOS and SPACE are 0 (R449). -/
def nameClean (x : W64) : Bool := decide (bits x.toNat 53 0 = 0)

/-- AUX of a copy (R438, R442, R444). -/
def Desc.copyAux (d : Desc) : Bool :=
  if d.mc && d.col then false
  else if d.mc then
    decide (bits d.aux.toNat 63 56 = 0) && decide (d.count * 2 ^ d.esz ≤ 65536) &&
    (!(ptrSpace d.dst.toNat == 2 || ptrSpace d.dst.toNat == 3) || decide (bits d.aux.toNat 55 48 = 0))
  else if d.col then decide (bits d.aux.toNat 63 36 = 0) && !d.tan && decide (bits d.dst.toNat 53 48 = 0)
  else d.aux == 0

/-- A descriptor meets its word's row in everything but the spaces of SRC and DST (R438, R447, R453). -/
def Desc.legal (d : Desc) (op : Nat) : Bool :=
  d.unusedZero op &&
  (op != opCopy || d.copyAux) &&
  (op != opZip || decide (2 ^ d.esz = widthOf d.sfmt)) &&
  (op != opZip || (d.dims.all (fun x => x.2.2 == 0) && decide (d.tile * 2 ^ d.esz ≤ 32768) &&
    decide (d.aux.toNat < 2 ^ 32))) &&
  (!(op == opUnzip || op == opRecv) || d.dims.all (fun x => x.2.1 == 0)) &&
  (op != opFill || (d.src == 0 && d.dims.all (fun x => x.2.1 == 0))) &&
  (op != opSend || (d.dims.all (fun x => x.2.2 == 0) && nameClean d.dst)) &&
  (op != opRecv || nameClean d.src) &&
  (op != opVirt || (ptrSpace d.src.toNat == 5) != (ptrSpace d.dst.toNat == 5) ||
    decide (5 < ptrSpace d.src.toNat) || decide (5 < ptrSpace d.dst.toNat))

/-! ### Elements -/

/-- Σ i_d × stride_d of element i, dimension 0 fastest (R437). -/
def offAt (pick : Nat × Int × Int → Int) : List (Nat × Int × Int) → Nat → Int
  | [], _ => 0
  | d :: r, i => pick d * ((i % d.1 : Nat) : Int) + offAt pick r (i / d.1)

def sstr (d : Nat × Int × Int) : Int := d.2.1
def dstr (d : Nat × Int × Int) : Int := d.2.2

/-- The lowest and the highest offset of any element. -/
def lowOff (pick : Nat × Int × Int → Int) (ds : List (Nat × Int × Int)) : Int :=
  ds.foldl (fun a d => a + min 0 (pick d * (d.1 - 1 : Nat))) 0
def highOff (pick : Nat × Int × Int → Int) (ds : List (Nat × Int × Int)) : Int :=
  ds.foldl (fun a d => a + max 0 (pick d * (d.1 - 1 : Nat))) 0

/-- An offset added to a flat address. -/
def addOff (a : Nat) (o : Int) : Nat := ((a : Int) + o).toNat

/-- The elements of chunk c; of the whole stream for a multicast. -/
def XfWord.elems (t : XfWord) (c : Nat) : List Nat :=
  let n := t.d.count
  if t.d.mc then List.range n
  else
    let m := t.d.per64 t.op
    (List.range (min m (n - c * m))).map (· + c * m)

/-- Tangent planes of a side: an access in space 0x3 carries primal values only (R219; log 108). -/
def planesIn (x : W64) (k : Nat) : Nat := if ptrSpace x.toNat = 3 then 0 else k
def XfWord.srcK (t : XfWord) : Nat := planesIn t.d.src t.k
def XfWord.dstK (t : XfWord) : Nat := planesIn t.d.dst t.k

/-- Address of element i on the source side in plane j (R453). -/
def XfWord.srcAt (t : XfWord) (i j : Nat) : Nat := addOff t.src.addr (offAt sstr t.d.dims i) + j * t.stride
/-- Address of element i from a destination base in plane j. -/
def XfWord.dstAt (t : XfWord) (base i j : Nat) : Nat := addOff base (offAt dstr t.d.dims i) + j * t.stride

/-- A byte stream cut into elements of `w` bytes at the addresses of the elements given. -/
def cut (w : Nat) (addr : Nat → Nat) : List Nat → List Byte → List (Nat × List Byte)
  | [], _ => []
  | i :: r, bs => (addr i, bs.take w) :: cut w addr r (bs.drop w)

/-- Performs the elements of a chunk at a destination, every plane that the destination takes in the same scy (R439, R453, R454). -/
def State.xfWrite (s : State) (t : XfWord) (c base : Nat) (planes : List (List Byte)) (pois : Bool) : State :=
  s.writeScatter ((planes.take (t.dstK + 1)).zipIdx.flatMap fun p => cut (t.d.dw t.op) (fun i => t.dstAt base i p.2) (t.elems c) p.1) pois

/-! ### Checks (R193, R194, R438, R440, R442, R449, R452, R453) -/

/-- The order of R194 in which one of several failed conditions is raised. -/
def orderOf (sub : Nat) : Nat :=
  match sub with
  | 1 => 0 | 4 => 1 | 2 => 2 | 3 => 3 | 11 => 4 | 8 => 5 | 5 => 6 | 9 => 7 | _ => 8

/-- Of two faults the one that R194 raises: translation before sets, then the order of the conditions. -/
def firstFault (a b : Option (Nat × Nat)) : Option (Nat × Nat) :=
  match a, b with
  | none, y => y
  | x, none => x
  | some (ka, ca), some (kb, cb) =>
    let rank := fun (k c : Nat) => if k = 0x0B then orderOf c else if k = 0x0C then 9 else 10 + c
    if rank kb cb < rank ka ca then some (kb, cb) else some (ka, ca)

/-- What a transfer word needs of its pointers: the hub, the bounds of its offsets and the runs that it accesses
from the pointer. -/
structure XfNeed where
  die : Nat
  hub : Nat
  eng : Nat
  lo : Int
  hi : Int
  use : Use
  /-- Offset and bytes of each access. -/
  runs : List (Int × Nat)
  k : Nat
  stride : Nat
  /-- The declared sets of the engine at the word's issue (R182). -/
  sets : List Range
  /-- The word may reach another die in a timed launch (R440). -/
  apart : Bool

/-- Checks one pointer of spaces 0x0 to 0x4 and gives its side (R193, R194). -/
def State.xfMemory (s : State) (n : XfNeed) (x : Nat) : Except (Nat × Nat) XfSide :=
  let l := (s.hub n.die n.hub).launch
  let o : Int := ptrOff x
  match s.owner n.die n.hub l.part x with
  | .error c => .error (0x0B, c)
  | .ok (home, limit, q) =>
    let base := flat home (ptrOff x)
    let lines := fun (j : Nat) => n.runs.flatMap fun r => linesOf (addOff base r.1 + j * n.stride) r.2
    let slotsBad := fun j => decide (ptrSpace x = 4) && !((lines j).all fun ln => s.slotValid q (ln % 2 ^ 58 / 1024))
    let ks := (List.range n.k).map (· + 1)
    if o + n.lo < 0 ∨ (limit : Int) < o + n.hi then .error (0x0B, 3)
    else if slotsBad 0 then .error (0x0B, 8)
    else if l.timed ∧ !n.apart ∧ q ≠ n.die then .error (0x0B, 5)
    else if n.k ≠ 0 ∧ (n.stride = 0 ∨ (limit : Int) < o + n.hi + n.k * n.stride ∨ ks.any slotsBad) then .error (0x0B, 9)
    else
      .ok { die := q, addr := base, far := decide (q ≠ n.die), prom := s.promiseTo n.die q,
            lpos := ptrPos x, hub := ptrHub x }

/-- Checks one pointer of space 0x5 against the handle state at issue (R205, R452). -/
def xfPage (n : XfNeed) (hs : SMap Handle) (x : Nat) : Except (Nat × Nat) XfSide :=
  let h := SMap.get {} hs (bits x 51 48)
  let wr := match n.use with | .read => false | _ => true
  let o : Int := ptrOff x
  if bits x 59 52 ≠ 0 then .error (0x0B, 2)
  else if h.st = .valid ∧ (o + n.lo < 0 ∨ (h.size : Int) < o + n.hi) then .error (0x0B, 3)
  else
    match handleAccess h (ptrOff x) 0 wr with
    | .error e => .error e
    | .ok none => .ok { die := 48, far := true, prom := handlePromise h, handle := some (bits x 51 48), void := true }
    | .ok (some a) =>
      .ok { die := homeDie (homeOf a), addr := a, far := true, prom := handlePromise h, handle := some (bits x 51 48) }

/-- The set violation that the runs of a side raise, lowest subcode first (R183). -/
def State.xfSets (s : State) (n : XfNeed) (base : Nat) : Option Nat :=
  (List.range (n.k + 1)).foldl (fun acc j => n.runs.foldl (fun acc r =>
    lowest acc (s.violationIn n.sets n.use (addOff base r.1 + j * n.stride) r.2)) acc) none

/-- A side with its translation and set checks; the first fault of R194. -/
def State.xfSide (s : State) (n : XfNeed) (hs : SMap Handle) (x : Nat) (open_ : Nat → Bool) :
    Except (Nat × Nat) XfSide :=
  let sp := ptrSpace x
  if 8 ≤ sp then .error (0x0B, 1)
  else if !open_ sp then .error (0x0B, 4)
  else if sp = 5 then xfPage n hs x
  else
    match s.xfMemory n x with
    | .error e => .error e
    | .ok d => match s.xfSets n d.addr with
      | some c => .error (0x02, c)
      | none => .ok d

/-- The destinations of a multicast as pointers (R442). -/
def Desc.mcPointers (d : Desc) : List Nat :=
  let x := d.dst.toNat
  let hubs := if bits d.aux.toNat 55 48 = 0 then [ptrHub x] else (List.range 8).filter fun h => d.aux.toNat.testBit (48 + h)
  let place := fun p h => ptrSpace x * 2 ^ 60 + p * 2 ^ 54 + h * 2 ^ 51 + x % 2 ^ 51
  ((List.range 48).filter fun p => d.aux.toNat.testBit p).flatMap fun p => hubs.map fun h => place p h

/-- A side's accesses write into an endpoint ring (R78, R183). -/
def State.ringBroken (s : State) (n : XfNeed) (x : Nat) : Bool :=
  match s.xfMemory n x with
  | .error _ => false
  | .ok d => n.runs.any fun r => (linesOf (addOff d.addr r.1) r.2).any s.inRing

/-- Sides of a multicast: a destination of another kind, or not bound, is subcode 2; one outside the write set is
set violation 6, and of several violations the lowest is raised (R183, R442). Space 0x0 names no other owner (R193). -/
def State.mcSides (s : State) (n : XfNeed) (d : Desc) : List Nat → Except (Nat × Nat) (List XfSide)
  | [] => .ok []
  | x :: r =>
    let l := (s.hub n.die n.hub).launch
    let kindOf := fun p => (s.phys l.part p).map s.kind
    let own := if ptrSpace x = 0 then x % 2 ^ 48 else x
    let bad := (kindOf (ptrPos x)).isNone || (ptrSpace x != 0 && kindOf (ptrPos x) != kindOf (ptrPos d.dst.toNat)) ||
      (ptrSpace x == 0 && (s.phys l.part (ptrPos x) != some n.die || ptrHub x != n.hub))
    let first : Except (Nat × Nat) XfSide :=
      if bad then .error (0x0B, 2)
      else match s.xfSide n [] own (openTo .transfer) with
        | .error (0x02, 2) => .error (0x02, if s.ringBroken n own then 5 else 6)
        | x => x
    match first, s.mcSides n d r with
    | .ok a, .ok as => .ok (a :: as)
    | .ok _, .error e => .error e
    | .error e, .ok _ => .error e
    | .error e, .error f => .error ((firstFault (some e) (some f)).getD e)

/-- The physical die that a die name means (R449), or the fault. -/
def State.nameDie (s : State) (die hub x : Nat) : Except (Nat × Nat) Nat :=
  let l := (s.hub die hub).launch
  if 8 ≤ ptrSpace x then .error (0x0B, 1)
  else if ptrSpace x ≠ 0 then .error (0x0B, 4)
  else
    match s.phys l.part (ptrPos x) with
    | none => .error (0x0B, 2)
    | some q =>
      if !l.timed ∨ q = die ∨ (s.timedLatency l.plid die q).isNone ∨ !s.isMember l.plid q then .error (0x0B, 5)
      else .ok q

/-- Bytes of the longest record stream that the dimensions permit (R448). -/
def Desc.longest (d : Desc) : Nat := d.tiles * (16 + d.tile * (2 ^ d.esz + 1))

/-- Tangent planes that a word carries (R453). -/
def Desc.planes (d : Desc) (k : Nat) : Nat := if d.tan then k else 0

/-- XFVIRT, XFSEND, XFRECV and a collective contribution may have a target on another die in a timed launch (R440). -/
def XfWord.apart (t : XfWord) : Bool := t.op == opVirt || t.op == opSend || t.op == opRecv || t.d.col

/-- What the word needs of its source. -/
def XfWord.srcNeed (t : XfWord) : XfNeed :=
  let w := t.d.sw t.op
  if t.op = opUnzip then
    ⟨t.die, t.hub, t.eng, 0, t.d.longest, .read, [(0, t.d.longest)], 0, 0, t.sets, t.apart⟩
  else
    ⟨t.die, t.hub, t.eng, lowOff sstr t.d.dims, highOff sstr t.d.dims + w, .read,
      (List.range t.d.count).map fun i => (offAt sstr t.d.dims i, w), t.srcK, t.stride, t.sets, t.apart⟩

/-- What the word needs of a destination. The allocation of a compressing word is its destination (R284). -/
def XfWord.dstNeed (t : XfWord) : XfNeed :=
  let w := t.d.dw t.op
  if t.op = opZip then
    ⟨t.die, t.hub, t.eng, 0, t.d.aux.toNat, .write, [(0, t.d.aux.toNat)], 0, 0, t.sets, t.apart⟩
  else
    ⟨t.die, t.hub, t.eng, lowOff dstr t.d.dims, highOff dstr t.d.dims + w, .write,
      (List.range t.d.count).map fun i => (offAt dstr t.d.dims i, w), t.dstK, t.stride, t.sets, t.apart⟩

/-- A collective's destination: the context's X-die (R444). -/
def State.colSide (s : State) (t : XfWord) : Except (Nat × Nat) XfSide :=
  let x := t.d.dst.toNat
  let l := (s.hub t.die t.hub).launch
  if 8 ≤ ptrSpace x then .error (0x0B, 1)
  else if ptrSpace x ≠ 0 then .error (0x01, 2)
  else if l.timed then .error (0x0B, 4)
  else
    match (s.phys l.part (ptrPos x)).filter fun q => s.kind q == .xDie with
    | none => .error (0x0B, 2)
    | some q =>
      let c := (s.xdie q).context (t.d.aux.toNat % 16)
      -- INFMT is coded as ETYPE 0 to 4 (R84, R275)
      if 2 ^ t.d.esz ≠ widthOf (ctxIn c) then .error (0x01, 2)
      else .ok { die := q, far := true, lpos := ptrPos x }

/-- Sides, peer and the number of pieces of a word, or its fault. -/
def State.resolve (s : State) (t : XfWord) (hs : SMap Handle) : Except (Nat × Nat) XfWord :=
  let memory := fun n => n ≤ 4
  let src : Except (Nat × Nat) XfSide :=
    if t.op = opFill ∨ t.op = opRecv then .ok {}
    else s.xfSide t.srcNeed hs t.d.src.toNat (fun n =>
      if t.op = opSend then n == 0 else if t.op = opVirt then n ≤ 5 else memory n)
  let dsts : Except (Nat × Nat) (List XfSide) :=
    if t.op = opSend then .ok []
    else if t.d.col then (s.colSide t).map fun d => [d]
    else if t.d.mc then
      (if 8 ≤ ptrSpace t.d.dst.toNat then .error (0x0B, 1) else if !memory (ptrSpace t.d.dst.toNat) then .error (0x0B, 4)
       else s.mcSides t.dstNeed t.d t.d.mcPointers)
    else
      match s.xfSide t.dstNeed hs t.d.dst.toNat (fun n =>
        if t.op = opRecv then n ≤ 3 else if t.op = opVirt then n ≤ 5 else memory n) with
      | .error e => .error e
      | .ok d => if t.op = opRecv ∧ d.far then .error (0x0B, 4) else .ok [d]
  let peer : Except (Nat × Nat) Nat :=
    if t.op = opSend then s.nameDie t.die t.hub t.d.dst.toNat
    else if t.op = opRecv then s.nameDie t.die t.hub t.d.src.toNat
    else .ok t.die
  match src, dsts, peer with
  | .ok a, .ok b, .ok p => .ok { t with src := a, dsts := b, peer := p }
  | x, y, z => .error ((firstFault (firstFault (errOf x) (errOf y)) (errOf z)).getD (0x01, 2))
where
  errOf {α : Type} : Except (Nat × Nat) α → Option (Nat × Nat)
    | .error e => some e
    | .ok _ => none

/-! ### The course of a word -/

/-- Places a micro-operation of the word on the agenda. -/
def State.xfAt (s : State) (t : XfWord) (at_ : Nat) (x : XfAct) : State :=
  s.post t.die at_ (s.hub t.die t.hub).lpos t.hub t.eng (.xf x)

/-- The current CADENCE of the word's die. -/
def State.xfNow (s : State) (t : XfWord) : Nat := (s.die t.die).cad

/-- The word has ended: its timeline advances in the next scy (R441). The entry of a compressing word enters the
queue at the end of a scy, after its pops (R287). -/
def State.xfEnd (s : State) (t : XfWord) : State :=
  let a : Arg := { die := t.die, hub := t.hub, eng := t.eng, n := t.num }
  let p := fun at_ (a : Arg) => s.post t.die at_ (s.hub t.die t.hub).lpos t.hub t.eng (.ev .transferWordEnd a)
  match t.reply with
  | none => p (s.xfNow t) a
  | some r => p (s.xfNow t + 2)
      { a with
        ok := false, value := BitVec.ofNat 64 r.1, m := r.2.1, part := bitOf r.2.2 }

/-- A piece of a word has been performed or acknowledged; with the last the word ends (R441). -/
def State.xfPiece (s : State) (t : XfWord) : State :=
  let h := s.hub t.die t.hub
  let e := h.stream t.eng
  let n := SMap.get 0 e.pieces t.num
  if n = 0 then s
  else
    let s := s.setHub t.die t.hub (h.setStream t.eng { e with pieces := SMap.set 0 e.pieces t.num (n - 1) })
    if n = 1 then s.xfEnd t else s

/-- A fault of a word under way or of its descriptor (R436, R440): its issue mark is the fault mark. -/
def State.xfFault (s : State) (t : XfWord) (kind sub low : Nat) : State :=
  s.takeFaultAs t.die t.hub ⟨kind, sub, t.eng, detailOf t.seg t.idx (min low 0xFFFF), (s.die t.die).markAt t.issue⟩ [] (some t.num)

/-- Slots that a word takes beyond its first (R439, R447, R448). -/
def XfWord.slots (t : XfWord) : Nat :=
  let c := t.d.chunks t.op
  if t.op = opZip then c + 2 * t.d.tiles
  else if t.op = opUnzip then 2 * c + 2 * t.d.tiles
  else if t.op = opSend ∨ t.op = opRecv then c * t.d.per
  else c

/-- The engine's next word issues after the slots of this one (R439). -/
def State.xfOccupy (s : State) (die hub eng last : Nat) : State :=
  let h := s.hub die hub
  s.setHub die hub (h.setStream eng { h.stream eng with next := last + 1, free := last + 1 })

/-- Starts the course of a word whose checks have passed (R439 to R452). -/
def State.xfStart (s : State) (t : XfWord) : State :=
  let h := s.hub t.die t.hub
  let n := if t.d.mc then t.dsts.length else t.d.chunks t.op
  let e := h.stream t.eng
  let s := s.setHub t.die t.hub ((h.setStream t.eng
    { e with pieces := SMap.set 0 e.pieces t.num n, staging := SMap.drop e.staging t.num }).issueOp (timelineOf t.eng))
  if t.op = opSend then s.xfAt t (t.issue + 4) (.beat t 0)
  else if t.op = opRecv then s.xfAt t (t.issue + 6) (.take t 0)
  else if t.op = opUnzip then s.xfAt t (t.issue + 4) (.unzipRead t)
  else s.xfAt t (t.issue + 4) (.chunk t 0)

/-- The descriptor is sampled and checked (R436 to R438). -/
def State.xfDesc (s : State) (die hub eng op e issue seg idx : Nat) (w : XfIssue) : State :=
  let h := s.hub die hub
  let size := (s.kind die).scratchSize
  let a := flat (homeScratch (s.kind die) die hub) (128 * e)
  let n := if 8 < ndimOf (s.readNat (a + 16) 8) then 256 else 128
  let bs := s.readBytes a n
  let t : XfWord := { op := op, d := {}, die := die, hub := hub, eng := eng, issue := issue,
                      num := (h.timeline (timelineOf eng)).issued + 1, k := 0, stride := w.tstride, seg := seg, idx := idx, sets := w.sets }
  let s := s.eccRead die hub eng (detailOf seg idx 0) [(a, n)]
  if size < 128 * e + 128 ∨ size < 128 * e + n then s.xfFault t 0x0B 3 0
  else if s.poisoned a n then s.xfFault t 0x0A 2 0
  else
    match descOf bs with
    | none => s.xfFault t 0x01 2 0
    | some d =>
      let t := { t with d := d, k := d.planes h.launch.tk }
      if !d.legal op then s.xfFault t 0x01 2 0
      else
        let s := s.xfOccupy die hub eng (issue + t.slots)
        match (s.withTags w.tags).resolve t w.handles with
        | .error (k, c) => s.xfFault t k c 0
        | .ok t => s.xfStart t

/-- Nothing more of a word is sent or written (R254, R452). -/
def State.xfDrop (s : State) (t : XfWord) : State :=
  { s with
    agenda := s.agenda.filter fun d => match d.act with
      | .xf (.chunk u _) => !(u.die == t.die && u.hub == t.hub && u.eng == t.eng && u.num == t.num)
      | .xf (.perform u ..) => !(u.die == t.die && u.hub == t.hub && u.eng == t.eng && u.num == t.num)
      | _ => true }

/-- The handle of a side has been shot since the word issued: a chunk that is not yet issued faults (R211, R452). -/
def State.sideShot (s : State) (t : XfWord) (x : XfSide) : Bool :=
  match x.handle with
  | none => false
  | some h => !x.void && (SMap.get {} (s.hub t.die t.hub).handles h).st == .shot

/-- The bytes of the elements of chunk c in plane j, and the poison of each element; a plane that the source does not have is a
tangent of +0 (log 108). -/
def State.gatherChunk (s : State) (t : XfWord) (c j : Nat) : List Byte × List Bool :=
  let w := t.d.sw t.op
  let es := { t with d := { t.d with mc := false } }.elems c
  if t.srcK < j then (List.replicate (es.length * w) 0, es.map fun _ => false)
  else ((es.map fun i => s.readBytes (t.srcAt i j) w).flatten, es.map fun i => s.poisoned (t.srcAt i j) w)

/-- The places that chunk c of a word reads, plane by plane. -/
def XfWord.places (t : XfWord) (c : Nat) : List (Nat × Nat) :=
  let w := t.d.sw t.op
  let es := { t with d := { t.d with mc := false } }.elems c
  (List.range (t.srcK + 1)).flatMap fun j => es.map fun i => (t.srcAt i j, w)

/-- Elements converted by XFCAST; other words move bytes unchanged (R442, R445, R453). -/
def XfWord.convert (t : XfWord) (j : Nat) (bs : List Byte) : List Byte :=
  if t.op ≠ opCast then bs
  else
    let w := t.d.sw t.op
    let src := etype t.d.sfmt
    let dst := etype t.d.dfmt
    let n := bs.length / w
    ((List.range n).map fun i =>
      let x := fieldAt bs (i * w) w
      leBytes (t.d.dw t.op)
        (if j ≠ 0 ∧ !(src.isFp && dst.isFp) then 0 else Machine.convert src dst t.d.rm (ovfOf t.d.ovf) x)).flatten

/-- The bytes that XFFILL writes for chunk c: the value, zero in the tangent planes (R446). -/
def XfWord.fill (t : XfWord) (c : Nat) : List (List Byte) :=
  (List.range (t.k + 1)).map fun j =>
    ((t.elems c).map fun _ => if j = 0 then leBytes (2 ^ t.d.esz) t.d.aux.toNat else List.replicate (2 ^ t.d.esz) 0).flatten

/-- The chunks of a word that the staging buffer holds. -/
def Eng.stage (e : Eng) (num : Nat) : SMap Chunk := SMap.get [] e.staging num

/-- The data of chunk c stands: a staged word keeps it, another performs it 4 scy later (R439, R440, R443). -/
def State.xfData (s : State) (t : XfWord) (c : Nat) (planes : List (List Byte)) (pois : List Bool) : State :=
  let bad := pois.any id
  if t.d.mc || t.op == opZip then
    let h := s.hub t.die t.hub
    let e := h.stream t.eng
    let all := SMap.put (e.stage t.num) c ⟨planes, pois⟩
    let s := s.setHub t.die t.hub (h.setStream t.eng { e with staging := SMap.put e.staging t.num all })
    if all.length < t.d.chunks t.op then s
    else if t.op = opZip then s.xfAt t (s.xfNow t + 4 + 2 * t.d.tiles) (.zip t)
    else s.xfAt t (s.xfNow t + 5) (.multi t)
  else s.xfAt t (s.xfNow t + 4) (.perform t c (planes.zipIdx.map fun p => t.convert p.2 p.1) bad)

/-- Chunk c is sampled at issue + 4 + c; a remote source by a counted read (R439, R440, R452). -/
def State.xfChunk (s : State) (t : XfWord) (c : Nat) : State :=
  let s := if c + 1 < t.d.chunks t.op then s.xfAt t (s.xfNow t + 1) (.chunk t (c + 1)) else s
  let n := ({ t with d := { t.d with mc := false } }.elems c).length
  let blank := (List.range (t.k + 1)).map fun _ => List.replicate (n * t.d.sw t.op) (0 : Byte)
  if t.op = opFill then s.xfAt t (s.xfNow t + 4) (.perform t c (t.fill c) false)
  else if t.src.void then s.xfAt t (s.xfNow t + t.src.prom + 4) (.perform t c blank true)
  else if s.sideShot t t.src then (s.xfDrop t).xfFault t 0x0C 2 c
  else if t.src.far then
    let p : Pkt := { typ := 0, die := t.die, hub := t.hub, eng := t.eng, part := (s.hub t.die t.hub).launch.part, detail := t.detail,
                     target := t.src.die, addr := t.src.addr, n := n * t.d.sw t.op, xf := some (t, c) }
    let id := s.netSeq
    (s.send p).post t.die (s.xfNow t + t.src.prom) (s.hub t.die t.hub).lpos t.hub t.eng
      (.ev .countedReplyDeadline { die := t.die, hub := t.hub, n := id })
  else
    let g := (List.range (t.k + 1)).map fun j => s.gatherChunk t c j
    (s.eccRead t.die t.hub t.eng (detailOf t.seg t.idx (min c 0xFFFF)) (t.places c)).xfData t c (g.map (·.1)) ((g.flatMap (·.2)))

/-- A destination's die cannot perform: it has failed (R27, R443). -/
def State.dieLost (s : State) (p : Nat) : Bool := decide (p < 48) && SMap.get false s.dev.dieFail p

/-- A destination of a multicast fails: its die has failed, or its write path reports an uncorrectable error (R443). -/
def State.destFails (s : State) (t : XfWord) (p base : Nat) : Bool :=
  s.dieLost p || (!s.ecc.isEmpty &&
    (List.range (t.dstK + 1)).any fun j => (List.range t.d.count).any fun i => s.eccBad (t.dstAt base i j) (t.d.dw t.op))

/-- Records a failing destination of a multicast (R443). -/
def State.xfFailed (s : State) (t : XfWord) (d : XfSide) : State :=
  let h := s.hub t.die t.hub
  let e := h.stream t.eng
  s.setHub t.die t.hub (h.setStream t.eng { e with fails := e.fails ++ [(t.num, d.lpos, d.hub)] })

/-- Sends a counted write of chunk c, or of a multicast's stream, to destination number `i` (R440, R443): `pois` of each chunk. -/
def State.xfSend (s : State) (t : XfWord) (c i : Nat) (d : XfSide) (planes : List (List Byte)) (pois : List Bool) : State :=
  s.send { typ := 2, die := t.die, hub := t.hub, eng := t.eng, part := (s.hub t.die t.hub).launch.part, detail := t.detail,
           target := d.die, addr := d.addr, n := (planes.headD []).length, bytes := planes.headD [],
           planes := planes, elems := pois, pois := pois.contains true, xf := some (t, c), dst := i }

/-- A collective contribution of chunk c travels to its X-die (R444). -/
def State.xfContribute (s : State) (t : XfWord) (c : Nat) (bytes : List Byte) : State :=
  let w := 2 ^ t.d.esz
  let es := t.elems c
  let first := ptrOff t.d.dst.toNat
  let vals := es.zipIdx.map fun x => (((first : Int) + offAt dstr t.d.dims x.1).toNat / w, fieldAt bytes (x.2 * w) w)
  let d := t.dsts.headD {}
  s.send
    { typ := 0xA, die := t.die, hub := t.hub, eng := t.eng, part := (s.hub t.die t.hub).launch.part, detail := t.detail, target := d.die,
      addr := t.d.aux.toNat % 16, n := bytes.length, xf := some (t, c),
      con := { count := bits t.d.aux.toNat 35 4 + 1, vals := vals } }

/-- Chunk c is performed: on the own die now, elsewhere by a counted write (R439, R440, R444, R452). -/
def State.xfPerform (s : State) (t : XfWord) (c : Nat) (planes : List (List Byte)) (pois : Bool) : State :=
  let d := t.dsts.headD {}
  if t.d.col then (if pois then (s.xfDrop t).xfFault t 0x0A 1 c else s.xfContribute t c (planes.headD []))
  else if d.handle.isSome then
    if pois then (s.xfDrop t).xfFault t 0x0A 1 c
    else if s.sideShot t d then (s.xfDrop t).xfFault t 0x0C 2 c
    else s.xfSend t c 0 d planes [pois]
  else if d.far then s.xfSend t c 0 d planes [pois]
  else (s.xfWrite t c d.addr planes pois).xfPiece t

/-- The runs of tile c of an expanding word (R448). -/
def XfWord.tileRuns (t : XfWord) (base c : Nat) (bs : List Byte) : List (Nat × List Byte) :=
  cut (2 ^ t.d.esz) (fun i => t.dstAt base i 0) ((List.range t.d.tile).map (· + c * t.d.tile)) bs

/-- A multicast's stream is performed at a destination: a poisoned chunk poisons the lines that it writes (R254, R443, R454). -/
def State.xfStream (s : State) (t : XfWord) (base : Nat) (planes : List (List Byte)) (pois : List Bool) : State :=
  let u := { t with d := { t.d with mc := false } }
  pois.zipIdx.foldl (fun (s : State) x => s.xfWrite u x.2 base (planes.map fun p => (p.drop (64 * x.2)).take 64) x.1) s

/-- A counted write of a transfer word is performed at its target (R440, R443, R447, R448). -/
def State.xfArrive (s : State) (t : XfWord) (c : Nat) (p : Pkt) : State :=
  if t.op = opZip then s.writeScatter [(p.addr, p.bytes)] p.pois
  else if t.op = opUnzip then s.writeScatter (t.tileRuns p.addr c p.bytes) p.pois
  else if t.d.mc then s.xfStream t p.addr p.planes p.elems
  else s.xfWrite t c p.addr p.planes p.pois

/-- The staged stream of a word, plane by plane. -/
def Eng.staged (e : Eng) (num k : Nat) : List (List Byte) :=
  (List.range (k + 1)).map fun j => ((e.stage num).map fun x => x.2.planes.getD j []).flatten

/-- A word's staged stream leaves the staging buffer. -/
def State.unstage (s : State) (t : XfWord) : State :=
  let h := s.hub t.die t.hub
  let e := h.stream t.eng
  s.setHub t.die t.hub (h.setStream t.eng { e with staging := SMap.drop e.staging t.num })

/-- The staged stream of a multicast: destinations of the own die perform it in this scy, others when it has
reached them (R443). One without destinations ends here (R441). -/
def State.xfMulti (s : State) (t : XfWord) : State :=
  let e := (s.hub t.die t.hub).stream t.eng
  let planes := e.staged t.num t.k
  let pois := (e.stage t.num).map fun x => x.2.pois.any id
  let s := s.unstage t
  if t.dsts.isEmpty then s.xfEnd t
  else
    t.dsts.zipIdx.foldl (fun (s : State) x =>
      if x.1.far then s.xfSend t 0 x.2 x.1 planes pois
      else if s.destFails t x.1.die x.1.addr then (s.xfFailed t x.1).xfPiece t
      else (s.xfStream t x.1.addr planes pois).xfPiece t) s

/-! ### Compression (R447, R448) -/

/-- The length of the run of one kind at the head, up to `lim`. -/
def runLength (nz : List Byte → Bool) (kind : Bool) : Nat → List (List Byte) → Nat
  | 0, _ => 0
  | _, [] => 0
  | n + 1, x :: r => if nz x = kind then runLength nz kind n r + 1 else 0

/-- Zero-run tokens: each run is the longest, up to 128 elements. -/
def zeroRun (nz : List Byte → Bool) : Nat → List (List Byte) → List Byte
  | 0, _ => []
  | _, [] => []
  | f + 1, x :: r =>
    let n := runLength nz (nz x) 128 (x :: r)
    (if nz x then BitVec.ofNat 8 (n - 1) :: ((x :: r).take n).flatten else [BitVec.ofNat 8 (n + 0x7F)]) ++
      zeroRun nz f ((x :: r).drop n)

/-- Bitmap of the nonzero elements, then those elements. -/
def bitmapOf (nz : List Byte → Bool) (xs : List (List Byte)) : List Byte :=
  leBytes (ceilDiv xs.length 8) (xs.foldr (fun x a => bitOf (nz x) + 2 * a) 0) ++ (xs.filter nz).flatten

/-- A tile's record: header, payload, padding to a multiple of 8 (R447). -/
def recordOf (codec : Nat) (nz : List Byte → Bool) (xs : List (List Byte)) : List Byte :=
  let p := if codec = 0 then zeroRun nz xs.length xs else bitmapOf nz xs
  leBytes 8 (p.length % 2 ^ 32 + xs.length % 2 ^ 16 * 2 ^ 32 + codec * 2 ^ 48) ++ p ++
    List.replicate (roundUp p.length 8 - p.length) 0

/-- Elements of `w` bytes. -/
def elements (w : Nat) : Nat → List Byte → List (List Byte)
  | 0, _ => []
  | n + 1, bs => bs.take w :: elements w n (bs.drop w)

/-- Records placed in tile order while they fit: offset, bytes and poison of each (R284). -/
def placeTiles (codec space : Nat) (nz : List Byte → Bool) (off : Nat) : List (List (List Byte) × Bool) → List (Nat × List Byte × Bool)
  | [] => []
  | (xs, p) :: r =>
    let rec_ := recordOf codec nz xs
    if space < off + rec_.length then [] else (off, rec_, p) :: placeTiles codec space nz (off + rec_.length) r

/-- The tiles of a staged word, with the poison of each. -/
def tilesOf (w m : Nat) : Nat → List Byte → List Bool → List (List (List Byte) × Bool)
  | 0, _, _ => []
  | n + 1, bs, ps => (elements w m bs, (ps.take m).any id) :: tilesOf w m n (bs.drop (m * w)) (ps.drop m)

/-- A compressing word performs its tiles: on the own die now, elsewhere by counted writes, with which it ends
(R440, R441). `x` gives each tile's number, flat address, runs and poison. -/
def State.xfTiles (s : State) (t : XfWord) (xs : List (Nat × Nat × List (Nat × List Byte) × Bool)) : State :=
  let d := t.dsts.headD {}
  if d.far && !xs.isEmpty then
    let h := s.hub t.die t.hub
    let e := h.stream t.eng
    let s := s.setHub t.die t.hub (h.setStream t.eng { e with pieces := SMap.set 0 e.pieces t.num xs.length })
    xs.foldl (fun (s : State) x => xfSendTile s t d x.1 x.2.1 x.2.2.1 x.2.2.2) s
  else (xs.foldl (fun (s : State) x => s.writeScatter x.2.2.1 x.2.2.2) s).xfEnd t
where
  xfSendTile (s : State) (t : XfWord) (d : XfSide) (c a : Nat) (runs : List (Nat × List Byte)) (pois : Bool) : State :=
    s.send
      { typ := 2, die := t.die, hub := t.hub, eng := t.eng, part := (s.hub t.die t.hub).launch.part, detail := t.detail,
        target := d.die, addr := a, n := 0, bytes := (runs.map (·.2)).flatten, pois := pois, xf := some (t, c) }

/-- XFZIP performs its records and pushes its reply (R284, R447). -/
def State.xfZip (s : State) (t : XfWord) : State :=
  let e := (s.hub t.die t.hub).stream t.eng
  let w := 2 ^ t.d.esz
  let ps := ((e.stage t.num).map fun x => x.2.pois).flatten
  let all := tilesOf w t.d.tile t.d.tiles ((e.staged t.num 0).headD []) ps
  let nz := fun (x : List Byte) => (etype t.d.sfmt).nonzero (leNat x)
  let out := placeTiles t.d.codec t.d.aux.toNat nz 0 all
  let d := t.dsts.headD {}
  let t := { t with reply := some (out.length, if out.length = t.d.tiles then 0 else 1, ps.any id) }
  (s.unstage t).xfTiles t (out.zipIdx.map fun x => (x.2, d.addr + x.1.1, [(d.addr + x.1.1, x.1.2.1)], x.1.2.2))

/-- Expands the tokens of a zero run (R447, R448): the elements, where the payload fills them exactly. -/
def expandRun (w : Nat) : Nat → Nat → List Byte → Option (List (List Byte))
  | 0, n, bs => if n = 0 ∧ bs = [] then some [] else none
  | _ + 1, 0, bs => if bs = [] then some [] else none
  | _ + 1, _, [] => none
  | f + 1, n, b :: r =>
    if b.toNat < 0x80 then
      let c := b.toNat + 1
      if n < c ∨ r.length < c * w then none
      else (expandRun w f (n - c) (r.drop (c * w))).map fun x => elements w c r ++ x
    else
      let c := b.toNat - 0x7F
      if n < c then none else (expandRun w f (n - c) r).map fun x => List.replicate c (List.replicate w 0) ++ x

/-- The elements that a bitmap selects. -/
def expandBits (w map : Nat) : Nat → List Byte → Option (List (List Byte))
  | 0, bs => if bs = [] then some [] else none
  | n + 1, bs =>
    if map % 2 = 1 then
      (if bs.length < w then none else (expandBits w (map / 2) n (bs.drop w)).map fun x => bs.take w :: x)
    else (expandBits w (map / 2) n bs).map fun x => List.replicate w 0 :: x

/-- A record's elements; none where it breaks R448. -/
def expand (codec w n : Nat) (payload : List Byte) : Option (List (List Byte)) :=
  if codec = 0 then expandRun w (payload.length + 1) n payload
  else
    let m := ceilDiv n 8
    if payload.length < m then none else expandBits w (leNat (payload.take m)) n (payload.drop m)

/-- Tiles expanded in order until a record breaks R448: elements and poison of each. A poisoned header reads as
zeros, which no record has (R253). -/
def expandTiles (codec w n : Nat) : Nat → List Byte → List Bool → List (List (List Byte) × Bool)
  | 0, _, _ => []
  | f + 1, bs, ps =>
    let h := if (ps.take 8).any id then 0 else fieldAt bs 0 8
    let len := h % 2 ^ 32
    let size := 8 + roundUp len 8
    if bits h 55 48 ≠ codec ∨ bits h 47 32 ≠ n ∨ bs.length < 8 + len then []
    else
      match expand codec w n ((bs.drop 8).take len) with
      | none => []
      | some xs => (xs, (ps.take size).any id) :: expandTiles codec w n f (bs.drop size) (ps.drop size)

/-- XFUNZIP reads the record stream (R448). The manual fixes no sample cycle: issue + 4 (DESIGN CHOICE, log 22). -/
def State.xfUnzipRead (s : State) (t : XfWord) : State :=
  let n := t.d.longest
  let late := 3 + 2 * t.d.chunks t.op + 2 * t.d.tiles
  if t.src.far then
    let p : Pkt := { typ := 0, die := t.die, hub := t.hub, eng := t.eng, part := (s.hub t.die t.hub).launch.part, detail := t.detail,
                     target := t.src.die, addr := t.src.addr, n := n, xf := some (t, 0) }
    let id := s.netSeq
    (s.send p).post t.die (s.xfNow t + t.src.prom) (s.hub t.die t.hub).lpos t.hub t.eng
      (.ev .countedReplyDeadline { die := t.die, hub := t.hub, n := id })
  else
    (s.eccRead t.die t.hub t.eng (detailOf t.seg t.idx 0) [(t.src.addr, n)]).xfAt t (s.xfNow t + late) (.unzip t (s.readBytes t.src.addr n) ((List.range n).map fun i => s.poisoned (t.src.addr + i) 1))

/-- XFUNZIP writes its tiles whole and pushes its reply (R448). -/
def State.xfUnzip (s : State) (t : XfWord) (bs : List Byte) (ps : List Bool) : State :=
  let w := 2 ^ t.d.esz
  let out := expandTiles t.d.codec w t.d.tile t.d.tiles bs ps
  let d := t.dsts.headD {}
  let t := { t with reply := some (out.length, if out.length = t.d.tiles then 0 else 2, ps.any id) }
  s.xfTiles t (out.zipIdx.map fun x =>
    (x.2, d.addr, t.tileRuns d.addr x.2 x.1.1.flatten, x.1.2))

/-! ### Timed streams (R449 to R451, R453) -/

/-- 64 bytes of a stream, filled with zero bytes. -/
def pad64 (bs : List Byte) : List Byte := bs ++ List.replicate (64 - bs.length) 0

/-- Beat b is sampled at issue + 4 + bP (R450). -/
def State.xfBeat (s : State) (t : XfWord) (b : Nat) : State :=
  let s := if b + 1 < t.d.chunks t.op then s.xfAt t (s.xfNow t + t.d.per) (.beat t (b + 1)) else s
  let g := (List.range (t.k + 1)).map fun j => s.gatherChunk t b j
  (s.eccRead t.die t.hub t.eng (detailOf t.seg t.idx (min b 0xFFFF)) (t.places b)).xfAt t (s.xfNow t + 2) (.put t b (g.map fun x => pad64 x.1) ((g.flatMap (·.2)).any id))

/-- Beat b is put in its slot; with the last the word ends (R441, R450). -/
def State.xfPut (s : State) (t : XfWord) (b : Nat) (planes : List (List Byte)) (pois : Bool) : State :=
  let h := s.hub t.die t.hub
  let s := (s.sendBeat h.launch.plid t.die t.peer t.d.slot (s.markOf t.die) h.lpos t.hub t.eng true planes pois).1
  if b + 1 = t.d.chunks t.op then s.xfEnd t else s

/-- The beat that is delivered to a die in this scy and slot from a sender (R451). -/
def State.delivered (s : State) (die at_ slot src : Nat) : Option Beat :=
  s.beats.find? fun b => b.stream && b.die == die && b.at_ == at_ && b.slot == slot && b.src == src

/-- Beat b is taken at issue + 6 + bP; a take without a good beat writes poison (R451, R453). -/
def State.xfTake (s : State) (t : XfWord) (b : Nat) : State :=
  let s := if b + 1 < t.d.chunks t.op then s.xfAt t (s.xfNow t + t.d.per) (.take t (b + 1)) else s
  let blank := List.replicate 64 (0 : Byte)
  match s.delivered t.die (s.xfNow t) t.d.slot t.peer with
  | some x =>
    let bad := x.dropped || x.bad || x.pois
    s.xfAt t (s.xfNow t + 3) (.takeWrite t b
      ((List.range (t.k + 1)).map fun j => if bad then blank else x.planes.getD j blank) bad)
  | none => s.xfAt t (s.xfNow t + 3) (.takeWrite t b ((List.range (t.k + 1)).map fun _ => blank) true)

/-- A taken beat is performed (R451). -/
def State.xfTakeWrite (s : State) (t : XfWord) (b : Nat) (planes : List (List Byte)) (pois : Bool) : State :=
  (s.xfWrite t b (t.dsts.headD {}).addr planes pois).xfPiece t

/-- A micro-operation of a transfer engine comes about. -/
def State.landXf (s : State) : XfAct → State
  | .desc die hub eng op e issue seg idx w => s.xfDesc die hub eng op e issue seg idx w
  | .chunk t c => s.xfChunk t c
  | .perform t c planes pois => s.xfPerform t c planes pois
  | .multi t => s.xfMulti t
  | .zip t => s.xfZip t
  | .unzipRead t => s.xfUnzipRead t
  | .unzip t bs ps => s.xfUnzip t bs ps
  | .beat t b => s.xfBeat t b
  | .put t b planes pois => s.xfPut t b planes pois
  | .take t b => s.xfTake t b
  | .takeWrite t b planes pois => s.xfTakeWrite t b planes pois

/-! ### Words -/

/-- An engine of a counted launch starts a word only after its previous word has ended (R440). -/
def State.xfWaits (s : State) : Bool :=
  let t := s.curHub.timeline (timelineOf s.cur.eng)
  !s.curHub.launch.timed && decide (t.count < t.issued)

/-- A transfer word issues: its descriptor is sampled at issue + 2, which fixes the slots it takes (R436, R439). -/
def xfWord (op e : Nat) (s : State) : State :=
  if s.xfWaits || ((op == opZip || op == opUnzip) && s.curHub.portFull s.cur.eng) then s.holdWord
  else
    let h := s.curHub
    let idx := s.wordIdx
    let seg := s.curEng.seg.getD 0
    (s.later 2 (.xf (.desc s.cur.die s.cur.hub s.cur.eng op e s.now seg idx
      ⟨h.handles, h.tstride.toNat, h.ranges s.cur.eng, s.slotTags⟩))).retire 1 3

/-- XFNOP (R330, R441). -/
def execXfnop (n : BitVec 16) (s : State) : Res :=
  if s.xfWaits then .next s.holdWord else .next (s.retire 1 (n.toNat + 1))
/-- XFCOPY (R442 to R444). -/
def execXfcopy (e : BitVec 16) (s : State) : Res := .next (xfWord opCopy e.toNat s)
/-- XFCAST (R445). -/
def execXfcast (e : BitVec 16) (s : State) : Res := .next (xfWord opCast e.toNat s)
/-- XFZIP (R284, R447). -/
def execXfzip (e : BitVec 16) (s : State) : Res := .next (xfWord opZip e.toNat s)
/-- XFUNZIP (R448). -/
def execXfunzip (e : BitVec 16) (s : State) : Res := .next (xfWord opUnzip e.toNat s)
/-- XFFILL (R446). -/
def execXffill (e : BitVec 16) (s : State) : Res := .next (xfWord opFill e.toNat s)
/-- XFSEND (R449, R450). -/
def execXfsend (e : BitVec 16) (s : State) : Res := .next (xfWord opSend e.toNat s)
/-- XFRECV (R449, R451). -/
def execXfrecv (e : BitVec 16) (s : State) : Res := .next (xfWord opRecv e.toNat s)
/-- XFVIRT (R452). -/
def execXfvirt (e : BitVec 16) (s : State) : Res := .next (xfWord opVirt e.toNat s)

/-- The record of a multicast's failing destinations (R92, R443). -/
def State.multicastRecord (s : State) (die hub eng : Nat) (fs : List (Nat × Nat × Nat)) : State :=
  let h := s.hub die hub
  let mask := fun (l : List Nat) => ((List.range 48).filter fun p => l.contains p).foldl (fun a p => a + 2 ^ p) 0
  let base := s.report die hub ⟨0x14, 0, eng, mask (fs.map fun f => f.2.1), s.markOf die⟩ true
  let s := s.sendReport { base with cidx := mask (fs.map fun f => f.2.2) }
  if h.launch.timed then s.raiseHalt die (s.markOf die) else s

/-- A word ends: its reply, if any, is pushed, and its timeline advances in the next scy (R232, R287, R441). A
failed destination sets FAIL (R443). -/
def execTransferWordEnd (s : State) : Res :=
  let a := s.arg
  let h := s.hub a.die a.hub
  let e := h.stream a.eng
  let q := timelineOf a.eng
  let fs := e.fails.filter fun f => f.1 == a.n
  let h := h.setStream a.eng
    { e with fails := e.fails.filter (fun f => f.1 != a.n), pieces := SMap.drop e.pieces a.n }
  let h := if fs.isEmpty then h else h.setTimeline q { h.timeline q with fail := true }
  let s := s.setHub a.die a.hub h
  let s := if fs.isEmpty then s else s.multicastRecord a.die a.hub a.eng fs
  if a.ok then .next (s.post a.die ((s.die a.die).cad + 1) h.lpos a.hub a.eng (.opEnd q a.n))
  else .next (s.pushReply a.die a.hub a.eng ⟨a.value, a.eng, a.m, a.part == 1, a.n⟩)

end Sys2Proof.Machine
end

