-- ==== Sys2Proof/Machine/Translate.lean ====
section
/-! DEFINITION. XLATE, XINV and the slot-table instructions (R203 to R206, R214 to R216, R367 to R369). -/

namespace Sys2Proof.Machine

open Sys2Proof

/-- The B-dies of a partition's map, in ascending logical position (R206). -/
def State.bDies (s : State) (part : Nat) : List Nat :=
  (List.range 48).filterMap fun l =>
    match s.phys part l with
    | some q => if s.kind q = .bDie then some q else none
    | none => none

/-- The B-die that serves a virtual address (R206). -/
def State.servingB (s : State) (part va : Nat) : Option Nat :=
  let bs := s.bDies part
  bs[va / 65536 % bs.length]?

/-- An entry of a translation cache covers an address of an address space. -/
def Xlat.hits (e : Xlat) (part pasid va : Nat) : Bool :=
  decide (e.part = part) && decide (e.pasid = pasid) && decide (e.va ≤ va ∧ va < e.va + e.size)

/-- The handle that a cached result gives (R204). -/
def handleFrom (e : Xlat) (wr : Bool) : Handle :=
  if e.res = 1 then { st := .np, pasid := e.pasid, va := e.va, size := e.size }
  else if e.res = 2 ∨ (wr ∧ !e.w) then { st := .deny, pasid := e.pasid, va := e.va, size := e.size }
  else { st := .valid, home := e.home, base := e.base, size := e.size, hbm := e.hbm, w := wr, pasid := e.pasid, va := e.va }

/-- XLATE in its read or write form (R204, R206). Whether the DTC still holds an entry it once held is a free
value (log 14). -/
def xlate (h : BitVec 4) (a : R6) (wr : Bool) (s : State) : State :=
  let x := s.readS a
  if x.p then s.coreFault 0x0A 2 []
  else
    let l := s.curHub.launch
    let va := x.v.toNat % 2 ^ 48
    let held := Config.cacheHolds s.free
    match (s.die s.cur.die).dtc.find? fun e => e.hits l.part l.pasid va && held with
    | some e => ((s.useFree).later 48 (.handle h.toNat (handleFrom e wr))).advance 1
    | none =>
      let s := ((s.useFree).later 48 (.handle h.toNat { st := .poison, pasid := l.pasid, va := va, size := 1 })).advance 1
      match s.servingB l.part va with
      | none => s
      | some b =>
        s.send { s.packet 6 b va 0 with
          fill := some { pasid := l.pasid, va := va, wr := wr, lpos := s.curHub.lpos, hub := s.cur.hub, slot := l.slot, qid := l.qid
                         mark := s.mark, ltag := l.ltag } }

/-- XLATE.read (R367). -/
def execXlateRead (h : BitVec 4) (a : R6) (s : State) : Res := .next (xlate h a false s)
/-- XLATE.write (R367). -/
def execXlateWrite (h : BitVec 4) (a : R6) (s : State) : Res := .next (xlate h a true s)

/-- XINV: INVALID at issue + 1 (R205, R368). -/
def execXinv (h : BitVec 4) (s : State) : Res := .next ((s.later 1 (.handle h.toNat {})).advance 1)

/-- The result of a malformed slot-table instruction (R215). -/
def malformedOf (op : Nat) : W64 := if op = 0 then 0xE000000000000000 else 3

/-- SLOOK at the tag table: the slot, or a miss with the lowest invalid slot (R215). -/
def lookTag (tags : SMap Nat) (tag : Nat) : W64 :=
  match tags.find? fun e => e.2.testBit 63 && decide (e.2 % 2 ^ 48 = tag) with
  | some e => BitVec.ofNat 64 e.1
  | none =>
    match (List.range 16384).find? fun n => !(SMap.get 0 tags n).testBit 63 with
    | some n => BitVec.ofNat 64 (2 ^ 63 + n)
    | none => 0xC000000000000000

/-- An open phase of the partition has a space 0x4 range over a slot (R215). -/
def State.slotCovered (s : State) (part bdie n : Nat) : Bool :=
  (s.part part).phases.any fun ph => ph.ranges.any fun x =>
    x.slotRel && x.overlaps ⟨flat (homeBuf bdie) (65536 * n), 65536, false, false, false⟩

/-- Performs a slot-table operation at its B-die: the state after it and the result (R215). -/
def State.slotTable (s : State) (q : SlotReq) : State × W64 :=
  if q.malformed then (s, malformedOf q.op)
  else
    let d := s.die q.bdie
    let n := q.a.toNat % 2 ^ 14
    let valid := (SMap.get 0 d.tags n).testBit 63
    match q.op with
    | 0 => (s, lookTag d.tags (q.a.toNat % 2 ^ 48))
    | 1 =>
      let tag := q.b.toNat % 2 ^ 48
      if valid then (s, 1)
      else if d.tags.any fun e => e.2.testBit 63 && decide (e.2 % 2 ^ 48 = tag) then (s, 2)
      else (s.setDie q.bdie { d with tags := SMap.set 0 d.tags n (2 ^ 63 + tag) }, 0)
    | _ =>
      if !valid then (s, 1)
      else if s.slotCovered q.part q.bdie n then (s, 2)
      else (s.setDie q.bdie { d with tags := SMap.set 0 d.tags n (SMap.get 0 d.tags n % 2 ^ 63) }, 0)

/-- A slot-table instruction: op 0 SLOOK, 1 SFILL, 2 SEVICT (R216). A malformed operand names no die, so its
result comes as from the issuing die (DEDUCED, log 20). -/
def slotInstr (op : Nat) (d : R6) (x y : PVal) (s : State) : State :=
  let dest := [poisonS d 400]
  if x.p || y.p then s.coreFault 0x0A 2 dest
  else
    let l := s.curHub.launch
    let pos := if op = 0 then y.v.toNat % 64 else bits x.v.toNat 21 16
    let clean :=
      if op = 0 then decide (x.v.toNat < 2 ^ 48) && decide (y.v.toNat < 64)
      else decide (x.v.toNat < 2 ^ 22) && decide (bits x.v.toNat 15 14 = 0) && decide (op = 2 ∨ y.v.toNat < 2 ^ 48)
    let bdie := (s.phys l.part pos).filter fun q => s.kind q == .bDie
    let target := if clean then bdie.getD s.cur.die else s.cur.die
    let q : SlotReq :=
      { op := op, bdie := target, a := x.v, b := y.v, part := l.part, malformed := !clean || bdie.isNone,
        die := s.cur.die, hub := s.cur.hub, reg := d.toNat, at_ := s.now + 400 }
    if l.timed then
      match (if s.isMember l.plid target then s.timedLatency l.plid s.cur.die target else none) with
      | none => s.coreFault 0x0B 5 dest
      | some _ => (s.request target 200 (.slotOp q)).advance 1
    else
      (s.countedSlotOp { s.packet 4 target 0 0 with reg := d.toNat, slotOp := some q } (s.promiseTo s.cur.die target)).advance 1

/-- SLOOK (R215, R369). -/
def execSlook (d a b : R6) (s : State) : Res := .next (slotInstr 0 d (s.readS a) (s.readS b) s)
/-- SFILL (R215, R369). -/
def execSfill (d a b : R6) (s : State) : Res := .next (slotInstr 1 d (s.readS a) (s.readS b) s)
/-- SEVICT (R215, R369). -/
def execSevict (d a : R6) (s : State) : Res := .next (slotInstr 2 d (s.readS a) {} s)

end Sys2Proof.Machine
end

