-- ==== Sys2Proof/Machine/Land.lean ====
section
/-! DEFINITION. A timed effect comes about (R7, R198, R199, R220, R276, R388), and what a lost beat leaves of it
(R42). -/

namespace Sys2Proof.Machine

open Sys2Proof

/-- A control core reads and writes through its hub. -/
def State.hubDo (s : State) (die hub : Nat) (f : Hub → Hub) : State := s.setHub die hub (f (s.hub die hub))

/-- Sends the reply of the timed request `d` from its target at the target's current mark (R199, R449), and writes the
issuer's register by `act` at CADENCE `at_`; on the issuing die no beat is used. Of two writes of one scy the later issued
stands (R272). -/
def State.replyReg (s : State) (d : Due) (die hub at_ : Nat) (act : Act) (p : Bool) : State :=
  let h := s.hub die hub
  if d.die = die then s.follow d die at_ h.lpos hub 0 act none
  else
    let r := s.sendBeat h.launch.plid d.die die 1 (s.markOf d.die) h.lpos hub 0 false [] p
    r.1.follow d die at_ h.lpos hub 0 act (some r.2)

/-- Elements of a vector load that has been sampled: each plane's bytes, with the poison of the elements of the
primal region (R405, R406). -/
def State.vecLoaded (s : State) (r w n : Nat) (addrs : List Nat) (blank : Nat) : List VWrite :=
  let planes := addrs.zipIdx.map fun (x : Nat × Nat) => (⟨r, x.2, 0, s.readBytes x.1 (n * w), none, 255⟩ : VWrite)
  let blanks := (List.range blank).map fun j => (⟨r, j + 1, 0, List.replicate (n * w) 0, none, 255⟩ : VWrite)
  let pois := (List.range n).map fun i =>
    let bad := addrs.any fun a => s.poisoned (a + i * w) w
    (⟨r, 0, i * w, if bad then List.replicate w 0 else s.readBytes (addrs.headD 0 + i * w) w, some bad, 255⟩ : VWrite)
  planes ++ blanks ++ pois

/-- The read `d` is sampled at its home. -/
def State.landSample (s : State) (d : Due) (a n : Nat) : Cont → State
  | .reg die hub r w =>
    (s.eccRead die hub 0 d.detail [(a, n)]).replyReg d die hub w (.regS r (BitVec.ofNat 64 (s.readNat a n)) (s.poisoned a n)) (s.poisoned a n)
  | .ldx die hub r w =>
    (s.eccRead die hub 0 d.detail [(a, n)]).replyReg d die hub w (.load r (BitVec.ofNat 64 (s.readNat a n)) (s.poisoned a n)) (s.poisoned a n)
  | .vec die hub r w k addrs blank at2 =>
    (s.eccRead die hub 1 d.detail (addrs.map fun x => (x, k * w))).follow d die at2 (s.hub die hub).lpos hub 1
      (.vec (s.vecLoaded r w k addrs blank)) none

/-- A phase block has been sampled (R181, R182, R217), with the slot tables of its issue: a bad one is refused with the PHASE's issue mark, and the previous phase stays;
the sets of a good one come into force at n + 8. -/
def State.landPhase (s : State) (die hub x t pc : Nat) (tags : SMap (SMap Nat)) : State :=
  let h := s.hub die hub
  let now := (s.die die).cad
  match (s.withTags tags).blockSets die hub x with
  | .error (k, c) =>
    let s := s.eccRead die hub 0 pc [(x, blockSize (s.readNat x 8 % 128))]
    let s := { s with
      agenda := s.agenda.filter fun d => !(d.die == die && d.hub == hub && d.act == Act.phaseClose && d.at_ == now + 6) }
    let s := s.takeFault die hub ⟨k, c, 0, pc, t⟩ []
    s.setHub die hub { s.hub die hub with wait := if h.launch.timed then h.wait else .none }
  | .ok sets =>
    (s.setHub die hub { h with pendSets := SMap.put h.pendSets t sets }).post die (now + 6) h.lpos hub 0 (.phaseOpen t pc)

/-- A hub whose open phase conflicts with one that the directory takes before it: the H-die has the paceline halt with the issue mark of
its PHASE (R246), and its sets are withdrawn at the halt, whichever fault brings it (R185). -/
def State.refusePhase (s : State) (ph : Phase) (c : Nat) : State :=
  let die := ph.hub / 8
  let hub := ph.hub % 8
  let t := ph.at_.getD 0
  let n := (s.hub die hub).launch.plid
  let s := (s.recordFault (s.report die hub ⟨0x03, c, 0, ph.pc, t⟩ true)).haltRoot n (t + 256)
  s.setHub die hub { s.hub die hub with refused := some t }

/-- A PHASE comes before the directory at n + 8 (R182, R184, R185; log 101). In a timed launch its sets are in force, and of two
that conflict the later one is refused, whichever die begins the mark first. In a counted launch the sets are in force unless there
is a conflict, which the answer brings; the control core waits for it. -/
def State.landOpen (s : State) (die hub t pc : Nat) : State :=
  let h := s.hub die hub
  match SMap.find t h.pendSets with
  | none => s
  | some sets =>
    let new := s.phaseOf die hub t pc sets
    let c := s.conflict h.launch.part new
    if h.launch.timed then
      let late := (s.part h.launch.part).phases.filter fun ph =>
        ph.other new.hub new.qid && decide (ph.qid = new.qid) && !ph.first new && (ph.conflict new).isSome
      let s := s.openPhase die hub t pc sets
      let s := match c with
        | some c => s.refusePhase new c
        | none => s
      late.foldl (fun (s : State) ph => s.refusePhase ph ((ph.conflict new).getD 0)) s
    else
      let s := match c with
        | some _ => s.setHub die hub { h with pendSets := SMap.drop h.pendSets t }
        | none => s.openPhase die hub t pc sets
      (s.after s.transit .phaseDirectoryAnswer { die := die, hub := hub, n := t, off := c.getD 0 }).useFree

/-- Beat `a` has the slot before `b`: lower logical position, hub, ENG (R42, R449). -/
def Beat.beats (a b : Beat) : Bool :=
  if a.lpos ≠ b.lpos then decide (a.lpos < b.lpos)
  else if a.hub ≠ b.hub then decide (a.hub < b.hub)
  else if a.eng ≠ b.eng then decide (a.eng < b.eng)
  else decide (a.id < b.id)

/-- Requests that several control cores of one die send in one scy to one target, or the replies to them, raise no conflict
against each other: the target performs them in the order of R187, as R500 to R502 state (DEDUCED, log 104). -/
def Beat.ranked (a b : Beat) : Bool :=
  decide (a.eng = 0 ∧ b.eng = 0 ∧ a.lpos = b.lpos ∧ a.hub ≠ b.hub) && a.hops == b.hops

/-- The frame that a beat is in. -/
def Beat.frame (b : Beat) : Option (Nat × Nat × Nat) := b.hops[b.hop]?

def State.setBeat (s : State) (b : Beat) : State :=
  { s with beats := s.beats.map fun x => if x.id = b.id then b else x }

/-- A beat's frame has been formed: where another beat has its slot it is dropped, and the die that sends the frame raises the
fault (R42). A beat that was dropped takes no slot of a later frame. -/
def State.landHop (s : State) (id : Nat) : State :=
  match s.beat id with
  | none => s
  | some b =>
    match b.frame with
    | none => s
    | some f =>
      let lost := !b.dropped && s.beats.any fun x =>
        decide (x.id ≠ id) && x.slot == b.slot && x.hops.contains f && !x.dropped && !x.ranked b && x.beats b
      let s := if lost then
          let n := { s.setBeat { b with dropped := true } with seq := s.seq }
          let d := n.die f.1
          let l := n.pl d.plid
          let k := l.slot.getD 0
          let q := (n.slot k).qcb
          (n.raiseHalt f.1 (d.markAt f.2.2)).sendReport
            { kind := 0x07, sub := 1, part := l.part, slot := k, lpos := (n.logical l.part f.1).getD 0, qid := q.qid
              estat := estatOf 0 1 f.2.1, mark := d.markAt f.2.2, ltag := q.ltag, pl := some d.plid }
        else s
      match Config.wire f.1 f.2.1 with
      | none => s
      | some (q, _) =>
        s.post q (s.cadOf q ((s.die f.1).markAt f.2.2 + 24)) b.lpos b.hub b.eng
          (.ev .timedBeatDelivery { pos := q, n := id })

/-- A timed beat is read from the elastic buffer (R41): a routing die forwards it 8 scy later; at its receiver it
is delivered, and a stream beat that no XFRECV has taken is discarded (R451). -/
def execTimedBeatDelivery (s : State) : Res :=
  match s.beat s.arg.n with
  | none => .next s
  | some b =>
    if b.hop + 1 < b.hops.length then
      let b := { b with hop := b.hop + 1 }
      .next (match b.frame with
        | none => s
        | some f => (s.setBeat b).post f.1 (f.2.2 + 1) b.lpos b.hub b.eng (.hop b.id))
    else if b.stream then .next { s with beats := s.beats.filter fun x => decide (x.id ≠ b.id) }
    else .next s

/-- The effect of a timed request whose beat was lost (R42): it is not performed, and its reply is poisoned. -/
def State.landLost (s : State) (d : Due) : State :=
  match d.act with
  | .sample _ _ (.reg die hub r w) => s.replyReg d die hub w (.regS r 0 true) true
  | .sample _ _ (.ldx die hub r w) => s.replyReg d die hub w (.load r 0 true) true
  | .amo q => s.replyReg d q.die q.hub q.at_ (.regS q.reg 0 true) true
  | .slotOp q => s.replyReg d q.die q.hub q.at_ (.regS q.reg 0 true) true
  | .regS r _ _ => s.hubDo d.die d.hub fun h => h.writeS r 0 true
  | .load r _ _ => s.hubDo d.die d.hub fun h => h.writeS r 0 true
  | _ => s

/-- One timed effect comes about on its die, for its hub. -/
def State.landAct (s : State) (d : Due) : State :=
  match d.act with
  | .regS r v p => s.hubDo d.die d.hub fun h => h.writeS r v p
  | .load r v p => s.hubDo d.die d.hub fun h => h.writeS r v p
  | .regP r v p => s.hubDo d.die d.hub fun h => h.writeP r v p
  | .handle h x => s.hubDo d.die d.hub fun y => { y with handles := SMap.put y.handles h x }
  | .vec ws => s.hubDo d.die d.hub fun h => h.vwriteAll ws
  | .maskBits m bs => s.hubDo d.die d.hub fun h => h.maskWrite m bs
  | .shape x => s.hubDo d.die d.hub fun h => { h with shape := x }
  | .tstride v => s.setStride d.die d.hub v
  | .write a bs p => s.writeBytes a bs p
  | .sample a n k => s.landSample d a n k
  | .amo q =>
    let r := (s.eccRead q.die q.hub 0 d.detail [(q.addr, q.size)]).perform q
    r.1.replyReg d q.die q.hub q.at_ (.regS q.reg (BitVec.ofNat 64 r.2.1) r.2.2) r.2.2
  | .slotOp q =>
    let r := s.slotTable q
    r.1.replyReg d q.die q.hub q.at_ (.regS q.reg r.2 false) false
  | .push x t => s.landPush d.die d.hub x t
  | .portEnter c => s.landPort d.die d.hub c
  | .phaseSample x t pc tags => s.landPhase d.die d.hub x t pc tags
  | .phaseClose => s.closePhase d.die d.hub
  | .phaseOpen t pc => s.landOpen d.die d.hub t pc
  | .mat x => s.landMat x
  | .xf x => s.landXf x
  | .ix x => s.landIx x
  | .draft x => s.landDraft d.die x
  | .opEnd q n => s.finishOp d.die d.hub q n
  | .hop id => s.landHop id
  | .ev _ _ => s

/-- A timed effect other than an event comes about; one that a beat carries goes as that beat went (R42). -/
def State.land (s : State) (d : Due) : State :=
  match d.beat with
  | none => s.landAct d
  | some id =>
    match s.beat id with
    | none => s.landAct d
    | some b =>
      let s := { s with beats := s.beats.filter fun x => decide (x.id ≠ id) }
      if b.dropped || b.bad then s.landLost d else s.landAct d

end Sys2Proof.Machine
end

