-- ==== Sys2Proof/Machine/Clock.lean ====
section
/-! DEFINITION. What happens in one oscillator pulse and in which order (R5 to R7, R14, R42, R57, R63 to R65, R82, R143,
R151, R152, R221, R249, R272): effects that are due, segments and waits, the words that issue, and the next pulse. -/

namespace Sys2Proof.Machine

open Sys2Proof

/-- What a step does: an instruction runs at a state, or the state is another. -/
inductive Pick
  | run (i : Instr) (s : State)
  | go (s : State)

/-! ### Effects that are due -/

/-- A request that is performed or sampled at its target: it takes its place among the effects of the target's scy (R220,
R221). -/
def performed (i : Instr) : Bool := i == .readRequest || i == .write || i == .atomicRequest || i == .controlSpaceRead

/-- The effect has come to its cycle on its die. The memory of a die that holds at a halt stays in place: counted requests wait
there for the release (R247). -/
def State.isDue (s : State) (d : Due) : Bool :=
  decide (d.at_ ≤ (s.die d.die).cad) &&
  !((s.die d.die).held && (match d.act with | .ev i _ => performed i && i != .controlSpaceRead | _ => false))

/-- The first of the effects that are due. -/
def State.firstDue (s : State) : List Due → Option Due
  | [] => none
  | d :: r =>
    match s.firstDue r with
    | none => if s.isDue d then some d else none
    | some x => if s.isDue d && d.before x then some d else some x

/-- Takes one effect off the agenda. -/
def State.unpost (s : State) (d : Due) : State := { s with agenda := s.agenda.erase d }

/-- An effect comes about. -/
def State.come (s : State) (d : Due) : Pick :=
  match d.act with
  | .ev i a => .run i { s.unpost d with arg := a }
  | _ => .go ((s.unpost d).land d)

/-! ### Segments and waits -/

/-- A die begins a scy in this pulse. -/
def State.begins (s : State) (p : Nat) : Bool := let d := s.die p; !d.still && d.powered && !d.gated

/-- A hub whose die begins a scy. -/
def State.awake (s : State) (e : Nat × Hub) : Bool := s.begins (e.1 / 8)

/-- A segment that starts in this scy: die, hub and engine (R173, R174); none starts in a stopped hub of a counted
launch (R240). -/
def State.dueSegment (s : State) : Option (Nat × Nat × Nat) :=
  s.hubs.findSome? fun (e : Nat × Hub) =>
    if !s.awake e || e.2.run == .preempted || (e.2.run == .stopped && !e.2.launch.timed) then none
    else (e.2.streams.findSome? fun (t : Nat × Eng) =>
      if (t.1 == 2 || !e.2.replaying) && (s.segmentDue (e.1 / 8) (e.1 % 8) t.1).isSome then some (e.1 / 8, e.1 % 8, t.1) else none)

/-- A control core whose wait can end in this scy. -/
def State.waits (s : State) (e : Nat × Hub) : Bool :=
  s.awake e && e.2.run == .running && (e.2.wait != .none || e.2.mark == some []) && decide (e.2.next ≤ (s.die (e.1 / 8)).cad)

/-- What ends the wait of a hub. -/
def State.endWait (s : State) (e : Nat × Hub) : Option Pick :=
  if !s.waits e then none
  else match s.waitEvent (e.1 / 8) (e.1 % 8) with
    | some i => some (.run i { s with arg := { die := e.1 / 8, hub := e.1 % 8 } })
    | none => (s.settleWait (e.1 / 8) (e.1 % 8)).map .go

/-! ### Words that issue -/

/-- Units of a hub that issue a word in this scy, as ENG: while matrix steps replay, no other engine of the hub does (R259). -/
def State.unitsOf (s : State) (e : Nat × Hub) : List Nat :=
  let now := (s.die (e.1 / 8)).cad
  if !s.awake e then []
  else
    let core := if e.2.run == .running && e.2.wait == .none && decide (e.2.next ≤ now) then [0] else []
    let engs := if e.2.run == .preempted then [] else e.2.streams.filterMap fun (t : Nat × Eng) =>
      if t.2.seg.isSome && !t.2.stopped && (t.1 == 2 || !e.2.replaying) && decide (t.2.next ≤ now) then some t.1 else none
    let d := s.die (e.1 / 8)
    let draft := match d.draftGo with | some x => if x.1 = e.1 % 8 then [6] else [] | none => []
    core ++ engs ++ draft

/-- Order of units: logical position, hub, ENG (R14). -/
def unitKey (e : Nat × Hub) (g : Nat) : Nat := (e.2.lpos * 512 + e.1) * 8 + g

/-- The first unit that issues a word in this scy. -/
def State.firstUnit (s : State) : Option Focus :=
  ((s.hubs.flatMap fun (e : Nat × Hub) => (s.unitsOf e).map fun g => (unitKey e g, (⟨e.1 / 8, e.1 % 8, g⟩ : Focus))).foldl
    (fun (a : Option (Nat × Focus)) x => match a with
      | none => some x
      | some y => if x.1 < y.1 then some x else some y) none).map (·.2)

/-- The stored word of an engine and the one after it within its segment (R320, R321, R330). -/
def Hub.engWord (h : Hub) (e : Nat) : Option (Nat × Option Nat) :=
  let t := h.stream e
  let g := h.segment (sectionOf e) (t.seg.getD 0)
  (h.codeWord (sectionOf e) (g.1 + t.pos)).map fun w =>
    (w, if t.pos + 1 < g.2 then h.codeWord (sectionOf e) (g.1 + t.pos + 1) else none)

/-- The stream whose words an engine issues. -/
def streamOfEng : Nat → Stream
  | 1 => .vector | 2 => .matrix | 5 => .index | _ => .transfer

/-- The control core's word at its PC; at or beyond CLEN0 the core issues nothing more in the item (R245, R332). -/
def State.fetchCore (s : State) : Pick :=
  let h := s.curHub
  match h.codeWord 0 (h.pc / 4) with
  | none =>
    let t := s.takeFault s.cur.die s.cur.hub ⟨0x01, 1, 0, h.pc % 2 ^ 32, s.mark⟩ []
    .go (t.setCurHub { t.curHub with run := .stopped })
  | some w =>
    match decode .control w none with
    | .ok i => .run i s
    | .error _ => .go (s.coreFault 0x01 1 [])

/-- An illegal word of an engine at its issue cycle (R332): `w` and the one after it within the segment. A TAN takes its word with
it (R329), and a transfer word of a counted launch issues only after its engine's last word has ended (R440). A matrix engine of a
counted launch that stops abandons its steps (R430). -/
def State.badWord (s : State) (w : Nat) (x : Option Nat) : State :=
  let e := s.cur.eng
  let tan := e == 1 && s.curTan.isNone && decide (bits w 31 25 = 0x7E)
  let long := x.isSome && (tan || (e == 2 && matrixHasExt w))
  let dests := if e ≠ 1 then [] else if tan then (match x with | some y => s.ruinOf y | none => []) else s.ruinOf w
  if (e == 3 || e == 4) && s.xfWaits then s.holdWord
  else
    let t := s.engFault 0x01 2 (if e = 1 then 0xFFFF else 0) (if long then 2 else 1) 1 dests
    if e = 2 ∧ s.curHub.launch.timed = false then t.abandonSteps s.cur.die s.cur.hub else t

/-- An engine's next word (R332). -/
def State.fetchEng (s : State) : Pick :=
  match s.curHub.engWord s.cur.eng with
  | none => .go (s.badWord 0 none)
  | some (w, x) =>
    match decode (streamOfEng s.cur.eng) w x with
    | .ok i => .run i s
    | .error _ => .go (s.badWord w x)

/-- The drafting unit's command (R289, R466). -/
def State.fetchDraft (s : State) : Pick :=
  match (s.die s.cur.die).draftGo with
  | none => .go s
  | some (_, c) =>
    match decode .drafting c.w0 (some c.w1) with
    | .ok i => .run i s
    | .error _ => .go (s.setDie s.cur.die { s.die s.cur.die with draftGo := none })

/-- A unit's word. -/
def State.fetch (s : State) (f : Focus) : Pick :=
  let s := { s with cur := f }
  if f.eng = 0 then s.fetchCore else if f.eng = 6 then s.fetchDraft else s.fetchEng

/-! ### The port fabric (R81 to R83) -/

/-- The fabric of an X-die is clocked in this pulse: coasting does not slow it (R33, R83). -/
def State.fabricRuns (s : State) (p : Nat) : Bool := let d := s.die p; d.powered && !d.gated && d.clocked && !d.standing && !d.held

/-- The slot of a bundle that runs next in this pulse. -/
def State.firstSlot (s : State) : Option (Focus × Nat) :=
  s.xdies.findSome? fun (e : Nat × XDie) =>
    if s.fabricRuns e.1 then e.2.nextSlot.map fun x => (⟨e.1, x.1, 8 + x.2.1⟩, x.2.2) else none

/-- A slot's word; FLOAD has checked every word that is bound (R482). -/
def State.fetchSlot (s : State) (f : Focus) (w : Nat) : Pick :=
  let s := { s with cur := f }
  match decode (if f.eng = 8 then .slotA else if f.eng = 9 then .slotB else .slotC) w none with
  | .ok i => .run i s
  | .error _ => .run .fnop s

/-- The fabrics' pulse ends (R82, R88). -/
def State.endFabrics (s : State) : State :=
  s.xdies.foldl (fun (s : State) (e : Nat × XDie) =>
    if e.2.bound.isSome && s.fabricRuns e.1 then
      let s := s.setXdie e.1 (s.xdie e.1).endPulse
      match e.2.ctx with
      | some c => s.collReady e.1 c
      | none => s
    else s) s

/-! ### The end of a scy -/

/-- What a hub's reply ports and drafting port do in the next scy: the waiting entries are pushed in ascending ENG, each against the
room that is left (R287 to R289). -/
def State.endHub (s : State) (e : Nat × Hub) : State :=
  let die := e.1 / 8
  let hub := e.1 % 8
  let next := (s.die die).cad + 1
  let h := s.hub die hub
  let s := if h.replies.length < 16 then
      h.ports.foldl (fun (s : State) x => s.post die next h.lpos hub x.1 (.ev .replyPortEntry { die := die, hub := hub, eng := x.1 })) s
    else s
  let s := s.settleVector die hub
  let d := s.die die
  if d.draft.isNone && d.draftGo.isNone && s.drWaits die hub then
    s.post die next 0 0 6 (.ev .draftingCommandStart { die := die })
  else s

/-- Events at the end of a scy, after its last sub-cycle: the lead check, stands and halts (R56, R57, R62, R247). -/
def State.endDie (s : State) (p : Nat) : List (Instr × Arg) :=
  let d := s.die p
  if !d.powered || d.gated || !d.clocked || !d.member || d.forming || d.sub < d.tk then []
  else
    (if d.armed && !d.adopt && !d.idle && d.cad + 64 == d.standAt && !d.gap && !d.held then [(Instr.standLeadCheck, ({ pos := p, n := d.standM } : Arg))] else []) ++
    (if d.armed && d.cad == d.standAt && !d.standing && !d.held then [(.standHold, { pos := p })] else []) ++
    (if d.haltAt == some d.cad && !d.held then [(.pacelineHold, ({ pos := p } : Arg))] else [])

/-- A die sends a frame on each trained module in every pulse of its oscillator, once the words of the pulse have taken their slots
(R37, R43). -/
def State.sends (s : State) (p : Nat) : List (Instr × Arg) :=
  let d := s.die p
  if d.powered && !d.gated && d.clocked && d.modules.any (·.2.up) then [(.frameTransmit, { pos := p })] else []

/-- The words of this pulse have issued. -/
def State.endPulse (s : State) : State :=
  let s := s.endFabrics
  let s := (s.hubs.filter s.awake).foldl (fun (s : State) e => s.endHub e) s
  { s with ended := true, inbox := s.inbox ++ (List.range 48).flatMap s.sends ++ (List.range 48).flatMap s.endDie }

/-! ### The next pulse -/

/-- Pulse i of a group of 16 is swallowed at level c (R63). -/
def swallows (c i : Nat) : Bool := decide (i * c / 16 < (i + 1) * c / 16)

/-- A die takes one pulse that it does not swallow: a new scy, or a further sub-cycle (R5, R65, R189). -/
def Die.tick (d : Die) : Die :=
  if d.sub < d.tk then { d with sub := d.sub + 1, still := true, gap := false, gaps := 0 }
  else { d with sub := 0, cad := d.cad + 1, still := false, gap := false, gaps := 0 }

/-- A swallowed pulse (R57, R63, R247). -/
def Die.swallowed (d : Die) : Die := { d with still := true, gap := true, gaps := d.gaps + 1 }

/-- A held die counts down to its release, whose pulse begins the next scy and advances the pattern; a stand at the halt mark is
passed with it (R62, R63, R249). A die frozen for a formation begins the scy of its CADENCE (R51). -/
def Die.tickHeld (d : Die) : Die :=
  match d.release with
  | none => d.swallowed
  | some 0 =>
    let e := { d with held := false, release := none, sub := 0, still := false, gap := false, gaps := 0, phase := (d.phase + 1) % 16 }
    if d.forming then { e with forming := false }
    else
      let e := if d.armed && d.standAt == d.cad then e.leaveStand else e
      { e with cad := d.cad + 1 }
  | some (w + 1) => { d.swallowed with release := some w }

/-- A die in the counted regime takes a new level at a group boundary (R64). -/
def Die.takeLevel (d : Die) : Die :=
  match d.coastOwn with
  | some c => if d.phase = 0 && !d.member then { d with coast := c, coastOwn := none } else d
  | none => d

/-- A die that coasts (R63, R64). -/
def Die.tickCoast (d : Die) : Die :=
  let d := d.takeLevel
  let e := { d with phase := (d.phase + 1) % 16 }
  if swallows d.coast d.phase then e.swallowed else e.tick

/-- One pulse of a die's oscillator. -/
def Die.pulse (d : Die) : Die :=
  if !d.powered || d.gated then d.swallowed
  else if d.held then d.tickHeld
  else if d.standing then { d.swallowed with swallow := d.swallow - 1 }
  else d.tickCoast

/-- One tick of the model on a die: its oscillator gains `r`, and begins a period or does not (R29). -/
def Die.advance (d : Die) (r : Nat) : Die :=
  if Config.tickUnit ≤ d.acc + r then { d with acc := d.acc + r - Config.tickUnit, clocked := true }.pulse
  else { d with acc := d.acc + r, clocked := false, still := true }

/-- What a die's new pulse brings: the end of a stand's hold, an idle stand (R57, R519). -/
def State.newScy (s : State) (p : Nat) : List (Instr × Arg) :=
  let d := s.die p
  if !d.powered || d.gated || !d.clocked then []
  else
    (if d.standing && d.swallow == 0 && !d.gather then [(Instr.standResume, ({ pos := p } : Arg))] else []) ++
    (if s.begins p && (s.idleDue p).isSome then [(.idleStandArm, { pos := p })] else [])

/-! ### The H-die's cycle -/

/-- A pre-emption has something to do (R260). -/
def State.preemptDue (s : State) (x : Slot) (r : Run) : Bool :=
  x.preq && x.qcb.state == 2 && !r.launch.timed && !r.abort && r.placed.isEmpty &&
  (!x.stopping || r.hubs.all fun h => s.savable h.1 h.2)

/-- What a slot's launch asks of the H-die. -/
def State.runEvents (s : State) (n : Nat) : List (Instr × Arg) :=
  let x := s.slot n
  match x.run with
  | none => []
  | some r =>
    ((List.range r.teams.length).filterMap fun t => if s.teamEnded r t then some (Instr.itemEnd, ({ slot := n, team := t } : Arg)) else none) ++
    (if x.qcb.state == 2 && r.finished && !x.stopping then [(.launchCompletion, { slot := n })] else []) ++
    (if s.abortReady r then [(.launchAbort, { slot := n })] else []) ++
    (if s.preemptDue x r then [(.countedPreemption, { slot := n })] else [])

/-- Slots fetch, launches move on, and arbiters grant (R143, R144). -/
def State.hCycle (s : State) : List (Instr × Arg) :=
  (List.range 16).flatMap fun n =>
    (if s.fetches n then [(Instr.slotFetch, ({ slot := n } : Arg))] else []) ++ s.runEvents n ++
    (if s.grantable n then [(.hubGrant, { part := n })] else [])

/-- A running slot's watchdog, grace and halt clocks after one µs (R151, R152, R156, R251). -/
def State.dogTick (s : State) (n : Nat) : State :=
  let x := s.slot n
  match x.run with
  | none => s
  | some r =>
    if x.qcb.state != 2 || (s.part x.qcb.part).rstBusy then s
    else if r.launch.timed && (s.pl r.launch.plid).held then
      let s := s.setSlot n { x with halt := x.halt + 1 }
      if 10000000 ≤ x.halt + 1 then s.raise .haltLimitReset { slot := n } else s
    else if x.qcb.wrem = 0 then
      let s := s.setSlot n { x with grace := x.grace + 1 }
      if 2 * s.dev.graceUs ≤ x.grace + 1 then s.raise .backstopReset { slot := n } else s
    else
      let s := s.setSlot n { x with qcb := { x.qcb with wrem := x.qcb.wrem - 1 } }
      if x.qcb.wrem = 1 then s.raise .watchdogExpiry { slot := n } else s

/-- One µs of the always-on counter: ageing, watchdogs, the power controller and firmware (R32, R145, R151). -/
def State.usTick (s : State) : State :=
  if s.dev.power != .active && s.dev.power != .idleRetain then s.firmware
  else
    let us := s.cy / Config.cyPerUs
    let s := if us % s.dev.ageStep = 0 then s.raise .ageingTick {} else s
    let s := (List.range 16).foldl (fun (s : State) n => s.dogTick n) s
    let s := if us % 10 = 0 then s.raise .vcoreCurrentEvaluation {} else s
    let s := if us % 1000 = 0 then s.raise .powerLimitEvaluation {} else s
    s.firmware

/-- Requests that have arrived come about with the other effects of their targets' scy. -/
def State.arrivals (s : State) : List (Nat × Instr × Arg) → State
  | [] => s
  | (_, i, a) :: r =>
    let s := if !performed i then { s with inbox := s.inbox ++ [(i, a)] }
      else match SMap.find a.n s.net with
        | none => s
        | some p =>
          let d := if p.target < 48 then p.target else s.actingH
          s.post d (s.die d).cad (s.hub p.die p.hub).lpos p.hub p.eng (.ev i a)
    s.arrivals r

/-- A line of on-package SRAM or of an HBM stack takes an uncorrectable error in this tick (R195; log 98). -/
def State.upset (s : State) : State :=
  match Config.upset s.cy with
  | some l => if homeOf (64 * l) < 688 then { s with ecc := SMap.set false s.ecc l true } else s
  | none => s

/-- The next tick: every oscillator gains its part of a period (R5, R29). -/
def State.pulse (s : State) : State :=
  let cy := s.cy + 1
  let due := s.timers.filter fun (t : Nat × Instr × Arg) => decide (t.1 ≤ cy)
  let s := { s with
    cy := cy, ended := false
    timers := s.timers.filter fun (t : Nat × Instr × Arg) => !decide (t.1 ≤ cy)
    dies := (List.range 48).filterMap fun p => if s.good p && (s.kind p != Config.Kind.hDie || p == s.actingH) then some (p, (s.die p).advance (Config.oscillator p cy)) else none }
  let s := s.upset.arrivals due.reverse
  let s := { s with inbox := s.inbox ++ (List.range 48).flatMap s.newScy }
  let s := if s.begins s.actingH then { s with inbox := s.inbox ++ s.hCycle } else s
  if cy % Config.cyPerUs = 0 then s.usTick else s

/-! ### The order of a pulse -/

/-- What comes next when nothing has arrived: effects that are due; then, while the pulse's words have not issued,
segments that start, waits that end, words and bundle slots; then the end of the pulse and the next one. -/
def State.pick (s : State) : Pick :=
  match s.firstDue s.agenda with
  | some d => s.come d
  | none =>
    if s.ended then .go s.pulse
    else match s.dueSegment with
      | some (p, h, e) => .run .segmentStart { s with arg := { die := p, hub := h, eng := e } }
      | none =>
        match s.hubs.findSome? s.endWait with
        | some x => x
        | none =>
          match s.firstUnit with
          | some f => s.fetch f
          | none =>
            match s.firstSlot with
            | some x => s.fetchSlot x.1 x.2
            | none => .go s.endPulse

/-! ### Placing a word -/

/-- Where a word of a stream runs: die, hub and ENG. FLOAD and FBIND run on an X-die, other control-core words on a
V-die. -/
def wordPlace (st : Stream) (i : Instr) : Nat × Nat × Nat :=
  match st, i with
  | .control, .fload .. => (1, 0, 0)
  | .control, .fbind .. => (1, 0, 0)
  | .control, _ => (29, 0, 0)
  | .vector, _ => (29, 0, 1)
  | .matrix, _ => (13, 0, 2)
  | .index, _ => (37, 0, 5)
  | _, _ => (29, 0, 3)

/-- A hub that issues word `w` next, in CADENCE `now`: from its PC for the control core, else from segment 0 of the engine's
section, followed by `x`. -/
def Hub.withWord (h : Hub) (e now w x : Nat) : Hub :=
  let h := { h with wait := .none, mark := none, item := some (h.item.getD {}), streams := [], tan := none, loops := [] }
  if e = 0 then { h with run := .running, pc := 0, next := now, code := SMap.put h.code 0 [w, x] }
  else
    { h with
      run := .idle, code := SMap.put h.code (sectionOf e) ([512, 2] ++ List.replicate 126 0 ++ [w, x])
      streams := [(e, { seg := some 0, next := now })] }

/-- A word and the one after it, placed where the next step fetches: nothing is due, one hub alone has a word to issue, and
its die begins a scy. -/
def State.placeWord (s : State) (w x : Nat) : State :=
  match tableStream w x with
  | none => s
  | some (st, i) =>
    let p := wordPlace st i
    let d := s.die p.1
    { s with
      inbox := [], agenda := [], ended := false, cur := ⟨p.1, p.2.1, p.2.2⟩
      dev := { s.dev with power := .active }
      dies := SMap.put s.dies p.1 { d with still := false, powered := true, gates := 0, draftGo := none }
      hubs := [(8 * p.1 + p.2.1, (s.hub p.1 p.2.1).withWord p.2.2 d.cad w x)] }

end Sys2Proof.Machine
end

