-- ==== Sys2Proof/Machine/Branch.lean ====
section
/-! DEFINITION. Branches, checks, loops, jumps, calls and returns (R353 to R357). -/

namespace Sys2Proof.Machine

open Sys2Proof

/-- The resolved path issues at n + 1 when the hint is right and at n + 4 when it is wrong (R273, R353). -/
def branchDelay (hint : BitVec 2) (taken : Bool) : Nat := if decide (hint.toNat = 1) == taken then 1 else 4

/-- A conditional branch whose condition is `taken` (R353, R357). -/
def branchTo (hint : BitVec 2) (o : BitVec 14) (taken : Bool) (s : State) : State :=
  if taken then s.jump (branchTarget s.curHub.pc o.toInt) (branchDelay hint true)
  else s.advance (branchDelay hint false)

/-- BR. A poisoned condition is a fault (R255, R353). -/
def execBr (c : BitVec 4) (h : BitVec 2) (a : R6) (o : BitVec 14) (s : State) : Res :=
  if c.toNat ≤ 5 then
    let x := s.readS a
    if x.p then .next (s.coreFault 0x0A 2 []) else .next (branchTo h o (condS c.toNat x.v) s)
  else
    let x := s.curHub.readP (a.toNat % 8)
    if x.2 then .next (s.coreFault 0x0A 2 []) else .next (branchTo h o (if c.toNat = 6 then x.1 else !x.1) s)

/-- CHECK of an s register: taken when it is poisoned (R355). -/
def execCheckS (h : BitVec 2) (a : R6) (o : BitVec 14) (s : State) : Res := .next (branchTo h o (s.readS a).p s)
/-- CHECK of a p register (R355). -/
def execCheckP (h : BitVec 2) (a : BitVec 3) (o : BitVec 14) (s : State) : Res :=
  .next (branchTo h o (s.curHub.readP a.toNat).2 s)

/-- LOOP: an active loop on the same counter is replaced; a count of 0 skips the body (R357). The LOOP is
itself an issued word, so the loop test of loops that end on it follows; where the body is skipped, the word
at E + 4 is next unless such a loop goes round. -/
def execLoop (l : BitVec 2) (a : R6) (o : BitVec 14) (s : State) : Res :=
  let x := s.readS a
  if x.p then .next (s.coreFault 0x0A 2 [])
  else
    let h := s.curHub
    let e := h.pc + 4 * o.toNat
    let n := lo32 x.v
    let others := h.loops.filter fun r => decide (r.lc ≠ l.toNat)
    if n = 0 then
      let t := loopTest h.pc others h.lc
      .next (s.setCurHub { h with loops := t.1, lc := t.2.1, pc := t.2.2.getD (e + 4), next := s.now + 1 })
    else
      let h := { h with lc := SMap.put h.lc l.toNat ⟨BitVec.ofNat 64 n, false⟩ }
      let t := loopTest h.pc others h.lc
      .next (s.setCurHub { h with
        loops := ⟨l.toNat, h.pc + 4, e⟩ :: t.1, lc := t.2.1, pc := t.2.2.getD (h.pc + 4), next := s.now + 1 })

/-- JMP (R354). -/
def execJmp (o : BitVec 26) (s : State) : Res := .next (s.jump (branchTarget s.curHub.pc o.toInt) 1)
/-- CALL: s63 := PC + 4 at n + 1 (R354). -/
def execCall (o : BitVec 26) (s : State) : Res :=
  .next ((s.writeS 63 1 (BitVec.ofNat 64 (s.curHub.pc + 4)) false).jump (branchTarget s.curHub.pc o.toInt) 1)
/-- RET: continues at s63[31:0] with bits [1:0] taken as 0 (R354). -/
def execRet (s : State) : Res :=
  let x := s.readS 63
  if x.p then .next (s.coreFault 0x0A 2 []) else .next (s.jump (lo32 x.v / 4 * 4) 1)

end Sys2Proof.Machine
end

