-- ==== Sys2Proof/Machine/EvFault.lean ====
section
/-! DEFINITION. The fault merger of the H-die and the fault ring (R113 to R117, R241, R246, R248). -/

namespace Sys2Proof.Machine

open Sys2Proof

/-- Order of faults that share a mark: LPOS, HUB, ENG (R248). -/
def faultOrder (r : FaultReport) : Nat × Nat × Nat × Nat := (r.mark, r.lpos, r.hub, r.eng)
def orderBelow (a b : Nat × Nat × Nat × Nat) : Bool :=
  decide (a.1 < b.1) || (a.1 == b.1 && (decide (a.2.1 < b.2.1) || (a.2.1 == b.2.1 &&
    (decide (a.2.2.1 < b.2.2.1) || (a.2.2.1 == b.2.2.1 && decide (a.2.2.2 < b.2.2.2))))))

/-- The halt registers of a paceline after a report (R246, R248). -/
def Pl.note (l : Pl) (r : FaultReport) : Pl :=
  let h := r.mark + 256
  let lower := match l.low with
    | none => true
    | some x => orderBelow (faultOrder r) x
  { l with
    nflt := min 255 (l.nflt + 1), pend := !l.held
    hmark := if l.held then l.hmark else if l.pend then min l.hmark h else h
    low := if lower then some (faultOrder r) else l.low, kind := if lower then r.kind else l.kind }

/-- Opens or extends the batch of page-not-present faults; the 256th closes it (R117). -/
def State.batchFault (s : State) (part : Nat) (f : PFault) : State :=
  let p := s.part part
  let s' := s.setPart part { p with batch := p.batch ++ [f], batchAt := if p.batch.isEmpty then s.cy else p.batchAt }
  if p.batch.isEmpty then s'.after (20 * Config.cyPerUs) .pageFaultBatchClose { part := part, n := s.cy }
  else if p.batch.length = 255 then { s' with inbox := (.pageFaultBatchClose, { part := part, n := p.batchAt }) :: s'.inbox }
  else s'

/-- The merger takes a report (R116, R117, R248): a page-not-present fault joins the batch, the virtual address and PASID in VABASE
and CIDX; any other report is written, counted for its queue, and noted in the halt registers. -/
def State.merge (s : State) (r : FaultReport) : State :=
  if r.kind = 0x0D then
    s.batchFault r.part { pasid := r.cidx, va := r.vabase, wr := r.estat.testBit 1, lpos := r.lpos, hub := r.hub, slot := r.slot
                          qid := r.qid, eng := r.eng, mark := r.mark, ltag := r.ltag, time := r.time }
  else
    let s := s.queueRecord r
    match r.pl with
    | some n => s.setPl n ((s.pl n).note r)
    | none => s

/-- FAULT_REPORT_RECEIVE (R116, R202). -/
def execFaultReportReceive (s : State) : Res :=
  match SMap.find s.arg.n s.net with
  | none => .next s
  | some p => .next (({ s with net := SMap.drop s.net s.arg.n }).merge p.rep)

/-- Faults by PASID, then virtual address, then LPOS and HUB (R117). -/
def PFault.before (a b : PFault) : Bool :=
  if a.pasid ≠ b.pasid then decide (a.pasid < b.pasid)
  else if a.va ≠ b.va then decide (a.va < b.va)
  else if a.lpos ≠ b.lpos then decide (a.lpos < b.lpos)
  else decide (a.hub ≤ b.hub)

def insertFault (f : PFault) : List PFault → List PFault
  | [] => [f]
  | x :: r => if x.before f then x :: insertFault f r else f :: x :: r

/-- Ranges of adjacent 64 KiB units of sorted faults: the lowest fault, the last unit, whether reads and writes are
among them, and how many. -/
def mergeFaults : List PFault → List (PFault × Nat × Bool × Bool × Nat)
  | [] => []
  | f :: r =>
    match mergeFaults r with
    | (g, last, rd, wr, n) :: rest =>
      if g.pasid = f.pasid ∧ g.va / 65536 ≤ f.va / 65536 + 1 then (f, last, rd || !f.wr, wr || f.wr, n + 1) :: rest
      else (f, f.va / 65536, !f.wr, f.wr, 1) :: (g, last, rd, wr, n) :: rest
    | [] => [(f, f.va / 65536, !f.wr, f.wr, 1)]

/-- PAGE_FAULT_BATCH_CLOSE (R117): one record per range, then VF vector 1 once. `n` is when the batch opened. -/
def execPageFaultBatchClose (s : State) : Res :=
  let part := s.arg.part
  let p := s.part part
  if p.batch.isEmpty || p.batchAt != s.arg.n then .next s
  else
    let rs := mergeFaults (p.batch.foldr insertFault [])
    let s := s.setPart part { p with batch := [] }
    let s := rs.foldl (fun (s : State) x =>
      s.queueRecord
        { kind := 0x0D, part := part, slot := x.1.slot, lpos := x.1.lpos, hub := x.1.hub, eng := x.1.eng, qid := x.1.qid
          cidx := x.1.pasid, mark := x.1.mark, ltag := x.1.ltag, time := x.1.time, estat := bitOf x.2.2.1 + 2 * bitOf x.2.2.2.1, vabase := x.1.va / 65536 * 65536,
          vapages := x.2.1 + 1 - x.1.va / 65536, nmerge := x.2.2.2.2 }) s
    .next (s.signal (part + 1) 1)

/-- FRTAIL_WRITE: ignored where HEAD − TAIL would exceed the ring (R116). -/
def execFrtailWrite (s : State) : Res :=
  let p := s.part s.arg.part
  let t := s.arg.value.toNat % 2 ^ 32
  if 2 ^ p.ringLog < p.ringFill t then .next s else .next (s.setPart s.arg.part { p with frTail := t })

/-- FAULT_RING_ENABLE: EN from 0 to 1 empties the ring (R115). -/
def execFaultRingEnable (s : State) : Res :=
  let p := s.part s.arg.part
  if p.frEn then .next s else .next (s.setPart s.arg.part { p with frEn := true, frHead := 0, frTail := 0 })

end Sys2Proof.Machine
end

