-- ==== Sys2Proof/Machine/EvNet.lean ====
section
/-! DEFINITION. Packets of the counted channel at their targets and the replies at the hubs (R45, R128, R141, R200,
R202, R220, R226 to R231, R440). -/

namespace Sys2Proof.Machine

open Sys2Proof

/-- The firewall of R141: a die of a locked map takes requests from dies of the same map and the acting H-die. Position 0 lies in
every map: it takes those of any map's dies. -/
def State.accepts (s : State) (p : Pkt) : Bool :=
  let binds := fun (q d : Nat) => (s.part q).lock && (s.logical q d).isSome
  decide (48 ≤ p.target) || p.die == s.actingH ||
  !((List.range 16).any fun q => binds q p.target) || (List.range 16).any fun q => binds q p.target && binds q p.die

/-- A request that its target discards: no reply comes, and a consumer that waits for one is poisoned at its promised cycle
(R45, R141). -/
def State.refuse (s : State) (id : Nat) (p : Pkt) : State :=
  if p.typ = 2 then { s with net := SMap.drop s.net id } else { s with net := SMap.put s.net id { p with lost := true } }

/-- A B-die that no locked map binds refuses HBM accesses (R128). -/
def State.hbmRefused (s : State) (p : Pkt) : Bool := isHbm (homeOf p.addr) && (s.boundPart p.target).isNone

/-- The record of a refused HBM access (R128, R239): it stops no hub. -/
def State.hbmRecord (s : State) (p : Pkt) : State :=
  let h := s.hub p.die p.hub
  let l := h.launch
  s.sendReport { kind := 0x0E, sub := 3, part := p.part, slot := l.slot, lpos := h.lpos, hub := p.hub, eng := p.eng, qid := l.qid,
                 estat := estatOf p.eng 3 0, mark := s.markOf p.target, ltag := l.ltag }

/-- A read packet's data with the poison of each element: a chunk's elements in every plane for a transfer word,
bytes for XFUNZIP, else one value. -/
def State.readFor (s : State) (p : Pkt) : List (List Byte) × List Bool :=
  match p.xf with
  | none => ([s.readBytes p.addr p.n], [s.poisoned p.addr p.n])
  | some (t, c) =>
    if t.op = opUnzip then ([s.readBytes p.addr p.n], (List.range p.n).map fun i => s.poisoned (p.addr + i) 1)
    else
      let g := (List.range (t.k + 1)).map fun j => s.gatherChunk t c j
      (g.map (·.1), g.flatMap (·.2))

/-- The places that a read packet samples. -/
def Pkt.places (p : Pkt) : List (Nat × Nat) :=
  match p.xf with
  | some (t, c) => if t.op = opUnzip then [(p.addr, p.n)] else t.places c
  | none => [(p.addr, p.n)]

/-- READ_REQUEST: sampled at the target in arrival order (R202, R220, R226, R227). An LDX of host memory takes its own
time behind the endpoint, so two of them are not ordered (R227); `ok` is false once that leg is over. -/
def execReadRequest (s : State) : Res :=
  let id := s.arg.n
  match SMap.find id s.net with
  | none => .next s
  | some p =>
    if !s.accepts p then .next (s.refuse id p)
    else if p.target = 48 && p.eng = 0 && s.arg.ok then
      .next (s.after s.transit .readRequest { n := id, ok := false }).useFree
    else if s.hbmRefused p then
      .next ((s.hbmRecord p).reply id { p with typ := 1, bytes := List.replicate p.n 0, planes := [List.replicate p.n 0], elems := [true], pois := true })
    else
      let x := s.readFor p
      .next ((s.eccRead p.die p.hub p.eng p.detail p.places).reply id { p with typ := 1, bytes := x.1.headD [], planes := x.1, elems := x.2, pois := x.2.contains true })

/-- WRITE: performed at the target, then acknowledged (R202, R220, R230, R440); a failing destination of a multicast suppresses
it, and says so (R92, R443). -/
def execWrite (s : State) : Res :=
  let id := s.arg.n
  match SMap.find id s.net with
  | none => .next s
  | some p =>
    if !s.accepts p then .next (s.refuse id p)
    else if s.hbmRefused p then .next ((s.hbmRecord p).reply id { p with typ := 3 })
    else
      match p.xf with
      | none => .next ((s.writeBytes p.addr p.bytes p.pois).reply id { p with typ := 3 })
      | some (t, c) =>
        if t.d.mc && s.destFails t p.target p.addr then .next (s.reply id { p with typ := 3, lost := true })
        else .next ((s.xfArrive t c p).reply id { p with typ := 3 })

/-- ATOMIC_REQUEST: an atomic or a slot-table operation is performed in arrival order (R187, R202, R216). -/
def execAtomicRequest (s : State) : Res :=
  let id := s.arg.n
  match SMap.find id s.net with
  | none => .next s
  | some p =>
    if !s.accepts p then .next (s.refuse id p)
    else
      match p.amo, p.slotOp with
      | some q, _ =>
        let r := (s.eccRead p.die p.hub p.eng p.detail [(q.addr, q.size)]).perform q
        .next (r.1.reply id { p with typ := 5, bytes := leBytes 8 r.2.1, pois := r.2.2 })
      | none, some q =>
        let r := s.slotTable q
        .next (r.1.reply id { p with typ := 5, bytes := leBytes 8 r.2.toNat, pois := false })
      | none, none => .next s

/-- CONTROL_SPACE_READ: a doubleword of a die's control space (R100, R202). -/
def execControlSpaceRead (s : State) : Res :=
  let id := s.arg.n
  match SMap.find id s.net with
  | none => .next s
  | some p =>
    if !s.accepts p then .next (s.refuse id p)
    else .next (s.reply id { p with typ := 1, bytes := leBytes 8 (s.dieReg p.target p.addr), pois := false })

/-- FENCE_MARKER: the flushing read of FENCE.sys arrives behind the host writes of its hub, and its completion
follows them (R231). -/
def execFenceMarker (s : State) : Res :=
  let id := s.arg.n
  match SMap.find id s.net with
  | none => .next s
  | some p => .next (s.reply id { p with typ := 1, bytes := [], pois := false })

/-- A reply has reached its hub: it waits for its promised cycle; one that is late is discarded (R45, R200). -/
def State.replyHere (s : State) (id : Nat) (p : Pkt) : State :=
  if p.late || p.typ == 1 && p.n == 0 then { s with net := SMap.drop s.net id }
  else { s with net := SMap.put s.net id { p with done := true } }

/-- READ_REPLY (R45, R200, R440). The completion of a FENCE's flushing read ends that access at once (R231). -/
def execReadReply (s : State) : Res :=
  let id := s.arg.n
  match SMap.find id s.net with
  | none => .next s
  | some p =>
    let s := s.replyHere id p
    if p.n = 0 then .next (s.storeDone p.die p.hub id)
    else if p.xf.isNone then .next (s.loadSampled p.die p.hub id) else .next s

/-- ATOMIC_REPLY: the atomic has been performed at its target (R228, R229). -/
def execAtomicReply (s : State) : Res :=
  let id := s.arg.n
  match SMap.find id s.net with
  | none => .next s
  | some p =>
    let s := if p.late then { s with net := SMap.drop s.net id } else { s with net := SMap.put s.net id { p with done := true } }
    .next (s.storeDone p.die p.hub id)

/-- WRITE_ACKNOWLEDGEMENT: the write has been performed (R229, R440). -/
def execWriteAcknowledgement (s : State) : Res :=
  let id := s.arg.n
  match SMap.find id s.net with
  | none => .next s
  | some p =>
    let s := { s with net := SMap.drop s.net id }
    match p.xf with
    | none => .next (s.storeDone p.die p.hub id)
    | some (t, _) => .next ((if p.lost then s.xfFailed t (t.dsts.getD p.dst {}) else s).xfPiece t)

/-- A counted load's register is written at issue + P; for a hub that has stopped or is being saved, the write of an LDX goes
into its pending-write list under its issue order, while an atomic or a slot-table operation is completed and not listed
(R243). -/
def State.loadResult (s : State) (p : Pkt) (v : W64) (bad : Bool) : State :=
  let h := s.hub p.die p.hub
  if p.amo.isNone && p.slotOp.isNone && (h.run == .stopped || h.run == .preempted) then
    s.setHub p.die p.hub { h with
      pending := h.pending ++ [⟨p.die, p.at_, h.lpos, p.hub, 0, p.ord, .load p.reg v bad, none, 0⟩] }
  else s.setHub p.die p.hub (h.writeS p.reg v bad)

/-- The data of a transfer word's counted read, or poison where the reply is late (R440, R448). -/
def State.xfReply (s : State) (t : XfWord) (c : Nat) (p : Pkt) : State :=
  if t.op = opUnzip then
    let x := if p.done then (p.bytes, p.elems) else (List.replicate p.n 0, List.replicate p.n true)
    s.xfAt t (s.xfNow t + 3 + 2 * t.d.chunks t.op + 2 * t.d.tiles) (.unzip t x.1 x.2)
  else
    let blank := (List.range (t.k + 1)).map fun _ => List.replicate p.n (0 : Byte)
    if p.done then s.xfData t c (p.planes ++ blank.drop p.planes.length) p.elems
    else s.xfData t c blank (List.replicate (p.n / t.d.sw t.op) true)

/-- COUNTED_REPLY_DEADLINE: at the promised cycle the consumer gets the data where the reply has arrived, else poison
(R45, R200, R253). -/
def execCountedReplyDeadline (s : State) : Res :=
  let id := s.arg.n
  match SMap.find id s.net with
  | none => .next s
  | some p =>
    let s := if p.done || p.lost then { s with net := SMap.drop s.net id } else { s with net := SMap.put s.net id { p with late := true } }
    match p.xf with
    | some (t, c) => .next (s.xfReply t c p)
    | none =>
      let v := if p.done then BitVec.ofNat 64 (leNat p.bytes) else 0
      .next ((s.loadResult p v (!p.done || p.pois)).loadDone p.die p.hub id)

end Sys2Proof.Machine
end

