-- ==== Sys2Proof/Machine/EvSpdm.lean ====
section
/-! DEFINITION. The SPDM responder of each function, IDE keys and the TDISP states (R94, R126, R127, R129, R132). What
DMTF SPDM 1.3 fixes and the manual does not, the body of a response, is a free value of the request (log 11). -/

namespace Sys2Proof.Machine

open Sys2Proof

/-! ### The responder (R127) -/

def State.responder (s : State) (fn : Nat) : Spdm := SMap.get {} s.dev.spdm fn
def State.setResponder (s : State) (fn : Nat) (x : Spdm) : State := { s with dev := { s.dev with spdm := SMap.put s.dev.spdm fn x } }

/-- A response goes out on the function's DOE mailbox. -/
def State.sendSpdm (s : State) (fn : Nat) (body : List Byte) : State := { s with outs := s.outs ++ [.spdm fn body] }

/-- A function answers SPDM requests: in sleep and off only a wake is permitted (R134), and in recovery every VF is disabled
(R123). -/
def State.spdmUp (s : State) (fn : Nat) : Bool :=
  decide (fn ≤ 16) && s.dev.power != .sleep && s.dev.power != .off && (fn == 0 || !s.dev.bootRec)

/-- SPDM request codes, by which a free response body is told from the others (PRESUMED, log 11). -/
inductive SpdmReq
  | version | capabilities | algorithms | digests | certificate | challenge | measurements | keyExchange | finish | endSession | vendor
  deriving DecidableEq, Repr

def SpdmReq.code : SpdmReq → Nat
  | .version => 0x84 | .capabilities => 0xE1 | .algorithms => 0xE3 | .digests => 0x81 | .certificate => 0x82 | .challenge => 0x83
  | .measurements => 0xE0 | .keyExchange => 0xE4 | .finish => 0xE5 | .endSession => 0xEC | .vendor => 0xFE

/-- A request whose response the manual does not spell out but for `extra`, with what the responder remembers of it. -/
def State.spdmWith (s : State) (r : SpdmReq) (extra : List Byte) (f : Spdm → Spdm) : State :=
  let fn := s.arg.fn
  if s.spdmUp fn then (s.useFree.setResponder fn (f (s.responder fn))).sendSpdm fn (Config.spdmBody s.free r.code s.arg.bytes ++ extra) else s

/-- A request whose response the manual does not spell out. -/
def State.spdmStep (s : State) (r : SpdmReq) (f : Spdm → Spdm) : State := s.spdmWith r [] f

/-- The algorithms of R127 as DMTF SPDM 1.3 codes them (PRESUMED, log 11): SHA-256, ECDHE on P-384, AES-256-GCM, and the extended
asymmetric algorithm. -/
def algorithmBytes : List Byte := leBytes 4 0x00000001 ++ leBytes 2 0x0010 ++ leBytes 2 0x0002 ++ Config.extendedAsym

/-- An SPDM ERROR response, InvalidRequest (PRESUMED, log 11). -/
def spdmError : List Byte := [0x13, 0x7F, 0x01, 0x00]

/-- GET_VERSION (R127): a new connection begins. -/
def execGetVersion (s : State) : Res := .next (s.spdmStep .version fun x => { x with version := true, algs := false })
/-- GET_CAPABILITIES (R127). -/
def execGetCapabilities (s : State) : Res := .next (s.spdmStep .capabilities id)
/-- NEGOTIATE_ALGORITHMS (R127). -/
def execNegotiateAlgorithms (s : State) : Res := .next (s.spdmWith .algorithms algorithmBytes fun x => { x with algs := true })
/-- GET_DIGESTS (R127). -/
def execGetDigests (s : State) : Res := .next (s.spdmStep .digests id)
/-- GET_CERTIFICATE (R125, R127): the part of the chain that the request names, of slot 0 only; the places of slot, offset and length
are those of DMTF SPDM 1.3 (PRESUMED, log 11). -/
def execGetCertificate (s : State) : Res :=
  let fn := s.arg.fn
  let req := s.arg.bytes
  if s.spdmUp fn && fieldOf req 2 1 % 16 != 0 then .next (s.sendSpdm fn spdmError)
  else .next (s.spdmWith .certificate ((Config.certChain.drop (fieldOf req 4 2)).take (fieldOf req 6 2)) id)
/-- CHALLENGE (R125, R127): the body ends with a signature by the identity key. -/
def execChallenge (s : State) : Res :=
  let fn := s.arg.fn
  if !s.spdmUp fn then .next s
  else
    let b := Config.spdmBody s.free SpdmReq.challenge.code s.arg.bytes
    .next (s.useFree.sendSpdm fn (b ++ identitySign b))
/-- KEY_EXCHANGE (R127): a session opens, which FINISH confirms. -/
def execKeyExchange (s : State) : Res := .next (s.spdmStep .keyExchange fun x => { x with session := true, finished := false })
/-- FINISH (R127). -/
def execFinish (s : State) : Res := .next (s.spdmStep .finish fun x => { x with finished := x.session })
/-- END_SESSION (R127). -/
def execEndSession (s : State) : Res := .next (s.spdmStep .endSession fun x => { x with session := false, finished := false })

/-- The state and level of a partition in block 15 (R127, R134): scrubbed from the scrub's end until firmware resumes the partition or
something is written, and while a scrub or reset runs (DESIGN CHOICE, log 44). -/
def State.partState (s : State) (part : Nat) : List Byte :=
  let p := s.part part
  [if p.scrubbing || p.rstBusy || (p.clean && p.parked) then 2 else if p.suspended then 1 else 0, if s.dev.bootDbg = 2 then 2 else if p.customer then 1 else 0]

/-- Measurement blocks by index (R127): the PF receives 1 to 10, a VF those of its partition (log 44). -/
def State.blocks (s : State) (fn : Nat) : List (Nat × List Byte) :=
  match partOfFn fn with
  | none =>
    ((List.range 8).map fun i => (i + 1, digestBytes (SMap.get 0 s.dev.meas i))) ++
    [(9, leBytes 8 s.bootReg), (10, leBytes 8 s.dev.dnonce.toNat)]
  | some p => ((List.range 4).map fun i => (i + 11, digestBytes (SMap.get 0 (s.part p).pmeas i))) ++ [(15, s.partState p)]

/-- GET_MEASUREMENTS (R127): the blocks, each after its index, signed by the identity key. The frame around them is
SPDM's. -/
def execGetMeasurements (s : State) : Res :=
  let fn := s.arg.fn
  if !s.spdmUp fn then .next s
  else
    let b := Config.spdmBody s.free SpdmReq.measurements.code s.arg.bytes ++ (s.blocks fn).flatMap fun x => BitVec.ofNat 8 x.1 :: x.2
    .next (s.useFree.sendSpdm fn (b ++ identitySign b))

/-- VENDOR_DEFINED_REQUEST (R126, R127, R132): within a session, 32 bytes set OWNKH of the VF's partition while its
interface is in CONFIG_UNLOCKED, and extend PMEASp.2. How the message carries them is not in the manual (log 45). -/
def execVendorDefinedRequest (s : State) : Res :=
  let fn := s.arg.fn
  let bs := s.arg.bytes
  let t := s.spdmStep .vendor id
  match partOfFn fn with
  | some p =>
    let x := s.part p
    if s.spdmUp fn && (s.responder fn).finished && x.tdisp == 0 && bs.length == 32 then
      .next ((t.setPart p { x with ownkh := BitVec.ofNat 256 (leNat bs) }).extendPart p 2 bs)
    else .next t
  | none => .next t

/-- IDE_KM (R129): the keys of a function's stream, over a session with it. -/
def execIdeKm (s : State) : Res :=
  let fn := s.arg.fn
  let x := s.responder fn
  if s.spdmUp fn && x.finished then .next (s.setResponder fn { x with ideKey := s.arg.bytes }) else .next s

/-! ### TDISP (R129) -/

/-- The QID list of a partition (R126), each QID as two bytes (DESIGN CHOICE, log 46). -/
def State.qidBytes (s : State) (part : Nat) : List Byte :=
  ((List.range 4096).filter fun q => s.owns part q).flatMap fun q => leBytes 2 q

/-- TDISP_LOCK_INTERFACE (R129): the settings are frozen, and PMEASp.1 takes the queue list (R126). -/
def execTdispLockInterface (s : State) : Res :=
  match (partOfFn s.arg.fn).filter fun _ => s.spdmUp s.arg.fn with
  | some p =>
    if (s.part p).tdisp = 0 then .next ((s.setPart p { s.part p with tdisp := 1 }).extendPart p 1 (s.qidBytes p)) else .next s
  | none => .next s

/-- TDISP_START_INTERFACE (R129). -/
def execTdispStartInterface (s : State) : Res :=
  match (partOfFn s.arg.fn).filter fun _ => s.spdmUp s.arg.fn with
  | some p => if (s.part p).tdisp = 1 then .next (s.setPart p { s.part p with tdisp := 2 }) else .next s
  | none => .next s

/-- TDISP_STOP_INTERFACE (R129): the interface is in CONFIG_UNLOCKED. -/
def execTdispStopInterface (s : State) : Res :=
  match (partOfFn s.arg.fn).filter fun _ => s.spdmUp s.arg.fn with
  | some p => .next (s.setPart p { s.part p with tdisp := 0 })
  | none => .next s

/-- TDISP_ERROR (R129, R135): every launch of the partition is aborted and the partition is scrubbed. -/
def execTdispError (s : State) : Res :=
  match partOfFn s.arg.fn with
  | some p => .next ((s.setPart p { s.part p with tdisp := 3, enter := false }).scrub p)
  | none => .next s

end Sys2Proof.Machine
end

