-- ==== Sys2Proof/Machine/EvXlat.lean ====
section
/-! DEFINITION. The table walker and the caches of translations, and shootdowns (R206 to R213). -/

namespace Sys2Proof.Machine

open Sys2Proof

/-! ### Walks (R208, R209) -/

/-- How a walk ends: refused, not present, or the page with its flags. -/
inductive Walk
  | refused
  | absent
  | page (e : Xlat)
  deriving DecidableEq, Repr

/-- Bytes that a leaf at a level maps. -/
def leafSize : Nat → Nat
  | 0 => 2 ^ 16 | 1 => 2 ^ 21 | _ => 2 ^ 30

/-- Index of a virtual address in a table of a level. -/
def walkIndex (va : Nat) : Nat → Nat
  | 0 => bits va 20 16 | 1 => bits va 29 21 | 2 => bits va 38 30 | _ => bits va 47 39

/-- The page that a leaf at a level maps, or its refusal; a leaf with V = 0 that nothing refuses is absent (R209). -/
def State.leafOf (s : State) (part pasid va e lvl : Nat) : Walk :=
  let size := leafSize lvl
  let addr := bits e 51 8 * 256
  let w := e.testBit 61
  let x : Xlat := ⟨part, pasid, va / size * size, size, 0, homeHost part (some pasid), addr, false, w⟩
  if lvl = 3 ∨ addr % size ≠ 0 then .refused
  else if e.testBit 60 then
    if bits addr 51 39 ≠ 0 then .refused
    else match s.phys part (5 + bits addr 38 36) with
      | none => .refused
      | some q =>
        if s.kind q ≠ .bDie then .refused
        else if !e.testBit 63 then .absent
        else .page { x with home := homeHbm q, base := addr % 2 ^ 36, hbm := true }
  else if !e.testBit 63 then .absent
  else .page x

/-- The walk from a table of a level at a host address: every condition of R209's first result comes before V = 0. -/
def State.walkTable (s : State) (part pasid va : Nat) : Nat → Nat → Walk
  | lvl, tab =>
    let e := leNat (s.hostRead part none (tab + 8 * walkIndex va lvl) 8)
    if bits e 59 52 ≠ 0 ∨ e % 256 ≠ 0 then .refused
    else if e.testBit 62 then s.leafOf part pasid va e lvl
    else match lvl with
      | 0 => .refused
      | l + 1 =>
        let next := bits e 51 8 * 256
        if e.testBit 60 ∨ next % (if l = 0 then 256 else 4096) ≠ 0 then .refused
        else if !e.testBit 63 then .absent
        else s.walkTable part pasid va l next

/-- A walk from the PASID directory. -/
def State.walk (s : State) (part pasid va : Nat) : Walk :=
  let p := s.part part
  if !p.xlEn ∨ 2 ^ min p.xlLog 20 ≤ pasid then .refused
  else
    let e := leNat (s.hostRead part none (p.xldir + 8 * pasid) 8)
    if bits e 62 52 ≠ 0 ∨ e % 4096 ≠ 0 then .refused
    else if !e.testBit 63 then .absent
    else s.walkTable part pasid va 3 (bits e 51 12 * 4096)

/-- The cache entry of a walk. A result other than a page covers its 64 KiB unit (DEDUCED, log 37). -/
def Walk.entry (w : Walk) (part pasid va : Nat) : Xlat :=
  match w with
  | .page e => e
  | .absent => ⟨part, pasid, va / 65536 * 65536, 65536, 1, 0, 0, false, false⟩
  | .refused => ⟨part, pasid, va / 65536 * 65536, 65536, 2, 0, 0, false, false⟩

/-- A die translation cache has 512 entries (R206). -/
def dtcSize : Nat := 512

/-- A cache takes an entry in the place of the one for the same page. -/
def fillCache (l : List Xlat) (e : Xlat) : List Xlat :=
  e :: l.filter fun x => !(x.part == e.part && x.pasid == e.pasid && x.va == e.va && x.size == e.size)

/-- TRANSLATION_FILL_REQUEST (R206, R209): the serving B-die answers from its cache, or walks; a walk that meets V = 0
sends one page-not-present fault. -/
def execTranslationFillRequest (s : State) : Res :=
  let id := s.arg.n
  match SMap.find id s.net with
  | none => .next s
  | some p =>
    match p.fill with
    | none => .next s
    | some f =>
      if !s.accepts p then .next { s with net := SMap.drop s.net id }
      else
        let d := s.die p.target
        let held := Config.cacheHolds s.free
        match d.bcache.find? fun e => e.hits p.part f.pasid f.va && held with
        | some e => .next (s.useFree.reply id { p with typ := 7, res := some e })
        | none =>
          let w := s.walk p.part f.pasid f.va
          let e := w.entry p.part f.pasid f.va
          let s := s.useFree.setDie p.target { d with bcache := fillCache d.bcache e }
          let s := if w = .absent then
              s.sendReport { kind := 0x0D, part := p.part, slot := f.slot, lpos := f.lpos, hub := f.hub, eng := f.eng, qid := f.qid
                             cidx := f.pasid, estat := if f.wr then 2 else 1, mark := f.mark, vabase := f.va, ltag := f.ltag }
            else s
          .next (s.reply id { p with typ := 7, res := some e })

/-- TRANSLATION_FILL_REPLY: the result enters the die's cache (R206). -/
def execTranslationFillReply (s : State) : Res :=
  let id := s.arg.n
  match SMap.find id s.net with
  | none => .next s
  | some p =>
    let s := { s with net := SMap.drop s.net id }
    match p.res with
    | some e => .next (s.setDie p.die { s.die p.die with dtc := (fillCache (s.die p.die).dtc e).take dtcSize })
    | none => .next s

/-! ### Shootdowns (R210, R211) -/

/-- Two ranges of virtual addresses share one. -/
def rangesMeet (a n b m : Nat) : Bool := decide (a < b + m ∧ b < a + n)

/-- Drops entries of a partition from every cache, and from the fills on their way. -/
def State.dropXlat (s : State) (part : Nat) (bad : Xlat → Bool) : State :=
  let keep := fun (e : Xlat) => !(e.part == part && bad e)
  { s with
    dies := s.dies.map fun (e : Nat × Die) => (e.1, { e.2 with dtc := e.2.dtc.filter keep, bcache := e.2.bcache.filter keep })
    net := s.net.map fun (e : Nat × Pkt) => (e.1, { e.2 with res := e.2.res.filter keep }) }

/-- A handle of the range becomes SHOT. -/
def Handle.shoot (h : Handle) (pasid va size : Nat) : Handle :=
  if h.st != .invalid && h.pasid == pasid && rangesMeet h.va h.size va size then { h with st := .shot } else h

def Hub.shoot (h : Hub) (pasid va size : Nat) : Hub :=
  { h with
    handles := h.handles.map fun (e : Nat × Handle) => (e.1, e.2.shoot pasid va size)
    pending := h.pending.map fun (d : Due) => match d.act with | .handle n x => { d with act := .handle n (x.shoot pasid va size) } | _ => d }

/-- The hubs of a partition's dies. -/
def State.partHubs (s : State) (part : Nat) : List (Nat × Nat) :=
  (((List.range 48).filterMap fun l => s.phys part l).filter fun p => p != 0).flatMap fun p =>
    (List.range (s.kind p).hubs).map fun h => (p, h)

/-- A shootdown is complete (R210). -/
def Part.shotDone (p : Part) : Part := { p with xlBusy := false, xlDone := (p.xlDone + 1) % 2 ^ 32, shoot := none, xlPend := 0 }

/-- XLINV_SHOOTDOWN: a write of XLINV (R207, R210): the caches drop their entries, saved handles are shot, and every hub
of the partition is told. -/
def execXlinvShootdown (s : State) : Res :=
  let part := s.arg.part
  let p := s.part part
  if p.xlBusy then .next (s.setPart part { p with xlDrop := true })
  else
    let v := s.arg.value.toNat
    let sz := bits v 63 62
    let size := if sz = 0 then 2 ^ 16 else if sz = 1 then 2 ^ 21 else if sz = 2 then 2 ^ 30 else 2 ^ 48
    let pasid := bits v 51 32
    let va := bits v 31 0 * 65536 / size * size
    let s := s.dropXlat part fun e => e.pasid == pasid && rangesMeet e.va e.size va size
    let p := s.part part
    let hs := s.partHubs part
    let p := { p with
      xlBusy := true, shoot := some (pasid, va, size), xlPend := hs.length
      susp := p.susp.map fun x => { x with hubs := x.hubs.map fun (e : Nat × Hub) => (e.1, e.2.shoot pasid va size) } }
    if hs.isEmpty then .next (s.setPart part p.shotDone)
    else
      let s := s.setPart part p
      .next (hs.foldl (fun (s : State) x =>
        s.sendWithin (50 * Config.cyPerUs) .shootdown { typ := 8, die := s.actingH, part := part, target := x.1, n := x.2 }) s)

/-- The word that a transfer engine's effect belongs to. -/
def XfAct.word : XfAct → Option XfWord
  | .desc .. => none
  | .chunk t _ => some t | .perform t _ _ _ => some t | .multi t => some t | .zip t => some t | .unzipRead t => some t
  | .unzip t _ _ => some t | .beat t _ => some t | .put t _ _ _ => some t | .take t _ => some t | .takeWrite t _ _ _ => some t

/-- A transfer word that goes through a handle. -/
def XfWord.handled (t : XfWord) : Bool := t.src.handle.isSome || t.dsts.any (·.handle.isSome)

/-- Accesses of a hub that were issued before its shootdown and are not yet performed, or whose reply or poisoning has not landed:
packets below number `n`, and transfer words through handles issued at CADENCE `c` or before (R210 step 3). -/
def State.oldAccess (s : State) (die hub n c : Nat) : Bool :=
  (s.net.any fun e => decide (e.1 < n) && e.2.die == die && e.2.hub == hub && e.2.typ != 0xC && e.2.typ != 8 && !e.2.late) ||
  (s.agenda.any fun d => d.die == die && d.hub == hub && (match d.act with
    | .xf x => (match x.word with | some t => t.handled && decide (t.issue ≤ c) | none => true)
    | _ => false))

/-- Step 2 of a shootdown at a hub (R210, R211): its handles of the range are SHOT, those of contexts saved from it, and those that
running XLATEs would set. -/
def State.shootHub (s : State) (part die hub pasid va size : Nat) : State :=
  let s := s.setHub die hub ((s.hub die hub).shoot pasid va size)
  let p := s.part part
  let s := s.setPart part { p with
    susp := p.susp.map fun x => { x with hubs := x.hubs.map fun (e : Nat × Hub) => if e.1 = 8 * die + hub then (e.1, e.2.shoot pasid va size) else e } }
  { s with agenda := s.agenda.map fun (d : Due) =>
      if d.die = die ∧ d.hub = hub then (match d.act with | .handle n x => { d with act := .handle n (x.shoot pasid va size) } | _ => d)
      else d }

/-- Step 3 of a shootdown at a hub, and step 4 once every hub is through (R210): the accesses issued before, packets below `n` and
words up to CADENCE `c`, are waited for. -/
def State.shotHub (s : State) (part die hub n c : Nat) : State :=
  let p := s.part part
  if s.oldAccess die hub n c then s.after 1 .shootdown { die := die, hub := hub, part := part, ok := false, n := n, off := c }
  else if p.xlPend ≤ 1 then s.setPart part p.shotDone
  else s.setPart part { p with xlPend := p.xlPend - 1 }

/-- SHOOTDOWN (R202, R210, R211): the packet reaches the hub; `ok` is false while older accesses are waited for, with what `n` and
`off` say of them. -/
def execShootdown (s : State) : Res :=
  let a := s.arg
  if !a.ok then .next (if (s.part a.part).shoot.isSome then s.shotHub a.part a.die a.hub a.n a.off else s)
  else
    match SMap.find a.n s.net with
    | none => .next s
    | some p =>
      let s := { s with net := SMap.drop s.net a.n }
      match (s.part p.part).shoot with
      | none => .next s
      | some (pasid, va, size) =>
        .next ((s.shootHub p.part p.target p.n pasid va size).shotHub p.part p.target p.n s.netSeq (s.die p.target).cad)

/-- XLRETRY (R212): not-present and refused entries go, then the count that every hub of the partition reads in k.xlgen moves
on (R201). -/
def execXlretry (s : State) : Res :=
  let part := s.arg.part
  let s := s.dropXlat part fun e => e.res != 0
  let p := s.part part
  .next (s.setPart part { p with xlgen := (p.xlgen + 1) % 2 ^ 32 })

end Sys2Proof.Machine
end

