-- ==== Sys2Proof/Machine/ScalarFp.lean ====
section
/-! DEFINITION. Scalar floating point of the control core, in FP32 (R347). -/

namespace Sys2Proof.Machine

open Sys2Proof

/-- A two-operand FP32 form with latency 4 (R347). -/
def fpOp (d a b : R6) (f : Nat → Nat → Nat) (s : State) : State :=
  aluOp d a b 4 (fun x y => ofLo32 (f (lo32 x) (lo32 y))) s
/-- A compare into a p register with latency 4 (R347). -/
def fpCmp (d : BitVec 3) (a b : R6) (f : Nat → Nat → Bool) (s : State) : State :=
  (s.writeP d 4 (f (lo32 (s.readS a).v) (lo32 (s.readS b).v)) (pois2 (s.readS a) (s.readS b))).advance 1

/-- SFADD (R347). -/
def execSfadd (d a b : R6) (r : BitVec 2) (s : State) : Res := .next (fpOp d a b (fp32.add (rmOf r)) s)
/-- SFSUB (R347). -/
def execSfsub (d a b : R6) (r : BitVec 2) (s : State) : Res := .next (fpOp d a b (fp32.sub (rmOf r)) s)
/-- SFMUL (R347). -/
def execSfmul (d a b : R6) (r : BitVec 2) (s : State) : Res := .next (fpOp d a b (fp32.mul (rmOf r)) s)
/-- SFDIV (R347). -/
def execSfdiv (d a b : R6) (r : BitVec 2) (s : State) : Res := .next (fpOp d a b (fp32.div (rmOf r)) s)
/-- SFSQRT (R347). -/
def execSfsqrt (d a : R6) (r : BitVec 2) (s : State) : Res :=
  .next (aluImm d a 4 (fun x => ofLo32 (fp32.sqrt (rmOf r) (lo32 x))) s)
/-- SFMIN (R301, R347). -/
def execSfmin (d a b : R6) (s : State) : Res := .next (fpOp d a b (fp32.minmax false) s)
/-- SFMAX (R301, R347). -/
def execSfmax (d a b : R6) (s : State) : Res := .next (fpOp d a b (fp32.minmax true) s)
/-- SFEQ (R301, R347). -/
def execSfeq (d : BitVec 3) (a b : R6) (s : State) : Res := .next (fpCmp d a b fp32.eq s)
/-- SFLT (R301, R347). -/
def execSflt (d : BitVec 3) (a b : R6) (s : State) : Res := .next (fpCmp d a b fp32.lt s)
/-- SFLE (R301, R347). -/
def execSfle (d : BitVec 3) (a b : R6) (s : State) : Res := .next (fpCmp d a b fp32.le s)
/-- SFCVTS: FP32 to S64, saturating, NaN to 0 (R299, R347). -/
def execSfcvts (d a : R6) (r : BitVec 2) (s : State) : Res :=
  .next (aluImm d a 4 (fun x => BitVec.ofNat 64 (ITy.ofReal ⟨64, true⟩ (rmOf r) (fp32.decode (lo32 x)))) s)
/-- SFCVTF: S64 to FP32 (R347). -/
def execSfcvtf (d a : R6) (r : BitVec 2) (s : State) : Res :=
  .next (aluImm d a 4 (fun x => ofLo32 (fp32.round .sat (rmOf r) (ofInt x.toInt 0 false))) s)

end Sys2Proof.Machine
end

