-- ==== Sys2Proof/Machine/VectorInt.lean ====
section
/-! DEFINITION. Integer and bitwise vector words (R395). -/

namespace Sys2Proof.Machine

open Sys2Proof

/-- An integer word: `f` on the integer type of the elements and two patterns; tangent +0 (R395). -/
def intWord (ety : Nat → Bool) (f : ITy → Nat → Nat → Nat) (d a b : R5) (m : BitVec 3) (s : State) : State :=
  vecWord none ety m.toNat 4 [d.toNat]
    (fun c => c.emit d.toNat ((c.actives m.toNat).map fun i =>
      ⟨i, f c.ety.asInt (c.src a.toNat i) (c.src b.toNat i), c.pois a.toNat i || c.pois b.toNat i, c.noTan⟩)) s

/-- a shifted right by n with copies of the top bit of its `w` bits entering. -/
def shiftArith (w a n : Nat) : Nat := wrapInt (sextNat a w / ((2 ^ n : Nat) : Int)) w

/-- VIADD (R395). -/
def execViadd (d a b : R5) (m : BitVec 3) (s : State) : Res :=
  .next (intWord isIntTy (fun t x y => (x + y) % 2 ^ t.bits) d a b m s)
/-- VISUB (R395). -/
def execVisub (d a b : R5) (m : BitVec 3) (s : State) : Res :=
  .next (intWord isIntTy (fun t x y => (x + 2 ^ t.bits - y) % 2 ^ t.bits) d a b m s)
/-- VIMUL (R395). -/
def execVimul (d a b : R5) (m : BitVec 3) (s : State) : Res :=
  .next (intWord isIntTy (fun t x y => (x * y) % 2 ^ t.bits) d a b m s)
/-- VIMIN (R395). -/
def execVimin (d a b : R5) (m : BitVec 3) (s : State) : Res :=
  .next (intWord isIntTy (fun t x y => if t.decode y < t.decode x then y else x) d a b m s)
/-- VIMAX (R395). -/
def execVimax (d a b : R5) (m : BitVec 3) (s : State) : Res :=
  .next (intWord isIntTy (fun t x y => if t.decode x < t.decode y then y else x) d a b m s)
/-- VAND (R395). -/
def execVand (d a b : R5) (m : BitVec 3) (s : State) : Res := .next (intWord anyTy (fun _ x y => x &&& y) d a b m s)
/-- VOR (R395). -/
def execVor (d a b : R5) (m : BitVec 3) (s : State) : Res := .next (intWord anyTy (fun _ x y => x ||| y) d a b m s)
/-- VXOR (R395). -/
def execVxor (d a b : R5) (m : BitVec 3) (s : State) : Res := .next (intWord anyTy (fun _ x y => x ^^^ y) d a b m s)
/-- VSHL (R395). -/
def execVshl (d a b : R5) (m : BitVec 3) (s : State) : Res :=
  .next (intWord anyTy (fun t x y => x * 2 ^ (y % t.bits) % 2 ^ t.bits) d a b m s)
/-- VSHR (R395). -/
def execVshr (d a b : R5) (m : BitVec 3) (s : State) : Res :=
  .next (intWord anyTy (fun t x y => x / 2 ^ (y % t.bits)) d a b m s)
/-- VSHRA (R395). -/
def execVshra (d a b : R5) (m : BitVec 3) (s : State) : Res :=
  .next (intWord anyTy (fun t x y => shiftArith t.bits x (y % t.bits)) d a b m s)
/-- VIADDS (R395). -/
def execViadds (d a b : R5) (m : BitVec 3) (s : State) : Res :=
  .next (intWord isIntTy (fun t x y => t.clamp (t.decode x + t.decode y)) d a b m s)

end Sys2Proof.Machine
end

