-- ==== Sys2Proof/Machine/VectorMask.lean ====
section
/-! DEFINITION. Vector compares, selection and mask words (R396 to R398). -/

namespace Sys2Proof.Machine

open Sys2Proof

/-- Relations of R396: 0 eq, 1 ne, 2 lt, 3 le. -/
def ETy.holds (t : ETy) (ftz : Bool) (rel x y : Nat) : Bool :=
  match t with
  | .fp f =>
    let x := f.flush ftz x
    let y := f.flush ftz y
    match rel with
    | 0 => f.eq x y
    | 1 => !f.eq x y
    | 2 => f.lt x y
    | _ => f.le x y
  | .int i =>
    match rel with
    | 0 => x == y
    | 1 => x != y
    | 2 => decide (i.decode x < i.decode y)
    | _ => decide (i.decode x ≤ i.decode y)

/-- A compare into a mask: a poisoned active element that it would read is a fault (R396). -/
def cmpWord (rel : Nat) (d : BitVec 3) (a b : R5) (m : BitVec 3) (s : State) : State :=
  let c := s.vctx
  if s.curTan.isSome then s.engFault 0x01 2 0xFFFF 1 1 []
  else
    match (c.actives m.toNat).find? fun i => c.pois a.toNat i || c.pois b.toNat i with
    | some i => s.engFault 0x0A 2 i 1 1 []
    | none =>
      (s.later 4 (.maskBits d.toNat ((c.actives m.toNat).map fun i =>
        (i, c.ety.holds c.ftz rel (c.get 0 a.toNat i) (c.get 0 b.toNat i))))).retire 1 1

/-- VCMPEQ (R396). -/
def execVcmpeq (d : BitVec 3) (a b : R5) (m : BitVec 3) (s : State) : Res := .next (cmpWord 0 d a b m s)
/-- VCMPNE (R396). -/
def execVcmpne (d : BitVec 3) (a b : R5) (m : BitVec 3) (s : State) : Res := .next (cmpWord 1 d a b m s)
/-- VCMPLT (R396). -/
def execVcmplt (d : BitVec 3) (a b : R5) (m : BitVec 3) (s : State) : Res := .next (cmpWord 2 d a b m s)
/-- VCMPLE (R396). -/
def execVcmple (d : BitVec 3) (a b : R5) (m : BitVec 3) (s : State) : Res := .next (cmpWord 3 d a b m s)

/-- Element i as a register moves it: encoding, poison and tangents, +0 where marked constant (R315, R412). -/
def VCtx.moved (c : VCtx) (const : Bool) (r j i : Nat) (p : Bool) : Elt :=
  ⟨i, c.src r j, c.pois r j || p, c.ks.map fun t => if const then 0 else c.get t r j⟩

/-- VSEL (R397). -/
def execVsel (d a b : R5) (c : BitVec 3) (m : BitVec 3) (s : State) : Res :=
  .next (vecWord (some ⟨true, true, false, true⟩) anyTy m.toNat 4 [d.toNat]
    (fun x => x.emit d.toNat ((x.actives m.toNat).map fun i =>
      if x.h.maskBit c.toNat i then x.moved x.tan.ca a.toNat i i false else x.moved x.tan.cb b.toNat i i false)) s)

/-- A mask word: every bit of the engine's masks, whatever VL (R398). -/
def maskWord (d a b : BitVec 3) (f : Bool → Bool → Bool) (s : State) : State :=
  let c := s.vctx
  if s.curTan.isSome then s.engFault 0x01 2 0xFFFF 1 1 []
  else
    (s.later 4 (.maskBits d.toNat ((List.range c.len).map fun i =>
      (i, f (c.h.maskBit a.toNat i) (c.h.maskBit b.toNat i))))).retire 1 1

/-- VMAND (R398). -/
def execVmand (d a b : BitVec 3) (s : State) : Res := .next (maskWord d a b (· && ·) s)
/-- VMOR (R398). -/
def execVmor (d a b : BitVec 3) (s : State) : Res := .next (maskWord d a b (· || ·) s)
/-- VMXOR (R398). -/
def execVmxor (d a b : BitVec 3) (s : State) : Res := .next (maskWord d a b xor s)
/-- VMNOT (R398). -/
def execVmnot (d a : BitVec 3) (s : State) : Res := .next (maskWord d a a (fun x _ => !x) s)

end Sys2Proof.Machine
end

