-- ==== Sys2Proof/Machine/VectorPerm.lean ====
section
/-! DEFINITION. Permutes, random numbers, tangent access, shape words, TAN and VNOP (R404, R407 to R414). -/

namespace Sys2Proof.Machine

open Sys2Proof

/-- A permute: `f` gives the source index of element i, if it has one, and the poison of the index (R404). -/
def permWord (f : VCtx → Nat → Option Nat × Bool) (d a : R5) (m : BitVec 3) (s : State) : State :=
  vecWord (some ⟨true, false, false, true⟩) anyTy m.toNat 6 [d.toNat]
    (fun c => c.emit d.toNat ((c.actives m.toNat).map fun i =>
      let x := f c i
      match x.1 with
      | some j => if j < c.vl then c.moved c.tan.ca a.toNat j i x.2 else ⟨i, 0, x.2, c.noTan⟩
      | none => ⟨i, 0, x.2, c.noTan⟩)) s

/-- Bytes 0 to 3 of a register, primal. -/
def VCtx.head (c : VCtx) (r : Nat) : Nat := c.h.elem 0 r 0 4

/-- VPERM (R404). -/
def execVperm (d a b : R5) (m : BitVec 3) (s : State) : Res :=
  .next (permWord (fun c i => (some (c.get 0 b.toNat i), c.pois b.toNat i)) d a m s)
/-- VSLIDE (R404). -/
def execVslide (d a b : R5) (m : BitVec 3) (s : State) : Res :=
  .next (permWord (fun c i =>
    let j : Int := (i : Int) + sextNat (c.head b.toNat) 32
    (if j < 0 then none else some j.toNat, c.h.elemPois b.toNat 0 4)) d a m s)
/-- VBCAST (R404). -/
def execVbcast (d a b : R5) (m : BitVec 3) (s : State) : Res :=
  .next (permWord (fun c _ => (some (c.head b.toNat), c.h.elemPois b.toNat 0 4)) d a m s)

/-- One round of Philox-4×32 (R407). -/
def philoxRound (x : Nat × Nat × Nat × Nat) (y0 y1 : Nat) : Nat × Nat × Nat × Nat :=
  let q0 := 0xD2511F53 * x.1
  let q1 := 0xCD9E8D57 * x.2.2.1
  (q1 / 2 ^ 32 ^^^ x.2.1 ^^^ y0, q1 % 2 ^ 32, q0 / 2 ^ 32 ^^^ x.2.2.2 ^^^ y1, q0 % 2 ^ 32)

/-- `n` rounds, the key bumped between rounds (R407). -/
def philox : Nat → Nat × Nat × Nat × Nat → Nat → Nat → Nat × Nat × Nat × Nat
  | 0, x, _, _ => x
  | n + 1, x, y0, y1 => philox n (philoxRound x y0 y1) ((y0 + 0x9E3779B9) % 2 ^ 32) ((y1 + 0xBB67AE85) % 2 ^ 32)

/-- Output word m of a block. -/
def wordOf (x : Nat × Nat × Nat × Nat) : Nat → Nat
  | 0 => x.1 | 1 => x.2.1 | 2 => x.2.2.1 | _ => x.2.2.2

/-- VRAND (R407): 32-bit types alone. -/
def execVrand (d a b : R5) (m : BitVec 3) (s : State) : Res :=
  .next (vecWord none (fun t => t == 0 || t == 5 || t == 6) m.toNat 12 [d.toNat]
    (fun c =>
      let e := fun r q => c.h.elem 0 r (4 * q) 4
      let p := c.h.elemPois a.toNat 0 16 || c.h.elemPois b.toNat 0 8
      c.emit d.toNat ((c.actives m.toNat).map fun i =>
        let x := philox 10 ((e a.toNat 0 + i / 4) % 2 ^ 32, e a.toNat 1, e a.toNat 2, e a.toNat 3)
          (e b.toNat 0) (e b.toNat 1)
        ⟨i, wordOf x (i % 4), p, c.noTan⟩)) s)

/-- VTGET (R414): reads +0 above k. -/
def execVtget (d a : R5) (b : BitVec 3) (m : BitVec 3) (s : State) : Res :=
  .next (vecWord none anyTy m.toNat 4 [d.toNat]
    (fun c => c.emit d.toNat ((c.actives m.toNat).map fun i =>
      ⟨i, c.get b.toNat a.toNat i, c.pois a.toNat i, c.noTan⟩)) s)

/-- VTSET (R414): shadow b of v(a) takes the primal value of v(d); writes nothing above k. -/
def execVtset (d a : R5) (b : BitVec 3) (m : BitVec 3) (s : State) : Res :=
  .next (vecWord none anyTy m.toNat 4 [a.toNat]
    (fun c =>
      if c.k < b.toNat then []
      else (c.actives m.toNat).map fun i =>
        ⟨a.toNat, b.toNat, i * c.w, leBytes c.w (c.get 0 d.toNat i), if c.pois d.toNat i then some true else none, 255⟩) s)

/-- The effect of a shape word: the register at n + 1 (R408). -/
def setShape (x : Shape) (s : State) : State := (s.later 1 (.shape x)).retire 1 1

/-- SHAPE (R408). A TAN before it is illegal (R329). -/
def execShape (t : BitVec 4) (f : BitVec 1) (g : BitVec 4) (l : BitVec 13) (s : State) : Res :=
  if s.curTan.isSome then .next (s.engFault 0x01 2 0xFFFF 1 1 [])
  else .next (setShape ⟨l.toNat, g.toNat, decide (f = 1), t.toNat⟩ s)

/-- SHAPER (R409). -/
def execShaper (a : R5) (s : State) : Res :=
  let c := s.vctx
  let v := c.head a.toNat
  if s.curTan.isSome then .next (s.engFault 0x01 2 0xFFFF 1 1 [])
  else if c.h.elemPois a.toNat 0 4 then .next (s.engFault 0x0A 2 0xFFFF 1 1 [])
  else if 10 < bits v 3 0 ∨ bits v 6 4 ≠ 0 ∨ bits v 15 12 ≠ 0 then .next (s.engFault 0x01 2 0xFFFF 1 1 [])
  else .next (setShape ⟨bits v 31 16, bits v 11 8, v.testBit 7, bits v 3 0⟩ s)

/-- TAN (R329, R411): held for the next word, with which it issues in one slot; a second TAN, or one that ends its
segment, is illegal. -/
def execTan (t : BitVec 3) (a b c : BitVec 1) (s : State) : Res :=
  let h := s.curHub
  let e := s.curEng
  if s.curTan.isSome then .next (s.engFault 0x01 2 0xFFFF 1 1 [])
  else if (h.segment 1 (e.seg.getD 0)).2 ≤ e.pos + 1 then .next (s.engFault 0x01 2 0xFFFF 1 1 [])
  else
    .next (s.setCurHub { h.setStream s.cur.eng { e with pos := e.pos + 1 } with
      tan := some ⟨t.toNat, decide (a = 1), decide (b = 1), decide (c = 1)⟩ })

/-- VNOP: n issue slots (R410). -/
def execVnop (n : BitVec 16) (s : State) : Res :=
  if s.curTan.isSome then .next (s.engFault 0x01 2 0xFFFF 1 1 []) else .next (s.retire 1 (n.toNat + 1))

end Sys2Proof.Machine
end

