-- ==== Sys2Proof/Machine/Dispatch.lean ====
section
/-! DEFINITION. The dispatch: one arm per constructor of Instr, one direct call of its meaning. -/

namespace Sys2Proof.Machine

open Sys2Proof

def exec (i : Instr) (s : State) : Host.Outcome State Fault Refusal :=
  match i with
  | .add d a b => Sys2Proof.Machine.execAdd d a b s
  | .sub d a b => Sys2Proof.Machine.execSub d a b s
  | .and d a b => Sys2Proof.Machine.execAnd d a b s
  | .or d a b => Sys2Proof.Machine.execOr d a b s
  | .xor d a b => Sys2Proof.Machine.execXor d a b s
  | .shl d a b => Sys2Proof.Machine.execShl d a b s
  | .shr d a b => Sys2Proof.Machine.execShr d a b s
  | .shra d a b => Sys2Proof.Machine.execShra d a b s
  | .rol d a b => Sys2Proof.Machine.execRol d a b s
  | .ror d a b => Sys2Proof.Machine.execRor d a b s
  | .min d a b => Sys2Proof.Machine.execMin d a b s
  | .max d a b => Sys2Proof.Machine.execMax d a b s
  | .minu d a b => Sys2Proof.Machine.execMinu d a b s
  | .maxu d a b => Sys2Proof.Machine.execMaxu d a b s
  | .slt d a b => Sys2Proof.Machine.execSlt d a b s
  | .sltu d a b => Sys2Proof.Machine.execSltu d a b s
  | .mul d a b => Sys2Proof.Machine.execMul d a b s
  | .mulh d a b => Sys2Proof.Machine.execMulh d a b s
  | .mulhu d a b => Sys2Proof.Machine.execMulhu d a b s
  | .div d a b => Sys2Proof.Machine.execDiv d a b s
  | .divu d a b => Sys2Proof.Machine.execDivu d a b s
  | .rem d a b => Sys2Proof.Machine.execRem d a b s
  | .remu d a b => Sys2Proof.Machine.execRemu d a b s
  | .cmpeq d a b => Sys2Proof.Machine.execCmpeq d a b s
  | .cmplt d a b => Sys2Proof.Machine.execCmplt d a b s
  | .cmpltu d a b => Sys2Proof.Machine.execCmpltu d a b s
  | .addi d a imm => Sys2Proof.Machine.execAddi d a imm s
  | .andi d a imm => Sys2Proof.Machine.execAndi d a imm s
  | .ori d a imm => Sys2Proof.Machine.execOri d a imm s
  | .xori d a imm => Sys2Proof.Machine.execXori d a imm s
  | .shli d a imm => Sys2Proof.Machine.execShli d a imm s
  | .shri d a imm => Sys2Proof.Machine.execShri d a imm s
  | .shrai d a imm => Sys2Proof.Machine.execShrai d a imm s
  | .slti d a imm => Sys2Proof.Machine.execSlti d a imm s
  | .sltui d a imm => Sys2Proof.Machine.execSltui d a imm s
  | .muli d a imm => Sys2Proof.Machine.execMuli d a imm s
  | .lil d imm => Sys2Proof.Machine.execLil d imm s
  | .lih d imm => Sys2Proof.Machine.execLih d imm s
  | .lea d a imm => Sys2Proof.Machine.execLea d a imm s
  | .ptag d a b => Sys2Proof.Machine.execPtag d a b s
  | .pspace d a => Sys2Proof.Machine.execPspace d a s
  | .sfadd d a b r => Sys2Proof.Machine.execSfadd d a b r s
  | .sfsub d a b r => Sys2Proof.Machine.execSfsub d a b r s
  | .sfmul d a b r => Sys2Proof.Machine.execSfmul d a b r s
  | .sfdiv d a b r => Sys2Proof.Machine.execSfdiv d a b r s
  | .sfsqrt d a r => Sys2Proof.Machine.execSfsqrt d a r s
  | .sfmin d a b => Sys2Proof.Machine.execSfmin d a b s
  | .sfmax d a b => Sys2Proof.Machine.execSfmax d a b s
  | .sfeq d a b => Sys2Proof.Machine.execSfeq d a b s
  | .sflt d a b => Sys2Proof.Machine.execSflt d a b s
  | .sfle d a b => Sys2Proof.Machine.execSfle d a b s
  | .sfcvts d a r => Sys2Proof.Machine.execSfcvts d a r s
  | .sfcvtf d a r => Sys2Proof.Machine.execSfcvtf d a r s
  | .ld d a z imm => Sys2Proof.Machine.execLd d a z imm s
  | .st d a z imm => Sys2Proof.Machine.execSt d a z imm s
  | .ldx d a z imm => Sys2Proof.Machine.execLdx d a z imm s
  | .stx d a z imm => Sys2Proof.Machine.execStx d a z imm s
  | .amoAdd d a b z => Sys2Proof.Machine.execAmoAdd d a b z s
  | .amoAnd d a b z => Sys2Proof.Machine.execAmoAnd d a b z s
  | .amoOr d a b z => Sys2Proof.Machine.execAmoOr d a b z s
  | .amoXor d a b z => Sys2Proof.Machine.execAmoXor d a b z s
  | .amoMin d a b z => Sys2Proof.Machine.execAmoMin d a b z s
  | .amoMax d a b z => Sys2Proof.Machine.execAmoMax d a b z s
  | .amoMinu d a b z => Sys2Proof.Machine.execAmoMinu d a b z s
  | .amoMaxu d a b z => Sys2Proof.Machine.execAmoMaxu d a b z s
  | .amoXchg d a b z => Sys2Proof.Machine.execAmoXchg d a b z s
  | .amoFadd d a b => Sys2Proof.Machine.execAmoFadd d a b s
  | .cas d a b z => Sys2Proof.Machine.execCas d a b z s
  | .br c h a o => Sys2Proof.Machine.execBr c h a o s
  | .checkS h a o => Sys2Proof.Machine.execCheckS h a o s
  | .checkP h a o => Sys2Proof.Machine.execCheckP h a o s
  | .loop l a o => Sys2Proof.Machine.execLoop l a o s
  | .jmp o => Sys2Proof.Machine.execJmp o s
  | .call o => Sys2Proof.Machine.execCall o s
  | .sel d a b p => Sys2Proof.Machine.execSel d a b p s
  | .sxv d a => Sys2Proof.Machine.execSxv d a s
  | .vxs d a b => Sys2Proof.Machine.execVxs d a b s
  | .go e g t => Sys2Proof.Machine.execGo e g t s
  | .push d => Sys2Proof.Machine.execPush d s
  | .tlwait d q imm => Sys2Proof.Machine.execTlwait d q imm s
  | .tlread d q => Sys2Proof.Machine.execTlread d q s
  | .tlreadFail d q => Sys2Proof.Machine.execTlreadFail d q s
  | .pop d => Sys2Proof.Machine.execPop d s
  | .popTag d => Sys2Proof.Machine.execPopTag d s
  | .peekq d => Sys2Proof.Machine.execPeekq d s
  | .xlateRead h a => Sys2Proof.Machine.execXlateRead h a s
  | .xlateWrite h a => Sys2Proof.Machine.execXlateWrite h a s
  | .slook d a b => Sys2Proof.Machine.execSlook d a b s
  | .sfill d a b => Sys2Proof.Machine.execSfill d a b s
  | .sevict d a => Sys2Proof.Machine.execSevict d a s
  | .phase a imm => Sys2Proof.Machine.execPhase a imm s
  | .wid d imm => Sys2Proof.Machine.execWid d imm s
  | .csrr k a => Sys2Proof.Machine.execCsrr k a s
  | .csrw k a => Sys2Proof.Machine.execCsrw k a s
  | .nop => Sys2Proof.Machine.execNop s
  | .mark => Sys2Proof.Machine.execMark s
  | .fence sel => Sys2Proof.Machine.execFence sel s
  | .trap k => Sys2Proof.Machine.execTrap k s
  | .halt => Sys2Proof.Machine.execHalt s
  | .done => Sys2Proof.Machine.execDone s
  | .ret => Sys2Proof.Machine.execRet s
  | .cad d => Sys2Proof.Machine.execCad d s
  | .tick k a => Sys2Proof.Machine.execTick k a s
  | .stand a => Sys2Proof.Machine.execStand a s
  | .standQ a => Sys2Proof.Machine.execStandQ a s
  | .bar l imm => Sys2Proof.Machine.execBar l imm s
  | .xinv h => Sys2Proof.Machine.execXinv h s
  | .fload g t => Sys2Proof.Machine.execFload g t s
  | .fbind g c => Sys2Proof.Machine.execFbind g c s
  | .vadd d a b m r => Sys2Proof.Machine.execVadd d a b m r s
  | .vsub d a b m r => Sys2Proof.Machine.execVsub d a b m r s
  | .vmul d a b m r => Sys2Proof.Machine.execVmul d a b m r s
  | .vdiv d a b m r => Sys2Proof.Machine.execVdiv d a b m r s
  | .vmin d a b m => Sys2Proof.Machine.execVmin d a b m s
  | .vmax d a b m => Sys2Proof.Machine.execVmax d a b m s
  | .vfma d a b c m r => Sys2Proof.Machine.execVfma d a b c m r s
  | .vsqrt d a m r => Sys2Proof.Machine.execVsqrt d a m r s
  | .vrcp d a m r => Sys2Proof.Machine.execVrcp d a m r s
  | .vrsqrt d a m r => Sys2Proof.Machine.execVrsqrt d a m r s
  | .vexp2 d a m r => Sys2Proof.Machine.execVexp2 d a m r s
  | .vlog2 d a m r => Sys2Proof.Machine.execVlog2 d a m r s
  | .vln d a m r => Sys2Proof.Machine.execVln d a m r s
  | .vtanh d a m r => Sys2Proof.Machine.execVtanh d a m r s
  | .vneg d a m => Sys2Proof.Machine.execVneg d a m s
  | .vabs d a m => Sys2Proof.Machine.execVabs d a m s
  | .viadd d a b m => Sys2Proof.Machine.execViadd d a b m s
  | .visub d a b m => Sys2Proof.Machine.execVisub d a b m s
  | .vimul d a b m => Sys2Proof.Machine.execVimul d a b m s
  | .vimin d a b m => Sys2Proof.Machine.execVimin d a b m s
  | .vimax d a b m => Sys2Proof.Machine.execVimax d a b m s
  | .vand d a b m => Sys2Proof.Machine.execVand d a b m s
  | .vor d a b m => Sys2Proof.Machine.execVor d a b m s
  | .vxor d a b m => Sys2Proof.Machine.execVxor d a b m s
  | .vshl d a b m => Sys2Proof.Machine.execVshl d a b m s
  | .vshr d a b m => Sys2Proof.Machine.execVshr d a b m s
  | .vshra d a b m => Sys2Proof.Machine.execVshra d a b m s
  | .viadds d a b m => Sys2Proof.Machine.execViadds d a b m s
  | .vcmpeq d a b m => Sys2Proof.Machine.execVcmpeq d a b m s
  | .vcmpne d a b m => Sys2Proof.Machine.execVcmpne d a b m s
  | .vcmplt d a b m => Sys2Proof.Machine.execVcmplt d a b m s
  | .vcmple d a b m => Sys2Proof.Machine.execVcmple d a b m s
  | .vsel d a b c m => Sys2Proof.Machine.execVsel d a b c m s
  | .vmand d a b => Sys2Proof.Machine.execVmand d a b s
  | .vmor d a b => Sys2Proof.Machine.execVmor d a b s
  | .vmxor d a b => Sys2Proof.Machine.execVmxor d a b s
  | .vmnot d a => Sys2Proof.Machine.execVmnot d a s
  | .vcvt d a t o m r => Sys2Proof.Machine.execVcvt d a t o m r s
  | .vpack d a f c r => Sys2Proof.Machine.execVpack d a f c r s
  | .vunpack d a f c => Sys2Proof.Machine.execVunpack d a f c s
  | .vprune24 d a b m => Sys2Proof.Machine.execVprune24 d a b m s
  | .vrsum d a m => Sys2Proof.Machine.execVrsum d a m s
  | .vrmax d a m => Sys2Proof.Machine.execVrmax d a m s
  | .vrmin d a m => Sys2Proof.Machine.execVrmin d a m s
  | .vscan d a m => Sys2Proof.Machine.execVscan d a m s
  | .vargmax d a m => Sys2Proof.Machine.execVargmax d a m s
  | .vpopnz d a m => Sys2Proof.Machine.execVpopnz d a m s
  | .vnzmap d a m => Sys2Proof.Machine.execVnzmap d a m s
  | .vperm d a b m => Sys2Proof.Machine.execVperm d a b m s
  | .vslide d a b m => Sys2Proof.Machine.execVslide d a b m s
  | .vbcast d a b m => Sys2Proof.Machine.execVbcast d a b m s
  | .vld d a o => Sys2Proof.Machine.execVld d a o s
  | .vst d a o => Sys2Proof.Machine.execVst d a o s
  | .vrand d a b m => Sys2Proof.Machine.execVrand d a b m s
  | .vtget d a b m => Sys2Proof.Machine.execVtget d a b m s
  | .vtset d a b m => Sys2Proof.Machine.execVtset d a b m s
  | .shape t f g l => Sys2Proof.Machine.execShape t f g l s
  | .shaper a => Sys2Proof.Machine.execShaper a s
  | .tan sel a b c => Sys2Proof.Machine.execTan sel a b c s
  | .vnop n => Sys2Proof.Machine.execVnop n s
  | .mnop n => Sys2Proof.Machine.execMnop n s
  | .mloadw e => Sys2Proof.Machine.execMloadw e s
  | .mswap => Sys2Proof.Machine.execMswap s
  | .mrun n r t e => Sys2Proof.Machine.execMrun n r t e s
  | .mrunS n r m t e => Sys2Proof.Machine.execMrunS n r m t e s
  | .mmeta n e => Sys2Proof.Machine.execMmeta n e s
  | .mscq n e => Sys2Proof.Machine.execMscq n e s
  | .mscmode m => Sys2Proof.Machine.execMscmode m s
  | .mdrain n r0 r f t e => Sys2Proof.Machine.execMdrain n r0 r f t e s
  | .mzero n => Sys2Proof.Machine.execMzero n s
  | .mseta e => Sys2Proof.Machine.execMseta e s
  | .mmode x a w => Sys2Proof.Machine.execMmode x a w s
  | .xfnop n => Sys2Proof.Machine.execXfnop n s
  | .xfcopy e => Sys2Proof.Machine.execXfcopy e s
  | .xfcast e => Sys2Proof.Machine.execXfcast e s
  | .xfzip e => Sys2Proof.Machine.execXfzip e s
  | .xfunzip e => Sys2Proof.Machine.execXfunzip e s
  | .xffill e => Sys2Proof.Machine.execXffill e s
  | .xfsend e => Sys2Proof.Machine.execXfsend e s
  | .xfrecv e => Sys2Proof.Machine.execXfrecv e s
  | .xfvirt e => Sys2Proof.Machine.execXfvirt e s
  | .ixnop n => Sys2Proof.Machine.execIxnop n s
  | .ixgather e => Sys2Proof.Machine.execIxgather e s
  | .ixscatter e => Sys2Proof.Machine.execIxscatter e s
  | .ixscadd e => Sys2Proof.Machine.execIxscadd e s
  | .ixcount e => Sys2Proof.Machine.execIxcount e s
  | .ixcompact e => Sys2Proof.Machine.execIxcompact e s
  | .ixhist e => Sys2Proof.Machine.execIxhist e s
  | .ixamo e => Sys2Proof.Machine.execIxamo e s
  | .ixcas e => Sys2Proof.Machine.execIxcas e s
  | .indexCommandStart => Sys2Proof.Machine.execIndexCommandStart s
  | .indexCommandEnd => Sys2Proof.Machine.execIndexCommandEnd s
  | .dkeys n k w e => Sys2Proof.Machine.execDkeys n k w e s
  | .dmatch d m u r p e => Sys2Proof.Machine.execDmatch d m u r p e s
  | .dmerge m w e => Sys2Proof.Machine.execDmerge m w e s
  | .dunmerge m w e => Sys2Proof.Machine.execDunmerge m w e s
  | .dcompose d a b => Sys2Proof.Machine.execDcompose d a b s
  | .dsizes m e => Sys2Proof.Machine.execDsizes m e s
  | .dsave m e => Sys2Proof.Machine.execDsave m e s
  | .dload m e => Sys2Proof.Machine.execDload m e s
  | .draftingCommandEnd => Sys2Proof.Machine.execDraftingCommandEnd s
  | .fnop => Sys2Proof.Machine.execFnop s
  | .fadd d a b => Sys2Proof.Machine.execFadd d a b s
  | .fmul d a b => Sys2Proof.Machine.execFmul d a b s
  | .fmax d a b => Sys2Proof.Machine.execFmax d a b s
  | .fmin d a b => Sys2Proof.Machine.execFmin d a b s
  | .fcmp d a b c => Sys2Proof.Machine.execFcmp d a b c s
  | .fsel d a b c => Sys2Proof.Machine.execFsel d a b c s
  | .facc d a => Sys2Proof.Machine.execFacc d a s
  | .fmov d a => Sys2Proof.Machine.execFmov d a s
  | .froute a m => Sys2Proof.Machine.execFroute a m s
  | .ftake d => Sys2Proof.Machine.execFtake d s
  | .femit a => Sys2Proof.Machine.execFemit a s
  | .floopb t c f => Sys2Proof.Machine.execFloopb t c f s
  | .fcvt d a f t p => Sys2Proof.Machine.execFcvt d a f t p s
  | .fzip d a b => Sys2Proof.Machine.execFzip d a b s
  | .funzip d a h => Sys2Proof.Machine.execFunzip d a h s
  | .segmentStart => Sys2Proof.Machine.execSegmentStart s
  | .matrixStepCommit => Sys2Proof.Machine.execMatrixStepCommit s
  | .transferWordEnd => Sys2Proof.Machine.execTransferWordEnd s
  | .replyPortEntry => Sys2Proof.Machine.execReplyPortEntry s
  | .storeMarkClose => Sys2Proof.Machine.execStoreMarkClose s
  | .fenceEnd => Sys2Proof.Machine.execFenceEnd s
  | .tlwaitEnd => Sys2Proof.Machine.execTlwaitEnd s
  | .tickExpiry => Sys2Proof.Machine.execTickExpiry s
  | .popTake => Sys2Proof.Machine.execPopTake s
  | .barrierRelease => Sys2Proof.Machine.execBarrierRelease s
  | .itemStart => Sys2Proof.Machine.execItemStart s
  | .itemEnd => Sys2Proof.Machine.execItemEnd s
  | .launchCompletion => Sys2Proof.Machine.execLaunchCompletion s
  | .launchAbort => Sys2Proof.Machine.execLaunchAbort s
  | .phaseDirectoryAnswer => Sys2Proof.Machine.execPhaseDirectoryAnswer s
  | .hubGrant => Sys2Proof.Machine.execHubGrant s
  | .ageingTick => Sys2Proof.Machine.execAgeingTick s
  | .doorbellKick => Sys2Proof.Machine.execDoorbellKick s
  | .slotFetch => Sys2Proof.Machine.execSlotFetch s
  | .launchValidate => Sys2Proof.Machine.execLaunchValidate s
  | .slotSave => Sys2Proof.Machine.execSlotSave s
  | .slotRestore => Sys2Proof.Machine.execSlotRestore s
  | .preemptRequest => Sys2Proof.Machine.execPreemptRequest s
  | .slotAbort => Sys2Proof.Machine.execSlotAbort s
  | .countedPreemption => Sys2Proof.Machine.execCountedPreemption s
  | .countedResume => Sys2Proof.Machine.execCountedResume s
  | .watchdogExpiry => Sys2Proof.Machine.execWatchdogExpiry s
  | .backstopReset => Sys2Proof.Machine.execBackstopReset s
  | .haltLimitReset => Sys2Proof.Machine.execHaltLimitReset s
  | .partitionReset => Sys2Proof.Machine.execPartitionReset s
  | .partitionResetDone => Sys2Proof.Machine.execPartitionResetDone s
  | .partitionScrub => Sys2Proof.Machine.execPartitionScrub s
  | .ldmapLock => Sys2Proof.Machine.execLdmapLock s
  | .ldmapUnlock => Sys2Proof.Machine.execLdmapUnlock s
  | .dieFailure => Sys2Proof.Machine.execDieFailure s
  | .pacelineForm => Sys2Proof.Machine.execPacelineForm s
  | .pacelineDissolve => Sys2Proof.Machine.execPacelineDissolve s
  | .linkTrainingDone => Sys2Proof.Machine.execLinkTrainingDone s
  | .frameTransmit => Sys2Proof.Machine.execFrameTransmit s
  | .badFrame => Sys2Proof.Machine.execBadFrame s
  | .timedBeatDelivery => Sys2Proof.Machine.execTimedBeatDelivery s
  | .countedBeatReceive => Sys2Proof.Machine.execCountedBeatReceive s
  | .countedRetryTimeout => Sys2Proof.Machine.execCountedRetryTimeout s
  | .readRequest => Sys2Proof.Machine.execReadRequest s
  | .readReply => Sys2Proof.Machine.execReadReply s
  | .write => Sys2Proof.Machine.execWrite s
  | .writeAcknowledgement => Sys2Proof.Machine.execWriteAcknowledgement s
  | .atomicRequest => Sys2Proof.Machine.execAtomicRequest s
  | .atomicReply => Sys2Proof.Machine.execAtomicReply s
  | .controlSpaceRead => Sys2Proof.Machine.execControlSpaceRead s
  | .fenceMarker => Sys2Proof.Machine.execFenceMarker s
  | .countedReplyDeadline => Sys2Proof.Machine.execCountedReplyDeadline s
  | .sampleReceive => Sys2Proof.Machine.execSampleReceive s
  | .subminReceive => Sys2Proof.Machine.execSubminReceive s
  | .downReceive => Sys2Proof.Machine.execDownReceive s
  | .coastReceive => Sys2Proof.Machine.execCoastReceive s
  | .coastApply => Sys2Proof.Machine.execCoastApply s
  | .haltFrameReceive => Sys2Proof.Machine.execHaltFrameReceive s
  | .releaseFrameReceive => Sys2Proof.Machine.execReleaseFrameReceive s
  | .standAdoption => Sys2Proof.Machine.execStandAdoption s
  | .standLeadCheck => Sys2Proof.Machine.execStandLeadCheck s
  | .standHold => Sys2Proof.Machine.execStandHold s
  | .standResume => Sys2Proof.Machine.execStandResume s
  | .idleStandArm => Sys2Proof.Machine.execIdleStandArm s
  | .quietSave => Sys2Proof.Machine.execQuietSave s
  | .timedResume => Sys2Proof.Machine.execTimedResume s
  | .faultReportReceive => Sys2Proof.Machine.execFaultReportReceive s
  | .pageFaultBatchClose => Sys2Proof.Machine.execPageFaultBatchClose s
  | .pacelineHold => Sys2Proof.Machine.execPacelineHold s
  | .pacelineRelease => Sys2Proof.Machine.execPacelineRelease s
  | .pacelineAbort => Sys2Proof.Machine.execPacelineAbort s
  | .frtailWrite => Sys2Proof.Machine.execFrtailWrite s
  | .faultRingEnable => Sys2Proof.Machine.execFaultRingEnable s
  | .mailboxGo => Sys2Proof.Machine.execMailboxGo s
  | .mailboxDone => Sys2Proof.Machine.execMailboxDone s
  | .qcreate => Sys2Proof.Machine.execQcreate s
  | .qdestroy => Sys2Proof.Machine.execQdestroy s
  | .qrestart => Sys2Proof.Machine.execQrestart s
  | .qstat => Sys2Proof.Machine.execQstat s
  | .qprio => Sys2Proof.Machine.execQprio s
  | .psuspend => Sys2Proof.Machine.execPsuspend s
  | .psuspendResponse => Sys2Proof.Machine.execPsuspendResponse s
  | .presume => Sys2Proof.Machine.execPresume s
  | .preset => Sys2Proof.Machine.execPreset s
  | .pconfig => Sys2Proof.Machine.execPconfig s
  | .paceform => Sys2Proof.Machine.execPaceform s
  | .sched => Sys2Proof.Machine.execSched s
  | .sleepRequest => Sys2Proof.Machine.execSleepRequest s
  | .presetPf => Sys2Proof.Machine.execPresetPf s
  | .recoveryImageLoad => Sys2Proof.Machine.execRecoveryImageLoad s
  | .coldReset => Sys2Proof.Machine.execColdReset s
  | .firmwareFirstReport => Sys2Proof.Machine.execFirmwareFirstReport s
  | .debugToken => Sys2Proof.Machine.execDebugToken s
  | .getVersion => Sys2Proof.Machine.execGetVersion s
  | .getCapabilities => Sys2Proof.Machine.execGetCapabilities s
  | .negotiateAlgorithms => Sys2Proof.Machine.execNegotiateAlgorithms s
  | .getDigests => Sys2Proof.Machine.execGetDigests s
  | .getCertificate => Sys2Proof.Machine.execGetCertificate s
  | .challenge => Sys2Proof.Machine.execChallenge s
  | .getMeasurements => Sys2Proof.Machine.execGetMeasurements s
  | .keyExchange => Sys2Proof.Machine.execKeyExchange s
  | .finish => Sys2Proof.Machine.execFinish s
  | .endSession => Sys2Proof.Machine.execEndSession s
  | .vendorDefinedRequest => Sys2Proof.Machine.execVendorDefinedRequest s
  | .ideKm => Sys2Proof.Machine.execIdeKm s
  | .tdispLockInterface => Sys2Proof.Machine.execTdispLockInterface s
  | .tdispStartInterface => Sys2Proof.Machine.execTdispStartInterface s
  | .tdispStopInterface => Sys2Proof.Machine.execTdispStopInterface s
  | .tdispError => Sys2Proof.Machine.execTdispError s
  | .debugWindowAccess => Sys2Proof.Machine.execDebugWindowAccess s
  | .controlWindowWrite => Sys2Proof.Machine.execControlWindowWrite s
  | .ranktabWrite => Sys2Proof.Machine.execRanktabWrite s
  | .xlinvShootdown => Sys2Proof.Machine.execXlinvShootdown s
  | .shootdown => Sys2Proof.Machine.execShootdown s
  | .xlretry => Sys2Proof.Machine.execXlretry s
  | .translationFillRequest => Sys2Proof.Machine.execTranslationFillRequest s
  | .translationFillReply => Sys2Proof.Machine.execTranslationFillReply s
  | .endpointPacket => Sys2Proof.Machine.execEndpointPacket s
  | .endpointPacketDeliver => Sys2Proof.Machine.execEndpointPacketDeliver s
  | .euzinFlitReceive => Sys2Proof.Machine.execEuzinFlitReceive s
  | .flitTransmit => Sys2Proof.Machine.execFlitTransmit s
  | .flitRetryTimeout => Sys2Proof.Machine.execFlitRetryTimeout s
  | .longLinkTrained => Sys2Proof.Machine.execLongLinkTrained s
  | .collectiveContribution => Sys2Proof.Machine.execCollectiveContribution s
  | .ready => Sys2Proof.Machine.execReady s
  | .commit => Sys2Proof.Machine.execCommit s
  | .abort => Sys2Proof.Machine.execAbort s
  | .collectiveTimeLimit => Sys2Proof.Machine.execCollectiveTimeLimit s
  | .powerLimitEvaluation => Sys2Proof.Machine.execPowerLimitEvaluation s
  | .vcoreCurrentEvaluation => Sys2Proof.Machine.execVcoreCurrentEvaluation s
  | .thermalTrip => Sys2Proof.Machine.execThermalTrip s
  | .tripExit => Sys2Proof.Machine.execTripExit s
  | .idleRetainEntry => Sys2Proof.Machine.execIdleRetainEntry s
  | .wakeFromIdle => Sys2Proof.Machine.execWakeFromIdle s
  | .wakeFromSleep => Sys2Proof.Machine.execWakeFromSleep s
  | .powerOff => Sys2Proof.Machine.execPowerOff s
  | .draftingCommandStart => Sys2Proof.Machine.execDraftingCommandStart s
  | .partitionScrubDone => Sys2Proof.Machine.execPartitionScrubDone s

end Sys2Proof.Machine
end

