-- ==== Sys2Proof/Machine/Step.lean ====
section
/-! DEFINITION. One step of the package, and a word placed where the next step runs it. -/

namespace Sys2Proof.Machine

open Sys2Proof

/-- One step: the event that stands first in the inbox; else what the pulse at hand brings next. A package in the Off
state does nothing more (R133). -/
def step (s : State) : Host.Outcome State Fault Refusal :=
  match s.inbox with
  | (i, a) :: r => exec i { s with inbox := r, arg := a }
  | [] =>
    if s.dev.power = .off then .fault .powerIsOff
    else match s.pick with
      | .run i t => exec i t
      | .go t => .next t

/-- A state with an instruction's words where the next step fetches them; `w` is numbered as the opcode table has it. -/
def State.withFetchWord (s : State) (nbits w : Nat) : State :=
  if nbits = 0 then s else s.placeWord (w % 2 ^ 32) (w / 2 ^ 32 % 2 ^ 32)

end Sys2Proof.Machine
end

