-- ==== Sys2Proof/Safety.lean ====
section
/-! DEFINITION. What claims say of a run: steps in a row, a run that never stops, the invariants of a state, and exact rounding. -/

namespace Sys2Proof

open Sys2Proof.Machine

/-- `t` is reached from `s` in `n` steps. -/
def Reaches : Nat → State → State → Prop
  | 0, s, t => t = s
  | n + 1, s, t => ∃ u, step s = .next u ∧ Reaches n u t

/-- No step of a run from `s` is a fault or a refusal for `n` steps. -/
def SafeFor : Nat → State → Prop
  | 0, _ => True
  | n + 1, s => ∃ u, step s = .next u ∧ SafeFor n u

/-- The package has power: it is not in the Off state (R133). -/
def Powered (s : State) : Prop := s.dev.power ≠ .off

/-- The instruction completes: it answers a next state, of which `p` holds. -/
def Completes (i : Instr) (s : State) (p : State → Prop) : Prop := ∃ t, exec i s = .next t ∧ p t

/-! ### Numbers (R292, R298) -/

/-- The magnitude of an FP32 pattern without its sign, in units of the least subnormal, 2^-149 (R292). -/
def fp32Units (p : Nat) : Nat := if p < 2 ^ 23 then p else (2 ^ 23 + p % 2 ^ 23) * 2 ^ (p / 2 ^ 23 - 1)

/-- The value of a finite FP32 pattern in units of 2^-149 (R292). -/
def fp32Value (x : Nat) : Int := if x < 2 ^ 31 then (fp32Units x : Int) else -(fp32Units (x - 2 ^ 31) : Int)

/-- A finite FP32 pattern (R292). -/
def fp32Finite (x : Nat) : Prop := x < 2 ^ 32 ∧ x % 2 ^ 31 < 0x7F800000

/-- The magnitude to which an exact value of the sign `neg` is rounded by RM, where its magnitude, `u` units, is that of pattern
`p` or lies between those of `p` and of the pattern after it (R298; the pattern after the largest finite one is infinity's, R300). -/
def roundedTo (rm : Nat) (neg : Bool) (u : ℚ) (p : Nat) : Nat :=
  let lo : ℚ := fp32Units p
  let hi : ℚ := fp32Units (p + 1)
  if u = lo then p
  else if rm = 1 ∨ (rm = 2 ∧ neg = false) ∨ (rm = 3 ∧ neg = true) then p
  else if rm = 2 ∨ rm = 3 then p + 1
  else if u - lo < hi - u then p else if hi - u < u - lo then p + 1 else p + p % 2

/-- `r` is the FP32 result of an operation whose exact value, in units, is `v`, not 0: `v` rounded once by RM (R298, R300, R301). -/
def RoundedOnce (rm : Nat) (v : ℚ) (r : Nat) : Prop :=
  ∀ p, p < 0x7F800000 → (fp32Units p : ℚ) ≤ |v| → |v| < fp32Units (p + 1) →
    r = (if v < 0 then 2 ^ 31 else 0) + roundedTo rm (decide (v < 0)) |v| p

/-! ### What a word of a unit leaves behind -/

/-- The effect of the unit at hand that comes about at its issue + `l` (R7), with the DETAIL that a record of it gives (R291). -/
def dueOf (s : State) (l : Nat) (a : Act) : Due :=
  ⟨s.cur.die, (s.die s.cur.die).cad + l, s.curHub.lpos, s.cur.hub, s.cur.eng, s.seq, a, none, s.wordDetail⟩

/-- The place of the hub at hand in the family of hubs. -/
def hubKey (s : State) : Nat := 8 * s.cur.die + s.cur.hub

/-- The state after a control-core word with one effect at issue + `l`, whose successor issues at issue + `d`: nothing else
differs from `s`. -/
def afterCore (s : State) (l : Nat) (a : Act) (d : Nat) : State :=
  { s with
    agenda := dueOf s l a :: s.agenda, seq := s.seq + 1
    hubs := SMap.put s.hubs (hubKey s) (s.curHub.advance (s.die s.cur.die).cad d) }

/-- The state after a control-core word without effects. -/
def afterPlain (s : State) (d : Nat) : State :=
  { s with hubs := SMap.put s.hubs (hubKey s) (s.curHub.advance (s.die s.cur.die).cad d) }

/-- The state after a word whose successor stands at `pc` and issues at issue + `d`. -/
def afterJump (s : State) (pc d : Nat) : State :=
  { s with hubs := SMap.put s.hubs (hubKey s) { s.curHub with pc := pc, next := (s.die s.cur.die).cad + d, wait := .none } }

/-- The state after a word that enters a hardware wait (R270). -/
def afterWait (s : State) (w : Wait) : State :=
  { s with hubs := SMap.put s.hubs (hubKey s) { s.curHub with wait := w, next := (s.die s.cur.die).cad + 1 } }

/-- The hub after its engine's word of `w` stored words that holds `c` issue slots has issued (R166, R174, R330): the stream stands
behind the word, ends its segment where no word is left, and its next slot comes `c` slots later; a TAN before a vector word
is used up. -/
def afterIssue (s : State) (w c : Nat) : Hub :=
  let e := s.curHub.stream s.cur.eng
  let n := (s.die s.cur.die).cad
  let len := (s.curHub.segment (sectionOf s.cur.eng) (e.seg.getD 0)).2
  { s.curHub.setStream s.cur.eng
      { e with
        pos := e.pos + w, next := n + c * s.period, free := n + (c - 1) * s.period + 1
        seg := if len ≤ e.pos + w then none else e.seg } with
    tan := if s.cur.eng = 1 then none else s.curHub.tan }

/-- The halt that the die at hand holds after a fault or a trap of this scy: CADENCE at the mark F + 256, or an earlier one that it held
(R245, R246, R263). -/
def haltOf (s : State) : Nat :=
  let h := (((s.mark + 256 : Nat) : Int) + (if (s.pl (s.die s.cur.die).plid).slot.isSome then (s.die s.cur.die).lshift else 0)).toNat
  match (s.die s.cur.die).haltAt with
  | none => h
  | some x => min x h

/-- The state after an engine's word with one effect at issue + `l` that holds `w` stored words and `c` slots. -/
def afterWords (s : State) (l : Nat) (a : Act) (w c : Nat) : State :=
  { s with
    agenda := dueOf s l a :: s.agenda, seq := s.seq + 1
    hubs := SMap.put s.hubs (hubKey s) (afterIssue s w c) }

/-- The same for one stored word and one slot. -/
def afterWord (s : State) (l : Nat) (a : Act) : State := afterWords s l a 1 1

/-- The state after an engine's word without effects that holds one stored word and `c` slots. -/
def afterSlots (s : State) (c : Nat) : State := { s with hubs := SMap.put s.hubs (hubKey s) (afterIssue s 1 c) }

/-- Every byte of memory, its poison, its key epoch and its uncorrectable errors are as before. -/
def SameMemory (s t : State) : Prop := t.mem = s.mem ∧ t.lines = s.lines ∧ t.epochs = s.epochs ∧ t.ecc = s.ecc

/-- Every byte outside the save area of the launch `r` of slot `n` is as before, and so is the poison of SRAM (R154, R264). -/
def SameOutside (s t : State) (n : Nat) (r : Run) : Prop :=
  let q := (s.slot n).qcb
  let area := flat (homeHbm ((s.phys q.part (5 + bits q.savep 38 36)).getD 0)) (q.savep % 2 ^ 36)
  t.lines = s.lines ∧ ∀ a, (a < area ∨ area + r.hubs.length * 2 ^ 22 ≤ a) → Memory.read t.mem a = Memory.read s.mem a

/-- Every register that a program of a hub can read is as before: s, p and lc registers, handles, k.tstride, vector
registers with their poison, masks, the shape register, timelines, reply entries, the item and its identity. -/
def SameRegisters (g h : Hub) : Prop :=
  h.s = g.s ∧ h.p = g.p ∧ h.handles = g.handles ∧ h.tstride = g.tstride ∧ h.vbytes = g.vbytes ∧ h.vpois = g.vpois ∧
  h.masks = g.masks ∧ h.shape = g.shape ∧ h.timelines = g.timelines ∧ h.replies = g.replies ∧ h.item = g.item

/-- Nothing but one hub, the agenda, timers, packets and counters differs: memory, every other hub, the dies, arrays, slots, partitions,
pacelines, X-dies and the registers of the package are as before. -/
def OnlyHub (s t : State) (die hub : Nat) : Prop :=
  SameMemory s t ∧ t.parts = s.parts ∧ t.slots = s.slots ∧ t.dies = s.dies ∧ t.arrays = s.arrays ∧ t.xdies = s.xdies ∧
  t.pls = s.pls ∧ t.dev = s.dev ∧ ∀ x h, h < 8 → hub < 8 → (x ≠ die ∨ h ≠ hub) → t.hub x h = s.hub x h

/-- The memory is in its canonical form. -/
def MemoryForm (s : State) : Prop := Memory.wf s.mem = true

end Sys2Proof
end

