-- ==== Sys2Proof/Certificates/Slice0/Obligations.lean ====
section
/-! DEFINITION. The statements for the provers: encodings, memory and landings, the words of every unit, the device events,
and the frames and invariants of a step. -/

open Sys2Proof Sys2Proof.Machine

/-! ### Encodings, steps, reset, memory -/

/-- Words of the examples of chapters 14 to 17, written out from the maps of R322 to R331, decode to the instructions that they
stand for. -/
def Obligations.WordsOfTheManualDecode : Prop :=
  decode .control 0x04518700 none = .ok (.add 5 6 7) ∧
  decode .control 0x4051871A none = .ok (.sfdiv 5 6 7 1) ∧
  decode .control 0x51457FF8 none = .ok (.stx 20 21 3 (-8)) ∧
  decode .control 0xA8B400C0 none = .ok (.bar 1 3) ∧
  decode .vector 0x08952C07 none = .ok (.vdiv 9 10 11 1 3) ∧
  decode .vector 0xFC280000 none = .ok (.tan 0 1 0 1) ∧
  decode .matrix 0x117F0004 (some 0x400) = .ok (.mrun 1 127 4 0x400) ∧
  decode .transfer 0x1C000040 none = .ok (.xfsend 0x40) ∧
  decode .index 0x10000010 none = .ok (.ixscadd 0x10) ∧
  decode .drafting 0x0400B008 (some 0x40) = .ok (.dkeys 5 2 1 0x40) ∧
  decode .slotB 0x40000000 none = .ok (.fmov 0 0) ∧ decode .slotB 0x08000000 none = .error .unassigned

/-- Decode and encode agree: every well-formed instruction that has words is what its words decode to, in its stream. -/
def Obligations.EncodedInstructionDecodesToItself : Prop :=
  ∀ (i : Instr) (st : Stream), i.wf = true → streamOf i = some st →
    decode st ((encode i).headD 0) ((encode i)[1]?) = .ok i

/-- No bit of a word is dropped (R332): a word of 32 bits, with the word after it where one is given, that decodes to an
instruction is that instruction's encoding, and the instruction is well formed; FNOP alone stands in every slot of a bundle. -/
def Obligations.DecodedWordIsItsEncoding : Prop :=
  ∀ (st : Stream) (w x : Nat) (i : Instr), w < 2 ^ 32 → x < 2 ^ 32 → decode st w (some x) = .ok i →
    i.wf = true ∧ (streamOf i = some st ∨ i = .fnop) ∧ (encode i = [w] ∨ encode i = [w, x])

/-- A step runs the word at the PC: when nothing has arrived, nothing is due, no segment starts and no wait ends, the first unit
in issue order is a control core, its PC lies within section 0 and the word there decodes, the step is `exec` of that
instruction at the state whose current unit is that core. A device event that stands first in the inbox is run first of all,
with what arrived with it. The same for the engines: the word that stands next in the segment of the first unit in issue order,
with the word after it in the segment, is decoded by the map of its engine (R320, R330), and the step is `exec` of it. -/
def Obligations.StepRunsTheDecodedInstruction : Prop :=
  ((∀ (s : State) (f : Focus) (w : Nat) (i : Instr),
     s.inbox = [] → s.dev.power ≠ .off → (∀ d ∈ s.agenda, (s.die d.die).cad < d.at_) → s.ended = false →
     s.dueSegment = none → s.hubs.findSome? s.endWait = none → s.firstUnit = some f → f.eng = 0 →
     (SMap.get [] (s.hub f.die f.hub).code 0)[(s.hub f.die f.hub).pc / 4]? = some w → decode .control w none = .ok i →
     step s = exec i { s with cur := f }) ∧
   (∀ (s : State) (i : Instr) (a : Arg) (r : List (Instr × Arg)), s.inbox = (i, a) :: r →
     step s = exec i { s with inbox := r, arg := a })) ∧
  (∀ (s : State) (f : Focus) (w : Nat) (x : Option Nat) (i : Instr),
     s.inbox = [] → s.dev.power ≠ .off → (∀ d ∈ s.agenda, (s.die d.die).cad < d.at_) → s.ended = false →
     s.dueSegment = none → s.hubs.findSome? s.endWait = none → s.firstUnit = some f → f.eng ≠ 0 → f.eng ≠ 6 →
     (s.hub f.die f.hub).engWord f.eng = some (w, x) →
     decode (if f.eng = 1 then .vector else if f.eng = 2 then .matrix else if f.eng = 5 then .index else .transfer) w x = .ok i →
     step s = exec i { s with cur := f })

/-- What reset leaves: no partition holds a map, a queue or a fault ring, no register of a hub, no line of memory and no
paceline holds a value, MIX reads as the fuses of R17 give it, SCHEDCFG reads GRACE 1,000 and AGESTEP 100 (R138), the set
registers LOG2N and EPCFG read 6 and 0x4000_0000 (R77, R115), and the boot ROM's run is what comes first (R122; that it stands
as an event in the inbox is the model's, log 6). -/
def Obligations.ResetLeaves : Prop :=
  (∀ p, State.reset.part p = {}) ∧ (∀ n, State.reset.slot n = {}) ∧ (∀ n, State.reset.pl n = {}) ∧
  (∀ p h, State.reset.hub p h = {}) ∧ (∀ a, Memory.read State.reset.mem a = 0) ∧
  (∀ p, p < 48 → SMap.get 0 State.reset.dev.mix p = Config.mixByte p) ∧
  State.reset.dev.grace = 1000 ∧ State.reset.dev.agestep = 100 ∧ ({} : Part).frLog = 6 ∧
  ({} : Hub).epcfg = 0x40000000 ∧ State.reset.inbox.map (·.1) = [.coldReset]

/-- The memory of the reset state has the canonical form. -/
def Obligations.ResetHasMemoryForm : Prop := MemoryForm State.reset

/-- The canonical form of memory is an invariant of the machine: addresses rise and no entry equals what an unlisted byte reads
as, after every step from a state whose memory has the form. -/
def Obligations.StepKeepsMemoryForm : Prop :=
  ∀ s t : State, MemoryForm s → step s = .next t → MemoryForm t

/-- A write of bytes to memory (R128, R220): every byte of it reads back, every other byte reads as before, in HBM too, where a line
of another key that is written in part is decrypted and written back whole; an uncorrectable error leaves a line that is written
whole (R195); the canonical form is kept. The poison of the lines of SRAM that a write touches (R254,
R256): a poisoned write poisons each of them, a clean one clears those that it covers whole and leaves the others, and no other
line changes. -/
def Obligations.WriteReadsBack : Prop :=
  (∀ (s : State) (a : Nat) (bs : List Byte) (p : Bool), homeOf a = homeOf (a + bs.length) →
     (∀ k b, bs[k]? = some b → (s.writeBytes a bs p).byteAt (a + k) = b) ∧
     (∀ x, (x < a ∨ a + bs.length ≤ x) → (s.writeBytes a bs p).byteAt x = s.byteAt x) ∧
     (∀ l, SMap.get false (s.writeBytes a bs p).ecc l =
       if 0 < bs.length ∧ a ≤ 64 * l ∧ 64 * l + 64 ≤ a + bs.length then false else SMap.get false s.ecc l) ∧
     (MemoryForm s → MemoryForm (s.writeBytes a bs p))) ∧
  (∀ (s : State) (a : Nat) (bs : List Byte) (p : Bool) (l : Nat), isSram (homeOf a) = true → 0 < bs.length →
     SMap.get false (s.writeBytes a bs p).lines l =
       if a / 64 ≤ l ∧ l ≤ (a + bs.length - 1) / 64 then
         (if p then true else if a ≤ 64 * l ∧ 64 * l + 64 ≤ a + bs.length then false else SMap.get false s.lines l)
       else SMap.get false s.lines l)

/-- A register write lands (R7, R253, R269), that of a load (R349) too: after it the register reads the value, or zeros with
poison; a write of s0 or p0 is discarded, s0 reads 0 and p0 true; every other register of the hub, every other hub and all of
memory are as before. A vector write lands (R253, R388): the bytes written read back, zeros where the element is poisoned; their
poison is set, cleared or kept as the write says; every other byte of every register and shadow, the masks and all else of the hub
are as before. Mask bits that land read back, and m0 stays all ones. -/
def Obligations.RegisterWritesLand : Prop :=
  (∀ (s : State) (die at_ lpos hub eng q r dt : Nat) (v : W64) (b p : Bool), hub < 8 →
     (∀ w ∈ [Act.regS r v p, .load r v p],
      let t := s.land ⟨die, at_, lpos, hub, eng, q, w, none, dt⟩
      (t.hub die hub).readS r = (if r = 0 then {} else ⟨if p then 0 else v, p⟩) ∧
      (∀ r', r' ≠ r → (t.hub die hub).readS r' = (s.hub die hub).readS r') ∧ (t.hub die hub).p = (s.hub die hub).p ∧
      (∀ d h, 8 * d + h ≠ 8 * die + hub → t.hub d h = s.hub d h) ∧ SameMemory s t ∧ t.agenda = s.agenda) ∧
     (let t := s.land ⟨die, at_, lpos, hub, eng, q, .regP r b p, none, dt⟩
      (t.hub die hub).readP r = (if r = 0 then (true, false) else (b && !p, p)) ∧
      (∀ r', r' ≠ r → (t.hub die hub).readP r' = (s.hub die hub).readP r') ∧ (t.hub die hub).s = (s.hub die hub).s ∧
      (∀ d h, 8 * d + h ≠ 8 * die + hub → t.hub d h = s.hub d h) ∧ SameMemory s t ∧ t.agenda = s.agenda)) ∧
  (∀ (h : Hub) (x : VWrite), x.mask = 255 →
     let t := h.vwrite x
     let k := vkey x.tan x.reg x.off
     let q := vkey 0 x.reg x.off
     (∀ n b, x.bytes[n]? = some b → SMap.get 0 t.vbytes (k + n) = if x.pois = some true then 0 else b) ∧
     (∀ n, (n < k ∨ k + x.bytes.length ≤ n) → SMap.get 0 t.vbytes n = SMap.get 0 h.vbytes n) ∧
     (∀ n, SMap.get false t.vpois n = if q ≤ n ∧ n < q + x.bytes.length then x.pois.getD (SMap.get false h.vpois n) else SMap.get false h.vpois n) ∧
     t.s = h.s ∧ t.p = h.p ∧ t.masks = h.masks ∧ t.shape = h.shape ∧ t.timelines = h.timelines ∧ t.replies = h.replies ∧
     (∀ m i b, i < 4096 → (h.maskWrite m [(i, b)]).maskBit m i = (decide (m = 0) || b)) ∧
     (∀ m i b m' j, i < 4096 → j < 4096 → (m' ≠ m ∨ j ≠ i) → (h.maskWrite m [(i, b)]).maskBit m' j = h.maskBit m' j))

/-! ### The control core -/

/-- The frame of a control-core word of the shapes that the statements below use: whatever its effect and its successor, the
word changes no byte of memory, no register of any hub and no special register; it moves the PC, the loops and the wait of its
own hub and lists its effect. The frame of an engine's word with one effect: memory, the registers of every hub and every
special register are as before; the word moves its own stream and lists its effect. -/
def Obligations.WordFrames : Prop :=
  (∀ (s : State) (l d pc : Nat) (a : Act) (w : Wait) (t : State),
     (t = afterCore s l a d ∨ t = afterPlain s d ∨ t = afterJump s pc d ∨ t = afterWait s w) →
     SameMemory s t ∧ (∀ x h, h < 8 → SameRegisters (s.hub x h) (t.hub x h)) ∧ t.parts = s.parts ∧ t.slots = s.slots ∧
     t.dies = s.dies ∧ t.arrays = s.arrays ∧ t.xdies = s.xdies ∧ t.pls = s.pls ∧ t.dev = s.dev ∧ t.inbox = s.inbox ∧
     (∀ x h, h < 8 → 8 * x + h ≠ hubKey s → t.hub x h = s.hub x h)) ∧
  (∀ (s : State) (l c : Nat) (a : Act) (t : State), (t = afterWord s l a ∨ t = afterSlots s c) →
     SameMemory s t ∧ (∀ x h, h < 8 → SameRegisters (s.hub x h) (t.hub x h) ∧ (t.hub x h).pc = (s.hub x h).pc ∧
       (t.hub x h).run = (s.hub x h).run ∧ (t.hub x h).wait = (s.hub x h).wait) ∧
     t.parts = s.parts ∧ t.slots = s.slots ∧ t.dies = s.dies ∧ t.arrays = s.arrays ∧ t.xdies = s.xdies ∧ t.pls = s.pls ∧ t.dev = s.dev ∧
     (∀ x h, h < 8 → 8 * x + h ≠ hubKey s → t.hub x h = s.hub x h) ∧
     (∀ e, e ≠ s.cur.eng → s.cur.hub < 8 → t.curHub.stream e = s.curHub.stream e))

/-- The register forms (R297, R343): s(d) takes the result at issue + 1, multiplications at issue + 3, divisions at issue + 36;
a result is poisoned when a source is (R254); the next word issues at issue + 1 and nothing else changes. The compares (R343)
write p(d) at issue + 1: equality, signed and natural order; poisoned when a source is. -/
def Obligations.IntegerRegisterForms : Prop :=
  (∀ (s : State) (d a b : R6),
     let x := (s.readS a).v
     let y := (s.readS b).v
     let out := fun (i : Instr) (l : Nat) (v : W64) =>
       exec i s = .next (afterCore s l (.regS d.toNat v ((s.readS a).p || (s.readS b).p)) 1)
     let nat := fun (n : Nat) => BitVec.ofNat 64 n
     let int := fun (n : Int) => BitVec.ofInt 64 n
     out (.add d a b) 1 (nat (x.toNat + y.toNat)) ∧ out (.sub d a b) 1 (int (x.toNat - y.toNat)) ∧
     out (.and d a b) 1 (x &&& y) ∧ out (.or d a b) 1 (x ||| y) ∧ out (.xor d a b) 1 (x ^^^ y) ∧
     out (.shl d a b) 1 (nat (x.toNat * 2 ^ (y.toNat % 64))) ∧ out (.shr d a b) 1 (nat (x.toNat / 2 ^ (y.toNat % 64))) ∧
     out (.shra d a b) 1 (int (x.toInt / 2 ^ (y.toNat % 64))) ∧
     out (.rol d a b) 1 (x.rotateLeft (y.toNat % 64)) ∧ out (.ror d a b) 1 (x.rotateRight (y.toNat % 64)) ∧
     out (.min d a b) 1 (int (min x.toInt y.toInt)) ∧ out (.max d a b) 1 (int (max x.toInt y.toInt)) ∧
     out (.minu d a b) 1 (nat (min x.toNat y.toNat)) ∧ out (.maxu d a b) 1 (nat (max x.toNat y.toNat)) ∧
     out (.slt d a b) 1 (if x.toInt < y.toInt then 1 else 0) ∧ out (.sltu d a b) 1 (if x.toNat < y.toNat then 1 else 0) ∧
     out (.mul d a b) 3 (nat (x.toNat * y.toNat)) ∧ out (.mulh d a b) 3 (int (x.toInt * y.toInt / 2 ^ 64)) ∧
     out (.mulhu d a b) 3 (nat (x.toNat * y.toNat / 2 ^ 64)) ∧
     out (.div d a b) 36 (if y = 0 then int (-1) else int (x.toInt.tdiv y.toInt)) ∧
     out (.divu d a b) 36 (if y = 0 then int (-1) else nat (x.toNat / y.toNat)) ∧
     out (.rem d a b) 36 (if y = 0 then x else int (x.toInt.tmod y.toInt)) ∧
     out (.remu d a b) 36 (if y = 0 then x else nat (x.toNat % y.toNat))) ∧
  (∀ (s : State) (d : BitVec 3) (a b : R6),
     let x := (s.readS a).v
     let y := (s.readS b).v
     let out := fun (i : Instr) (v : Bool) =>
       exec i s = .next (afterCore s 1 (.regP d.toNat v ((s.readS a).p || (s.readS b).p)) 1)
     out (.cmpeq d a b) (decide (x = y)) ∧ out (.cmplt d a b) (decide (x.toInt < y.toInt)) ∧
     out (.cmpltu d a b) (decide (x.toNat < y.toNat)))

/-- The immediate forms and the pointer instructions (R344 to R346): s(d) takes the result of s(a) and the immediate, sign
extended for ADDI, SLTI, SLTUI and MULI and zero extended for the logical ones; LIL clears the poison of s(d) and LIH keeps it.
-/
def Obligations.ImmediateForms : Prop :=
  ∀ (s : State) (d a b : R6) (i : BitVec 14) (n : BitVec 6) (k : BitVec 20),
    let x := (s.readS a).v
    let out := fun (j : Instr) (l : Nat) (v : W64) (p : Bool) => exec j s = .next (afterCore s l (.regS d.toNat v p) 1)
    let p := (s.readS a).p
    let nat := fun (n : Nat) => BitVec.ofNat 64 n
    let int := fun (n : Int) => BitVec.ofInt 64 n
    out (.addi d a i) 1 (int (x.toInt + i.toInt)) p ∧ out (.andi d a i) 1 (nat (x.toNat &&& i.toNat)) p ∧
    out (.ori d a i) 1 (nat (x.toNat ||| i.toNat)) p ∧ out (.xori d a i) 1 (nat (x.toNat ^^^ i.toNat)) p ∧
    out (.shli d a n) 1 (nat (x.toNat * 2 ^ n.toNat)) p ∧ out (.shri d a n) 1 (nat (x.toNat / 2 ^ n.toNat)) p ∧
    out (.shrai d a n) 1 (int (x.toInt / 2 ^ n.toNat)) p ∧ out (.slti d a i) 1 (if x.toInt < i.toInt then 1 else 0) p ∧
    out (.sltui d a i) 1 (if x.toNat < (int i.toInt).toNat then 1 else 0) p ∧ out (.muli d a i) 3 (int (x.toInt * i.toInt)) p ∧
    out (.lil d k) 1 (int k.toInt) false ∧
    out (.lih d k) 1 (nat ((s.readS d).v.toNat * 2 ^ 20 + k.toNat)) (s.readS d).p ∧
    out (.lea d a i) 1 (nat (x.toNat / 2 ^ 48 * 2 ^ 48 + (int (x.toInt + i.toInt)).toNat % 2 ^ 48)) p ∧
    out (.ptag d a b) 1 (nat (x.toNat % 2 ^ 16 * 2 ^ 48 + (s.readS b).v.toNat % 2 ^ 48)) (p || (s.readS b).p) ∧
    out (.pspace d a) 1 (nat (x.toNat / 2 ^ 48)) p

/-- Scalar FP (R347): FP32 on bits [31:0] of the sources with bits [63:32] of the result 0, at issue + 4; the compares write
p(d) at issue + 4; poisoned when a source is. What the operations give: an exact sum, difference, product or quotient that is not
0 is rounded once by RM (R298, R300 to R302); finite operands compare as their values do (R301); a NaN operand gives the canonical
NaN and false compares (R293, R301); MIN and MAX bring the first operand where the two are equal; SFCVTS brings the integer part
under RM = 1, and 0 for NaN (R299). Square roots are given by their special inputs (R302). -/
def Obligations.ScalarFloatForms : Prop :=
  (∀ (s : State) (d a b : R6) (e : BitVec 3) (r : BitVec 2),
    let x := (s.readS a).v.toNat % 2 ^ 32
    let y := (s.readS b).v.toNat % 2 ^ 32
    let p := (s.readS a).p || (s.readS b).p
    let out := fun (j : Instr) (v : Nat) (p : Bool) =>
      v < 2 ^ 32 ∧ exec j s = .next (afterCore s 4 (.regS d.toNat (BitVec.ofNat 64 v) p) 1)
    let cmp := fun (j : Instr) (v : Bool) => exec j s = .next (afterCore s 4 (.regP e.toNat v p) 1)
    out (.sfadd d a b r) (fp32.add r.toNat x y) p ∧ out (.sfsub d a b r) (fp32.sub r.toNat x y) p ∧
    out (.sfmul d a b r) (fp32.mul r.toNat x y) p ∧ out (.sfdiv d a b r) (fp32.div r.toNat x y) p ∧
    out (.sfsqrt d a r) (fp32.sqrt r.toNat x) (s.readS a).p ∧ out (.sfmin d a b) (fp32.minmax false x y) p ∧
    out (.sfmax d a b) (fp32.minmax true x y) p ∧ cmp (.sfeq e a b) (fp32.eq x y) ∧ cmp (.sflt e a b) (fp32.lt x y) ∧
    cmp (.sfle e a b) (fp32.le x y) ∧
    exec (.sfcvts d a r) s = .next (afterCore s 4
      (.regS d.toNat (BitVec.ofNat 64 (ITy.ofReal ⟨64, true⟩ r.toNat (fp32.decode x))) (s.readS a).p) 1) ∧
    out (.sfcvtf d a r) (fp32.round .sat r.toNat (ofInt (s.readS a).v.toInt 0 false)) (s.readS a).p) ∧
  (∀ (rm x y : Nat), rm < 4 → fp32Finite x → fp32Finite y →
    let u : ℚ := fp32Value x
    let v : ℚ := fp32Value y
    (u + v ≠ 0 → RoundedOnce rm (u + v) (fp32.add rm x y)) ∧ (u - v ≠ 0 → RoundedOnce rm (u - v) (fp32.sub rm x y)) ∧
    (u * v ≠ 0 → RoundedOnce rm (u * v / 2 ^ 149) (fp32.mul rm x y)) ∧
    (u ≠ 0 → v ≠ 0 → RoundedOnce rm (u / v * 2 ^ 149) (fp32.div rm x y)) ∧
    fp32.eq x y = decide (u = v) ∧ fp32.lt x y = decide (u < v) ∧ fp32.le x y = decide (u ≤ v) ∧
    fp32.minmax false x y = (if v < u then y else x) ∧ fp32.minmax true x y = (if u < v then y else x) ∧
    (|u| < 2 ^ 212 → ITy.ofReal ⟨64, true⟩ 1 (fp32.decode x) = wrapInt ((fp32Value x).tdiv (2 ^ 149)) 64)) ∧
  (∀ (rm x y : Nat), 0x7F800000 < x % 2 ^ 31 ∨ 0x7F800000 < y % 2 ^ 31 →
    fp32.add rm x y = 0x7FC00000 ∧ fp32.sub rm x y = 0x7FC00000 ∧ fp32.mul rm x y = 0x7FC00000 ∧ fp32.div rm x y = 0x7FC00000 ∧
    fp32.minmax false x y = 0x7FC00000 ∧ fp32.minmax true x y = 0x7FC00000 ∧
    fp32.eq x y = false ∧ fp32.lt x y = false ∧ fp32.le x y = false ∧
    (0x7F800000 < x % 2 ^ 31 → fp32.sqrt rm x = 0x7FC00000 ∧ ITy.ofReal ⟨64, true⟩ rm (fp32.decode x) = 0)) ∧
  (∀ (rm x : Nat), (2 ^ 31 < x ∧ x ≤ 0xFF800000 → fp32.sqrt rm x = 0x7FC00000) ∧ fp32.sqrt rm (2 ^ 31) = 2 ^ 31 ∧
    fp32.sqrt rm 0 = 0 ∧ fp32.sqrt rm 0x7F800000 = 0x7F800000)

/-- SEL writes s(d) := s(a) if p(c) is true, and s(b) otherwise, at n + 1; it reads p(c) and the selected operand only, and the
result is poisoned if either of those is. -/
def Obligations.SelectReadsTheSelectedOperand : Prop :=
  ∀ (s : State) (d a b : R6) (c : BitVec 3),
    let k := s.curHub.readP c.toNat
    exec (.sel d a b c) s = .next (afterCore s 1
      (.regS d.toNat (if k.1 then (s.readS a).v else (s.readS b).v) (k.2 || (if k.1 then (s.readS a).p else (s.readS b).p))) 1) ∧
    (encode (.sel d a b c)).headD 0 / 2 ^ 26 = 0x1C

/-- Branches, checks, jumps, calls and returns (R353 to R355): where the condition holds the next word is the one at PC + 4 ×
sext(off14), and otherwise the one after the branch; it issues at n + 1 when the hint is right and at n + 4 when it is wrong.
CALL writes s63 at n + 1. A poisoned condition, or a poisoned s63 of RET, is not read as a value. -/
def Obligations.BranchesJumpsAndCalls : Prop :=
  ∀ (s : State) (c : BitVec 4) (h : BitVec 2) (a : R6) (b : BitVec 3) (o : BitVec 14) (f : BitVec 26),
    let pc := s.curHub.pc
    let tgt := fun (n : Int) => (((pc : Int) + 4 * n) % 2 ^ 32).toNat
    let go := fun (taken : Bool) =>
      if taken then afterJump s (tgt o.toInt) (if h.toNat = 1 then 1 else 4) else afterPlain s (if h.toNat = 1 then 4 else 1)
    let x := s.readS a
    let q := s.curHub.readP (a.toNat % 8)
    (x.p = false →
      (c.toNat = 0 → exec (.br c h a o) s = .next (go (decide (x.v.toInt = 0)))) ∧
      (c.toNat = 1 → exec (.br c h a o) s = .next (go (decide (x.v.toInt ≠ 0)))) ∧
      (c.toNat = 2 → exec (.br c h a o) s = .next (go (decide (x.v.toInt < 0)))) ∧
      (c.toNat = 3 → exec (.br c h a o) s = .next (go (decide (0 ≤ x.v.toInt)))) ∧
      (c.toNat = 4 → exec (.br c h a o) s = .next (go (decide (0 < x.v.toInt)))) ∧
      (c.toNat = 5 → exec (.br c h a o) s = .next (go (decide (x.v.toInt ≤ 0))))) ∧
    (q.2 = false →
      (c.toNat = 6 → exec (.br c h a o) s = .next (go q.1)) ∧ (c.toNat = 7 → exec (.br c h a o) s = .next (go (!q.1)))) ∧
    exec (.checkS h a o) s = .next (go x.p) ∧ exec (.checkP h b o) s = .next (go (s.curHub.readP b.toNat).2) ∧
    exec (.jmp f) s = .next (afterJump s (tgt f.toInt) 1) ∧
    exec (.call f) s = .next { afterJump s (tgt f.toInt) 1 with
        agenda := dueOf s 1 (.regS 63 (BitVec.ofNat 64 (pc + 4)) false) :: s.agenda, seq := s.seq + 1 } ∧
    ((s.readS 63).p = false → exec .ret s = .next (afterJump s ((s.readS 63).v.toNat % 2 ^ 32 / 4 * 4) 1))

/-- LOOP (R357): a clean count that is not 0 starts a loop from the next word to E = PC + 4 × off14 on lc(j), in the place of a
loop on the same counter; a count of 0 skips the body; the other loops stay. The test after a word that is no taken branch (a NOP
stands for them: `afterCore` and `afterPlain` advance as it does) takes the loops that end on the word, latest started first: without
one the next word is at PC + 4; a counter that does not reach 0 sends the core to the start of its body, and no further loop is
tested; one that reaches 0 ends its loop, and the test goes on with the loops that are left, in the same scy. A LOOP is such a word
too. A taken jump as the last word decrements nothing. -/
def Obligations.LoopStartsOrSkips : Prop :=
  (∀ (s : State) (j : BitVec 2) (a : R6) (o : BitVec 14), (s.readS a).p = false →
     let h := s.curHub
     let n := (s.readS a).v.toNat % 2 ^ 32
     let now := (s.die s.cur.die).cad
     let started : List LoopRec := if n = 0 then [] else [⟨j.toNat, h.pc + 4, h.pc + 4 * o.toNat⟩]
     let others := h.loops.filter fun l => decide (l.lc ≠ j.toNat)
     let lc := if n = 0 then h.lc else SMap.put h.lc j.toNat ⟨BitVec.ofNat 64 n, false⟩
     ((∀ l ∈ others, l.last ≠ h.pc) →
       exec (.loop j a o) s = .next { s with
         hubs := SMap.put s.hubs (hubKey s)
           { h with
             loops := started ++ others, lc := lc, next := now + 1
             pc := if n = 0 then h.pc + 4 * o.toNat + 4 else h.pc + 4 } }) ∧
     (∀ pre l post, others = pre ++ l :: post → (∀ x ∈ pre, x.last ≠ h.pc) → l.last = h.pc →
       let c := ((SMap.get {} lc l.lc).v.toNat + 2 ^ 32 - 1) % 2 ^ 32
       c ≠ 0 → exec (.loop j a o) s = .next { s with
         hubs := SMap.put s.hubs (hubKey s)
           { h with
             loops := started ++ others, lc := SMap.put lc l.lc ⟨BitVec.ofNat 64 c, (SMap.get {} lc l.lc).p⟩, next := now + 1
             pc := l.start } })) ∧
  (∀ s : State,
     let h := s.curHub
     let now := (s.die s.cur.die).cad
     exec .nop s = .next { s with hubs := SMap.put s.hubs (hubKey s) (h.advance now 1) } ∧
     (∀ f : BitVec 26, ∃ t, exec (.jmp f) s = .next t ∧ t.curHub.loops = h.loops ∧ t.curHub.lc = h.lc) ∧
     ((∀ l ∈ h.loops, l.last ≠ h.pc) → h.advance now 1 = { h with pc := h.pc + 4, next := now + 1, wait := .none }) ∧
     (∀ pre l post, h.loops = pre ++ l :: post → (∀ x ∈ pre, x.last ≠ h.pc) → l.last = h.pc →
       let k := SMap.get {} h.lc l.lc
       let c := (k.v.toNat + 2 ^ 32 - 1) % 2 ^ 32
       let counted := SMap.put h.lc l.lc ⟨BitVec.ofNat 64 c, k.p⟩
       (c ≠ 0 → h.advance now 1 = { h with lc := counted, pc := l.start, next := now + 1, wait := .none }) ∧
       (c = 0 → h.advance now 1 = ({ h with loops := pre ++ post, lc := counted } : Hub).advance now 1)))

/-- LD and ST (R348): LD samples its bytes at n + 2 for a register write at n + 4; ST performs the low bytes of s(d) at n + 3,
with the poison of s(d). The operands are clean pointers whose access translates and lies in the declared sets, and no store
mark holds LD back (R228). A local pointer (R192 to R197): in space 0x0 with its owner fields 0, an access that ends within the
scratchpad goes to that offset of the hub's own memory, on the hub's die; in a timed launch the die is a member of the launch's
paceline. What a load's sample and a store's write do when they come about (R220, R348): the sample lists the register write of
the bytes' little-endian value, poisoned where a line is, at its cycle and in the issue order of its load (R272), and changes no
memory; the write changes the bytes at its address alone. -/
def Obligations.LocalLoadsAndStores : Prop :=
  (∀ (s : State) (d a : R6) (z : BitVec 2) (i : BitVec 12) (p : Nat) (t : Target),
     (s.readS a).p = false → eaOf (s.readS a).v.toNat i.toInt = some p →
     s.translate s.cur.die s.cur.hub .ldst p (2 ^ z.toNat) 1 = .ok t →
     (s.curHub.mark = none → s.violation s.cur.die s.cur.hub 0 .read t.addr (2 ^ z.toNat) = none →
       exec (.ld d a z i) s = .next (afterCore s 2
         (.sample t.addr (2 ^ z.toNat) (.reg s.cur.die s.cur.hub d.toNat ((s.die s.cur.die).cad + 4))) 1)) ∧
     (s.violation s.cur.die s.cur.hub 0 .write t.addr (2 ^ z.toNat) = none →
       exec (.st d a z i) s = .next (afterCore s 3
         (.write t.addr (leBytes (2 ^ z.toNat) (s.readS d).v.toNat) (s.readS d).p) 1))) ∧
  (∀ (s : State) (die hub x n : Nat) (g : Group), ptrSpace x = 0 → ptrPos x = 0 → ptrHub x = 0 → ptrEng x = 0 →
     openTo g 0 = true → ptrOff x + n ≤ (s.kind die).scratchSize →
     ((s.hub die hub).launch.timed = true → s.isMember (s.hub die hub).launch.plid die = true) →
     s.translate die hub g x n 1 =
       .ok ⟨0, flat (homeScratch (s.kind die) die hub) (ptrOff x), die, (s.hub die hub).launch.timed, 0⟩) ∧
  (∀ (s : State) (die at_ lpos hub eng q a n r w dt : Nat) (bs : List Byte) (p : Bool),
     (let t := s.land ⟨die, at_, lpos, hub, eng, q, .sample a n (.reg die hub r w), none, dt⟩
      t.agenda =
        ⟨die, w, (s.hub die hub).lpos, hub, 0, q, .regS r (BitVec.ofNat 64 (s.readNat a n)) (s.poisoned a n), none, 0⟩ :: s.agenda ∧
      SameMemory s t ∧ t.hubs = s.hubs) ∧
     s.land ⟨die, at_, lpos, hub, eng, q, .write a bs p, none, dt⟩ = s.writeBytes a bs p)

/-- LDX and STX (R198, R349): in a timed launch the request reaches the home's mark n + L + 4 as a beat or on the issuing die,
and LDX writes at n + 2L + 8; in a counted launch a packet carries it, which goes once no earlier atomic of the hub is to be
performed (R226), and the load's destination is written at issue + P (R200). A doubleword of space 0x7 is read at its die's control
space by a counted packet. Through a handle (R203, R205): a VALID one takes the access to its page, an NP or POISON one poisons the
destination of a load, and an INVALID one faults. A doubleword stored to the endpoint window opens the hub's packet (R74). -/
def Obligations.FarLoadsAndStores : Prop :=
  ∀ (s : State) (d a : R6) (z : BitVec 2) (i : BitVec 12) (p : Nat), (s.readS a).p = false →
    eaOf (s.readS a).v.toNat i.toInt = some p →
    let n := 2 ^ z.toNat
    let now := (s.die s.cur.die).cad
    (∀ t, s.curHub.mark = none → 1 ≤ ptrSpace p ∧ ptrSpace p ≤ 4 → s.translate s.cur.die s.cur.hub .ldx p n 1 = .ok t →
      s.violation s.cur.die s.cur.hub 0 .read t.addr n = none →
      exec (.ldx d a z i) s = .next
        (if t.timed then
          (s.request t.die (t.lat + 4) (.sample t.addr n (.ldx s.cur.die s.cur.hub d.toNat (now + 2 * t.lat + 8)))).advance 1
         else
          (s.countedLoad { s.packet 0 t.die t.addr n with reg := d.toNat } false (s.promiseTo s.cur.die t.die)).advance 1)) ∧
    (∀ t, (ptrSpace p = 1 ∨ ptrSpace p = 2 ∨ ptrSpace p = 4) → s.translate s.cur.die s.cur.hub .stx p n 1 = .ok t →
      s.violation s.cur.die s.cur.hub 0 .write t.addr n = none →
      exec (.stx d a z i) s = .next
        (if t.timed then (s.request t.die (t.lat + 4) (.write t.addr (leBytes n (s.readS d).v.toNat) (s.readS d).p)).advance 1
         else
          (s.sendQueued { s.packet 2 t.die t.addr n with bytes := leBytes n (s.readS d).v.toNat, pois := (s.readS d).p }
            false true).advance 1)) ∧
    (∀ q, s.curHub.mark = none → ptrSpace p = 7 → s.phys s.curHub.launch.part (ptrPos p) = some q → ptrHub p = 0 → ptrEng p = 0 →
      ptrOff p + n ≤ 2 ^ 20 → n = 8 → ptrOff p % 8 = 0 →
      exec (.ldx d a z i) s = .next
        ((s.countedLoad { s.packet 0xB q (ptrOff p) n with reg := d.toNat } false (s.promiseTo s.cur.die q)).advance 1)) ∧
    (∀ h, ptrSpace p = 5 → bits p 59 52 = 0 → SMap.get {} s.curHub.handles (bits p 51 48) = h →
      let at_ := flat h.home (h.base + ptrOff p)
      let q := homeDie (homeOf at_)
      (s.curHub.mark = none →
        (h.st = .valid → ptrOff p + n ≤ h.size →
          exec (.ldx d a z i) s = .next ((s.countedLoad { s.packet 0 q at_ n with reg := d.toNat } false
            (Config.promise (if h.hbm then 5 else 6))).advance 1)) ∧
        (h.st = .np ∨ h.st = .poison →
          ∃ t, exec (.ldx d a z i) s = .next t ∧ t.curHub.next = now + 1 ∧ t.curHub.s = s.curHub.s ∧ SameMemory s t ∧
            ∃ r, SMap.find s.netSeq t.net = some r ∧ r.reg = d.toNat ∧ r.pois = true ∧ r.at_ = now + Config.promise 5) ∧
        (h.st = .invalid → exec (.ldx d a z i) s = .next (s.coreFault 0x0C 1 [poisonS d (Config.promise 5)]))) ∧
      (h.st = .valid → ptrOff p + n ≤ h.size → h.w = true → (s.readS d).p = false → s.cur.hub < 8 →
        ∃ t, exec (.stx d a z i) s = .next t ∧ t.curHub.next = now + 1 ∧ t.curHub.s = s.curHub.s ∧ SameMemory s t ∧
          ∃ r, SMap.find s.netSeq t.net = some r ∧ r.typ = 2 ∧ r.addr = at_ ∧ r.target = q ∧ r.bytes = leBytes n (s.readS d).v.toNat)) ∧
    (ptrSpace p = 6 → n = 8 → bits p 59 48 = 0 → ptrOff p % 8 = 0 → p.testBit 36 = false → bits p 23 13 = 0 → p.testBit 12 = false →
      (s.readS d).p = false → s.curHub.packet = none → s.cur.hub < 8 →
      ∃ t, exec (.stx d a z i) s = .next t ∧ t.curHub.next = now + 1 ∧ t.agenda = s.agenda ∧ SameMemory s t ∧
        t.curHub.packet = some ⟨bits p 47 42, bits p 41 39, bits p 38 37, bits p 35 24, [(s.readS d).v]⟩)

/-- AMO and CAS of the control core (R187, R199, R351, R352), for clean operands, an aligned access that translates and lies in
a writable atomic range, no open store mark, and no shared range that DET closes to it (R188): in a timed launch the operation
is performed at its home's mark n + 200; in a counted launch a packet carries it, with the result at issue + P. CAS compares
with the low bytes of s(d). The read-modify-write at the home (R256, R351, R352): it answers the old value; the location takes
old + operand modulo 2^(8n), the bitwise result, the lesser or greater as signed or natural numbers, the operand, or, for CAS,
the operand where the old value is the one compared with; no byte outside the location changes. -/
def Obligations.AtomicsAreSent : Prop :=
  (∀ (s : State) (op : AmoOp) (i : Instr) (d a b : R6) (z : BitVec 2) (t : Target) (e : Nat),
     (i, op, e) ∈ [(Instr.amoAdd d a b z, AmoOp.add, 0), (.amoAnd d a b z, .and, 0), (.amoOr d a b z, .or, 0), (.amoXor d a b z, .xor, 0),
       (.amoMin d a b z, .min, 0), (.amoMax d a b z, .max, 0), (.amoMinu d a b z, .minu, 0), (.amoMaxu d a b z, .maxu, 0),
       (.amoXchg d a b z, .xchg, 0), (.amoFadd d a b, .fadd, 0), (.cas d a b z, .cas, (s.readS d).v.toNat % 2 ^ (8 * 2 ^ z.toNat))] →
     (op = .fadd → z = 2) → (op = .cas → (s.readS d).p = false) →
     (s.readS a).p = false → (s.readS b).p = false → s.curHub.mark = none →
     s.translate s.cur.die s.cur.hub .amo (s.readS a).v.toNat (2 ^ z.toNat) (2 ^ z.toNat) = .ok t →
     s.violation s.cur.die s.cur.hub 0 .atomic t.addr (2 ^ z.toNat) = none →
     (s.curHub.launch.timed = true ∨ s.curHub.launch.det = false) →
     let n := 2 ^ z.toNat
     let q : AmoReq :=
       { op := op, addr := t.addr, size := n, operand := (s.readS b).v.toNat % 2 ^ (8 * n), expect := e, die := s.cur.die
         hub := s.cur.hub, reg := d.toNat, at_ := (s.die s.cur.die).cad + 400 }
     exec i s = .next
       (if t.timed then (s.request t.die 200 (.amo q)).advance 1
        else
         (s.countedLoad { s.packet 4 t.die t.addr n with reg := d.toNat, amo := some q } true (s.promiseTo s.cur.die t.die)).advance 1)) ∧
  (∀ (s : State) (q : AmoReq), homeOf q.addr = homeOf (q.addr + q.size) →
     let old := s.readNat q.addr q.size
     let m := 2 ^ (8 * q.size)
     let sg := fun (x : Nat) => if x % m < m / 2 then ((x % m : Nat) : Int) else ((x % m : Nat) : Int) - (m : Nat)
     let new := ((s.perform q).1.readNat q.addr q.size)
     (s.perform q).2.1 = old ∧ (s.perform q).2.2 = (s.poisoned q.addr q.size || q.pois) ∧
     (0 < q.size → q.operand < m →
       (q.op = .add → new = (old + q.operand) % m) ∧ (q.op = .and → new = old &&& q.operand) ∧ (q.op = .or → new = old ||| q.operand) ∧
       (q.op = .xor → new = old ^^^ q.operand) ∧ (q.op = .xchg → new = q.operand) ∧
       (q.op = .minu → new = min old q.operand) ∧ (q.op = .maxu → new = max old q.operand) ∧
       (q.op = .min → sg new = min (sg old) (sg q.operand)) ∧ (q.op = .max → sg new = max (sg old) (sg q.operand)) ∧
       (q.op = .cas → new = if old = q.expect then q.operand else old)) ∧
     (∀ x, (x < q.addr ∨ q.addr + q.size ≤ x) → (s.perform q).1.byteAt x = s.byteAt x) ∧
     (s.perform q).1.hubs = s.hubs)

/-- Crossings with the vector engine (R358, R359): SXV gives every element below VL the low bytes of s(a), its poison and
tangents +0, at n + 6; VXS writes element u(s(b)) of v(a), read at n, with its poison, or 0 beyond the engine's elements, at n +
9. -/
def Obligations.ScalarVectorCrossings : Prop :=
  ∀ (s : State) (d a b : R6) (v : R5), (s.kind s.cur.die).hasEng 1 = true →
    let c := s.vctx
    exec (.sxv v a) s = .next (afterCore s 6
      (.vec (⟨v.toNat, 0, 0, (List.replicate c.vl (leBytes c.w (s.readS a).v.toNat)).flatten, some (s.readS a).p, 255⟩ ::
        (List.range c.k).map fun j => ⟨v.toNat, j + 1, 0, List.replicate (c.vl * c.w) 0, none, 255⟩)) 1) ∧
    ((s.readS b).v.toNat < c.n → exec (.vxs d v b) s = .next (afterCore s 9
      (.regS d.toNat (BitVec.ofNat 64 (c.get 0 v.toNat (s.readS b).v.toNat)) ((s.readS b).p || c.pois v.toNat (s.readS b).v.toNat)) 1)) ∧
    (c.n ≤ (s.readS b).v.toNat → (s.readS b).p = false → exec (.vxs d v b) s = .next (afterCore s 9 (.regS d.toNat 0 false) 1))

/-- GO (R173, R174, R361): a segment that exists, of an engine that the hub has, enters the engine's queue with the start cycle of
the item's start mark + offset, which is that mark + LSHIFT (R263); in a timed launch it lies 8 or more after the issue and has
the hub's parity where windows alternate, in a counted one the queue has room, and a full one makes GO a hardware wait. -/
def Obligations.GoQueuesASegment : Prop :=
  ∀ (s : State) (e : BitVec 4) (g : BitVec 6) (t : BitVec 16), (s.kind s.cur.die).hasEng e.toNat = true →
    (s.curHub.segment (sectionOf e.toNat) g.toNat).2 ≠ 0 →
    let h := s.curHub
    let start := (h.item.getD {}).start + t.toNat
    let x := h.stream e.toNat
    let seg : Segment := ⟨g.toNat, ((start : Int) + (s.die s.cur.die).lshift).toNat, (s.die s.cur.die).cad⟩
    let after := (h.setStream e.toNat { x with queue := x.queue ++ [seg] }).advance (s.die s.cur.die).cad 1
    let queued : State := { s with hubs := SMap.put s.hubs (hubKey s) after }
    (h.launch.timed = true → s.mark + 8 ≤ start → (s.alternates s.cur.die s.cur.hub e.toNat = true → start % 2 = s.cur.hub % 2) →
      exec (.go e g t) s = .next queued) ∧
    (h.launch.timed = false → x.queue.length < 8 → exec (.go e g t) s = .next queued) ∧
    (h.launch.timed = false → 8 ≤ x.queue.length → exec (.go e g t) s = .next (afterWait s (.go e.toNat g.toNat t.toNat)))

/-- The reply queue and the timelines (R362, R363, R365): PUSH of a command in the local read set goes to the port at n + 2, where it
is sampled, or waits while the port is full; in a counted launch what will stand there is legal and clean as far as the agenda
shows at n (log 19); TLWAIT goes on at n + 1 where the count meets s(d) + zext(imm14) at the start of n,
and otherwise waits for it; POP takes the oldest entry and POP.tag its TAG, which stays, at m + 2, and each waits while the
queue is empty. -/
def Obligations.RepliesAndTimelines : Prop :=
  ∀ (s : State) (d q : R6) (i : BitVec 14),
    (∀ t c, (s.kind s.cur.die).hasEng 6 = true → (s.readS d).p = false →
      s.translate s.cur.die s.cur.hub .drafting (s.readS d).v.toNat 8 8 = .ok t →
      s.violation s.cur.die s.cur.hub 0 .read t.addr 8 = none →
      (s.curHub.launch.timed = false →
        (s.ahead s.cur.die ((s.die s.cur.die).cad + 2)).poisoned t.addr 8 = false ∧
        draftingOf (s.peek s.cur.die ((s.die s.cur.die).cad + 2) t.addr 8) = .ok c) →
      exec (.push d) s = .next
        (if s.portLoad s.cur.die s.cur.hub < 8 then afterCore s 2 (.push t.addr s.mark) 1
         else afterWait s (.push (s.readS d).v.toNat))) ∧
    ((s.kind s.cur.die).hasEng (unitOf q.toNat) = true → (s.readS d).p = false →
      let target := ((s.readS d).v + i.setWidth 64).toNat
      exec (.tlwait d q i) s = .next
        (if target ≤ (s.curHub.timeline q.toNat).count then afterPlain s 1 else afterWait s (.timeline q.toNat target))) ∧
    (s.curHub.replies = [] →
      exec (.pop d) s = .next (afterWait s (.pop d.toNat)) ∧ exec (.popTag d) s = .next (afterWait s (.popTag d.toNat))) ∧
    (∀ r rest, s.curHub.replies = r :: rest →
      exec (.popTag d) s = .next (afterCore s 2 (.regS d.toNat (tagOf r) false) 1) ∧
      ∃ t, exec (.pop d) s = .next t ∧ t.agenda = dueOf s 2 (.regS d.toNat r.value r.psn) :: s.agenda ∧ t.curHub.replies = rest ∧
        t.curHub.next = (s.die s.cur.die).cad + 1 ∧ t.curHub.s = s.curHub.s ∧ SameMemory s t)

/-- PEEKQ writes at n + 1 the number of entries that the reply queue held at the start of n; it never waits and removes nothing.
-/
def Obligations.PeekCountsReplies : Prop :=
  ∀ (s : State) (d : R6),
    exec (.peekq d) s = .next (afterCore s 1 (.regS d.toNat (BitVec.ofNat 64 s.curHub.replies.length) false) 1) ∧
    (∀ t, exec (.peekq d) s = .next t → t.curHub.replies = s.curHub.replies ∧ t.curHub.wait = .none) ∧
    (encode (.peekq d)).headD 0 / 2 ^ 26 = 0x24

/-- TLREAD writes the timeline's count, read at n, to s(d) at n + 2; TLREAD.fail writes its FAIL flag, 0 or 1, instead. -/
def Obligations.TimelineReads : Prop :=
  ∀ (s : State) (d q : R6),
    exec (.tlread d q) s = .next (afterCore s 2 (.regS d.toNat (BitVec.ofNat 64 (s.curHub.timeline q.toNat).count) false) 1) ∧
    exec (.tlreadFail d q) s = .next (afterCore s 2 (.regS d.toNat (if (s.curHub.timeline q.toNat).fail then 1 else 0) false) 1)

/-- NOP takes one issue slot and has no other effect: the next word issues at issue + 1, and nothing else differs. -/
def Obligations.NopOnlyMovesOn : Prop :=
  (∀ s : State, exec .nop s = .next (afterPlain s 1)) ∧ (encode .nop).headD 0 / 2 ^ 20 % 2 ^ 6 = 0

/-- CAD writes at n + 1 the mark of scy n: CADENCE − LSHIFT in a timed launch, the CADENCE of the hub's die in a counted one. -/
def Obligations.CadReadsTheMark : Prop :=
  ∀ (s : State) (d : R6),
    let c := (s.die s.cur.die).cad
    exec (.cad d) s = .next (afterCore s 1
      (.regS d.toNat (BitVec.ofNat 64 (if s.curHub.launch.timed then ((c : Int) - (s.die s.cur.die).lshift).toNat else c)) false) 1) ∧
    (encode (.cad d)).headD 0 / 2 ^ 20 % 2 ^ 6 = 7 ∧ (encode (.cad d)).headD 0 % 2 ^ 6 = d.toNat

/-- TICK (R374): c = (s(a) + zext(k14)) mod 2^64 and the next instruction issues at n + max(c, 1). -/
def Obligations.TickDelaysTheNextWord : Prop :=
  ∀ (s : State) (k : BitVec 14) (a : R6), (s.readS a).p = false →
    let c := ((s.readS a).v.toNat + k.toNat) % 2 ^ 64
    let n := (s.die s.cur.die).cad
    (c ≤ 1 → exec (.tick k a) s = .next (afterPlain s 1)) ∧
    (1 < c → exec (.tick k a) s = .next (afterWait s (.tick (n + c))) ∧
      ∀ u : State, u.arg.die = s.cur.die → u.arg.hub = s.cur.hub → (u.hub s.cur.die s.cur.hub).wait = .tick (n + c) →
        (u.die s.cur.die).cad = n + c →
        ∃ t, exec .tickExpiry u = .next t ∧ (t.hub s.cur.die s.cur.hub).next = n + c ∧ (t.hub s.cur.die s.cur.hub).wait = .none)

/-- Handles and slots (R204, R205, R215, R216, R367 to R369): XINV makes its handle INVALID at issue + 1. XLATE of a clean address
completes at issue + 1 and sets its handle at issue + 48: NP, DENY or VALID with the page, as the entry of a cache of the die has it;
where none has it, POISON, and a packet of TYPE 6 asks the serving B-die for a fill, where there is one. Whether an entry has been
replaced since it was filled is a free value (log 14). A slot-table instruction with clean operands sends its operation to the B-die
that it names, in a counted launch as a packet with the result at issue + P, in a timed one to the B-die's mark n + 200; one whose
operands have nonzero bits that the rule asks to be 0, or name no B-die, is malformed, and its result comes as from the issuing
die (log 20). The slot table (R214, R215): a malformed request answers its code and changes nothing; SLOOK never changes the table and
answers the slot with the tag, or else the lowest invalid slot with bit 63 set, or 0xC000_0000_0000_0000 where every slot is valid;
SFILL of an invalid slot with a tag that no valid slot holds makes the slot valid with that tag and answers 0, of a valid slot 1, of a
tag held elsewhere 2; SEVICT of a valid slot that no open phase covers clears V and answers 0, of an invalid one 1, of a covered one
2; other slots keep their entries. -/
def Obligations.HandlesAndSlots : Prop :=
  (∀ (s : State) (h : BitVec 4) (a : R6),
     exec (.xinv h) s = .next (afterCore s 1 (.handle h.toNat {}) 1) ∧
     ((s.readS a).p = false →
       let va := (s.readS a).v.toNat % 2 ^ 48
       let l := s.curHub.launch
       let now := (s.die s.cur.die).cad
       let entry := (s.die s.cur.die).dtc.find? fun e => e.hits l.part l.pasid va
       let poison := { afterCore s 48 (.handle h.toNat { st := .poison, pasid := l.pasid, va := va, size := 1 }) 1 with free := s.free + 1 }
       let asks := fun (i : Instr) (wr : Bool) => ∀ q, s.servingB l.part va = some q →
         ∃ t, exec i s = .next t ∧ t.curHub.next = now + 1 ∧ t.agenda = poison.agenda ∧ SameMemory s t ∧ SameRegisters s.curHub t.curHub ∧
           ∃ r, SMap.find s.netSeq t.net = some r ∧ r.typ = 6 ∧ r.target = q ∧ r.die = s.cur.die ∧ r.part = l.part ∧
             r.fill = some { pasid := l.pasid, va := va, wr := wr, lpos := s.curHub.lpos, hub := s.cur.hub, slot := l.slot, qid := l.qid
                             mark := s.mark, ltag := l.ltag }
       (entry = none ∨ Config.cacheHolds s.free = false →
         (s.servingB l.part va = none → exec (.xlateRead h a) s = .next poison ∧ exec (.xlateWrite h a) s = .next poison) ∧
         asks (.xlateRead h a) false ∧ asks (.xlateWrite h a) true) ∧
       (∀ e, entry = some e → Config.cacheHolds s.free = true →
         let gone := fun (st : HState) => ({ st := st, pasid := e.pasid, va := e.va, size := e.size } : Handle)
         let page := fun (wr : Bool) => ({ st := .valid, home := e.home, base := e.base, size := e.size, hbm := e.hbm, w := wr
                                           pasid := e.pasid, va := e.va } : Handle)
         let sets := fun (i : Instr) (x : Handle) => exec i s = .next { afterCore s 48 (.handle h.toNat x) 1 with free := s.free + 1 }
         (e.res = 1 → sets (.xlateRead h a) (gone .np) ∧ sets (.xlateWrite h a) (gone .np)) ∧
         (e.res = 2 → sets (.xlateRead h a) (gone .deny) ∧ sets (.xlateWrite h a) (gone .deny)) ∧
         (e.res = 0 → sets (.xlateRead h a) (page false) ∧ sets (.xlateWrite h a) (if e.w then page true else gone .deny))))) ∧
  (∀ (s : State) (d a b : R6), (s.readS a).p = false →
     let x := (s.readS a).v
     let y := (s.readS b).v
     let l := s.curHub.launch
     let p := s.cur.die
     let req := fun (op q : Nat) (y : W64) (bad : Bool) =>
       ({ op := op, bdie := q, a := x, b := y, part := l.part, malformed := bad, die := p, hub := s.cur.hub, reg := d.toNat
          at_ := (s.die p).cad + 400 } : SlotReq)
     let sends := fun (i : Instr) (r : SlotReq) =>
       (l.timed = true → s.isMember l.plid r.bdie = true → (s.timedLatency l.plid p r.bdie).isSome = true →
         exec i s = .next ((s.request r.bdie 200 (.slotOp r)).advance 1)) ∧
       (l.timed = false → exec i s = .next
         ((s.countedSlotOp { s.packet 4 r.bdie 0 0 with reg := d.toNat, slotOp := some r } (s.promiseTo p r.bdie)).advance 1))
     let names := fun (n q : Nat) => s.phys l.part n = some q ∧ s.kind q = .bDie
     let filled := x.toNat < 2 ^ 22 ∧ bits x.toNat 15 14 = 0
     ((s.readS b).p = false →
       (∀ q, x.toNat < 2 ^ 48 → y.toNat < 64 → names y.toNat q → sends (.slook d a b) (req 0 q y false)) ∧
       (¬(x.toNat < 2 ^ 48 ∧ y.toNat < 64 ∧ ∃ q, names y.toNat q) → sends (.slook d a b) (req 0 p y true)) ∧
       (∀ q, filled → y.toNat < 2 ^ 48 → names (bits x.toNat 21 16) q → sends (.sfill d a b) (req 1 q y false)) ∧
       (¬(filled ∧ y.toNat < 2 ^ 48 ∧ ∃ q, names (bits x.toNat 21 16) q) → sends (.sfill d a b) (req 1 p y true))) ∧
     (∀ q, filled → names (bits x.toNat 21 16) q → sends (.sevict d a) (req 2 q 0 false)) ∧
     (¬(filled ∧ ∃ q, names (bits x.toNat 21 16) q) → sends (.sevict d a) (req 2 p 0 true))) ∧
  (∀ (s : State) (q : SlotReq),
     let n := q.a.toNat % 2 ^ 14
     let d := s.die q.bdie
     let held := fun (tag : Nat) => ∃ e ∈ d.tags, e.2.testBit 63 = true ∧ e.2 % 2 ^ 48 = tag
     let entry := fun (t : State) (k : Nat) => SMap.get 0 (t.die q.bdie).tags k
     (q.malformed = true → s.slotTable q = (s, if q.op = 0 then 0xE000000000000000 else 3)) ∧
     (q.malformed = false → q.op = 0 → let tag := q.a.toNat % 2 ^ 48
       (s.slotTable q).1 = s ∧
       (∀ k, held tag → (∀ e ∈ d.tags, e.2.testBit 63 = true → e.2 % 2 ^ 48 = tag → e.1 = k) → (s.slotTable q).2 = BitVec.ofNat 64 k) ∧
       (¬held tag →
         (∀ k, k < 16384 → s.slotValid q.bdie k = false → (∀ j, j < k → s.slotValid q.bdie j = true) →
           (s.slotTable q).2 = BitVec.ofNat 64 (2 ^ 63 + k)) ∧
         ((∀ k, k < 16384 → s.slotValid q.bdie k = true) → (s.slotTable q).2 = 0xC000000000000000))) ∧
     (q.malformed = false → q.op = 1 → let tag := q.b.toNat % 2 ^ 48
       (s.slotValid q.bdie n = true → s.slotTable q = (s, 1)) ∧
       (s.slotValid q.bdie n = false → held tag → s.slotTable q = (s, 2)) ∧
       (s.slotValid q.bdie n = false → ¬held tag →
         (s.slotTable q).2 = 0 ∧ entry (s.slotTable q).1 n = 2 ^ 63 + tag ∧ ∀ k, k ≠ n → entry (s.slotTable q).1 k = entry s k)) ∧
     (q.malformed = false → q.op = 2 →
       (s.slotValid q.bdie n = false → s.slotTable q = (s, 1)) ∧
       (s.slotValid q.bdie n = true → s.slotCovered q.part q.bdie n = true → s.slotTable q = (s, 2)) ∧
       (s.slotValid q.bdie n = true → s.slotCovered q.part q.bdie n = false →
         (s.slotTable q).2 = 0 ∧ entry (s.slotTable q).1 n = entry s n % 2 ^ 63 ∧ ∀ k, k ≠ n → entry (s.slotTable q).1 k = entry s k)))

/-- WID, CSRR and CSRW (R167, R201, R203, R371, R372): WID writes field e, the work identifier (6) or the ordinal (7) of the
current item at n + 1; CSRR writes the register's value at n to s(d) at n + 1: the item's and its launch's values, the promises of
R200 a byte a class, the states of the sixteen handles three bits each, the partition's count of XLRETRY events and k.tstride.
CSRW of k.tstride with a value whose bits [5:0] and [63:48] are 0 takes effect at n + 1 (R218, R223): it is what CSRR reads then,
and neither memory nor another register is changed. A CSRW of another register, whatever its source holds (R342), or of another value,
raises illegal encoding subcode 4; one of k.tstride with a poisoned source, 0x0A subcode 2. -/
def Obligations.IdentityAndControlRegisters : Prop :=
  ∀ (s : State) (d a : R6) (i k : BitVec 14), s.cur.hub < 8 →
    let t := s.curHub.item.getD {}
    let l := t.launch
    let reads := fun (h : Hub) (x k : Nat) (v : W64) => h.csr x k = v
    let nat := fun (n : Nat) => BitVec.ofNat 64 n
    let code := fun (st : HState) => match st with
      | .invalid => 0 | .valid => 1 | .poison => 2 | .np => 3 | .deny => 4 | .shot => 5
    exec (.wid d i) s = .next (afterCore s 1 (.regS d.toNat
      (if i.toNat < 6 then t.fields.getD i.toNat 0 else if i.toNat = 6 then t.wid else BitVec.ofNat 64 t.ord) false) 1) ∧
    exec (.csrr k a) s = .next (afterCore s 1 (.regS a.toNat (s.curHub.csr (s.part l.part).xlgen k.toNat) false) 1) ∧
    (∀ (h : Hub) (x : Nat), h.item.getD {} = t →
      reads h x 0x10 l.args ∧ reads h x 0x11 (nat t.team) ∧ reads h x 0x12 (nat t.trank) ∧ reads h x 0x13 (nat l.tsize) ∧
      reads h x 0x14 (nat l.nteam) ∧ reads h x 0x15 (nat l.nitem) ∧ reads h x 0x16 (if l.timed then nat l.lbase else 0) ∧
      reads h x 0x17 (nat t.start) ∧ reads h x 0x18 (nat l.tk) ∧ reads h x 0x19 (nat l.ltag) ∧ reads h x 0x1A 0xFF20110C080502 ∧
      reads h x 0x1C (nat (x % 2 ^ 32)) ∧ reads h x 0x1D h.tstride ∧
      ∃ v, reads h x 0x1B v ∧ v.toNat < 2 ^ 48 ∧ ∀ n, n < 16 → v.toNat / 8 ^ n % 8 = code (SMap.get {} h.handles n).st) ∧
    ((s.readS a).p = false → (s.readS a).v.toNat % 64 = 0 → (s.readS a).v.toNat < 2 ^ 48 →
      exec (.csrw 0x1D a) s = .next (afterCore s 1 (.tstride (s.readS a).v) 1) ∧
      ∀ (u : State) (at_ lpos eng q dt : Nat) (v : W64),
        let u' := u.land ⟨s.cur.die, at_, lpos, s.cur.hub, eng, q, .tstride v, none, dt⟩
        (u'.hub s.cur.die s.cur.hub).csr 0 0x1D = v ∧ (u'.hub s.cur.die s.cur.hub).s = (u.hub s.cur.die s.cur.hub).s ∧
        (u'.hub s.cur.die s.cur.hub).p = (u.hub s.cur.die s.cur.hub).p ∧ SameMemory u u') ∧
    (k ≠ 0x1D ∨ ((s.readS a).p = false ∧ ((s.readS a).v.toNat % 64 ≠ 0 ∨ 2 ^ 48 ≤ (s.readS a).v.toNat)) →
      exec (.csrw k a) s = .next (s.coreFault 0x01 4 [])) ∧
    ((s.readS a).p = true → exec (.csrw 0x1D a) s = .next (s.coreFault 0x0A 2 []))

/-- The ends of an item (R234, R378 to R380): where every earlier store has been performed and no packet is open, DONE ends loops,
discards reply entries and loads on their way, and the core is idle; otherwise it waits. HALT does the
same, and in a counted launch placement ends as it takes effect. TRAP in a counted launch with TRAPREC empty fills TRAPREC and
stops the core, its launch marked for abort. Ordering (R228, R229): MARK takes one issue slot and opens a mark over the stores and
atomics not yet performed; a FENCE whose scoped accesses are complete takes one issue slot, and otherwise waits; FENCE.sys after
host writes sends the flushing read of R231 and waits for it. TRAP in a timed launch has the paceline halt at its mark + 256
(R380). Taking a fault (R238, R240, R245, R246), shown on two words with a poisoned operand (0x0A subcode 2): in a counted launch
the core stops with its PC and registers as they are and the launch is marked for abort; in a timed launch the die takes the halt
mark F + 256 and the core goes on; a report with the kind, the subcode, the slot, the hub, ENG 0, the PC, the mark and the time in
nanoseconds is on its way. Memory does not change. -/
def Obligations.ItemsEndTrapOrFault : Prop :=
  (∀ (s : State) (k : BitVec 14), s.cur.hub < 8 →
     let l := s.curHub.launch
     let ends := fun (t : State) => t.curHub.run = .idle ∧ t.curHub.loops = [] ∧ t.curHub.replies = [] ∧ t.curHub.accesses = [] ∧
       t.curHub.wait = .none ∧ t.curHub.s = s.curHub.s ∧ SameMemory s t ∧ ∀ d ∈ t.agenda, d.die = s.cur.die → d.hub = s.cur.hub →
         match d.act with
         | .load .. => False
         | .ev .countedReplyDeadline a => ∀ e ∈ s.curHub.accesses, e.id ≠ a.n
         | _ => True
     let rec_ := fun (t : State) =>
       (t.part l.part).trapV = true ∧ ((s.part l.part).trapV = false → (t.part l.part).trapMore = false ∧
         (t.part l.part).trap = BitVec.ofNat 64 (k.toNat * 2 ^ 48 + s.curHub.lpos % 64 * 2 ^ 42 + s.cur.hub * 2 ^ 39 +
           l.slot % 16 * 2 ^ 35 + s.curHub.pc % 2 ^ 32))
     (s.doneMet s.cur.die s.cur.hub = false →
       exec .done s = .next (afterWait s .done) ∧ exec .halt s = .next (afterWait s .halt)) ∧
     (s.doneMet s.cur.die s.cur.hub = true → s.curHub.packet = none → (s.part l.part).barriers = [] →
       (∃ t, exec .done s = .next t ∧ ends t) ∧
       ∃ t, exec .halt s = .next t ∧ ends t ∧
         (t.slot l.slot).run = if l.timed then (s.slot l.slot).run else (s.slot l.slot).run.map fun r => { r with halt := true }) ∧
     (l.timed = false →
       ∃ t, exec (.trap k) s = .next t ∧ t.curHub.run = .stopped ∧ rec_ t ∧ SameMemory s t ∧ SameRegisters s.curHub t.curHub ∧
         (t.slot l.slot).run = ((s.slot l.slot).run.map fun r => { r with abort := true })) ∧
     (l.timed = true → s.curHub.loops = [] →
       ∃ t, exec (.trap k) s = .next t ∧ t.curHub.run = s.curHub.run ∧ t.curHub.pc = s.curHub.pc + 4 ∧ SameMemory s t ∧
         SameRegisters s.curHub t.curHub ∧ (t.pl l.plid).trap = true ∧ rec_ t ∧ (t.die s.cur.die).haltAt = some (haltOf s))) ∧
  (∀ (s : State) (sc : BitVec 2),
     (∃ t, exec .mark s = .next t ∧ t.curHub.next = (s.die s.cur.die).cad + 1 ∧ t.curHub.wait = .none ∧ SameMemory s t ∧
       (s.curHub.accesses.filter (·.store) = [] → t.curHub.mark = s.curHub.mark) ∧
       (s.curHub.accesses.filter (·.store) ≠ [] → t.curHub.mark = some ((s.curHub.accesses.filter (·.store)).map (·.id)))) ∧
     (sc ≠ 3 ∨ s.curHub.posted = false → exec (.fence sc) s = .next
       (if s.fenceMet s.cur.die s.cur.hub sc.toNat then afterPlain s 1 else afterWait s (.fence sc.toNat))) ∧
     (sc = 3 → s.curHub.posted = true → s.cur.hub < 8 →
       ∃ t, exec (.fence sc) s = .next t ∧ t.curHub.wait = .fence 3 ∧ t.curHub.posted = false ∧ SameMemory s t ∧
         SameRegisters s.curHub t.curHub ∧ ∃ p, SMap.find s.netSeq t.net = some p ∧ p.typ = 0xD ∧ p.target = 48)) ∧
  (∀ (s : State) (k : BitVec 14) (d a : R6) (z : BitVec 2) (i : BitVec 12), (s.readS a).p = true →
     let l := s.curHub.launch
     let reports := fun (t : State) (l : Launch) => ∃ x ∈ t.timers, s.cy < x.1 ∧ x.1 ≤ s.cy + 128 ∧ x.2.1 = .faultReportReceive ∧
       ∃ p, SMap.find x.2.2.n t.net = some p ∧ p.typ = 0xC ∧ p.rep.kind = 0x0A ∧ p.rep.sub = 2 ∧ p.rep.slot = l.slot ∧
         p.rep.hub = s.cur.hub ∧ p.rep.eng = 0 ∧ p.rep.mark = s.mark ∧ p.rep.time = s.cy * 10 / 19 ∧
         p.rep.estat = 2 * 2 ^ 48 + s.curHub.pc % 2 ^ 32
     (∀ j ∈ [Instr.tick k a, .st d a z i], l.timed = false → s.curHub.run ≠ .stopped →
       ∃ t, exec j s = .next t ∧ t.curHub.run = .stopped ∧ t.curHub.stopRef = (s.die s.cur.die).cad ∧ t.curHub.pc = s.curHub.pc ∧
         SameRegisters s.curHub t.curHub ∧ SameMemory s t ∧
         (t.slot l.slot).run = ((s.slot l.slot).run.map fun r => { r with abort := true }) ∧
         reports t l) ∧
     (∀ j ∈ [Instr.tick k a, .st d a z i], l.timed = true → s.curHub.loops = [] → (∀ x ∈ s.reports, x.mark = s.mark → x.hub ≠ s.cur.hub) →
       ∃ t, exec j s = .next t ∧ t.curHub.run = s.curHub.run ∧ t.curHub.pc = s.curHub.pc + 4 ∧ SameRegisters s.curHub t.curHub ∧
         SameMemory s t ∧
         (t.die s.cur.die).haltAt = some (haltOf s) ∧
         reports t l))

/-- BAR, PHASE, STAND and the fabric words of the control core (R54, R176, R370, R375, R482, R484): BAR waits, and arrives once
its stores are performed; a PHASE with a clean, aligned, local block samples it from n + 2 under the slot tables of n, goes on at
n + 1 in a timed launch and waits in a counted one; STAND takes one issue slot in a counted launch, and in a timed one arms the
mark on a die that has none armed and lies 64 or more before it. FBIND of a usable context with a loaded graph installs the graph
and holds the next word for 64 scy; FLOAD of well-formed bundles stores the image, of G bundles with its header, and the next word
issues at n + 4 + ⌈G / 4⌉. -/
def Obligations.BarriersPhasesStandsAndFabric : Prop :=
  ∀ (s : State) (a g : R6) (i : BitVec 8) (l : BitVec 2) (b c : BitVec 4) (t16 : BitVec 16),
    exec (.bar l b) s = .next
      (if s.barMet s.cur.die s.cur.hub then (afterWait s (.bar l.toNat b.toNat)).arrive s.cur.die s.cur.hub l.toNat b.toNat
       else afterWait s (.bar l.toNat b.toNat)) ∧
    (∀ p t, (s.readS a).p = false → eaOf (s.readS a).v.toNat (i.toInt * 64) = some p → ptrSpace p = 0 → p % 64 = 0 →
      s.translate s.cur.die s.cur.hub .ldst p 64 1 = .ok t →
      let sample := Act.phaseSample t.addr s.mark (s.curHub.pc % 2 ^ 32) s.slotTags
      (s.curHub.launch.timed = true → exec (.phase a i) s = .next ((s.laterAll [(2, sample), (8, .phaseClose)]).advance 1)) ∧
      (s.curHub.launch.timed = false → exec (.phase a i) s = .next ((s.later 2 sample).waitOn (.phase t.addr s.mark)))) ∧
    ((s.readS a).p = false →
      (s.curHub.launch.timed = false → exec (.stand a) s = .next (afterPlain s 1) ∧ exec (.standQ a) s = .next (afterPlain s 1)) ∧
      (s.curHub.launch.timed = true → (s.die s.cur.die).armed = false → s.mark + 64 ≤ (s.readS a).v.toNat →
        exec (.stand a) s = .next ((s.arm s.cur.die (s.readS a).v.toNat false false s.cur.hub false).advance 1) ∧
        exec (.standQ a) s = .next ((s.arm s.cur.die (s.readS a).v.toNat false false s.cur.hub true).advance 1))) ∧
    ((s.kind s.cur.die).hasEng 7 = true →
      (ctxUsable ((s.xdie s.cur.die).context c.toNat) s.curHub.launch.part = true → SMap.get [] (s.xdie s.cur.die).graphs g.toNat ≠ [] →
        (s.xdie s.cur.die).busy = false →
        exec (.fbind g c) s = .next ((s.setXdie s.cur.die ((s.xdie s.cur.die).install g.toNat c.toNat s.cur.hub)).advance 64)) ∧
      (∀ x bs, s.curHub.bundle t16.toNat = some [x, 0, 0] → x < 192 →
        s.curHub.bundles (t16.toNat + 1) ((x % 64 + 1) * programs (x / 64)) = some bs →
        (∀ y ∈ bs, bundleOk (x % 64 + 1) y = true) →
        let d := s.xdie s.cur.die
        exec (.fload g t16) s = .next ((s.setXdie s.cur.die { d with graphs := SMap.put d.graphs g.toNat ([x, 0, 0] :: bs) }).advance
          (4 + ((x % 64 + 1) * programs (x / 64) + 1 + 3) / 4))))

/-! ### The vector engine -/

/-- Vector FP (R385, R392 to R394, R276): under an FP ETYPE and a TAN that the word takes, every active element of v(d) is
written with the operation of R299 to R302 on operands read under FTZ, rounded by RM and flushed under FTZ, at issue + 4, 5, 12
or 14; an element is poisoned when a source element is, and its tangents follow R315 and R316. VMIN and VMAX bring the operand
taken, v(a)'s where they compare equal, and NaN for NaN. The tangents of R314 to R316: each product and each sum is rounded by
RM under FTZ, a constant operand leaves its terms out, and +0 stands when none is left; a NaN tangent is the canonical NaN. `y`
is the primal result. What the operations give in each of the five formats: a NaN operand gives the canonical NaN (R293, R300,
R301); the special inputs have the results of R302, an infinity of E4M3 being ±448 (R300); negation and magnitude act on the sign
alone (R394); FTZ makes a subnormal a zero of its sign and touches nothing else (R303); the exact sum, difference, product,
quotient or a × b + c of FP32 is rounded once by RM (R298, R301). -/
def Obligations.VectorFloatWords : Prop :=
  (∀ (s : State) (d a b e : R5) (m : BitVec 3) (r : BitVec 2), s.cur.eng = 1 → s.curHub.shape.ety < 5 →
     let c := s.vctx
     let f := c.ety.fmt
     let fl := f.flush c.ftz
     let x := fun i => fl (c.src a.toNat i)
     let y := fun i => fl (c.src b.toNat i)
     let z := fun i => fl (c.src e.toNat i)
     let rm := r.toNat
     let out := fun (j : Instr) (n l : Nat) (op : FpOp) (rm : Nat) (v : Nat → Nat) =>
       (c.tan.cb = true → 2 ≤ n) → (c.tan.cc = true → 3 ≤ n) →
       (c.tan.sel ≠ 0 → c.tan.ca = false ∧ c.tan.cb = false ∧ c.tan.cc = false) →
       exec j s = .next (afterWord s l (.vec (c.emit d.toNat ((c.actives m.toNat).map fun i =>
         ⟨i, v i, c.pois a.toNat i || (decide (2 ≤ n) && c.pois b.toNat i) || (decide (3 ≤ n) && c.pois e.toNat i),
           c.ks.map fun t => op.tangent ⟨f, rm, c.ftz⟩ (x i) (if 2 ≤ n then y i else 0) (v i) (c.tanOf c.tan.ca t a.toNat i)
             (if 2 ≤ n then c.tanOf c.tan.cb t b.toNat i else none) (if 3 ≤ n then c.tanOf c.tan.cc t e.toNat i else none)⟩))))
     let pick := fun (j : Instr) (max : Bool) =>
       c.tan.cc = false → (c.tan.sel ≠ 0 → c.tan.ca = false ∧ c.tan.cb = false) →
       exec j s = .next (afterWord s 4 (.vec (c.emit d.toNat ((c.actives m.toNat).map fun i =>
         let p := c.pois a.toNat i || c.pois b.toNat i
         let t := fun (const : Bool) (r : Nat) => c.ks.map fun k => if const then 0 else (Rounding.mk f 0 c.ftz).canon (c.ftan k r i)
         match f.pick max (x i) (y i) with
         | none => ⟨i, f.nan, p, c.ks.map fun _ => if c.tan.ca && c.tan.cb then 0 else f.nan⟩
         | some false => ⟨i, x i, p, t c.tan.ca a.toNat⟩
         | some true => ⟨i, y i, p, t c.tan.cb b.toNat⟩))))
     out (.vadd d a b m r) 2 4 .add rm (fun i => fl (f.add rm (x i) (y i))) ∧
     out (.vsub d a b m r) 2 4 .sub rm (fun i => fl (f.sub rm (x i) (y i))) ∧
     out (.vmul d a b m r) 2 4 .mul rm (fun i => fl (f.mul rm (x i) (y i))) ∧
     out (.vdiv d a b m r) 2 14 .div rm (fun i => fl (f.div rm (x i) (y i))) ∧
     out (.vfma d a b e m r) 3 5 .fma rm (fun i => fl (f.fma rm (x i) (y i) (z i))) ∧
     out (.vsqrt d a m r) 1 14 .sqrt rm (fun i => fl (f.sqrt rm (x i))) ∧
     out (.vrcp d a m r) 1 12 .rcp rm (fun i => fl (f.recip rm (x i))) ∧
     out (.vrsqrt d a m r) 1 12 .rsqrt rm (fun i => fl (f.rsqrt rm (x i))) ∧
     out (.vexp2 d a m r) 1 12 .exp2 rm (fun i => fl (f.exp2 rm (f.decode (x i)))) ∧
     out (.vlog2 d a m r) 1 12 .log2 rm (fun i => fl (f.log2 rm (f.decode (x i)))) ∧
     out (.vln d a m r) 1 12 .ln rm (fun i => fl (f.ln rm (f.decode (x i)))) ∧
     out (.vtanh d a m r) 1 12 .tanh rm (fun i => fl (f.tanh rm (f.decode (x i)))) ∧
     out (.vneg d a m) 1 4 .neg 0 (fun i => f.negate (x i)) ∧ out (.vabs d a m) 1 4 .abs 0 (fun i => f.magnitude (x i)) ∧
     pick (.vmin d a b m) false ∧ pick (.vmax d a b m) true) ∧
  (∀ (x : Rounding) (a b y u v w : Nat),
     let one := x.const false 1 0
     let n := x.f.negate
     let k := x.canon
     FpOp.add.tangent x a b y (some u) (some v) none = k (x.add u v) ∧ FpOp.add.tangent x a b y (some u) none none = k u ∧
     FpOp.sub.tangent x a b y (some u) (some v) none = k (x.sub u v) ∧ FpOp.sub.tangent x a b y none (some v) none = k (n v) ∧
     FpOp.mul.tangent x a b y (some u) (some v) none = k (x.add (x.mul u b) (x.mul a v)) ∧
     FpOp.mul.tangent x a b y none (some v) none = k (x.mul a v) ∧
     FpOp.fma.tangent x a b y (some u) (some v) (some w) = k (x.add (x.add (x.mul u b) (x.mul a v)) w) ∧
     FpOp.fma.tangent x a b y none none (some w) = k w ∧
     FpOp.div.tangent x a b y (some u) (some v) none = k (x.div (x.sub u (x.mul y v)) b) ∧
     FpOp.div.tangent x a b y (some u) none none = k (x.div u b) ∧
     FpOp.div.tangent x a b y none (some v) none = k (x.div (n (x.mul y v)) b) ∧
     FpOp.sqrt.tangent x a b y (some u) none none = k (x.div u (x.mul (x.const false 2 0) y)) ∧
     FpOp.rcp.tangent x a b y (some u) none none = k (n (x.mul (x.mul y y) u)) ∧
     FpOp.rsqrt.tangent x a b y (some u) none none = k (x.mul (x.mul (x.const true 1 (-1)) (x.mul (x.mul y y) y)) u) ∧
     FpOp.exp2.tangent x a b y (some u) none none = k (x.mul (x.mul y x.f.ln2) u) ∧
     FpOp.log2.tangent x a b y (some u) none none = k (x.div u (x.mul a x.f.ln2)) ∧
     FpOp.ln.tangent x a b y (some u) none none = k (x.div u a) ∧
     FpOp.tanh.tangent x a b y (some u) none none = k (x.mul (x.sub one (x.mul y y)) u) ∧
     FpOp.neg.tangent x a b y (some u) none none = k (n u) ∧
     FpOp.abs.tangent x a b y (some u) none none = k (if a.testBit (x.f.e + x.f.m) then n u else u) ∧
     (∀ op : FpOp, op.tangent x a b y none none none = k 0)) ∧
  (∀ (f : Fmt), f ∈ [fp32, bf16, fp16, e4m3, e5m2] → ∀ (rm x y z : Nat) (mx : Bool), rm < 4 →
     let sgn := 2 ^ (f.e + f.m)
     let inf := if f = e4m3 then 0x7E else (2 ^ f.e - 1) * 2 ^ f.m
     let one := (2 ^ (f.e - 1) - 1) * 2 ^ f.m
     let nan := if f = e4m3 then 0x7F else inf + 2 ^ (f.m - 1)
     let fn1 := [f.sqrt rm, f.recip rm, f.rsqrt rm, fun x => f.exp2 rm (f.decode x), fun x => f.log2 rm (f.decode x),
       fun x => f.ln rm (f.decode x), fun x => f.tanh rm (f.decode x), f.negate, f.magnitude]
     (inf < x % sgn →
       (∀ g ∈ [f.add rm, f.sub rm, f.mul rm, f.div rm], g x y = nan ∧ g y x = nan) ∧ (∀ g ∈ fn1, g x = nan) ∧
       f.fma rm x y z = nan ∧ f.fma rm y x z = nan ∧ f.fma rm y z x = nan ∧ f.pick mx x y = none ∧ f.pick mx y x = none) ∧
     (x < 2 * sgn → x % sgn ≤ inf → f.negate x = (x + sgn) % (2 * sgn) ∧ f.magnitude x = x % sgn) ∧
     (x < 2 * sgn → f.flush false x = x ∧ f.flush true x = if x % sgn < 2 ^ f.m then x / sgn * sgn else x) ∧
     fn1.map (· 0) = [0, inf, inf, one, sgn + inf, sgn + inf, 0, sgn, 0] ∧
     fn1.map (· sgn) = [sgn, sgn + inf, sgn + inf, one, sgn + inf, sgn + inf, sgn, 0, 0] ∧
     f.log2 rm (f.decode one) = 0 ∧ f.ln rm (f.decode one) = 0 ∧
     (sgn < x → x ≤ sgn + inf → ∀ g ∈ [f.sqrt rm, f.rsqrt rm, fun x => f.log2 rm (f.decode x), fun x => f.ln rm (f.decode x)], g x = nan) ∧
     (f ≠ e4m3 → fn1.map (· inf) = [inf, 0, 0, inf, inf, inf, one, sgn + inf, inf] ∧
       f.recip rm (sgn + inf) = sgn ∧ f.exp2 rm (f.decode (sgn + inf)) = 0 ∧ f.tanh rm (f.decode (sgn + inf)) = sgn + one)) ∧
  (∀ (rm x y z : Nat), rm < 4 → fp32Finite x → fp32Finite y → fp32Finite z →
     let u : ℚ := fp32Value x
     let v : ℚ := fp32Value y
     let w : ℚ := fp32Value z
     (u + v ≠ 0 → RoundedOnce rm (u + v) (fp32.add rm x y)) ∧ (u - v ≠ 0 → RoundedOnce rm (u - v) (fp32.sub rm x y)) ∧
     (u * v ≠ 0 → RoundedOnce rm (u * v / 2 ^ 149) (fp32.mul rm x y)) ∧
     (u ≠ 0 → v ≠ 0 → RoundedOnce rm (u / v * 2 ^ 149) (fp32.div rm x y)) ∧
     (u * v / 2 ^ 149 + w ≠ 0 → RoundedOnce rm (u * v / 2 ^ 149 + w) (fp32.fma rm x y z)))

/-- Integer and bitwise vector words (R386, R395): under an ETYPE that the word takes and without a TAN, every active element of
v(d) is written at issue + 4 with the result on the patterns of `w` bits, tangents +0; poisoned when a source element is. What
the write leaves when it lands (R385, R388): each element written reads back, with its poison and its tangents; every other element
of v(d), every other register, the masks and the scalar registers are as before. -/
def Obligations.VectorIntegerWords : Prop :=
  (∀ (s : State) (d a b : R5) (m : BitVec 3), s.cur.eng = 1 → s.curHub.tan = none →
    let c := s.vctx
    let w := c.ety.asInt.bits
    let sg := c.ety.asInt.decode
    let out := fun (j : Instr) (f : Nat → Nat → Nat) =>
      exec j s = .next (afterWord s 4 (.vec (c.emit d.toNat ((c.actives m.toNat).map fun i =>
        ⟨i, f (c.get 0 a.toNat i) (c.get 0 b.toNat i), c.pois a.toNat i || c.pois b.toNat i, (List.range c.k).map fun _ => 0⟩))))
    (5 ≤ s.curHub.shape.ety →
      out (.viadd d a b m) (fun x y => (x + y) % 2 ^ w) ∧ out (.visub d a b m) (fun x y => (x + 2 ^ w - y) % 2 ^ w) ∧
      out (.vimul d a b m) (fun x y => x * y % 2 ^ w) ∧ out (.vimin d a b m) (fun x y => if sg y < sg x then y else x) ∧
      out (.vimax d a b m) (fun x y => if sg x < sg y then y else x) ∧
      out (.viadds d a b m) (fun x y => c.ety.asInt.clamp (sg x + sg y))) ∧
    out (.vand d a b m) (· &&& ·) ∧ out (.vor d a b m) (· ||| ·) ∧ out (.vxor d a b m) (· ^^^ ·) ∧
    out (.vshl d a b m) (fun x y => x * 2 ^ (y % w) % 2 ^ w) ∧ out (.vshr d a b m) (fun x y => x / 2 ^ (y % w)) ∧
    out (.vshra d a b m) (fun x y => wrapInt (sextNat x w / ((2 ^ (y % w) : Nat) : Int)) w)) ∧
  (∀ (c : VCtx) (h : Hub) (d : Nat) (es : List Elt), c.tan.sel = 0 → 0 < c.w → d < 32 → (es.map (·.i)).Nodup →
    (∀ e ∈ es, (e.i + 1) * c.w ≤ 4096) →
    let t := h.vwriteAll (c.emit d es)
    (∀ e ∈ es, t.elemPois d (e.i * c.w) c.w = e.p ∧ t.elem 0 d (e.i * c.w) c.w = (if e.p then 0 else e.v % 2 ^ (8 * c.w)) ∧
      ∀ j x, e.ts[j]? = some x → t.elem (j + 1) d (e.i * c.w) c.w = if e.p then 0 else x % 2 ^ (8 * c.w)) ∧
    (∀ i j, (∀ e ∈ es, e.i ≠ i) → (i + 1) * c.w ≤ 4096 →
      t.elemPois d (i * c.w) c.w = h.elemPois d (i * c.w) c.w ∧ t.elem j d (i * c.w) c.w = h.elem j d (i * c.w) c.w) ∧
    (∀ r j off n, r < 32 → r ≠ d → off + n ≤ 4096 → t.elemPois r off n = h.elemPois r off n ∧ t.elem j r off n = h.elem j r off n) ∧
    t.masks = h.masks ∧ t.s = h.s ∧ t.p = h.p ∧ t.shape = h.shape)

/-- Compares, VSEL and the mask words (R396 to R398): a compare without poisoned active elements writes the bits of its active
elements at issue + 4, and one with a poisoned element raises 0x0A subcode 2 with that element in DETAIL and writes none; VSEL
brings the element selected; the mask words act on every bit of the engine's masks. The relations (R297, R301, R303, R396):
integers as signed or natural numbers, finite FP32 patterns as their values, subnormals as zero under FTZ; with a NaN operand only
not-equal holds. The bits that land are those read then, and no other bit of a mask changes; m0 stays all ones (R274). -/
def Obligations.VectorComparesAndMasks : Prop :=
  (∀ (s : State) (d a b : R5) (e f g m : BitVec 3), s.cur.eng = 1 →
    let c := s.vctx
    let cmp := fun (j : Instr) (rel : Nat) =>
      ((∀ i ∈ c.actives m.toNat, c.pois a.toNat i = false ∧ c.pois b.toNat i = false) →
        exec j s = .next (afterWord s 4 (.maskBits e.toNat ((c.actives m.toNat).map fun i =>
          (i, c.ety.holds c.ftz rel (c.get 0 a.toNat i) (c.get 0 b.toNat i)))))) ∧
      (∀ i, (c.actives m.toNat).find? (fun i => c.pois a.toNat i || c.pois b.toNat i) = some i →
        exec j s = .next (s.engFault 0x0A 2 i 1 1 []))
    let bit := fun (j : Instr) (v : Nat → Bool) =>
      exec j s = .next (afterWord s 4 (.maskBits e.toNat ((List.range c.len).map fun i => (i, v i))))
    let x := fun i => c.h.maskBit f.toNat i
    let y := fun i => c.h.maskBit g.toNat i
    (s.curHub.tan = none →
      cmp (.vcmpeq e a b m) 0 ∧ cmp (.vcmpne e a b m) 1 ∧ cmp (.vcmplt e a b m) 2 ∧ cmp (.vcmple e a b m) 3 ∧
      bit (.vmand e f g) (fun i => x i && y i) ∧ bit (.vmor e f g) (fun i => x i || y i) ∧
      bit (.vmxor e f g) (fun i => x i != y i) ∧ bit (.vmnot e f) (fun i => !x i)) ∧
    (c.tan.cc = false → (c.tan.sel ≠ 0 → c.tan.ca = false ∧ c.tan.cb = false) →
      exec (.vsel d a b e m) s = .next (afterWord s 4 (.vec (c.emit d.toNat ((c.actives m.toNat).map fun i =>
        if c.h.maskBit e.toNat i then
          ⟨i, c.src a.toNat i, c.pois a.toNat i, c.ks.map fun t => if c.tan.ca then 0 else c.get t a.toNat i⟩
        else ⟨i, c.src b.toNat i, c.pois b.toNat i, c.ks.map fun t => if c.tan.cb then 0 else c.get t b.toNat i⟩)))))) ∧
  (∀ (ty x y : Nat) (z : Bool), 5 ≤ ty → ty ≤ 10 →
    let w := if ty < 7 then 32 else if ty < 9 then 16 else 8
    let v := fun x => if ty % 2 = 1 then sextNat x w else ((x % 2 ^ w : Nat) : Int)
    x < 2 ^ w → y < 2 ^ w →
    (etype ty).holds z 0 x y = decide (v x = v y) ∧ (etype ty).holds z 1 x y = decide (v x ≠ v y) ∧
    (etype ty).holds z 2 x y = decide (v x < v y) ∧ (etype ty).holds z 3 x y = decide (v x ≤ v y)) ∧
  (∀ (x y : Nat) (z : Bool), fp32Finite x → fp32Finite y →
    let v := fun x => if z = true ∧ x % 2 ^ 31 < 2 ^ 23 then 0 else fp32Value x
    (etype 0).holds z 0 x y = decide (v x = v y) ∧ (etype 0).holds z 1 x y = decide (v x ≠ v y) ∧
    (etype 0).holds z 2 x y = decide (v x < v y) ∧ (etype 0).holds z 3 x y = decide (v x ≤ v y)) ∧
  (∀ (x y rel : Nat) (z : Bool), 0x7F800000 < x % 2 ^ 31 ∨ 0x7F800000 < y % 2 ^ 31 → rel < 4 → (etype 0).holds z rel x y = decide (rel = 1)) ∧
  (∀ (h : Hub) (e : Nat) (l : List (Nat × Bool)), (l.map (·.1)).Nodup → (∀ x ∈ l, x.1 < 4096) →
    (∀ x ∈ l, (h.maskWrite e l).maskBit e x.1 = (decide (e = 0) || x.2)) ∧
    (∀ m i, i < 4096 → (m ≠ e ∨ ∀ x ∈ l, x.1 ≠ i) → (h.maskWrite e l).maskBit m i = h.maskBit m i) ∧
    (h.maskWrite e l).vbytes = h.vbytes ∧ (h.maskWrite e l).s = h.s)

/-- Conversions and reductions (R299, R309 to R311, R315, R399 to R403, R413), under a TAN that the word takes and with every tangent
of the launch: VCVT writes converted elements at issue + 6, VPACK MX blocks and their scales at issue + 8, each tangent with a scale
of its own, VUNPACK values at issue + 6, VPRUNE24 the two larger of four with their poison and tangents and their places at issue + 8;
the reductions write one element or 32-bit slot a segment at issue + 12: the sum of the fixed tree, the greatest, the least, every
prefix sum, the place of the greatest (0xFFFF_FFFF where none is present), the count of nonzero elements, the map of them. A result
is poisoned when a present element of its segment is. A conversion to or from an integer type, and a constant operand, gives tangent
+0; a NaN tangent of a reduction is canonical. What the conversions give (R299): NaN is 0 as
an integer and infinities are the ends of its range; between integers the value wraps; an integer is rounded once to FP32; a finite
FP32 value stays itself. The tree (R309) combines adjacent pairs level by level, an absent member passing its partner up. The two
positions that VPRUNE24 keeps hold the largest keys, the lower index on a tie (R305, R402). -/
def Obligations.VectorConversionsAndReductions : Prop :=
  (∀ (s : State) (d a b t : R5) (o : BitVec 1) (m : BitVec 3) (r : BitVec 2), s.cur.eng = 1 →
    let c := s.vctx
    let out := fun (j : Instr) (l : Nat) (ws : List VWrite) => exec j s = .next (afterWord s l (.vec ws))
    let segs := List.range c.segs
    let bad := fun q => (c.present m.toNat q).any fun i => c.pois a.toNat i
    let opt := fun {α : Type} (q : Nat) (v : Nat → α) => (c.segment q).map fun i => if c.h.maskBit m.toNat i then some (v i) else none
    let live := c.ety.isFp && !c.tan.ca
    let tans := fun (f : Nat → Nat) => c.ks.map fun u => if live then c.canonTan (f u) else 0
    (c.tan.cb = false → c.tan.cc = false → (c.tan.sel ≠ 0 → c.tan.ca = false) →
      (let dst := etype t.toNat
       let cv := fun x => convertFtz c.ety dst r.toNat (ovfOf o.toNat) c.ftz x
       out (.vcvt d a t o m r) 6 (((c.actives m.toNat).filter fun i => decide (i < c.len / dst.bytes)).flatMap fun i =>
         c.writes d.toNat (i * dst.bytes) dst.bytes (cv (c.src a.toNat i)) (c.pois a.toNat i)
           (c.ks.map fun u => if live && dst.isFp then cv (c.get u a.toNat i) else 0))) ∧
      (let sum := fun q u => (tree c.plus (opt q fun i => c.red u a.toNat i)).getD 0
       out (.vrsum d a m) 12 (c.emit d.toNat (segs.map fun q => ⟨q, sum q c.plane, bad q, tans (sum q)⟩))) ∧
      (∀ max : Bool, out (if max then .vrmax d a m else .vrmin d a m) 12 (c.emit d.toNat (segs.map fun q =>
        let x := (tree (c.best max) (opt q fun i => (c.red c.plane a.toNat i, c.ks.map fun u => c.red u a.toNat i))).getD
          (if c.ety.isFp then c.ety.fmt.nan else 0, c.ks.map fun _ => 0)
        ⟨q, x.1, bad q, if live then x.2.map c.canonTan else c.ks.map fun _ => 0⟩))) ∧
      (let scan := fun q u => scanFrom c.plus none ((c.present m.toNat q).map fun i => c.red u a.toNat i)
       out (.vscan d a m) 12 (c.emit d.toNat (segs.flatMap fun q => (c.present m.toNat q).zipIdx.map fun x =>
         ⟨x.1, (scan q c.plane).getD x.2 0, bad q, c.ks.map fun u => if live then c.canonTan ((scan q u).getD x.2 0) else 0⟩)))) ∧
    (s.curHub.tan = none →
      (c.h.shape.ety < 3 →
        let f := packFmt t.toNat
        let n := blockBytes f
        out (.vpack d a t b r) 8 ((List.range (ceilDiv c.vl 32)).flatMap fun g =>
          let p := (List.range 32).any fun j => decide (32 * g + j < c.vl) && c.pois a.toNat (32 * g + j)
          let pack := fun (u : Nat) (p : Option Bool) =>
            let x := mxPack f r.toNat (c.block u a.toNat g)
            [(⟨d.toNat, u, n * g, leBytes n (x.2.foldr (fun v acc => v + acc * 2 ^ f.width) 0), p, 255⟩ : VWrite),
              ⟨b.toNat, u, g, leBytes 1 x.1, p, 255⟩]
          pack 0 (some p) ++ c.ks.flatMap fun u => pack u none) ∧
        out (.vunpack d a t b) 6 (c.emit d.toNat ((List.range c.vl).map fun i =>
          let lo := n * (i / 32) + i % 32 * f.width / 8
          let hi := n * (i / 32) + (i % 32 * f.width + f.width - 1) / 8
          let p := c.h.elemPois a.toNat lo (hi - lo + 1) || c.h.vbytePois b.toNat (i / 32)
          let v := fun u => c.unpacked f u a.toNat b.toNat (i / 32) (i % 32)
          ⟨i, if p then 0 else v 0, p, c.ks.map v⟩))) ∧
      (c.h.shape.ety = 3 ∨ c.h.shape.ety = 4 →
        let two := fun g => keepTwo fun p => c.key m.toNat a.toNat (4 * g + p)
        let nibble := fun g => if g < ceilDiv c.vl 4 then (two g).1 + 4 * (two g).2 else 0
        let spoiled := fun g => decide (g < ceilDiv c.vl 4) &&
          (List.range 4).any fun p => c.active m.toNat (4 * g + p) && c.pois a.toNat (4 * g + p)
        let keep := fun (off i : Nat) =>
          if c.active m.toNat i then c.writes d.toNat off 1 (c.get 0 a.toNat i) (c.pois a.toNat i) (c.ks.map fun u => c.get u a.toNat i)
          else c.writes d.toNat off 1 0 false (c.ks.map fun _ => 0)
        out (.vprune24 d a b m) 8
          (((List.range (ceilDiv c.vl 4)).flatMap fun g => keep (2 * g) (4 * g + (two g).1) ++ keep (2 * g + 1) (4 * g + (two g).2)) ++
          (List.range (ceilDiv (ceilDiv c.vl 4) 2)).map fun q =>
            ⟨b.toNat, 0, q, leBytes 1 (nibble (2 * q) + 16 * nibble (2 * q + 1)), some (spoiled (2 * q) || spoiled (2 * q + 1)),
              if 2 * q + 1 < ceilDiv c.vl 4 then 255 else 15⟩)) ∧
      (let slot := fun (q v : Nat) =>
         if 4 * q + 4 ≤ c.len then c.writes d.toNat (4 * q) 4 v (bad q) (c.ks.map fun _ => 0) else []
       out (.vargmax d a m) 12 (segs.flatMap fun q =>
         slot q (match c.present m.toNat q with | [] => 0xFFFFFFFF | i :: r => c.argmax a.toNat r i)) ∧
       out (.vpopnz d a m) 12 (segs.flatMap fun q =>
         slot q ((c.present m.toNat q).countP fun i => c.ety.nonzero (c.get 0 a.toNat i)))) ∧
      out (.vnzmap d a m) 12 (((List.range (ceilDiv c.vl 8)).map fun q =>
        let n := min 8 (c.vl - 8 * q)
        ⟨d.toNat, 0, q, leBytes 1 (ofBits ((List.range n).map fun j =>
          c.active m.toNat (8 * q + j) && c.ety.nonzero (c.get 0 a.toNat (8 * q + j)))),
          some ((c.actives m.toNat).any fun i => c.pois a.toNat i), 2 ^ n - 1⟩) ++
        c.ks.map fun u => ⟨d.toNat, u, 0, List.replicate (roundUp (ceilDiv c.vl 8) c.w) 0, none, 255⟩))) ∧
  (∀ (ty t2 rm x : Nat) (o : Ovf), 5 ≤ ty → ty ≤ 10 → 5 ≤ t2 → t2 ≤ 10 → rm < 4 →
    let bits := fun ty : Nat => if ty < 7 then 32 else if ty < 9 then 16 else 8
    let w := bits ty
    let v := if t2 % 2 = 1 then sextNat x (bits t2) else ((x % 2 ^ bits t2 : Nat) : Int)
    (0x7F800000 < x % 2 ^ 31 → convert (etype 0) (etype ty) rm o x = 0) ∧
    convert (etype 0) (etype ty) rm o 0x7F800000 = (if ty % 2 = 1 then 2 ^ (w - 1) - 1 else 2 ^ w - 1) ∧
    convert (etype 0) (etype ty) rm o 0xFF800000 = (if ty % 2 = 1 then 2 ^ (w - 1) else 0) ∧
    (convert (etype t2) (etype ty) rm o x : Int) = v % 2 ^ w ∧
    (v ≠ 0 → RoundedOnce rm ((v : ℚ) * 2 ^ 149) (convert (etype t2) (etype 0) rm o x)) ∧
    (fp32Finite x → convert (etype 0) (etype 0) rm o x = x)) ∧
  (∀ (f : Nat → Nat → Nat) (l : List (Option Nat)), 1 < l.length →
    let pair := fun (u v : Option Nat) => match u, v with
      | some x, some y => some (f x y)
      | none, y => y
      | x, none => x
    tree f l = tree f ((List.range ((l.length + 1) / 2)).map fun i => pair (l.getD (2 * i) none) (l.getD (2 * i + 1) none)) ∧
    ∀ x, tree f [x] = x) ∧
  tree (fp32.add 0) [some 0x4B800000, some 0x3F800000, some 0x3F800000, some 0x3F800000] = some 0x4B800001 ∧
  (∀ key : Nat → Nat,
    let k := keepTwo key
    k.1 < k.2 ∧ k.2 < 4 ∧ ∀ p, p < 4 → p ≠ k.1 → p ≠ k.2 →
      key p ≤ key k.1 ∧ key p ≤ key k.2 ∧ (key p = key k.1 → k.1 < p) ∧ (key p = key k.2 → k.2 < p))

/-- Permutes, random numbers and tangent access (R404, R407, R414), without a TAN: element i of v(d) takes the element of v(a)
that the index names, or 0 where it lies outside VL′, with its poison, that of the index and its tangents; VRAND under a 32-bit
type takes word i mod 4 of the Philox block at counter + i / 4; VTGET reads shadow b, 0 above k, and VTSET writes it, nothing
above k. A word of a block is a number of 32 bits, and the block of counter 0 under key 0 is the one that R407 gives. What VBCAST
writes reads back when it lands: every active element of v(d) is the element chosen. -/
def Obligations.VectorMoves : Prop :=
  (∀ (s : State) (d a b : R5) (e m : BitVec 3), s.cur.eng = 1 → s.curHub.tan = none →
    let c := s.vctx
    let word := fun (r q : Nat) => c.h.elem 0 r (4 * q) 4
    let out := fun (j : Instr) (l : Nat) (f : Nat → Elt) =>
      exec j s = .next (afterWord s l (.vec (c.emit d.toNat ((c.actives m.toNat).map f))))
    let perm := fun (j : Instr) (ix : Nat → Int) (p : Nat → Bool) =>
      out j 6 fun i =>
        if 0 ≤ ix i ∧ ix i < c.vl then
          ⟨i, c.get 0 a.toNat (ix i).toNat, c.pois a.toNat (ix i).toNat || p i, c.ks.map fun t => c.get t a.toNat (ix i).toNat⟩
        else ⟨i, 0, p i, c.ks.map fun _ => 0⟩
    let hp := c.h.elemPois b.toNat 0 4
    perm (.vperm d a b m) (fun i => c.get 0 b.toNat i) (fun i => c.pois b.toNat i) ∧
    perm (.vslide d a b m) (fun i => i + sextNat (word b.toNat 0) 32) (fun _ => hp) ∧
    perm (.vbcast d a b m) (fun _ => word b.toNat 0) (fun _ => hp) ∧
    (c.h.shape.ety = 0 ∨ c.h.shape.ety = 5 ∨ c.h.shape.ety = 6 →
      out (.vrand d a b m) 12 fun i =>
        ⟨i, wordOf (philox 10 ((word a.toNat 0 + i / 4) % 2 ^ 32, word a.toNat 1, word a.toNat 2, word a.toNat 3)
          (word b.toNat 0) (word b.toNat 1)) (i % 4), c.h.elemPois a.toNat 0 16 || c.h.elemPois b.toNat 0 8, c.ks.map fun _ => 0⟩) ∧
    out (.vtget d a e m) 4 (fun i => ⟨i, if c.k < e.toNat then 0 else c.h.elem e.toNat a.toNat (i * c.w) c.w, c.pois a.toNat i, c.ks.map fun _ => 0⟩) ∧
    exec (.vtset d a e m) s = .next (afterWord s 4 (.vec (if c.k < e.toNat then [] else (c.actives m.toNat).map fun i =>
      ⟨a.toNat, e.toNat, i * c.w, leBytes c.w (c.get 0 d.toNat i), if c.pois d.toNat i then some true else none, 255⟩)))) ∧
  (∀ (n : Nat) (x : Nat × Nat × Nat × Nat) (y z i : Nat), x.1 < 2 ^ 32 → x.2.1 < 2 ^ 32 → x.2.2.1 < 2 ^ 32 → x.2.2.2 < 2 ^ 32 →
    y < 2 ^ 32 → z < 2 ^ 32 → wordOf (philox n x y z) i < 2 ^ 32) ∧
  philox 10 (0, 0, 0, 0) 0 0 = (0x6627E8D5, 0xE169C58D, 0xBC57AC4C, 0x9B00DBD8) ∧
  (∀ (s : State) (d a b : R5) (m : BitVec 3), s.cur.eng = 1 → s.curHub.tan = none → s.cur.hub < 8 → (s.kind s.cur.die).hasEng 1 = true →
    let c := s.vctx
    let j := c.h.elem 0 b.toNat 0 4
    c.h.elemPois b.toNat 0 4 = false → j < c.vl → c.pois a.toNat j = false →
    ∃ t ws, exec (.vbcast d a b m) s = .next t ∧ t.agenda = dueOf s 6 (.vec ws) :: s.agenda ∧
      ∀ i ∈ c.actives m.toNat,
        ((t.land (dueOf s 6 (.vec ws))).curHub).elem 0 d.toNat (i * c.w) c.w = c.h.elem 0 a.toNat (j * c.w) c.w)

/-- VLD and VST, the shape words, TAN and VNOP (R405 to R411), without a TAN: for a clean pointer whose primal access and planes
translate and lie in the declared sets, VLD samples at issue + 2 for a write at issue + 5, and VST writes every plane at issue +
3 and its operation on tl.v ends then; SHAPE and SHAPER set the shape register at issue + 1; VNOP holds n + 1 slots; TAN stays
for the next word and issues with it. -/
def Obligations.VectorMemoryAndShape : Prop :=
  ∀ (s : State) (d a : R5) (o : BitVec 15) (t : BitVec 4) (f : BitVec 1) (g : BitVec 4) (l : BitVec 13) (n : BitVec 16) (x : BitVec 3)
    (i j k : BitVec 1), s.cur.eng = 1 → s.curHub.tan = none →
    let c := s.vctx
    let p := c.h.elem 0 a.toNat 0 4
    let z := c.vl * c.w
    let e := s.curHub.stream 1
    (∀ as, c.h.elemPois a.toNat 0 4 = false → 0 < z →
      (s.vecAddrs .read (p + 64 * o.toNat) z c.ks = .ok as →
        exec (.vld d a o) s = .next (afterWord s 2 (.sample (as.headD 0) z
          (.vec s.cur.die s.cur.hub d.toNat c.w c.vl as 0 ((s.die s.cur.die).cad + 5))))) ∧
      (s.vecAddrs .write (p + 64 * o.toNat) z c.ks = .ok as →
        ∃ t, exec (.vst d a o) s = .next t ∧
          (∀ q y, as[q]? = some y → dueOf s 3 (.write y (((List.range c.vl).map fun i => leBytes c.w (c.get q d.toNat i)).flatten) false)
            ∈ t.agenda.map fun u => { u with seq := s.seq }) ∧
          (t.curHub.timeline 1).issued = (s.curHub.timeline 1).issued + 1 ∧
          dueOf s 3 (.opEnd 1 ((s.curHub.timeline 1).issued + 1)) ∈ t.agenda.map (fun u => { u with seq := s.seq }) ∧ SameMemory s t)) ∧
    exec (.shape t f g l) s = .next (afterWord s 1 (.shape ⟨l.toNat, g.toNat, decide (f = 1), t.toNat⟩)) ∧
    (c.h.elemPois a.toNat 0 4 = false → bits p 3 0 ≤ 10 → bits p 6 4 = 0 → bits p 15 12 = 0 →
      exec (.shaper a) s = .next (afterWord s 1 (.shape ⟨bits p 31 16, bits p 11 8, p.testBit 7, bits p 3 0⟩))) ∧
    exec (.vnop n) s = .next (afterSlots s (n.toNat + 1)) ∧
    (e.pos + 1 < (s.curHub.segment 1 (e.seg.getD 0)).2 →
      ∃ t, exec (.tan x i j k) s = .next t ∧ t.curHub.tan = some ⟨x.toNat, decide (i = 1), decide (j = 1), decide (k = 1)⟩ ∧
        (t.curHub.stream 1).pos = e.pos + 1 ∧ (t.curHub.stream 1).next = e.next ∧ SameMemory s t)

/-! ### The matrix engine -/

/-- The matrix words (R258, R276 to R282, R415 to R435), in the states where the rules give them their effect: MNOP holds slots;
MMODE, MSCMODE, MZERO and MSWAP take effect at issue + 1; MSETA moves the drain base; MLOADW samples column 0 at issue + 14, MMETA
its register at issue + 2, MSCQ its entries at issue + 2; MRUN and MRUN.s outside the MX modes enter row 0 and sample it at issue
+ 2, MRUN.s with the pair of metadata registers as it stands at issue; MDRAIN without a scale block performs its first row at
issue + 16 and holds a slot a row. Words that end on tl.m take the next number. Registers and memory stay as they are. What the
matrix operations leave in the array (R258, R277, R280, R417, R423, R431): MZERO clears one accumulator, working and committed,
and no other; MSWAP exchanges the planes and changes neither; the modes take their values and change nothing else; a step that has
written its last row commits: its rows of the committed copy become the working ones', every other element stays, and its number
ends on tl.m in the next scy. -/
def Obligations.MatrixWords : Prop :=
  (∀ (s : State) (n : BitVec 2) (r r0 : BitVec 8) (m : BitVec 4) (x y : BitVec 1) (a w f : BitVec 4) (t12 : BitVec 12) (t15 : BitVec 15)
     (e : BitVec 17) (e20 : BitVec 20) (q : BitVec 9) (n16 : BitVec 16), s.cur.eng = 2 → s.cur.hub < 8 →
     let arr := s.curArr
     let now := (s.die s.cur.die).cad
     let nA := s.cur.hub / 2
     let base := flat (homeScratch (s.kind s.cur.die) s.cur.die s.cur.hub) 0
     let counts := fun (t : State) => (t.curHub.timeline 0).issued = (s.curHub.timeline 0).issued + 1
     let lists := fun (t : State) (l : Nat) (x : MatAct) =>
       dueOf s l (.mat x) ∈ t.agenda.map fun u => { u with seq := s.seq, detail := s.wordDetail }
     let rows := rowOffsets (e.toNat * 64) (t12.toNat * 64) (r.toNat + 1)
     let drains := rowOffsets (e.toNat * 64) (t15.toNat * 64) (r.toNat + 1)
     let step := fun (md : Option Nat) =>
       let u := s.matStep n.toNat (r.toNat + 1) (base + e.toNat * 64) (t12.toNat * 64) md
       match md with
       | none => u
       | some g =>
         let pair := fun (k : Nat) => decide (g * 8192 ≤ k ∧ k < (g + 2) * 8192)
         { u with nib := arr.md.filter fun e => pair e.1, nibPois := arr.mdpois.filter fun e => pair e.1 }
     let runs := fun (i : Instr) (md : Option Nat) =>
       s.matCheck .read rows (rowBytes arr.af arr.wf) true = none → isSparse arr.wf = md.isSome → s.stepClash n.toNat = none →
       (md.isSome = true → arr.pairLegal m.toNat = true) → (arr.amx = false ∨ arr.epi = true) →
       ∃ t, exec i s = .next t ∧ counts t ∧ t.curHub.runs = s.curHub.runs + 1 ∧ t.curArr.steps = arr.steps ++ [(step md, 0)] ∧
         t.curArr.acc = arr.acc ∧ lists t 2 (.sample (step md) 0 arr.activeNo []) ∧ SameMemory s t
     exec (.mnop n16) s = .next (afterSlots s (n16.toNat + 1)) ∧
     (legalMode x.toNat a.toNat w.toNat = true →
       exec (.mmode x a w) s = .next (afterWord s 1 (.mat (.mode s.cur.die nA a.toNat w.toNat (decide (x = 1)))))) ∧
     (∃ t, exec (.mscmode y) s = .next t ∧ t.curHub.sq = [] ∧ t.agenda = dueOf s 1 (.mat (.scaleMode s.cur.die nA (decide (y = 1)))) :: s.agenda ∧
       OnlyHub s t s.cur.die s.cur.hub) ∧
     (∃ t, exec (.mseta e) s = .next t ∧ t.curHub.drainBase = 64 * e.toNat ∧ t.agenda = s.agenda ∧ OnlyHub s t s.cur.die s.cur.hub) ∧
     ((∀ u ∈ arr.steps, u.1.acc ≠ n.toNat) → exec (.mzero n) s = .next (afterWord s 1 (.mat (.zero s.cur.die nA n.toNat)))) ∧
     (arr.loadingAt now = false → exec .mswap s = .next (afterWord s 1 (.mat (.swap s.cur.die nA)))) ∧
     (let from_ := flat (homeWeight s.cur.die nA) (e.toNat * 256)
      e.toNat * 256 + 256 * colBytes arr.wf ≤ Config.weightSize →
       s.violation s.cur.die s.cur.hub 2 .read from_ (256 * colBytes arr.wf) = none →
       (∀ l, arr.shadow.lastEntry = some l → l + 264 ≤ now + 16) → arr.loadingAt now = false →
       ∃ t, exec (.mloadw e) s = .next t ∧ counts t ∧ t.curArr.loading = some (now + 271) ∧
         lists t 14 (.loadSample (s.matStep 0 0 from_ 0 none) 0) ∧ SameMemory s t) ∧
     (s.matCheck .read [e.toNat * 64] 8192 false = none →
       ∃ t, exec (.mmeta m e) s = .next t ∧ counts t ∧ lists t 2 (.mdSample (s.matStep 0 0 (base + e.toNat * 64) 0 none) m.toNat) ∧
         OnlyHub s t s.cur.die s.cur.hub) ∧
     (s.matCheck .read [e20.toNat * 8] (8 * (q.toNat + 1)) false = none →
       (arr.epi = true ∨ s.curHub.sq.length + s.scqComing s.cur.die s.cur.hub + (q.toNat + 1) ≤ if s.period = 2 then 256 else 512) →
       exec (.mscq q e20) s = .next (afterWords s 2
         (.mat (.scqSample (s.matStep 0 0 (base + e20.toNat * 8) 0 none) (q.toNat + 1))) 2 1)) ∧
     runs (.mrun n r t12 e) none ∧ runs (.mrunS n r m t12 e) (some m.toNat) ∧
     (s.matCheck .write drains (256 * drainWidth f.toNat) true = none → (arr.epi = false ∨ arr.af = 4) →
       ∃ t d out p, exec (.mdrain n r0 r f t15 e) s = .next t ∧ counts t ∧ lists t 16 (.drainWrite d 0 out p) ∧
         d.base = base + e.toNat * 64 ∧ d.stride = t15.toNat * 64 ∧ d.row0 = r0.toNat ∧ d.rows = r.toNat + 1 ∧ d.acc = n.toNat ∧
         out.head? = some (((List.range 256).map fun j => leBytes (drainWidth f.toNat) (drainConvert (arr.af == 4) f.toNat
           (if arr.accPois 1 n.toNat r0.toNat j then 0 else arr.accAt 1 n.toNat 0 r0.toNat j) (some 0))).flatten) ∧
         p = (List.range 256).map (fun j => arr.accPois 1 n.toNat r0.toNat j) ∧
         (t.curHub.stream 2).next = now + (r.toNat + 1) * s.period ∧ OnlyHub s t s.cur.die s.cur.hub)) ∧
  (∀ (s : State) (d a n k af wf : Nat) (b : Bool),
     (let t := s.landMat (.zero d a n)
      (∀ c, c < 2 → ∀ j i v, n < 4 → v < 5 → i < 256 → j < 256 →
        (t.arr d a).accAt c n v i j = 0 ∧ (t.arr d a).accPois c n i j = false) ∧
      (∀ c m v i j, m < 4 → m ≠ n → n < 4 → v < 5 → i < 256 → j < 256 →
        (t.arr d a).accAt c m v i j = (s.arr d a).accAt c m v i j ∧ (t.arr d a).accPois c m i j = (s.arr d a).accPois c m i j) ∧
      (t.arr d a).plane0 = (s.arr d a).plane0 ∧ (t.arr d a).plane1 = (s.arr d a).plane1 ∧ SameMemory s t ∧ t.hubs = s.hubs) ∧
     (let t := s.landMat (.swap d a)
      (t.arr d a).active = (s.arr d a).shadow ∧ (t.arr d a).shadow = (s.arr d a).active ∧ (t.arr d a).acc = (s.arr d a).acc ∧
        SameMemory s t ∧ t.hubs = s.hubs) ∧
     (let t := s.landMat (.mode d a af wf b)
      (t.arr d a).af = af ∧ (t.arr d a).wf = wf ∧ (t.arr d a).amx = b ∧ (t.arr d a).acc = (s.arr d a).acc ∧ SameMemory s t ∧ t.hubs = s.hubs) ∧
     (let t := s.landMat (.scaleMode d a b)
      (t.arr d a).epi = b ∧ (t.arr d a).acc = (s.arr d a).acc ∧ SameMemory s t ∧ t.hubs = s.hubs) ∧
     (∀ x, s.arg.die = d → s.arg.m = a → s.arg.n = k →
       (s.arr d a).steps.find? (fun x => x.1.hub == s.arg.hub && x.1.id == k && x.1.rows == x.2) = some x →
       x.1.rows ≤ 256 → ∃ t, exec .matrixStepCommit s = .next t ∧
         (∀ v i j, v < 5 → i < 256 → j < 256 → x.1.acc < 4 →
           (t.arr d a).accAt 1 x.1.acc v i j = (s.arr d a).accAt (if i < x.1.rows then 0 else 1) x.1.acc v i j) ∧
         (∀ m v i j, v < 5 → i < 256 → j < 256 → x.1.acc < 4 → m < 4 → m ≠ x.1.acc →
           (t.arr d a).accAt 1 m v i j = (s.arr d a).accAt 1 m v i j) ∧
         t.agenda = ⟨d, (s.die d).cad + 1, (s.hub d s.arg.hub).lpos, s.arg.hub, 2, s.seq, .opEnd 0 x.1.num, none, 0⟩ :: s.agenda ∧
         SameMemory s t))

/-! ### Transfer, index and drafting -/

/-- The transfer words (R436, R439, R440, R441, R447): in a counted launch a word waits for the end of the one before it, and
XFZIP and XFUNZIP wait while their port holds an entry; a word that may issue has its descriptor sampled at issue + 2, with the
handles and k.tstride as they stand at issue, and holds 3 slots before the slots its dimensions take; XFNOP holds n + 1. A word
that ends with its pieces performed advances its timeline in the next scy; one that compresses pushes its reply, and a failed
destination sets FAIL. A chunk performed on its own die (R439, R442, R446, R453, R454): every element's bytes stand at its
destination address in memory, and no byte outside them changes; the fill of XFFILL in a word without tangents is its value. -/
def Obligations.TransferWords : Prop :=
  (∀ (s : State) (e n : BitVec 16), s.cur.eng = 3 ∨ s.cur.eng = 4 → s.cur.hub < 8 →
     let q := if s.cur.eng = 3 then 2 else 3
     let h := s.curHub
     let x := h.stream s.cur.eng
     let out := fun (i : Instr) (op : Nat) =>
       exec i s = .next (afterWords s 2 (.xf (.desc s.cur.die s.cur.hub s.cur.eng op e.toNat (s.die s.cur.die).cad (x.seg.getD 0) x.pos
         ⟨h.handles, h.tstride.toNat, h.ranges s.cur.eng, s.slotTags⟩)) 1 3)
     let waits := fun (i : Instr) => exec i s = .next s.holdWord
     (h.launch.timed = false → (h.timeline q).count < (h.timeline q).issued →
       waits (.xfnop n) ∧ waits (.xfcopy e) ∧ waits (.xfcast e) ∧ waits (.xfzip e) ∧ waits (.xfunzip e) ∧ waits (.xffill e) ∧
       waits (.xfsend e) ∧ waits (.xfrecv e) ∧ waits (.xfvirt e)) ∧
     (h.portFull s.cur.eng = true → waits (.xfzip e) ∧ waits (.xfunzip e)) ∧
     (h.launch.timed = true ∨ (h.timeline q).issued ≤ (h.timeline q).count →
       exec (.xfnop n) s = .next (afterSlots s (n.toNat + 1)) ∧
       out (.xfcopy e) 2 ∧ out (.xfcast e) 3 ∧ out (.xffill e) 6 ∧ out (.xfsend e) 7 ∧ out (.xfrecv e) 8 ∧ out (.xfvirt e) 9 ∧
       (h.portFull s.cur.eng = false → out (.xfzip e) 4 ∧ out (.xfunzip e) 5)) ∧
     (∀ u : State, u.arg.hub < 8 → (u.hub u.arg.die u.arg.hub).stream u.arg.eng = { ((u.hub u.arg.die u.arg.hub).stream u.arg.eng) with fails := [] } →
       (u.arg.ok = true → ∃ t, exec .transferWordEnd u = .next t ∧
         t.agenda = ⟨u.arg.die, (u.die u.arg.die).cad + 1, (u.hub u.arg.die u.arg.hub).lpos, u.arg.hub, u.arg.eng, u.seq,
           .opEnd (timelineOf u.arg.eng) u.arg.n, none, 0⟩ :: u.agenda ∧ OnlyHub u t u.arg.die u.arg.hub) ∧
       (u.arg.ok = false → (u.hub u.arg.die u.arg.hub).portFull u.arg.eng = false →
         (u.hub u.arg.die u.arg.hub).replies.length < 16 → ∃ t, exec .transferWordEnd u = .next t ∧
         (t.hub u.arg.die u.arg.hub).replies = (u.hub u.arg.die u.arg.hub).replies ++
           [⟨u.arg.value, u.arg.eng, u.arg.m, u.arg.part == 1, u.arg.n⟩] ∧ OnlyHub u t u.arg.die u.arg.hub))) ∧
  (∀ (s : State) (t : XfWord) (c base : Nat) (bs : List Byte) (p : Bool), t.k = 0 → 0 < t.d.dw t.op →
     bs.length = t.d.dw t.op * (t.elems c).length →
     (∀ (n i j : Nat) (b : Byte), (t.elems c)[n]? = some i → j < t.d.dw t.op → bs[n * t.d.dw t.op + j]? = some b →
       (∀ m i', m ≠ n → (t.elems c)[m]? = some i' →
         t.dstAt base i' 0 + t.d.dw t.op ≤ t.dstAt base i 0 ∨ t.dstAt base i 0 + t.d.dw t.op ≤ t.dstAt base i' 0) →
       (s.xfWrite t c base [bs] p).byteAt (t.dstAt base i 0 + j) = b) ∧
     (∀ a, (∀ i ∈ t.elems c, a < t.dstAt base i 0 ∨ t.dstAt base i 0 + t.d.dw t.op ≤ a) →
       (s.xfWrite t c base [bs] p).byteAt a = s.byteAt a) ∧
     t.fill c = [((t.elems c).map fun _ => leBytes (2 ^ t.d.esz) t.d.aux.toNat).flatten] ∧ (s.xfWrite t c base [bs] p).hubs = s.hubs)

/-- The index words and their commands (R285, R288, R455 to R461): a word waits while the queue is full, or while its port holds
an entry and its command would push one; otherwise it enters the queue at its issue with the sets in force, and its block is
sampled at issue + 2; IXNOP holds n + 1 slots. A command with a checked block starts when none runs: its operands are sampled at
t0 + 2 and it ends at t0 + 8 + X; at its end the number ends on tl.ix, or its reply is pushed. -/
def Obligations.IndexWordsAndCommands : Prop :=
  ∀ (s : State) (e : BitVec 17) (n : BitVec 16), s.cur.eng = 5 → s.cur.hub < 8 →
    let h := s.curHub
    let out := fun (i : Instr) (op : Nat) =>
      (16 ≤ h.ixLoad → exec i s = .next s.holdWord) ∧
      (h.portFull 5 = true → s.ixWillReply op (64 * e.toNat) = true → exec i s = .next s.holdWord) ∧
      (h.ixLoad < 16 → h.portFull 5 = false ∨ s.ixWillReply op (64 * e.toNat) = false →
      ∃ t, exec i s = .next t ∧ t.curHub.ixq = h.ixq ++ [{ op := op, issue := (s.die s.cur.die).cad, num := 0
                                                           seg := (h.stream 5).seg.getD 0, idx := (h.stream 5).pos
                                                           off := 64 * e.toNat, sets := h.ranges 5
                                                           others := s.othersAtomic s.cur.die s.cur.hub }] ∧
        t.agenda = dueOf s 2 (.ix (.block s.cur.die s.cur.hub (s.die s.cur.die).cad)) :: s.agenda ∧
        (t.curHub.stream 5).pos = (h.stream 5).pos + 1 ∧ SameRegisters h t.curHub ∧ OnlyHub s t s.cur.die s.cur.hub)
    exec (.ixnop n) s = .next (afterSlots s (n.toNat + 1)) ∧
    out (.ixgather e) 2 ∧ out (.ixscatter e) 3 ∧ out (.ixscadd e) 4 ∧ out (.ixcount e) 5 ∧ out (.ixcompact e) 6 ∧ out (.ixhist e) 7 ∧
    out (.ixamo e) 8 ∧ out (.ixcas e) 9 ∧
    (∀ u : State, u.arg.hub < 8 →
      let g := u.hub u.arg.die u.arg.hub
      let now := (u.die u.arg.die).cad
      (∀ c r b, g.ixrun = none → g.ixq = c :: r → c.block = some b →
        ∃ t, exec .indexCommandStart u = .next t ∧ (t.hub u.arg.die u.arg.hub).ixq = r ∧
          (t.hub u.arg.die u.arg.hub).ixrun = some { cmd := c, b := b, t0 := now } ∧
          t.agenda = ⟨u.arg.die, now + 8 + b.x c.op + 1, g.lpos, u.arg.hub, 5, u.seq + 1,
              .ev .indexCommandEnd { die := u.arg.die, hub := u.arg.hub }, none, 0⟩ ::
            ⟨u.arg.die, now + 2, g.lpos, u.arg.hub, 5, u.seq, .ix (.operands u.arg.die u.arg.hub), none, 0⟩ :: u.agenda ∧
          OnlyHub u t u.arg.die u.arg.hub) ∧
      (∀ r, g.ixrun = some r → g.ixq = [] →
        (r.b.replies r.cmd.op = false →
          ∃ t, exec .indexCommandEnd u = .next t ∧ (t.hub u.arg.die u.arg.hub).ixrun = none ∧
            (t.hub u.arg.die u.arg.hub).timeline 4 = (g.timeline 4).finish r.cmd.num ∧ OnlyHub u t u.arg.die u.arg.hub) ∧
        (r.b.replies r.cmd.op = true → g.portFull 5 = false → g.replies.length < 16 →
          ∃ t, exec .indexCommandEnd u = .next t ∧ (t.hub u.arg.die u.arg.hub).ixrun = none ∧
            (t.hub u.arg.die u.arg.hub).replies = g.replies ++
              [⟨BitVec.ofNat 64 r.value.1, 5, if r.out ≠ 0 then 1 else 0, r.value.2, r.cmd.num⟩] ∧ OnlyHub u t u.arg.die u.arg.hub)))

/-- The drafting commands (R265, R289, R466 to R473): a command whose maps are not lost, whose key descriptor and lengths stand,
and whose spans lie within the scratchpad and the sets, starts with the D of its rule, and its inputs are sampled at S + 2
(DKEYS, D = 1, at S + 1); the unit takes the next waiting port after the last one it served; at the end of a command its map,
keys and reply stand and the unit looks for the next one. -/
def Obligations.DraftingCommands : Prop :=
  ∀ (s : State) (d m a b : BitVec 3) (u p : BitVec 1) (r n : BitVec 13) (k : BitVec 2) (w8 : BitVec 8) (w : BitVec 11) (e : BitVec 17),
    s.cur.hub < 8 →
    let h := s.curHub
    let x := h.map m.toNat
    let off := 64 * e.toNat
    let rs := rowSize (w.toNat + 1)
    let kd := h.keys.getD ⟨1, 1, 0, 0⟩
    let pad := flat (homeScratch (s.kind s.cur.die) s.cur.die s.cur.hub) off
    let starts := fun (i : Instr) (maps : List Nat) (ok : Bool) (spans : List DSpan) (D head : Nat) =>
      (∀ m ∈ maps, h.mapLost m = none) → ok = true → s.drBounds s.cur.die h.launch.tk h.tstride.toNat spans = none →
      s.drSets s.cur.die s.cur.hub h.launch.tk h.tstride.toNat spans = none →
      let now := (s.die s.cur.die).cad
      let run : DrRun := { hub := s.cur.hub, instr := i, s := now, e := now + D, stride := h.tstride.toNat, head := head }
      ∃ t, exec i s = .next t ∧ (t.die s.cur.die).draft = some run ∧ t.hubs = s.hubs ∧ SameMemory s t ∧
        t.agenda = ⟨s.cur.die, now + min D 2, h.lpos, s.cur.hub, 6, s.seq, .draft run, none, 0⟩ :: s.agenda
    let rows := fun (y z : Nat) => [(⟨off, (y - 1) * rs + 4 * (w.toNat + 1), false, true⟩ : DSpan), ⟨off, (z - 1) * rs + 4 * (w.toNat + 1), true, true⟩]
    starts (.dkeys n k w8 e) [] true [] 1 0 ∧
    starts (.dmatch d m u r p e) (if u = 1 then [] else [m.toNat]) (h.keys.isSome && (u == 1 || x.nout == kd.n))
      (⟨kd.base, (kd.n - 1) * kd.row + kd.w * keyBytes kd.kt, false, false⟩ :: if p = 1 then [⟨off, ceilDiv kd.n 8, false, false⟩] else [])
      (24 + kd.n * (kd.row / 64) + ceilDiv (ceilDiv kd.n 2 * (kd.n / 2) * kd.w) 8192 + ceilDiv kd.n 16) 0 ∧
    starts (.dmerge m w e) [m.toNat] true (rows x.nin x.nout) (16 + 2 * x.nin * (rs / 64)) 0 ∧
    starts (.dunmerge m w e) [m.toNat] true (rows x.nout x.nin) (16 + 2 * x.nin * (rs / 64)) 0 ∧
    starts (.dcompose d a b) [a.toNat, b.toNat] ((h.map a.toNat).nout == (h.map b.toNat).nin) [] (16 + ceilDiv (h.map a.toNat).nin 32) 0 ∧
    starts (.dsizes m e) [m.toNat] true [⟨off, 4 * x.nout, true, true⟩] (16 + ceilDiv x.nin 32 + ceilDiv x.nout 16) 0 ∧
    starts (.dsave m e) [m.toNat] true [⟨off, imageSize x.nin, true, false⟩] (16 + imageSize x.nin / 64) 0 ∧
    (s.poisoned pad 8 = false → starts (.dload m e) [] true [⟨off, imageSize (s.readNat pad 8 % 65536 + 1), false, false⟩]
      (16 + imageSize (s.readNat pad 8 % 65536 + 1) / 64) (s.readNat pad 8)) ∧
    (∀ (v : State) (y : Nat) (c : DCmd) (rest : List DCmd), (v.die v.arg.die).draft = none → (v.die v.arg.die).draftGo = none →
      ((List.range 8).map fun i => ((v.die v.arg.die).draftLast + 1 + i) % 8).find? (fun y => v.drWaits v.arg.die y) = some y →
      (v.hub v.arg.die y).port = c :: rest →
      ∃ t, exec .draftingCommandStart v = .next t ∧ (t.hub v.arg.die y).port = rest ∧ (t.die v.arg.die).draftGo = some (y, c) ∧
        (t.die v.arg.die).draftLast = y ∧ SameMemory v t) ∧
    (∀ (v : State) (y : DrRun), (v.die v.arg.die).draft = some y → y.hub < 8 →
      ∃ t, exec .draftingCommandEnd v = .next t ∧ (t.die v.arg.die).draft = none ∧
        (∀ g, y.map = some g → (t.hub v.arg.die y.hub).mapLost g.1 = none ∧ ((t.hub v.arg.die y.hub).map g.1).e = g.2.e) ∧
        (∀ g, y.keys = some g → (t.hub v.arg.die y.hub).keys = some g) ∧
        (t.hub v.arg.die y.hub).portServed = (v.hub v.arg.die y.hub).portServed + 1 ∧
        (y.reply = none → (t.hub v.arg.die y.hub).timeline 5 = ((v.hub v.arg.die y.hub).timeline 5).finish y.num) ∧
        (∀ c w, y.reply = some (c, w) →
          ((v.hub v.arg.die y.hub).portFull 6 = true →
            (t.hub v.arg.die y.hub).drHeld = some ⟨BitVec.ofNat 64 c, 6, w, false, y.num⟩ ∧
            (t.hub v.arg.die y.hub).replies = (v.hub v.arg.die y.hub).replies) ∧
          ((v.hub v.arg.die y.hub).portFull 6 = false → (v.hub v.arg.die y.hub).replies.length < 16 →
            (t.hub v.arg.die y.hub).replies = (v.hub v.arg.die y.hub).replies ++ [⟨BitVec.ofNat 64 c, 6, w, false, y.num⟩] ∧
            (t.hub v.arg.die y.hub).timeline 5 = ((v.hub v.arg.die y.hub).timeline 5).finish y.num)) ∧ SameMemory v t)

/-! ### The port fabric -/

/-- The slot operations of the fabric (R476 to R481): each takes its slot of the bundle; on valid operands slot A and C operations
and FMOV give register d the lane-wise result, FROUTE drives the links that its mask names with the word and its valid bit, FTAKE
takes the word offered and holds the bundle where none is, FEMIT sends where the output accepts and holds the bundle where it does
not, FLOOPB branches while its counter is above 1; an invalid operand writes nothing. Nothing but the stage of the element
changes. The lanes of a result are those of its operands, lane by lane; FMAX and FMIN bring the greater and the lesser value, and
NaN for NaN. At the end of a pulse (R480) a bundle that holds leaves its element as it is, and one that does not gives its
registers the results and its PC the next bundle, the target of a FLOOPB, or 0 at the length of the graph; other elements stay. -/
def Obligations.FabricSlots : Prop :=
  (∀ (s : State) (d : BitVec 4) (a b c : R5) (k : BitVec 2) (m f : BitVec 4) (t : BitVec 6) (h : BitVec 1) (p q : BitVec 3) (n : BitVec 2),
    let x := s.xdie s.cur.die
    let out := fun (i : Instr) (g : FStage → FStage) =>
      exec i s = .next { s with xdies := SMap.put s.xdies s.cur.die { x with stage := SMap.put x.stage s.cur.hub (g (SMap.get {} x.stage s.cur.hub)) } }
    let slot := fun (g : FStage) => { g with slots := g.slots + 1 }
    let reg := fun (v : W64) (g : FStage) => { g with regs := g.regs ++ [(d.toNat, v)], slots := g.slots + 1 }
    let va := s.fabOperand a.toNat
    let vb := s.fabOperand b.toNat
    out .fnop slot ∧
    (∀ y z, va = some y → vb = some z →
      out (.fadd d a b) (reg (lanes2 (fp32.add 0) y z)) ∧ out (.fmul d a b) (reg (lanes2 (fp32.mul 0) y z)) ∧
      out (.fmax d a b) (reg (lanes2 laneMax y z)) ∧ out (.fmin d a b) (reg (lanes2 laneMin y z)) ∧
      out (.fcmp d a b k) (reg (lanes2 (fun u v => if laneCmp k.toNat u v then 0xFFFFFFFF else 0) y z)) ∧
      (∀ w, s.fabOperand c.toNat = some w → out (.fsel d a b c) (reg (ofLanes
        (if lane w 0 % 2 ^ 31 ≠ 0 then lane y 0 else lane z 0) (if lane w 1 % 2 ^ 31 ≠ 0 then lane y 1 else lane z 1)))) ∧
      (let r := mxPack e4m3 0 ([lane y 0, lane y 1, lane z 0, lane z 1].map fp32.decode)
       out (.fzip d a b) (reg (BitVec.ofNat 64 (r.2.zipIdx.foldl (fun v e => v + e.1 * 2 ^ (8 * e.2)) (r.1 * 2 ^ 32)))))) ∧
    (∀ y, va = some y →
      out (.fmov d a) (reg y) ∧ (∀ z, s.fabOperand d.toNat = some z → out (.facc d a) (reg (lanes2 (fp32.add 0) z y))) ∧
      out (.froute a m) (fun g => { g with links := g.links ++ (linksOf m.toNat).map fun l => (l, ⟨y, true⟩), slots := g.slots + 1 }) ∧
      (x.accepts s.cur.hub = true → out (.femit a) (fun g => { g with emit := some y, slots := g.slots + 1 })) ∧
      (p.toNat < 5 → out (.fcvt d a p 0 n) (reg (ofLanes (convert (etype p.toNat) (.fp fp32) 0 (ovfOf 0) (fabElem p.toNat y (2 * n.toNat)))
        (convert (etype p.toNat) (.fp fp32) 0 (ovfOf 0) (fabElem p.toNat y (2 * n.toNat + 1)))))) ∧
      (q ≠ 0 →
        let cv := fun i => convert (.fp fp32) (etype q.toNat) 0 (ovfOf 0) (lane y i)
        let was := ((s.fabOperand d.toNat).getD 0).toNat
        out (.fcvt d a p q n) (reg (BitVec.ofNat 64
          (setFabElem q.toNat (setFabElem q.toNat was (2 * n.toNat) (cv 0)) (2 * n.toNat + 1) (cv 1))))) ∧
      (let e := fun i => fp32.round .arith 0 (mxValue e4m3 (bits y.toNat 39 32) (y.toNat / 2 ^ (8 * i) % 256))
       out (.funzip d a h) (reg (ofLanes (e (2 * h.toNat)) (e (2 * h.toNat + 1)))))) ∧
    (∀ w, x.offered (s.die s.cur.die).coast s.cur.hub = some w →
      out (.ftake d) (fun g => { g with regs := g.regs ++ [(d.toNat, w)], take := true, slots := g.slots + 1 })) ∧
    (x.offered (s.die s.cur.die).coast s.cur.hub = none → out (.ftake d) (fun g => { g with hold := true, slots := g.slots + 1 })) ∧
    out (.floopb t 0 f) (fun g => { g with target := some t.toNat, slots := g.slots + 1 }) ∧
    (s.fabOperand f.toNat = none → out (.floopb t 1 f) slot) ∧
    (∀ v, s.fabOperand f.toNat = some v →
      (1 < v.toNat → out (.floopb t 1 f) (fun g => { g with regs := g.regs ++ [(f.toNat, v - 1)], target := some t.toNat, slots := g.slots + 1 })) ∧
      (v.toNat ≤ 1 → out (.floopb t 1 f) (fun g => { g with regs := g.regs ++ [(f.toNat, 0)], slots := g.slots + 1 }))) ∧
    (x.accepts s.cur.hub = false → out (.femit a) (fun g => { g with hold := true, slots := g.slots + 1 })) ∧
    (va = none ∨ vb = none → out (.fadd d a b) slot ∧ out (.fmul d a b) slot ∧ out (.fmax d a b) slot ∧ out (.fmin d a b) slot ∧
      out (.fcmp d a b k) slot ∧ out (.fsel d a b c) slot ∧ out (.fzip d a b) slot) ∧
    (va = none → out (.fmov d a) slot ∧ out (.facc d a) slot ∧ out (.fcvt d a p q n) slot ∧ out (.funzip d a h) slot ∧
      (x.accepts s.cur.hub = true → out (.femit a) slot) ∧
      out (.froute a m) (fun g => { g with links := g.links ++ (linksOf m.toNat).map fun l => (l, {}), slots := g.slots + 1 }))) ∧
  (∀ (f : Nat → Nat → Nat) (y z : W64) (i : Nat), i < 2 → (∀ u v, f u v < 2 ^ 32) →
    let part := fun (w : W64) => if i = 0 then w.toNat % 2 ^ 32 else w.toNat / 2 ^ 32
    part (lanes2 f y z) = f (part y) (part z)) ∧
  (∀ x y : Nat, (fp32Finite x → fp32Finite y →
      laneMax x y = (if fp32Value x < fp32Value y then y else x) ∧ laneMin x y = (if fp32Value y < fp32Value x then y else x)) ∧
    (0x7F800000 < x % 2 ^ 31 ∨ 0x7F800000 < y % 2 ^ 31 → laneMax x y = 0x7FC00000 ∧ laneMin x y = 0x7FC00000) ∧
    fp32.add 0 x y < 2 ^ 32 ∧ fp32.mul 0 x y < 2 ^ 32) ∧
  (∀ (x : XDie) (lg n : Nat),
    let g := SMap.get {} x.stage n
    let u := x.commitElem lg n
    let pc := g.target.getD ((x.elem n).pc + 1)
    (g.hold = true → u = x) ∧
    (g.hold = false → g.take = false → g.emit = none →
      (u.elem n).pc = (if lg ≤ pc then 0 else pc) ∧ (∀ m, m ≠ n → u.elem m = x.elem m) ∧ u.stage = x.stage ∧
      (g.regs = [] → (u.elem n).f = (x.elem n).f) ∧
      ∀ r v, g.regs = [(r, v)] → SMap.get {} (u.elem n).f r = ⟨v, true⟩ ∧ ∀ q, q ≠ r → SMap.get {} (u.elem n).f q = SMap.get {} (x.elem n).f q))

/-! ### Device events: hubs, launches, slots -/

/-- The events that move a hub on (R173, R174, R177, R182, R184, R228, R229, R287, R288, R363, R365, R374): a due segment starts
at word 0 unless its timed engine is still busy; a mark whose accesses are performed closes; FENCE, TLWAIT, TICK, POP and PHASE go
on where their condition holds, and the directory's answer lets a PHASE go on or, with a conflict, stops its core; a full barrier
lets every hub that waits at it go, though not while its launch stands still for a pre-emption, when a PHASE takes no answer
either; an entry waiting at a port enters a queue with room, and the next one that waits there takes its place. No byte of memory
changes. -/
def Obligations.HubEvents : Prop :=
  ∀ s : State, s.arg.hub < 8 →
    let d := s.arg.die
    let k := s.arg.hub
    let h := s.hub d k
    let e := s.arg.eng
    let x := h.stream e
    let at_ : State := { s with cur := ⟨d, k, 0⟩ }
    (∀ i g, s.segmentDue d k e = some i → x.queue[i]? = some g → (h.launch.timed = true → x.seg = none ∧ x.free ≤ g.start) →
      ∃ t, exec .segmentStart s = .next t ∧ OnlyHub s t d k ∧ (t.hub d k).pc = h.pc ∧
        (t.hub d k).stream e = { x with queue := x.queue.eraseIdx i, seg := some g.num, pos := 0, next := (s.die d).cad }) ∧
    (h.mark = some [] → h.wait = .none →
      ∃ t, exec .storeMarkClose s = .next t ∧ (t.hub d k).mark = none ∧ (t.hub d k).s = h.s ∧ OnlyHub s t d k) ∧
    (∀ sc, h.wait = .fence sc → s.fenceMet d k sc = true → exec .fenceEnd s = .next (afterPlain at_ 1)) ∧
    (∀ q n, h.wait = .timeline q n → n ≤ (h.timeline q).count → exec .tlwaitEnd s = .next (afterPlain at_ 1)) ∧
    (∀ n, h.wait = .tick n → n ≤ (s.die d).cad → exec .tickExpiry s = .next (afterPlain at_ 0)) ∧
    (∀ n r rest, h.replies = r :: rest →
      (h.wait = .pop n → ∃ t, exec .popTake s = .next t ∧ (t.hub d k).replies = rest ∧ (t.hub d k).wait = .none ∧
        t.agenda = dueOf at_ 2 (.regS n r.value r.psn) :: s.agenda ∧ OnlyHub s t d k) ∧
      (h.wait = .popTag n → exec .popTake s = .next (afterCore at_ 2 (.regS n (tagOf r) false) 1))) ∧
    (∀ b, (s.part s.arg.part).barriers.find? (·.is s.arg.slot s.arg.m s.arg.n s.arg.team) = some b → b.full = true →
      ((s.slot s.arg.slot).stopping = true → exec .barrierRelease s = .next s) ∧
      ((s.slot s.arg.slot).stopping = false → (∀ r, (s.slot s.arg.slot).run = some r → r.launch.timed = true → b.releaseMark = s.arg.off) →
      ∃ t, exec .barrierRelease s = .next t ∧ SameMemory s t ∧
        (t.part s.arg.part).barriers = (s.part s.arg.part).barriers.filter (fun y => decide (y ≠ b)) ∧
        ∀ y z, z < 8 → (8 * y + z) ∈ b.arrived.map (·.1) → (s.hub y z).wait = .bar b.level b.id → (t.hub y z).wait = .none)) ∧
    (∀ y, h.wait = .phase y s.arg.n →
      (h.run ≠ .running → exec .phaseDirectoryAnswer s = .next at_) ∧
      (h.run = .running → s.arg.off = 0 → exec .phaseDirectoryAnswer s = .next (afterPlain at_ 1)) ∧
      (h.run = .running → s.arg.off ≠ 0 → h.launch.timed = false →
        ∃ t, exec .phaseDirectoryAnswer s = .next t ∧ (t.hub d k).run = .stopped ∧ (t.hub d k).wait = .none ∧ (t.hub d k).pc = h.pc ∧
          (t.hub d k).sets = h.sets ∧ SameMemory s t)) ∧
    (∀ y, SMap.find e h.ports = some y → h.replies.length < 16 →
      ∃ t, exec .replyPortEntry s = .next t ∧ (t.hub d k).replies = h.replies ++ [y.entry] ∧ OnlyHub s t d k ∧
        (∀ z r, y.behind = z :: r → SMap.find e (t.hub d k).ports = some { entry := z, op := z.seq, behind := r }) ∧
        (y.behind = [] → e ≠ 6 ∨ h.drHeld = none → (t.hub d k).portFull e = false) ∧
        ∀ z, y.behind = [] → e = 6 → h.drHeld = some z →
          SMap.find e (t.hub d k).ports = some { entry := z, op := z.seq, behind := [] } ∧ (t.hub d k).drHeld = none)

/-- Items and launches (R112, R144, R168 to R172, R175, R235, R240): an item that a free team takes sets s1 to s8, PC 0 and
k.tangents of every hub of the team and its control cores run; an item whose hubs have all ended frees them; a finished launch
makes its completion write, steps HEAD and leaves the slot idle; one that aborts leaves it faulted with HEAD unchanged; the
arbiter's first candidate whose hubs are free is granted and falls back to its base priority; memory changes there only where a launch
that was suspended when its dies lost power gets its SRAM back (R134). -/
def Obligations.ItemsAndLaunches : Prop :=
  ∀ (s : State) (r : Run),
    let n := s.arg.slot
    let x := s.slot n
    let tm := r.teams.getD s.arg.team (0, 0, 0)
    let die := tm.2.1
    let hs := maskHubs tm.2.2
    (x.run = some r →
      (∀ it, (∀ h ∈ hs, (s.hub die h).item = none) → it.fields.length = 6 →
        s.itemOf r s.arg.team s.arg.m s.arg.n (if r.launch.timed then r.startMark s.arg.m else s.markOf die + 64) = .ok it →
        ∃ t, exec .itemStart s = .next t ∧ SameMemory s t ∧ ∀ h ∈ hs,
          (t.hub die h).run = .running ∧ (t.hub die h).pc = 0 ∧ (t.hub die h).wait = .none ∧
          ((t.hub die h).item.map fun i => (i.wid, i.ord, i.start, i.launch.slot)) = some (it.wid, it.ord, it.start, it.launch.slot) ∧
          (∀ i, i < 6 → (t.hub die h).readS (i + 1) = ⟨it.fields.getD i 0, false⟩) ∧ (t.hub die h).readS 7 = ⟨it.wid, false⟩ ∧
          (t.hub die h).readS 8 = ⟨BitVec.ofNat 64 it.ord, false⟩ ∧ ∀ i, 8 < i → (t.hub die h).readS i = {}) ∧
      (s.teamEnded r s.arg.team = true →
        ∃ t, exec .itemEnd s = .next t ∧ SameMemory s t ∧ (t.slot n).run = some { r with ended := r.ended + 1 } ∧
          ∀ h ∈ hs, (t.hub die h).item = none ∧ (t.hub die h).sets = [] ∧ (t.hub die h).s = (s.hub die h).s) ∧
      (x.qcb.state = 2 → r.finished = true → x.stopping = false →
        ∃ t, exec .launchCompletion s = .next t ∧ (t.slot n).run = none ∧ (t.slot n).qcb.state = 0 ∧
          (t.slot n).qcb.head = (x.qcb.head + 1) % 2 ^ 32 ∧
          (r.caddr = 0 → SameMemory s t) ∧
          (r.caddr ≠ 0 → t.mem = (s.hostWrite x.qcb.part (some x.qcb.pasid) r.caddr (leBytes 8 r.cval.toNat)).mem)) ∧
      (s.abortReady r = true →
        ∃ t, exec .launchAbort s = .next t ∧ SameMemory s t ∧ (t.slot n).run = none ∧ (t.slot n).qcb.state = 4 ∧
          (t.slot n).qcb.head = x.qcb.head)) ∧
    (∀ m rest g, s.mayStart s.arg.part = true → s.candidates s.arg.part = m :: rest → s.runFor m = some g →
      (if wholeSet (s.slot m) g then s.setFree g [] = true else s.freeTeams g [] ≠ []) →
      ∃ t, exec .hubGrant s = .next t ∧ ((∀ v ∈ (s.part s.arg.part).susp, v.off = false) → SameMemory s t) ∧ (t.slot m).granted = true ∧
        (t.slot m).qcb.age = 0 ∧
        (t.slot m).qcb.prio = (s.slot m).qcb.bprio ∧ (rest = [] → (t.part s.arg.part).lastGrant = m) ∧
        ((s.slot m).qcb.state = 1 → (t.slot m).qcb.state = 2))

/-- Queues and slots (R103 to R111, R139, R143, R145, R152 to R157): ageing raises an ungranted candidate; a kick of its own
partition's queue sets the tail of its slot or the pending bit; a fetch reads record HEAD through the queue's PASID; a record
without a refusal makes a candidate and any other a faulted slot with HEAD unchanged; SAVE keeps the queue's image and empties
the slot; RESTORE of a good image fills it; PRE asks for the launch; ABORT of a suspended launch steps HEAD and faults the
queue; an expired watchdog sets WDX. -/
def Obligations.QueuesAndSlots : Prop :=
  ∀ s : State,
    let n := s.arg.slot
    let x := s.slot n
    let q := x.qcb
    (∃ t, exec .ageingTick s = .next t ∧ SameMemory s t ∧ t.hubs = s.hubs ∧ ∀ m, m < 16 →
      let y := s.slot m
      t.slot m = if y.valid then
          { y with
            granted := false, fresh := false
            qcb := if s.candidate m && !y.granted && !y.fresh then { y.qcb with prio := min (y.qcb.prio + 1) 7, age := (y.qcb.age + 1) % 2 ^ 32 } else y.qcb }
        else y) ∧
    (∀ k sl old map, s.dev.bootRec = false → 1 ≤ s.arg.fn → s.arg.fn ≤ 16 → s.arg.off = 4096 * k → k < 4096 → s.arg.size = 4 →
      s.qreg k = (true, s.arg.fn - 1, map, sl, old) → sl < 16 →
      ∃ t, exec .doorbellKick s = .next t ∧ SameMemory s t ∧ t.hubs = s.hubs ∧
        t.qreg k = (true, s.arg.fn - 1, map, sl, s.arg.value.toNat % 2 ^ 32) ∧
        (map = true → (t.slot sl).qcb.tail = s.arg.value.toNat % 2 ^ 32) ∧
        (map = false → SMap.get false t.dev.pend k = true ∧ t.slots = s.slots)) ∧
    (s.fetches n = true → (q.tail + 2 ^ 32 - q.head) % 2 ^ 32 ≤ 2 ^ q.log2n →
      let bs := if s.arg.ok then s.hostRead q.part (some q.pasid) (q.rbase / 256 * 256 + 256 * (q.head % 2 ^ q.log2n)) 256 else []
      ∃ t, exec .slotFetch s = .next t ∧ SameMemory s t ∧ t.hubs = s.hubs ∧ (t.slot n).record.bytes = bs ∧ (t.slot n).qcb.state = 1 ∧
        (t.slot n).qcb.prio = min (bits (recNat bs 0 8) 55 53) (x.newCap.getD q.cap) ∧ (t.slot n).qcb.head = q.head) ∧
    (q.state = 1 → x.validated = false →
      (s.refusal q.part x.record.bytes = none → exec .launchValidate s = .next (s.setSlot n { x with validated := true })) ∧
      (∀ c, s.refusal q.part x.record.bytes = some c →
        ∃ t, exec .launchValidate s = .next t ∧ (t.slot n).qcb.state = 4 ∧ (t.slot n).qcb.head = q.head ∧
          ((s.part q.part).takesRecord = true → (t.slot n).qcb.lkind = 0x17))) ∧
    (∀ v p m a tail, x.valid = true → (q.state = 0 ∨ q.state = 3 ∨ q.state = 4) → s.arg.off % 128 = 0 →
      s.kickComing q.qid = false → s.qreg q.qid = (v, p, m, a, tail) →
      ∃ t, exec .slotSave s = .next t ∧ SameMemory s t ∧ (t.slot n).valid = false ∧ (t.slot n).err = 0 ∧
        SMap.get [] t.dev.fwsram (s.arg.off % 2 ^ 48) = { q with tail := tail, cap := x.newCap.getD q.cap }.bytes ∧
          t.qreg q.qid = (v, p, false, 0, tail)) ∧
    (let im := qcbOf (SMap.get [] s.dev.fwsram (s.arg.off % 2 ^ 48))
     ∀ p m a tail, x.valid = false → s.arg.off % 128 = 0 → s.imageOk im = true → s.kickComing im.qid = false →
      s.qreg im.qid = (true, p, m, a, tail) →
      ∃ t, exec .slotRestore s = .next t ∧ SameMemory s t ∧ (t.slot n).valid = true ∧ (t.slot n).err = 0 ∧
        (t.slot n).qcb = { im with tail := tail } ∧ t.qreg im.qid = (true, p, true, n, tail)) ∧
    (∀ r, x.run = some r → q.state = 2 → x.preq = false → s.savepOk q.part q.savep r.hubs.length = true →
      exec .preemptRequest s = .next (s.setSlot n { x with preq := true })) ∧
    (q.state = 3 → ∃ t, exec .slotAbort s = .next t ∧ (t.slot n).qcb.state = 4 ∧ (t.slot n).qcb.head = (q.head + 1) % 2 ^ 32 ∧
      ((s.part q.part).takesRecord = true → (t.slot n).qcb.lkind = 0x11)) ∧
    (q.state = 2 → q.wrem = 0 → ∃ t, exec .watchdogExpiry s = .next t ∧ (t.slot n).wdx = true ∧ (t.slot n).qcb.state = 2 ∧ t.hubs = s.hubs)

/-- Pre-emption, resumption and resets of a launch (R156, R158, R242 to R244, R251, R260 to R264): a counted pre-emption first
lets the hubs stand still and then, when they hold nothing open, suspends the launch; a counted launch resumes 64 scy later with
every saved CADENCE moved by the same amount; a timed one goes on from M + 1 at a multiple of 256; a quiet stand saves a timed
launch; the backstop and the halt limit start a reset of the partition, which counts as firmware's where its GO falls in the same
H-die cycle. -/
def Obligations.PreemptionAndLimits : Prop :=
  ∀ (s : State) (r : Run),
    let n := s.arg.slot
    let x := s.slot n
    let p := x.qcb.part
    (x.run = some r → x.qcb.state = 2 → r.launch.timed = false →
      (x.preq = true → r.abort = false → r.placed = [] →
        (x.stopping = false → ∃ t, exec .countedPreemption s = .next t ∧ (t.slot n).stopping = true ∧ SameMemory s t ∧
          ∀ y ∈ s.heldHubs r, (s.hub y.1 y.2).item.isSome = true → y.2 < 8 → (t.hub y.1 y.2).run ≠ .running) ∧
        (x.stopping = true → x.wdx = false → (∀ y ∈ s.heldHubs r, s.savable y.1 y.2 = true) →
          ∃ t, exec .countedPreemption s = .next t ∧ SameOutside s t n r ∧ (t.slot n).qcb.state = 3 ∧ (t.slot n).run = none ∧
            (t.part p).susp.length = (s.part p).susp.length + 1)) ∧
      (x.stopping = true → ∃ t, exec .countedResume s = .next t ∧ SameMemory s t ∧ (t.slot n).stopping = false ∧ (t.slot n).run = some r)) ∧
    (x.run = some r → x.qcb.state = 2 → r.launch.timed = true → x.stopping = true →
      ∃ t, exec .timedResume s = .next t ∧ SameMemory s t ∧ (t.slot n).stopping = false ∧
        ∀ e ∈ s.dies, SMap.find e.1 s.dies = some e.2 → e.2.member = true → e.2.plid = r.launch.plid →
          (t.die e.1).tk = r.launch.tk ∧
          (t.die e.1).lshift = roundUp ((s.die (s.pl r.launch.plid).root).cad + 4096) 256 - s.arg.n) ∧
    (∀ k, (s.pl s.arg.n).slot = some k → (s.slot k).run = some r → (s.slot k).wdx = false →
      (∀ q, q < 48 → s.isMember s.arg.n q = true → (s.die q).gather = true ∧ (s.die q).quiet = true ∧ (s.die q).haltAt = none) →
      s.openLoads r s.arg.size = false → (∀ y ∈ r.hubs, ∀ a ∈ (s.hub y.1 y.2).accesses, a.store = false) →
      ∃ t, exec .quietSave s = .next t ∧ SameOutside s t k r ∧ (t.slot k).qcb.state = 3 ∧ (t.slot k).run = none) ∧
    (x.qcb.state = 2 → s.goComing p = true → (s.part p).rstBusy = false → 2 * s.dev.graceUs ≤ x.grace →
      ∃ t, exec .backstopReset s = .next t ∧ (t.part p).rstBusy = true ∧ (t.part p).rstOrigin = 1) ∧
    (x.qcb.state = 2 → s.goComing p = false → (s.part p).rstBusy = false →
      (2 * s.dev.graceUs ≤ x.grace → ∃ t, exec .backstopReset s = .next t ∧ (t.part p).rstBusy = true ∧ (t.part p).rstOrigin = 2) ∧
      (10000000 ≤ x.halt → ∃ t, exec .haltLimitReset s = .next t ∧ (t.part p).rstBusy = true ∧ (t.part p).rstOrigin = 2))

/-! ### Partitions, pacelines, stands, links -/

/-- Partitions (R23 to R27, R126, R131, R158): a reset sets BUSY, holds every slot of the partition and is no more while BUSY is
set; in the next scy its launches are thrown away; a scrub raises the epoch and clears every SRAM byte of the bound dies; at its
end the customer level is that of the scrub, and a reset goes on; a finished reset clears BUSY; a good map locks and gives its
B-dies the partition's key, and unlocks where no launch runs or is suspended, when the queue of a launch that waits for its grant
is faulted; a failed die stays marked. -/
def Obligations.Partitions : Prop :=
  ∀ s : State,
    let k := s.arg.part
    let p := s.part k
    (s.arg.m = 0 → ∃ t, exec .partitionReset s = .next t ∧ (t.part k).rstBusy = true ∧ (p.rstBusy = true → t = s) ∧
      (p.rstBusy = false → ∀ n ∈ s.slotsOf k, (t.slot n).hold = true ∧ (t.slot n).qcb.state = 5)) ∧
    (s.arg.m ≠ 0 → (p.rstBusy = false ∨ p.rstPhase ≠ 1 → exec .partitionReset s = .next s) ∧
      (p.rstBusy = true → p.rstPhase = 1 → ∃ t, exec .partitionReset s = .next t ∧ SameMemory s t ∧ (t.part k).rstPhase = 3 ∧
        ∀ n ∈ s.slotsOf k, (t.slot n).run = none ∧ (t.slot n).preq = (s.slot n).preq)) ∧
    (∃ t, exec .partitionScrub s = .next t ∧ (t.part k).scrubbing = true ∧ (t.part k).epoch = p.epoch + 1 ∧ (t.part k).phases = [] ∧
      ∀ a, isSram (homeOf a) = true → homeDie (homeOf a) ∈ s.boundDies k → Memory.read t.mem a = 0) ∧
    (p.scrubbing = true → ∃ t, exec .partitionScrubDone s = .next t ∧ SameMemory s t ∧ (t.part k).scrubbing = false ∧
      (t.part k).customer = p.enter) ∧
    (p.rstBusy = true → ∃ t, exec .partitionResetDone s = .next t ∧ SameMemory s t ∧ (t.part k).rstBusy = false) ∧
    (p.lock = false → s.mapBad k = none → ∃ t, exec .ldmapLock s = .next t ∧ SameMemory s t ∧ (t.part k).lock = true ∧ (t.part k).ldErr = 0 ∧
      ∀ l d, l < 48 → s.phys k l = some d → d ≠ 0 → (t.die d).epoch = keyOf k p.epoch) ∧
    (∀ e r l, p.lock = false → s.mapBad k = some (e, r, l) →
      exec .ldmapLock s = .next (s.setPart k { p with ldErr := e, ldRsn := r, ldBad := l })) ∧
    (p.lock = true → p.susp = [] → (∀ n ∈ s.slotsOf k, (s.slot n).qcb.state ≠ 2 ∧ (s.slot n).qcb.state ≠ 3) →
      (∃ t, exec .ldmapUnlock s = .next t ∧ (t.part k).lock = false ∧ (t.part k).ldErr = 0 ∧ (t.part k).ldmap = p.ldmap ∧
        ∀ n ∈ s.slotsOf k, (s.slot n).qcb.state = 1 → (s.slot n).validated = true → (t.slot n).qcb.state = 4) ∧
      ((∀ n ∈ s.slotsOf k, (s.slot n).qcb.state ≠ 1) →
        exec .ldmapUnlock s = .next (s.setPart k { p with lock := false, ldErr := 0, ldRsn := 0, ldBad := 0 }))) ∧
    (s.arg.pos < 48 → SMap.get false s.dev.dieFail s.arg.pos = false →
      ∃ t, exec .dieFailure s = .next t ∧ SMap.get false t.dev.dieFail s.arg.pos = true)

/-- Pacelines (R49 to R52, R64, R246 to R250): a write of 1 to FORM on a good member set begins the formation, and any other is
refused with ERR; F lies 131,072 scy or more past every member's CADENCE, at a multiple of 65,536, with the lowest member as root;
each member takes F as its CADENCE and holds, with the stand of mark F armed and the level found as the formation began; once all
have resumed the paceline is formed; one that runs no launch dissolves. A die takes a lower halt mark, which counts with LSHIFT
under a launch, holds at it, when the sets of a refused PHASE are withdrawn, and leaves the hold W pulses after the release; a
held paceline takes RELEASE and ABORT, which clear its halt registers; SUBMIN, DOWN and the coasting level are taken as they come.
No byte of memory changes. Track stands (R54 to R59, R519): a die without hubs of the launch arms the mark that a neighbour
announces; at M − 64 a die whose hubs have all asked goes on; at the end of scy M a die that sees its neighbours armed holds LAG's
pulses; it leaves the stand with A clear and MARK M kept; an idle paceline's members arm the next multiple of 16,384 from 128 scy
before it on, from the first that all can arm after a launch (log 96). -/
def Obligations.Pacelines : Prop :=
  (∀ s : State,
     let n := s.arg.n
     let l := s.pl n
     let k := s.arg.pos
     let d := s.die k
     let v := s.arg.value.toNat
     let mark := d.cad / 2 ^ 48 * 2 ^ 48 + v % 2 ^ 48
     let halt := ((d.cad : Int) - s.haltShift k).toNat / 2 ^ 48 * 2 ^ 48 + v % 2 ^ 48
     let goes := fun (i : Instr) (f : State → Prop) => ∃ t, exec i s = .next t ∧ SameMemory s t ∧ t.hubs = s.hubs ∧ f t
     (s.arg.m = 0 → l.form = false →
       (s.formErr n = 0 → goes .pacelineForm fun t => (t.pl n).form = true ∧ (t.pl n).err = 0 ∧ (t.pl n).stage = 1 ∧ (t.pl n).mem = l.mem ∧
         (t.pl n).taken = l.mem) ∧
       (s.formErr n ≠ 0 → exec .pacelineForm s = .next (s.setPl n { l with err := s.formErr n }))) ∧
     (s.arg.m = 1 → l.stage = 1 → goes .pacelineForm fun t => (t.pl n).stage = 2 ∧ (t.pl n).root = l.members.headD 0 ∧
       (t.pl n).mark0 % 65536 = 0 ∧ t.dies = s.dies ∧ ∀ p ∈ l.members, (s.die p).cad + 131072 ≤ (t.pl n).mark0) ∧
     (s.arg.m = 2 → l.stage = 2 → goes .pacelineForm fun t =>
       (t.die k).member = true ∧ (t.die k).plid = n ∧ (t.die k).cad = l.mark0 ∧ (t.die k).lshift = 0 ∧ (t.die k).held = true ∧
       (t.die k).coast = l.coast ∧ (t.die k).armed = true ∧ (t.die k).standM = l.mark0 ∧ (t.die k).root = decide (k = l.root) ∧
         ∀ p, p ≠ k → t.die p = s.die p) ∧
     (s.arg.m = 3 → l.stage = 3 → (∀ p ∈ l.members, (s.die p).forming = false) →
       exec .pacelineForm s = .next (s.setPl n { l with stage := 0, formed := true })) ∧
     (l.form = true → (∀ p ∈ l.members, s.runsLaunch p = false) → goes .pacelineDissolve fun t =>
       (t.pl n).formed = false ∧ (t.pl n).form = false ∧ (t.pl n).err = 0 ∧
       ∀ e ∈ s.dies, SMap.find e.1 s.dies = some e.2 → e.2.member = true → e.2.plid = n → (t.die e.1).member = false) ∧
     (d.member = true → d.plid = bits v 59 56 → d.held = false → (∀ x, d.haltAt = some x → s.haltCad k halt < x) →
       goes .haltFrameReceive fun t => (t.die k).haltAt = some (s.haltCad k halt)) ∧
     (d.haltAt = some d.cad → d.held = false → (s.pl d.plid).trap = false →
       ∃ t, exec .pacelineHold s = .next t ∧ SameMemory s t ∧ (t.die k).held = true ∧ (t.die k).haltAt = none ∧
         (∀ h, h < 8 → (t.hub k h).refused = none) ∧ ((∀ h, h < 8 → (s.hub k h).refused = none) → t.hubs = s.hubs)) ∧
     (l.formed = true → l.part = s.arg.part → l.held = true →
       (l.retrain = false → goes .pacelineRelease fun t => (t.pl n).held = false ∧ (t.pl n).nflt = 0 ∧
         t.inbox.map (·.1) = s.inbox.map (·.1) ++ [.releaseFrameReceive]) ∧
       (∀ m r, l.slot = some m → (s.slot m).run = some r → ∃ t, exec .pacelineAbort s = .next t ∧ (t.slot m).qcb.state = 4 ∧
         (t.slot m).run = none ∧ SameMemory s t)) ∧
     (l.formed = true → l.part = s.arg.part → l.held = false →
       exec .pacelineRelease s = .next (s.setPl n { l with haltErr := 1 }) ∧ exec .pacelineAbort s = .next (s.setPl n { l with haltErr := 1 })) ∧
     (d.held = true → goes .releaseFrameReceive fun t => (t.die k).release = some (bits v 63 48)) ∧
     (goes .subminReceive fun t => (SMap.get {} (t.die k).modules s.arg.m).submin = some (v % 2 ^ 32)) ∧
     (d.member = true → d.root = false → d.parent = s.arg.m → goes .downReceive fun t =>
       (t.die k).gmin = v % 2 ^ 32 ∧
       (t.die k).ahead = wrapInt (sextNat (v / 2 ^ 32) 32 - sextNat (SMap.get {} d.modules s.arg.m).drift 32) 32) ∧
     (∀ c, c = v / 2 ^ 60 → d.member = true → c ≤ 12 → d.cad < mark → (c, mark) ∉ d.coastNext →
       goes .coastReceive fun t => (t.die k).coastNext = d.coastNext ++ [(c, mark)] ∧ (t.die k).coast = d.coast) ∧
     (∀ x, (d.coastNext.filter fun x => x.2 == d.cad).getLast? = some x →
       goes .coastApply fun t => (t.die k).coast = x.1 ∧ (t.die k).phase = 1 ∧ ∀ y ∈ (t.die k).coastNext, d.cad < y.2)) ∧
  (∀ s : State,
     let k := s.arg.pos
     let d := s.die k
     let goes := fun (i : Instr) (f : Die → Prop) => ∃ t, exec i s = .next t ∧ SameMemory s t ∧ t.hubs = s.hubs ∧ f (t.die k)
     (∀ v, d.member = true → d.armed = false → (s.pl d.plid).slot = some v → s.launchHubs k = [] → s.markOf k < s.arg.value.toNat →
       s.arg.value.toNat < s.markOf k / 2 ^ 32 * 2 ^ 32 + 2 ^ 32 →
       goes .standAdoption fun e => e.armed = true ∧ e.adopt = true ∧ e.standM = s.arg.value.toNat) ∧
     ((∀ h ∈ s.launchHubs k, d.standHubs.testBit h = true) → exec .standLeadCheck s = .next s) ∧
     (d.armed = true → d.cad = d.standAt → d.standing = false → d.haltAt = none → s.standNeighbours k = [] → s.quietStand d.plid = false →
       goes .standHold fun e => e.standing = true ∧ e.swallow = swallowed d.lag d.tk d.coast ∧ e.gather = false) ∧
     (d.standing = true → d.swallow = 0 → d.gather = false →
       goes .standResume fun e => e.standing = false ∧ e.armed = false ∧ e.standM = d.standM ∧ e.lastStand = d.cad ∧ e.cad = d.cad) ∧
     (let m := (d.cad / 16384 + 1) * 16384
      d.member = true → (s.pl d.plid).formed = true → d.armed = false → m ≤ d.cad + 128 → (s.pl d.plid).idleFrom ≤ m →
       (s.pl d.plid).slot = none ∨ m ≤ (s.pl d.plid).idleTo →
       goes .idleStandArm fun e => e.armed = true ∧ e.idle = true ∧ e.standM = m ∧ e.standM % 16384 = 0 ∧ d.cad < e.standM))

/-- Die-to-die links (R36 to R48, R52, R61): a module whose two dies are alive is up at both ends once it is trained, and not
otherwise; SAMPLE leaves at marks 0 mod 256 on every module that is up; counted beats take the slots that no timed beat claims; a
bad frame poisons the timed beats in it and loses its counted beats and its control word, and an idle frame holds no timed beat; a
beat at its receiver that no XFRECV took goes; the counted beat with the expected number is accepted and any other discarded; a
module without progress for 64 cy sends its replay again; a SAMPLE gives DRIFT and FILL. -/
def Obligations.DieLinks : Prop :=
  ∀ s : State,
    let k := s.arg.pos
    let m := s.arg.m
    let d := s.die k
    let md := SMap.get {} d.modules m
    let of := fun (t : State) (p j : Nat) => SMap.get {} (t.die p).modules j
    let goes := fun (i : Instr) (f : State → Prop) => ∃ t, exec i s = .next t ∧ SameMemory s t ∧ t.hubs = s.hubs ∧ f t
    (∀ q j, Config.wire k m = some (q, j) → goes .linkTrainingDone fun t =>
      (of t k m).up = (s.alive k && s.alive q) ∧ (of t q j).up = (s.alive k && s.alive q)) ∧
    (goes .frameTransmit fun t => ∀ x ∈ s.links k, (of t k x.1).outq = (of s k x.1).outq.drop (s.freeSlots k x.1).length) ∧
    (d.still = true → goes .frameTransmit fun t => ∀ x ∈ s.links k, (of t k x.1).tx = s.frameOf k x.1) ∧
    (d.still = false → d.sub = 0 → d.cad % 256 = 0 → goes .frameTransmit fun t => t.agenda.length = s.agenda.length + (s.links k).length) ∧
    (s.arg.bytes = [] ∨ corrected s.arg.bytes = false → goes .badFrame fun t =>
      t.beats.length = s.beats.length ∧ (s.arg.size ≠ 0 → t.beats = s.beats) ∧
      (∀ b ∈ s.beats, s.arg.size = 0 → (b.stream = true ∨ s.arg.sub = 0) →
        (b.hops.any fun f => decide (f.2.2 = s.arg.sent) && Config.wire f.1 f.2.1 == some (k, m)) = true → { b with bad := true } ∈ t.beats) ∧
      (∀ u ∈ t.agenda, u.lostWord k m s.arg.sent s.arg.sub s.arg.size = false) ∧
      ∀ x ∈ t.timers, x ∈ s.timers ∧ lostWord k m s.arg.sent s.arg.sub s.arg.size x.2.1 x.2.2 = false ∧
        ¬ (x.2.1 = .countedBeatReceive ∧ x.2.2.pos = k ∧ x.2.2.m = m ∧ x.2.2.sent = s.arg.sent ∧
        x.2.2.sub = s.arg.sub ∧ x.2.2.size = s.arg.size)) ∧
    (s.arg.bytes ≠ [] → corrected s.arg.bytes = true → exec .badFrame s = .next s) ∧
    (∀ b, s.beat s.arg.n = some b → b.hop + 1 ≥ b.hops.length → b.stream = true →
      goes .timedBeatDelivery fun t => t.beat s.arg.n = none) ∧
    (s.arg.ok = true → (beatHeaderOf s.arg.value.toNat).seq = md.expSeq →
      goes .countedBeatReceive fun t => (of t k m).expSeq = (md.expSeq + 1) % 4096) ∧
    (s.arg.ok = false ∨ (beatHeaderOf s.arg.value.toNat).seq ≠ md.expSeq →
      goes .countedBeatReceive fun t => (of t k m).expSeq = md.expSeq) ∧
    (md.replay ≠ [] → md.prog + 64 ≤ s.cy → goes .countedRetryTimeout fun t => (of t k m).outq = md.replay ∧
      (s.cy + 64, Instr.countedRetryTimeout, ({ pos := k, m := m } : Arg)) ∈ t.timers) ∧
    (d.member = false → goes .sampleReceive fun t =>
      let drift : Int := ((s.arg.value.toNat : Int) + 24 - d.cad) * 65536 - sextNat s.arg.frac 32
      (of t k m).driftV = true ∧ (of t k m).drift = wrapInt drift 32 ∧ (of t k m).fill = fillOf drift ∧ (of t k m).lastSample = d.cad)

/-- Fault records (R113 to R117, R202, R248): a report reaches the merger as a packet; it is written at HEAD of the enabled ring,
which moves on, or counted lost; a page-not-present fault joins the batch and writes none; a batch that closes is empty; the tail
moves where HEAD − TAIL fits; enabling empties the ring. The ring is written under the PASID of the partition's VF, a free value
(log 29). -/
def Obligations.FaultRecords : Prop :=
  ∀ (s : State) (k : Pkt), SMap.find s.arg.n s.net = some k →
    let r := k.rep
    let p := s.part r.part
    let g := s.part s.arg.part
    (r.kind ≠ 0x0D → ∃ t, exec .faultReportReceive s = .next t ∧ t.hubs = s.hubs ∧ t.net = SMap.drop s.net s.arg.n ∧
      (p.frEn = true → p.ringFill p.frTail < 2 ^ p.ringLog →
        (t.part r.part).frHead = (p.frHead + 1) % 2 ^ 32 ∧ (t.part r.part).frTail = p.frTail ∧
        t.mem = (s.hostWrite r.part (some (Config.vfPasid r.part)) (p.frbase + 64 * (p.frHead % 2 ^ p.ringLog)) (r.bytes r.time p.frHead)).mem) ∧
      (p.frEn = false ∨ 2 ^ p.ringLog ≤ p.ringFill p.frTail →
        (t.part r.part).frOvf = true ∧ (t.part r.part).frLost = satAdd 0xFFFFFFFF p.frLost 1 ∧ SameMemory s t)) ∧
    (r.kind = 0x0D → ∃ t, exec .faultReportReceive s = .next t ∧ t.hubs = s.hubs ∧ SameMemory s t ∧
      (t.part r.part).batch.length = p.batch.length + 1) ∧
    (g.batch ≠ [] → g.batchAt = s.arg.n → ∃ t, exec .pageFaultBatchClose s = .next t ∧ (t.part s.arg.part).batch = [] ∧ t.hubs = s.hubs) ∧
    exec .frtailWrite s = .next (if 2 ^ g.ringLog < g.ringFill (s.arg.value.toNat % 2 ^ 32) then s
      else s.setPart s.arg.part { g with frTail := s.arg.value.toNat % 2 ^ 32 }) ∧
    exec .faultRingEnable s = .next (if g.frEn then s else s.setPart s.arg.part { g with frEn := true, frHead := 0, frTail := 0 })

/-! ### Packets, translations and firmware -/

/-- Packets of the counted channel (R45, R128, R141, R195, R200, R202, R227 to R231): a die of a locked map lets no stranger's
request act, and a read that it discards leaves its consumer to be poisoned; an accepted read is sampled, a write performed and
acknowledged, an atomic or slot-table operation performed, a doubleword of control space read, and the reply goes back; a refused
HBM access changes no memory; a reply that is not late waits for its deadline, an acknowledgement ends its store, and at the
deadline the load's register takes the data, or poison. Lines without an uncorrectable error are meant. -/
def Obligations.PacketsArrive : Prop :=
  ∀ (s : State) (p : Pkt), SMap.find s.arg.n s.net = some p →
    let id := s.arg.n
    let h := s.hub p.die p.hub
    let near := p.target ≠ 48 ∨ p.eng ≠ 0 ∨ s.arg.ok = false
    let drops := fun (i : Instr) => exec i s = .next { s with
      net := if p.typ = 2 then SMap.drop s.net id else SMap.put s.net id { p with lost := true } }
    (s.accepts p = false → drops .readRequest ∧ drops .write ∧ drops .atomicRequest ∧ drops .controlSpaceRead) ∧
    (s.accepts p = true →
      (s.hbmRefused p = false → p.xf = none →
        (near → s.eccBad p.addr p.n = false → exec .readRequest s = .next (s.reply id
          { p with
            typ := 1, bytes := s.readBytes p.addr p.n, planes := [s.readBytes p.addr p.n], elems := [s.poisoned p.addr p.n]
            pois := s.poisoned p.addr p.n })) ∧
        exec .write s = .next ((s.writeBytes p.addr p.bytes p.pois).reply id { p with typ := 3 })) ∧
      (s.hbmRefused p = true →
        (near → ∃ t, exec .readRequest s = .next t ∧ SameMemory s t) ∧ ∃ t, exec .write s = .next t ∧ SameMemory s t) ∧
      (∀ q, p.amo = some q → s.eccBad q.addr q.size = false → exec .atomicRequest s =
        .next ((s.perform q).1.reply id { p with typ := 5, bytes := leBytes 8 (s.perform q).2.1, pois := (s.perform q).2.2 })) ∧
      (∀ q, p.amo = none → p.slotOp = some q → exec .atomicRequest s =
        .next ((s.slotTable q).1.reply id { p with typ := 5, bytes := leBytes 8 (s.slotTable q).2.toNat, pois := false })) ∧
      exec .controlSpaceRead s = .next (s.reply id { p with typ := 1, bytes := leBytes 8 (s.dieReg p.target p.addr), pois := false })) ∧
    exec .fenceMarker s = .next (s.reply id { p with typ := 1, bytes := [], pois := false }) ∧
    (p.late = false → p.n ≠ 0 → (∀ e ∈ h.accesses, e.waiting = false) →
      ∃ t, exec .readReply s = .next t ∧ t.net = SMap.put s.net id { p with done := true } ∧ SameMemory s t ∧
        (t.hub p.die p.hub).s = h.s ∧ ∀ e ∈ (t.hub p.die p.hub).accesses, e.id = id → p.xf = none → e.sampled = true) ∧
    ((∀ e ∈ h.accesses, e.waiting = false) →
      (p.late = false → ∃ t, exec .atomicReply s = .next t ∧ t.net = SMap.put s.net id { p with done := true } ∧ SameMemory s t ∧
        ∀ e ∈ (t.hub p.die p.hub).accesses, e.id ≠ id) ∧
      (p.xf = none → ∃ t, exec .writeAcknowledgement s = .next t ∧ t.net = SMap.drop s.net id ∧ SameMemory s t ∧
        (∀ e ∈ (t.hub p.die p.hub).accesses, e.id ≠ id) ∧
        (t.hub p.die p.hub).mark = h.mark.map fun l => l.filter fun x => decide (x ≠ id)) ∧
      (p.xf = none → h.run = .running → ∃ t, exec .countedReplyDeadline s = .next t ∧ SameMemory s t ∧
        (t.hub p.die p.hub).readS p.reg =
          (if p.reg = 0 then {} else if p.done && !p.pois then ⟨BitVec.ofNat 64 (leNat p.bytes), false⟩ else ⟨0, true⟩) ∧
        ∀ r, r ≠ p.reg → (t.hub p.die p.hub).readS r = h.readS r))

/-- Translations (R206, R207, R209 to R212): the fill of an absent page enters the serving B-die's cache and goes back as the
walk gives it; its reply enters the die's cache, which keeps 512 entries. A shootdown while one runs is dropped; otherwise every
cache loses the entries of the partition in the range, and it is done at once where no hub is to be told; a hub told makes its
handles of the range SHOT, and the last one ends the shootdown. A retry drops every entry that is not a page and counts. -/
def Obligations.Translations : Prop :=
  ∀ s : State,
    let id := s.arg.n
    let k := s.arg.part
    let g := s.part k
    (∀ p f, SMap.find id s.net = some p → p.fill = some f → s.accepts p = true → (s.die p.target).bcache = [] →
      let e := (s.walk p.part f.pasid f.va).entry p.part f.pasid f.va
      ∃ t, exec .translationFillRequest s = .next t ∧ (t.die p.target).bcache = [e] ∧ SameMemory s t ∧
        SMap.find id t.net = some { p with typ := 7, res := some e, back := true }) ∧
    (∀ p e, SMap.find id s.net = some p → p.res = some e → ∃ t, exec .translationFillReply s = .next t ∧ t.net = SMap.drop s.net id ∧
      (t.die p.die).dtc = (fillCache (s.die p.die).dtc e).take 512 ∧ SameMemory s t ∧ t.hubs = s.hubs) ∧
    (g.xlBusy = true → exec .xlinvShootdown s = .next (s.setPart k { g with xlDrop := true })) ∧
    (g.xlBusy = false →
      let v := s.arg.value.toNat
      let size := if bits v 63 62 = 0 then 2 ^ 16 else if bits v 63 62 = 1 then 2 ^ 21 else if bits v 63 62 = 2 then 2 ^ 30 else 2 ^ 48
      let va := bits v 31 0 * 65536 / size * size
      ∃ t, exec .xlinvShootdown s = .next t ∧ SameMemory s t ∧ t.hubs = s.hubs ∧
        (∀ d e, e ∈ (t.die d).dtc ∨ e ∈ (t.die d).bcache → e.part = k → e.pasid = bits v 51 32 → rangesMeet e.va e.size va size = false) ∧
        ((s.partHubs k).length = 0 → (t.part k).xlBusy = false ∧ (t.part k).xlDone = (g.xlDone + 1) % 2 ^ 32) ∧
        ((s.partHubs k).length ≠ 0 → (t.part k).xlBusy = true ∧ (t.part k).shoot = some (bits v 51 32, va, size) ∧
          (t.part k).xlPend = (s.partHubs k).length)) ∧
    (∀ p pasid va size, SMap.find id s.net = some p → (s.part p.part).shoot = some (pasid, va, size) → s.arg.ok = true → p.n < 8 →
      (∀ e ∈ s.net, e.1 = id) → s.agenda = [] →
      let f := s.part p.part
      ∃ t, exec .shootdown s = .next t ∧ SameMemory s t ∧
        (t.hub p.target p.n).handles = (s.hub p.target p.n).handles.map (fun e => (e.1, e.2.shoot pasid va size)) ∧
        (f.xlPend ≤ 1 → (t.part p.part).xlBusy = false ∧ (t.part p.part).xlDone = (f.xlDone + 1) % 2 ^ 32) ∧
        (1 < f.xlPend → (t.part p.part).xlPend = f.xlPend - 1)) ∧
    (∃ t, exec .xlretry s = .next t ∧ SameMemory s t ∧ (t.part k).xlgen = (g.xlgen + 1) % 2 ^ 32 ∧
      ∀ d e, e ∈ (t.die d).dtc ∨ e ∈ (t.die d).bcache → e.part = k → e.res = 0)

/-- The requests of a partition's mailbox (R118, R129, R147 to R149, R158): QCREATE makes a queue, QDESTROY takes one away,
QRESTART makes a faulted one idle, QSTAT answers its QCB, QPRIO gives the cap that holds from its next fetch on, PSUSPEND holds
every slot and answers once no launch runs, PRESUME lets go, PRESET resets. Answers start with the status; a locked interface
answers 4 to QCREATE. -/
def Obligations.PartitionRequests : Prop :=
  ∀ s : State,
    let k := s.arg.part
    let fn := k + 1
    let g := s.part k
    let m := s.mail fn
    let q := m 1
    let tail := (s.qreg q).2.2.2.2
    let rsp := fun (ws : List Nat) => ((ws.flatMap (leBytes 8)).zipIdx.map fun x => (x.2, x.1) : SMap Byte)
    let answers := fun (i : Instr) (ws : List Nat) (f : State → Prop) =>
      ∃ t, exec i s = .next t ∧ (t.part k).mbRsp = rsp ws ∧ SameMemory s t ∧ f t
    (s.mailOk fn [4096, 2 ^ 64, 2048, 2 ^ 20] = true →
      (g.tdisp ≠ 0 → answers .qcreate [4] fun t => t.dev.qregs = s.dev.qregs) ∧
      (g.tdisp = 0 → (s.qreg q).1 = false → 1 ≤ m 3 % 32 → m 3 % 32 ≤ 20 → bits (m 3) 7 5 = 0 → bits (m 3) 10 8 ≤ g.cap → m 2 % 256 = 0 →
        answers .qcreate [0] fun t => t.qreg q = (true, k, false, 0, 0) ∧ SMap.get [] t.dev.fwsram (imageAt q) =
          ({ rbase := m 2, qid := q, part := k, pasid := m 4, log2n := m 3 % 32, cap := bits (m 3) 10 8 } : Qcb).bytes)) ∧
    (s.mailOk fn [4096] = true → s.owns k q = true →
      (g.tdisp = 0 → ((s.qcb q).state = 0 ∨ (s.qcb q).state = 4) → tail = (s.qcb q).head →
        answers .qdestroy [0] fun t => t.qreg q = (false, k, false, 0, tail)) ∧
      answers .qstat (0 :: (List.range 16).map fun i => leNat (((s.qcb q).bytes.drop (8 * i)).take 8)) fun t => t.slots = s.slots ∧ t.hubs = s.hubs) ∧
    (∀ n, s.mailOk fn [4096, 2] = true → s.owns k q = true → (s.qcb q).state = 4 → s.heldBy q = some n →
      answers .qrestart [0] fun t =>
        (t.slot n).qcb = { (s.slot n).qcb with state := 0, tail := tail, head := ((s.slot n).qcb.head + m 2) % 2 ^ 32 }) ∧
    (∀ n, s.mailOk fn [4096, 8] = true → s.owns k q = true → m 2 ≤ g.cap → s.heldBy q = some n →
      answers .qprio [0] fun t => (t.slot n).newCap = some (m 2) ∧ (t.slot n).qcb = (s.slot n).qcb ∧ t.hubs = s.hubs) ∧
    (s.mailOk fn [] = true →
      (∃ t, exec .psuspend s = .next t ∧ (t.part k).suspReq = true ∧ (∀ n ∈ s.slotsOf k, (t.slot n).hold = true) ∧ SameMemory s t) ∧
      answers .presume [0] (fun t => (t.part k).suspended = false ∧ (t.part k).suspReq = false ∧ ∀ n ∈ s.slotsOf k, (t.slot n).hold = false) ∧
      ∃ t, exec .preset s = .next t ∧ (t.part k).rstBusy = true ∧ fn ∈ (t.part k).waits) ∧
    (g.suspReq = true →
      ((∀ n ∈ s.slotsOf k, (s.slot n).qcb.state ≠ 2) → answers .psuspendResponse [0] fun t => (t.part k).suspended = true) ∧
      ((∃ n ∈ s.slotsOf k, (s.slot n).qcb.state = 2) → s.arg.n ≤ s.cy → answers .psuspendResponse [3] fun t => t.slots = s.slots))

/-- The PF's requests and the mailboxes themselves (R118, R119, R133, R138, R150): PCONFIG sets the cap and the quota of a
partition and answers LDMAPCTL, PACEFORM answers PLCTL, or status 4 where the partition named or the paceline's own is
locked, SCHED sets GRACE and AGESTEP, PRESET resets, SLEEP puts an idle device
to sleep, where HBM keeps its contents and SRAM does not, and is refused while a launch runs. GO sets BUSY; an answer sets DONE
and clears BUSY. -/
def Obligations.PackageRequests : Prop :=
  ∀ s : State,
    let m := s.mail 0
    let part := m 1
    let rsp := fun (ws : List Nat) => ((ws.flatMap (leBytes 8)).zipIdx.map fun x => (x.2, x.1) : SMap Byte)
    let busy := (List.range 16).any fun p => s.hasLaunch p || (s.part p).scrubbing || (s.part p).rstBusy
    (s.mailOk 0 ([16, 8, 17] ++ List.replicate 12 (2 ^ 64)) = true → m 3 ≠ 0 → (s.part part).tdisp = 0 →
      ∃ t, exec .pconfig s = .next t ∧ (t.part part).cap = m 2 ∧ (t.part part).quota = m 3 ∧
        t.dev.pfRsp = rsp [0, (t.part part).ldmapCtl] ∧ SameMemory s t ∧ t.hubs = s.hubs) ∧
    (s.mailOk 0 [16, 16, 2 ^ 48] = true → (s.part (m 2)).tdisp ≠ 0 ∨ (s.part (s.pl part).part).tdisp ≠ 0 →
      ∃ t, exec .paceform s = .next t ∧ t.dev.pfRsp = rsp [4] ∧ t.pls = s.pls ∧ SameMemory s t ∧ t.hubs = s.hubs) ∧
    (s.mailOk 0 [16, 16, 2 ^ 48] = true → (s.part (m 2)).tdisp = 0 → (s.part (s.pl part).part).tdisp = 0 →
      ∃ t, exec .paceform s = .next t ∧ t.dev.pfRsp = rsp [0, (t.pl part).ctl] ∧ SameMemory s t ∧ t.hubs = s.hubs) ∧
    (s.mailOk 0 [2 ^ 64] = true →
      ∃ t, exec .sched s = .next t ∧ t.dev.grace = bits (m 1) 51 32 ∧ t.dev.agestep = bits (m 1) 19 0 ∧ t.dev.pfRsp = rsp [0] ∧ SameMemory s t) ∧
    (s.mailOk 0 [16] = true → ∃ t, exec .presetPf s = .next t ∧ (t.part part).rstBusy = true ∧ 0 ∈ (t.part part).waits) ∧
    (s.mailOk 0 [] = true →
      (busy = true → ∃ t, exec .sleepRequest s = .next t ∧ t.dev.pfRsp = rsp [3] ∧ t.dev.power = s.dev.power ∧ SameMemory s t) ∧
      (busy = false → ∃ t, exec .sleepRequest s = .next t ∧ t.dev.power = .sleep ∧ t.dev.pfRsp = rsp [0] ∧ t.dev.pfDone = true ∧
        t.dev.pfBusy = false ∧
        ∀ a, Memory.read t.mem a = if isSram (homeOf a) then 0 else Memory.read s.mem a)) ∧
    (s.arg.fn = 0 → s.dev.power = .active → s.dev.gatedAt = none →
      (s.dev.pfBusy = true → exec .mailboxGo s = .next s) ∧
      (s.dev.pfBusy = false → ∃ t, exec .mailboxGo s = .next t ∧ t.dev.pfBusy = true ∧ SameMemory s t ∧ t.hubs = s.hubs)) ∧
    (1 ≤ s.arg.fn → s.arg.fn ≤ 16 → s.dev.power = .active → s.dev.bootRec = false → (s.part (s.arg.fn - 1)).mbBusy = false →
      ∃ t, exec .mailboxGo s = .next t ∧ (t.part (s.arg.fn - 1)).mbBusy = true ∧ SameMemory s t ∧ t.hubs = s.hubs) ∧
    (s.arg.fn = 0 → ∃ t, exec .mailboxDone s = .next t ∧ t.dev.pfDone = true ∧ t.dev.pfBusy = false ∧ SameMemory s t) ∧
    (s.arg.fn ≠ 0 → ∃ t, exec .mailboxDone s = .next t ∧ (t.part (s.arg.fn - 1)).mbDone = true ∧ (t.part (s.arg.fn - 1)).mbBusy = false ∧
      SameMemory s t)

/-- Boot, recovery and debug tokens (R20, R122 to R124, R130 to R132): a cold reset keeps the fuses, the flash and what lies
outside, and clears everything else; a mix that is not permitted ends the boot with ERR 1, and a flash whose header cannot be read
enters recovery with ERR 2; firmware's first report sets STAGE 6; a recovery image that is too short for a header is refused
with ERR 2, one that fails a check with its ERR, and one that passes every check starts firmware; a token that fits begins the
scrubs after which its level begins, and one that does not changes nothing; in the partition's reset it is answered with status 3. -/
def Obligations.BootAndTokens : Prop :=
  ∀ s : State,
    let rsp := fun (ws : List Nat) => ((ws.flatMap (leBytes 8)).zipIdx.map fun x => (x.2, x.1) : SMap Byte)
    let t := s.arg.bytes
    let part := fieldOf t 2 1
    (∃ t, exec .coldReset s = .next t ∧ t.dev.mix = s.dev.mix ∧ t.dev.vdbgoff = s.dev.vdbgoff ∧ t.dev.power = .active ∧ t.hubs = [] ∧ t.slots = [] ∧
      t.parts = [] ∧ (∀ a, Memory.read t.mem a = if homeFlash ≤ homeOf a then Memory.read s.mem a else 0) ∧
      (s.mixOk = false → t.dev.bootErr = 1 ∧ t.dev.bootRec = false ∧ t.dev.bootStage = 2) ∧
      (s.mixOk = true → s.arg.ok = false → s.arg.off < imageHeader → t.dev.bootErr = 2 ∧ t.dev.bootRec = true ∧ t.dev.bootStage = 3)) ∧
    (s.dev.bootStage = 5 → s.dev.pfBusy = false → (∀ p, p < 16 → (s.part p).mbBusy = false) →
      ∃ t, exec .firmwareFirstReport s = .next t ∧ t.dev.bootStage = 6 ∧ SameMemory s t ∧ t.hubs = s.hubs) ∧
    (s.dev.bootRec = true →
      let i : ImageAt := ⟨flat (homeHost 16 none) (s.mail 0 1), s.mail 0 2⟩
      let r := ((s.stage 3).imageErr i).1
      (i.len < imageHeader → r = 2) ∧ ∃ t, exec .recoveryImageLoad s = .next t ∧ t.dev.pfRsp = rsp [r] ∧ t.dev.bootErr = r ∧
        (r = 0 → t.dev.bootStage = 5 ∧ t.dev.bootRec = false) ∧ (r ≠ 0 → t.dev.bootRec = true ∧ SameMemory s t)) ∧
    (s.fwRuns = true → fieldOf t 1 1 = 1 → s.arg.fn = part + 1 → part < 16 → (s.part part).rstBusy = true →
      exec .debugToken s = .next (s.respond s.arg.fn [3])) ∧
    (s.fwRuns = true → fieldOf t 1 1 = 1 → s.arg.fn = part + 1 → part < 16 → (s.part part).rstBusy = false → s.hasLaunch part = false →
      ∃ u, exec .debugToken s = .next u ∧
        (s.tokenOk t (s.part part).ownkh = true → (u.part part).scrubbing = true ∧ (u.part part).enter = true ∧
          (u.part part).epoch = (s.part part).epoch + 1) ∧
        (s.tokenOk t (s.part part).ownkh = false → u = s)) ∧
    (s.fwRuns = true → fieldOf t 1 1 = 2 → s.arg.fn = 0 → part = 0 → s.dev.vdbgoff = false → (∀ p, p < 16 → s.hasLaunch p = false) →
      ∃ u, exec .debugToken s = .next u ∧
        (s.tokenOk t Config.khash = true → u.dev.vendorEnter = true ∧ u.dev.bootDbg = s.dev.bootDbg ∧
          ∀ p, p < 16 → (s.part p).rstBusy = false → (u.part p).scrubbing = true) ∧
        (s.tokenOk t Config.khash = false → u = s)) ∧
    (16 < s.arg.fn ∨ s.fwRuns = false → exec .debugToken s = .next s)

/-- SPDM, IDE keys and TDISP (R94, R125 to R127, R129, R132): a function that answers sends one response, whose bytes DMTF's
rules fix and the model leaves free (log 11), with the algorithms of R127 and the part of the certificate chain that is asked for,
and keeps what the session needs; CHALLENGE and the measurements end with a signature by the identity key; 32 bytes within a
session set OWNKH while the interface is unlocked; LOCK, START, STOP and ERROR move the interface between its states. -/
def Obligations.SpdmAndTdisp : Prop :=
  ∀ s : State,
    let fn := s.arg.fn
    let x := s.responder fn
    let req := s.arg.bytes
    let body := fun (r : SpdmReq) => Config.spdmBody s.free r.code req
    let signed := fun (b : List Byte) => b ++ identitySign b
    let sends := fun (i : Instr) (b : List Byte) (y : Spdm) =>
      ∃ t, exec i s = .next t ∧ t.outs = s.outs ++ [.spdm fn b] ∧ t.responder fn = y ∧ t.free = s.free + 1 ∧ SameMemory s t ∧ t.hubs = s.hubs
    (s.spdmUp fn = true →
      sends .getVersion (body .version) { x with version := true, algs := false } ∧ sends .getCapabilities (body .capabilities) x ∧
      sends .negotiateAlgorithms (body .algorithms ++ algorithmBytes) { x with algs := true } ∧ sends .getDigests (body .digests) x ∧
      (fieldOf req 2 1 % 16 = 0 →
        sends .getCertificate (body .certificate ++ (Config.certChain.drop (fieldOf req 4 2)).take (fieldOf req 6 2)) x) ∧
      (fieldOf req 2 1 % 16 ≠ 0 → exec .getCertificate s = .next { s with outs := s.outs ++ [.spdm fn spdmError] }) ∧
      sends .challenge (signed (body .challenge)) x ∧
      sends .keyExchange (body .keyExchange) { x with session := true, finished := false } ∧
      sends .finish (body .finish) { x with finished := x.session } ∧
      sends .endSession (body .endSession) { x with session := false, finished := false } ∧
      sends .getMeasurements (signed (body .measurements ++ (s.blocks fn).flatMap fun y => BitVec.ofNat 8 y.1 :: y.2)) x ∧
      sends .vendorDefinedRequest (body .vendor) x ∧
      (x.finished = true → exec .ideKm s = .next (s.setResponder fn { x with ideKey := req })) ∧
      ∀ p, partOfFn fn = some p →
        (x.finished = true → (s.part p).tdisp = 0 → req.length = 32 →
          ∃ t, exec .vendorDefinedRequest s = .next t ∧ (t.part p).ownkh = BitVec.ofNat 256 (leNat req)) ∧
        ((s.part p).tdisp = 0 → ∃ t, exec .tdispLockInterface s = .next t ∧ (t.part p).tdisp = 1 ∧ SameMemory s t ∧ t.hubs = s.hubs) ∧
        ((s.part p).tdisp = 1 → exec .tdispStartInterface s = .next (s.setPart p { s.part p with tdisp := 2 })) ∧
        exec .tdispStopInterface s = .next (s.setPart p { s.part p with tdisp := 0 })) ∧
    (∀ p, partOfFn fn = some p → ∃ t, exec .tdispError s = .next t ∧ (t.part p).tdisp = 3 ∧ (t.part p).scrubbing = true)

/-- The windows (R85, R91, R97 to R101, R118, R130, R207): an access of the control window that is not an aligned 4 or 8 bytes
is completed with Unsupported Request; a VF's aligned 8-byte writes of its own block reach the mailbox, the tail of the fault ring
and the shootdown register before anything else that is due, and firmware's the lock of a map; a debug access that no level permits
is completed with Unsupported Request, and one that is permitted reads or writes the B-die's buffer; a rank-table entry keeps the
fields that RANKTAB has. -/
def Obligations.WindowAccesses : Prop :=
  ∀ s : State,
    let a := s.arg
    let k := a.part
    let block := 0x100000 + 0x10000 * k
    let asks := fun (i : Instr) (x : Arg) => exec .controlWindowWrite s = .next { s with inbox := (i, x) :: s.inbox }
    (((a.size ≠ 4 ∧ a.size ≠ 8) ∨ a.off % a.size ≠ 0) → a.fn ≤ 16 → a.off < 0x4000000 →
      exec .controlWindowWrite s = .next { s with outs := s.outs ++ [.unsupported a.fn 0] }) ∧
    (k < 16 → a.fn = k + 1 → a.size = 8 → s.dev.power = .active → s.dev.bootRec = false →
      (a.off = block + 0x208 → a.value.toNat % 2 = 1 → asks .mailboxGo { fn := k + 1 }) ∧
      (a.off = block + 0x118 → asks .frtailWrite { part := k, value := BitVec.ofNat 64 (a.value.toNat % 2 ^ 32) }) ∧
      (a.off = block + 0x310 → asks .xlinvShootdown { part := k, value := a.value })) ∧
    (k < 16 → a.fn = firmwareFn → a.size = 8 → a.off = block + 0x60 → s.frozen k = false →
      asks (if a.value.toNat % 2 = 1 then .ldmapLock else .ldmapUnlock) { part := k }) ∧
    (s.dev.power = .active → s.dev.gatedAt = none →
      (s.debugDie a.fn a.off = none → exec .debugWindowAccess s = .next { s with outs := s.outs ++ [.unsupported a.fn 4] }) ∧
      (∀ p, s.debugDie a.fn a.off = some p →
        (a.n = 1 → ∃ t, exec .debugWindowAccess s = .next t ∧ t.hubs = s.hubs ∧ t.outs = s.outs ∧
          t.mem = (s.writeBytes (flat (homeBuf p) (a.off % 2 ^ 30)) (a.bytes.take (2 ^ 30 - a.off % 2 ^ 30)) false).mem) ∧
        (a.n = 0 → exec .debugWindowAccess s = .next
          { s with outs := s.outs ++ [.debugRead a.fn (s.readBytes (flat (homeBuf p) (a.off % 2 ^ 30)) (min a.size (2 ^ 30 - a.off % 2 ^ 30)))] }))) ∧
    ((s.xdie a.pos).colls = [] → exec .ranktabWrite s = .next (s.setXdie a.pos
      { s.xdie a.pos with ranktab := SMap.put (s.xdie a.pos).ranktab a.rank (a.value &&& 0xC0FF800000000000) }))

/-! ### Long links, collectives, power -/

/-- Long links and endpoint packets (R66 to R72, R75, R78, R79, R85): a trained port is up with its peer and its numbers begin
again; a port that is up sends the flit whose turn it is with its number and keeps it until it is acknowledged, and one that
resends sends the next of its replay; a bad flit asks for a NAK, a good idle flit frees what it acknowledges, and a good endpoint
flit with the number expected is accepted; without progress for 2 µs a port begins to resend; a packet that stays in the package
goes on to its hub, and it enters the ring of its hub where there is room, or is counted. -/
def Obligations.LongLinks : Prop :=
  ∀ s : State,
    let pos := s.arg.pos
    let m := s.arg.m
    let x := s.xdie pos
    let p := x.port m
    let of := fun (t : State) => (t.xdie pos).port m
    let f := flitOf s.arg.bytes s.arg.flit
    let kept := p.replay.filter fun (y : Flit × Nat) => decide ((y.1.seq + 4096 - (f.ack + 1) % 4096) % 4096 < 2048)
    let goes := fun (i : Instr) (g : State → Prop) => ∃ t, exec i s = .next t ∧ SameMemory s t ∧ t.hubs = s.hubs ∧ g t
    (goes .longLinkTrained fun t => (of t).up = true ∧ (of t).peer = s.arg.n % 4096 ∧ (of t).seq = 0 ∧ (of t).exp = 0 ∧ (of t).ack = 4095 ∧
      (of t).queue = p.queue ∧ (of t).lost = p.lost) ∧
    (p.up = true →
      (∀ c w g r, p.gone = p.replay.length → p.replay.length < 512 → ({ p with busy := false, times := flitTime s.cy } : LPort).nextClass = some (c, w) →
        takeClass c p.queue = some (g, r) →
        let sent := { g with seq := p.seq, ack := p.ack, nak := p.nak }
        goes .flitTransmit fun t => t.outs = s.outs ++ [.flit pos m sent.bytes sent] ∧ (of t).queue = r ∧ (of t).seq = (p.seq + 1) % 4096 ∧
          (of t).replay = p.replay ++ [(sent, 0)]) ∧
      (∀ g n, p.replay[p.gone]? = some (g, n) →
        let sent := { g with ack := p.ack, nak := p.nak }
        goes .flitTransmit fun t => t.outs = s.outs ++ [.flit pos m sent.bytes sent] ∧ (of t).queue = p.queue ∧ (of t).gone = p.gone + 1 ∧
          (of t).retries = satAdd 0xFFFF p.retries 1) ∧
      (flitGood s.arg.bytes = false → goes .euzinFlitReceive fun t => (of t).nak = true ∧ (of t).exp = p.exp ∧ (of t).replay = p.replay) ∧
      (flitGood s.arg.bytes = true → f.nak = false → f.typ = 0 → goes .euzinFlitReceive fun t => (of t).replay = kept ∧ (of t).exp = p.exp) ∧
      (flitGood s.arg.bytes = true → f.nak = false → f.typ = 1 → x.isOwn f.drank = true → f.seq = p.exp →
        goes .euzinFlitReceive fun t => (of t).exp = (p.exp + 1) % 4096 ∧ (of t).ack = f.seq ∧ (of t).replay = kept) ∧
      (p.replay ≠ [] → p.progress + flitTimeout ≤ s.cy → (∀ y ∈ p.replay, y.2 < 2) →
        goes .flitRetryTimeout fun t => (of t).gone = 0 ∧ (of t).replay = p.replay ∧
          (s.cy + flitTimeout, Instr.flitRetryTimeout, ({ pos := pos, m := m } : Arg)) ∈ t.timers)) ∧
    (p.up = false → exec .euzinFlitReceive s = .next s) ∧
    (∀ k, SMap.find s.arg.n s.net = some k →
      ((s.xdie k.target).isOwn k.pkt.drank = true → ∀ q, s.phys k.part k.pkt.dpos = some q → k.pkt.dhub < (s.kind q).hubs →
        goes .endpointPacket fun t => t.netSeq = s.netSeq + 1) ∧
      (∀ base len, s.ring k.die k.hub = some (base, len) →
        let n := (len - 256) / 256
        let head := s.readNat base 8
        let full := (head + 2 ^ 64 - s.readNat (base + 8) 8) % 2 ^ 64 = n
        let u := { s with net := SMap.drop s.net s.arg.n }
        (full → exec .endpointPacketDeliver s = .next
          (u.writeBytes (base + 16) (leBytes 8 ((s.readNat (base + 16) 8 + 1) % 2 ^ 64)) false)) ∧
        (¬ full → exec .endpointPacketDeliver s = .next
          ((u.writeBytes (base + 256 + 256 * (head % n)) (ringEntry k.pkt) false).writeBytes base (leBytes 8 ((head + 1) % 2 ^ 64)) false))))

/-- Collective operations (R86 to R91, R444): a contribution whose E differs asks for the abort, subcode 2, and one that fits joins
the operation, whose time limit runs from the first; a READY is kept, with no operation open too, until the last owner's, when rank 0
commits in the next pulse; a commit of REDSCAT sends its status, an abort drops the operation, and the context's next has the next
number; an operation that is committed takes neither again, and one that has ended no READY; an abort of the next operation waits for
the open one; a limit that passes asks for the abort, subcode 1. -/
def Obligations.Collectives : Prop :=
  ∀ s : State,
    let pos := s.arg.pos
    let c := s.arg.n
    let num := s.arg.off
    let x := s.xdie pos
    let n := ctxRanks (x.context c)
    let late : Arg := { pos := pos, n := c, off := num, m := 1 }
    (∀ p y, SMap.find c s.net = some p → s.lowerArrival p.target p.addr = false → (s.xdie p.target).op p.addr = some y →
      (y.count ≠ 0 → p.con.count ≠ y.count →
        ∃ t, exec .collectiveContribution s = .next t ∧
          t.inbox = s.inbox ++ [(.abort, { pos := p.target, n := p.addr, off := y.num, m := 2 })] ∧
          (y.started ≠ none → t.xdies = s.xdies) ∧ SameMemory s t) ∧
      (y.count = p.con.count → p.con.count ≠ 0 → (∀ v ∈ p.con.vals, v.1 < p.con.count ∧ ∀ z ∈ y.mine, z.1 ≠ v.1) →
        ((s.xdie p.target).setOp { y with mine := y.mine ++ p.con.vals }).used ≤ 8388608 →
        ∃ t, exec .collectiveContribution s = .next t ∧ SameMemory s t ∧
          ∃ z, (t.xdie p.target).op p.addr = some z ∧ z.mine = y.mine ++ p.con.vals ∧ z.started = some (y.started.getD s.cy))) ∧
    (num < x.opNum c → exec .ready s = .next s ∧ exec .abort s = .next s) ∧
    (x.opNum c ≤ num → ∃ t, exec .ready s = .next t ∧ SameMemory s t ∧ t.hubs = s.hubs ∧
      (∃ z, (t.xdie pos).opAt c num = some z ∧ z.ready = ((x.opAt c num).map (·.ready)).getD [] ++ [s.arg.rank]) ∧
      ((∀ j, j < n → j ∈ ((x.opAt c num).map (·.ready)).getD [] ∨ j = s.arg.rank) →
        (s.cy + 1, Instr.commit, ({ pos := pos, n := c, off := num, rank := 0 } : Arg)) ∈ t.timers)) ∧
    (x.op c = none → exec .commit s = .next s) ∧
    (x.opAt c num = none → exec .collectiveTimeLimit s = .next s) ∧
    (∀ o, x.op c = some o →
      (o.num ≠ num → exec .commit s = .next s) ∧
      (o.num < num → ∃ t, exec .abort s = .next t ∧ t.xdies = s.xdies ∧ (s.cy + 1, Instr.abort, s.arg) ∈ t.timers) ∧
      (o.num = num → o.committed = true → exec .commit s = .next s ∧ (s.arg.m ≠ 3 → s.arg.m ≠ 5 → exec .abort s = .next s)) ∧
      (o.num = num → o.committed = false →
        (∃ t, exec .commit s = .next t ∧ SameMemory s t ∧ Out.collective pos c (ctxMine (x.context c)) 1 ∈ t.outs) ∧
        ∃ t, exec .abort s = .next t ∧ SameMemory s t ∧ (t.xdie pos).opAt c num = none ∧ (t.xdie pos).opNum c = num + 1)) ∧
    ∀ o, x.opAt c num = some o →
      (s.arg.ok = true → exec .collectiveTimeLimit s = .next
        (if o.started = some s.arg.value.toNat ∧ o.sentReady = false then { s with inbox := s.inbox ++ [(.abort, late)] } else s)) ∧
      (s.arg.ok = false → exec .collectiveTimeLimit s = .next
        (if o.firstReady = some s.arg.value.toNat ∧ o.committed = false then { s with inbox := s.inbox ++ [(.abort, late)] } else s))

/-- Power (R31 to R34, R64, R133 to R135): an evaluation moves each limit's request by its reading, a free value of the model
(log 42); a trip turns the package off but for the always-on island: SRAM reads 0, HBM keeps its contents and no hub holds an
item; a wake and the trip's exit boot with WAKE = 1; the power controller gates the dies of a device at rest, which is in
idle-retain 1 ms later, and a wake clocks them, with nothing lost; loss of VAON leaves the flash and what lies outside. -/
def Obligations.PowerStates : Prop :=
  ∀ s : State,
    let d := s.dev
    (∃ t w, exec .powerLimitEvaluation s = .next t ∧ SameMemory s t ∧ t.hubs = s.hubs ∧
      t.dev.reqPkg = d.reqPkg.eval (decide (3000 < Config.sensor w)) (decide (Config.sensor w < 2900))) ∧
    (∃ t, exec .vcoreCurrentEvaluation s = .next t ∧ SameMemory s t ∧ t.hubs = s.hubs ∧
      t.dev.reqVcore = d.reqVcore.eval (decide (5800 < Config.sensor s.free)) (decide (Config.sensor (s.free + 1) < 5400))) ∧
    (d.power = .sleep ∨ d.power = .off ∨ d.power = .trip → exec .thermalTrip s = .next s) ∧
    (d.power = .active ∨ d.power = .idleRetain → ∃ t, exec .thermalTrip s = .next t ∧ t.dev.power = .trip ∧ t.hubs = [] ∧ t.arrays = [] ∧
      t.agenda = [] ∧
      ∀ a, isSram (homeOf a) = true → Memory.read t.mem a = 0) ∧
    (d.power = .trip → s.arg.ok = true → ∃ t, exec .tripExit s = .next t ∧ t.dev.power = .active ∧ t.dev.bootWake = 1) ∧
    (d.power = .sleep → ∃ t, exec .wakeFromSleep s = .next t ∧ t.dev.power = .active ∧ t.dev.bootWake = 1) ∧
    (d.power ≠ .trip → exec .tripExit s = .next s) ∧ (d.power ≠ .sleep → exec .wakeFromSleep s = .next s) ∧
    (d.power = .active → s.restful = true →
      (d.gatedAt = none → ∃ t, exec .idleRetainEntry s = .next t ∧ t.dev.power = .active ∧ t.dev.gatedAt = some s.cy ∧ SameMemory s t ∧
        t.hubs = s.hubs ∧
        ∀ p, p < 48 → s.good p = true → s.kind p ≠ .hDie → (t.die p).gated = true) ∧
      (d.gatedAt = some s.arg.n → s.arg.n + 1000 * Config.cyPerUs ≤ s.cy →
        exec .idleRetainEntry s = .next { s with dev := { d with power := .idleRetain, gatedAt := none } })) ∧
    (d.power = .idleRetain → ∃ t, exec .wakeFromIdle s = .next t ∧ t.dev.power = .active ∧ SameMemory s t ∧ t.hubs = s.hubs ∧
      ∀ p, p < 48 → s.good p = true → s.kind p ≠ .hDie → (t.die p).gated = false) ∧
    (∃ t, exec .powerOff s = .next t ∧ t.dev.power = .off ∧ t.dev.mix = d.mix ∧ t.hubs = [] ∧
      ∀ a, Memory.read t.mem a = if homeFlash ≤ homeOf a then Memory.read s.mem a else 0)
end

