-- ==== Sys2Proof/Laws/Maps.lean ====
section
/-! SUPPORT. The sparse map: what a reader finds after a change, and the canonical form. -/

namespace Sys2Proof

variable {α β : Type}

/-- A change of one entry leaves every other entry as it is. -/
theorem SMap.find_put (m : SMap α) (k j : Nat) (a : α) :
    SMap.find j (SMap.put m k a) = if j = k then some a else SMap.find j m := by
  induction m with
  | nil => simp only [SMap.put, SMap.find]; grind
  | cons x r ih =>
    obtain ⟨i, b⟩ := x
    simp only [SMap.put]
    split
    · simp only [SMap.find]; grind
    · split
      · simp only [SMap.find]; grind
      · simp only [SMap.find, ih]; grind

@[simp] theorem SMap.find_put_self (m : SMap α) (k : Nat) (a : α) : SMap.find k (SMap.put m k a) = some a := by
  simp [SMap.find_put]

theorem SMap.get_put (d : α) (m : SMap α) (k j : Nat) (a : α) :
    SMap.get d (SMap.put m k a) j = if j = k then a else SMap.get d m j := by
  simp only [SMap.get, SMap.find_put]; split <;> rfl

@[simp] theorem SMap.get_put_self (d : α) (m : SMap α) (k : Nat) (a : α) : SMap.get d (SMap.put m k a) k = a := by
  simp [SMap.get_put]

theorem SMap.get_put_ne (d : α) (m : SMap α) {k j : Nat} (a : α) (h : j ≠ k) :
    SMap.get d (SMap.put m k a) j = SMap.get d m j := by
  simp [SMap.get_put, h]

@[simp] theorem SMap.get_nil (d : α) (k : Nat) : SMap.get d ([] : SMap α) k = d := rfl

/-- Entries that are filtered by their index: those kept are found as before. -/
theorem SMap.find_filter (p : Nat → Bool) (m : SMap α) (k : Nat) :
    SMap.find k (m.filter fun e => p e.1) = if p k then SMap.find k m else none := by
  induction m with
  | nil => simp [SMap.find]
  | cons x r ih =>
    obtain ⟨i, b⟩ := x
    by_cases h : p i <;> by_cases h' : i = k <;> simp_all [SMap.find]

theorem SMap.get_filter (d : α) (p : Nat → Bool) (m : SMap α) (k : Nat) :
    SMap.get d (m.filter fun e => p e.1) k = if p k then SMap.get d m k else d := by
  simp only [SMap.get, SMap.find_filter]; split <;> rfl

theorem SMap.find_drop (m : SMap α) (k j : Nat) : SMap.find j (SMap.drop m k) = if j = k then none else SMap.find j m := by
  have h := SMap.find_filter (fun i => i != k) m j
  simp only [SMap.drop, h]
  by_cases e : j = k <;> simp [e]

theorem SMap.get_drop (d : α) (m : SMap α) (k j : Nat) : SMap.get d (SMap.drop m k) j = if j = k then d else SMap.get d m j := by
  simp only [SMap.get, SMap.find_drop]; split <;> rfl

theorem SMap.get_set {_ : DecidableEq α} (d : α) (m : SMap α) (k j : Nat) (a : α) :
    SMap.get d (SMap.set d m k a) j = if j = k then a else SMap.get d m j := by
  unfold SMap.set
  split
  · simp only [SMap.get_drop]; grind
  · rw [SMap.get_put]

@[simp] theorem SMap.get_set_self {_ : DecidableEq α} (d : α) (m : SMap α) (k : Nat) (a : α) : SMap.get d (SMap.set d m k a) k = a := by
  simp [SMap.get_set]

/-- Entries changed by one function. -/
theorem SMap.find_map (f : Nat → α → β) (m : SMap α) (k : Nat) :
    SMap.find k (m.map fun e => (e.1, f e.1 e.2)) = (SMap.find k m).map (f k) := by
  induction m with
  | nil => simp [SMap.find]
  | cons x r ih =>
    obtain ⟨i, b⟩ := x
    by_cases h : i = k
    · subst h; simp [SMap.find]
    · simp [SMap.find, h, ih]

/-- The same where the default goes to the default. -/
theorem SMap.get_map (d : α) (f : α → α) (m : SMap α) (k : Nat) (h : f d = d) :
    SMap.get d (m.map fun e => (e.1, f e.2)) k = f (SMap.get d m k) := by
  simp only [SMap.get, SMap.find_map (fun _ => f)]
  cases SMap.find k m <;> simp [h]

/-! ### The canonical form -/

/-- In the canonical form an index stands before a list when it stands below its first index. -/
theorem SMap.wf_cons [DecidableEq α] (d : α) (k : Nat) (a : α) (m : SMap α) :
    SMap.wf d ((k, a) :: m) = true ↔ a ≠ d ∧ SMap.wf d m = true ∧ ∀ e ∈ m, k < e.1 := by
  induction m generalizing k a with
  | nil => simp [SMap.wf]
  | cons x r ih =>
    obtain ⟨j, b⟩ := x
    have h := ih j b
    simp only [SMap.wf, Bool.and_eq_true, decide_eq_true_eq, List.mem_cons, forall_eq_or_imp]
    constructor
    · rintro ⟨⟨h1, h2⟩, h3⟩
      refine ⟨h2, h3, h1, fun e he => ?_⟩
      exact Nat.lt_trans h1 ((h.1 h3).2.2 e he)
    · rintro ⟨h1, h2, h3, -⟩
      exact ⟨⟨h3, h1⟩, h2⟩

theorem SMap.wf_filter [DecidableEq α] (d : α) (p : Nat × α → Bool) (m : SMap α) (h : SMap.wf d m = true) :
    SMap.wf d (m.filter p) = true := by
  induction m with
  | nil => rfl
  | cons x r ih =>
    obtain ⟨k, a⟩ := x
    obtain ⟨h1, h2, h3⟩ := (SMap.wf_cons d k a r).1 h
    by_cases hp : p (k, a)
    · rw [List.filter_cons_of_pos hp]
      exact (SMap.wf_cons d k a _).2 ⟨h1, ih h2, fun e he => h3 e (List.mem_filter.1 he).1⟩
    · rw [List.filter_cons_of_neg hp]; exact ih h2

theorem SMap.mem_put (m : SMap α) (k : Nat) (a : α) (e : Nat × α) (h : e ∈ SMap.put m k a) : e = (k, a) ∨ e ∈ m := by
  induction m with
  | nil => simpa [SMap.put] using h
  | cons x r ih =>
    obtain ⟨i, b⟩ := x
    simp only [SMap.put] at h
    split at h
    · simpa using h
    · split at h
      · simp only [List.mem_cons] at h ⊢; tauto
      · simp only [List.mem_cons] at h ⊢
        rcases h with h | h
        · tauto
        · rcases ih h with h | h <;> tauto

theorem SMap.wf_put [DecidableEq α] (d : α) (m : SMap α) (k : Nat) (a : α) (ha : a ≠ d) (h : SMap.wf d m = true) :
    SMap.wf d (SMap.put m k a) = true := by
  induction m with
  | nil => simp [SMap.put, SMap.wf, ha]
  | cons x r ih =>
    obtain ⟨i, b⟩ := x
    obtain ⟨h1, h2, h3⟩ := (SMap.wf_cons d i b r).1 h
    simp only [SMap.put]
    split
    · rename_i hk
      exact (SMap.wf_cons d k a _).2 ⟨ha, h, fun e he => by
        rcases List.mem_cons.1 he with rfl | he
        · exact hk
        · exact Nat.lt_trans hk (h3 e he)⟩
    · split
      · rename_i hk; subst hk
        exact (SMap.wf_cons d i a _).2 ⟨ha, h2, h3⟩
      · rename_i hk hk'
        refine (SMap.wf_cons d i b _).2 ⟨h1, ih h2, fun e he => ?_⟩
        rcases SMap.mem_put r k a e he with rfl | he
        · show i < k; omega
        · exact h3 e he

/-- Setting a key keeps the canonical form. -/
theorem SMap.wf_set [DecidableEq α] (d : α) (m : SMap α) (k : Nat) (a : α) (h : SMap.wf d m = true) :
    SMap.wf d (SMap.set d m k a) = true := by
  unfold SMap.set
  split
  · exact SMap.wf_filter d _ m h
  · exact SMap.wf_put d m k a ‹_› h

end Sys2Proof
end

