-- ==== Sys2Proof/Laws/State.lean ====
section
/-! SUPPORT. What each update of the state changes, field by field and family by family: nothing else than its own. -/

namespace Sys2Proof.Machine

open Sys2Proof

/-! ### setDie -/

@[simp] theorem State.setDie_cur (s : State) (p : Nat) (x : Die) : (s.setDie p x).cur = s.cur := (rfl)
@[simp] theorem State.setDie_inbox (s : State) (p : Nat) (x : Die) : (s.setDie p x).inbox = s.inbox := (rfl)
@[simp] theorem State.setDie_arg (s : State) (p : Nat) (x : Die) : (s.setDie p x).arg = s.arg := (rfl)
@[simp] theorem State.setDie_ended (s : State) (p : Nat) (x : Die) : (s.setDie p x).ended = s.ended := (rfl)
@[simp] theorem State.setDie_agenda (s : State) (p : Nat) (x : Die) : (s.setDie p x).agenda = s.agenda := (rfl)
@[simp] theorem State.setDie_timers (s : State) (p : Nat) (x : Die) : (s.setDie p x).timers = s.timers := (rfl)
@[simp] theorem State.setDie_seq (s : State) (p : Nat) (x : Die) : (s.setDie p x).seq = s.seq := (rfl)
@[simp] theorem State.setDie_free (s : State) (p : Nat) (x : Die) : (s.setDie p x).free = s.free := (rfl)
@[simp] theorem State.setDie_net (s : State) (p : Nat) (x : Die) : (s.setDie p x).net = s.net := (rfl)
@[simp] theorem State.setDie_netSeq (s : State) (p : Nat) (x : Die) : (s.setDie p x).netSeq = s.netSeq := (rfl)
@[simp] theorem State.setDie_chan (s : State) (p : Nat) (x : Die) : (s.setDie p x).chan = s.chan := (rfl)
@[simp] theorem State.setDie_outs (s : State) (p : Nat) (x : Die) : (s.setDie p x).outs = s.outs := (rfl)
@[simp] theorem State.setDie_cy (s : State) (p : Nat) (x : Die) : (s.setDie p x).cy = s.cy := (rfl)
@[simp] theorem State.setDie_dev (s : State) (p : Nat) (x : Die) : (s.setDie p x).dev = s.dev := (rfl)
@[simp] theorem State.setDie_slots (s : State) (p : Nat) (x : Die) : (s.setDie p x).slots = s.slots := (rfl)
@[simp] theorem State.setDie_parts (s : State) (p : Nat) (x : Die) : (s.setDie p x).parts = s.parts := (rfl)
@[simp] theorem State.setDie_pls (s : State) (p : Nat) (x : Die) : (s.setDie p x).pls = s.pls := (rfl)
@[simp] theorem State.setDie_hubs (s : State) (p : Nat) (x : Die) : (s.setDie p x).hubs = s.hubs := (rfl)
@[simp] theorem State.setDie_arrays (s : State) (p : Nat) (x : Die) : (s.setDie p x).arrays = s.arrays := (rfl)
@[simp] theorem State.setDie_xdies (s : State) (p : Nat) (x : Die) : (s.setDie p x).xdies = s.xdies := (rfl)
@[simp] theorem State.setDie_beats (s : State) (p : Nat) (x : Die) : (s.setDie p x).beats = s.beats := (rfl)
@[simp] theorem State.setDie_mem (s : State) (p : Nat) (x : Die) : (s.setDie p x).mem = s.mem := (rfl)
@[simp] theorem State.setDie_lines (s : State) (p : Nat) (x : Die) : (s.setDie p x).lines = s.lines := (rfl)
@[simp] theorem State.setDie_epochs (s : State) (p : Nat) (x : Die) : (s.setDie p x).epochs = s.epochs := (rfl)
@[simp] theorem State.setDie_ecc (s : State) (p : Nat) (x : Die) : (s.setDie p x).ecc = s.ecc := (rfl)
@[simp] theorem State.setDie_get_hub (s : State) (p : Nat) (x : Die) (q k : Nat) : (s.setDie p x).hub q k = s.hub q k := (rfl)
@[simp] theorem State.setDie_get_arr (s : State) (p : Nat) (x : Die) (q k : Nat) : (s.setDie p x).arr q k = s.arr q k := (rfl)
@[simp] theorem State.setDie_get_slot (s : State) (p : Nat) (x : Die) (q : Nat) : (s.setDie p x).slot q = s.slot q := (rfl)
@[simp] theorem State.setDie_get_part (s : State) (p : Nat) (x : Die) (q : Nat) : (s.setDie p x).part q = s.part q := (rfl)
@[simp] theorem State.setDie_get_pl (s : State) (p : Nat) (x : Die) (q : Nat) : (s.setDie p x).pl q = s.pl q := (rfl)
@[simp] theorem State.setDie_get_xdie (s : State) (p : Nat) (x : Die) (q : Nat) : (s.setDie p x).xdie q = s.xdie q := (rfl)

/-! ### setHub -/

@[simp] theorem State.setHub_cur (s : State) (p h : Nat) (x : Hub) : (s.setHub p h x).cur = s.cur := (rfl)
@[simp] theorem State.setHub_inbox (s : State) (p h : Nat) (x : Hub) : (s.setHub p h x).inbox = s.inbox := (rfl)
@[simp] theorem State.setHub_arg (s : State) (p h : Nat) (x : Hub) : (s.setHub p h x).arg = s.arg := (rfl)
@[simp] theorem State.setHub_ended (s : State) (p h : Nat) (x : Hub) : (s.setHub p h x).ended = s.ended := (rfl)
@[simp] theorem State.setHub_agenda (s : State) (p h : Nat) (x : Hub) : (s.setHub p h x).agenda = s.agenda := (rfl)
@[simp] theorem State.setHub_timers (s : State) (p h : Nat) (x : Hub) : (s.setHub p h x).timers = s.timers := (rfl)
@[simp] theorem State.setHub_seq (s : State) (p h : Nat) (x : Hub) : (s.setHub p h x).seq = s.seq := (rfl)
@[simp] theorem State.setHub_free (s : State) (p h : Nat) (x : Hub) : (s.setHub p h x).free = s.free := (rfl)
@[simp] theorem State.setHub_net (s : State) (p h : Nat) (x : Hub) : (s.setHub p h x).net = s.net := (rfl)
@[simp] theorem State.setHub_netSeq (s : State) (p h : Nat) (x : Hub) : (s.setHub p h x).netSeq = s.netSeq := (rfl)
@[simp] theorem State.setHub_chan (s : State) (p h : Nat) (x : Hub) : (s.setHub p h x).chan = s.chan := (rfl)
@[simp] theorem State.setHub_outs (s : State) (p h : Nat) (x : Hub) : (s.setHub p h x).outs = s.outs := (rfl)
@[simp] theorem State.setHub_cy (s : State) (p h : Nat) (x : Hub) : (s.setHub p h x).cy = s.cy := (rfl)
@[simp] theorem State.setHub_dev (s : State) (p h : Nat) (x : Hub) : (s.setHub p h x).dev = s.dev := (rfl)
@[simp] theorem State.setHub_slots (s : State) (p h : Nat) (x : Hub) : (s.setHub p h x).slots = s.slots := (rfl)
@[simp] theorem State.setHub_parts (s : State) (p h : Nat) (x : Hub) : (s.setHub p h x).parts = s.parts := (rfl)
@[simp] theorem State.setHub_pls (s : State) (p h : Nat) (x : Hub) : (s.setHub p h x).pls = s.pls := (rfl)
@[simp] theorem State.setHub_dies (s : State) (p h : Nat) (x : Hub) : (s.setHub p h x).dies = s.dies := (rfl)
@[simp] theorem State.setHub_arrays (s : State) (p h : Nat) (x : Hub) : (s.setHub p h x).arrays = s.arrays := (rfl)
@[simp] theorem State.setHub_xdies (s : State) (p h : Nat) (x : Hub) : (s.setHub p h x).xdies = s.xdies := (rfl)
@[simp] theorem State.setHub_beats (s : State) (p h : Nat) (x : Hub) : (s.setHub p h x).beats = s.beats := (rfl)
@[simp] theorem State.setHub_mem (s : State) (p h : Nat) (x : Hub) : (s.setHub p h x).mem = s.mem := (rfl)
@[simp] theorem State.setHub_lines (s : State) (p h : Nat) (x : Hub) : (s.setHub p h x).lines = s.lines := (rfl)
@[simp] theorem State.setHub_epochs (s : State) (p h : Nat) (x : Hub) : (s.setHub p h x).epochs = s.epochs := (rfl)
@[simp] theorem State.setHub_ecc (s : State) (p h : Nat) (x : Hub) : (s.setHub p h x).ecc = s.ecc := (rfl)
@[simp] theorem State.setHub_get_die (s : State) (p h : Nat) (x : Hub) (q : Nat) : (s.setHub p h x).die q = s.die q := (rfl)
@[simp] theorem State.setHub_get_arr (s : State) (p h : Nat) (x : Hub) (q k : Nat) : (s.setHub p h x).arr q k = s.arr q k := (rfl)
@[simp] theorem State.setHub_get_slot (s : State) (p h : Nat) (x : Hub) (q : Nat) : (s.setHub p h x).slot q = s.slot q := (rfl)
@[simp] theorem State.setHub_get_part (s : State) (p h : Nat) (x : Hub) (q : Nat) : (s.setHub p h x).part q = s.part q := (rfl)
@[simp] theorem State.setHub_get_pl (s : State) (p h : Nat) (x : Hub) (q : Nat) : (s.setHub p h x).pl q = s.pl q := (rfl)
@[simp] theorem State.setHub_get_xdie (s : State) (p h : Nat) (x : Hub) (q : Nat) : (s.setHub p h x).xdie q = s.xdie q := (rfl)

/-! ### setArr -/

@[simp] theorem State.setArr_cur (s : State) (p a : Nat) (x : Arr) : (s.setArr p a x).cur = s.cur := (rfl)
@[simp] theorem State.setArr_inbox (s : State) (p a : Nat) (x : Arr) : (s.setArr p a x).inbox = s.inbox := (rfl)
@[simp] theorem State.setArr_arg (s : State) (p a : Nat) (x : Arr) : (s.setArr p a x).arg = s.arg := (rfl)
@[simp] theorem State.setArr_ended (s : State) (p a : Nat) (x : Arr) : (s.setArr p a x).ended = s.ended := (rfl)
@[simp] theorem State.setArr_agenda (s : State) (p a : Nat) (x : Arr) : (s.setArr p a x).agenda = s.agenda := (rfl)
@[simp] theorem State.setArr_timers (s : State) (p a : Nat) (x : Arr) : (s.setArr p a x).timers = s.timers := (rfl)
@[simp] theorem State.setArr_seq (s : State) (p a : Nat) (x : Arr) : (s.setArr p a x).seq = s.seq := (rfl)
@[simp] theorem State.setArr_free (s : State) (p a : Nat) (x : Arr) : (s.setArr p a x).free = s.free := (rfl)
@[simp] theorem State.setArr_net (s : State) (p a : Nat) (x : Arr) : (s.setArr p a x).net = s.net := (rfl)
@[simp] theorem State.setArr_netSeq (s : State) (p a : Nat) (x : Arr) : (s.setArr p a x).netSeq = s.netSeq := (rfl)
@[simp] theorem State.setArr_chan (s : State) (p a : Nat) (x : Arr) : (s.setArr p a x).chan = s.chan := (rfl)
@[simp] theorem State.setArr_outs (s : State) (p a : Nat) (x : Arr) : (s.setArr p a x).outs = s.outs := (rfl)
@[simp] theorem State.setArr_cy (s : State) (p a : Nat) (x : Arr) : (s.setArr p a x).cy = s.cy := (rfl)
@[simp] theorem State.setArr_dev (s : State) (p a : Nat) (x : Arr) : (s.setArr p a x).dev = s.dev := (rfl)
@[simp] theorem State.setArr_slots (s : State) (p a : Nat) (x : Arr) : (s.setArr p a x).slots = s.slots := (rfl)
@[simp] theorem State.setArr_parts (s : State) (p a : Nat) (x : Arr) : (s.setArr p a x).parts = s.parts := (rfl)
@[simp] theorem State.setArr_pls (s : State) (p a : Nat) (x : Arr) : (s.setArr p a x).pls = s.pls := (rfl)
@[simp] theorem State.setArr_dies (s : State) (p a : Nat) (x : Arr) : (s.setArr p a x).dies = s.dies := (rfl)
@[simp] theorem State.setArr_hubs (s : State) (p a : Nat) (x : Arr) : (s.setArr p a x).hubs = s.hubs := (rfl)
@[simp] theorem State.setArr_xdies (s : State) (p a : Nat) (x : Arr) : (s.setArr p a x).xdies = s.xdies := (rfl)
@[simp] theorem State.setArr_beats (s : State) (p a : Nat) (x : Arr) : (s.setArr p a x).beats = s.beats := (rfl)
@[simp] theorem State.setArr_mem (s : State) (p a : Nat) (x : Arr) : (s.setArr p a x).mem = s.mem := (rfl)
@[simp] theorem State.setArr_lines (s : State) (p a : Nat) (x : Arr) : (s.setArr p a x).lines = s.lines := (rfl)
@[simp] theorem State.setArr_epochs (s : State) (p a : Nat) (x : Arr) : (s.setArr p a x).epochs = s.epochs := (rfl)
@[simp] theorem State.setArr_ecc (s : State) (p a : Nat) (x : Arr) : (s.setArr p a x).ecc = s.ecc := (rfl)
@[simp] theorem State.setArr_get_die (s : State) (p a : Nat) (x : Arr) (q : Nat) : (s.setArr p a x).die q = s.die q := (rfl)
@[simp] theorem State.setArr_get_hub (s : State) (p a : Nat) (x : Arr) (q k : Nat) : (s.setArr p a x).hub q k = s.hub q k := (rfl)
@[simp] theorem State.setArr_get_slot (s : State) (p a : Nat) (x : Arr) (q : Nat) : (s.setArr p a x).slot q = s.slot q := (rfl)
@[simp] theorem State.setArr_get_part (s : State) (p a : Nat) (x : Arr) (q : Nat) : (s.setArr p a x).part q = s.part q := (rfl)
@[simp] theorem State.setArr_get_pl (s : State) (p a : Nat) (x : Arr) (q : Nat) : (s.setArr p a x).pl q = s.pl q := (rfl)
@[simp] theorem State.setArr_get_xdie (s : State) (p a : Nat) (x : Arr) (q : Nat) : (s.setArr p a x).xdie q = s.xdie q := (rfl)

/-! ### setSlot -/

@[simp] theorem State.setSlot_cur (s : State) (n : Nat) (x : Slot) : (s.setSlot n x).cur = s.cur := (rfl)
@[simp] theorem State.setSlot_inbox (s : State) (n : Nat) (x : Slot) : (s.setSlot n x).inbox = s.inbox := (rfl)
@[simp] theorem State.setSlot_arg (s : State) (n : Nat) (x : Slot) : (s.setSlot n x).arg = s.arg := (rfl)
@[simp] theorem State.setSlot_ended (s : State) (n : Nat) (x : Slot) : (s.setSlot n x).ended = s.ended := (rfl)
@[simp] theorem State.setSlot_agenda (s : State) (n : Nat) (x : Slot) : (s.setSlot n x).agenda = s.agenda := (rfl)
@[simp] theorem State.setSlot_timers (s : State) (n : Nat) (x : Slot) : (s.setSlot n x).timers = s.timers := (rfl)
@[simp] theorem State.setSlot_seq (s : State) (n : Nat) (x : Slot) : (s.setSlot n x).seq = s.seq := (rfl)
@[simp] theorem State.setSlot_free (s : State) (n : Nat) (x : Slot) : (s.setSlot n x).free = s.free := (rfl)
@[simp] theorem State.setSlot_net (s : State) (n : Nat) (x : Slot) : (s.setSlot n x).net = s.net := (rfl)
@[simp] theorem State.setSlot_netSeq (s : State) (n : Nat) (x : Slot) : (s.setSlot n x).netSeq = s.netSeq := (rfl)
@[simp] theorem State.setSlot_chan (s : State) (n : Nat) (x : Slot) : (s.setSlot n x).chan = s.chan := (rfl)
@[simp] theorem State.setSlot_outs (s : State) (n : Nat) (x : Slot) : (s.setSlot n x).outs = s.outs := (rfl)
@[simp] theorem State.setSlot_cy (s : State) (n : Nat) (x : Slot) : (s.setSlot n x).cy = s.cy := (rfl)
@[simp] theorem State.setSlot_dev (s : State) (n : Nat) (x : Slot) : (s.setSlot n x).dev = s.dev := (rfl)
@[simp] theorem State.setSlot_parts (s : State) (n : Nat) (x : Slot) : (s.setSlot n x).parts = s.parts := (rfl)
@[simp] theorem State.setSlot_pls (s : State) (n : Nat) (x : Slot) : (s.setSlot n x).pls = s.pls := (rfl)
@[simp] theorem State.setSlot_dies (s : State) (n : Nat) (x : Slot) : (s.setSlot n x).dies = s.dies := (rfl)
@[simp] theorem State.setSlot_hubs (s : State) (n : Nat) (x : Slot) : (s.setSlot n x).hubs = s.hubs := (rfl)
@[simp] theorem State.setSlot_arrays (s : State) (n : Nat) (x : Slot) : (s.setSlot n x).arrays = s.arrays := (rfl)
@[simp] theorem State.setSlot_xdies (s : State) (n : Nat) (x : Slot) : (s.setSlot n x).xdies = s.xdies := (rfl)
@[simp] theorem State.setSlot_beats (s : State) (n : Nat) (x : Slot) : (s.setSlot n x).beats = s.beats := (rfl)
@[simp] theorem State.setSlot_mem (s : State) (n : Nat) (x : Slot) : (s.setSlot n x).mem = s.mem := (rfl)
@[simp] theorem State.setSlot_lines (s : State) (n : Nat) (x : Slot) : (s.setSlot n x).lines = s.lines := (rfl)
@[simp] theorem State.setSlot_epochs (s : State) (n : Nat) (x : Slot) : (s.setSlot n x).epochs = s.epochs := (rfl)
@[simp] theorem State.setSlot_ecc (s : State) (n : Nat) (x : Slot) : (s.setSlot n x).ecc = s.ecc := (rfl)
@[simp] theorem State.setSlot_get_die (s : State) (n : Nat) (x : Slot) (q : Nat) : (s.setSlot n x).die q = s.die q := (rfl)
@[simp] theorem State.setSlot_get_hub (s : State) (n : Nat) (x : Slot) (q k : Nat) : (s.setSlot n x).hub q k = s.hub q k := (rfl)
@[simp] theorem State.setSlot_get_arr (s : State) (n : Nat) (x : Slot) (q k : Nat) : (s.setSlot n x).arr q k = s.arr q k := (rfl)
@[simp] theorem State.setSlot_get_part (s : State) (n : Nat) (x : Slot) (q : Nat) : (s.setSlot n x).part q = s.part q := (rfl)
@[simp] theorem State.setSlot_get_pl (s : State) (n : Nat) (x : Slot) (q : Nat) : (s.setSlot n x).pl q = s.pl q := (rfl)
@[simp] theorem State.setSlot_get_xdie (s : State) (n : Nat) (x : Slot) (q : Nat) : (s.setSlot n x).xdie q = s.xdie q := (rfl)

/-! ### setPart -/

@[simp] theorem State.setPart_cur (s : State) (p : Nat) (x : Part) : (s.setPart p x).cur = s.cur := (rfl)
@[simp] theorem State.setPart_inbox (s : State) (p : Nat) (x : Part) : (s.setPart p x).inbox = s.inbox := (rfl)
@[simp] theorem State.setPart_arg (s : State) (p : Nat) (x : Part) : (s.setPart p x).arg = s.arg := (rfl)
@[simp] theorem State.setPart_ended (s : State) (p : Nat) (x : Part) : (s.setPart p x).ended = s.ended := (rfl)
@[simp] theorem State.setPart_agenda (s : State) (p : Nat) (x : Part) : (s.setPart p x).agenda = s.agenda := (rfl)
@[simp] theorem State.setPart_timers (s : State) (p : Nat) (x : Part) : (s.setPart p x).timers = s.timers := (rfl)
@[simp] theorem State.setPart_seq (s : State) (p : Nat) (x : Part) : (s.setPart p x).seq = s.seq := (rfl)
@[simp] theorem State.setPart_free (s : State) (p : Nat) (x : Part) : (s.setPart p x).free = s.free := (rfl)
@[simp] theorem State.setPart_net (s : State) (p : Nat) (x : Part) : (s.setPart p x).net = s.net := (rfl)
@[simp] theorem State.setPart_netSeq (s : State) (p : Nat) (x : Part) : (s.setPart p x).netSeq = s.netSeq := (rfl)
@[simp] theorem State.setPart_chan (s : State) (p : Nat) (x : Part) : (s.setPart p x).chan = s.chan := (rfl)
@[simp] theorem State.setPart_outs (s : State) (p : Nat) (x : Part) : (s.setPart p x).outs = s.outs := (rfl)
@[simp] theorem State.setPart_cy (s : State) (p : Nat) (x : Part) : (s.setPart p x).cy = s.cy := (rfl)
@[simp] theorem State.setPart_dev (s : State) (p : Nat) (x : Part) : (s.setPart p x).dev = s.dev := (rfl)
@[simp] theorem State.setPart_slots (s : State) (p : Nat) (x : Part) : (s.setPart p x).slots = s.slots := (rfl)
@[simp] theorem State.setPart_pls (s : State) (p : Nat) (x : Part) : (s.setPart p x).pls = s.pls := (rfl)
@[simp] theorem State.setPart_dies (s : State) (p : Nat) (x : Part) : (s.setPart p x).dies = s.dies := (rfl)
@[simp] theorem State.setPart_hubs (s : State) (p : Nat) (x : Part) : (s.setPart p x).hubs = s.hubs := (rfl)
@[simp] theorem State.setPart_arrays (s : State) (p : Nat) (x : Part) : (s.setPart p x).arrays = s.arrays := (rfl)
@[simp] theorem State.setPart_xdies (s : State) (p : Nat) (x : Part) : (s.setPart p x).xdies = s.xdies := (rfl)
@[simp] theorem State.setPart_beats (s : State) (p : Nat) (x : Part) : (s.setPart p x).beats = s.beats := (rfl)
@[simp] theorem State.setPart_mem (s : State) (p : Nat) (x : Part) : (s.setPart p x).mem = s.mem := (rfl)
@[simp] theorem State.setPart_lines (s : State) (p : Nat) (x : Part) : (s.setPart p x).lines = s.lines := (rfl)
@[simp] theorem State.setPart_epochs (s : State) (p : Nat) (x : Part) : (s.setPart p x).epochs = s.epochs := (rfl)
@[simp] theorem State.setPart_ecc (s : State) (p : Nat) (x : Part) : (s.setPart p x).ecc = s.ecc := (rfl)
@[simp] theorem State.setPart_get_die (s : State) (p : Nat) (x : Part) (q : Nat) : (s.setPart p x).die q = s.die q := (rfl)
@[simp] theorem State.setPart_get_hub (s : State) (p : Nat) (x : Part) (q k : Nat) : (s.setPart p x).hub q k = s.hub q k := (rfl)
@[simp] theorem State.setPart_get_arr (s : State) (p : Nat) (x : Part) (q k : Nat) : (s.setPart p x).arr q k = s.arr q k := (rfl)
@[simp] theorem State.setPart_get_slot (s : State) (p : Nat) (x : Part) (q : Nat) : (s.setPart p x).slot q = s.slot q := (rfl)
@[simp] theorem State.setPart_get_pl (s : State) (p : Nat) (x : Part) (q : Nat) : (s.setPart p x).pl q = s.pl q := (rfl)
@[simp] theorem State.setPart_get_xdie (s : State) (p : Nat) (x : Part) (q : Nat) : (s.setPart p x).xdie q = s.xdie q := (rfl)

/-! ### setPl -/

@[simp] theorem State.setPl_cur (s : State) (n : Nat) (x : Pl) : (s.setPl n x).cur = s.cur := (rfl)
@[simp] theorem State.setPl_inbox (s : State) (n : Nat) (x : Pl) : (s.setPl n x).inbox = s.inbox := (rfl)
@[simp] theorem State.setPl_arg (s : State) (n : Nat) (x : Pl) : (s.setPl n x).arg = s.arg := (rfl)
@[simp] theorem State.setPl_ended (s : State) (n : Nat) (x : Pl) : (s.setPl n x).ended = s.ended := (rfl)
@[simp] theorem State.setPl_agenda (s : State) (n : Nat) (x : Pl) : (s.setPl n x).agenda = s.agenda := (rfl)
@[simp] theorem State.setPl_timers (s : State) (n : Nat) (x : Pl) : (s.setPl n x).timers = s.timers := (rfl)
@[simp] theorem State.setPl_seq (s : State) (n : Nat) (x : Pl) : (s.setPl n x).seq = s.seq := (rfl)
@[simp] theorem State.setPl_free (s : State) (n : Nat) (x : Pl) : (s.setPl n x).free = s.free := (rfl)
@[simp] theorem State.setPl_net (s : State) (n : Nat) (x : Pl) : (s.setPl n x).net = s.net := (rfl)
@[simp] theorem State.setPl_netSeq (s : State) (n : Nat) (x : Pl) : (s.setPl n x).netSeq = s.netSeq := (rfl)
@[simp] theorem State.setPl_chan (s : State) (n : Nat) (x : Pl) : (s.setPl n x).chan = s.chan := (rfl)
@[simp] theorem State.setPl_outs (s : State) (n : Nat) (x : Pl) : (s.setPl n x).outs = s.outs := (rfl)
@[simp] theorem State.setPl_cy (s : State) (n : Nat) (x : Pl) : (s.setPl n x).cy = s.cy := (rfl)
@[simp] theorem State.setPl_dev (s : State) (n : Nat) (x : Pl) : (s.setPl n x).dev = s.dev := (rfl)
@[simp] theorem State.setPl_slots (s : State) (n : Nat) (x : Pl) : (s.setPl n x).slots = s.slots := (rfl)
@[simp] theorem State.setPl_parts (s : State) (n : Nat) (x : Pl) : (s.setPl n x).parts = s.parts := (rfl)
@[simp] theorem State.setPl_dies (s : State) (n : Nat) (x : Pl) : (s.setPl n x).dies = s.dies := (rfl)
@[simp] theorem State.setPl_hubs (s : State) (n : Nat) (x : Pl) : (s.setPl n x).hubs = s.hubs := (rfl)
@[simp] theorem State.setPl_arrays (s : State) (n : Nat) (x : Pl) : (s.setPl n x).arrays = s.arrays := (rfl)
@[simp] theorem State.setPl_xdies (s : State) (n : Nat) (x : Pl) : (s.setPl n x).xdies = s.xdies := (rfl)
@[simp] theorem State.setPl_beats (s : State) (n : Nat) (x : Pl) : (s.setPl n x).beats = s.beats := (rfl)
@[simp] theorem State.setPl_mem (s : State) (n : Nat) (x : Pl) : (s.setPl n x).mem = s.mem := (rfl)
@[simp] theorem State.setPl_lines (s : State) (n : Nat) (x : Pl) : (s.setPl n x).lines = s.lines := (rfl)
@[simp] theorem State.setPl_epochs (s : State) (n : Nat) (x : Pl) : (s.setPl n x).epochs = s.epochs := (rfl)
@[simp] theorem State.setPl_ecc (s : State) (n : Nat) (x : Pl) : (s.setPl n x).ecc = s.ecc := (rfl)
@[simp] theorem State.setPl_get_die (s : State) (n : Nat) (x : Pl) (q : Nat) : (s.setPl n x).die q = s.die q := (rfl)
@[simp] theorem State.setPl_get_hub (s : State) (n : Nat) (x : Pl) (q k : Nat) : (s.setPl n x).hub q k = s.hub q k := (rfl)
@[simp] theorem State.setPl_get_arr (s : State) (n : Nat) (x : Pl) (q k : Nat) : (s.setPl n x).arr q k = s.arr q k := (rfl)
@[simp] theorem State.setPl_get_slot (s : State) (n : Nat) (x : Pl) (q : Nat) : (s.setPl n x).slot q = s.slot q := (rfl)
@[simp] theorem State.setPl_get_part (s : State) (n : Nat) (x : Pl) (q : Nat) : (s.setPl n x).part q = s.part q := (rfl)
@[simp] theorem State.setPl_get_xdie (s : State) (n : Nat) (x : Pl) (q : Nat) : (s.setPl n x).xdie q = s.xdie q := (rfl)

/-! ### setXdie -/

@[simp] theorem State.setXdie_cur (s : State) (p : Nat) (x : XDie) : (s.setXdie p x).cur = s.cur := (rfl)
@[simp] theorem State.setXdie_inbox (s : State) (p : Nat) (x : XDie) : (s.setXdie p x).inbox = s.inbox := (rfl)
@[simp] theorem State.setXdie_arg (s : State) (p : Nat) (x : XDie) : (s.setXdie p x).arg = s.arg := (rfl)
@[simp] theorem State.setXdie_ended (s : State) (p : Nat) (x : XDie) : (s.setXdie p x).ended = s.ended := (rfl)
@[simp] theorem State.setXdie_agenda (s : State) (p : Nat) (x : XDie) : (s.setXdie p x).agenda = s.agenda := (rfl)
@[simp] theorem State.setXdie_timers (s : State) (p : Nat) (x : XDie) : (s.setXdie p x).timers = s.timers := (rfl)
@[simp] theorem State.setXdie_seq (s : State) (p : Nat) (x : XDie) : (s.setXdie p x).seq = s.seq := (rfl)
@[simp] theorem State.setXdie_free (s : State) (p : Nat) (x : XDie) : (s.setXdie p x).free = s.free := (rfl)
@[simp] theorem State.setXdie_net (s : State) (p : Nat) (x : XDie) : (s.setXdie p x).net = s.net := (rfl)
@[simp] theorem State.setXdie_netSeq (s : State) (p : Nat) (x : XDie) : (s.setXdie p x).netSeq = s.netSeq := (rfl)
@[simp] theorem State.setXdie_chan (s : State) (p : Nat) (x : XDie) : (s.setXdie p x).chan = s.chan := (rfl)
@[simp] theorem State.setXdie_outs (s : State) (p : Nat) (x : XDie) : (s.setXdie p x).outs = s.outs := (rfl)
@[simp] theorem State.setXdie_cy (s : State) (p : Nat) (x : XDie) : (s.setXdie p x).cy = s.cy := (rfl)
@[simp] theorem State.setXdie_dev (s : State) (p : Nat) (x : XDie) : (s.setXdie p x).dev = s.dev := (rfl)
@[simp] theorem State.setXdie_slots (s : State) (p : Nat) (x : XDie) : (s.setXdie p x).slots = s.slots := (rfl)
@[simp] theorem State.setXdie_parts (s : State) (p : Nat) (x : XDie) : (s.setXdie p x).parts = s.parts := (rfl)
@[simp] theorem State.setXdie_pls (s : State) (p : Nat) (x : XDie) : (s.setXdie p x).pls = s.pls := (rfl)
@[simp] theorem State.setXdie_dies (s : State) (p : Nat) (x : XDie) : (s.setXdie p x).dies = s.dies := (rfl)
@[simp] theorem State.setXdie_hubs (s : State) (p : Nat) (x : XDie) : (s.setXdie p x).hubs = s.hubs := (rfl)
@[simp] theorem State.setXdie_arrays (s : State) (p : Nat) (x : XDie) : (s.setXdie p x).arrays = s.arrays := (rfl)
@[simp] theorem State.setXdie_beats (s : State) (p : Nat) (x : XDie) : (s.setXdie p x).beats = s.beats := (rfl)
@[simp] theorem State.setXdie_mem (s : State) (p : Nat) (x : XDie) : (s.setXdie p x).mem = s.mem := (rfl)
@[simp] theorem State.setXdie_lines (s : State) (p : Nat) (x : XDie) : (s.setXdie p x).lines = s.lines := (rfl)
@[simp] theorem State.setXdie_epochs (s : State) (p : Nat) (x : XDie) : (s.setXdie p x).epochs = s.epochs := (rfl)
@[simp] theorem State.setXdie_ecc (s : State) (p : Nat) (x : XDie) : (s.setXdie p x).ecc = s.ecc := (rfl)
@[simp] theorem State.setXdie_get_die (s : State) (p : Nat) (x : XDie) (q : Nat) : (s.setXdie p x).die q = s.die q := (rfl)
@[simp] theorem State.setXdie_get_hub (s : State) (p : Nat) (x : XDie) (q k : Nat) : (s.setXdie p x).hub q k = s.hub q k := (rfl)
@[simp] theorem State.setXdie_get_arr (s : State) (p : Nat) (x : XDie) (q k : Nat) : (s.setXdie p x).arr q k = s.arr q k := (rfl)
@[simp] theorem State.setXdie_get_slot (s : State) (p : Nat) (x : XDie) (q : Nat) : (s.setXdie p x).slot q = s.slot q := (rfl)
@[simp] theorem State.setXdie_get_part (s : State) (p : Nat) (x : XDie) (q : Nat) : (s.setXdie p x).part q = s.part q := (rfl)
@[simp] theorem State.setXdie_get_pl (s : State) (p : Nat) (x : XDie) (q : Nat) : (s.setXdie p x).pl q = s.pl q := (rfl)

/-! ### useFree -/

@[simp] theorem State.useFree_cur (s : State) : (s.useFree).cur = s.cur := (rfl)
@[simp] theorem State.useFree_inbox (s : State) : (s.useFree).inbox = s.inbox := (rfl)
@[simp] theorem State.useFree_arg (s : State) : (s.useFree).arg = s.arg := (rfl)
@[simp] theorem State.useFree_ended (s : State) : (s.useFree).ended = s.ended := (rfl)
@[simp] theorem State.useFree_agenda (s : State) : (s.useFree).agenda = s.agenda := (rfl)
@[simp] theorem State.useFree_timers (s : State) : (s.useFree).timers = s.timers := (rfl)
@[simp] theorem State.useFree_seq (s : State) : (s.useFree).seq = s.seq := (rfl)
@[simp] theorem State.useFree_net (s : State) : (s.useFree).net = s.net := (rfl)
@[simp] theorem State.useFree_netSeq (s : State) : (s.useFree).netSeq = s.netSeq := (rfl)
@[simp] theorem State.useFree_chan (s : State) : (s.useFree).chan = s.chan := (rfl)
@[simp] theorem State.useFree_outs (s : State) : (s.useFree).outs = s.outs := (rfl)
@[simp] theorem State.useFree_cy (s : State) : (s.useFree).cy = s.cy := (rfl)
@[simp] theorem State.useFree_dev (s : State) : (s.useFree).dev = s.dev := (rfl)
@[simp] theorem State.useFree_slots (s : State) : (s.useFree).slots = s.slots := (rfl)
@[simp] theorem State.useFree_parts (s : State) : (s.useFree).parts = s.parts := (rfl)
@[simp] theorem State.useFree_pls (s : State) : (s.useFree).pls = s.pls := (rfl)
@[simp] theorem State.useFree_dies (s : State) : (s.useFree).dies = s.dies := (rfl)
@[simp] theorem State.useFree_hubs (s : State) : (s.useFree).hubs = s.hubs := (rfl)
@[simp] theorem State.useFree_arrays (s : State) : (s.useFree).arrays = s.arrays := (rfl)
@[simp] theorem State.useFree_xdies (s : State) : (s.useFree).xdies = s.xdies := (rfl)
@[simp] theorem State.useFree_beats (s : State) : (s.useFree).beats = s.beats := (rfl)
@[simp] theorem State.useFree_mem (s : State) : (s.useFree).mem = s.mem := (rfl)
@[simp] theorem State.useFree_lines (s : State) : (s.useFree).lines = s.lines := (rfl)
@[simp] theorem State.useFree_epochs (s : State) : (s.useFree).epochs = s.epochs := (rfl)
@[simp] theorem State.useFree_ecc (s : State) : (s.useFree).ecc = s.ecc := (rfl)
@[simp] theorem State.useFree_get_die (s : State) (q : Nat) : (s.useFree).die q = s.die q := (rfl)
@[simp] theorem State.useFree_get_hub (s : State) (q k : Nat) : (s.useFree).hub q k = s.hub q k := (rfl)
@[simp] theorem State.useFree_get_arr (s : State) (q k : Nat) : (s.useFree).arr q k = s.arr q k := (rfl)
@[simp] theorem State.useFree_get_slot (s : State) (q : Nat) : (s.useFree).slot q = s.slot q := (rfl)
@[simp] theorem State.useFree_get_part (s : State) (q : Nat) : (s.useFree).part q = s.part q := (rfl)
@[simp] theorem State.useFree_get_pl (s : State) (q : Nat) : (s.useFree).pl q = s.pl q := (rfl)
@[simp] theorem State.useFree_get_xdie (s : State) (q : Nat) : (s.useFree).xdie q = s.xdie q := (rfl)

/-! ### after -/

@[simp] theorem State.after_cur (s : State) (n : Nat) (i : Instr) (a : Arg) : (s.after n i a).cur = s.cur := (rfl)
@[simp] theorem State.after_inbox (s : State) (n : Nat) (i : Instr) (a : Arg) : (s.after n i a).inbox = s.inbox := (rfl)
@[simp] theorem State.after_arg (s : State) (n : Nat) (i : Instr) (a : Arg) : (s.after n i a).arg = s.arg := (rfl)
@[simp] theorem State.after_ended (s : State) (n : Nat) (i : Instr) (a : Arg) : (s.after n i a).ended = s.ended := (rfl)
@[simp] theorem State.after_agenda (s : State) (n : Nat) (i : Instr) (a : Arg) : (s.after n i a).agenda = s.agenda := (rfl)
@[simp] theorem State.after_seq (s : State) (n : Nat) (i : Instr) (a : Arg) : (s.after n i a).seq = s.seq := (rfl)
@[simp] theorem State.after_free (s : State) (n : Nat) (i : Instr) (a : Arg) : (s.after n i a).free = s.free := (rfl)
@[simp] theorem State.after_net (s : State) (n : Nat) (i : Instr) (a : Arg) : (s.after n i a).net = s.net := (rfl)
@[simp] theorem State.after_netSeq (s : State) (n : Nat) (i : Instr) (a : Arg) : (s.after n i a).netSeq = s.netSeq := (rfl)
@[simp] theorem State.after_chan (s : State) (n : Nat) (i : Instr) (a : Arg) : (s.after n i a).chan = s.chan := (rfl)
@[simp] theorem State.after_outs (s : State) (n : Nat) (i : Instr) (a : Arg) : (s.after n i a).outs = s.outs := (rfl)
@[simp] theorem State.after_cy (s : State) (n : Nat) (i : Instr) (a : Arg) : (s.after n i a).cy = s.cy := (rfl)
@[simp] theorem State.after_dev (s : State) (n : Nat) (i : Instr) (a : Arg) : (s.after n i a).dev = s.dev := (rfl)
@[simp] theorem State.after_slots (s : State) (n : Nat) (i : Instr) (a : Arg) : (s.after n i a).slots = s.slots := (rfl)
@[simp] theorem State.after_parts (s : State) (n : Nat) (i : Instr) (a : Arg) : (s.after n i a).parts = s.parts := (rfl)
@[simp] theorem State.after_pls (s : State) (n : Nat) (i : Instr) (a : Arg) : (s.after n i a).pls = s.pls := (rfl)
@[simp] theorem State.after_dies (s : State) (n : Nat) (i : Instr) (a : Arg) : (s.after n i a).dies = s.dies := (rfl)
@[simp] theorem State.after_hubs (s : State) (n : Nat) (i : Instr) (a : Arg) : (s.after n i a).hubs = s.hubs := (rfl)
@[simp] theorem State.after_arrays (s : State) (n : Nat) (i : Instr) (a : Arg) : (s.after n i a).arrays = s.arrays := (rfl)
@[simp] theorem State.after_xdies (s : State) (n : Nat) (i : Instr) (a : Arg) : (s.after n i a).xdies = s.xdies := (rfl)
@[simp] theorem State.after_beats (s : State) (n : Nat) (i : Instr) (a : Arg) : (s.after n i a).beats = s.beats := (rfl)
@[simp] theorem State.after_mem (s : State) (n : Nat) (i : Instr) (a : Arg) : (s.after n i a).mem = s.mem := (rfl)
@[simp] theorem State.after_lines (s : State) (n : Nat) (i : Instr) (a : Arg) : (s.after n i a).lines = s.lines := (rfl)
@[simp] theorem State.after_epochs (s : State) (n : Nat) (i : Instr) (a : Arg) : (s.after n i a).epochs = s.epochs := (rfl)
@[simp] theorem State.after_ecc (s : State) (n : Nat) (i : Instr) (a : Arg) : (s.after n i a).ecc = s.ecc := (rfl)
@[simp] theorem State.after_get_die (s : State) (n : Nat) (i : Instr) (a : Arg) (q : Nat) : (s.after n i a).die q = s.die q := (rfl)
@[simp] theorem State.after_get_hub (s : State) (n : Nat) (i : Instr) (a : Arg) (q k : Nat) : (s.after n i a).hub q k = s.hub q k := (rfl)
@[simp] theorem State.after_get_arr (s : State) (n : Nat) (i : Instr) (a : Arg) (q k : Nat) : (s.after n i a).arr q k = s.arr q k := (rfl)
@[simp] theorem State.after_get_slot (s : State) (n : Nat) (i : Instr) (a : Arg) (q : Nat) : (s.after n i a).slot q = s.slot q := (rfl)
@[simp] theorem State.after_get_part (s : State) (n : Nat) (i : Instr) (a : Arg) (q : Nat) : (s.after n i a).part q = s.part q := (rfl)
@[simp] theorem State.after_get_pl (s : State) (n : Nat) (i : Instr) (a : Arg) (q : Nat) : (s.after n i a).pl q = s.pl q := (rfl)
@[simp] theorem State.after_get_xdie (s : State) (n : Nat) (i : Instr) (a : Arg) (q : Nat) : (s.after n i a).xdie q = s.xdie q := (rfl)

/-! ### post -/

@[simp] theorem State.post_cur (s : State) (d t l h e : Nat) (a : Act) : (s.post d t l h e a).cur = s.cur := (rfl)
@[simp] theorem State.post_inbox (s : State) (d t l h e : Nat) (a : Act) : (s.post d t l h e a).inbox = s.inbox := (rfl)
@[simp] theorem State.post_arg (s : State) (d t l h e : Nat) (a : Act) : (s.post d t l h e a).arg = s.arg := (rfl)
@[simp] theorem State.post_ended (s : State) (d t l h e : Nat) (a : Act) : (s.post d t l h e a).ended = s.ended := (rfl)
@[simp] theorem State.post_timers (s : State) (d t l h e : Nat) (a : Act) : (s.post d t l h e a).timers = s.timers := (rfl)
@[simp] theorem State.post_free (s : State) (d t l h e : Nat) (a : Act) : (s.post d t l h e a).free = s.free := (rfl)
@[simp] theorem State.post_net (s : State) (d t l h e : Nat) (a : Act) : (s.post d t l h e a).net = s.net := (rfl)
@[simp] theorem State.post_netSeq (s : State) (d t l h e : Nat) (a : Act) : (s.post d t l h e a).netSeq = s.netSeq := (rfl)
@[simp] theorem State.post_chan (s : State) (d t l h e : Nat) (a : Act) : (s.post d t l h e a).chan = s.chan := (rfl)
@[simp] theorem State.post_outs (s : State) (d t l h e : Nat) (a : Act) : (s.post d t l h e a).outs = s.outs := (rfl)
@[simp] theorem State.post_cy (s : State) (d t l h e : Nat) (a : Act) : (s.post d t l h e a).cy = s.cy := (rfl)
@[simp] theorem State.post_dev (s : State) (d t l h e : Nat) (a : Act) : (s.post d t l h e a).dev = s.dev := (rfl)
@[simp] theorem State.post_slots (s : State) (d t l h e : Nat) (a : Act) : (s.post d t l h e a).slots = s.slots := (rfl)
@[simp] theorem State.post_parts (s : State) (d t l h e : Nat) (a : Act) : (s.post d t l h e a).parts = s.parts := (rfl)
@[simp] theorem State.post_pls (s : State) (d t l h e : Nat) (a : Act) : (s.post d t l h e a).pls = s.pls := (rfl)
@[simp] theorem State.post_dies (s : State) (d t l h e : Nat) (a : Act) : (s.post d t l h e a).dies = s.dies := (rfl)
@[simp] theorem State.post_hubs (s : State) (d t l h e : Nat) (a : Act) : (s.post d t l h e a).hubs = s.hubs := (rfl)
@[simp] theorem State.post_arrays (s : State) (d t l h e : Nat) (a : Act) : (s.post d t l h e a).arrays = s.arrays := (rfl)
@[simp] theorem State.post_xdies (s : State) (d t l h e : Nat) (a : Act) : (s.post d t l h e a).xdies = s.xdies := (rfl)
@[simp] theorem State.post_beats (s : State) (d t l h e : Nat) (a : Act) : (s.post d t l h e a).beats = s.beats := (rfl)
@[simp] theorem State.post_mem (s : State) (d t l h e : Nat) (a : Act) : (s.post d t l h e a).mem = s.mem := (rfl)
@[simp] theorem State.post_lines (s : State) (d t l h e : Nat) (a : Act) : (s.post d t l h e a).lines = s.lines := (rfl)
@[simp] theorem State.post_epochs (s : State) (d t l h e : Nat) (a : Act) : (s.post d t l h e a).epochs = s.epochs := (rfl)
@[simp] theorem State.post_ecc (s : State) (d t l h e : Nat) (a : Act) : (s.post d t l h e a).ecc = s.ecc := (rfl)
@[simp] theorem State.post_get_die (s : State) (d t l h e : Nat) (a : Act) (q : Nat) : (s.post d t l h e a).die q = s.die q := (rfl)
@[simp] theorem State.post_get_hub (s : State) (d t l h e : Nat) (a : Act) (q k : Nat) : (s.post d t l h e a).hub q k = s.hub q k := (rfl)
@[simp] theorem State.post_get_arr (s : State) (d t l h e : Nat) (a : Act) (q k : Nat) : (s.post d t l h e a).arr q k = s.arr q k := (rfl)
@[simp] theorem State.post_get_slot (s : State) (d t l h e : Nat) (a : Act) (q : Nat) : (s.post d t l h e a).slot q = s.slot q := (rfl)
@[simp] theorem State.post_get_part (s : State) (d t l h e : Nat) (a : Act) (q : Nat) : (s.post d t l h e a).part q = s.part q := (rfl)
@[simp] theorem State.post_get_pl (s : State) (d t l h e : Nat) (a : Act) (q : Nat) : (s.post d t l h e a).pl q = s.pl q := (rfl)
@[simp] theorem State.post_get_xdie (s : State) (d t l h e : Nat) (a : Act) (q : Nat) : (s.post d t l h e a).xdie q = s.xdie q := (rfl)

/-! ### writeBytes -/

@[simp] theorem State.writeBytes_cur (s : State) (a : Nat) (bs : List Byte) (p : Bool) : (s.writeBytes a bs p).cur = s.cur := (rfl)
@[simp] theorem State.writeBytes_inbox (s : State) (a : Nat) (bs : List Byte) (p : Bool) : (s.writeBytes a bs p).inbox = s.inbox := (rfl)
@[simp] theorem State.writeBytes_arg (s : State) (a : Nat) (bs : List Byte) (p : Bool) : (s.writeBytes a bs p).arg = s.arg := (rfl)
@[simp] theorem State.writeBytes_ended (s : State) (a : Nat) (bs : List Byte) (p : Bool) : (s.writeBytes a bs p).ended = s.ended := (rfl)
@[simp] theorem State.writeBytes_agenda (s : State) (a : Nat) (bs : List Byte) (p : Bool) : (s.writeBytes a bs p).agenda = s.agenda := (rfl)
@[simp] theorem State.writeBytes_timers (s : State) (a : Nat) (bs : List Byte) (p : Bool) : (s.writeBytes a bs p).timers = s.timers := (rfl)
@[simp] theorem State.writeBytes_seq (s : State) (a : Nat) (bs : List Byte) (p : Bool) : (s.writeBytes a bs p).seq = s.seq := (rfl)
@[simp] theorem State.writeBytes_free (s : State) (a : Nat) (bs : List Byte) (p : Bool) : (s.writeBytes a bs p).free = s.free := (rfl)
@[simp] theorem State.writeBytes_net (s : State) (a : Nat) (bs : List Byte) (p : Bool) : (s.writeBytes a bs p).net = s.net := (rfl)
@[simp] theorem State.writeBytes_netSeq (s : State) (a : Nat) (bs : List Byte) (p : Bool) : (s.writeBytes a bs p).netSeq = s.netSeq := (rfl)
@[simp] theorem State.writeBytes_chan (s : State) (a : Nat) (bs : List Byte) (p : Bool) : (s.writeBytes a bs p).chan = s.chan := (rfl)
@[simp] theorem State.writeBytes_outs (s : State) (a : Nat) (bs : List Byte) (p : Bool) : (s.writeBytes a bs p).outs = s.outs := (rfl)
@[simp] theorem State.writeBytes_cy (s : State) (a : Nat) (bs : List Byte) (p : Bool) : (s.writeBytes a bs p).cy = s.cy := (rfl)
@[simp] theorem State.writeBytes_dev (s : State) (a : Nat) (bs : List Byte) (p : Bool) : (s.writeBytes a bs p).dev = s.dev := (rfl)
@[simp] theorem State.writeBytes_slots (s : State) (a : Nat) (bs : List Byte) (p : Bool) : (s.writeBytes a bs p).slots = s.slots := (rfl)
@[simp] theorem State.writeBytes_parts (s : State) (a : Nat) (bs : List Byte) (p : Bool) : (s.writeBytes a bs p).parts = s.parts := (rfl)
@[simp] theorem State.writeBytes_pls (s : State) (a : Nat) (bs : List Byte) (p : Bool) : (s.writeBytes a bs p).pls = s.pls := (rfl)
@[simp] theorem State.writeBytes_dies (s : State) (a : Nat) (bs : List Byte) (p : Bool) : (s.writeBytes a bs p).dies = s.dies := (rfl)
@[simp] theorem State.writeBytes_hubs (s : State) (a : Nat) (bs : List Byte) (p : Bool) : (s.writeBytes a bs p).hubs = s.hubs := (rfl)
@[simp] theorem State.writeBytes_arrays (s : State) (a : Nat) (bs : List Byte) (p : Bool) : (s.writeBytes a bs p).arrays = s.arrays := (rfl)
@[simp] theorem State.writeBytes_xdies (s : State) (a : Nat) (bs : List Byte) (p : Bool) : (s.writeBytes a bs p).xdies = s.xdies := (rfl)
@[simp] theorem State.writeBytes_beats (s : State) (a : Nat) (bs : List Byte) (p : Bool) : (s.writeBytes a bs p).beats = s.beats := (rfl)
@[simp] theorem State.writeBytes_get_die (s : State) (a : Nat) (bs : List Byte) (p : Bool) (q : Nat) : (s.writeBytes a bs p).die q = s.die q := (rfl)
@[simp] theorem State.writeBytes_get_hub (s : State) (a : Nat) (bs : List Byte) (p : Bool) (q k : Nat) : (s.writeBytes a bs p).hub q k = s.hub q k := (rfl)
@[simp] theorem State.writeBytes_get_arr (s : State) (a : Nat) (bs : List Byte) (p : Bool) (q k : Nat) : (s.writeBytes a bs p).arr q k = s.arr q k := (rfl)
@[simp] theorem State.writeBytes_get_slot (s : State) (a : Nat) (bs : List Byte) (p : Bool) (q : Nat) : (s.writeBytes a bs p).slot q = s.slot q := (rfl)
@[simp] theorem State.writeBytes_get_part (s : State) (a : Nat) (bs : List Byte) (p : Bool) (q : Nat) : (s.writeBytes a bs p).part q = s.part q := (rfl)
@[simp] theorem State.writeBytes_get_pl (s : State) (a : Nat) (bs : List Byte) (p : Bool) (q : Nat) : (s.writeBytes a bs p).pl q = s.pl q := (rfl)
@[simp] theorem State.writeBytes_get_xdie (s : State) (a : Nat) (bs : List Byte) (p : Bool) (q : Nat) : (s.writeBytes a bs p).xdie q = s.xdie q := (rfl)

/-! ### Reading what was set -/

@[simp] theorem State.setDie_self (s : State) (p : Nat) (x : Die) : (s.setDie p x).die p = x := SMap.get_put_self _ _ _ _
theorem State.die_setDie (s : State) (p q : Nat) (x : Die) : (s.setDie p x).die q = if q = p then x else s.die q := SMap.get_put _ _ _ _ _
@[simp] theorem State.setSlot_self (s : State) (p : Nat) (x : Slot) : (s.setSlot p x).slot p = x := SMap.get_put_self _ _ _ _
theorem State.slot_setSlot (s : State) (p q : Nat) (x : Slot) : (s.setSlot p x).slot q = if q = p then x else s.slot q := SMap.get_put _ _ _ _ _
@[simp] theorem State.setPart_self (s : State) (p : Nat) (x : Part) : (s.setPart p x).part p = x := SMap.get_put_self _ _ _ _
theorem State.part_setPart (s : State) (p q : Nat) (x : Part) : (s.setPart p x).part q = if q = p then x else s.part q := SMap.get_put _ _ _ _ _
@[simp] theorem State.setPl_self (s : State) (p : Nat) (x : Pl) : (s.setPl p x).pl p = x := SMap.get_put_self _ _ _ _
theorem State.pl_setPl (s : State) (p q : Nat) (x : Pl) : (s.setPl p x).pl q = if q = p then x else s.pl q := SMap.get_put _ _ _ _ _
@[simp] theorem State.setXdie_self (s : State) (p : Nat) (x : XDie) : (s.setXdie p x).xdie p = x := SMap.get_put_self _ _ _ _
theorem State.xdie_setXdie (s : State) (p q : Nat) (x : XDie) : (s.setXdie p x).xdie q = if q = p then x else s.xdie q := SMap.get_put _ _ _ _ _
@[simp] theorem State.setHub_self (s : State) (p h : Nat) (x : Hub) : (s.setHub p h x).hub p h = x := SMap.get_put_self _ _ _ _
theorem State.hub_setHub (s : State) (p h q k : Nat) (x : Hub) :
    (s.setHub p h x).hub q k = if 8 * q + k = 8 * p + h then x else s.hub q k := SMap.get_put _ _ _ _ _
@[simp] theorem State.setArr_self (s : State) (p a : Nat) (x : Arr) : (s.setArr p a x).arr p a = x := SMap.get_put_self _ _ _ _
theorem State.arr_setArr (s : State) (p a q k : Nat) (x : Arr) :
    (s.setArr p a x).arr q k = if 4 * q + k = 4 * p + a then x else s.arr q k := SMap.get_put _ _ _ _ _

/-- Two hubs of different dies, or of different numbers below 8, are kept apart. -/
theorem State.setHub_other (s : State) (p h q k : Nat) (x : Hub) (hh : h < 8) (hk : k < 8) (n : q ≠ p ∨ k ≠ h) :
    (s.setHub p h x).hub q k = s.hub q k := by
  rw [State.hub_setHub, if_neg (by omega)]

/-! ### The kinds of the dies follow the mix registers -/

theorem State.good_dev (s t : State) (h : t.dev.mix = s.dev.mix) (p : Nat) : t.good p = s.good p := by
  unfold State.good; rw [h]

theorem State.kind_dev (s t : State) (h : t.dev.mix = s.dev.mix) (p : Nat) : t.kind p = s.kind p := by
  unfold State.kind; rw [State.good_dev s t h, h]

@[simp] theorem State.setDie_kind (s : State) (p : Nat) (x : Die) (q : Nat) : (s.setDie p x).kind q = s.kind q := (rfl)
@[simp] theorem State.setHub_kind (s : State) (p h : Nat) (x : Hub) (q : Nat) : (s.setHub p h x).kind q = s.kind q := (rfl)
@[simp] theorem State.setArr_kind (s : State) (p a : Nat) (x : Arr) (q : Nat) : (s.setArr p a x).kind q = s.kind q := (rfl)
@[simp] theorem State.setSlot_kind (s : State) (n : Nat) (x : Slot) (q : Nat) : (s.setSlot n x).kind q = s.kind q := (rfl)
@[simp] theorem State.setPart_kind (s : State) (p : Nat) (x : Part) (q : Nat) : (s.setPart p x).kind q = s.kind q := (rfl)
@[simp] theorem State.setPl_kind (s : State) (n : Nat) (x : Pl) (q : Nat) : (s.setPl n x).kind q = s.kind q := (rfl)
@[simp] theorem State.setXdie_kind (s : State) (p : Nat) (x : XDie) (q : Nat) : (s.setXdie p x).kind q = s.kind q := (rfl)
@[simp] theorem State.useFree_kind (s : State) (q : Nat) : (s.useFree ).kind q = s.kind q := (rfl)
@[simp] theorem State.after_kind (s : State) (n : Nat) (i : Instr) (a : Arg) (q : Nat) : (s.after n i a).kind q = s.kind q := (rfl)
@[simp] theorem State.post_kind (s : State) (d t l h e : Nat) (a : Act) (q : Nat) : (s.post d t l h e a).kind q = s.kind q := (rfl)
@[simp] theorem State.writeBytes_kind (s : State) (a : Nat) (bs : List Byte) (p : Bool) (q : Nat) : (s.writeBytes a bs p).kind q = s.kind q := (rfl)

end Sys2Proof.Machine
end

