-- ==== Sys2Proof/Laws/Memory.lean ====
section
/-! SUPPORT. Memory: what is read after a write, the canonical form, and poison. -/

set_option linter.unusedSimpArgs false

namespace Sys2Proof.Machine

open Sys2Proof

theorem Memory.read_write (m : List Host.Cell) (a x : Nat) (b : Byte) :
    Memory.read (Memory.write m a b) x = if x = a then b else Memory.read m x := SMap.get_set _ _ _ _ _

theorem Memory.wf_write (m : List Host.Cell) (a : Nat) (b : Byte) (h : Memory.wf m = true) : Memory.wf (Memory.write m a b) = true :=
  SMap.wf_set _ _ _ _ h

theorem Memory.wf_filter (m : List Host.Cell) (p : Host.Cell → Bool) (h : Memory.wf m = true) : Memory.wf (m.filter p) = true :=
  SMap.wf_filter _ _ _ h

theorem Memory.read_filter (m : List Host.Cell) (p : Nat → Bool) (a : Nat) :
    Memory.read (m.filter fun c => p c.1) a = if p a then Memory.read m a else unlisted := SMap.get_filter _ _ _ _

theorem Memory.wf_writeAll (bs : List Byte) (m : List Host.Cell) (a : Nat) (h : Memory.wf m = true) :
    Memory.wf (Memory.writeAll m a bs) = true := by
  induction bs generalizing m a with
  | nil => exact h
  | cons b r ih => exact ih _ _ (Memory.wf_write m a b h)

/-- Bytes outside a write read as before. -/
theorem Memory.read_writeAll_out (bs : List Byte) (m : List Host.Cell) (a x : Nat) (h : x < a ∨ a + bs.length ≤ x) :
    Memory.read (Memory.writeAll m a bs) x = Memory.read m x := by
  induction bs generalizing m a with
  | nil => rfl
  | cons b r ih =>
    simp only [Memory.writeAll, List.length_cons] at *
    rw [ih _ _ (by omega), Memory.read_write, if_neg (by omega)]

/-- A written byte reads back. -/
theorem Memory.read_writeAll (bs : List Byte) (m : List Host.Cell) (a k : Nat) (b : Byte) (h : bs[k]? = some b) :
    Memory.read (Memory.writeAll m a bs) (a + k) = b := by
  induction bs generalizing m a k with
  | nil => simp at h
  | cons c r ih =>
    simp only [Memory.writeAll]
    cases k with
    | zero =>
      simp only [List.getElem?_cons_zero, Option.some.injEq] at h
      rw [Memory.read_writeAll_out _ _ _ _ (by omega), Memory.read_write, if_pos (by omega), h]
    | succ k =>
      simp only [List.getElem?_cons_succ] at h
      rw [show a + (k + 1) = a + 1 + k by omega]
      exact ih _ _ _ h

theorem Memory.wf_writeRuns (l : List (Nat × List Byte)) (m : List Host.Cell) (h : Memory.wf m = true) :
    Memory.wf (writeRuns m l) = true := by
  induction l generalizing m with
  | nil => exact h
  | cons x r ih => exact ih _ (Memory.wf_writeAll _ _ _ h)

/-- A unit that is written back whole keeps the canonical form (R128). -/
theorem State.rewritten_wf (s : State) (a n : Nat) (ls : List Nat) (h : Memory.wf s.mem = true) :
    Memory.wf (s.rewritten a n ls) = true := by
  induction ls with
  | nil => exact h
  | cons l r ih => simp only [State.rewritten]; split <;> [exact ih; exact Memory.wf_writeAll _ _ _ ih]

theorem State.rewrittenRuns_wf (s : State) (rs : List (Nat × List Byte)) (ls : List Nat) (h : Memory.wf s.mem = true) :
    Memory.wf (s.rewrittenRuns rs ls) = true := by
  induction ls with
  | nil => exact h
  | cons l r ih => simp only [State.rewrittenRuns]; split <;> [exact ih; exact Memory.wf_writeAll _ _ _ ih]

/-- A write made of runs keeps the canonical form. -/
theorem State.writeScatter_wf (s : State) (rs : List (Nat × List Byte)) (p : Bool) (h : Memory.wf s.mem = true) :
    Memory.wf (s.writeScatter rs p).mem = true := Memory.wf_writeRuns _ _ (s.rewrittenRuns_wf _ _ h)

/-- A byte of the memory before a write that covers some HBM units in part (R128): blank where the present key has not written the
unit. -/
theorem State.read_rewritten (s : State) (a n : Nat) (ls : List Nat) (x : Nat) :
    Memory.read (s.rewritten a n ls) x =
      if x / 64 ∈ ls ∧ SMap.get 0 s.epochs (x / 64) ≠ (s.die (homeDie (homeOf a))).epoch ∧ ¬ (a ≤ 64 * (x / 64) ∧ 64 * (x / 64) + 64 ≤ a + n)
      then (s.die (homeDie (homeOf a))).blankByte x else Memory.read s.mem x := by
  induction ls with
  | nil => simp [State.rewritten]
  | cons l r ih =>
    rw [State.rewritten]
    split
    · rename_i h; rw [ih]
      by_cases hx : x / 64 = l
      · subst hx; grind
      · simp [hx]
    · rename_i h
      by_cases hx : x / 64 = l
      · have hk : ((List.range 64).map fun i => (s.die (homeDie (homeOf a))).blankByte (64 * l + i))[x % 64]? =
            some ((s.die (homeDie (homeOf a))).blankByte x) := by
          rw [List.getElem?_map, List.getElem?_range (Nat.mod_lt _ (by norm_num))]
          simp; congr 1; omega
        have := Memory.read_writeAll _ (s.rewritten a n r) (64 * l) (x % 64) _ hk
        rw [show 64 * l + x % 64 = x by omega] at this
        rw [this, if_pos]; subst hx; exact ⟨by simp, by tauto, by tauto⟩
      · rw [Memory.read_writeAll_out _ _ _ _ (by simp; omega), ih]
        simp [hx]

/-- Every write of a unit keeps the canonical form. -/
theorem State.writeBytes_wf (s : State) (a : Nat) (bs : List Byte) (p : Bool) (h : Memory.wf s.mem = true) :
    Memory.wf (s.writeBytes a bs p).mem = true := by
  simp only [State.writeBytes]
  split <;> exact Memory.wf_writeAll _ _ _ (by first | exact s.rewritten_wf _ _ _ h | exact h)

/-- Outside HBM a write changes the bytes at its address alone. -/
theorem State.writeBytes_mem (s : State) (a : Nat) (bs : List Byte) (p : Bool) (h : isHbm (homeOf a) = false) :
    (s.writeBytes a bs p).mem = Memory.writeAll s.mem a bs := by
  simp [State.writeBytes, h]

/-- The lines whose poison a write changes (R254, R256). -/
theorem get_poisonAfter (m : SMap Bool) (a n : Nat) (p : Bool) (ls : List Nat) (l : Nat) :
    SMap.get false (poisonAfter m a n p ls) l =
      if l ∈ ls then (if p then true else if a ≤ 64 * l ∧ 64 * l + 64 ≤ a + n then false else SMap.get false m l)
      else SMap.get false m l := by
  induction ls generalizing m with
  | nil => simp [poisonAfter]
  | cons k r ih =>
    simp only [poisonAfter, ih, List.mem_cons]
    by_cases hp : p = true
    · simp only [hp, if_true, SMap.get_set]; by_cases h1 : l = k <;> by_cases h2 : l ∈ r <;> simp [h1, h2, SMap.get_set]
    · by_cases hk : a ≤ 64 * k ∧ 64 * k + 64 ≤ a + n
      · simp only [hp, hk, and_self, if_true]
        by_cases h1 : l = k
        · subst h1; by_cases h2 : l ∈ r <;> simp [hk, h2, SMap.get_set]
        · by_cases h2 : l ∈ r <;> simp [h1, h2, SMap.get_set]
      · simp only [hp, hk, if_false]
        by_cases h1 : l = k
        · subst h1; by_cases h2 : l ∈ r <;> simp [hk, h2, SMap.get_set]
        · by_cases h2 : l ∈ r <;> simp [h1, h2, SMap.get_set]

theorem get_stamp (m : SMap Nat) (e : Nat) (ls : List Nat) (l : Nat) :
    SMap.get 0 (stamp m e ls) l = if l ∈ ls then e else SMap.get 0 m l := by
  induction ls generalizing m with
  | nil => simp [stamp]
  | cons k r ih => simp only [stamp, ih, SMap.get_set, List.mem_cons]; grind

theorem mem_linesOf (a n l : Nat) : l ∈ linesOf a n ↔ 0 < n ∧ a / 64 ≤ l ∧ l ≤ (a + n - 1) / 64 := by
  unfold linesOf
  split
  · rename_i h; simp [h]
  · rename_i h
    simp only [List.mem_map, List.mem_range]
    constructor
    · rintro ⟨i, hi, rfl⟩
      have : a / 64 ≤ (a + n - 1) / 64 := Nat.div_le_div_right (by omega)
      omega
    · rintro ⟨_, h1, h2⟩
      exact ⟨l - a / 64, by omega, by omega⟩

end Sys2Proof.Machine
end

