-- ==== Sys2Proof/Laws/Ops.lean ====
section
/-! SUPPORT. What the shared operations of hubs, packets and faults leave as it is. -/

set_option linter.all false

namespace Sys2Proof.Machine

open Sys2Proof

/-- A fold of steps that each keep something keeps it. -/
theorem State.foldl_keeps {γ β : Type} (P : State → γ) (f : State → β → State) (h : ∀ s x, P (f s x) = P s) (l : List β) (s : State) :
    P (l.foldl f s) = P s := by
  induction l generalizing s with
  | nil => rfl
  | cons x r ih => rw [List.foldl_cons, ih, h]

/-- `State.later` changes nothing but `agenda`, `seq`. -/
@[simp] theorem State.later_frame (s : State) (l : Nat) (a : Act) :
    (s.later l a).cur = s.cur ∧ (s.later l a).inbox = s.inbox ∧ (s.later l a).arg = s.arg ∧ (s.later l a).timers = s.timers ∧
    (s.later l a).net = s.net ∧ (s.later l a).outs = s.outs ∧ (s.later l a).cy = s.cy ∧ (s.later l a).dev = s.dev ∧
    (s.later l a).slots = s.slots ∧ (s.later l a).parts = s.parts ∧ (s.later l a).pls = s.pls ∧ (s.later l a).dies = s.dies ∧
    (s.later l a).hubs = s.hubs ∧ (s.later l a).arrays = s.arrays ∧ (s.later l a).xdies = s.xdies ∧ (s.later l a).mem = s.mem ∧
    (s.later l a).lines = s.lines ∧ (s.later l a).epochs = s.epochs ∧ (s.later l a).ecc = s.ecc ∧
    (∀ q₁, (s.later l a).slot q₁ = s.slot q₁) ∧ (∀ q₁, (s.later l a).part q₁ = s.part q₁) ∧
    (∀ q₁, (s.later l a).pl q₁ = s.pl q₁) ∧ (∀ q₁, (s.later l a).die q₁ = s.die q₁) ∧
    (∀ q₁ q₂, (s.later l a).hub q₁ q₂ = s.hub q₁ q₂) ∧ (∀ q₁ q₂, (s.later l a).arr q₁ q₂ = s.arr q₁ q₂) ∧
    (∀ q₁, (s.later l a).xdie q₁ = s.xdie q₁) :=
  ⟨(rfl), (rfl), (rfl), (rfl), (rfl), (rfl), (rfl), (rfl), (rfl), (rfl), (rfl), (rfl), (rfl), (rfl), (rfl), (rfl), (rfl), (rfl), (rfl), fun _ => (rfl), fun _ => (rfl), fun _ => (rfl), fun _ => (rfl), fun _ _ => (rfl), fun _ _ => (rfl), fun _ => (rfl)⟩

/-- `State.laterAll` changes nothing but `agenda`, `seq`. -/
@[simp] theorem State.laterAll_frame (s : State) (r0 : List (Nat × Act)) :
    (s.laterAll r0).cur = s.cur ∧ (s.laterAll r0).inbox = s.inbox ∧ (s.laterAll r0).arg = s.arg ∧
    (s.laterAll r0).timers = s.timers ∧ (s.laterAll r0).net = s.net ∧ (s.laterAll r0).outs = s.outs ∧
    (s.laterAll r0).cy = s.cy ∧ (s.laterAll r0).dev = s.dev ∧ (s.laterAll r0).slots = s.slots ∧
    (s.laterAll r0).parts = s.parts ∧ (s.laterAll r0).pls = s.pls ∧ (s.laterAll r0).dies = s.dies ∧
    (s.laterAll r0).hubs = s.hubs ∧ (s.laterAll r0).arrays = s.arrays ∧ (s.laterAll r0).xdies = s.xdies ∧
    (s.laterAll r0).mem = s.mem ∧ (s.laterAll r0).lines = s.lines ∧ (s.laterAll r0).epochs = s.epochs ∧
    (s.laterAll r0).ecc = s.ecc ∧ (∀ q₁, (s.laterAll r0).slot q₁ = s.slot q₁) ∧ (∀ q₁, (s.laterAll r0).part q₁ = s.part q₁) ∧
    (∀ q₁, (s.laterAll r0).pl q₁ = s.pl q₁) ∧ (∀ q₁, (s.laterAll r0).die q₁ = s.die q₁) ∧
    (∀ q₁ q₂, (s.laterAll r0).hub q₁ q₂ = s.hub q₁ q₂) ∧ (∀ q₁ q₂, (s.laterAll r0).arr q₁ q₂ = s.arr q₁ q₂) ∧
    (∀ q₁, (s.laterAll r0).xdie q₁ = s.xdie q₁) := by
  induction r0 generalizing s with
  | nil => simp [State.laterAll]
  | cons x r ih => first | (simp [State.laterAll, ih]; done) | (simp only [State.laterAll, ih]; (repeat' split) <;> (first | rfl | (simp <;> rfl)))

/-- `State.setCurHub` changes nothing but `hubs`. -/
@[simp] theorem State.setCurHub_frame (s : State) (h : Hub) :
    (s.setCurHub h).cur = s.cur ∧ (s.setCurHub h).inbox = s.inbox ∧ (s.setCurHub h).arg = s.arg ∧
    (s.setCurHub h).agenda = s.agenda ∧ (s.setCurHub h).timers = s.timers ∧ (s.setCurHub h).net = s.net ∧
    (s.setCurHub h).outs = s.outs ∧ (s.setCurHub h).cy = s.cy ∧ (s.setCurHub h).dev = s.dev ∧ (s.setCurHub h).slots = s.slots ∧
    (s.setCurHub h).parts = s.parts ∧ (s.setCurHub h).pls = s.pls ∧ (s.setCurHub h).dies = s.dies ∧
    (s.setCurHub h).arrays = s.arrays ∧ (s.setCurHub h).xdies = s.xdies ∧ (s.setCurHub h).mem = s.mem ∧
    (s.setCurHub h).lines = s.lines ∧ (s.setCurHub h).epochs = s.epochs ∧ (s.setCurHub h).ecc = s.ecc ∧
    (∀ q₁, (s.setCurHub h).slot q₁ = s.slot q₁) ∧ (∀ q₁, (s.setCurHub h).part q₁ = s.part q₁) ∧
    (∀ q₁, (s.setCurHub h).pl q₁ = s.pl q₁) ∧ (∀ q₁, (s.setCurHub h).die q₁ = s.die q₁) ∧
    (∀ q₁ q₂, (s.setCurHub h).arr q₁ q₂ = s.arr q₁ q₂) ∧ (∀ q₁, (s.setCurHub h).xdie q₁ = s.xdie q₁) :=
  ⟨(rfl), (rfl), (rfl), (rfl), (rfl), (rfl), (rfl), (rfl), (rfl), (rfl), (rfl), (rfl), (rfl), (rfl), (rfl), (rfl), (rfl), (rfl), (rfl), fun _ => (rfl), fun _ => (rfl), fun _ => (rfl), fun _ => (rfl), fun _ _ => (rfl), fun _ => (rfl)⟩

/-- `State.advance` changes nothing but `hubs`. -/
@[simp] theorem State.advance_frame (s : State) (d : Nat) :
    (s.advance d).cur = s.cur ∧ (s.advance d).inbox = s.inbox ∧ (s.advance d).arg = s.arg ∧ (s.advance d).agenda = s.agenda ∧
    (s.advance d).timers = s.timers ∧ (s.advance d).net = s.net ∧ (s.advance d).outs = s.outs ∧ (s.advance d).cy = s.cy ∧
    (s.advance d).dev = s.dev ∧ (s.advance d).slots = s.slots ∧ (s.advance d).parts = s.parts ∧ (s.advance d).pls = s.pls ∧
    (s.advance d).dies = s.dies ∧ (s.advance d).arrays = s.arrays ∧ (s.advance d).xdies = s.xdies ∧ (s.advance d).mem = s.mem ∧
    (s.advance d).lines = s.lines ∧ (s.advance d).epochs = s.epochs ∧ (s.advance d).ecc = s.ecc ∧
    (∀ q₁, (s.advance d).slot q₁ = s.slot q₁) ∧ (∀ q₁, (s.advance d).part q₁ = s.part q₁) ∧
    (∀ q₁, (s.advance d).pl q₁ = s.pl q₁) ∧ (∀ q₁, (s.advance d).die q₁ = s.die q₁) ∧
    (∀ q₁ q₂, (s.advance d).arr q₁ q₂ = s.arr q₁ q₂) ∧ (∀ q₁, (s.advance d).xdie q₁ = s.xdie q₁) :=
  ⟨(rfl), (rfl), (rfl), (rfl), (rfl), (rfl), (rfl), (rfl), (rfl), (rfl), (rfl), (rfl), (rfl), (rfl), (rfl), (rfl), (rfl), (rfl), (rfl), fun _ => (rfl), fun _ => (rfl), fun _ => (rfl), fun _ => (rfl), fun _ _ => (rfl), fun _ => (rfl)⟩

/-- `State.jump` changes nothing but `hubs`. -/
@[simp] theorem State.jump_frame (s : State) (target d : Nat) :
    (s.jump target d).cur = s.cur ∧ (s.jump target d).inbox = s.inbox ∧ (s.jump target d).arg = s.arg ∧
    (s.jump target d).agenda = s.agenda ∧ (s.jump target d).timers = s.timers ∧ (s.jump target d).net = s.net ∧
    (s.jump target d).outs = s.outs ∧ (s.jump target d).cy = s.cy ∧ (s.jump target d).dev = s.dev ∧
    (s.jump target d).slots = s.slots ∧ (s.jump target d).parts = s.parts ∧ (s.jump target d).pls = s.pls ∧
    (s.jump target d).dies = s.dies ∧ (s.jump target d).arrays = s.arrays ∧ (s.jump target d).xdies = s.xdies ∧
    (s.jump target d).mem = s.mem ∧ (s.jump target d).lines = s.lines ∧ (s.jump target d).epochs = s.epochs ∧
    (s.jump target d).ecc = s.ecc ∧ (∀ q₁, (s.jump target d).slot q₁ = s.slot q₁) ∧
    (∀ q₁, (s.jump target d).part q₁ = s.part q₁) ∧ (∀ q₁, (s.jump target d).pl q₁ = s.pl q₁) ∧
    (∀ q₁, (s.jump target d).die q₁ = s.die q₁) ∧ (∀ q₁ q₂, (s.jump target d).arr q₁ q₂ = s.arr q₁ q₂) ∧
    (∀ q₁, (s.jump target d).xdie q₁ = s.xdie q₁) :=
  ⟨(rfl), (rfl), (rfl), (rfl), (rfl), (rfl), (rfl), (rfl), (rfl), (rfl), (rfl), (rfl), (rfl), (rfl), (rfl), (rfl), (rfl), (rfl), (rfl), fun _ => (rfl), fun _ => (rfl), fun _ => (rfl), fun _ => (rfl), fun _ _ => (rfl), fun _ => (rfl)⟩

/-- `State.waitOn` changes nothing but `hubs`. -/
@[simp] theorem State.waitOn_frame (s : State) (w : Wait) :
    (s.waitOn w).cur = s.cur ∧ (s.waitOn w).inbox = s.inbox ∧ (s.waitOn w).arg = s.arg ∧ (s.waitOn w).agenda = s.agenda ∧
    (s.waitOn w).timers = s.timers ∧ (s.waitOn w).net = s.net ∧ (s.waitOn w).outs = s.outs ∧ (s.waitOn w).cy = s.cy ∧
    (s.waitOn w).dev = s.dev ∧ (s.waitOn w).slots = s.slots ∧ (s.waitOn w).parts = s.parts ∧ (s.waitOn w).pls = s.pls ∧
    (s.waitOn w).dies = s.dies ∧ (s.waitOn w).arrays = s.arrays ∧ (s.waitOn w).xdies = s.xdies ∧ (s.waitOn w).mem = s.mem ∧
    (s.waitOn w).lines = s.lines ∧ (s.waitOn w).epochs = s.epochs ∧ (s.waitOn w).ecc = s.ecc ∧
    (∀ q₁, (s.waitOn w).slot q₁ = s.slot q₁) ∧ (∀ q₁, (s.waitOn w).part q₁ = s.part q₁) ∧
    (∀ q₁, (s.waitOn w).pl q₁ = s.pl q₁) ∧ (∀ q₁, (s.waitOn w).die q₁ = s.die q₁) ∧
    (∀ q₁ q₂, (s.waitOn w).arr q₁ q₂ = s.arr q₁ q₂) ∧ (∀ q₁, (s.waitOn w).xdie q₁ = s.xdie q₁) :=
  ⟨(rfl), (rfl), (rfl), (rfl), (rfl), (rfl), (rfl), (rfl), (rfl), (rfl), (rfl), (rfl), (rfl), (rfl), (rfl), (rfl), (rfl), (rfl), (rfl), fun _ => (rfl), fun _ => (rfl), fun _ => (rfl), fun _ => (rfl), fun _ _ => (rfl), fun _ => (rfl)⟩

/-- `State.sendWithin` changes nothing but `timers`, `free`, `net`, `netSeq`. -/
@[simp] theorem State.sendWithin_frame (s : State) (bound : Nat) (i : Instr) (p : Pkt) :
    (s.sendWithin bound i p).cur = s.cur ∧ (s.sendWithin bound i p).inbox = s.inbox ∧ (s.sendWithin bound i p).arg = s.arg ∧
    (s.sendWithin bound i p).agenda = s.agenda ∧ (s.sendWithin bound i p).outs = s.outs ∧ (s.sendWithin bound i p).cy = s.cy ∧
    (s.sendWithin bound i p).dev = s.dev ∧ (s.sendWithin bound i p).slots = s.slots ∧
    (s.sendWithin bound i p).parts = s.parts ∧ (s.sendWithin bound i p).pls = s.pls ∧ (s.sendWithin bound i p).dies = s.dies ∧
    (s.sendWithin bound i p).hubs = s.hubs ∧ (s.sendWithin bound i p).arrays = s.arrays ∧
    (s.sendWithin bound i p).xdies = s.xdies ∧ (s.sendWithin bound i p).mem = s.mem ∧
    (s.sendWithin bound i p).lines = s.lines ∧ (s.sendWithin bound i p).epochs = s.epochs ∧
    (s.sendWithin bound i p).ecc = s.ecc ∧ (∀ q₁, (s.sendWithin bound i p).slot q₁ = s.slot q₁) ∧
    (∀ q₁, (s.sendWithin bound i p).part q₁ = s.part q₁) ∧ (∀ q₁, (s.sendWithin bound i p).pl q₁ = s.pl q₁) ∧
    (∀ q₁, (s.sendWithin bound i p).die q₁ = s.die q₁) ∧ (∀ q₁ q₂, (s.sendWithin bound i p).hub q₁ q₂ = s.hub q₁ q₂) ∧
    (∀ q₁ q₂, (s.sendWithin bound i p).arr q₁ q₂ = s.arr q₁ q₂) ∧ (∀ q₁, (s.sendWithin bound i p).xdie q₁ = s.xdie q₁) :=
  ⟨(rfl), (rfl), (rfl), (rfl), (rfl), (rfl), (rfl), (rfl), (rfl), (rfl), (rfl), (rfl), (rfl), (rfl), (rfl), (rfl), (rfl), (rfl), fun _ => (rfl), fun _ => (rfl), fun _ => (rfl), fun _ => (rfl), fun _ _ => (rfl), fun _ _ => (rfl), fun _ => (rfl)⟩

/-- `State.sendReport` changes nothing but `timers`, `free`, `net`, `netSeq`. -/
@[simp] theorem State.sendReport_frame (s : State) (r : FaultReport) :
    (s.sendReport r).cur = s.cur ∧ (s.sendReport r).inbox = s.inbox ∧ (s.sendReport r).arg = s.arg ∧
    (s.sendReport r).agenda = s.agenda ∧ (s.sendReport r).outs = s.outs ∧ (s.sendReport r).cy = s.cy ∧
    (s.sendReport r).dev = s.dev ∧ (s.sendReport r).slots = s.slots ∧ (s.sendReport r).parts = s.parts ∧
    (s.sendReport r).pls = s.pls ∧ (s.sendReport r).dies = s.dies ∧ (s.sendReport r).hubs = s.hubs ∧
    (s.sendReport r).arrays = s.arrays ∧ (s.sendReport r).xdies = s.xdies ∧ (s.sendReport r).mem = s.mem ∧
    (s.sendReport r).lines = s.lines ∧ (s.sendReport r).epochs = s.epochs ∧ (s.sendReport r).ecc = s.ecc ∧
    (∀ q₁, (s.sendReport r).slot q₁ = s.slot q₁) ∧ (∀ q₁, (s.sendReport r).part q₁ = s.part q₁) ∧
    (∀ q₁, (s.sendReport r).pl q₁ = s.pl q₁) ∧ (∀ q₁, (s.sendReport r).die q₁ = s.die q₁) ∧
    (∀ q₁ q₂, (s.sendReport r).hub q₁ q₂ = s.hub q₁ q₂) ∧ (∀ q₁ q₂, (s.sendReport r).arr q₁ q₂ = s.arr q₁ q₂) ∧
    (∀ q₁, (s.sendReport r).xdie q₁ = s.xdie q₁) :=
  ⟨(rfl), (rfl), (rfl), (rfl), (rfl), (rfl), (rfl), (rfl), (rfl), (rfl), (rfl), (rfl), (rfl), (rfl), (rfl), (rfl), (rfl), (rfl), fun _ => (rfl), fun _ => (rfl), fun _ => (rfl), fun _ => (rfl), fun _ _ => (rfl), fun _ _ => (rfl), fun _ => (rfl)⟩

/-- `State.eccFor` changes nothing but `timers`, `free`, `net`, `netSeq`. -/
@[simp] theorem State.eccFor_frame (s : State) (l : Launch) (lpos hub eng detail : Nat) (places : List (Nat × Nat)) :
    (s.eccFor l lpos hub eng detail places).cur = s.cur ∧ (s.eccFor l lpos hub eng detail places).inbox = s.inbox ∧
    (s.eccFor l lpos hub eng detail places).arg = s.arg ∧ (s.eccFor l lpos hub eng detail places).agenda = s.agenda ∧
    (s.eccFor l lpos hub eng detail places).outs = s.outs ∧ (s.eccFor l lpos hub eng detail places).cy = s.cy ∧
    (s.eccFor l lpos hub eng detail places).dev = s.dev ∧ (s.eccFor l lpos hub eng detail places).slots = s.slots ∧
    (s.eccFor l lpos hub eng detail places).parts = s.parts ∧ (s.eccFor l lpos hub eng detail places).pls = s.pls ∧
    (s.eccFor l lpos hub eng detail places).dies = s.dies ∧ (s.eccFor l lpos hub eng detail places).hubs = s.hubs ∧
    (s.eccFor l lpos hub eng detail places).arrays = s.arrays ∧ (s.eccFor l lpos hub eng detail places).xdies = s.xdies ∧
    (s.eccFor l lpos hub eng detail places).mem = s.mem ∧ (s.eccFor l lpos hub eng detail places).lines = s.lines ∧
    (s.eccFor l lpos hub eng detail places).epochs = s.epochs ∧ (s.eccFor l lpos hub eng detail places).ecc = s.ecc ∧
    (∀ q₁, (s.eccFor l lpos hub eng detail places).slot q₁ = s.slot q₁) ∧
    (∀ q₁, (s.eccFor l lpos hub eng detail places).part q₁ = s.part q₁) ∧
    (∀ q₁, (s.eccFor l lpos hub eng detail places).pl q₁ = s.pl q₁) ∧
    (∀ q₁, (s.eccFor l lpos hub eng detail places).die q₁ = s.die q₁) ∧
    (∀ q₁ q₂, (s.eccFor l lpos hub eng detail places).hub q₁ q₂ = s.hub q₁ q₂) ∧
    (∀ q₁ q₂, (s.eccFor l lpos hub eng detail places).arr q₁ q₂ = s.arr q₁ q₂) ∧
    (∀ q₁, (s.eccFor l lpos hub eng detail places).xdie q₁ = s.xdie q₁) := by
  refine ⟨?_, ?_, ?_, ?_, ?_, ?_, ?_, ?_, ?_, ?_, ?_, ?_, ?_, ?_, ?_, ?_, ?_, ?_, fun _ => ?_, fun _ => ?_, fun _ => ?_, fun _ => ?_, fun _ _ => ?_, fun _ _ => ?_, fun _ => ?_⟩ <;>
    (first | (simp [State.eccFor] <;> rfl; done) | (unfold State.eccFor; (repeat' split) <;> (first | rfl | (simp <;> rfl)); done) | (simp only [State.eccFor]; (repeat' split) <;> (first | rfl | (simp <;> rfl)); done))

/-- `State.eccRead` changes nothing but `timers`, `free`, `net`, `netSeq`. -/
@[simp] theorem State.eccRead_frame (s : State) (die hub eng detail : Nat) (places : List (Nat × Nat)) :
    (s.eccRead die hub eng detail places).cur = s.cur ∧ (s.eccRead die hub eng detail places).inbox = s.inbox ∧
    (s.eccRead die hub eng detail places).arg = s.arg ∧ (s.eccRead die hub eng detail places).agenda = s.agenda ∧
    (s.eccRead die hub eng detail places).outs = s.outs ∧ (s.eccRead die hub eng detail places).cy = s.cy ∧
    (s.eccRead die hub eng detail places).dev = s.dev ∧ (s.eccRead die hub eng detail places).slots = s.slots ∧
    (s.eccRead die hub eng detail places).parts = s.parts ∧ (s.eccRead die hub eng detail places).pls = s.pls ∧
    (s.eccRead die hub eng detail places).dies = s.dies ∧ (s.eccRead die hub eng detail places).hubs = s.hubs ∧
    (s.eccRead die hub eng detail places).arrays = s.arrays ∧ (s.eccRead die hub eng detail places).xdies = s.xdies ∧
    (s.eccRead die hub eng detail places).mem = s.mem ∧ (s.eccRead die hub eng detail places).lines = s.lines ∧
    (s.eccRead die hub eng detail places).epochs = s.epochs ∧ (s.eccRead die hub eng detail places).ecc = s.ecc ∧
    (∀ q₁, (s.eccRead die hub eng detail places).slot q₁ = s.slot q₁) ∧
    (∀ q₁, (s.eccRead die hub eng detail places).part q₁ = s.part q₁) ∧
    (∀ q₁, (s.eccRead die hub eng detail places).pl q₁ = s.pl q₁) ∧
    (∀ q₁, (s.eccRead die hub eng detail places).die q₁ = s.die q₁) ∧
    (∀ q₁ q₂, (s.eccRead die hub eng detail places).hub q₁ q₂ = s.hub q₁ q₂) ∧
    (∀ q₁ q₂, (s.eccRead die hub eng detail places).arr q₁ q₂ = s.arr q₁ q₂) ∧
    (∀ q₁, (s.eccRead die hub eng detail places).xdie q₁ = s.xdie q₁) := by
  refine ⟨?_, ?_, ?_, ?_, ?_, ?_, ?_, ?_, ?_, ?_, ?_, ?_, ?_, ?_, ?_, ?_, ?_, ?_, fun _ => ?_, fun _ => ?_, fun _ => ?_, fun _ => ?_, fun _ _ => ?_, fun _ _ => ?_, fun _ => ?_⟩ <;>
    (first | (simp [State.eccRead] <;> rfl; done) | (unfold State.eccRead; (repeat' split) <;> (first | rfl | (simp <;> rfl)); done) | (simp only [State.eccRead]; (repeat' split) <;> (first | rfl | (simp <;> rfl)); done))

/-- `State.stopHub` changes nothing but `agenda`, `hubs`. -/
@[simp] theorem State.stopHub_frame (s : State) (die hub eng : Nat) :
    (s.stopHub die hub eng).cur = s.cur ∧ (s.stopHub die hub eng).inbox = s.inbox ∧ (s.stopHub die hub eng).arg = s.arg ∧
    (s.stopHub die hub eng).timers = s.timers ∧ (s.stopHub die hub eng).net = s.net ∧ (s.stopHub die hub eng).outs = s.outs ∧
    (s.stopHub die hub eng).cy = s.cy ∧ (s.stopHub die hub eng).dev = s.dev ∧ (s.stopHub die hub eng).slots = s.slots ∧
    (s.stopHub die hub eng).parts = s.parts ∧ (s.stopHub die hub eng).pls = s.pls ∧ (s.stopHub die hub eng).dies = s.dies ∧
    (s.stopHub die hub eng).arrays = s.arrays ∧ (s.stopHub die hub eng).xdies = s.xdies ∧ (s.stopHub die hub eng).mem = s.mem ∧
    (s.stopHub die hub eng).lines = s.lines ∧ (s.stopHub die hub eng).epochs = s.epochs ∧ (s.stopHub die hub eng).ecc = s.ecc ∧
    (∀ q₁, (s.stopHub die hub eng).slot q₁ = s.slot q₁) ∧ (∀ q₁, (s.stopHub die hub eng).part q₁ = s.part q₁) ∧
    (∀ q₁, (s.stopHub die hub eng).pl q₁ = s.pl q₁) ∧ (∀ q₁, (s.stopHub die hub eng).die q₁ = s.die q₁) ∧
    (∀ q₁ q₂, (s.stopHub die hub eng).arr q₁ q₂ = s.arr q₁ q₂) ∧ (∀ q₁, (s.stopHub die hub eng).xdie q₁ = s.xdie q₁) := by
  refine ⟨?_, ?_, ?_, ?_, ?_, ?_, ?_, ?_, ?_, ?_, ?_, ?_, ?_, ?_, ?_, ?_, ?_, ?_, fun _ => ?_, fun _ => ?_, fun _ => ?_, fun _ => ?_, fun _ _ => ?_, fun _ => ?_⟩ <;>
    (first | (simp [State.stopHub] <;> rfl; done) | (unfold State.stopHub; (repeat' split) <;> (first | rfl | (simp <;> rfl)); done) | (simp only [State.stopHub]; (repeat' split) <;> (first | rfl | (simp <;> rfl)); done))

/-- `State.markAbort` changes nothing but `slots`. -/
@[simp] theorem State.markAbort_frame (s : State) (slot : Nat) :
    (s.markAbort slot).cur = s.cur ∧ (s.markAbort slot).inbox = s.inbox ∧ (s.markAbort slot).arg = s.arg ∧
    (s.markAbort slot).agenda = s.agenda ∧ (s.markAbort slot).timers = s.timers ∧ (s.markAbort slot).net = s.net ∧
    (s.markAbort slot).outs = s.outs ∧ (s.markAbort slot).cy = s.cy ∧ (s.markAbort slot).dev = s.dev ∧
    (s.markAbort slot).parts = s.parts ∧ (s.markAbort slot).pls = s.pls ∧ (s.markAbort slot).dies = s.dies ∧
    (s.markAbort slot).hubs = s.hubs ∧ (s.markAbort slot).arrays = s.arrays ∧ (s.markAbort slot).xdies = s.xdies ∧
    (s.markAbort slot).mem = s.mem ∧ (s.markAbort slot).lines = s.lines ∧ (s.markAbort slot).epochs = s.epochs ∧
    (s.markAbort slot).ecc = s.ecc ∧ (∀ q₁, (s.markAbort slot).part q₁ = s.part q₁) ∧
    (∀ q₁, (s.markAbort slot).pl q₁ = s.pl q₁) ∧ (∀ q₁, (s.markAbort slot).die q₁ = s.die q₁) ∧
    (∀ q₁ q₂, (s.markAbort slot).hub q₁ q₂ = s.hub q₁ q₂) ∧ (∀ q₁ q₂, (s.markAbort slot).arr q₁ q₂ = s.arr q₁ q₂) ∧
    (∀ q₁, (s.markAbort slot).xdie q₁ = s.xdie q₁) :=
  ⟨(rfl), (rfl), (rfl), (rfl), (rfl), (rfl), (rfl), (rfl), (rfl), (rfl), (rfl), (rfl), (rfl), (rfl), (rfl), (rfl), (rfl), (rfl), (rfl), fun _ => (rfl), fun _ => (rfl), fun _ => (rfl), fun _ _ => (rfl), fun _ _ => (rfl), fun _ => (rfl)⟩

/-- `State.sendWord` changes nothing but `agenda`, `timers`, `seq`. -/
@[simp] theorem State.sendWord_frame (s : State) (p m ctype cdata : Nat) :
    (s.sendWord p m ctype cdata).cur = s.cur ∧ (s.sendWord p m ctype cdata).inbox = s.inbox ∧
    (s.sendWord p m ctype cdata).arg = s.arg ∧ (s.sendWord p m ctype cdata).net = s.net ∧
    (s.sendWord p m ctype cdata).outs = s.outs ∧ (s.sendWord p m ctype cdata).cy = s.cy ∧
    (s.sendWord p m ctype cdata).dev = s.dev ∧ (s.sendWord p m ctype cdata).slots = s.slots ∧
    (s.sendWord p m ctype cdata).parts = s.parts ∧ (s.sendWord p m ctype cdata).pls = s.pls ∧
    (s.sendWord p m ctype cdata).dies = s.dies ∧ (s.sendWord p m ctype cdata).hubs = s.hubs ∧
    (s.sendWord p m ctype cdata).arrays = s.arrays ∧ (s.sendWord p m ctype cdata).xdies = s.xdies ∧
    (s.sendWord p m ctype cdata).mem = s.mem ∧ (s.sendWord p m ctype cdata).lines = s.lines ∧
    (s.sendWord p m ctype cdata).epochs = s.epochs ∧ (s.sendWord p m ctype cdata).ecc = s.ecc ∧
    (∀ q₁, (s.sendWord p m ctype cdata).slot q₁ = s.slot q₁) ∧ (∀ q₁, (s.sendWord p m ctype cdata).part q₁ = s.part q₁) ∧
    (∀ q₁, (s.sendWord p m ctype cdata).pl q₁ = s.pl q₁) ∧ (∀ q₁, (s.sendWord p m ctype cdata).die q₁ = s.die q₁) ∧
    (∀ q₁ q₂, (s.sendWord p m ctype cdata).hub q₁ q₂ = s.hub q₁ q₂) ∧
    (∀ q₁ q₂, (s.sendWord p m ctype cdata).arr q₁ q₂ = s.arr q₁ q₂) ∧ (∀ q₁, (s.sendWord p m ctype cdata).xdie q₁ = s.xdie q₁) := by
  refine ⟨?_, ?_, ?_, ?_, ?_, ?_, ?_, ?_, ?_, ?_, ?_, ?_, ?_, ?_, ?_, ?_, ?_, ?_, fun _ => ?_, fun _ => ?_, fun _ => ?_, fun _ => ?_, fun _ _ => ?_, fun _ _ => ?_, fun _ => ?_⟩ <;>
    (first | (simp [State.sendWord] <;> rfl; done) | (unfold State.sendWord; (repeat' split) <;> (first | rfl | (simp <;> rfl)); done) | (simp only [State.sendWord]; (repeat' split) <;> (first | rfl | (simp <;> rfl)); done))

/-- `State.sendFour` changes nothing but `dies`. -/
@[simp] theorem State.sendFour_frame (s : State) (p m ctype cdata : Nat) :
    (s.sendFour p m ctype cdata).cur = s.cur ∧ (s.sendFour p m ctype cdata).inbox = s.inbox ∧
    (s.sendFour p m ctype cdata).arg = s.arg ∧ (s.sendFour p m ctype cdata).agenda = s.agenda ∧
    (s.sendFour p m ctype cdata).timers = s.timers ∧ (s.sendFour p m ctype cdata).net = s.net ∧
    (s.sendFour p m ctype cdata).outs = s.outs ∧ (s.sendFour p m ctype cdata).cy = s.cy ∧
    (s.sendFour p m ctype cdata).dev = s.dev ∧ (s.sendFour p m ctype cdata).slots = s.slots ∧
    (s.sendFour p m ctype cdata).parts = s.parts ∧ (s.sendFour p m ctype cdata).pls = s.pls ∧
    (s.sendFour p m ctype cdata).hubs = s.hubs ∧ (s.sendFour p m ctype cdata).arrays = s.arrays ∧
    (s.sendFour p m ctype cdata).xdies = s.xdies ∧ (s.sendFour p m ctype cdata).mem = s.mem ∧
    (s.sendFour p m ctype cdata).lines = s.lines ∧ (s.sendFour p m ctype cdata).epochs = s.epochs ∧
    (s.sendFour p m ctype cdata).ecc = s.ecc ∧ (∀ q₁, (s.sendFour p m ctype cdata).slot q₁ = s.slot q₁) ∧
    (∀ q₁, (s.sendFour p m ctype cdata).part q₁ = s.part q₁) ∧ (∀ q₁, (s.sendFour p m ctype cdata).pl q₁ = s.pl q₁) ∧
    (∀ q₁ q₂, (s.sendFour p m ctype cdata).hub q₁ q₂ = s.hub q₁ q₂) ∧
    (∀ q₁ q₂, (s.sendFour p m ctype cdata).arr q₁ q₂ = s.arr q₁ q₂) ∧ (∀ q₁, (s.sendFour p m ctype cdata).xdie q₁ = s.xdie q₁) :=
  ⟨(rfl), (rfl), (rfl), (rfl), (rfl), (rfl), (rfl), (rfl), (rfl), (rfl), (rfl), (rfl), (rfl), (rfl), (rfl), (rfl), (rfl), (rfl), (rfl), fun _ => (rfl), fun _ => (rfl), fun _ => (rfl), fun _ _ => (rfl), fun _ _ => (rfl), fun _ => (rfl)⟩

/-- `State.sendHalt` changes nothing but `dies`. -/
@[simp] theorem State.sendHalt_frame (s : State) (p hmark : Nat) (ms : List Nat) :
    (s.sendHalt p hmark ms).cur = s.cur ∧ (s.sendHalt p hmark ms).inbox = s.inbox ∧ (s.sendHalt p hmark ms).arg = s.arg ∧
    (s.sendHalt p hmark ms).agenda = s.agenda ∧ (s.sendHalt p hmark ms).timers = s.timers ∧
    (s.sendHalt p hmark ms).net = s.net ∧ (s.sendHalt p hmark ms).outs = s.outs ∧ (s.sendHalt p hmark ms).cy = s.cy ∧
    (s.sendHalt p hmark ms).dev = s.dev ∧ (s.sendHalt p hmark ms).slots = s.slots ∧ (s.sendHalt p hmark ms).parts = s.parts ∧
    (s.sendHalt p hmark ms).pls = s.pls ∧ (s.sendHalt p hmark ms).hubs = s.hubs ∧ (s.sendHalt p hmark ms).arrays = s.arrays ∧
    (s.sendHalt p hmark ms).xdies = s.xdies ∧ (s.sendHalt p hmark ms).mem = s.mem ∧ (s.sendHalt p hmark ms).lines = s.lines ∧
    (s.sendHalt p hmark ms).epochs = s.epochs ∧ (s.sendHalt p hmark ms).ecc = s.ecc ∧
    (∀ q₁, (s.sendHalt p hmark ms).slot q₁ = s.slot q₁) ∧ (∀ q₁, (s.sendHalt p hmark ms).part q₁ = s.part q₁) ∧
    (∀ q₁, (s.sendHalt p hmark ms).pl q₁ = s.pl q₁) ∧ (∀ q₁ q₂, (s.sendHalt p hmark ms).hub q₁ q₂ = s.hub q₁ q₂) ∧
    (∀ q₁ q₂, (s.sendHalt p hmark ms).arr q₁ q₂ = s.arr q₁ q₂) ∧ (∀ q₁, (s.sendHalt p hmark ms).xdie q₁ = s.xdie q₁) := by
  unfold State.sendHalt
  refine ⟨?_, ?_, ?_, ?_, ?_, ?_, ?_, ?_, ?_, ?_, ?_, ?_, ?_, ?_, ?_, ?_, ?_, ?_, ?_, fun _ => ?_, fun _ => ?_, fun _ => ?_, fun _ _ => ?_, fun _ _ => ?_, fun _ => ?_⟩
  · exact State.foldl_keeps State.cur _ (fun u x => by (repeat' split) <;> simp) _ _
  · exact State.foldl_keeps State.inbox _ (fun u x => by (repeat' split) <;> simp) _ _
  · exact State.foldl_keeps State.arg _ (fun u x => by (repeat' split) <;> simp) _ _
  · exact State.foldl_keeps State.agenda _ (fun u x => by (repeat' split) <;> simp) _ _
  · exact State.foldl_keeps State.timers _ (fun u x => by (repeat' split) <;> simp) _ _
  · exact State.foldl_keeps State.net _ (fun u x => by (repeat' split) <;> simp) _ _
  · exact State.foldl_keeps State.outs _ (fun u x => by (repeat' split) <;> simp) _ _
  · exact State.foldl_keeps State.cy _ (fun u x => by (repeat' split) <;> simp) _ _
  · exact State.foldl_keeps State.dev _ (fun u x => by (repeat' split) <;> simp) _ _
  · exact State.foldl_keeps State.slots _ (fun u x => by (repeat' split) <;> simp) _ _
  · exact State.foldl_keeps State.parts _ (fun u x => by (repeat' split) <;> simp) _ _
  · exact State.foldl_keeps State.pls _ (fun u x => by (repeat' split) <;> simp) _ _
  · exact State.foldl_keeps State.hubs _ (fun u x => by (repeat' split) <;> simp) _ _
  · exact State.foldl_keeps State.arrays _ (fun u x => by (repeat' split) <;> simp) _ _
  · exact State.foldl_keeps State.xdies _ (fun u x => by (repeat' split) <;> simp) _ _
  · exact State.foldl_keeps State.mem _ (fun u x => by (repeat' split) <;> simp) _ _
  · exact State.foldl_keeps State.lines _ (fun u x => by (repeat' split) <;> simp) _ _
  · exact State.foldl_keeps State.epochs _ (fun u x => by (repeat' split) <;> simp) _ _
  · exact State.foldl_keeps State.ecc _ (fun u x => by (repeat' split) <;> simp) _ _
  · exact State.foldl_keeps (fun u => u.slot _) _ (fun u x => by (repeat' split) <;> simp) _ _
  · exact State.foldl_keeps (fun u => u.part _) _ (fun u x => by (repeat' split) <;> simp) _ _
  · exact State.foldl_keeps (fun u => u.pl _) _ (fun u x => by (repeat' split) <;> simp) _ _
  · exact State.foldl_keeps (fun u => u.hub _ _) _ (fun u x => by (repeat' split) <;> simp) _ _
  · exact State.foldl_keeps (fun u => u.arr _ _) _ (fun u x => by (repeat' split) <;> simp) _ _
  · exact State.foldl_keeps (fun u => u.xdie _) _ (fun u x => by (repeat' split) <;> simp) _ _

/-- `State.raiseHalt` changes nothing but `dies`. -/
@[simp] theorem State.raiseHalt_frame (s : State) (p mark : Nat) :
    (s.raiseHalt p mark).cur = s.cur ∧ (s.raiseHalt p mark).inbox = s.inbox ∧ (s.raiseHalt p mark).arg = s.arg ∧
    (s.raiseHalt p mark).agenda = s.agenda ∧ (s.raiseHalt p mark).timers = s.timers ∧ (s.raiseHalt p mark).net = s.net ∧
    (s.raiseHalt p mark).outs = s.outs ∧ (s.raiseHalt p mark).cy = s.cy ∧ (s.raiseHalt p mark).dev = s.dev ∧
    (s.raiseHalt p mark).slots = s.slots ∧ (s.raiseHalt p mark).parts = s.parts ∧ (s.raiseHalt p mark).pls = s.pls ∧
    (s.raiseHalt p mark).hubs = s.hubs ∧ (s.raiseHalt p mark).arrays = s.arrays ∧ (s.raiseHalt p mark).xdies = s.xdies ∧
    (s.raiseHalt p mark).mem = s.mem ∧ (s.raiseHalt p mark).lines = s.lines ∧ (s.raiseHalt p mark).epochs = s.epochs ∧
    (s.raiseHalt p mark).ecc = s.ecc ∧ (∀ q₁, (s.raiseHalt p mark).slot q₁ = s.slot q₁) ∧
    (∀ q₁, (s.raiseHalt p mark).part q₁ = s.part q₁) ∧ (∀ q₁, (s.raiseHalt p mark).pl q₁ = s.pl q₁) ∧
    (∀ q₁ q₂, (s.raiseHalt p mark).hub q₁ q₂ = s.hub q₁ q₂) ∧ (∀ q₁ q₂, (s.raiseHalt p mark).arr q₁ q₂ = s.arr q₁ q₂) ∧
    (∀ q₁, (s.raiseHalt p mark).xdie q₁ = s.xdie q₁) := by
  refine ⟨?_, ?_, ?_, ?_, ?_, ?_, ?_, ?_, ?_, ?_, ?_, ?_, ?_, ?_, ?_, ?_, ?_, ?_, ?_, fun _ => ?_, fun _ => ?_, fun _ => ?_, fun _ _ => ?_, fun _ _ => ?_, fun _ => ?_⟩ <;>
    (first | (simp [State.raiseHalt] <;> rfl; done) | (unfold State.raiseHalt; (repeat' split) <;> (first | rfl | (simp <;> rfl)); done) | (simp only [State.raiseHalt]; (repeat' split) <;> (first | rfl | (simp <;> rfl)); done))

/-- `State.countFault` changes nothing but `net`, `slots`. -/
@[simp] theorem State.countFault_frame (s : State) (r : FaultReport) :
    (s.countFault r).cur = s.cur ∧ (s.countFault r).inbox = s.inbox ∧ (s.countFault r).arg = s.arg ∧
    (s.countFault r).agenda = s.agenda ∧ (s.countFault r).timers = s.timers ∧ (s.countFault r).outs = s.outs ∧
    (s.countFault r).cy = s.cy ∧ (s.countFault r).dev = s.dev ∧ (s.countFault r).parts = s.parts ∧
    (s.countFault r).pls = s.pls ∧ (s.countFault r).dies = s.dies ∧ (s.countFault r).hubs = s.hubs ∧
    (s.countFault r).arrays = s.arrays ∧ (s.countFault r).xdies = s.xdies ∧ (s.countFault r).mem = s.mem ∧
    (s.countFault r).lines = s.lines ∧ (s.countFault r).epochs = s.epochs ∧ (s.countFault r).ecc = s.ecc ∧
    (∀ q₁, (s.countFault r).part q₁ = s.part q₁) ∧ (∀ q₁, (s.countFault r).pl q₁ = s.pl q₁) ∧
    (∀ q₁, (s.countFault r).die q₁ = s.die q₁) ∧ (∀ q₁ q₂, (s.countFault r).hub q₁ q₂ = s.hub q₁ q₂) ∧
    (∀ q₁ q₂, (s.countFault r).arr q₁ q₂ = s.arr q₁ q₂) ∧ (∀ q₁, (s.countFault r).xdie q₁ = s.xdie q₁) := by
  refine ⟨?_, ?_, ?_, ?_, ?_, ?_, ?_, ?_, ?_, ?_, ?_, ?_, ?_, ?_, ?_, ?_, ?_, ?_, fun _ => ?_, fun _ => ?_, fun _ => ?_, fun _ _ => ?_, fun _ _ => ?_, fun _ => ?_⟩ <;>
    (first | (simp [State.countFault] <;> rfl; done) | (unfold State.countFault; (repeat' split) <;> (first | rfl | (simp <;> rfl)); done) | (simp only [State.countFault]; (repeat' split) <;> (first | rfl | (simp <;> rfl)); done))

/-- `State.recordFault` changes nothing but `timers`, `free`, `net`, `netSeq`, `slots`. -/
@[simp] theorem State.recordFault_frame (s : State) (r : FaultReport) :
    (s.recordFault r).cur = s.cur ∧ (s.recordFault r).inbox = s.inbox ∧ (s.recordFault r).arg = s.arg ∧
    (s.recordFault r).agenda = s.agenda ∧ (s.recordFault r).outs = s.outs ∧ (s.recordFault r).cy = s.cy ∧
    (s.recordFault r).dev = s.dev ∧ (s.recordFault r).parts = s.parts ∧ (s.recordFault r).pls = s.pls ∧
    (s.recordFault r).dies = s.dies ∧ (s.recordFault r).hubs = s.hubs ∧ (s.recordFault r).arrays = s.arrays ∧
    (s.recordFault r).xdies = s.xdies ∧ (s.recordFault r).mem = s.mem ∧ (s.recordFault r).lines = s.lines ∧
    (s.recordFault r).epochs = s.epochs ∧ (s.recordFault r).ecc = s.ecc ∧ (∀ q₁, (s.recordFault r).part q₁ = s.part q₁) ∧
    (∀ q₁, (s.recordFault r).pl q₁ = s.pl q₁) ∧ (∀ q₁, (s.recordFault r).die q₁ = s.die q₁) ∧
    (∀ q₁ q₂, (s.recordFault r).hub q₁ q₂ = s.hub q₁ q₂) ∧ (∀ q₁ q₂, (s.recordFault r).arr q₁ q₂ = s.arr q₁ q₂) ∧
    (∀ q₁, (s.recordFault r).xdie q₁ = s.xdie q₁) := by
  refine ⟨?_, ?_, ?_, ?_, ?_, ?_, ?_, ?_, ?_, ?_, ?_, ?_, ?_, ?_, ?_, ?_, ?_, fun _ => ?_, fun _ => ?_, fun _ => ?_, fun _ _ => ?_, fun _ _ => ?_, fun _ => ?_⟩ <;>
    (first | (simp [State.recordFault] <;> rfl; done) | (unfold State.recordFault; (repeat' split) <;> (first | rfl | (simp <;> rfl)); done) | (simp only [State.recordFault]; (repeat' split) <;> (first | rfl | (simp <;> rfl)); done))

/-- `State.haltRoot` changes nothing but `timers`, `free`. -/
@[simp] theorem State.haltRoot_frame (s : State) (n hmark : Nat) :
    (s.haltRoot n hmark).cur = s.cur ∧ (s.haltRoot n hmark).inbox = s.inbox ∧ (s.haltRoot n hmark).arg = s.arg ∧
    (s.haltRoot n hmark).agenda = s.agenda ∧ (s.haltRoot n hmark).net = s.net ∧ (s.haltRoot n hmark).outs = s.outs ∧
    (s.haltRoot n hmark).cy = s.cy ∧ (s.haltRoot n hmark).dev = s.dev ∧ (s.haltRoot n hmark).slots = s.slots ∧
    (s.haltRoot n hmark).parts = s.parts ∧ (s.haltRoot n hmark).pls = s.pls ∧ (s.haltRoot n hmark).dies = s.dies ∧
    (s.haltRoot n hmark).hubs = s.hubs ∧ (s.haltRoot n hmark).arrays = s.arrays ∧ (s.haltRoot n hmark).xdies = s.xdies ∧
    (s.haltRoot n hmark).mem = s.mem ∧ (s.haltRoot n hmark).lines = s.lines ∧ (s.haltRoot n hmark).epochs = s.epochs ∧
    (s.haltRoot n hmark).ecc = s.ecc ∧ (∀ q₁, (s.haltRoot n hmark).slot q₁ = s.slot q₁) ∧
    (∀ q₁, (s.haltRoot n hmark).part q₁ = s.part q₁) ∧ (∀ q₁, (s.haltRoot n hmark).pl q₁ = s.pl q₁) ∧
    (∀ q₁, (s.haltRoot n hmark).die q₁ = s.die q₁) ∧ (∀ q₁ q₂, (s.haltRoot n hmark).hub q₁ q₂ = s.hub q₁ q₂) ∧
    (∀ q₁ q₂, (s.haltRoot n hmark).arr q₁ q₂ = s.arr q₁ q₂) ∧ (∀ q₁, (s.haltRoot n hmark).xdie q₁ = s.xdie q₁) :=
  ⟨(rfl), (rfl), (rfl), (rfl), (rfl), (rfl), (rfl), (rfl), (rfl), (rfl), (rfl), (rfl), (rfl), (rfl), (rfl), (rfl), (rfl), (rfl), (rfl), fun _ => (rfl), fun _ => (rfl), fun _ => (rfl), fun _ => (rfl), fun _ _ => (rfl), fun _ _ => (rfl), fun _ => (rfl)⟩

/-- `State.takeFaultAs` changes nothing but `agenda`, `timers`, `seq`, `free`, `net`, `netSeq`, `slots`, `dies`, `hubs`. -/
@[simp] theorem State.takeFaultAs_frame (s : State) (die hub : Nat) (f : FaultAt) (dests : List (Nat × Act)) (num : Option Nat) :
    (s.takeFaultAs die hub f dests num).cur = s.cur ∧ (s.takeFaultAs die hub f dests num).inbox = s.inbox ∧
    (s.takeFaultAs die hub f dests num).arg = s.arg ∧ (s.takeFaultAs die hub f dests num).outs = s.outs ∧
    (s.takeFaultAs die hub f dests num).cy = s.cy ∧ (s.takeFaultAs die hub f dests num).dev = s.dev ∧
    (s.takeFaultAs die hub f dests num).parts = s.parts ∧ (s.takeFaultAs die hub f dests num).pls = s.pls ∧
    (s.takeFaultAs die hub f dests num).arrays = s.arrays ∧ (s.takeFaultAs die hub f dests num).xdies = s.xdies ∧
    (s.takeFaultAs die hub f dests num).mem = s.mem ∧ (s.takeFaultAs die hub f dests num).lines = s.lines ∧
    (s.takeFaultAs die hub f dests num).epochs = s.epochs ∧ (s.takeFaultAs die hub f dests num).ecc = s.ecc ∧
    (∀ q₁, (s.takeFaultAs die hub f dests num).part q₁ = s.part q₁) ∧
    (∀ q₁, (s.takeFaultAs die hub f dests num).pl q₁ = s.pl q₁) ∧
    (∀ q₁ q₂, (s.takeFaultAs die hub f dests num).arr q₁ q₂ = s.arr q₁ q₂) ∧
    (∀ q₁, (s.takeFaultAs die hub f dests num).xdie q₁ = s.xdie q₁) := by
  refine ⟨?_, ?_, ?_, ?_, ?_, ?_, ?_, ?_, ?_, ?_, ?_, ?_, ?_, ?_, fun _ => ?_, fun _ => ?_, fun _ _ => ?_, fun _ => ?_⟩ <;>
    (first | (simp [State.takeFaultAs] <;> rfl; done) | (unfold State.takeFaultAs; (repeat' split) <;> (first | rfl | (simp <;> rfl)); done) | (simp only [State.takeFaultAs]; (repeat' split) <;> (first | rfl | (simp <;> rfl)); done))

/-- `State.takeFault` changes nothing but `agenda`, `timers`, `seq`, `free`, `net`, `netSeq`, `slots`, `dies`, `hubs`. -/
@[simp] theorem State.takeFault_frame (s : State) (die hub : Nat) (f : FaultAt) (dests : List (Nat × Act)) :
    (s.takeFault die hub f dests).cur = s.cur ∧ (s.takeFault die hub f dests).inbox = s.inbox ∧
    (s.takeFault die hub f dests).arg = s.arg ∧ (s.takeFault die hub f dests).outs = s.outs ∧
    (s.takeFault die hub f dests).cy = s.cy ∧ (s.takeFault die hub f dests).dev = s.dev ∧
    (s.takeFault die hub f dests).parts = s.parts ∧ (s.takeFault die hub f dests).pls = s.pls ∧
    (s.takeFault die hub f dests).arrays = s.arrays ∧ (s.takeFault die hub f dests).xdies = s.xdies ∧
    (s.takeFault die hub f dests).mem = s.mem ∧ (s.takeFault die hub f dests).lines = s.lines ∧
    (s.takeFault die hub f dests).epochs = s.epochs ∧ (s.takeFault die hub f dests).ecc = s.ecc ∧
    (∀ q₁, (s.takeFault die hub f dests).part q₁ = s.part q₁) ∧ (∀ q₁, (s.takeFault die hub f dests).pl q₁ = s.pl q₁) ∧
    (∀ q₁ q₂, (s.takeFault die hub f dests).arr q₁ q₂ = s.arr q₁ q₂) ∧ (∀ q₁, (s.takeFault die hub f dests).xdie q₁ = s.xdie q₁) := by
  refine ⟨?_, ?_, ?_, ?_, ?_, ?_, ?_, ?_, ?_, ?_, ?_, ?_, ?_, ?_, fun _ => ?_, fun _ => ?_, fun _ _ => ?_, fun _ => ?_⟩ <;>
    (first | (simp [State.takeFault] <;> rfl; done) | (unfold State.takeFault; (repeat' split) <;> (first | rfl | (simp <;> rfl)); done) | (simp only [State.takeFault]; (repeat' split) <;> (first | rfl | (simp <;> rfl)); done))

/-- `State.coreFaultAs` changes nothing but `agenda`, `timers`, `seq`, `free`, `net`, `netSeq`, `slots`, `dies`, `hubs`. -/
@[simp] theorem State.coreFaultAs_frame (s : State) (kind sub eng detail : Nat) (dests : List (Nat × Act)) :
    (s.coreFaultAs kind sub eng detail dests).cur = s.cur ∧ (s.coreFaultAs kind sub eng detail dests).inbox = s.inbox ∧
    (s.coreFaultAs kind sub eng detail dests).arg = s.arg ∧ (s.coreFaultAs kind sub eng detail dests).outs = s.outs ∧
    (s.coreFaultAs kind sub eng detail dests).cy = s.cy ∧ (s.coreFaultAs kind sub eng detail dests).dev = s.dev ∧
    (s.coreFaultAs kind sub eng detail dests).parts = s.parts ∧ (s.coreFaultAs kind sub eng detail dests).pls = s.pls ∧
    (s.coreFaultAs kind sub eng detail dests).arrays = s.arrays ∧ (s.coreFaultAs kind sub eng detail dests).xdies = s.xdies ∧
    (s.coreFaultAs kind sub eng detail dests).mem = s.mem ∧ (s.coreFaultAs kind sub eng detail dests).lines = s.lines ∧
    (s.coreFaultAs kind sub eng detail dests).epochs = s.epochs ∧ (s.coreFaultAs kind sub eng detail dests).ecc = s.ecc ∧
    (∀ q₁, (s.coreFaultAs kind sub eng detail dests).part q₁ = s.part q₁) ∧
    (∀ q₁, (s.coreFaultAs kind sub eng detail dests).pl q₁ = s.pl q₁) ∧
    (∀ q₁ q₂, (s.coreFaultAs kind sub eng detail dests).arr q₁ q₂ = s.arr q₁ q₂) ∧
    (∀ q₁, (s.coreFaultAs kind sub eng detail dests).xdie q₁ = s.xdie q₁) := by
  refine ⟨?_, ?_, ?_, ?_, ?_, ?_, ?_, ?_, ?_, ?_, ?_, ?_, ?_, ?_, fun _ => ?_, fun _ => ?_, fun _ _ => ?_, fun _ => ?_⟩ <;>
    (first | (simp [State.coreFaultAs] <;> rfl; done) | (unfold State.coreFaultAs; (repeat' split) <;> (first | rfl | (simp <;> rfl)); done) | (simp only [State.coreFaultAs]; (repeat' split) <;> (first | rfl | (simp <;> rfl)); done))

/-- `State.coreFault` changes nothing but `agenda`, `timers`, `seq`, `free`, `net`, `netSeq`, `slots`, `dies`, `hubs`. -/
@[simp] theorem State.coreFault_frame (s : State) (kind sub : Nat) (dests : List (Nat × Act)) :
    (s.coreFault kind sub dests).cur = s.cur ∧ (s.coreFault kind sub dests).inbox = s.inbox ∧
    (s.coreFault kind sub dests).arg = s.arg ∧ (s.coreFault kind sub dests).outs = s.outs ∧
    (s.coreFault kind sub dests).cy = s.cy ∧ (s.coreFault kind sub dests).dev = s.dev ∧
    (s.coreFault kind sub dests).parts = s.parts ∧ (s.coreFault kind sub dests).pls = s.pls ∧
    (s.coreFault kind sub dests).arrays = s.arrays ∧ (s.coreFault kind sub dests).xdies = s.xdies ∧
    (s.coreFault kind sub dests).mem = s.mem ∧ (s.coreFault kind sub dests).lines = s.lines ∧
    (s.coreFault kind sub dests).epochs = s.epochs ∧ (s.coreFault kind sub dests).ecc = s.ecc ∧
    (∀ q₁, (s.coreFault kind sub dests).part q₁ = s.part q₁) ∧ (∀ q₁, (s.coreFault kind sub dests).pl q₁ = s.pl q₁) ∧
    (∀ q₁ q₂, (s.coreFault kind sub dests).arr q₁ q₂ = s.arr q₁ q₂) ∧ (∀ q₁, (s.coreFault kind sub dests).xdie q₁ = s.xdie q₁) := by
  refine ⟨?_, ?_, ?_, ?_, ?_, ?_, ?_, ?_, ?_, ?_, ?_, ?_, ?_, ?_, fun _ => ?_, fun _ => ?_, fun _ _ => ?_, fun _ => ?_⟩ <;>
    (first | (simp [State.coreFault] <;> rfl; done) | (unfold State.coreFault; (repeat' split) <;> (first | rfl | (simp <;> rfl)); done) | (simp only [State.coreFault]; (repeat' split) <;> (first | rfl | (simp <;> rfl)); done))

/-- `State.finishOp` changes nothing but `hubs`. -/
@[simp] theorem State.finishOp_frame (s : State) (die hub q n : Nat) :
    (s.finishOp die hub q n).cur = s.cur ∧ (s.finishOp die hub q n).inbox = s.inbox ∧ (s.finishOp die hub q n).arg = s.arg ∧
    (s.finishOp die hub q n).agenda = s.agenda ∧ (s.finishOp die hub q n).timers = s.timers ∧
    (s.finishOp die hub q n).net = s.net ∧ (s.finishOp die hub q n).outs = s.outs ∧ (s.finishOp die hub q n).cy = s.cy ∧
    (s.finishOp die hub q n).dev = s.dev ∧ (s.finishOp die hub q n).slots = s.slots ∧
    (s.finishOp die hub q n).parts = s.parts ∧ (s.finishOp die hub q n).pls = s.pls ∧ (s.finishOp die hub q n).dies = s.dies ∧
    (s.finishOp die hub q n).arrays = s.arrays ∧ (s.finishOp die hub q n).xdies = s.xdies ∧
    (s.finishOp die hub q n).mem = s.mem ∧ (s.finishOp die hub q n).lines = s.lines ∧
    (s.finishOp die hub q n).epochs = s.epochs ∧ (s.finishOp die hub q n).ecc = s.ecc ∧
    (∀ q₁, (s.finishOp die hub q n).slot q₁ = s.slot q₁) ∧ (∀ q₁, (s.finishOp die hub q n).part q₁ = s.part q₁) ∧
    (∀ q₁, (s.finishOp die hub q n).pl q₁ = s.pl q₁) ∧ (∀ q₁, (s.finishOp die hub q n).die q₁ = s.die q₁) ∧
    (∀ q₁ q₂, (s.finishOp die hub q n).arr q₁ q₂ = s.arr q₁ q₂) ∧ (∀ q₁, (s.finishOp die hub q n).xdie q₁ = s.xdie q₁) :=
  ⟨(rfl), (rfl), (rfl), (rfl), (rfl), (rfl), (rfl), (rfl), (rfl), (rfl), (rfl), (rfl), (rfl), (rfl), (rfl), (rfl), (rfl), (rfl), (rfl), fun _ => (rfl), fun _ => (rfl), fun _ => (rfl), fun _ => (rfl), fun _ _ => (rfl), fun _ => (rfl)⟩

/-- `State.retire` changes nothing but `hubs`. -/
@[simp] theorem State.retire_frame (s : State) (w c : Nat) :
    (s.retire w c).cur = s.cur ∧ (s.retire w c).inbox = s.inbox ∧ (s.retire w c).arg = s.arg ∧
    (s.retire w c).agenda = s.agenda ∧ (s.retire w c).timers = s.timers ∧ (s.retire w c).net = s.net ∧
    (s.retire w c).outs = s.outs ∧ (s.retire w c).cy = s.cy ∧ (s.retire w c).dev = s.dev ∧ (s.retire w c).slots = s.slots ∧
    (s.retire w c).parts = s.parts ∧ (s.retire w c).pls = s.pls ∧ (s.retire w c).dies = s.dies ∧
    (s.retire w c).arrays = s.arrays ∧ (s.retire w c).xdies = s.xdies ∧ (s.retire w c).mem = s.mem ∧
    (s.retire w c).lines = s.lines ∧ (s.retire w c).epochs = s.epochs ∧ (s.retire w c).ecc = s.ecc ∧
    (∀ q₁, (s.retire w c).slot q₁ = s.slot q₁) ∧ (∀ q₁, (s.retire w c).part q₁ = s.part q₁) ∧
    (∀ q₁, (s.retire w c).pl q₁ = s.pl q₁) ∧ (∀ q₁, (s.retire w c).die q₁ = s.die q₁) ∧
    (∀ q₁ q₂, (s.retire w c).arr q₁ q₂ = s.arr q₁ q₂) ∧ (∀ q₁, (s.retire w c).xdie q₁ = s.xdie q₁) :=
  ⟨(rfl), (rfl), (rfl), (rfl), (rfl), (rfl), (rfl), (rfl), (rfl), (rfl), (rfl), (rfl), (rfl), (rfl), (rfl), (rfl), (rfl), (rfl), (rfl), fun _ => (rfl), fun _ => (rfl), fun _ => (rfl), fun _ => (rfl), fun _ _ => (rfl), fun _ => (rfl)⟩

/-- `State.issueOp` changes nothing but `hubs`. -/
@[simp] theorem State.issueOp_frame (s : State) :
    (s.issueOp).cur = s.cur ∧ (s.issueOp).inbox = s.inbox ∧ (s.issueOp).arg = s.arg ∧ (s.issueOp).agenda = s.agenda ∧
    (s.issueOp).timers = s.timers ∧ (s.issueOp).net = s.net ∧ (s.issueOp).outs = s.outs ∧ (s.issueOp).cy = s.cy ∧
    (s.issueOp).dev = s.dev ∧ (s.issueOp).slots = s.slots ∧ (s.issueOp).parts = s.parts ∧ (s.issueOp).pls = s.pls ∧
    (s.issueOp).dies = s.dies ∧ (s.issueOp).arrays = s.arrays ∧ (s.issueOp).xdies = s.xdies ∧ (s.issueOp).mem = s.mem ∧
    (s.issueOp).lines = s.lines ∧ (s.issueOp).epochs = s.epochs ∧ (s.issueOp).ecc = s.ecc ∧
    (∀ q₁, (s.issueOp).slot q₁ = s.slot q₁) ∧ (∀ q₁, (s.issueOp).part q₁ = s.part q₁) ∧ (∀ q₁, (s.issueOp).pl q₁ = s.pl q₁) ∧
    (∀ q₁, (s.issueOp).die q₁ = s.die q₁) ∧ (∀ q₁ q₂, (s.issueOp).arr q₁ q₂ = s.arr q₁ q₂) ∧
    (∀ q₁, (s.issueOp).xdie q₁ = s.xdie q₁) :=
  ⟨(rfl), (rfl), (rfl), (rfl), (rfl), (rfl), (rfl), (rfl), (rfl), (rfl), (rfl), (rfl), (rfl), (rfl), (rfl), (rfl), (rfl), (rfl), (rfl), fun _ => (rfl), fun _ => (rfl), fun _ => (rfl), fun _ => (rfl), fun _ _ => (rfl), fun _ => (rfl)⟩

/-- `State.inOrder` changes nothing but `timers`, `free`, `chan`. -/
@[simp] theorem State.inOrder_frame (s : State) (ch : Nat) (i : Instr) (a : Arg) :
    (s.inOrder ch i a).cur = s.cur ∧ (s.inOrder ch i a).inbox = s.inbox ∧ (s.inOrder ch i a).arg = s.arg ∧
    (s.inOrder ch i a).agenda = s.agenda ∧ (s.inOrder ch i a).net = s.net ∧ (s.inOrder ch i a).outs = s.outs ∧
    (s.inOrder ch i a).cy = s.cy ∧ (s.inOrder ch i a).dev = s.dev ∧ (s.inOrder ch i a).slots = s.slots ∧
    (s.inOrder ch i a).parts = s.parts ∧ (s.inOrder ch i a).pls = s.pls ∧ (s.inOrder ch i a).dies = s.dies ∧
    (s.inOrder ch i a).hubs = s.hubs ∧ (s.inOrder ch i a).arrays = s.arrays ∧ (s.inOrder ch i a).xdies = s.xdies ∧
    (s.inOrder ch i a).mem = s.mem ∧ (s.inOrder ch i a).lines = s.lines ∧ (s.inOrder ch i a).epochs = s.epochs ∧
    (s.inOrder ch i a).ecc = s.ecc ∧ (∀ q₁, (s.inOrder ch i a).slot q₁ = s.slot q₁) ∧
    (∀ q₁, (s.inOrder ch i a).part q₁ = s.part q₁) ∧ (∀ q₁, (s.inOrder ch i a).pl q₁ = s.pl q₁) ∧
    (∀ q₁, (s.inOrder ch i a).die q₁ = s.die q₁) ∧ (∀ q₁ q₂, (s.inOrder ch i a).hub q₁ q₂ = s.hub q₁ q₂) ∧
    (∀ q₁ q₂, (s.inOrder ch i a).arr q₁ q₂ = s.arr q₁ q₂) ∧ (∀ q₁, (s.inOrder ch i a).xdie q₁ = s.xdie q₁) :=
  ⟨(rfl), (rfl), (rfl), (rfl), (rfl), (rfl), (rfl), (rfl), (rfl), (rfl), (rfl), (rfl), (rfl), (rfl), (rfl), (rfl), (rfl), (rfl), (rfl), fun _ => (rfl), fun _ => (rfl), fun _ => (rfl), fun _ => (rfl), fun _ _ => (rfl), fun _ _ => (rfl), fun _ => (rfl)⟩

/-- `State.setModule` changes nothing but `dies`. -/
@[simp] theorem State.setModule_frame (s : State) (p m : Nat) (k : Module) :
    (s.setModule p m k).cur = s.cur ∧ (s.setModule p m k).inbox = s.inbox ∧ (s.setModule p m k).arg = s.arg ∧
    (s.setModule p m k).agenda = s.agenda ∧ (s.setModule p m k).timers = s.timers ∧ (s.setModule p m k).net = s.net ∧
    (s.setModule p m k).outs = s.outs ∧ (s.setModule p m k).cy = s.cy ∧ (s.setModule p m k).dev = s.dev ∧
    (s.setModule p m k).slots = s.slots ∧ (s.setModule p m k).parts = s.parts ∧ (s.setModule p m k).pls = s.pls ∧
    (s.setModule p m k).hubs = s.hubs ∧ (s.setModule p m k).arrays = s.arrays ∧ (s.setModule p m k).xdies = s.xdies ∧
    (s.setModule p m k).mem = s.mem ∧ (s.setModule p m k).lines = s.lines ∧ (s.setModule p m k).epochs = s.epochs ∧
    (s.setModule p m k).ecc = s.ecc ∧ (∀ q₁, (s.setModule p m k).slot q₁ = s.slot q₁) ∧
    (∀ q₁, (s.setModule p m k).part q₁ = s.part q₁) ∧ (∀ q₁, (s.setModule p m k).pl q₁ = s.pl q₁) ∧
    (∀ q₁ q₂, (s.setModule p m k).hub q₁ q₂ = s.hub q₁ q₂) ∧ (∀ q₁ q₂, (s.setModule p m k).arr q₁ q₂ = s.arr q₁ q₂) ∧
    (∀ q₁, (s.setModule p m k).xdie q₁ = s.xdie q₁) :=
  ⟨(rfl), (rfl), (rfl), (rfl), (rfl), (rfl), (rfl), (rfl), (rfl), (rfl), (rfl), (rfl), (rfl), (rfl), (rfl), (rfl), (rfl), (rfl), (rfl), fun _ => (rfl), fun _ => (rfl), fun _ => (rfl), fun _ _ => (rfl), fun _ _ => (rfl), fun _ => (rfl)⟩

/-- `State.startTimer` changes nothing but `timers`, `dies`. -/
@[simp] theorem State.startTimer_frame (s : State) (p m : Nat) :
    (s.startTimer p m).cur = s.cur ∧ (s.startTimer p m).inbox = s.inbox ∧ (s.startTimer p m).arg = s.arg ∧
    (s.startTimer p m).agenda = s.agenda ∧ (s.startTimer p m).net = s.net ∧ (s.startTimer p m).outs = s.outs ∧
    (s.startTimer p m).cy = s.cy ∧ (s.startTimer p m).dev = s.dev ∧ (s.startTimer p m).slots = s.slots ∧
    (s.startTimer p m).parts = s.parts ∧ (s.startTimer p m).pls = s.pls ∧ (s.startTimer p m).hubs = s.hubs ∧
    (s.startTimer p m).arrays = s.arrays ∧ (s.startTimer p m).xdies = s.xdies ∧ (s.startTimer p m).mem = s.mem ∧
    (s.startTimer p m).lines = s.lines ∧ (s.startTimer p m).epochs = s.epochs ∧ (s.startTimer p m).ecc = s.ecc ∧
    (∀ q₁, (s.startTimer p m).slot q₁ = s.slot q₁) ∧ (∀ q₁, (s.startTimer p m).part q₁ = s.part q₁) ∧
    (∀ q₁, (s.startTimer p m).pl q₁ = s.pl q₁) ∧ (∀ q₁ q₂, (s.startTimer p m).hub q₁ q₂ = s.hub q₁ q₂) ∧
    (∀ q₁ q₂, (s.startTimer p m).arr q₁ q₂ = s.arr q₁ q₂) ∧ (∀ q₁, (s.startTimer p m).xdie q₁ = s.xdie q₁) := by
  refine ⟨?_, ?_, ?_, ?_, ?_, ?_, ?_, ?_, ?_, ?_, ?_, ?_, ?_, ?_, ?_, ?_, ?_, ?_, fun _ => ?_, fun _ => ?_, fun _ => ?_, fun _ _ => ?_, fun _ _ => ?_, fun _ => ?_⟩ <;>
    (first | (simp [State.startTimer] <;> rfl; done) | (unfold State.startTimer; (repeat' split) <;> (first | rfl | (simp <;> rfl)); done) | (simp only [State.startTimer]; (repeat' split) <;> (first | rfl | (simp <;> rfl)); done))

/-- `State.beatOut` changes nothing but `timers`, `free`, `chan`. -/
@[simp] theorem State.beatOut_frame (s : State) (p m : Nat) (b : OutBeat) :
    (s.beatOut p m b).cur = s.cur ∧ (s.beatOut p m b).inbox = s.inbox ∧ (s.beatOut p m b).arg = s.arg ∧
    (s.beatOut p m b).agenda = s.agenda ∧ (s.beatOut p m b).net = s.net ∧ (s.beatOut p m b).outs = s.outs ∧
    (s.beatOut p m b).cy = s.cy ∧ (s.beatOut p m b).dev = s.dev ∧ (s.beatOut p m b).slots = s.slots ∧
    (s.beatOut p m b).parts = s.parts ∧ (s.beatOut p m b).pls = s.pls ∧ (s.beatOut p m b).dies = s.dies ∧
    (s.beatOut p m b).hubs = s.hubs ∧ (s.beatOut p m b).arrays = s.arrays ∧ (s.beatOut p m b).xdies = s.xdies ∧
    (s.beatOut p m b).mem = s.mem ∧ (s.beatOut p m b).lines = s.lines ∧ (s.beatOut p m b).epochs = s.epochs ∧
    (s.beatOut p m b).ecc = s.ecc ∧ (∀ q₁, (s.beatOut p m b).slot q₁ = s.slot q₁) ∧
    (∀ q₁, (s.beatOut p m b).part q₁ = s.part q₁) ∧ (∀ q₁, (s.beatOut p m b).pl q₁ = s.pl q₁) ∧
    (∀ q₁, (s.beatOut p m b).die q₁ = s.die q₁) ∧ (∀ q₁ q₂, (s.beatOut p m b).hub q₁ q₂ = s.hub q₁ q₂) ∧
    (∀ q₁ q₂, (s.beatOut p m b).arr q₁ q₂ = s.arr q₁ q₂) ∧ (∀ q₁, (s.beatOut p m b).xdie q₁ = s.xdie q₁) := by
  refine ⟨?_, ?_, ?_, ?_, ?_, ?_, ?_, ?_, ?_, ?_, ?_, ?_, ?_, ?_, ?_, ?_, ?_, ?_, ?_, fun _ => ?_, fun _ => ?_, fun _ => ?_, fun _ => ?_, fun _ _ => ?_, fun _ _ => ?_, fun _ => ?_⟩ <;>
    (first | (simp [State.beatOut] <;> rfl; done) | (unfold State.beatOut; (repeat' split) <;> (first | rfl | (simp <;> rfl)); done) | (simp only [State.beatOut]; (repeat' split) <;> (first | rfl | (simp <;> rfl)); done))

/-- `State.sendOn` changes nothing but `timers`, `dies`. -/
@[simp] theorem State.sendOn_frame (s : State) (p m id : Nat) :
    (s.sendOn p m id).cur = s.cur ∧ (s.sendOn p m id).inbox = s.inbox ∧ (s.sendOn p m id).arg = s.arg ∧
    (s.sendOn p m id).agenda = s.agenda ∧ (s.sendOn p m id).net = s.net ∧ (s.sendOn p m id).outs = s.outs ∧
    (s.sendOn p m id).cy = s.cy ∧ (s.sendOn p m id).dev = s.dev ∧ (s.sendOn p m id).slots = s.slots ∧
    (s.sendOn p m id).parts = s.parts ∧ (s.sendOn p m id).pls = s.pls ∧ (s.sendOn p m id).hubs = s.hubs ∧
    (s.sendOn p m id).arrays = s.arrays ∧ (s.sendOn p m id).xdies = s.xdies ∧ (s.sendOn p m id).mem = s.mem ∧
    (s.sendOn p m id).lines = s.lines ∧ (s.sendOn p m id).epochs = s.epochs ∧ (s.sendOn p m id).ecc = s.ecc ∧
    (∀ q₁, (s.sendOn p m id).slot q₁ = s.slot q₁) ∧ (∀ q₁, (s.sendOn p m id).part q₁ = s.part q₁) ∧
    (∀ q₁, (s.sendOn p m id).pl q₁ = s.pl q₁) ∧ (∀ q₁ q₂, (s.sendOn p m id).hub q₁ q₂ = s.hub q₁ q₂) ∧
    (∀ q₁ q₂, (s.sendOn p m id).arr q₁ q₂ = s.arr q₁ q₂) ∧ (∀ q₁, (s.sendOn p m id).xdie q₁ = s.xdie q₁) := by
  refine ⟨?_, ?_, ?_, ?_, ?_, ?_, ?_, ?_, ?_, ?_, ?_, ?_, ?_, ?_, ?_, ?_, ?_, ?_, fun _ => ?_, fun _ => ?_, fun _ => ?_, fun _ _ => ?_, fun _ _ => ?_, fun _ => ?_⟩ <;>
    (first | (simp [State.sendOn] <;> rfl; done) | (unfold State.sendOn; (repeat' split) <;> (first | rfl | (simp <;> rfl)); done) | (simp only [State.sendOn]; (repeat' split) <;> (first | rfl | (simp <;> rfl)); done))

/-- `State.forward` changes nothing but `timers`, `free`, `net`, `chan`, `dies`. -/
@[simp] theorem State.forward_frame (s : State) (at_ id : Nat) :
    (s.forward at_ id).cur = s.cur ∧ (s.forward at_ id).inbox = s.inbox ∧ (s.forward at_ id).arg = s.arg ∧
    (s.forward at_ id).agenda = s.agenda ∧ (s.forward at_ id).outs = s.outs ∧ (s.forward at_ id).cy = s.cy ∧
    (s.forward at_ id).dev = s.dev ∧ (s.forward at_ id).slots = s.slots ∧ (s.forward at_ id).parts = s.parts ∧
    (s.forward at_ id).pls = s.pls ∧ (s.forward at_ id).hubs = s.hubs ∧ (s.forward at_ id).arrays = s.arrays ∧
    (s.forward at_ id).xdies = s.xdies ∧ (s.forward at_ id).mem = s.mem ∧ (s.forward at_ id).lines = s.lines ∧
    (s.forward at_ id).epochs = s.epochs ∧ (s.forward at_ id).ecc = s.ecc ∧ (∀ q₁, (s.forward at_ id).slot q₁ = s.slot q₁) ∧
    (∀ q₁, (s.forward at_ id).part q₁ = s.part q₁) ∧ (∀ q₁, (s.forward at_ id).pl q₁ = s.pl q₁) ∧
    (∀ q₁ q₂, (s.forward at_ id).hub q₁ q₂ = s.hub q₁ q₂) ∧ (∀ q₁ q₂, (s.forward at_ id).arr q₁ q₂ = s.arr q₁ q₂) ∧
    (∀ q₁, (s.forward at_ id).xdie q₁ = s.xdie q₁) := by
  refine ⟨?_, ?_, ?_, ?_, ?_, ?_, ?_, ?_, ?_, ?_, ?_, ?_, ?_, ?_, ?_, ?_, ?_, fun _ => ?_, fun _ => ?_, fun _ => ?_, fun _ _ => ?_, fun _ _ => ?_, fun _ => ?_⟩ <;>
    (first | (simp [State.forward] <;> rfl; done) | (unfold State.forward; (repeat' split) <;> (first | rfl | (simp <;> rfl)); done) | (simp only [State.forward]; (repeat' split) <;> (first | rfl | (simp <;> rfl)); done))

/-- `State.launch` changes nothing but `timers`, `free`, `net`, `chan`, `dies`. -/
@[simp] theorem State.launch_frame (s : State) (from_ id : Nat) (p : Pkt) :
    (s.launch from_ id p).cur = s.cur ∧ (s.launch from_ id p).inbox = s.inbox ∧ (s.launch from_ id p).arg = s.arg ∧
    (s.launch from_ id p).agenda = s.agenda ∧ (s.launch from_ id p).outs = s.outs ∧ (s.launch from_ id p).cy = s.cy ∧
    (s.launch from_ id p).dev = s.dev ∧ (s.launch from_ id p).slots = s.slots ∧ (s.launch from_ id p).parts = s.parts ∧
    (s.launch from_ id p).pls = s.pls ∧ (s.launch from_ id p).hubs = s.hubs ∧ (s.launch from_ id p).arrays = s.arrays ∧
    (s.launch from_ id p).xdies = s.xdies ∧ (s.launch from_ id p).mem = s.mem ∧ (s.launch from_ id p).lines = s.lines ∧
    (s.launch from_ id p).epochs = s.epochs ∧ (s.launch from_ id p).ecc = s.ecc ∧
    (∀ q₁, (s.launch from_ id p).slot q₁ = s.slot q₁) ∧ (∀ q₁, (s.launch from_ id p).part q₁ = s.part q₁) ∧
    (∀ q₁, (s.launch from_ id p).pl q₁ = s.pl q₁) ∧ (∀ q₁ q₂, (s.launch from_ id p).hub q₁ q₂ = s.hub q₁ q₂) ∧
    (∀ q₁ q₂, (s.launch from_ id p).arr q₁ q₂ = s.arr q₁ q₂) ∧ (∀ q₁, (s.launch from_ id p).xdie q₁ = s.xdie q₁) := by
  refine ⟨?_, ?_, ?_, ?_, ?_, ?_, ?_, ?_, ?_, ?_, ?_, ?_, ?_, ?_, ?_, ?_, ?_, fun _ => ?_, fun _ => ?_, fun _ => ?_, fun _ _ => ?_, fun _ _ => ?_, fun _ => ?_⟩ <;>
    (first | (simp [State.launch] <;> rfl; done) | (unfold State.launch; (repeat' split) <;> (first | rfl | (simp <;> rfl)); done) | (simp only [State.launch]; (repeat' split) <;> (first | rfl | (simp <;> rfl)); done))

/-- `State.send` changes nothing but `timers`, `free`, `net`, `netSeq`, `chan`, `dies`. -/
@[simp] theorem State.send_frame (s : State) (p : Pkt) :
    (s.send p).cur = s.cur ∧ (s.send p).inbox = s.inbox ∧ (s.send p).arg = s.arg ∧ (s.send p).agenda = s.agenda ∧
    (s.send p).outs = s.outs ∧ (s.send p).cy = s.cy ∧ (s.send p).dev = s.dev ∧ (s.send p).slots = s.slots ∧
    (s.send p).parts = s.parts ∧ (s.send p).pls = s.pls ∧ (s.send p).hubs = s.hubs ∧ (s.send p).arrays = s.arrays ∧
    (s.send p).xdies = s.xdies ∧ (s.send p).mem = s.mem ∧ (s.send p).lines = s.lines ∧ (s.send p).epochs = s.epochs ∧
    (s.send p).ecc = s.ecc ∧ (∀ q₁, (s.send p).slot q₁ = s.slot q₁) ∧ (∀ q₁, (s.send p).part q₁ = s.part q₁) ∧
    (∀ q₁, (s.send p).pl q₁ = s.pl q₁) ∧ (∀ q₁ q₂, (s.send p).hub q₁ q₂ = s.hub q₁ q₂) ∧
    (∀ q₁ q₂, (s.send p).arr q₁ q₂ = s.arr q₁ q₂) ∧ (∀ q₁, (s.send p).xdie q₁ = s.xdie q₁) := by
  refine ⟨?_, ?_, ?_, ?_, ?_, ?_, ?_, ?_, ?_, ?_, ?_, ?_, ?_, ?_, ?_, ?_, ?_, fun _ => ?_, fun _ => ?_, fun _ => ?_, fun _ _ => ?_, fun _ _ => ?_, fun _ => ?_⟩ <;>
    (first | (simp [State.send] <;> rfl; done) | (unfold State.send; (repeat' split) <;> (first | rfl | (simp <;> rfl)); done) | (simp only [State.send]; (repeat' split) <;> (first | rfl | (simp <;> rfl)); done))

/-- `State.sendQueued` changes nothing but `timers`, `free`, `net`, `netSeq`, `chan`, `dies`, `hubs`. -/
@[simp] theorem State.sendQueued_frame (s : State) (p : Pkt) (load store : Bool) :
    (s.sendQueued p load store).cur = s.cur ∧ (s.sendQueued p load store).inbox = s.inbox ∧
    (s.sendQueued p load store).arg = s.arg ∧ (s.sendQueued p load store).agenda = s.agenda ∧
    (s.sendQueued p load store).outs = s.outs ∧ (s.sendQueued p load store).cy = s.cy ∧
    (s.sendQueued p load store).dev = s.dev ∧ (s.sendQueued p load store).slots = s.slots ∧
    (s.sendQueued p load store).parts = s.parts ∧ (s.sendQueued p load store).pls = s.pls ∧
    (s.sendQueued p load store).arrays = s.arrays ∧ (s.sendQueued p load store).xdies = s.xdies ∧
    (s.sendQueued p load store).mem = s.mem ∧ (s.sendQueued p load store).lines = s.lines ∧
    (s.sendQueued p load store).epochs = s.epochs ∧ (s.sendQueued p load store).ecc = s.ecc ∧
    (∀ q₁, (s.sendQueued p load store).slot q₁ = s.slot q₁) ∧ (∀ q₁, (s.sendQueued p load store).part q₁ = s.part q₁) ∧
    (∀ q₁, (s.sendQueued p load store).pl q₁ = s.pl q₁) ∧ (∀ q₁ q₂, (s.sendQueued p load store).arr q₁ q₂ = s.arr q₁ q₂) ∧
    (∀ q₁, (s.sendQueued p load store).xdie q₁ = s.xdie q₁) := by
  refine ⟨?_, ?_, ?_, ?_, ?_, ?_, ?_, ?_, ?_, ?_, ?_, ?_, ?_, ?_, ?_, ?_, fun _ => ?_, fun _ => ?_, fun _ => ?_, fun _ _ => ?_, fun _ => ?_⟩ <;>
    (first | (simp [State.sendQueued] <;> rfl; done) | (unfold State.sendQueued; (repeat' split) <;> (first | rfl | (simp <;> rfl)); done) | (simp only [State.sendQueued]; (repeat' split) <;> (first | rfl | (simp <;> rfl)); done))

/-- `State.reply` changes nothing but `timers`, `free`, `net`, `chan`, `dies`. -/
@[simp] theorem State.reply_frame (s : State) (id : Nat) (p : Pkt) :
    (s.reply id p).cur = s.cur ∧ (s.reply id p).inbox = s.inbox ∧ (s.reply id p).arg = s.arg ∧
    (s.reply id p).agenda = s.agenda ∧ (s.reply id p).outs = s.outs ∧ (s.reply id p).cy = s.cy ∧ (s.reply id p).dev = s.dev ∧
    (s.reply id p).slots = s.slots ∧ (s.reply id p).parts = s.parts ∧ (s.reply id p).pls = s.pls ∧
    (s.reply id p).hubs = s.hubs ∧ (s.reply id p).arrays = s.arrays ∧ (s.reply id p).xdies = s.xdies ∧
    (s.reply id p).mem = s.mem ∧ (s.reply id p).lines = s.lines ∧ (s.reply id p).epochs = s.epochs ∧
    (s.reply id p).ecc = s.ecc ∧ (∀ q₁, (s.reply id p).slot q₁ = s.slot q₁) ∧ (∀ q₁, (s.reply id p).part q₁ = s.part q₁) ∧
    (∀ q₁, (s.reply id p).pl q₁ = s.pl q₁) ∧ (∀ q₁ q₂, (s.reply id p).hub q₁ q₂ = s.hub q₁ q₂) ∧
    (∀ q₁ q₂, (s.reply id p).arr q₁ q₂ = s.arr q₁ q₂) ∧ (∀ q₁, (s.reply id p).xdie q₁ = s.xdie q₁) := by
  refine ⟨?_, ?_, ?_, ?_, ?_, ?_, ?_, ?_, ?_, ?_, ?_, ?_, ?_, ?_, ?_, ?_, ?_, fun _ => ?_, fun _ => ?_, fun _ => ?_, fun _ _ => ?_, fun _ _ => ?_, fun _ => ?_⟩ <;>
    (first | (simp [State.reply] <;> rfl; done) | (unfold State.reply; (repeat' split) <;> (first | rfl | (simp <;> rfl)); done) | (simp only [State.reply]; (repeat' split) <;> (first | rfl | (simp <;> rfl)); done))

/-- `State.sendWaiting` changes nothing but `timers`, `free`, `net`, `chan`, `dies`, `hubs`. -/
@[simp] theorem State.sendWaiting_frame (s : State) (die hub : Nat) :
    (s.sendWaiting die hub).cur = s.cur ∧ (s.sendWaiting die hub).inbox = s.inbox ∧ (s.sendWaiting die hub).arg = s.arg ∧
    (s.sendWaiting die hub).agenda = s.agenda ∧ (s.sendWaiting die hub).outs = s.outs ∧ (s.sendWaiting die hub).cy = s.cy ∧
    (s.sendWaiting die hub).dev = s.dev ∧ (s.sendWaiting die hub).slots = s.slots ∧ (s.sendWaiting die hub).parts = s.parts ∧
    (s.sendWaiting die hub).pls = s.pls ∧ (s.sendWaiting die hub).arrays = s.arrays ∧ (s.sendWaiting die hub).xdies = s.xdies ∧
    (s.sendWaiting die hub).mem = s.mem ∧ (s.sendWaiting die hub).lines = s.lines ∧ (s.sendWaiting die hub).epochs = s.epochs ∧
    (s.sendWaiting die hub).ecc = s.ecc ∧ (∀ q₁, (s.sendWaiting die hub).slot q₁ = s.slot q₁) ∧
    (∀ q₁, (s.sendWaiting die hub).part q₁ = s.part q₁) ∧ (∀ q₁, (s.sendWaiting die hub).pl q₁ = s.pl q₁) ∧
    (∀ q₁ q₂, (s.sendWaiting die hub).arr q₁ q₂ = s.arr q₁ q₂) ∧ (∀ q₁, (s.sendWaiting die hub).xdie q₁ = s.xdie q₁) := by
  unfold State.sendWaiting
  refine ⟨?_, ?_, ?_, ?_, ?_, ?_, ?_, ?_, ?_, ?_, ?_, ?_, ?_, ?_, ?_, ?_, fun _ => ?_, fun _ => ?_, fun _ => ?_, fun _ _ => ?_, fun _ => ?_⟩
  · exact State.foldl_keeps State.cur _ (fun u x => by simp) _ _
  · exact State.foldl_keeps State.inbox _ (fun u x => by simp) _ _
  · exact State.foldl_keeps State.arg _ (fun u x => by simp) _ _
  · exact State.foldl_keeps State.agenda _ (fun u x => by simp) _ _
  · exact State.foldl_keeps State.outs _ (fun u x => by simp) _ _
  · exact State.foldl_keeps State.cy _ (fun u x => by simp) _ _
  · exact State.foldl_keeps State.dev _ (fun u x => by simp) _ _
  · exact State.foldl_keeps State.slots _ (fun u x => by simp) _ _
  · exact State.foldl_keeps State.parts _ (fun u x => by simp) _ _
  · exact State.foldl_keeps State.pls _ (fun u x => by simp) _ _
  · exact State.foldl_keeps State.arrays _ (fun u x => by simp) _ _
  · exact State.foldl_keeps State.xdies _ (fun u x => by simp) _ _
  · exact State.foldl_keeps State.mem _ (fun u x => by simp) _ _
  · exact State.foldl_keeps State.lines _ (fun u x => by simp) _ _
  · exact State.foldl_keeps State.epochs _ (fun u x => by simp) _ _
  · exact State.foldl_keeps State.ecc _ (fun u x => by simp) _ _
  · exact State.foldl_keeps (fun u => u.slot _) _ (fun u x => by simp) _ _
  · exact State.foldl_keeps (fun u => u.part _) _ (fun u x => by simp) _ _
  · exact State.foldl_keeps (fun u => u.pl _) _ (fun u x => by simp) _ _
  · exact State.foldl_keeps (fun u => u.arr _ _) _ (fun u x => by simp) _ _
  · exact State.foldl_keeps (fun u => u.xdie _) _ (fun u x => by simp) _ _

/-- `State.loadDone` changes nothing but `timers`, `free`, `net`, `chan`, `dies`, `hubs`. -/
@[simp] theorem State.loadDone_frame (s : State) (die hub id : Nat) :
    (s.loadDone die hub id).cur = s.cur ∧ (s.loadDone die hub id).inbox = s.inbox ∧ (s.loadDone die hub id).arg = s.arg ∧
    (s.loadDone die hub id).agenda = s.agenda ∧ (s.loadDone die hub id).outs = s.outs ∧ (s.loadDone die hub id).cy = s.cy ∧
    (s.loadDone die hub id).dev = s.dev ∧ (s.loadDone die hub id).slots = s.slots ∧ (s.loadDone die hub id).parts = s.parts ∧
    (s.loadDone die hub id).pls = s.pls ∧ (s.loadDone die hub id).arrays = s.arrays ∧ (s.loadDone die hub id).xdies = s.xdies ∧
    (s.loadDone die hub id).mem = s.mem ∧ (s.loadDone die hub id).lines = s.lines ∧ (s.loadDone die hub id).epochs = s.epochs ∧
    (s.loadDone die hub id).ecc = s.ecc ∧ (∀ q₁, (s.loadDone die hub id).slot q₁ = s.slot q₁) ∧
    (∀ q₁, (s.loadDone die hub id).part q₁ = s.part q₁) ∧ (∀ q₁, (s.loadDone die hub id).pl q₁ = s.pl q₁) ∧
    (∀ q₁ q₂, (s.loadDone die hub id).arr q₁ q₂ = s.arr q₁ q₂) ∧ (∀ q₁, (s.loadDone die hub id).xdie q₁ = s.xdie q₁) := by
  refine ⟨?_, ?_, ?_, ?_, ?_, ?_, ?_, ?_, ?_, ?_, ?_, ?_, ?_, ?_, ?_, ?_, fun _ => ?_, fun _ => ?_, fun _ => ?_, fun _ _ => ?_, fun _ => ?_⟩ <;>
    (first | (simp [State.loadDone] <;> rfl; done) | (unfold State.loadDone; (repeat' split) <;> (first | rfl | (simp <;> rfl)); done) | (simp only [State.loadDone]; (repeat' split) <;> (first | rfl | (simp <;> rfl)); done))

/-- `State.storeDone` changes nothing but `timers`, `free`, `net`, `chan`, `dies`, `hubs`. -/
@[simp] theorem State.storeDone_frame (s : State) (die hub id : Nat) :
    (s.storeDone die hub id).cur = s.cur ∧ (s.storeDone die hub id).inbox = s.inbox ∧ (s.storeDone die hub id).arg = s.arg ∧
    (s.storeDone die hub id).agenda = s.agenda ∧ (s.storeDone die hub id).outs = s.outs ∧ (s.storeDone die hub id).cy = s.cy ∧
    (s.storeDone die hub id).dev = s.dev ∧ (s.storeDone die hub id).slots = s.slots ∧
    (s.storeDone die hub id).parts = s.parts ∧ (s.storeDone die hub id).pls = s.pls ∧
    (s.storeDone die hub id).arrays = s.arrays ∧ (s.storeDone die hub id).xdies = s.xdies ∧
    (s.storeDone die hub id).mem = s.mem ∧ (s.storeDone die hub id).lines = s.lines ∧
    (s.storeDone die hub id).epochs = s.epochs ∧ (s.storeDone die hub id).ecc = s.ecc ∧
    (∀ q₁, (s.storeDone die hub id).slot q₁ = s.slot q₁) ∧ (∀ q₁, (s.storeDone die hub id).part q₁ = s.part q₁) ∧
    (∀ q₁, (s.storeDone die hub id).pl q₁ = s.pl q₁) ∧ (∀ q₁ q₂, (s.storeDone die hub id).arr q₁ q₂ = s.arr q₁ q₂) ∧
    (∀ q₁, (s.storeDone die hub id).xdie q₁ = s.xdie q₁) := by
  refine ⟨?_, ?_, ?_, ?_, ?_, ?_, ?_, ?_, ?_, ?_, ?_, ?_, ?_, ?_, ?_, ?_, fun _ => ?_, fun _ => ?_, fun _ => ?_, fun _ _ => ?_, fun _ => ?_⟩ <;>
    (first | (simp [State.storeDone] <;> rfl; done) | (unfold State.storeDone; (repeat' split) <;> (first | rfl | (simp <;> rfl)); done) | (simp only [State.storeDone]; (repeat' split) <;> (first | rfl | (simp <;> rfl)); done))

/-- `State.deadline` changes nothing but `agenda`, `seq`. -/
@[simp] theorem State.deadline_frame (s : State) (id prom : Nat) :
    (s.deadline id prom).cur = s.cur ∧ (s.deadline id prom).inbox = s.inbox ∧ (s.deadline id prom).arg = s.arg ∧
    (s.deadline id prom).timers = s.timers ∧ (s.deadline id prom).net = s.net ∧ (s.deadline id prom).outs = s.outs ∧
    (s.deadline id prom).cy = s.cy ∧ (s.deadline id prom).dev = s.dev ∧ (s.deadline id prom).slots = s.slots ∧
    (s.deadline id prom).parts = s.parts ∧ (s.deadline id prom).pls = s.pls ∧ (s.deadline id prom).dies = s.dies ∧
    (s.deadline id prom).hubs = s.hubs ∧ (s.deadline id prom).arrays = s.arrays ∧ (s.deadline id prom).xdies = s.xdies ∧
    (s.deadline id prom).mem = s.mem ∧ (s.deadline id prom).lines = s.lines ∧ (s.deadline id prom).epochs = s.epochs ∧
    (s.deadline id prom).ecc = s.ecc ∧ (∀ q₁, (s.deadline id prom).slot q₁ = s.slot q₁) ∧
    (∀ q₁, (s.deadline id prom).part q₁ = s.part q₁) ∧ (∀ q₁, (s.deadline id prom).pl q₁ = s.pl q₁) ∧
    (∀ q₁, (s.deadline id prom).die q₁ = s.die q₁) ∧ (∀ q₁ q₂, (s.deadline id prom).hub q₁ q₂ = s.hub q₁ q₂) ∧
    (∀ q₁ q₂, (s.deadline id prom).arr q₁ q₂ = s.arr q₁ q₂) ∧ (∀ q₁, (s.deadline id prom).xdie q₁ = s.xdie q₁) :=
  ⟨(rfl), (rfl), (rfl), (rfl), (rfl), (rfl), (rfl), (rfl), (rfl), (rfl), (rfl), (rfl), (rfl), (rfl), (rfl), (rfl), (rfl), (rfl), (rfl), fun _ => (rfl), fun _ => (rfl), fun _ => (rfl), fun _ => (rfl), fun _ _ => (rfl), fun _ _ => (rfl), fun _ => (rfl)⟩

/-- `State.countedLoad` changes nothing but `agenda`, `timers`, `seq`, `free`, `net`, `netSeq`, `chan`, `dies`, `hubs`. -/
@[simp] theorem State.countedLoad_frame (s : State) (p : Pkt) (store : Bool) (prom : Nat) :
    (s.countedLoad p store prom).cur = s.cur ∧ (s.countedLoad p store prom).inbox = s.inbox ∧
    (s.countedLoad p store prom).arg = s.arg ∧ (s.countedLoad p store prom).outs = s.outs ∧
    (s.countedLoad p store prom).cy = s.cy ∧ (s.countedLoad p store prom).dev = s.dev ∧
    (s.countedLoad p store prom).slots = s.slots ∧ (s.countedLoad p store prom).parts = s.parts ∧
    (s.countedLoad p store prom).pls = s.pls ∧ (s.countedLoad p store prom).arrays = s.arrays ∧
    (s.countedLoad p store prom).xdies = s.xdies ∧ (s.countedLoad p store prom).mem = s.mem ∧
    (s.countedLoad p store prom).lines = s.lines ∧ (s.countedLoad p store prom).epochs = s.epochs ∧
    (s.countedLoad p store prom).ecc = s.ecc ∧ (∀ q₁, (s.countedLoad p store prom).slot q₁ = s.slot q₁) ∧
    (∀ q₁, (s.countedLoad p store prom).part q₁ = s.part q₁) ∧ (∀ q₁, (s.countedLoad p store prom).pl q₁ = s.pl q₁) ∧
    (∀ q₁ q₂, (s.countedLoad p store prom).arr q₁ q₂ = s.arr q₁ q₂) ∧ (∀ q₁, (s.countedLoad p store prom).xdie q₁ = s.xdie q₁) := by
  refine ⟨?_, ?_, ?_, ?_, ?_, ?_, ?_, ?_, ?_, ?_, ?_, ?_, ?_, ?_, ?_, fun _ => ?_, fun _ => ?_, fun _ => ?_, fun _ _ => ?_, fun _ => ?_⟩ <;>
    (first | (simp [State.countedLoad] <;> rfl; done) | (unfold State.countedLoad; (repeat' split) <;> (first | rfl | (simp <;> rfl)); done) | (simp only [State.countedLoad]; (repeat' split) <;> (first | rfl | (simp <;> rfl)); done))

/-- `State.dieFault` changes nothing but `timers`, `free`, `net`, `netSeq`, `dies`. -/
@[simp] theorem State.dieFault_frame (s : State) (p kind sub modl : Nat) :
    (s.dieFault p kind sub modl).cur = s.cur ∧ (s.dieFault p kind sub modl).inbox = s.inbox ∧
    (s.dieFault p kind sub modl).arg = s.arg ∧ (s.dieFault p kind sub modl).agenda = s.agenda ∧
    (s.dieFault p kind sub modl).outs = s.outs ∧ (s.dieFault p kind sub modl).cy = s.cy ∧
    (s.dieFault p kind sub modl).dev = s.dev ∧ (s.dieFault p kind sub modl).slots = s.slots ∧
    (s.dieFault p kind sub modl).parts = s.parts ∧ (s.dieFault p kind sub modl).pls = s.pls ∧
    (s.dieFault p kind sub modl).hubs = s.hubs ∧ (s.dieFault p kind sub modl).arrays = s.arrays ∧
    (s.dieFault p kind sub modl).xdies = s.xdies ∧ (s.dieFault p kind sub modl).mem = s.mem ∧
    (s.dieFault p kind sub modl).lines = s.lines ∧ (s.dieFault p kind sub modl).epochs = s.epochs ∧
    (s.dieFault p kind sub modl).ecc = s.ecc ∧ (∀ q₁, (s.dieFault p kind sub modl).slot q₁ = s.slot q₁) ∧
    (∀ q₁, (s.dieFault p kind sub modl).part q₁ = s.part q₁) ∧ (∀ q₁, (s.dieFault p kind sub modl).pl q₁ = s.pl q₁) ∧
    (∀ q₁ q₂, (s.dieFault p kind sub modl).hub q₁ q₂ = s.hub q₁ q₂) ∧
    (∀ q₁ q₂, (s.dieFault p kind sub modl).arr q₁ q₂ = s.arr q₁ q₂) ∧ (∀ q₁, (s.dieFault p kind sub modl).xdie q₁ = s.xdie q₁) := by
  refine ⟨?_, ?_, ?_, ?_, ?_, ?_, ?_, ?_, ?_, ?_, ?_, ?_, ?_, ?_, ?_, ?_, ?_, fun _ => ?_, fun _ => ?_, fun _ => ?_, fun _ _ => ?_, fun _ _ => ?_, fun _ => ?_⟩ <;>
    (first | (simp [State.dieFault] <;> rfl; done) | (unfold State.dieFault; (repeat' split) <;> (first | rfl | (simp <;> rfl)); done) | (simp only [State.dieFault]; (repeat' split) <;> (first | rfl | (simp <;> rfl)); done))

/-- `State.announce` changes nothing but `agenda`, `seq`. -/
@[simp] theorem State.announce_frame (s : State) (p m : Nat) :
    (s.announce p m).cur = s.cur ∧ (s.announce p m).inbox = s.inbox ∧ (s.announce p m).arg = s.arg ∧
    (s.announce p m).timers = s.timers ∧ (s.announce p m).net = s.net ∧ (s.announce p m).outs = s.outs ∧
    (s.announce p m).cy = s.cy ∧ (s.announce p m).dev = s.dev ∧ (s.announce p m).slots = s.slots ∧
    (s.announce p m).parts = s.parts ∧ (s.announce p m).pls = s.pls ∧ (s.announce p m).dies = s.dies ∧
    (s.announce p m).hubs = s.hubs ∧ (s.announce p m).arrays = s.arrays ∧ (s.announce p m).xdies = s.xdies ∧
    (s.announce p m).mem = s.mem ∧ (s.announce p m).lines = s.lines ∧ (s.announce p m).epochs = s.epochs ∧
    (s.announce p m).ecc = s.ecc ∧ (∀ q₁, (s.announce p m).slot q₁ = s.slot q₁) ∧
    (∀ q₁, (s.announce p m).part q₁ = s.part q₁) ∧ (∀ q₁, (s.announce p m).pl q₁ = s.pl q₁) ∧
    (∀ q₁, (s.announce p m).die q₁ = s.die q₁) ∧ (∀ q₁ q₂, (s.announce p m).hub q₁ q₂ = s.hub q₁ q₂) ∧
    (∀ q₁ q₂, (s.announce p m).arr q₁ q₂ = s.arr q₁ q₂) ∧ (∀ q₁, (s.announce p m).xdie q₁ = s.xdie q₁) := by
  unfold State.announce
  refine ⟨?_, ?_, ?_, ?_, ?_, ?_, ?_, ?_, ?_, ?_, ?_, ?_, ?_, ?_, ?_, ?_, ?_, ?_, ?_, fun _ => ?_, fun _ => ?_, fun _ => ?_, fun _ => ?_, fun _ _ => ?_, fun _ _ => ?_, fun _ => ?_⟩
  · exact State.foldl_keeps State.cur _ (fun u x => by (repeat' split) <;> simp) _ _
  · exact State.foldl_keeps State.inbox _ (fun u x => by (repeat' split) <;> simp) _ _
  · exact State.foldl_keeps State.arg _ (fun u x => by (repeat' split) <;> simp) _ _
  · exact State.foldl_keeps State.timers _ (fun u x => by (repeat' split) <;> simp) _ _
  · exact State.foldl_keeps State.net _ (fun u x => by (repeat' split) <;> simp) _ _
  · exact State.foldl_keeps State.outs _ (fun u x => by (repeat' split) <;> simp) _ _
  · exact State.foldl_keeps State.cy _ (fun u x => by (repeat' split) <;> simp) _ _
  · exact State.foldl_keeps State.dev _ (fun u x => by (repeat' split) <;> simp) _ _
  · exact State.foldl_keeps State.slots _ (fun u x => by (repeat' split) <;> simp) _ _
  · exact State.foldl_keeps State.parts _ (fun u x => by (repeat' split) <;> simp) _ _
  · exact State.foldl_keeps State.pls _ (fun u x => by (repeat' split) <;> simp) _ _
  · exact State.foldl_keeps State.dies _ (fun u x => by (repeat' split) <;> simp) _ _
  · exact State.foldl_keeps State.hubs _ (fun u x => by (repeat' split) <;> simp) _ _
  · exact State.foldl_keeps State.arrays _ (fun u x => by (repeat' split) <;> simp) _ _
  · exact State.foldl_keeps State.xdies _ (fun u x => by (repeat' split) <;> simp) _ _
  · exact State.foldl_keeps State.mem _ (fun u x => by (repeat' split) <;> simp) _ _
  · exact State.foldl_keeps State.lines _ (fun u x => by (repeat' split) <;> simp) _ _
  · exact State.foldl_keeps State.epochs _ (fun u x => by (repeat' split) <;> simp) _ _
  · exact State.foldl_keeps State.ecc _ (fun u x => by (repeat' split) <;> simp) _ _
  · exact State.foldl_keeps (fun u => u.slot _) _ (fun u x => by (repeat' split) <;> simp) _ _
  · exact State.foldl_keeps (fun u => u.part _) _ (fun u x => by (repeat' split) <;> simp) _ _
  · exact State.foldl_keeps (fun u => u.pl _) _ (fun u x => by (repeat' split) <;> simp) _ _
  · exact State.foldl_keeps (fun u => u.die _) _ (fun u x => by (repeat' split) <;> simp) _ _
  · exact State.foldl_keeps (fun u => u.hub _ _) _ (fun u x => by (repeat' split) <;> simp) _ _
  · exact State.foldl_keeps (fun u => u.arr _ _) _ (fun u x => by (repeat' split) <;> simp) _ _
  · exact State.foldl_keeps (fun u => u.xdie _) _ (fun u x => by (repeat' split) <;> simp) _ _

/-- `State.arm` changes nothing but `agenda`, `seq`, `dies`. -/
@[simp] theorem State.arm_frame (s : State) (p m : Nat) (adopt idle : Bool) (hub : Nat) (q : Bool) :
    (s.arm p m adopt idle hub q).cur = s.cur ∧ (s.arm p m adopt idle hub q).inbox = s.inbox ∧
    (s.arm p m adopt idle hub q).arg = s.arg ∧ (s.arm p m adopt idle hub q).timers = s.timers ∧
    (s.arm p m adopt idle hub q).net = s.net ∧ (s.arm p m adopt idle hub q).outs = s.outs ∧
    (s.arm p m adopt idle hub q).cy = s.cy ∧ (s.arm p m adopt idle hub q).dev = s.dev ∧
    (s.arm p m adopt idle hub q).slots = s.slots ∧ (s.arm p m adopt idle hub q).parts = s.parts ∧
    (s.arm p m adopt idle hub q).pls = s.pls ∧ (s.arm p m adopt idle hub q).hubs = s.hubs ∧
    (s.arm p m adopt idle hub q).arrays = s.arrays ∧ (s.arm p m adopt idle hub q).xdies = s.xdies ∧
    (s.arm p m adopt idle hub q).mem = s.mem ∧ (s.arm p m adopt idle hub q).lines = s.lines ∧
    (s.arm p m adopt idle hub q).epochs = s.epochs ∧ (s.arm p m adopt idle hub q).ecc = s.ecc ∧
    (∀ q₁, (s.arm p m adopt idle hub q).slot q₁ = s.slot q₁) ∧ (∀ q₁, (s.arm p m adopt idle hub q).part q₁ = s.part q₁) ∧
    (∀ q₁, (s.arm p m adopt idle hub q).pl q₁ = s.pl q₁) ∧ (∀ q₁ q₂, (s.arm p m adopt idle hub q).hub q₁ q₂ = s.hub q₁ q₂) ∧
    (∀ q₁ q₂, (s.arm p m adopt idle hub q).arr q₁ q₂ = s.arr q₁ q₂) ∧ (∀ q₁, (s.arm p m adopt idle hub q).xdie q₁ = s.xdie q₁) := by
  refine ⟨?_, ?_, ?_, ?_, ?_, ?_, ?_, ?_, ?_, ?_, ?_, ?_, ?_, ?_, ?_, ?_, ?_, ?_, fun _ => ?_, fun _ => ?_, fun _ => ?_, fun _ _ => ?_, fun _ _ => ?_, fun _ => ?_⟩ <;>
    (first | (simp [State.arm] <;> rfl; done) | (unfold State.arm; (repeat' split) <;> (first | rfl | (simp <;> rfl)); done) | (simp only [State.arm]; (repeat' split) <;> (first | rfl | (simp <;> rfl)); done))

/-- `State.pushReply` changes nothing but `hubs`. -/
@[simp] theorem State.pushReply_frame (s : State) (die hub e : Nat) (x : Reply) :
    (s.pushReply die hub e x).cur = s.cur ∧ (s.pushReply die hub e x).inbox = s.inbox ∧ (s.pushReply die hub e x).arg = s.arg ∧
    (s.pushReply die hub e x).agenda = s.agenda ∧ (s.pushReply die hub e x).timers = s.timers ∧
    (s.pushReply die hub e x).net = s.net ∧ (s.pushReply die hub e x).outs = s.outs ∧ (s.pushReply die hub e x).cy = s.cy ∧
    (s.pushReply die hub e x).dev = s.dev ∧ (s.pushReply die hub e x).slots = s.slots ∧
    (s.pushReply die hub e x).parts = s.parts ∧ (s.pushReply die hub e x).pls = s.pls ∧
    (s.pushReply die hub e x).dies = s.dies ∧ (s.pushReply die hub e x).arrays = s.arrays ∧
    (s.pushReply die hub e x).xdies = s.xdies ∧ (s.pushReply die hub e x).mem = s.mem ∧
    (s.pushReply die hub e x).lines = s.lines ∧ (s.pushReply die hub e x).epochs = s.epochs ∧
    (s.pushReply die hub e x).ecc = s.ecc ∧ (∀ q₁, (s.pushReply die hub e x).slot q₁ = s.slot q₁) ∧
    (∀ q₁, (s.pushReply die hub e x).part q₁ = s.part q₁) ∧ (∀ q₁, (s.pushReply die hub e x).pl q₁ = s.pl q₁) ∧
    (∀ q₁, (s.pushReply die hub e x).die q₁ = s.die q₁) ∧ (∀ q₁ q₂, (s.pushReply die hub e x).arr q₁ q₂ = s.arr q₁ q₂) ∧
    (∀ q₁, (s.pushReply die hub e x).xdie q₁ = s.xdie q₁) := by
  refine ⟨?_, ?_, ?_, ?_, ?_, ?_, ?_, ?_, ?_, ?_, ?_, ?_, ?_, ?_, ?_, ?_, ?_, ?_, ?_, fun _ => ?_, fun _ => ?_, fun _ => ?_, fun _ => ?_, fun _ _ => ?_, fun _ => ?_⟩ <;>
    (first | (simp [State.pushReply] <;> rfl; done) | (unfold State.pushReply; (repeat' split) <;> (first | rfl | (simp <;> rfl)); done) | (simp only [State.pushReply]; (repeat' split) <;> (first | rfl | (simp <;> rfl)); done))

end Sys2Proof.Machine
end

