-- ==== Sys2Proof/Laws/Device.lean ====
section
/-! SUPPORT. What the shared operations of records, slots, mailboxes, boot and long links leave as it is. -/

set_option linter.all false

namespace Sys2Proof.Machine

open Sys2Proof

/-- `State.setMsix` changes nothing but `dev`. -/
@[simp] theorem State.setMsix_frame (s : State) (fn o : Nat) (b : Byte) :
    (s.setMsix fn o b).cur = s.cur ∧ (s.setMsix fn o b).inbox = s.inbox ∧ (s.setMsix fn o b).arg = s.arg ∧
    (s.setMsix fn o b).agenda = s.agenda ∧ (s.setMsix fn o b).timers = s.timers ∧ (s.setMsix fn o b).net = s.net ∧
    (s.setMsix fn o b).outs = s.outs ∧ (s.setMsix fn o b).cy = s.cy ∧ (s.setMsix fn o b).slots = s.slots ∧
    (s.setMsix fn o b).parts = s.parts ∧ (s.setMsix fn o b).pls = s.pls ∧ (s.setMsix fn o b).dies = s.dies ∧
    (s.setMsix fn o b).hubs = s.hubs ∧ (s.setMsix fn o b).arrays = s.arrays ∧ (s.setMsix fn o b).xdies = s.xdies ∧
    (s.setMsix fn o b).mem = s.mem ∧ (s.setMsix fn o b).lines = s.lines ∧ (s.setMsix fn o b).epochs = s.epochs ∧
    (s.setMsix fn o b).ecc = s.ecc ∧ (∀ q₁, (s.setMsix fn o b).slot q₁ = s.slot q₁) ∧
    (∀ q₁, (s.setMsix fn o b).part q₁ = s.part q₁) ∧ (∀ q₁, (s.setMsix fn o b).pl q₁ = s.pl q₁) ∧
    (∀ q₁, (s.setMsix fn o b).die q₁ = s.die q₁) ∧ (∀ q₁ q₂, (s.setMsix fn o b).hub q₁ q₂ = s.hub q₁ q₂) ∧
    (∀ q₁ q₂, (s.setMsix fn o b).arr q₁ q₂ = s.arr q₁ q₂) ∧ (∀ q₁, (s.setMsix fn o b).xdie q₁ = s.xdie q₁) :=
  ⟨(rfl), (rfl), (rfl), (rfl), (rfl), (rfl), (rfl), (rfl), (rfl), (rfl), (rfl), (rfl), (rfl), (rfl), (rfl), (rfl), (rfl), (rfl), (rfl), fun _ => (rfl), fun _ => (rfl), fun _ => (rfl), fun _ => (rfl), fun _ _ => (rfl), fun _ _ => (rfl), fun _ => (rfl)⟩

/-- `State.signal` changes nothing but `outs`, `dev`. -/
@[simp] theorem State.signal_frame (s : State) (fn vec : Nat) :
    (s.signal fn vec).cur = s.cur ∧ (s.signal fn vec).inbox = s.inbox ∧ (s.signal fn vec).arg = s.arg ∧
    (s.signal fn vec).agenda = s.agenda ∧ (s.signal fn vec).timers = s.timers ∧ (s.signal fn vec).net = s.net ∧
    (s.signal fn vec).cy = s.cy ∧ (s.signal fn vec).slots = s.slots ∧ (s.signal fn vec).parts = s.parts ∧
    (s.signal fn vec).pls = s.pls ∧ (s.signal fn vec).dies = s.dies ∧ (s.signal fn vec).hubs = s.hubs ∧
    (s.signal fn vec).arrays = s.arrays ∧ (s.signal fn vec).xdies = s.xdies ∧ (s.signal fn vec).mem = s.mem ∧
    (s.signal fn vec).lines = s.lines ∧ (s.signal fn vec).epochs = s.epochs ∧ (s.signal fn vec).ecc = s.ecc ∧
    (∀ q₁, (s.signal fn vec).slot q₁ = s.slot q₁) ∧ (∀ q₁, (s.signal fn vec).part q₁ = s.part q₁) ∧
    (∀ q₁, (s.signal fn vec).pl q₁ = s.pl q₁) ∧ (∀ q₁, (s.signal fn vec).die q₁ = s.die q₁) ∧
    (∀ q₁ q₂, (s.signal fn vec).hub q₁ q₂ = s.hub q₁ q₂) ∧ (∀ q₁ q₂, (s.signal fn vec).arr q₁ q₂ = s.arr q₁ q₂) ∧
    (∀ q₁, (s.signal fn vec).xdie q₁ = s.xdie q₁) := by
  refine ⟨?_, ?_, ?_, ?_, ?_, ?_, ?_, ?_, ?_, ?_, ?_, ?_, ?_, ?_, ?_, ?_, ?_, ?_, fun _ => ?_, fun _ => ?_, fun _ => ?_, fun _ => ?_, fun _ _ => ?_, fun _ _ => ?_, fun _ => ?_⟩ <;>
    (first | (simp [State.signal] <;> rfl; done) | (unfold State.signal; (repeat' split) <;> (first | rfl | (simp <;> rfl)); done) | (simp only [State.signal]; (repeat' split) <;> (first | rfl | (simp <;> rfl)); done))

/-- `State.interrupt` changes nothing but `dev`. -/
@[simp] theorem State.interrupt_frame (s : State) (core cause : Nat) :
    (s.interrupt core cause).cur = s.cur ∧ (s.interrupt core cause).inbox = s.inbox ∧ (s.interrupt core cause).arg = s.arg ∧
    (s.interrupt core cause).agenda = s.agenda ∧ (s.interrupt core cause).timers = s.timers ∧
    (s.interrupt core cause).net = s.net ∧ (s.interrupt core cause).outs = s.outs ∧ (s.interrupt core cause).cy = s.cy ∧
    (s.interrupt core cause).slots = s.slots ∧ (s.interrupt core cause).parts = s.parts ∧
    (s.interrupt core cause).pls = s.pls ∧ (s.interrupt core cause).dies = s.dies ∧ (s.interrupt core cause).hubs = s.hubs ∧
    (s.interrupt core cause).arrays = s.arrays ∧ (s.interrupt core cause).xdies = s.xdies ∧
    (s.interrupt core cause).mem = s.mem ∧ (s.interrupt core cause).lines = s.lines ∧
    (s.interrupt core cause).epochs = s.epochs ∧ (s.interrupt core cause).ecc = s.ecc ∧
    (∀ q₁, (s.interrupt core cause).slot q₁ = s.slot q₁) ∧ (∀ q₁, (s.interrupt core cause).part q₁ = s.part q₁) ∧
    (∀ q₁, (s.interrupt core cause).pl q₁ = s.pl q₁) ∧ (∀ q₁, (s.interrupt core cause).die q₁ = s.die q₁) ∧
    (∀ q₁ q₂, (s.interrupt core cause).hub q₁ q₂ = s.hub q₁ q₂) ∧ (∀ q₁ q₂, (s.interrupt core cause).arr q₁ q₂ = s.arr q₁ q₂) ∧
    (∀ q₁, (s.interrupt core cause).xdie q₁ = s.xdie q₁) :=
  ⟨(rfl), (rfl), (rfl), (rfl), (rfl), (rfl), (rfl), (rfl), (rfl), (rfl), (rfl), (rfl), (rfl), (rfl), (rfl), (rfl), (rfl), (rfl), (rfl), fun _ => (rfl), fun _ => (rfl), fun _ => (rfl), fun _ => (rfl), fun _ _ => (rfl), fun _ _ => (rfl), fun _ => (rfl)⟩

/-- `State.hostWrite` changes nothing but `mem`, `lines`, `epochs`, `ecc`. -/
@[simp] theorem State.hostWrite_frame (s : State) (part : Nat) (pasid : Option Nat) (a : Nat) (bs : List Byte) :
    (s.hostWrite part pasid a bs).cur = s.cur ∧ (s.hostWrite part pasid a bs).inbox = s.inbox ∧
    (s.hostWrite part pasid a bs).arg = s.arg ∧ (s.hostWrite part pasid a bs).agenda = s.agenda ∧
    (s.hostWrite part pasid a bs).timers = s.timers ∧ (s.hostWrite part pasid a bs).net = s.net ∧
    (s.hostWrite part pasid a bs).outs = s.outs ∧ (s.hostWrite part pasid a bs).cy = s.cy ∧
    (s.hostWrite part pasid a bs).dev = s.dev ∧ (s.hostWrite part pasid a bs).slots = s.slots ∧
    (s.hostWrite part pasid a bs).parts = s.parts ∧ (s.hostWrite part pasid a bs).pls = s.pls ∧
    (s.hostWrite part pasid a bs).dies = s.dies ∧ (s.hostWrite part pasid a bs).hubs = s.hubs ∧
    (s.hostWrite part pasid a bs).arrays = s.arrays ∧ (s.hostWrite part pasid a bs).xdies = s.xdies ∧
    (∀ q₁, (s.hostWrite part pasid a bs).slot q₁ = s.slot q₁) ∧ (∀ q₁, (s.hostWrite part pasid a bs).part q₁ = s.part q₁) ∧
    (∀ q₁, (s.hostWrite part pasid a bs).pl q₁ = s.pl q₁) ∧ (∀ q₁, (s.hostWrite part pasid a bs).die q₁ = s.die q₁) ∧
    (∀ q₁ q₂, (s.hostWrite part pasid a bs).hub q₁ q₂ = s.hub q₁ q₂) ∧
    (∀ q₁ q₂, (s.hostWrite part pasid a bs).arr q₁ q₂ = s.arr q₁ q₂) ∧ (∀ q₁, (s.hostWrite part pasid a bs).xdie q₁ = s.xdie q₁) :=
  ⟨(rfl), (rfl), (rfl), (rfl), (rfl), (rfl), (rfl), (rfl), (rfl), (rfl), (rfl), (rfl), (rfl), (rfl), (rfl), (rfl), fun _ => (rfl), fun _ => (rfl), fun _ => (rfl), fun _ => (rfl), fun _ _ => (rfl), fun _ _ => (rfl), fun _ => (rfl)⟩

/-- `State.writeRecord` changes nothing but `outs`, `dev`, `parts`, `mem`, `lines`, `epochs`, `ecc`. -/
@[simp] theorem State.writeRecord_frame (s : State) (r : FaultReport) :
    (s.writeRecord r).cur = s.cur ∧ (s.writeRecord r).inbox = s.inbox ∧ (s.writeRecord r).arg = s.arg ∧
    (s.writeRecord r).agenda = s.agenda ∧ (s.writeRecord r).timers = s.timers ∧ (s.writeRecord r).net = s.net ∧
    (s.writeRecord r).cy = s.cy ∧ (s.writeRecord r).slots = s.slots ∧ (s.writeRecord r).pls = s.pls ∧
    (s.writeRecord r).dies = s.dies ∧ (s.writeRecord r).hubs = s.hubs ∧ (s.writeRecord r).arrays = s.arrays ∧
    (s.writeRecord r).xdies = s.xdies ∧ (∀ q₁, (s.writeRecord r).slot q₁ = s.slot q₁) ∧
    (∀ q₁, (s.writeRecord r).pl q₁ = s.pl q₁) ∧ (∀ q₁, (s.writeRecord r).die q₁ = s.die q₁) ∧
    (∀ q₁ q₂, (s.writeRecord r).hub q₁ q₂ = s.hub q₁ q₂) ∧ (∀ q₁ q₂, (s.writeRecord r).arr q₁ q₂ = s.arr q₁ q₂) ∧
    (∀ q₁, (s.writeRecord r).xdie q₁ = s.xdie q₁) := by
  refine ⟨?_, ?_, ?_, ?_, ?_, ?_, ?_, ?_, ?_, ?_, ?_, ?_, ?_, fun _ => ?_, fun _ => ?_, fun _ => ?_, fun _ _ => ?_, fun _ _ => ?_, fun _ => ?_⟩ <;>
    (first | (simp [State.writeRecord] <;> rfl; done) | (unfold State.writeRecord; (repeat' split) <;> (first | rfl | (simp <;> rfl)); done) | (simp only [State.writeRecord]; (repeat' split) <;> (first | rfl | (simp <;> rfl)); done))

/-- `State.noteFault` changes nothing but `slots`. -/
@[simp] theorem State.noteFault_frame (s : State) (slot kind : Nat) :
    (s.noteFault slot kind).cur = s.cur ∧ (s.noteFault slot kind).inbox = s.inbox ∧ (s.noteFault slot kind).arg = s.arg ∧
    (s.noteFault slot kind).agenda = s.agenda ∧ (s.noteFault slot kind).timers = s.timers ∧
    (s.noteFault slot kind).net = s.net ∧ (s.noteFault slot kind).outs = s.outs ∧ (s.noteFault slot kind).cy = s.cy ∧
    (s.noteFault slot kind).dev = s.dev ∧ (s.noteFault slot kind).parts = s.parts ∧ (s.noteFault slot kind).pls = s.pls ∧
    (s.noteFault slot kind).dies = s.dies ∧ (s.noteFault slot kind).hubs = s.hubs ∧ (s.noteFault slot kind).arrays = s.arrays ∧
    (s.noteFault slot kind).xdies = s.xdies ∧ (s.noteFault slot kind).mem = s.mem ∧ (s.noteFault slot kind).lines = s.lines ∧
    (s.noteFault slot kind).epochs = s.epochs ∧ (s.noteFault slot kind).ecc = s.ecc ∧
    (∀ q₁, (s.noteFault slot kind).part q₁ = s.part q₁) ∧ (∀ q₁, (s.noteFault slot kind).pl q₁ = s.pl q₁) ∧
    (∀ q₁, (s.noteFault slot kind).die q₁ = s.die q₁) ∧ (∀ q₁ q₂, (s.noteFault slot kind).hub q₁ q₂ = s.hub q₁ q₂) ∧
    (∀ q₁ q₂, (s.noteFault slot kind).arr q₁ q₂ = s.arr q₁ q₂) ∧ (∀ q₁, (s.noteFault slot kind).xdie q₁ = s.xdie q₁) :=
  ⟨(rfl), (rfl), (rfl), (rfl), (rfl), (rfl), (rfl), (rfl), (rfl), (rfl), (rfl), (rfl), (rfl), (rfl), (rfl), (rfl), (rfl), (rfl), (rfl), fun _ => (rfl), fun _ => (rfl), fun _ => (rfl), fun _ _ => (rfl), fun _ _ => (rfl), fun _ => (rfl)⟩

/-- `State.slotRecord` changes nothing but `outs`, `dev`, `slots`, `parts`, `mem`, `lines`, `epochs`, `ecc`. -/
@[simp] theorem State.slotRecord_frame (s : State) (r : FaultReport) :
    (s.slotRecord r).cur = s.cur ∧ (s.slotRecord r).inbox = s.inbox ∧ (s.slotRecord r).arg = s.arg ∧
    (s.slotRecord r).agenda = s.agenda ∧ (s.slotRecord r).timers = s.timers ∧ (s.slotRecord r).net = s.net ∧
    (s.slotRecord r).cy = s.cy ∧ (s.slotRecord r).pls = s.pls ∧ (s.slotRecord r).dies = s.dies ∧
    (s.slotRecord r).hubs = s.hubs ∧ (s.slotRecord r).arrays = s.arrays ∧ (s.slotRecord r).xdies = s.xdies ∧
    (∀ q₁, (s.slotRecord r).pl q₁ = s.pl q₁) ∧ (∀ q₁, (s.slotRecord r).die q₁ = s.die q₁) ∧
    (∀ q₁ q₂, (s.slotRecord r).hub q₁ q₂ = s.hub q₁ q₂) ∧ (∀ q₁ q₂, (s.slotRecord r).arr q₁ q₂ = s.arr q₁ q₂) ∧
    (∀ q₁, (s.slotRecord r).xdie q₁ = s.xdie q₁) := by
  refine ⟨?_, ?_, ?_, ?_, ?_, ?_, ?_, ?_, ?_, ?_, ?_, ?_, fun _ => ?_, fun _ => ?_, fun _ _ => ?_, fun _ _ => ?_, fun _ => ?_⟩ <;>
    (first | (simp [State.slotRecord] <;> rfl; done) | (unfold State.slotRecord; (repeat' split) <;> (first | rfl | (simp <;> rfl)); done) | (simp only [State.slotRecord]; (repeat' split) <;> (first | rfl | (simp <;> rfl)); done))

/-- `State.queueRecord` changes nothing but `outs`, `dev`, `slots`, `parts`, `mem`, `lines`, `epochs`, `ecc`. -/
@[simp] theorem State.queueRecord_frame (s : State) (r : FaultReport) :
    (s.queueRecord r).cur = s.cur ∧ (s.queueRecord r).inbox = s.inbox ∧ (s.queueRecord r).arg = s.arg ∧
    (s.queueRecord r).agenda = s.agenda ∧ (s.queueRecord r).timers = s.timers ∧ (s.queueRecord r).net = s.net ∧
    (s.queueRecord r).cy = s.cy ∧ (s.queueRecord r).pls = s.pls ∧ (s.queueRecord r).dies = s.dies ∧
    (s.queueRecord r).hubs = s.hubs ∧ (s.queueRecord r).arrays = s.arrays ∧ (s.queueRecord r).xdies = s.xdies ∧
    (∀ q₁, (s.queueRecord r).pl q₁ = s.pl q₁) ∧ (∀ q₁, (s.queueRecord r).die q₁ = s.die q₁) ∧
    (∀ q₁ q₂, (s.queueRecord r).hub q₁ q₂ = s.hub q₁ q₂) ∧ (∀ q₁ q₂, (s.queueRecord r).arr q₁ q₂ = s.arr q₁ q₂) ∧
    (∀ q₁, (s.queueRecord r).xdie q₁ = s.xdie q₁) := by
  refine ⟨?_, ?_, ?_, ?_, ?_, ?_, ?_, ?_, ?_, ?_, ?_, ?_, fun _ => ?_, fun _ => ?_, fun _ _ => ?_, fun _ _ => ?_, fun _ => ?_⟩ <;>
    (first | (simp [State.queueRecord] <;> rfl; done) | (unfold State.queueRecord; (repeat' split) <;> (first | rfl | (simp <;> rfl)); done) | (simp only [State.queueRecord]; (repeat' split) <;> (first | rfl | (simp <;> rfl)); done))

/-- `State.faultSlot` changes nothing but `outs`, `dev`, `slots`. -/
@[simp] theorem State.faultSlot_frame (s : State) (slot : Nat) :
    (s.faultSlot slot).cur = s.cur ∧ (s.faultSlot slot).inbox = s.inbox ∧ (s.faultSlot slot).arg = s.arg ∧
    (s.faultSlot slot).agenda = s.agenda ∧ (s.faultSlot slot).timers = s.timers ∧ (s.faultSlot slot).net = s.net ∧
    (s.faultSlot slot).cy = s.cy ∧ (s.faultSlot slot).parts = s.parts ∧ (s.faultSlot slot).pls = s.pls ∧
    (s.faultSlot slot).dies = s.dies ∧ (s.faultSlot slot).hubs = s.hubs ∧ (s.faultSlot slot).arrays = s.arrays ∧
    (s.faultSlot slot).xdies = s.xdies ∧ (s.faultSlot slot).mem = s.mem ∧ (s.faultSlot slot).lines = s.lines ∧
    (s.faultSlot slot).epochs = s.epochs ∧ (s.faultSlot slot).ecc = s.ecc ∧ (∀ q₁, (s.faultSlot slot).part q₁ = s.part q₁) ∧
    (∀ q₁, (s.faultSlot slot).pl q₁ = s.pl q₁) ∧ (∀ q₁, (s.faultSlot slot).die q₁ = s.die q₁) ∧
    (∀ q₁ q₂, (s.faultSlot slot).hub q₁ q₂ = s.hub q₁ q₂) ∧ (∀ q₁ q₂, (s.faultSlot slot).arr q₁ q₂ = s.arr q₁ q₂) ∧
    (∀ q₁, (s.faultSlot slot).xdie q₁ = s.xdie q₁) := by
  refine ⟨?_, ?_, ?_, ?_, ?_, ?_, ?_, ?_, ?_, ?_, ?_, ?_, ?_, ?_, ?_, ?_, ?_, fun _ => ?_, fun _ => ?_, fun _ => ?_, fun _ _ => ?_, fun _ _ => ?_, fun _ => ?_⟩ <;>
    (first | (simp [State.faultSlot] <;> rfl; done) | (unfold State.faultSlot; (repeat' split) <;> (first | rfl | (simp <;> rfl)); done) | (simp only [State.faultSlot]; (repeat' split) <;> (first | rfl | (simp <;> rfl)); done))

/-- `State.setQreg` changes nothing but `dev`. -/
@[simp] theorem State.setQreg_frame (s : State) (q : Nat) (x : Bool × Nat × Bool × Nat × Nat) :
    (s.setQreg q x).cur = s.cur ∧ (s.setQreg q x).inbox = s.inbox ∧ (s.setQreg q x).arg = s.arg ∧
    (s.setQreg q x).agenda = s.agenda ∧ (s.setQreg q x).timers = s.timers ∧ (s.setQreg q x).net = s.net ∧
    (s.setQreg q x).outs = s.outs ∧ (s.setQreg q x).cy = s.cy ∧ (s.setQreg q x).slots = s.slots ∧
    (s.setQreg q x).parts = s.parts ∧ (s.setQreg q x).pls = s.pls ∧ (s.setQreg q x).dies = s.dies ∧
    (s.setQreg q x).hubs = s.hubs ∧ (s.setQreg q x).arrays = s.arrays ∧ (s.setQreg q x).xdies = s.xdies ∧
    (s.setQreg q x).mem = s.mem ∧ (s.setQreg q x).lines = s.lines ∧ (s.setQreg q x).epochs = s.epochs ∧
    (s.setQreg q x).ecc = s.ecc ∧ (∀ q₁, (s.setQreg q x).slot q₁ = s.slot q₁) ∧ (∀ q₁, (s.setQreg q x).part q₁ = s.part q₁) ∧
    (∀ q₁, (s.setQreg q x).pl q₁ = s.pl q₁) ∧ (∀ q₁, (s.setQreg q x).die q₁ = s.die q₁) ∧
    (∀ q₁ q₂, (s.setQreg q x).hub q₁ q₂ = s.hub q₁ q₂) ∧ (∀ q₁ q₂, (s.setQreg q x).arr q₁ q₂ = s.arr q₁ q₂) ∧
    (∀ q₁, (s.setQreg q x).xdie q₁ = s.xdie q₁) :=
  ⟨(rfl), (rfl), (rfl), (rfl), (rfl), (rfl), (rfl), (rfl), (rfl), (rfl), (rfl), (rfl), (rfl), (rfl), (rfl), (rfl), (rfl), (rfl), (rfl), fun _ => (rfl), fun _ => (rfl), fun _ => (rfl), fun _ => (rfl), fun _ _ => (rfl), fun _ _ => (rfl), fun _ => (rfl)⟩

/-- `State.setPend` changes nothing but `dev`. -/
@[simp] theorem State.setPend_frame (s : State) (q : Nat) (b : Bool) :
    (s.setPend q b).cur = s.cur ∧ (s.setPend q b).inbox = s.inbox ∧ (s.setPend q b).arg = s.arg ∧
    (s.setPend q b).agenda = s.agenda ∧ (s.setPend q b).timers = s.timers ∧ (s.setPend q b).net = s.net ∧
    (s.setPend q b).outs = s.outs ∧ (s.setPend q b).cy = s.cy ∧ (s.setPend q b).slots = s.slots ∧
    (s.setPend q b).parts = s.parts ∧ (s.setPend q b).pls = s.pls ∧ (s.setPend q b).dies = s.dies ∧
    (s.setPend q b).hubs = s.hubs ∧ (s.setPend q b).arrays = s.arrays ∧ (s.setPend q b).xdies = s.xdies ∧
    (s.setPend q b).mem = s.mem ∧ (s.setPend q b).lines = s.lines ∧ (s.setPend q b).epochs = s.epochs ∧
    (s.setPend q b).ecc = s.ecc ∧ (∀ q₁, (s.setPend q b).slot q₁ = s.slot q₁) ∧ (∀ q₁, (s.setPend q b).part q₁ = s.part q₁) ∧
    (∀ q₁, (s.setPend q b).pl q₁ = s.pl q₁) ∧ (∀ q₁, (s.setPend q b).die q₁ = s.die q₁) ∧
    (∀ q₁ q₂, (s.setPend q b).hub q₁ q₂ = s.hub q₁ q₂) ∧ (∀ q₁ q₂, (s.setPend q b).arr q₁ q₂ = s.arr q₁ q₂) ∧
    (∀ q₁, (s.setPend q b).xdie q₁ = s.xdie q₁) :=
  ⟨(rfl), (rfl), (rfl), (rfl), (rfl), (rfl), (rfl), (rfl), (rfl), (rfl), (rfl), (rfl), (rfl), (rfl), (rfl), (rfl), (rfl), (rfl), (rfl), fun _ => (rfl), fun _ => (rfl), fun _ => (rfl), fun _ => (rfl), fun _ _ => (rfl), fun _ _ => (rfl), fun _ => (rfl)⟩

/-- `State.kickPort` changes nothing but `timers`, `xdies`. -/
@[simp] theorem State.kickPort_frame (s : State) (pos m : Nat) :
    (s.kickPort pos m).cur = s.cur ∧ (s.kickPort pos m).inbox = s.inbox ∧ (s.kickPort pos m).arg = s.arg ∧
    (s.kickPort pos m).agenda = s.agenda ∧ (s.kickPort pos m).net = s.net ∧ (s.kickPort pos m).outs = s.outs ∧
    (s.kickPort pos m).cy = s.cy ∧ (s.kickPort pos m).dev = s.dev ∧ (s.kickPort pos m).slots = s.slots ∧
    (s.kickPort pos m).parts = s.parts ∧ (s.kickPort pos m).pls = s.pls ∧ (s.kickPort pos m).dies = s.dies ∧
    (s.kickPort pos m).hubs = s.hubs ∧ (s.kickPort pos m).arrays = s.arrays ∧ (s.kickPort pos m).mem = s.mem ∧
    (s.kickPort pos m).lines = s.lines ∧ (s.kickPort pos m).epochs = s.epochs ∧ (s.kickPort pos m).ecc = s.ecc ∧
    (∀ q₁, (s.kickPort pos m).slot q₁ = s.slot q₁) ∧ (∀ q₁, (s.kickPort pos m).part q₁ = s.part q₁) ∧
    (∀ q₁, (s.kickPort pos m).pl q₁ = s.pl q₁) ∧ (∀ q₁, (s.kickPort pos m).die q₁ = s.die q₁) ∧
    (∀ q₁ q₂, (s.kickPort pos m).hub q₁ q₂ = s.hub q₁ q₂) ∧ (∀ q₁ q₂, (s.kickPort pos m).arr q₁ q₂ = s.arr q₁ q₂) := by
  refine ⟨?_, ?_, ?_, ?_, ?_, ?_, ?_, ?_, ?_, ?_, ?_, ?_, ?_, ?_, ?_, ?_, ?_, ?_, fun _ => ?_, fun _ => ?_, fun _ => ?_, fun _ => ?_, fun _ _ => ?_, fun _ _ => ?_⟩ <;>
    (first | (simp [State.kickPort] <;> rfl; done) | (unfold State.kickPort; (repeat' split) <;> (first | rfl | (simp <;> rfl)); done) | (simp only [State.kickPort]; (repeat' split) <;> (first | rfl | (simp <;> rfl)); done))

/-- `State.queueFlit` changes nothing but `timers`, `xdies`. -/
@[simp] theorem State.queueFlit_frame (s : State) (pos m : Nat) (f : Flit) :
    (s.queueFlit pos m f).cur = s.cur ∧ (s.queueFlit pos m f).inbox = s.inbox ∧ (s.queueFlit pos m f).arg = s.arg ∧
    (s.queueFlit pos m f).agenda = s.agenda ∧ (s.queueFlit pos m f).net = s.net ∧ (s.queueFlit pos m f).outs = s.outs ∧
    (s.queueFlit pos m f).cy = s.cy ∧ (s.queueFlit pos m f).dev = s.dev ∧ (s.queueFlit pos m f).slots = s.slots ∧
    (s.queueFlit pos m f).parts = s.parts ∧ (s.queueFlit pos m f).pls = s.pls ∧ (s.queueFlit pos m f).dies = s.dies ∧
    (s.queueFlit pos m f).hubs = s.hubs ∧ (s.queueFlit pos m f).arrays = s.arrays ∧ (s.queueFlit pos m f).mem = s.mem ∧
    (s.queueFlit pos m f).lines = s.lines ∧ (s.queueFlit pos m f).epochs = s.epochs ∧ (s.queueFlit pos m f).ecc = s.ecc ∧
    (∀ q₁, (s.queueFlit pos m f).slot q₁ = s.slot q₁) ∧ (∀ q₁, (s.queueFlit pos m f).part q₁ = s.part q₁) ∧
    (∀ q₁, (s.queueFlit pos m f).pl q₁ = s.pl q₁) ∧ (∀ q₁, (s.queueFlit pos m f).die q₁ = s.die q₁) ∧
    (∀ q₁ q₂, (s.queueFlit pos m f).hub q₁ q₂ = s.hub q₁ q₂) ∧ (∀ q₁ q₂, (s.queueFlit pos m f).arr q₁ q₂ = s.arr q₁ q₂) := by
  refine ⟨?_, ?_, ?_, ?_, ?_, ?_, ?_, ?_, ?_, ?_, ?_, ?_, ?_, ?_, ?_, ?_, ?_, ?_, fun _ => ?_, fun _ => ?_, fun _ => ?_, fun _ => ?_, fun _ _ => ?_, fun _ _ => ?_⟩ <;>
    (first | (simp [State.queueFlit] <;> rfl; done) | (unfold State.queueFlit; (repeat' split) <;> (first | rfl | (simp <;> rfl)); done) | (simp only [State.queueFlit]; (repeat' split) <;> (first | rfl | (simp <;> rfl)); done))

/-- `State.sendFlit` changes nothing but `timers`, `xdies`. -/
@[simp] theorem State.sendFlit_frame (s : State) (pos : Nat) (f : Flit) :
    (s.sendFlit pos f).cur = s.cur ∧ (s.sendFlit pos f).inbox = s.inbox ∧ (s.sendFlit pos f).arg = s.arg ∧
    (s.sendFlit pos f).agenda = s.agenda ∧ (s.sendFlit pos f).net = s.net ∧ (s.sendFlit pos f).outs = s.outs ∧
    (s.sendFlit pos f).cy = s.cy ∧ (s.sendFlit pos f).dev = s.dev ∧ (s.sendFlit pos f).slots = s.slots ∧
    (s.sendFlit pos f).parts = s.parts ∧ (s.sendFlit pos f).pls = s.pls ∧ (s.sendFlit pos f).dies = s.dies ∧
    (s.sendFlit pos f).hubs = s.hubs ∧ (s.sendFlit pos f).arrays = s.arrays ∧ (s.sendFlit pos f).mem = s.mem ∧
    (s.sendFlit pos f).lines = s.lines ∧ (s.sendFlit pos f).epochs = s.epochs ∧ (s.sendFlit pos f).ecc = s.ecc ∧
    (∀ q₁, (s.sendFlit pos f).slot q₁ = s.slot q₁) ∧ (∀ q₁, (s.sendFlit pos f).part q₁ = s.part q₁) ∧
    (∀ q₁, (s.sendFlit pos f).pl q₁ = s.pl q₁) ∧ (∀ q₁, (s.sendFlit pos f).die q₁ = s.die q₁) ∧
    (∀ q₁ q₂, (s.sendFlit pos f).hub q₁ q₂ = s.hub q₁ q₂) ∧ (∀ q₁ q₂, (s.sendFlit pos f).arr q₁ q₂ = s.arr q₁ q₂) := by
  refine ⟨?_, ?_, ?_, ?_, ?_, ?_, ?_, ?_, ?_, ?_, ?_, ?_, ?_, ?_, ?_, ?_, ?_, ?_, fun _ => ?_, fun _ => ?_, fun _ => ?_, fun _ => ?_, fun _ _ => ?_, fun _ _ => ?_⟩ <;>
    (first | (simp [State.sendFlit] <;> rfl; done) | (unfold State.sendFlit; (repeat' split) <;> (first | rfl | (simp <;> rfl)); done) | (simp only [State.sendFlit]; (repeat' split) <;> (first | rfl | (simp <;> rfl)); done))

/-- `State.sendControl` changes nothing but `timers`, `xdies`. -/
@[simp] theorem State.sendControl_frame (s : State) (pos kind c num mine r : Nat) :
    (s.sendControl pos kind c num mine r).cur = s.cur ∧ (s.sendControl pos kind c num mine r).inbox = s.inbox ∧
    (s.sendControl pos kind c num mine r).arg = s.arg ∧ (s.sendControl pos kind c num mine r).agenda = s.agenda ∧
    (s.sendControl pos kind c num mine r).net = s.net ∧ (s.sendControl pos kind c num mine r).outs = s.outs ∧
    (s.sendControl pos kind c num mine r).cy = s.cy ∧ (s.sendControl pos kind c num mine r).dev = s.dev ∧
    (s.sendControl pos kind c num mine r).slots = s.slots ∧ (s.sendControl pos kind c num mine r).parts = s.parts ∧
    (s.sendControl pos kind c num mine r).pls = s.pls ∧ (s.sendControl pos kind c num mine r).dies = s.dies ∧
    (s.sendControl pos kind c num mine r).hubs = s.hubs ∧ (s.sendControl pos kind c num mine r).arrays = s.arrays ∧
    (s.sendControl pos kind c num mine r).mem = s.mem ∧ (s.sendControl pos kind c num mine r).lines = s.lines ∧
    (s.sendControl pos kind c num mine r).epochs = s.epochs ∧ (s.sendControl pos kind c num mine r).ecc = s.ecc ∧
    (∀ q₁, (s.sendControl pos kind c num mine r).slot q₁ = s.slot q₁) ∧
    (∀ q₁, (s.sendControl pos kind c num mine r).part q₁ = s.part q₁) ∧
    (∀ q₁, (s.sendControl pos kind c num mine r).pl q₁ = s.pl q₁) ∧
    (∀ q₁, (s.sendControl pos kind c num mine r).die q₁ = s.die q₁) ∧
    (∀ q₁ q₂, (s.sendControl pos kind c num mine r).hub q₁ q₂ = s.hub q₁ q₂) ∧
    (∀ q₁ q₂, (s.sendControl pos kind c num mine r).arr q₁ q₂ = s.arr q₁ q₂) := by
  refine ⟨?_, ?_, ?_, ?_, ?_, ?_, ?_, ?_, ?_, ?_, ?_, ?_, ?_, ?_, ?_, ?_, ?_, ?_, fun _ => ?_, fun _ => ?_, fun _ => ?_, fun _ => ?_, fun _ _ => ?_, fun _ _ => ?_⟩ <;>
    (first | (simp [State.sendControl] <;> rfl; done) | (unfold State.sendControl; (repeat' split) <;> (first | rfl | (simp <;> rfl)); done) | (simp only [State.sendControl]; (repeat' split) <;> (first | rfl | (simp <;> rfl)); done))

/-- `State.deliverTo` changes nothing but `timers`, `free`, `net`, `netSeq`, `chan`, `dies`. -/
@[simp] theorem State.deliverTo_frame (s : State) (pos part : Nat) (p : EndPacket) :
    (s.deliverTo pos part p).cur = s.cur ∧ (s.deliverTo pos part p).inbox = s.inbox ∧ (s.deliverTo pos part p).arg = s.arg ∧
    (s.deliverTo pos part p).agenda = s.agenda ∧ (s.deliverTo pos part p).outs = s.outs ∧ (s.deliverTo pos part p).cy = s.cy ∧
    (s.deliverTo pos part p).dev = s.dev ∧ (s.deliverTo pos part p).slots = s.slots ∧
    (s.deliverTo pos part p).parts = s.parts ∧ (s.deliverTo pos part p).pls = s.pls ∧ (s.deliverTo pos part p).hubs = s.hubs ∧
    (s.deliverTo pos part p).arrays = s.arrays ∧ (s.deliverTo pos part p).xdies = s.xdies ∧
    (s.deliverTo pos part p).mem = s.mem ∧ (s.deliverTo pos part p).lines = s.lines ∧
    (s.deliverTo pos part p).epochs = s.epochs ∧ (s.deliverTo pos part p).ecc = s.ecc ∧
    (∀ q₁, (s.deliverTo pos part p).slot q₁ = s.slot q₁) ∧ (∀ q₁, (s.deliverTo pos part p).part q₁ = s.part q₁) ∧
    (∀ q₁, (s.deliverTo pos part p).pl q₁ = s.pl q₁) ∧ (∀ q₁ q₂, (s.deliverTo pos part p).hub q₁ q₂ = s.hub q₁ q₂) ∧
    (∀ q₁ q₂, (s.deliverTo pos part p).arr q₁ q₂ = s.arr q₁ q₂) ∧ (∀ q₁, (s.deliverTo pos part p).xdie q₁ = s.xdie q₁) := by
  refine ⟨?_, ?_, ?_, ?_, ?_, ?_, ?_, ?_, ?_, ?_, ?_, ?_, ?_, ?_, ?_, ?_, ?_, fun _ => ?_, fun _ => ?_, fun _ => ?_, fun _ _ => ?_, fun _ _ => ?_, fun _ => ?_⟩ <;>
    (first | (simp [State.deliverTo] <;> rfl; done) | (unfold State.deliverTo; (repeat' split) <;> (first | rfl | (simp <;> rfl)); done) | (simp only [State.deliverTo]; (repeat' split) <;> (first | rfl | (simp <;> rfl)); done))

/-- `State.endOp` changes nothing but `free`, `hubs`, `xdies`. -/
@[simp] theorem State.endOp_frame (s : State) (pos c status : Nat) :
    (s.endOp pos c status).cur = s.cur ∧ (s.endOp pos c status).inbox = s.inbox ∧ (s.endOp pos c status).arg = s.arg ∧
    (s.endOp pos c status).agenda = s.agenda ∧ (s.endOp pos c status).timers = s.timers ∧ (s.endOp pos c status).net = s.net ∧
    (s.endOp pos c status).outs = s.outs ∧ (s.endOp pos c status).cy = s.cy ∧ (s.endOp pos c status).dev = s.dev ∧
    (s.endOp pos c status).slots = s.slots ∧ (s.endOp pos c status).parts = s.parts ∧ (s.endOp pos c status).pls = s.pls ∧
    (s.endOp pos c status).dies = s.dies ∧ (s.endOp pos c status).arrays = s.arrays ∧ (s.endOp pos c status).mem = s.mem ∧
    (s.endOp pos c status).lines = s.lines ∧ (s.endOp pos c status).epochs = s.epochs ∧ (s.endOp pos c status).ecc = s.ecc ∧
    (∀ q₁, (s.endOp pos c status).slot q₁ = s.slot q₁) ∧ (∀ q₁, (s.endOp pos c status).part q₁ = s.part q₁) ∧
    (∀ q₁, (s.endOp pos c status).pl q₁ = s.pl q₁) ∧ (∀ q₁, (s.endOp pos c status).die q₁ = s.die q₁) ∧
    (∀ q₁ q₂, (s.endOp pos c status).arr q₁ q₂ = s.arr q₁ q₂) := by
  refine ⟨?_, ?_, ?_, ?_, ?_, ?_, ?_, ?_, ?_, ?_, ?_, ?_, ?_, ?_, ?_, ?_, ?_, ?_, fun _ => ?_, fun _ => ?_, fun _ => ?_, fun _ => ?_, fun _ _ => ?_⟩ <;>
    (first | (simp [State.endOp] <;> rfl; done) | (unfold State.endOp; (repeat' split) <;> (first | rfl | (simp <;> rfl)); done) | (simp only [State.endOp]; (repeat' split) <;> (first | rfl | (simp <;> rfl)); done))

/-- `State.suppressed` changes nothing but `timers`, `free`, `net`, `netSeq`, `dies`. -/
@[simp] theorem State.suppressed_frame (s : State) (pos c : Nat) :
    (s.suppressed pos c).cur = s.cur ∧ (s.suppressed pos c).inbox = s.inbox ∧ (s.suppressed pos c).arg = s.arg ∧
    (s.suppressed pos c).agenda = s.agenda ∧ (s.suppressed pos c).outs = s.outs ∧ (s.suppressed pos c).cy = s.cy ∧
    (s.suppressed pos c).dev = s.dev ∧ (s.suppressed pos c).slots = s.slots ∧ (s.suppressed pos c).parts = s.parts ∧
    (s.suppressed pos c).pls = s.pls ∧ (s.suppressed pos c).hubs = s.hubs ∧ (s.suppressed pos c).arrays = s.arrays ∧
    (s.suppressed pos c).xdies = s.xdies ∧ (s.suppressed pos c).mem = s.mem ∧ (s.suppressed pos c).lines = s.lines ∧
    (s.suppressed pos c).epochs = s.epochs ∧ (s.suppressed pos c).ecc = s.ecc ∧
    (∀ q₁, (s.suppressed pos c).slot q₁ = s.slot q₁) ∧ (∀ q₁, (s.suppressed pos c).part q₁ = s.part q₁) ∧
    (∀ q₁, (s.suppressed pos c).pl q₁ = s.pl q₁) ∧ (∀ q₁ q₂, (s.suppressed pos c).hub q₁ q₂ = s.hub q₁ q₂) ∧
    (∀ q₁ q₂, (s.suppressed pos c).arr q₁ q₂ = s.arr q₁ q₂) ∧ (∀ q₁, (s.suppressed pos c).xdie q₁ = s.xdie q₁) := by
  refine ⟨?_, ?_, ?_, ?_, ?_, ?_, ?_, ?_, ?_, ?_, ?_, ?_, ?_, ?_, ?_, ?_, ?_, fun _ => ?_, fun _ => ?_, fun _ => ?_, fun _ _ => ?_, fun _ _ => ?_, fun _ => ?_⟩ <;>
    (first | (simp [State.suppressed] <;> rfl; done) | (unfold State.suppressed; (repeat' split) <;> (first | rfl | (simp <;> rfl)); done) | (simp only [State.suppressed]; (repeat' split) <;> (first | rfl | (simp <;> rfl)); done))

/-- `State.finishColl` changes nothing but `timers`, `free`, `net`, `netSeq`, `dies`, `hubs`, `xdies`. -/
@[simp] theorem State.finishColl_frame (s : State) (pos c : Nat) :
    (s.finishColl pos c).cur = s.cur ∧ (s.finishColl pos c).inbox = s.inbox ∧ (s.finishColl pos c).arg = s.arg ∧
    (s.finishColl pos c).agenda = s.agenda ∧ (s.finishColl pos c).outs = s.outs ∧ (s.finishColl pos c).cy = s.cy ∧
    (s.finishColl pos c).dev = s.dev ∧ (s.finishColl pos c).slots = s.slots ∧ (s.finishColl pos c).parts = s.parts ∧
    (s.finishColl pos c).pls = s.pls ∧ (s.finishColl pos c).arrays = s.arrays ∧ (s.finishColl pos c).mem = s.mem ∧
    (s.finishColl pos c).lines = s.lines ∧ (s.finishColl pos c).epochs = s.epochs ∧ (s.finishColl pos c).ecc = s.ecc ∧
    (∀ q₁, (s.finishColl pos c).slot q₁ = s.slot q₁) ∧ (∀ q₁, (s.finishColl pos c).part q₁ = s.part q₁) ∧
    (∀ q₁, (s.finishColl pos c).pl q₁ = s.pl q₁) ∧ (∀ q₁ q₂, (s.finishColl pos c).arr q₁ q₂ = s.arr q₁ q₂) := by
  refine ⟨?_, ?_, ?_, ?_, ?_, ?_, ?_, ?_, ?_, ?_, ?_, ?_, ?_, ?_, ?_, fun _ => ?_, fun _ => ?_, fun _ => ?_, fun _ _ => ?_⟩ <;>
    (first | (simp [State.finishColl] <;> rfl; done) | (unfold State.finishColl; (repeat' split) <;> (first | rfl | (simp <;> rfl)); done) | (simp only [State.finishColl]; (repeat' split) <;> (first | rfl | (simp <;> rfl)); done))

/-- `State.extendDev` changes nothing but `dev`. -/
@[simp] theorem State.extendDev_frame (s : State) (i : Nat) (bs : List Byte) :
    (s.extendDev i bs).cur = s.cur ∧ (s.extendDev i bs).inbox = s.inbox ∧ (s.extendDev i bs).arg = s.arg ∧
    (s.extendDev i bs).agenda = s.agenda ∧ (s.extendDev i bs).timers = s.timers ∧ (s.extendDev i bs).net = s.net ∧
    (s.extendDev i bs).outs = s.outs ∧ (s.extendDev i bs).cy = s.cy ∧ (s.extendDev i bs).slots = s.slots ∧
    (s.extendDev i bs).parts = s.parts ∧ (s.extendDev i bs).pls = s.pls ∧ (s.extendDev i bs).dies = s.dies ∧
    (s.extendDev i bs).hubs = s.hubs ∧ (s.extendDev i bs).arrays = s.arrays ∧ (s.extendDev i bs).xdies = s.xdies ∧
    (s.extendDev i bs).mem = s.mem ∧ (s.extendDev i bs).lines = s.lines ∧ (s.extendDev i bs).epochs = s.epochs ∧
    (s.extendDev i bs).ecc = s.ecc ∧ (∀ q₁, (s.extendDev i bs).slot q₁ = s.slot q₁) ∧
    (∀ q₁, (s.extendDev i bs).part q₁ = s.part q₁) ∧ (∀ q₁, (s.extendDev i bs).pl q₁ = s.pl q₁) ∧
    (∀ q₁, (s.extendDev i bs).die q₁ = s.die q₁) ∧ (∀ q₁ q₂, (s.extendDev i bs).hub q₁ q₂ = s.hub q₁ q₂) ∧
    (∀ q₁ q₂, (s.extendDev i bs).arr q₁ q₂ = s.arr q₁ q₂) ∧ (∀ q₁, (s.extendDev i bs).xdie q₁ = s.xdie q₁) :=
  ⟨(rfl), (rfl), (rfl), (rfl), (rfl), (rfl), (rfl), (rfl), (rfl), (rfl), (rfl), (rfl), (rfl), (rfl), (rfl), (rfl), (rfl), (rfl), (rfl), fun _ => (rfl), fun _ => (rfl), fun _ => (rfl), fun _ => (rfl), fun _ _ => (rfl), fun _ _ => (rfl), fun _ => (rfl)⟩

/-- `State.extendPart` changes nothing but `parts`. -/
@[simp] theorem State.extendPart_frame (s : State) (part i : Nat) (bs : List Byte) :
    (s.extendPart part i bs).cur = s.cur ∧ (s.extendPart part i bs).inbox = s.inbox ∧ (s.extendPart part i bs).arg = s.arg ∧
    (s.extendPart part i bs).agenda = s.agenda ∧ (s.extendPart part i bs).timers = s.timers ∧
    (s.extendPart part i bs).net = s.net ∧ (s.extendPart part i bs).outs = s.outs ∧ (s.extendPart part i bs).cy = s.cy ∧
    (s.extendPart part i bs).dev = s.dev ∧ (s.extendPart part i bs).slots = s.slots ∧ (s.extendPart part i bs).pls = s.pls ∧
    (s.extendPart part i bs).dies = s.dies ∧ (s.extendPart part i bs).hubs = s.hubs ∧
    (s.extendPart part i bs).arrays = s.arrays ∧ (s.extendPart part i bs).xdies = s.xdies ∧
    (s.extendPart part i bs).mem = s.mem ∧ (s.extendPart part i bs).lines = s.lines ∧
    (s.extendPart part i bs).epochs = s.epochs ∧ (s.extendPart part i bs).ecc = s.ecc ∧
    (∀ q₁, (s.extendPart part i bs).slot q₁ = s.slot q₁) ∧ (∀ q₁, (s.extendPart part i bs).pl q₁ = s.pl q₁) ∧
    (∀ q₁, (s.extendPart part i bs).die q₁ = s.die q₁) ∧ (∀ q₁ q₂, (s.extendPart part i bs).hub q₁ q₂ = s.hub q₁ q₂) ∧
    (∀ q₁ q₂, (s.extendPart part i bs).arr q₁ q₂ = s.arr q₁ q₂) ∧ (∀ q₁, (s.extendPart part i bs).xdie q₁ = s.xdie q₁) :=
  ⟨(rfl), (rfl), (rfl), (rfl), (rfl), (rfl), (rfl), (rfl), (rfl), (rfl), (rfl), (rfl), (rfl), (rfl), (rfl), (rfl), (rfl), (rfl), (rfl), fun _ => (rfl), fun _ => (rfl), fun _ => (rfl), fun _ _ => (rfl), fun _ _ => (rfl), fun _ => (rfl)⟩

/-- `State.installKey` changes nothing but `dies`. -/
@[simp] theorem State.installKey_frame (s : State) (part : Nat) :
    (s.installKey part).cur = s.cur ∧ (s.installKey part).inbox = s.inbox ∧ (s.installKey part).arg = s.arg ∧
    (s.installKey part).agenda = s.agenda ∧ (s.installKey part).timers = s.timers ∧ (s.installKey part).net = s.net ∧
    (s.installKey part).outs = s.outs ∧ (s.installKey part).cy = s.cy ∧ (s.installKey part).dev = s.dev ∧
    (s.installKey part).slots = s.slots ∧ (s.installKey part).parts = s.parts ∧ (s.installKey part).pls = s.pls ∧
    (s.installKey part).hubs = s.hubs ∧ (s.installKey part).arrays = s.arrays ∧ (s.installKey part).xdies = s.xdies ∧
    (s.installKey part).mem = s.mem ∧ (s.installKey part).lines = s.lines ∧ (s.installKey part).epochs = s.epochs ∧
    (s.installKey part).ecc = s.ecc ∧ (∀ q₁, (s.installKey part).slot q₁ = s.slot q₁) ∧
    (∀ q₁, (s.installKey part).part q₁ = s.part q₁) ∧ (∀ q₁, (s.installKey part).pl q₁ = s.pl q₁) ∧
    (∀ q₁ q₂, (s.installKey part).hub q₁ q₂ = s.hub q₁ q₂) ∧ (∀ q₁ q₂, (s.installKey part).arr q₁ q₂ = s.arr q₁ q₂) ∧
    (∀ q₁, (s.installKey part).xdie q₁ = s.xdie q₁) :=
  ⟨(rfl), (rfl), (rfl), (rfl), (rfl), (rfl), (rfl), (rfl), (rfl), (rfl), (rfl), (rfl), (rfl), (rfl), (rfl), (rfl), (rfl), (rfl), (rfl), fun _ => (rfl), fun _ => (rfl), fun _ => (rfl), fun _ _ => (rfl), fun _ _ => (rfl), fun _ => (rfl)⟩

/-- `State.respond` changes nothing but `timers`, `free`, `dev`, `parts`. -/
@[simp] theorem State.respond_frame (s : State) (fn : Nat) (ws : List Nat) :
    (s.respond fn ws).cur = s.cur ∧ (s.respond fn ws).inbox = s.inbox ∧ (s.respond fn ws).arg = s.arg ∧
    (s.respond fn ws).agenda = s.agenda ∧ (s.respond fn ws).net = s.net ∧ (s.respond fn ws).outs = s.outs ∧
    (s.respond fn ws).cy = s.cy ∧ (s.respond fn ws).slots = s.slots ∧ (s.respond fn ws).pls = s.pls ∧
    (s.respond fn ws).dies = s.dies ∧ (s.respond fn ws).hubs = s.hubs ∧ (s.respond fn ws).arrays = s.arrays ∧
    (s.respond fn ws).xdies = s.xdies ∧ (s.respond fn ws).mem = s.mem ∧ (s.respond fn ws).lines = s.lines ∧
    (s.respond fn ws).epochs = s.epochs ∧ (s.respond fn ws).ecc = s.ecc ∧ (∀ q₁, (s.respond fn ws).slot q₁ = s.slot q₁) ∧
    (∀ q₁, (s.respond fn ws).pl q₁ = s.pl q₁) ∧ (∀ q₁, (s.respond fn ws).die q₁ = s.die q₁) ∧
    (∀ q₁ q₂, (s.respond fn ws).hub q₁ q₂ = s.hub q₁ q₂) ∧ (∀ q₁ q₂, (s.respond fn ws).arr q₁ q₂ = s.arr q₁ q₂) ∧
    (∀ q₁, (s.respond fn ws).xdie q₁ = s.xdie q₁) := by
  refine ⟨?_, ?_, ?_, ?_, ?_, ?_, ?_, ?_, ?_, ?_, ?_, ?_, ?_, ?_, ?_, ?_, ?_, fun _ => ?_, fun _ => ?_, fun _ => ?_, fun _ _ => ?_, fun _ _ => ?_, fun _ => ?_⟩ <;>
    (first | (simp [State.respond] <;> rfl; done) | (unfold State.respond; (repeat' split) <;> (first | rfl | (simp <;> rfl)); done) | (simp only [State.respond]; (repeat' split) <;> (first | rfl | (simp <;> rfl)); done))

/-- `State.dogRecord` changes nothing but `outs`, `dev`, `slots`, `parts`, `mem`, `lines`, `epochs`, `ecc`. -/
@[simp] theorem State.dogRecord_frame (s : State) (slot sub : Nat) :
    (s.dogRecord slot sub).cur = s.cur ∧ (s.dogRecord slot sub).inbox = s.inbox ∧ (s.dogRecord slot sub).arg = s.arg ∧
    (s.dogRecord slot sub).agenda = s.agenda ∧ (s.dogRecord slot sub).timers = s.timers ∧ (s.dogRecord slot sub).net = s.net ∧
    (s.dogRecord slot sub).cy = s.cy ∧ (s.dogRecord slot sub).pls = s.pls ∧ (s.dogRecord slot sub).dies = s.dies ∧
    (s.dogRecord slot sub).hubs = s.hubs ∧ (s.dogRecord slot sub).arrays = s.arrays ∧ (s.dogRecord slot sub).xdies = s.xdies ∧
    (∀ q₁, (s.dogRecord slot sub).pl q₁ = s.pl q₁) ∧ (∀ q₁, (s.dogRecord slot sub).die q₁ = s.die q₁) ∧
    (∀ q₁ q₂, (s.dogRecord slot sub).hub q₁ q₂ = s.hub q₁ q₂) ∧ (∀ q₁ q₂, (s.dogRecord slot sub).arr q₁ q₂ = s.arr q₁ q₂) ∧
    (∀ q₁, (s.dogRecord slot sub).xdie q₁ = s.xdie q₁) := by
  refine ⟨?_, ?_, ?_, ?_, ?_, ?_, ?_, ?_, ?_, ?_, ?_, ?_, fun _ => ?_, fun _ => ?_, fun _ _ => ?_, fun _ _ => ?_, fun _ => ?_⟩ <;>
    (first | (simp [State.dogRecord] <;> rfl; done) | (unfold State.dogRecord; (repeat' split) <;> (first | rfl | (simp <;> rfl)); done) | (simp only [State.dogRecord]; (repeat' split) <;> (first | rfl | (simp <;> rfl)); done))

/-- `State.setQcb` changes nothing but `slots`. -/
@[simp] theorem State.setQcb_frame (s : State) (slot : Nat) (f : Qcb → Qcb) :
    (s.setQcb slot f).cur = s.cur ∧ (s.setQcb slot f).inbox = s.inbox ∧ (s.setQcb slot f).arg = s.arg ∧
    (s.setQcb slot f).agenda = s.agenda ∧ (s.setQcb slot f).timers = s.timers ∧ (s.setQcb slot f).net = s.net ∧
    (s.setQcb slot f).outs = s.outs ∧ (s.setQcb slot f).cy = s.cy ∧ (s.setQcb slot f).dev = s.dev ∧
    (s.setQcb slot f).parts = s.parts ∧ (s.setQcb slot f).pls = s.pls ∧ (s.setQcb slot f).dies = s.dies ∧
    (s.setQcb slot f).hubs = s.hubs ∧ (s.setQcb slot f).arrays = s.arrays ∧ (s.setQcb slot f).xdies = s.xdies ∧
    (s.setQcb slot f).mem = s.mem ∧ (s.setQcb slot f).lines = s.lines ∧ (s.setQcb slot f).epochs = s.epochs ∧
    (s.setQcb slot f).ecc = s.ecc ∧ (∀ q₁, (s.setQcb slot f).part q₁ = s.part q₁) ∧ (∀ q₁, (s.setQcb slot f).pl q₁ = s.pl q₁) ∧
    (∀ q₁, (s.setQcb slot f).die q₁ = s.die q₁) ∧ (∀ q₁ q₂, (s.setQcb slot f).hub q₁ q₂ = s.hub q₁ q₂) ∧
    (∀ q₁ q₂, (s.setQcb slot f).arr q₁ q₂ = s.arr q₁ q₂) ∧ (∀ q₁, (s.setQcb slot f).xdie q₁ = s.xdie q₁) :=
  ⟨(rfl), (rfl), (rfl), (rfl), (rfl), (rfl), (rfl), (rfl), (rfl), (rfl), (rfl), (rfl), (rfl), (rfl), (rfl), (rfl), (rfl), (rfl), (rfl), fun _ => (rfl), fun _ => (rfl), fun _ => (rfl), fun _ _ => (rfl), fun _ _ => (rfl), fun _ => (rfl)⟩

/-- `State.wake` changes nothing but `dev`. -/
@[simp] theorem State.wake_frame (s : State) (q part : Nat) :
    (s.wake q part).cur = s.cur ∧ (s.wake q part).inbox = s.inbox ∧ (s.wake q part).arg = s.arg ∧
    (s.wake q part).agenda = s.agenda ∧ (s.wake q part).timers = s.timers ∧ (s.wake q part).net = s.net ∧
    (s.wake q part).outs = s.outs ∧ (s.wake q part).cy = s.cy ∧ (s.wake q part).slots = s.slots ∧
    (s.wake q part).parts = s.parts ∧ (s.wake q part).pls = s.pls ∧ (s.wake q part).dies = s.dies ∧
    (s.wake q part).hubs = s.hubs ∧ (s.wake q part).arrays = s.arrays ∧ (s.wake q part).xdies = s.xdies ∧
    (s.wake q part).mem = s.mem ∧ (s.wake q part).lines = s.lines ∧ (s.wake q part).epochs = s.epochs ∧
    (s.wake q part).ecc = s.ecc ∧ (∀ q₁, (s.wake q part).slot q₁ = s.slot q₁) ∧ (∀ q₁, (s.wake q part).part q₁ = s.part q₁) ∧
    (∀ q₁, (s.wake q part).pl q₁ = s.pl q₁) ∧ (∀ q₁, (s.wake q part).die q₁ = s.die q₁) ∧
    (∀ q₁ q₂, (s.wake q part).hub q₁ q₂ = s.hub q₁ q₂) ∧ (∀ q₁ q₂, (s.wake q part).arr q₁ q₂ = s.arr q₁ q₂) ∧
    (∀ q₁, (s.wake q part).xdie q₁ = s.xdie q₁) := by
  refine ⟨?_, ?_, ?_, ?_, ?_, ?_, ?_, ?_, ?_, ?_, ?_, ?_, ?_, ?_, ?_, ?_, ?_, ?_, ?_, fun _ => ?_, fun _ => ?_, fun _ => ?_, fun _ => ?_, fun _ _ => ?_, fun _ _ => ?_, fun _ => ?_⟩ <;>
    (first | (simp [State.wake] <;> rfl; done) | (unfold State.wake; (repeat' split) <;> (first | rfl | (simp <;> rfl)); done) | (simp only [State.wake]; (repeat' split) <;> (first | rfl | (simp <;> rfl)); done))

/-- `State.wakeDies` changes nothing but `inbox`. -/
@[simp] theorem State.wakeDies_frame (s : State) :
    (s.wakeDies).cur = s.cur ∧ (s.wakeDies).arg = s.arg ∧ (s.wakeDies).agenda = s.agenda ∧ (s.wakeDies).timers = s.timers ∧
    (s.wakeDies).net = s.net ∧ (s.wakeDies).outs = s.outs ∧ (s.wakeDies).cy = s.cy ∧ (s.wakeDies).dev = s.dev ∧
    (s.wakeDies).slots = s.slots ∧ (s.wakeDies).parts = s.parts ∧ (s.wakeDies).pls = s.pls ∧ (s.wakeDies).dies = s.dies ∧
    (s.wakeDies).hubs = s.hubs ∧ (s.wakeDies).arrays = s.arrays ∧ (s.wakeDies).xdies = s.xdies ∧ (s.wakeDies).mem = s.mem ∧
    (s.wakeDies).lines = s.lines ∧ (s.wakeDies).epochs = s.epochs ∧ (s.wakeDies).ecc = s.ecc ∧
    (∀ q₁, (s.wakeDies).slot q₁ = s.slot q₁) ∧ (∀ q₁, (s.wakeDies).part q₁ = s.part q₁) ∧
    (∀ q₁, (s.wakeDies).pl q₁ = s.pl q₁) ∧ (∀ q₁, (s.wakeDies).die q₁ = s.die q₁) ∧
    (∀ q₁ q₂, (s.wakeDies).hub q₁ q₂ = s.hub q₁ q₂) ∧ (∀ q₁ q₂, (s.wakeDies).arr q₁ q₂ = s.arr q₁ q₂) ∧
    (∀ q₁, (s.wakeDies).xdie q₁ = s.xdie q₁) := by
  refine ⟨?_, ?_, ?_, ?_, ?_, ?_, ?_, ?_, ?_, ?_, ?_, ?_, ?_, ?_, ?_, ?_, ?_, ?_, ?_, fun _ => ?_, fun _ => ?_, fun _ => ?_, fun _ => ?_, fun _ _ => ?_, fun _ _ => ?_, fun _ => ?_⟩ <;>
    (first | (simp [State.wakeDies] <;> rfl; done) | (unfold State.wakeDies; (repeat' split) <;> (first | rfl | (simp <;> rfl)); done) | (simp only [State.wakeDies]; (repeat' split) <;> (first | rfl | (simp <;> rfl)); done))

/-- `State.wakeDevice` changes nothing but `inbox`. -/
@[simp] theorem State.wakeDevice_frame (s : State) :
    (s.wakeDevice).cur = s.cur ∧ (s.wakeDevice).arg = s.arg ∧ (s.wakeDevice).agenda = s.agenda ∧
    (s.wakeDevice).timers = s.timers ∧ (s.wakeDevice).net = s.net ∧ (s.wakeDevice).outs = s.outs ∧ (s.wakeDevice).cy = s.cy ∧
    (s.wakeDevice).dev = s.dev ∧ (s.wakeDevice).slots = s.slots ∧ (s.wakeDevice).parts = s.parts ∧ (s.wakeDevice).pls = s.pls ∧
    (s.wakeDevice).dies = s.dies ∧ (s.wakeDevice).hubs = s.hubs ∧ (s.wakeDevice).arrays = s.arrays ∧
    (s.wakeDevice).xdies = s.xdies ∧ (s.wakeDevice).mem = s.mem ∧ (s.wakeDevice).lines = s.lines ∧
    (s.wakeDevice).epochs = s.epochs ∧ (s.wakeDevice).ecc = s.ecc ∧ (∀ q₁, (s.wakeDevice).slot q₁ = s.slot q₁) ∧
    (∀ q₁, (s.wakeDevice).part q₁ = s.part q₁) ∧ (∀ q₁, (s.wakeDevice).pl q₁ = s.pl q₁) ∧
    (∀ q₁, (s.wakeDevice).die q₁ = s.die q₁) ∧ (∀ q₁ q₂, (s.wakeDevice).hub q₁ q₂ = s.hub q₁ q₂) ∧
    (∀ q₁ q₂, (s.wakeDevice).arr q₁ q₂ = s.arr q₁ q₂) ∧ (∀ q₁, (s.wakeDevice).xdie q₁ = s.xdie q₁) := by
  refine ⟨?_, ?_, ?_, ?_, ?_, ?_, ?_, ?_, ?_, ?_, ?_, ?_, ?_, ?_, ?_, ?_, ?_, ?_, ?_, fun _ => ?_, fun _ => ?_, fun _ => ?_, fun _ => ?_, fun _ _ => ?_, fun _ _ => ?_, fun _ => ?_⟩ <;>
    (first | (simp [State.wakeDevice] <;> rfl; done) | (unfold State.wakeDevice; (repeat' split) <;> (first | rfl | (simp <;> rfl)); done) | (simp only [State.wakeDevice]; (repeat' split) <;> (first | rfl | (simp <;> rfl)); done))

/-- `State.setHold` changes nothing but `slots`, `parts`. -/
@[simp] theorem State.setHold_frame (s : State) (slot : Nat) (b : Bool) :
    (s.setHold slot b).cur = s.cur ∧ (s.setHold slot b).inbox = s.inbox ∧ (s.setHold slot b).arg = s.arg ∧
    (s.setHold slot b).agenda = s.agenda ∧ (s.setHold slot b).timers = s.timers ∧ (s.setHold slot b).net = s.net ∧
    (s.setHold slot b).outs = s.outs ∧ (s.setHold slot b).cy = s.cy ∧ (s.setHold slot b).dev = s.dev ∧
    (s.setHold slot b).pls = s.pls ∧ (s.setHold slot b).dies = s.dies ∧ (s.setHold slot b).hubs = s.hubs ∧
    (s.setHold slot b).arrays = s.arrays ∧ (s.setHold slot b).xdies = s.xdies ∧ (s.setHold slot b).mem = s.mem ∧
    (s.setHold slot b).lines = s.lines ∧ (s.setHold slot b).epochs = s.epochs ∧ (s.setHold slot b).ecc = s.ecc ∧
    (∀ q₁, (s.setHold slot b).pl q₁ = s.pl q₁) ∧ (∀ q₁, (s.setHold slot b).die q₁ = s.die q₁) ∧
    (∀ q₁ q₂, (s.setHold slot b).hub q₁ q₂ = s.hub q₁ q₂) ∧ (∀ q₁ q₂, (s.setHold slot b).arr q₁ q₂ = s.arr q₁ q₂) ∧
    (∀ q₁, (s.setHold slot b).xdie q₁ = s.xdie q₁) := by
  refine ⟨?_, ?_, ?_, ?_, ?_, ?_, ?_, ?_, ?_, ?_, ?_, ?_, ?_, ?_, ?_, ?_, ?_, ?_, fun _ => ?_, fun _ => ?_, fun _ _ => ?_, fun _ _ => ?_, fun _ => ?_⟩ <;>
    (first | (simp [State.setHold] <;> rfl; done) | (unfold State.setHold; (repeat' split) <;> (first | rfl | (simp <;> rfl)); done) | (simp only [State.setHold]; (repeat' split) <;> (first | rfl | (simp <;> rfl)); done))

/-- `State.slotErr` changes nothing but `slots`. -/
@[simp] theorem State.slotErr_frame (s : State) (slot e : Nat) :
    (s.slotErr slot e).cur = s.cur ∧ (s.slotErr slot e).inbox = s.inbox ∧ (s.slotErr slot e).arg = s.arg ∧
    (s.slotErr slot e).agenda = s.agenda ∧ (s.slotErr slot e).timers = s.timers ∧ (s.slotErr slot e).net = s.net ∧
    (s.slotErr slot e).outs = s.outs ∧ (s.slotErr slot e).cy = s.cy ∧ (s.slotErr slot e).dev = s.dev ∧
    (s.slotErr slot e).parts = s.parts ∧ (s.slotErr slot e).pls = s.pls ∧ (s.slotErr slot e).dies = s.dies ∧
    (s.slotErr slot e).hubs = s.hubs ∧ (s.slotErr slot e).arrays = s.arrays ∧ (s.slotErr slot e).xdies = s.xdies ∧
    (s.slotErr slot e).mem = s.mem ∧ (s.slotErr slot e).lines = s.lines ∧ (s.slotErr slot e).epochs = s.epochs ∧
    (s.slotErr slot e).ecc = s.ecc ∧ (∀ q₁, (s.slotErr slot e).part q₁ = s.part q₁) ∧
    (∀ q₁, (s.slotErr slot e).pl q₁ = s.pl q₁) ∧ (∀ q₁, (s.slotErr slot e).die q₁ = s.die q₁) ∧
    (∀ q₁ q₂, (s.slotErr slot e).hub q₁ q₂ = s.hub q₁ q₂) ∧ (∀ q₁ q₂, (s.slotErr slot e).arr q₁ q₂ = s.arr q₁ q₂) ∧
    (∀ q₁, (s.slotErr slot e).xdie q₁ = s.xdie q₁) :=
  ⟨(rfl), (rfl), (rfl), (rfl), (rfl), (rfl), (rfl), (rfl), (rfl), (rfl), (rfl), (rfl), (rfl), (rfl), (rfl), (rfl), (rfl), (rfl), (rfl), fun _ => (rfl), fun _ => (rfl), fun _ => (rfl), fun _ _ => (rfl), fun _ _ => (rfl), fun _ => (rfl)⟩

/-- `State.raise` changes nothing but `inbox`. -/
@[simp] theorem State.raise_frame (s : State) (i : Instr) (a : Arg) :
    (s.raise i a).cur = s.cur ∧ (s.raise i a).arg = s.arg ∧ (s.raise i a).agenda = s.agenda ∧ (s.raise i a).timers = s.timers ∧
    (s.raise i a).net = s.net ∧ (s.raise i a).outs = s.outs ∧ (s.raise i a).cy = s.cy ∧ (s.raise i a).dev = s.dev ∧
    (s.raise i a).slots = s.slots ∧ (s.raise i a).parts = s.parts ∧ (s.raise i a).pls = s.pls ∧ (s.raise i a).dies = s.dies ∧
    (s.raise i a).hubs = s.hubs ∧ (s.raise i a).arrays = s.arrays ∧ (s.raise i a).xdies = s.xdies ∧ (s.raise i a).mem = s.mem ∧
    (s.raise i a).lines = s.lines ∧ (s.raise i a).epochs = s.epochs ∧ (s.raise i a).ecc = s.ecc ∧
    (∀ q₁, (s.raise i a).slot q₁ = s.slot q₁) ∧ (∀ q₁, (s.raise i a).part q₁ = s.part q₁) ∧
    (∀ q₁, (s.raise i a).pl q₁ = s.pl q₁) ∧ (∀ q₁, (s.raise i a).die q₁ = s.die q₁) ∧
    (∀ q₁ q₂, (s.raise i a).hub q₁ q₂ = s.hub q₁ q₂) ∧ (∀ q₁ q₂, (s.raise i a).arr q₁ q₂ = s.arr q₁ q₂) ∧
    (∀ q₁, (s.raise i a).xdie q₁ = s.xdie q₁) :=
  ⟨(rfl), (rfl), (rfl), (rfl), (rfl), (rfl), (rfl), (rfl), (rfl), (rfl), (rfl), (rfl), (rfl), (rfl), (rfl), (rfl), (rfl), (rfl), (rfl), fun _ => (rfl), fun _ => (rfl), fun _ => (rfl), fun _ => (rfl), fun _ _ => (rfl), fun _ _ => (rfl), fun _ => (rfl)⟩

/-- `State.boot` changes nothing but `outs`, `dev`. -/
@[simp] theorem State.boot_frame (s : State) (f : Dev → Dev) :
    (s.boot f).cur = s.cur ∧ (s.boot f).inbox = s.inbox ∧ (s.boot f).arg = s.arg ∧ (s.boot f).agenda = s.agenda ∧
    (s.boot f).timers = s.timers ∧ (s.boot f).net = s.net ∧ (s.boot f).cy = s.cy ∧ (s.boot f).slots = s.slots ∧
    (s.boot f).parts = s.parts ∧ (s.boot f).pls = s.pls ∧ (s.boot f).dies = s.dies ∧ (s.boot f).hubs = s.hubs ∧
    (s.boot f).arrays = s.arrays ∧ (s.boot f).xdies = s.xdies ∧ (s.boot f).mem = s.mem ∧ (s.boot f).lines = s.lines ∧
    (s.boot f).epochs = s.epochs ∧ (s.boot f).ecc = s.ecc ∧ (∀ q₁, (s.boot f).slot q₁ = s.slot q₁) ∧
    (∀ q₁, (s.boot f).part q₁ = s.part q₁) ∧ (∀ q₁, (s.boot f).pl q₁ = s.pl q₁) ∧ (∀ q₁, (s.boot f).die q₁ = s.die q₁) ∧
    (∀ q₁ q₂, (s.boot f).hub q₁ q₂ = s.hub q₁ q₂) ∧ (∀ q₁ q₂, (s.boot f).arr q₁ q₂ = s.arr q₁ q₂) ∧
    (∀ q₁, (s.boot f).xdie q₁ = s.xdie q₁) := by
  refine ⟨?_, ?_, ?_, ?_, ?_, ?_, ?_, ?_, ?_, ?_, ?_, ?_, ?_, ?_, ?_, ?_, ?_, ?_, fun _ => ?_, fun _ => ?_, fun _ => ?_, fun _ => ?_, fun _ _ => ?_, fun _ _ => ?_, fun _ => ?_⟩ <;>
    (first | (simp [State.boot] <;> rfl; done) | (unfold State.boot; (repeat' split) <;> (first | rfl | (simp <;> rfl)); done) | (simp only [State.boot]; (repeat' split) <;> (first | rfl | (simp <;> rfl)); done))

/-- `State.stage` changes nothing but `outs`, `dev`. -/
@[simp] theorem State.stage_frame (s : State) (n : Nat) :
    (s.stage n).cur = s.cur ∧ (s.stage n).inbox = s.inbox ∧ (s.stage n).arg = s.arg ∧ (s.stage n).agenda = s.agenda ∧
    (s.stage n).timers = s.timers ∧ (s.stage n).net = s.net ∧ (s.stage n).cy = s.cy ∧ (s.stage n).slots = s.slots ∧
    (s.stage n).parts = s.parts ∧ (s.stage n).pls = s.pls ∧ (s.stage n).dies = s.dies ∧ (s.stage n).hubs = s.hubs ∧
    (s.stage n).arrays = s.arrays ∧ (s.stage n).xdies = s.xdies ∧ (s.stage n).mem = s.mem ∧ (s.stage n).lines = s.lines ∧
    (s.stage n).epochs = s.epochs ∧ (s.stage n).ecc = s.ecc ∧ (∀ q₁, (s.stage n).slot q₁ = s.slot q₁) ∧
    (∀ q₁, (s.stage n).part q₁ = s.part q₁) ∧ (∀ q₁, (s.stage n).pl q₁ = s.pl q₁) ∧ (∀ q₁, (s.stage n).die q₁ = s.die q₁) ∧
    (∀ q₁ q₂, (s.stage n).hub q₁ q₂ = s.hub q₁ q₂) ∧ (∀ q₁ q₂, (s.stage n).arr q₁ q₂ = s.arr q₁ q₂) ∧
    (∀ q₁, (s.stage n).xdie q₁ = s.xdie q₁) := by
  refine ⟨?_, ?_, ?_, ?_, ?_, ?_, ?_, ?_, ?_, ?_, ?_, ?_, ?_, ?_, ?_, ?_, ?_, ?_, fun _ => ?_, fun _ => ?_, fun _ => ?_, fun _ => ?_, fun _ _ => ?_, fun _ _ => ?_, fun _ => ?_⟩ <;>
    (first | (simp [State.stage] <;> rfl; done) | (unfold State.stage; (repeat' split) <;> (first | rfl | (simp <;> rfl)); done) | (simp only [State.stage]; (repeat' split) <;> (first | rfl | (simp <;> rfl)); done))

/-- `State.startFirmware` changes nothing but `timers`, `free`, `outs`, `dev`. -/
@[simp] theorem State.startFirmware_frame (s : State) (h : List Byte) :
    (s.startFirmware h).cur = s.cur ∧ (s.startFirmware h).inbox = s.inbox ∧ (s.startFirmware h).arg = s.arg ∧
    (s.startFirmware h).agenda = s.agenda ∧ (s.startFirmware h).net = s.net ∧ (s.startFirmware h).cy = s.cy ∧
    (s.startFirmware h).slots = s.slots ∧ (s.startFirmware h).parts = s.parts ∧ (s.startFirmware h).pls = s.pls ∧
    (s.startFirmware h).dies = s.dies ∧ (s.startFirmware h).hubs = s.hubs ∧ (s.startFirmware h).arrays = s.arrays ∧
    (s.startFirmware h).xdies = s.xdies ∧ (s.startFirmware h).mem = s.mem ∧ (s.startFirmware h).lines = s.lines ∧
    (s.startFirmware h).epochs = s.epochs ∧ (s.startFirmware h).ecc = s.ecc ∧ (∀ q₁, (s.startFirmware h).slot q₁ = s.slot q₁) ∧
    (∀ q₁, (s.startFirmware h).part q₁ = s.part q₁) ∧ (∀ q₁, (s.startFirmware h).pl q₁ = s.pl q₁) ∧
    (∀ q₁, (s.startFirmware h).die q₁ = s.die q₁) ∧ (∀ q₁ q₂, (s.startFirmware h).hub q₁ q₂ = s.hub q₁ q₂) ∧
    (∀ q₁ q₂, (s.startFirmware h).arr q₁ q₂ = s.arr q₁ q₂) ∧ (∀ q₁, (s.startFirmware h).xdie q₁ = s.xdie q₁) := by
  refine ⟨?_, ?_, ?_, ?_, ?_, ?_, ?_, ?_, ?_, ?_, ?_, ?_, ?_, ?_, ?_, ?_, ?_, fun _ => ?_, fun _ => ?_, fun _ => ?_, fun _ => ?_, fun _ _ => ?_, fun _ _ => ?_, fun _ => ?_⟩ <;>
    (first | (simp [State.startFirmware] <;> rfl; done) | (unfold State.startFirmware; (repeat' split) <;> (first | rfl | (simp <;> rfl)); done) | (simp only [State.startFirmware]; (repeat' split) <;> (first | rfl | (simp <;> rfl)); done))

end Sys2Proof.Machine
end

