-- ==== Sys2Proof/Laws/Exec.lean ====
section
/-! SUPPORT. What `exec` is on each instruction: the meaning of its arm. A proof rewrites with the lemma of its instruction and need
not unfold `exec`. -/

namespace Sys2Proof.Machine

open Sys2Proof

@[simp] theorem exec_add (d a b) (s : State) : exec (.add d a b) s = execAdd d a b s := rfl
@[simp] theorem exec_sub (d a b) (s : State) : exec (.sub d a b) s = execSub d a b s := rfl
@[simp] theorem exec_and (d a b) (s : State) : exec (.and d a b) s = execAnd d a b s := rfl
@[simp] theorem exec_or (d a b) (s : State) : exec (.or d a b) s = execOr d a b s := rfl
@[simp] theorem exec_xor (d a b) (s : State) : exec (.xor d a b) s = execXor d a b s := rfl
@[simp] theorem exec_shl (d a b) (s : State) : exec (.shl d a b) s = execShl d a b s := rfl
@[simp] theorem exec_shr (d a b) (s : State) : exec (.shr d a b) s = execShr d a b s := rfl
@[simp] theorem exec_shra (d a b) (s : State) : exec (.shra d a b) s = execShra d a b s := rfl
@[simp] theorem exec_rol (d a b) (s : State) : exec (.rol d a b) s = execRol d a b s := rfl
@[simp] theorem exec_ror (d a b) (s : State) : exec (.ror d a b) s = execRor d a b s := rfl
@[simp] theorem exec_min (d a b) (s : State) : exec (.min d a b) s = execMin d a b s := rfl
@[simp] theorem exec_max (d a b) (s : State) : exec (.max d a b) s = execMax d a b s := rfl
@[simp] theorem exec_minu (d a b) (s : State) : exec (.minu d a b) s = execMinu d a b s := rfl
@[simp] theorem exec_maxu (d a b) (s : State) : exec (.maxu d a b) s = execMaxu d a b s := rfl
@[simp] theorem exec_slt (d a b) (s : State) : exec (.slt d a b) s = execSlt d a b s := rfl
@[simp] theorem exec_sltu (d a b) (s : State) : exec (.sltu d a b) s = execSltu d a b s := rfl
@[simp] theorem exec_mul (d a b) (s : State) : exec (.mul d a b) s = execMul d a b s := rfl
@[simp] theorem exec_mulh (d a b) (s : State) : exec (.mulh d a b) s = execMulh d a b s := rfl
@[simp] theorem exec_mulhu (d a b) (s : State) : exec (.mulhu d a b) s = execMulhu d a b s := rfl
@[simp] theorem exec_div (d a b) (s : State) : exec (.div d a b) s = execDiv d a b s := rfl
@[simp] theorem exec_divu (d a b) (s : State) : exec (.divu d a b) s = execDivu d a b s := rfl
@[simp] theorem exec_rem (d a b) (s : State) : exec (.rem d a b) s = execRem d a b s := rfl
@[simp] theorem exec_remu (d a b) (s : State) : exec (.remu d a b) s = execRemu d a b s := rfl
@[simp] theorem exec_cmpeq (d a b) (s : State) : exec (.cmpeq d a b) s = execCmpeq d a b s := rfl
@[simp] theorem exec_cmplt (d a b) (s : State) : exec (.cmplt d a b) s = execCmplt d a b s := rfl
@[simp] theorem exec_cmpltu (d a b) (s : State) : exec (.cmpltu d a b) s = execCmpltu d a b s := rfl
@[simp] theorem exec_addi (d a imm) (s : State) : exec (.addi d a imm) s = execAddi d a imm s := rfl
@[simp] theorem exec_andi (d a imm) (s : State) : exec (.andi d a imm) s = execAndi d a imm s := rfl
@[simp] theorem exec_ori (d a imm) (s : State) : exec (.ori d a imm) s = execOri d a imm s := rfl
@[simp] theorem exec_xori (d a imm) (s : State) : exec (.xori d a imm) s = execXori d a imm s := rfl
@[simp] theorem exec_shli (d a imm) (s : State) : exec (.shli d a imm) s = execShli d a imm s := rfl
@[simp] theorem exec_shri (d a imm) (s : State) : exec (.shri d a imm) s = execShri d a imm s := rfl
@[simp] theorem exec_shrai (d a imm) (s : State) : exec (.shrai d a imm) s = execShrai d a imm s := rfl
@[simp] theorem exec_slti (d a imm) (s : State) : exec (.slti d a imm) s = execSlti d a imm s := rfl
@[simp] theorem exec_sltui (d a imm) (s : State) : exec (.sltui d a imm) s = execSltui d a imm s := rfl
@[simp] theorem exec_muli (d a imm) (s : State) : exec (.muli d a imm) s = execMuli d a imm s := rfl
@[simp] theorem exec_lil (d imm) (s : State) : exec (.lil d imm) s = execLil d imm s := rfl
@[simp] theorem exec_lih (d imm) (s : State) : exec (.lih d imm) s = execLih d imm s := rfl
@[simp] theorem exec_lea (d a imm) (s : State) : exec (.lea d a imm) s = execLea d a imm s := rfl
@[simp] theorem exec_ptag (d a b) (s : State) : exec (.ptag d a b) s = execPtag d a b s := rfl
@[simp] theorem exec_pspace (d a) (s : State) : exec (.pspace d a) s = execPspace d a s := rfl
@[simp] theorem exec_sfadd (d a b r) (s : State) : exec (.sfadd d a b r) s = execSfadd d a b r s := rfl
@[simp] theorem exec_sfsub (d a b r) (s : State) : exec (.sfsub d a b r) s = execSfsub d a b r s := rfl
@[simp] theorem exec_sfmul (d a b r) (s : State) : exec (.sfmul d a b r) s = execSfmul d a b r s := rfl
@[simp] theorem exec_sfdiv (d a b r) (s : State) : exec (.sfdiv d a b r) s = execSfdiv d a b r s := rfl
@[simp] theorem exec_sfsqrt (d a r) (s : State) : exec (.sfsqrt d a r) s = execSfsqrt d a r s := rfl
@[simp] theorem exec_sfmin (d a b) (s : State) : exec (.sfmin d a b) s = execSfmin d a b s := rfl
@[simp] theorem exec_sfmax (d a b) (s : State) : exec (.sfmax d a b) s = execSfmax d a b s := rfl
@[simp] theorem exec_sfeq (d a b) (s : State) : exec (.sfeq d a b) s = execSfeq d a b s := rfl
@[simp] theorem exec_sflt (d a b) (s : State) : exec (.sflt d a b) s = execSflt d a b s := rfl
@[simp] theorem exec_sfle (d a b) (s : State) : exec (.sfle d a b) s = execSfle d a b s := rfl
@[simp] theorem exec_sfcvts (d a r) (s : State) : exec (.sfcvts d a r) s = execSfcvts d a r s := rfl
@[simp] theorem exec_sfcvtf (d a r) (s : State) : exec (.sfcvtf d a r) s = execSfcvtf d a r s := rfl
@[simp] theorem exec_ld (d a z imm) (s : State) : exec (.ld d a z imm) s = execLd d a z imm s := rfl
@[simp] theorem exec_st (d a z imm) (s : State) : exec (.st d a z imm) s = execSt d a z imm s := rfl
@[simp] theorem exec_ldx (d a z imm) (s : State) : exec (.ldx d a z imm) s = execLdx d a z imm s := rfl
@[simp] theorem exec_stx (d a z imm) (s : State) : exec (.stx d a z imm) s = execStx d a z imm s := rfl
@[simp] theorem exec_amoAdd (d a b z) (s : State) : exec (.amoAdd d a b z) s = execAmoAdd d a b z s := rfl
@[simp] theorem exec_amoAnd (d a b z) (s : State) : exec (.amoAnd d a b z) s = execAmoAnd d a b z s := rfl
@[simp] theorem exec_amoOr (d a b z) (s : State) : exec (.amoOr d a b z) s = execAmoOr d a b z s := rfl
@[simp] theorem exec_amoXor (d a b z) (s : State) : exec (.amoXor d a b z) s = execAmoXor d a b z s := rfl
@[simp] theorem exec_amoMin (d a b z) (s : State) : exec (.amoMin d a b z) s = execAmoMin d a b z s := rfl
@[simp] theorem exec_amoMax (d a b z) (s : State) : exec (.amoMax d a b z) s = execAmoMax d a b z s := rfl
@[simp] theorem exec_amoMinu (d a b z) (s : State) : exec (.amoMinu d a b z) s = execAmoMinu d a b z s := rfl
@[simp] theorem exec_amoMaxu (d a b z) (s : State) : exec (.amoMaxu d a b z) s = execAmoMaxu d a b z s := rfl
@[simp] theorem exec_amoXchg (d a b z) (s : State) : exec (.amoXchg d a b z) s = execAmoXchg d a b z s := rfl
@[simp] theorem exec_amoFadd (d a b) (s : State) : exec (.amoFadd d a b) s = execAmoFadd d a b s := rfl
@[simp] theorem exec_cas (d a b z) (s : State) : exec (.cas d a b z) s = execCas d a b z s := rfl
@[simp] theorem exec_br (c h a o) (s : State) : exec (.br c h a o) s = execBr c h a o s := rfl
@[simp] theorem exec_checkS (h a o) (s : State) : exec (.checkS h a o) s = execCheckS h a o s := rfl
@[simp] theorem exec_checkP (h a o) (s : State) : exec (.checkP h a o) s = execCheckP h a o s := rfl
@[simp] theorem exec_loop (l a o) (s : State) : exec (.loop l a o) s = execLoop l a o s := rfl
@[simp] theorem exec_jmp (o) (s : State) : exec (.jmp o) s = execJmp o s := rfl
@[simp] theorem exec_call (o) (s : State) : exec (.call o) s = execCall o s := rfl
@[simp] theorem exec_sel (d a b p) (s : State) : exec (.sel d a b p) s = execSel d a b p s := rfl
@[simp] theorem exec_sxv (d a) (s : State) : exec (.sxv d a) s = execSxv d a s := rfl
@[simp] theorem exec_vxs (d a b) (s : State) : exec (.vxs d a b) s = execVxs d a b s := rfl
@[simp] theorem exec_go (e g t) (s : State) : exec (.go e g t) s = execGo e g t s := rfl
@[simp] theorem exec_push (d) (s : State) : exec (.push d) s = execPush d s := rfl
@[simp] theorem exec_tlwait (d q imm) (s : State) : exec (.tlwait d q imm) s = execTlwait d q imm s := rfl
@[simp] theorem exec_tlread (d q) (s : State) : exec (.tlread d q) s = execTlread d q s := rfl
@[simp] theorem exec_tlreadFail (d q) (s : State) : exec (.tlreadFail d q) s = execTlreadFail d q s := rfl
@[simp] theorem exec_pop (d) (s : State) : exec (.pop d) s = execPop d s := rfl
@[simp] theorem exec_popTag (d) (s : State) : exec (.popTag d) s = execPopTag d s := rfl
@[simp] theorem exec_peekq (d) (s : State) : exec (.peekq d) s = execPeekq d s := rfl
@[simp] theorem exec_xlateRead (h a) (s : State) : exec (.xlateRead h a) s = execXlateRead h a s := rfl
@[simp] theorem exec_xlateWrite (h a) (s : State) : exec (.xlateWrite h a) s = execXlateWrite h a s := rfl
@[simp] theorem exec_slook (d a b) (s : State) : exec (.slook d a b) s = execSlook d a b s := rfl
@[simp] theorem exec_sfill (d a b) (s : State) : exec (.sfill d a b) s = execSfill d a b s := rfl
@[simp] theorem exec_sevict (d a) (s : State) : exec (.sevict d a) s = execSevict d a s := rfl
@[simp] theorem exec_phase (a imm) (s : State) : exec (.phase a imm) s = execPhase a imm s := rfl
@[simp] theorem exec_wid (d imm) (s : State) : exec (.wid d imm) s = execWid d imm s := rfl
@[simp] theorem exec_csrr (k a) (s : State) : exec (.csrr k a) s = execCsrr k a s := rfl
@[simp] theorem exec_csrw (k a) (s : State) : exec (.csrw k a) s = execCsrw k a s := rfl
@[simp] theorem exec_nop (s : State) : exec .nop s = execNop s := rfl
@[simp] theorem exec_mark (s : State) : exec .mark s = execMark s := rfl
@[simp] theorem exec_fence (sel) (s : State) : exec (.fence sel) s = execFence sel s := rfl
@[simp] theorem exec_trap (k) (s : State) : exec (.trap k) s = execTrap k s := rfl
@[simp] theorem exec_halt (s : State) : exec .halt s = execHalt s := rfl
@[simp] theorem exec_done (s : State) : exec .done s = execDone s := rfl
@[simp] theorem exec_ret (s : State) : exec .ret s = execRet s := rfl
@[simp] theorem exec_cad (d) (s : State) : exec (.cad d) s = execCad d s := rfl
@[simp] theorem exec_tick (k a) (s : State) : exec (.tick k a) s = execTick k a s := rfl
@[simp] theorem exec_stand (a) (s : State) : exec (.stand a) s = execStand a s := rfl
@[simp] theorem exec_standQ (a) (s : State) : exec (.standQ a) s = execStandQ a s := rfl
@[simp] theorem exec_bar (l imm) (s : State) : exec (.bar l imm) s = execBar l imm s := rfl
@[simp] theorem exec_xinv (h) (s : State) : exec (.xinv h) s = execXinv h s := rfl
@[simp] theorem exec_fload (g t) (s : State) : exec (.fload g t) s = execFload g t s := rfl
@[simp] theorem exec_fbind (g c) (s : State) : exec (.fbind g c) s = execFbind g c s := rfl
@[simp] theorem exec_vadd (d a b m r) (s : State) : exec (.vadd d a b m r) s = execVadd d a b m r s := rfl
@[simp] theorem exec_vsub (d a b m r) (s : State) : exec (.vsub d a b m r) s = execVsub d a b m r s := rfl
@[simp] theorem exec_vmul (d a b m r) (s : State) : exec (.vmul d a b m r) s = execVmul d a b m r s := rfl
@[simp] theorem exec_vdiv (d a b m r) (s : State) : exec (.vdiv d a b m r) s = execVdiv d a b m r s := rfl
@[simp] theorem exec_vmin (d a b m) (s : State) : exec (.vmin d a b m) s = execVmin d a b m s := rfl
@[simp] theorem exec_vmax (d a b m) (s : State) : exec (.vmax d a b m) s = execVmax d a b m s := rfl
@[simp] theorem exec_vfma (d a b c m r) (s : State) : exec (.vfma d a b c m r) s = execVfma d a b c m r s := rfl
@[simp] theorem exec_vsqrt (d a m r) (s : State) : exec (.vsqrt d a m r) s = execVsqrt d a m r s := rfl
@[simp] theorem exec_vrcp (d a m r) (s : State) : exec (.vrcp d a m r) s = execVrcp d a m r s := rfl
@[simp] theorem exec_vrsqrt (d a m r) (s : State) : exec (.vrsqrt d a m r) s = execVrsqrt d a m r s := rfl
@[simp] theorem exec_vexp2 (d a m r) (s : State) : exec (.vexp2 d a m r) s = execVexp2 d a m r s := rfl
@[simp] theorem exec_vlog2 (d a m r) (s : State) : exec (.vlog2 d a m r) s = execVlog2 d a m r s := rfl
@[simp] theorem exec_vln (d a m r) (s : State) : exec (.vln d a m r) s = execVln d a m r s := rfl
@[simp] theorem exec_vtanh (d a m r) (s : State) : exec (.vtanh d a m r) s = execVtanh d a m r s := rfl
@[simp] theorem exec_vneg (d a m) (s : State) : exec (.vneg d a m) s = execVneg d a m s := rfl
@[simp] theorem exec_vabs (d a m) (s : State) : exec (.vabs d a m) s = execVabs d a m s := rfl
@[simp] theorem exec_viadd (d a b m) (s : State) : exec (.viadd d a b m) s = execViadd d a b m s := rfl
@[simp] theorem exec_visub (d a b m) (s : State) : exec (.visub d a b m) s = execVisub d a b m s := rfl
@[simp] theorem exec_vimul (d a b m) (s : State) : exec (.vimul d a b m) s = execVimul d a b m s := rfl
@[simp] theorem exec_vimin (d a b m) (s : State) : exec (.vimin d a b m) s = execVimin d a b m s := rfl
@[simp] theorem exec_vimax (d a b m) (s : State) : exec (.vimax d a b m) s = execVimax d a b m s := rfl
@[simp] theorem exec_vand (d a b m) (s : State) : exec (.vand d a b m) s = execVand d a b m s := rfl
@[simp] theorem exec_vor (d a b m) (s : State) : exec (.vor d a b m) s = execVor d a b m s := rfl
@[simp] theorem exec_vxor (d a b m) (s : State) : exec (.vxor d a b m) s = execVxor d a b m s := rfl
@[simp] theorem exec_vshl (d a b m) (s : State) : exec (.vshl d a b m) s = execVshl d a b m s := rfl
@[simp] theorem exec_vshr (d a b m) (s : State) : exec (.vshr d a b m) s = execVshr d a b m s := rfl
@[simp] theorem exec_vshra (d a b m) (s : State) : exec (.vshra d a b m) s = execVshra d a b m s := rfl
@[simp] theorem exec_viadds (d a b m) (s : State) : exec (.viadds d a b m) s = execViadds d a b m s := rfl
@[simp] theorem exec_vcmpeq (d a b m) (s : State) : exec (.vcmpeq d a b m) s = execVcmpeq d a b m s := rfl
@[simp] theorem exec_vcmpne (d a b m) (s : State) : exec (.vcmpne d a b m) s = execVcmpne d a b m s := rfl
@[simp] theorem exec_vcmplt (d a b m) (s : State) : exec (.vcmplt d a b m) s = execVcmplt d a b m s := rfl
@[simp] theorem exec_vcmple (d a b m) (s : State) : exec (.vcmple d a b m) s = execVcmple d a b m s := rfl
@[simp] theorem exec_vsel (d a b c m) (s : State) : exec (.vsel d a b c m) s = execVsel d a b c m s := rfl
@[simp] theorem exec_vmand (d a b) (s : State) : exec (.vmand d a b) s = execVmand d a b s := rfl
@[simp] theorem exec_vmor (d a b) (s : State) : exec (.vmor d a b) s = execVmor d a b s := rfl
@[simp] theorem exec_vmxor (d a b) (s : State) : exec (.vmxor d a b) s = execVmxor d a b s := rfl
@[simp] theorem exec_vmnot (d a) (s : State) : exec (.vmnot d a) s = execVmnot d a s := rfl
@[simp] theorem exec_vcvt (d a t o m r) (s : State) : exec (.vcvt d a t o m r) s = execVcvt d a t o m r s := rfl
@[simp] theorem exec_vpack (d a f c r) (s : State) : exec (.vpack d a f c r) s = execVpack d a f c r s := rfl
@[simp] theorem exec_vunpack (d a f c) (s : State) : exec (.vunpack d a f c) s = execVunpack d a f c s := rfl
@[simp] theorem exec_vprune24 (d a b m) (s : State) : exec (.vprune24 d a b m) s = execVprune24 d a b m s := rfl
@[simp] theorem exec_vrsum (d a m) (s : State) : exec (.vrsum d a m) s = execVrsum d a m s := rfl
@[simp] theorem exec_vrmax (d a m) (s : State) : exec (.vrmax d a m) s = execVrmax d a m s := rfl
@[simp] theorem exec_vrmin (d a m) (s : State) : exec (.vrmin d a m) s = execVrmin d a m s := rfl
@[simp] theorem exec_vscan (d a m) (s : State) : exec (.vscan d a m) s = execVscan d a m s := rfl
@[simp] theorem exec_vargmax (d a m) (s : State) : exec (.vargmax d a m) s = execVargmax d a m s := rfl
@[simp] theorem exec_vpopnz (d a m) (s : State) : exec (.vpopnz d a m) s = execVpopnz d a m s := rfl
@[simp] theorem exec_vnzmap (d a m) (s : State) : exec (.vnzmap d a m) s = execVnzmap d a m s := rfl
@[simp] theorem exec_vperm (d a b m) (s : State) : exec (.vperm d a b m) s = execVperm d a b m s := rfl
@[simp] theorem exec_vslide (d a b m) (s : State) : exec (.vslide d a b m) s = execVslide d a b m s := rfl
@[simp] theorem exec_vbcast (d a b m) (s : State) : exec (.vbcast d a b m) s = execVbcast d a b m s := rfl
@[simp] theorem exec_vld (d a o) (s : State) : exec (.vld d a o) s = execVld d a o s := rfl
@[simp] theorem exec_vst (d a o) (s : State) : exec (.vst d a o) s = execVst d a o s := rfl
@[simp] theorem exec_vrand (d a b m) (s : State) : exec (.vrand d a b m) s = execVrand d a b m s := rfl
@[simp] theorem exec_vtget (d a b m) (s : State) : exec (.vtget d a b m) s = execVtget d a b m s := rfl
@[simp] theorem exec_vtset (d a b m) (s : State) : exec (.vtset d a b m) s = execVtset d a b m s := rfl
@[simp] theorem exec_shape (t f g l) (s : State) : exec (.shape t f g l) s = execShape t f g l s := rfl
@[simp] theorem exec_shaper (a) (s : State) : exec (.shaper a) s = execShaper a s := rfl
@[simp] theorem exec_tan (sel a b c) (s : State) : exec (.tan sel a b c) s = execTan sel a b c s := rfl
@[simp] theorem exec_vnop (n) (s : State) : exec (.vnop n) s = execVnop n s := rfl
@[simp] theorem exec_mnop (n) (s : State) : exec (.mnop n) s = execMnop n s := rfl
@[simp] theorem exec_mloadw (e) (s : State) : exec (.mloadw e) s = execMloadw e s := rfl
@[simp] theorem exec_mswap (s : State) : exec .mswap s = execMswap s := rfl
@[simp] theorem exec_mrun (n r t e) (s : State) : exec (.mrun n r t e) s = execMrun n r t e s := rfl
@[simp] theorem exec_mrunS (n r m t e) (s : State) : exec (.mrunS n r m t e) s = execMrunS n r m t e s := rfl
@[simp] theorem exec_mmeta (n e) (s : State) : exec (.mmeta n e) s = execMmeta n e s := rfl
@[simp] theorem exec_mscq (n e) (s : State) : exec (.mscq n e) s = execMscq n e s := rfl
@[simp] theorem exec_mscmode (m) (s : State) : exec (.mscmode m) s = execMscmode m s := rfl
@[simp] theorem exec_mdrain (n r0 r f t e) (s : State) : exec (.mdrain n r0 r f t e) s = execMdrain n r0 r f t e s := rfl
@[simp] theorem exec_mzero (n) (s : State) : exec (.mzero n) s = execMzero n s := rfl
@[simp] theorem exec_mseta (e) (s : State) : exec (.mseta e) s = execMseta e s := rfl
@[simp] theorem exec_mmode (x a w) (s : State) : exec (.mmode x a w) s = execMmode x a w s := rfl
@[simp] theorem exec_xfnop (n) (s : State) : exec (.xfnop n) s = execXfnop n s := rfl
@[simp] theorem exec_xfcopy (e) (s : State) : exec (.xfcopy e) s = execXfcopy e s := rfl
@[simp] theorem exec_xfcast (e) (s : State) : exec (.xfcast e) s = execXfcast e s := rfl
@[simp] theorem exec_xfzip (e) (s : State) : exec (.xfzip e) s = execXfzip e s := rfl
@[simp] theorem exec_xfunzip (e) (s : State) : exec (.xfunzip e) s = execXfunzip e s := rfl
@[simp] theorem exec_xffill (e) (s : State) : exec (.xffill e) s = execXffill e s := rfl
@[simp] theorem exec_xfsend (e) (s : State) : exec (.xfsend e) s = execXfsend e s := rfl
@[simp] theorem exec_xfrecv (e) (s : State) : exec (.xfrecv e) s = execXfrecv e s := rfl
@[simp] theorem exec_xfvirt (e) (s : State) : exec (.xfvirt e) s = execXfvirt e s := rfl
@[simp] theorem exec_ixnop (n) (s : State) : exec (.ixnop n) s = execIxnop n s := rfl
@[simp] theorem exec_ixgather (e) (s : State) : exec (.ixgather e) s = execIxgather e s := rfl
@[simp] theorem exec_ixscatter (e) (s : State) : exec (.ixscatter e) s = execIxscatter e s := rfl
@[simp] theorem exec_ixscadd (e) (s : State) : exec (.ixscadd e) s = execIxscadd e s := rfl
@[simp] theorem exec_ixcount (e) (s : State) : exec (.ixcount e) s = execIxcount e s := rfl
@[simp] theorem exec_ixcompact (e) (s : State) : exec (.ixcompact e) s = execIxcompact e s := rfl
@[simp] theorem exec_ixhist (e) (s : State) : exec (.ixhist e) s = execIxhist e s := rfl
@[simp] theorem exec_ixamo (e) (s : State) : exec (.ixamo e) s = execIxamo e s := rfl
@[simp] theorem exec_ixcas (e) (s : State) : exec (.ixcas e) s = execIxcas e s := rfl
@[simp] theorem exec_indexCommandStart (s : State) : exec .indexCommandStart s = execIndexCommandStart s := rfl
@[simp] theorem exec_indexCommandEnd (s : State) : exec .indexCommandEnd s = execIndexCommandEnd s := rfl
@[simp] theorem exec_dkeys (n k w e) (s : State) : exec (.dkeys n k w e) s = execDkeys n k w e s := rfl
@[simp] theorem exec_dmatch (d m u r p e) (s : State) : exec (.dmatch d m u r p e) s = execDmatch d m u r p e s := rfl
@[simp] theorem exec_dmerge (m w e) (s : State) : exec (.dmerge m w e) s = execDmerge m w e s := rfl
@[simp] theorem exec_dunmerge (m w e) (s : State) : exec (.dunmerge m w e) s = execDunmerge m w e s := rfl
@[simp] theorem exec_dcompose (d a b) (s : State) : exec (.dcompose d a b) s = execDcompose d a b s := rfl
@[simp] theorem exec_dsizes (m e) (s : State) : exec (.dsizes m e) s = execDsizes m e s := rfl
@[simp] theorem exec_dsave (m e) (s : State) : exec (.dsave m e) s = execDsave m e s := rfl
@[simp] theorem exec_dload (m e) (s : State) : exec (.dload m e) s = execDload m e s := rfl
@[simp] theorem exec_draftingCommandEnd (s : State) : exec .draftingCommandEnd s = execDraftingCommandEnd s := rfl
@[simp] theorem exec_fnop (s : State) : exec .fnop s = execFnop s := rfl
@[simp] theorem exec_fadd (d a b) (s : State) : exec (.fadd d a b) s = execFadd d a b s := rfl
@[simp] theorem exec_fmul (d a b) (s : State) : exec (.fmul d a b) s = execFmul d a b s := rfl
@[simp] theorem exec_fmax (d a b) (s : State) : exec (.fmax d a b) s = execFmax d a b s := rfl
@[simp] theorem exec_fmin (d a b) (s : State) : exec (.fmin d a b) s = execFmin d a b s := rfl
@[simp] theorem exec_fcmp (d a b c) (s : State) : exec (.fcmp d a b c) s = execFcmp d a b c s := rfl
@[simp] theorem exec_fsel (d a b c) (s : State) : exec (.fsel d a b c) s = execFsel d a b c s := rfl
@[simp] theorem exec_facc (d a) (s : State) : exec (.facc d a) s = execFacc d a s := rfl
@[simp] theorem exec_fmov (d a) (s : State) : exec (.fmov d a) s = execFmov d a s := rfl
@[simp] theorem exec_froute (a m) (s : State) : exec (.froute a m) s = execFroute a m s := rfl
@[simp] theorem exec_ftake (d) (s : State) : exec (.ftake d) s = execFtake d s := rfl
@[simp] theorem exec_femit (a) (s : State) : exec (.femit a) s = execFemit a s := rfl
@[simp] theorem exec_floopb (t c f) (s : State) : exec (.floopb t c f) s = execFloopb t c f s := rfl
@[simp] theorem exec_fcvt (d a f t p) (s : State) : exec (.fcvt d a f t p) s = execFcvt d a f t p s := rfl
@[simp] theorem exec_fzip (d a b) (s : State) : exec (.fzip d a b) s = execFzip d a b s := rfl
@[simp] theorem exec_funzip (d a h) (s : State) : exec (.funzip d a h) s = execFunzip d a h s := rfl
@[simp] theorem exec_segmentStart (s : State) : exec .segmentStart s = execSegmentStart s := rfl
@[simp] theorem exec_matrixStepCommit (s : State) : exec .matrixStepCommit s = execMatrixStepCommit s := rfl
@[simp] theorem exec_transferWordEnd (s : State) : exec .transferWordEnd s = execTransferWordEnd s := rfl
@[simp] theorem exec_replyPortEntry (s : State) : exec .replyPortEntry s = execReplyPortEntry s := rfl
@[simp] theorem exec_storeMarkClose (s : State) : exec .storeMarkClose s = execStoreMarkClose s := rfl
@[simp] theorem exec_fenceEnd (s : State) : exec .fenceEnd s = execFenceEnd s := rfl
@[simp] theorem exec_tlwaitEnd (s : State) : exec .tlwaitEnd s = execTlwaitEnd s := rfl
@[simp] theorem exec_tickExpiry (s : State) : exec .tickExpiry s = execTickExpiry s := rfl
@[simp] theorem exec_popTake (s : State) : exec .popTake s = execPopTake s := rfl
@[simp] theorem exec_barrierRelease (s : State) : exec .barrierRelease s = execBarrierRelease s := rfl
@[simp] theorem exec_itemStart (s : State) : exec .itemStart s = execItemStart s := rfl
@[simp] theorem exec_itemEnd (s : State) : exec .itemEnd s = execItemEnd s := rfl
@[simp] theorem exec_launchCompletion (s : State) : exec .launchCompletion s = execLaunchCompletion s := rfl
@[simp] theorem exec_launchAbort (s : State) : exec .launchAbort s = execLaunchAbort s := rfl
@[simp] theorem exec_phaseDirectoryAnswer (s : State) : exec .phaseDirectoryAnswer s = execPhaseDirectoryAnswer s := rfl
@[simp] theorem exec_hubGrant (s : State) : exec .hubGrant s = execHubGrant s := rfl
@[simp] theorem exec_ageingTick (s : State) : exec .ageingTick s = execAgeingTick s := rfl
@[simp] theorem exec_doorbellKick (s : State) : exec .doorbellKick s = execDoorbellKick s := rfl
@[simp] theorem exec_slotFetch (s : State) : exec .slotFetch s = execSlotFetch s := rfl
@[simp] theorem exec_launchValidate (s : State) : exec .launchValidate s = execLaunchValidate s := rfl
@[simp] theorem exec_slotSave (s : State) : exec .slotSave s = execSlotSave s := rfl
@[simp] theorem exec_slotRestore (s : State) : exec .slotRestore s = execSlotRestore s := rfl
@[simp] theorem exec_preemptRequest (s : State) : exec .preemptRequest s = execPreemptRequest s := rfl
@[simp] theorem exec_slotAbort (s : State) : exec .slotAbort s = execSlotAbort s := rfl
@[simp] theorem exec_countedPreemption (s : State) : exec .countedPreemption s = execCountedPreemption s := rfl
@[simp] theorem exec_countedResume (s : State) : exec .countedResume s = execCountedResume s := rfl
@[simp] theorem exec_watchdogExpiry (s : State) : exec .watchdogExpiry s = execWatchdogExpiry s := rfl
@[simp] theorem exec_backstopReset (s : State) : exec .backstopReset s = execBackstopReset s := rfl
@[simp] theorem exec_haltLimitReset (s : State) : exec .haltLimitReset s = execHaltLimitReset s := rfl
@[simp] theorem exec_partitionReset (s : State) : exec .partitionReset s = execPartitionReset s := rfl
@[simp] theorem exec_partitionResetDone (s : State) : exec .partitionResetDone s = execPartitionResetDone s := rfl
@[simp] theorem exec_partitionScrub (s : State) : exec .partitionScrub s = execPartitionScrub s := rfl
@[simp] theorem exec_ldmapLock (s : State) : exec .ldmapLock s = execLdmapLock s := rfl
@[simp] theorem exec_ldmapUnlock (s : State) : exec .ldmapUnlock s = execLdmapUnlock s := rfl
@[simp] theorem exec_dieFailure (s : State) : exec .dieFailure s = execDieFailure s := rfl
@[simp] theorem exec_pacelineForm (s : State) : exec .pacelineForm s = execPacelineForm s := rfl
@[simp] theorem exec_pacelineDissolve (s : State) : exec .pacelineDissolve s = execPacelineDissolve s := rfl
@[simp] theorem exec_linkTrainingDone (s : State) : exec .linkTrainingDone s = execLinkTrainingDone s := rfl
@[simp] theorem exec_frameTransmit (s : State) : exec .frameTransmit s = execFrameTransmit s := rfl
@[simp] theorem exec_badFrame (s : State) : exec .badFrame s = execBadFrame s := rfl
@[simp] theorem exec_timedBeatDelivery (s : State) : exec .timedBeatDelivery s = execTimedBeatDelivery s := rfl
@[simp] theorem exec_countedBeatReceive (s : State) : exec .countedBeatReceive s = execCountedBeatReceive s := rfl
@[simp] theorem exec_countedRetryTimeout (s : State) : exec .countedRetryTimeout s = execCountedRetryTimeout s := rfl
@[simp] theorem exec_readRequest (s : State) : exec .readRequest s = execReadRequest s := rfl
@[simp] theorem exec_readReply (s : State) : exec .readReply s = execReadReply s := rfl
@[simp] theorem exec_write (s : State) : exec .write s = execWrite s := rfl
@[simp] theorem exec_writeAcknowledgement (s : State) : exec .writeAcknowledgement s = execWriteAcknowledgement s := rfl
@[simp] theorem exec_atomicRequest (s : State) : exec .atomicRequest s = execAtomicRequest s := rfl
@[simp] theorem exec_atomicReply (s : State) : exec .atomicReply s = execAtomicReply s := rfl
@[simp] theorem exec_controlSpaceRead (s : State) : exec .controlSpaceRead s = execControlSpaceRead s := rfl
@[simp] theorem exec_fenceMarker (s : State) : exec .fenceMarker s = execFenceMarker s := rfl
@[simp] theorem exec_countedReplyDeadline (s : State) : exec .countedReplyDeadline s = execCountedReplyDeadline s := rfl
@[simp] theorem exec_sampleReceive (s : State) : exec .sampleReceive s = execSampleReceive s := rfl
@[simp] theorem exec_subminReceive (s : State) : exec .subminReceive s = execSubminReceive s := rfl
@[simp] theorem exec_downReceive (s : State) : exec .downReceive s = execDownReceive s := rfl
@[simp] theorem exec_coastReceive (s : State) : exec .coastReceive s = execCoastReceive s := rfl
@[simp] theorem exec_coastApply (s : State) : exec .coastApply s = execCoastApply s := rfl
@[simp] theorem exec_haltFrameReceive (s : State) : exec .haltFrameReceive s = execHaltFrameReceive s := rfl
@[simp] theorem exec_releaseFrameReceive (s : State) : exec .releaseFrameReceive s = execReleaseFrameReceive s := rfl
@[simp] theorem exec_standAdoption (s : State) : exec .standAdoption s = execStandAdoption s := rfl
@[simp] theorem exec_standLeadCheck (s : State) : exec .standLeadCheck s = execStandLeadCheck s := rfl
@[simp] theorem exec_standHold (s : State) : exec .standHold s = execStandHold s := rfl
@[simp] theorem exec_standResume (s : State) : exec .standResume s = execStandResume s := rfl
@[simp] theorem exec_idleStandArm (s : State) : exec .idleStandArm s = execIdleStandArm s := rfl
@[simp] theorem exec_quietSave (s : State) : exec .quietSave s = execQuietSave s := rfl
@[simp] theorem exec_timedResume (s : State) : exec .timedResume s = execTimedResume s := rfl
@[simp] theorem exec_faultReportReceive (s : State) : exec .faultReportReceive s = execFaultReportReceive s := rfl
@[simp] theorem exec_pageFaultBatchClose (s : State) : exec .pageFaultBatchClose s = execPageFaultBatchClose s := rfl
@[simp] theorem exec_pacelineHold (s : State) : exec .pacelineHold s = execPacelineHold s := rfl
@[simp] theorem exec_pacelineRelease (s : State) : exec .pacelineRelease s = execPacelineRelease s := rfl
@[simp] theorem exec_pacelineAbort (s : State) : exec .pacelineAbort s = execPacelineAbort s := rfl
@[simp] theorem exec_frtailWrite (s : State) : exec .frtailWrite s = execFrtailWrite s := rfl
@[simp] theorem exec_faultRingEnable (s : State) : exec .faultRingEnable s = execFaultRingEnable s := rfl
@[simp] theorem exec_mailboxGo (s : State) : exec .mailboxGo s = execMailboxGo s := rfl
@[simp] theorem exec_mailboxDone (s : State) : exec .mailboxDone s = execMailboxDone s := rfl
@[simp] theorem exec_qcreate (s : State) : exec .qcreate s = execQcreate s := rfl
@[simp] theorem exec_qdestroy (s : State) : exec .qdestroy s = execQdestroy s := rfl
@[simp] theorem exec_qrestart (s : State) : exec .qrestart s = execQrestart s := rfl
@[simp] theorem exec_qstat (s : State) : exec .qstat s = execQstat s := rfl
@[simp] theorem exec_qprio (s : State) : exec .qprio s = execQprio s := rfl
@[simp] theorem exec_psuspend (s : State) : exec .psuspend s = execPsuspend s := rfl
@[simp] theorem exec_psuspendResponse (s : State) : exec .psuspendResponse s = execPsuspendResponse s := rfl
@[simp] theorem exec_presume (s : State) : exec .presume s = execPresume s := rfl
@[simp] theorem exec_preset (s : State) : exec .preset s = execPreset s := rfl
@[simp] theorem exec_pconfig (s : State) : exec .pconfig s = execPconfig s := rfl
@[simp] theorem exec_paceform (s : State) : exec .paceform s = execPaceform s := rfl
@[simp] theorem exec_sched (s : State) : exec .sched s = execSched s := rfl
@[simp] theorem exec_sleepRequest (s : State) : exec .sleepRequest s = execSleepRequest s := rfl
@[simp] theorem exec_presetPf (s : State) : exec .presetPf s = execPresetPf s := rfl
@[simp] theorem exec_recoveryImageLoad (s : State) : exec .recoveryImageLoad s = execRecoveryImageLoad s := rfl
@[simp] theorem exec_coldReset (s : State) : exec .coldReset s = execColdReset s := rfl
@[simp] theorem exec_firmwareFirstReport (s : State) : exec .firmwareFirstReport s = execFirmwareFirstReport s := rfl
@[simp] theorem exec_debugToken (s : State) : exec .debugToken s = execDebugToken s := rfl
@[simp] theorem exec_getVersion (s : State) : exec .getVersion s = execGetVersion s := rfl
@[simp] theorem exec_getCapabilities (s : State) : exec .getCapabilities s = execGetCapabilities s := rfl
@[simp] theorem exec_negotiateAlgorithms (s : State) : exec .negotiateAlgorithms s = execNegotiateAlgorithms s := rfl
@[simp] theorem exec_getDigests (s : State) : exec .getDigests s = execGetDigests s := rfl
@[simp] theorem exec_getCertificate (s : State) : exec .getCertificate s = execGetCertificate s := rfl
@[simp] theorem exec_challenge (s : State) : exec .challenge s = execChallenge s := rfl
@[simp] theorem exec_getMeasurements (s : State) : exec .getMeasurements s = execGetMeasurements s := rfl
@[simp] theorem exec_keyExchange (s : State) : exec .keyExchange s = execKeyExchange s := rfl
@[simp] theorem exec_finish (s : State) : exec .finish s = execFinish s := rfl
@[simp] theorem exec_endSession (s : State) : exec .endSession s = execEndSession s := rfl
@[simp] theorem exec_vendorDefinedRequest (s : State) : exec .vendorDefinedRequest s = execVendorDefinedRequest s := rfl
@[simp] theorem exec_ideKm (s : State) : exec .ideKm s = execIdeKm s := rfl
@[simp] theorem exec_tdispLockInterface (s : State) : exec .tdispLockInterface s = execTdispLockInterface s := rfl
@[simp] theorem exec_tdispStartInterface (s : State) : exec .tdispStartInterface s = execTdispStartInterface s := rfl
@[simp] theorem exec_tdispStopInterface (s : State) : exec .tdispStopInterface s = execTdispStopInterface s := rfl
@[simp] theorem exec_tdispError (s : State) : exec .tdispError s = execTdispError s := rfl
@[simp] theorem exec_debugWindowAccess (s : State) : exec .debugWindowAccess s = execDebugWindowAccess s := rfl
@[simp] theorem exec_controlWindowWrite (s : State) : exec .controlWindowWrite s = execControlWindowWrite s := rfl
@[simp] theorem exec_ranktabWrite (s : State) : exec .ranktabWrite s = execRanktabWrite s := rfl
@[simp] theorem exec_xlinvShootdown (s : State) : exec .xlinvShootdown s = execXlinvShootdown s := rfl
@[simp] theorem exec_shootdown (s : State) : exec .shootdown s = execShootdown s := rfl
@[simp] theorem exec_xlretry (s : State) : exec .xlretry s = execXlretry s := rfl
@[simp] theorem exec_translationFillRequest (s : State) : exec .translationFillRequest s = execTranslationFillRequest s := rfl
@[simp] theorem exec_translationFillReply (s : State) : exec .translationFillReply s = execTranslationFillReply s := rfl
@[simp] theorem exec_endpointPacket (s : State) : exec .endpointPacket s = execEndpointPacket s := rfl
@[simp] theorem exec_endpointPacketDeliver (s : State) : exec .endpointPacketDeliver s = execEndpointPacketDeliver s := rfl
@[simp] theorem exec_euzinFlitReceive (s : State) : exec .euzinFlitReceive s = execEuzinFlitReceive s := rfl
@[simp] theorem exec_flitTransmit (s : State) : exec .flitTransmit s = execFlitTransmit s := rfl
@[simp] theorem exec_flitRetryTimeout (s : State) : exec .flitRetryTimeout s = execFlitRetryTimeout s := rfl
@[simp] theorem exec_longLinkTrained (s : State) : exec .longLinkTrained s = execLongLinkTrained s := rfl
@[simp] theorem exec_collectiveContribution (s : State) : exec .collectiveContribution s = execCollectiveContribution s := rfl
@[simp] theorem exec_ready (s : State) : exec .ready s = execReady s := rfl
@[simp] theorem exec_commit (s : State) : exec .commit s = execCommit s := rfl
@[simp] theorem exec_abort (s : State) : exec .abort s = execAbort s := rfl
@[simp] theorem exec_collectiveTimeLimit (s : State) : exec .collectiveTimeLimit s = execCollectiveTimeLimit s := rfl
@[simp] theorem exec_powerLimitEvaluation (s : State) : exec .powerLimitEvaluation s = execPowerLimitEvaluation s := rfl
@[simp] theorem exec_vcoreCurrentEvaluation (s : State) : exec .vcoreCurrentEvaluation s = execVcoreCurrentEvaluation s := rfl
@[simp] theorem exec_thermalTrip (s : State) : exec .thermalTrip s = execThermalTrip s := rfl
@[simp] theorem exec_tripExit (s : State) : exec .tripExit s = execTripExit s := rfl
@[simp] theorem exec_idleRetainEntry (s : State) : exec .idleRetainEntry s = execIdleRetainEntry s := rfl
@[simp] theorem exec_wakeFromIdle (s : State) : exec .wakeFromIdle s = execWakeFromIdle s := rfl
@[simp] theorem exec_wakeFromSleep (s : State) : exec .wakeFromSleep s = execWakeFromSleep s := rfl
@[simp] theorem exec_powerOff (s : State) : exec .powerOff s = execPowerOff s := rfl
@[simp] theorem exec_draftingCommandStart (s : State) : exec .draftingCommandStart s = execDraftingCommandStart s := rfl
@[simp] theorem exec_partitionScrubDone (s : State) : exec .partitionScrubDone s = execPartitionScrubDone s := rfl

end Sys2Proof.Machine
end

