-- ==== Sys2Proof/Laws/PerInstr.lean ====
section
/-! SUPPORT. For every instruction: its encoding is as many words of 32 bits as its map gives it (R322 to R331). -/

namespace Sys2Proof.Laws.Words

/-- A well-formed instruction encodes to one or two words below 2^32, and to none exactly when it is a device event. -/
def Statement (i : Instr) : Prop :=
  i.wf = true → (∀ w ∈ encode i, w < 2 ^ 32) ∧ (encode i).length ≤ 2 ∧ (encode i = [] ↔ streamOf i = none)

theorem of_one {i : Instr} {w : Nat} {st : Stream} (h : encode i = [w]) (hs : streamOf i = some st) (hw : w < 2 ^ 32) :
    Statement i := by
  intro _; simp [h, hs]; exact hw

theorem of_two {i : Instr} {w x : Nat} {st : Stream} (h : encode i = [w, x]) (hs : streamOf i = some st) (hw : w < 2 ^ 32)
    (hx : x < 2 ^ 32) : Statement i := by
  intro _; simp [h, hs]; exact ⟨hw, hx⟩

theorem of_none {i : Instr} (h : encode i = []) (hs : streamOf i = none) : Statement i := by
  intro _; simp [h, hs]

theorem packS_lt {op d a b f : Nat} (hop : op < 2 ^ 6) (hd : d < 2 ^ 6) (ha : a < 2 ^ 6) (hb : b < 2 ^ 6) (hf : f < 2 ^ 8) : packS op d a b f < 2 ^ 32 := by
  unfold packS; omega

theorem packI_lt {op d a i : Nat} (hop : op < 2 ^ 6) (hd : d < 2 ^ 6) (ha : a < 2 ^ 6) (hi : i < 2 ^ 14) : packI op d a i < 2 ^ 32 := by
  unfold packI; omega

theorem packB_lt {op c h a o : Nat} (hop : op < 2 ^ 6) (hc : c < 2 ^ 4) (hh : h < 2 ^ 2) (ha : a < 2 ^ 6) (ho : o < 2 ^ 14) : packB op c h a o < 2 ^ 32 := by
  unfold packB; omega

theorem packJ_lt {op x : Nat} (hop : op < 2 ^ 6) (hx : x < 2 ^ 26) : packJ op x < 2 ^ 32 := by
  unfold packJ; omega

theorem packL_lt {op e s t : Nat} (hop : op < 2 ^ 6) (he : e < 2 ^ 4) (hs : s < 2 ^ 6) (ht : t < 2 ^ 16) : packL op e s t < 2 ^ 32 := by
  unfold packL; omega

theorem packM_lt {op d a z i : Nat} (hop : op < 2 ^ 6) (hd : d < 2 ^ 6) (ha : a < 2 ^ 6) (hz : z < 2 ^ 2) (hi : i < 2 ^ 12) : packM op d a z i < 2 ^ 32 := by
  unfold packM; omega

theorem packX_lt {op s k a : Nat} (hop : op < 2 ^ 6) (hs : s < 2 ^ 6) (hk : k < 2 ^ 14) (ha : a < 2 ^ 6) : packX op s k a < 2 ^ 32 := by
  unfold packX; omega

theorem packV_lt {op d a b c m f : Nat} (hop : op < 2 ^ 7) (hd : d < 2 ^ 5) (ha : a < 2 ^ 5) (hb : b < 2 ^ 5) (hc : c < 2 ^ 5) (hm : m < 2 ^ 3) (hf : f < 2 ^ 2) : packV op d a b c m f < 2 ^ 32 := by
  unfold packV; omega

theorem packF_lt {op d a b x : Nat} (hop : op < 2 ^ 5) (hd : d < 2 ^ 4) (ha : a < 2 ^ 5) (hb : b < 2 ^ 5) (hx : x < 2 ^ 13) : packF op d a b x < 2 ^ 32 := by
  unfold packF; omega

end Sys2Proof.Laws.Words

open Sys2Proof Sys2Proof.Laws.Words

theorem Sys2Proof.Laws.Words.add (d : R6) (a : R6) (b : R6) : Statement (.add d a b) := by
  have hd := d.isLt
  have ha := a.isLt
  have hb := b.isLt
  exact of_one rfl rfl (packS_lt (by omega) (by omega) (by omega) (by omega) (by omega))
theorem Sys2Proof.Laws.Words.sub (d : R6) (a : R6) (b : R6) : Statement (.sub d a b) := by
  have hd := d.isLt
  have ha := a.isLt
  have hb := b.isLt
  exact of_one rfl rfl (packS_lt (by omega) (by omega) (by omega) (by omega) (by omega))
theorem Sys2Proof.Laws.Words.and (d : R6) (a : R6) (b : R6) : Statement (.and d a b) := by
  have hd := d.isLt
  have ha := a.isLt
  have hb := b.isLt
  exact of_one rfl rfl (packS_lt (by omega) (by omega) (by omega) (by omega) (by omega))
theorem Sys2Proof.Laws.Words.or (d : R6) (a : R6) (b : R6) : Statement (.or d a b) := by
  have hd := d.isLt
  have ha := a.isLt
  have hb := b.isLt
  exact of_one rfl rfl (packS_lt (by omega) (by omega) (by omega) (by omega) (by omega))
theorem Sys2Proof.Laws.Words.xor (d : R6) (a : R6) (b : R6) : Statement (.xor d a b) := by
  have hd := d.isLt
  have ha := a.isLt
  have hb := b.isLt
  exact of_one rfl rfl (packS_lt (by omega) (by omega) (by omega) (by omega) (by omega))
theorem Sys2Proof.Laws.Words.shl (d : R6) (a : R6) (b : R6) : Statement (.shl d a b) := by
  have hd := d.isLt
  have ha := a.isLt
  have hb := b.isLt
  exact of_one rfl rfl (packS_lt (by omega) (by omega) (by omega) (by omega) (by omega))
theorem Sys2Proof.Laws.Words.shr (d : R6) (a : R6) (b : R6) : Statement (.shr d a b) := by
  have hd := d.isLt
  have ha := a.isLt
  have hb := b.isLt
  exact of_one rfl rfl (packS_lt (by omega) (by omega) (by omega) (by omega) (by omega))
theorem Sys2Proof.Laws.Words.shra (d : R6) (a : R6) (b : R6) : Statement (.shra d a b) := by
  have hd := d.isLt
  have ha := a.isLt
  have hb := b.isLt
  exact of_one rfl rfl (packS_lt (by omega) (by omega) (by omega) (by omega) (by omega))
theorem Sys2Proof.Laws.Words.rol (d : R6) (a : R6) (b : R6) : Statement (.rol d a b) := by
  have hd := d.isLt
  have ha := a.isLt
  have hb := b.isLt
  exact of_one rfl rfl (packS_lt (by omega) (by omega) (by omega) (by omega) (by omega))
theorem Sys2Proof.Laws.Words.ror (d : R6) (a : R6) (b : R6) : Statement (.ror d a b) := by
  have hd := d.isLt
  have ha := a.isLt
  have hb := b.isLt
  exact of_one rfl rfl (packS_lt (by omega) (by omega) (by omega) (by omega) (by omega))
theorem Sys2Proof.Laws.Words.min (d : R6) (a : R6) (b : R6) : Statement (.min d a b) := by
  have hd := d.isLt
  have ha := a.isLt
  have hb := b.isLt
  exact of_one rfl rfl (packS_lt (by omega) (by omega) (by omega) (by omega) (by omega))
theorem Sys2Proof.Laws.Words.max (d : R6) (a : R6) (b : R6) : Statement (.max d a b) := by
  have hd := d.isLt
  have ha := a.isLt
  have hb := b.isLt
  exact of_one rfl rfl (packS_lt (by omega) (by omega) (by omega) (by omega) (by omega))
theorem Sys2Proof.Laws.Words.minu (d : R6) (a : R6) (b : R6) : Statement (.minu d a b) := by
  have hd := d.isLt
  have ha := a.isLt
  have hb := b.isLt
  exact of_one rfl rfl (packS_lt (by omega) (by omega) (by omega) (by omega) (by omega))
theorem Sys2Proof.Laws.Words.maxu (d : R6) (a : R6) (b : R6) : Statement (.maxu d a b) := by
  have hd := d.isLt
  have ha := a.isLt
  have hb := b.isLt
  exact of_one rfl rfl (packS_lt (by omega) (by omega) (by omega) (by omega) (by omega))
theorem Sys2Proof.Laws.Words.slt (d : R6) (a : R6) (b : R6) : Statement (.slt d a b) := by
  have hd := d.isLt
  have ha := a.isLt
  have hb := b.isLt
  exact of_one rfl rfl (packS_lt (by omega) (by omega) (by omega) (by omega) (by omega))
theorem Sys2Proof.Laws.Words.sltu (d : R6) (a : R6) (b : R6) : Statement (.sltu d a b) := by
  have hd := d.isLt
  have ha := a.isLt
  have hb := b.isLt
  exact of_one rfl rfl (packS_lt (by omega) (by omega) (by omega) (by omega) (by omega))
theorem Sys2Proof.Laws.Words.mul (d : R6) (a : R6) (b : R6) : Statement (.mul d a b) := by
  have hd := d.isLt
  have ha := a.isLt
  have hb := b.isLt
  exact of_one rfl rfl (packS_lt (by omega) (by omega) (by omega) (by omega) (by omega))
theorem Sys2Proof.Laws.Words.mulh (d : R6) (a : R6) (b : R6) : Statement (.mulh d a b) := by
  have hd := d.isLt
  have ha := a.isLt
  have hb := b.isLt
  exact of_one rfl rfl (packS_lt (by omega) (by omega) (by omega) (by omega) (by omega))
theorem Sys2Proof.Laws.Words.mulhu (d : R6) (a : R6) (b : R6) : Statement (.mulhu d a b) := by
  have hd := d.isLt
  have ha := a.isLt
  have hb := b.isLt
  exact of_one rfl rfl (packS_lt (by omega) (by omega) (by omega) (by omega) (by omega))
theorem Sys2Proof.Laws.Words.div (d : R6) (a : R6) (b : R6) : Statement (.div d a b) := by
  have hd := d.isLt
  have ha := a.isLt
  have hb := b.isLt
  exact of_one rfl rfl (packS_lt (by omega) (by omega) (by omega) (by omega) (by omega))
theorem Sys2Proof.Laws.Words.divu (d : R6) (a : R6) (b : R6) : Statement (.divu d a b) := by
  have hd := d.isLt
  have ha := a.isLt
  have hb := b.isLt
  exact of_one rfl rfl (packS_lt (by omega) (by omega) (by omega) (by omega) (by omega))
theorem Sys2Proof.Laws.Words.rem (d : R6) (a : R6) (b : R6) : Statement (.rem d a b) := by
  have hd := d.isLt
  have ha := a.isLt
  have hb := b.isLt
  exact of_one rfl rfl (packS_lt (by omega) (by omega) (by omega) (by omega) (by omega))
theorem Sys2Proof.Laws.Words.remu (d : R6) (a : R6) (b : R6) : Statement (.remu d a b) := by
  have hd := d.isLt
  have ha := a.isLt
  have hb := b.isLt
  exact of_one rfl rfl (packS_lt (by omega) (by omega) (by omega) (by omega) (by omega))
theorem Sys2Proof.Laws.Words.cmpeq (d : BitVec 3) (a : R6) (b : R6) : Statement (.cmpeq d a b) := by
  have hd := d.isLt
  have ha := a.isLt
  have hb := b.isLt
  exact of_one rfl rfl (packS_lt (by omega) (by omega) (by omega) (by omega) (by omega))
theorem Sys2Proof.Laws.Words.cmplt (d : BitVec 3) (a : R6) (b : R6) : Statement (.cmplt d a b) := by
  have hd := d.isLt
  have ha := a.isLt
  have hb := b.isLt
  exact of_one rfl rfl (packS_lt (by omega) (by omega) (by omega) (by omega) (by omega))
theorem Sys2Proof.Laws.Words.cmpltu (d : BitVec 3) (a : R6) (b : R6) : Statement (.cmpltu d a b) := by
  have hd := d.isLt
  have ha := a.isLt
  have hb := b.isLt
  exact of_one rfl rfl (packS_lt (by omega) (by omega) (by omega) (by omega) (by omega))
theorem Sys2Proof.Laws.Words.addi (d : R6) (a : R6) (i : BitVec 14) : Statement (.addi d a i) := by
  have hd := d.isLt
  have ha := a.isLt
  have hi := i.isLt
  exact of_one rfl rfl (packI_lt (by omega) (by omega) (by omega) (by omega))
theorem Sys2Proof.Laws.Words.andi (d : R6) (a : R6) (i : BitVec 14) : Statement (.andi d a i) := by
  have hd := d.isLt
  have ha := a.isLt
  have hi := i.isLt
  exact of_one rfl rfl (packI_lt (by omega) (by omega) (by omega) (by omega))
theorem Sys2Proof.Laws.Words.ori (d : R6) (a : R6) (i : BitVec 14) : Statement (.ori d a i) := by
  have hd := d.isLt
  have ha := a.isLt
  have hi := i.isLt
  exact of_one rfl rfl (packI_lt (by omega) (by omega) (by omega) (by omega))
theorem Sys2Proof.Laws.Words.xori (d : R6) (a : R6) (i : BitVec 14) : Statement (.xori d a i) := by
  have hd := d.isLt
  have ha := a.isLt
  have hi := i.isLt
  exact of_one rfl rfl (packI_lt (by omega) (by omega) (by omega) (by omega))
theorem Sys2Proof.Laws.Words.shli (d : R6) (a : R6) (i : BitVec 6) : Statement (.shli d a i) := by
  have hd := d.isLt
  have ha := a.isLt
  have hi := i.isLt
  exact of_one rfl rfl (packI_lt (by omega) (by omega) (by omega) (by omega))
theorem Sys2Proof.Laws.Words.shri (d : R6) (a : R6) (i : BitVec 6) : Statement (.shri d a i) := by
  have hd := d.isLt
  have ha := a.isLt
  have hi := i.isLt
  exact of_one rfl rfl (packI_lt (by omega) (by omega) (by omega) (by omega))
theorem Sys2Proof.Laws.Words.shrai (d : R6) (a : R6) (i : BitVec 6) : Statement (.shrai d a i) := by
  have hd := d.isLt
  have ha := a.isLt
  have hi := i.isLt
  exact of_one rfl rfl (packI_lt (by omega) (by omega) (by omega) (by omega))
theorem Sys2Proof.Laws.Words.slti (d : R6) (a : R6) (i : BitVec 14) : Statement (.slti d a i) := by
  have hd := d.isLt
  have ha := a.isLt
  have hi := i.isLt
  exact of_one rfl rfl (packI_lt (by omega) (by omega) (by omega) (by omega))
theorem Sys2Proof.Laws.Words.sltui (d : R6) (a : R6) (i : BitVec 14) : Statement (.sltui d a i) := by
  have hd := d.isLt
  have ha := a.isLt
  have hi := i.isLt
  exact of_one rfl rfl (packI_lt (by omega) (by omega) (by omega) (by omega))
theorem Sys2Proof.Laws.Words.muli (d : R6) (a : R6) (i : BitVec 14) : Statement (.muli d a i) := by
  have hd := d.isLt
  have ha := a.isLt
  have hi := i.isLt
  exact of_one rfl rfl (packI_lt (by omega) (by omega) (by omega) (by omega))
theorem Sys2Proof.Laws.Words.lil (d : R6) (i : BitVec 20) : Statement (.lil d i) := by
  have hd := d.isLt
  have hi := i.isLt
  exact of_one rfl rfl (by unfold packI; omega)
theorem Sys2Proof.Laws.Words.lih (d : R6) (i : BitVec 20) : Statement (.lih d i) := by
  have hd := d.isLt
  have hi := i.isLt
  exact of_one rfl rfl (by unfold packI; omega)
theorem Sys2Proof.Laws.Words.lea (d : R6) (a : R6) (i : BitVec 14) : Statement (.lea d a i) := by
  have hd := d.isLt
  have ha := a.isLt
  have hi := i.isLt
  exact of_one rfl rfl (packI_lt (by omega) (by omega) (by omega) (by omega))
theorem Sys2Proof.Laws.Words.ptag (d : R6) (a : R6) (b : R6) : Statement (.ptag d a b) := by
  have hd := d.isLt
  have ha := a.isLt
  have hb := b.isLt
  exact of_one rfl rfl (packS_lt (by omega) (by omega) (by omega) (by omega) (by omega))
theorem Sys2Proof.Laws.Words.pspace (d : R6) (a : R6) : Statement (.pspace d a) := by
  have hd := d.isLt
  have ha := a.isLt
  exact of_one rfl rfl (packS_lt (by omega) (by omega) (by omega) (by omega) (by omega))
theorem Sys2Proof.Laws.Words.sfadd (d : R6) (a : R6) (b : R6) (r : BitVec 2) : Statement (.sfadd d a b r) := by
  have hd := d.isLt
  have ha := a.isLt
  have hb := b.isLt
  have hr := r.isLt
  exact of_one rfl rfl (packS_lt (by omega) (by omega) (by omega) (by omega) (by omega))
theorem Sys2Proof.Laws.Words.sfsub (d : R6) (a : R6) (b : R6) (r : BitVec 2) : Statement (.sfsub d a b r) := by
  have hd := d.isLt
  have ha := a.isLt
  have hb := b.isLt
  have hr := r.isLt
  exact of_one rfl rfl (packS_lt (by omega) (by omega) (by omega) (by omega) (by omega))
theorem Sys2Proof.Laws.Words.sfmul (d : R6) (a : R6) (b : R6) (r : BitVec 2) : Statement (.sfmul d a b r) := by
  have hd := d.isLt
  have ha := a.isLt
  have hb := b.isLt
  have hr := r.isLt
  exact of_one rfl rfl (packS_lt (by omega) (by omega) (by omega) (by omega) (by omega))
theorem Sys2Proof.Laws.Words.sfdiv (d : R6) (a : R6) (b : R6) (r : BitVec 2) : Statement (.sfdiv d a b r) := by
  have hd := d.isLt
  have ha := a.isLt
  have hb := b.isLt
  have hr := r.isLt
  exact of_one rfl rfl (packS_lt (by omega) (by omega) (by omega) (by omega) (by omega))
theorem Sys2Proof.Laws.Words.sfsqrt (d : R6) (a : R6) (r : BitVec 2) : Statement (.sfsqrt d a r) := by
  have hd := d.isLt
  have ha := a.isLt
  have hr := r.isLt
  exact of_one rfl rfl (packS_lt (by omega) (by omega) (by omega) (by omega) (by omega))
theorem Sys2Proof.Laws.Words.sfmin (d : R6) (a : R6) (b : R6) : Statement (.sfmin d a b) := by
  have hd := d.isLt
  have ha := a.isLt
  have hb := b.isLt
  exact of_one rfl rfl (packS_lt (by omega) (by omega) (by omega) (by omega) (by omega))
theorem Sys2Proof.Laws.Words.sfmax (d : R6) (a : R6) (b : R6) : Statement (.sfmax d a b) := by
  have hd := d.isLt
  have ha := a.isLt
  have hb := b.isLt
  exact of_one rfl rfl (packS_lt (by omega) (by omega) (by omega) (by omega) (by omega))
theorem Sys2Proof.Laws.Words.sfeq (d : BitVec 3) (a : R6) (b : R6) : Statement (.sfeq d a b) := by
  have hd := d.isLt
  have ha := a.isLt
  have hb := b.isLt
  exact of_one rfl rfl (packS_lt (by omega) (by omega) (by omega) (by omega) (by omega))
theorem Sys2Proof.Laws.Words.sflt (d : BitVec 3) (a : R6) (b : R6) : Statement (.sflt d a b) := by
  have hd := d.isLt
  have ha := a.isLt
  have hb := b.isLt
  exact of_one rfl rfl (packS_lt (by omega) (by omega) (by omega) (by omega) (by omega))
theorem Sys2Proof.Laws.Words.sfle (d : BitVec 3) (a : R6) (b : R6) : Statement (.sfle d a b) := by
  have hd := d.isLt
  have ha := a.isLt
  have hb := b.isLt
  exact of_one rfl rfl (packS_lt (by omega) (by omega) (by omega) (by omega) (by omega))
theorem Sys2Proof.Laws.Words.sfcvts (d : R6) (a : R6) (r : BitVec 2) : Statement (.sfcvts d a r) := by
  have hd := d.isLt
  have ha := a.isLt
  have hr := r.isLt
  exact of_one rfl rfl (packS_lt (by omega) (by omega) (by omega) (by omega) (by omega))
theorem Sys2Proof.Laws.Words.sfcvtf (d : R6) (a : R6) (r : BitVec 2) : Statement (.sfcvtf d a r) := by
  have hd := d.isLt
  have ha := a.isLt
  have hr := r.isLt
  exact of_one rfl rfl (packS_lt (by omega) (by omega) (by omega) (by omega) (by omega))
theorem Sys2Proof.Laws.Words.ld (d : R6) (a : R6) (z : BitVec 2) (i : BitVec 12) : Statement (.ld d a z i) := by
  have hd := d.isLt
  have ha := a.isLt
  have hz := z.isLt
  have hi := i.isLt
  exact of_one rfl rfl (packM_lt (by omega) (by omega) (by omega) (by omega) (by omega))
theorem Sys2Proof.Laws.Words.st (d : R6) (a : R6) (z : BitVec 2) (i : BitVec 12) : Statement (.st d a z i) := by
  have hd := d.isLt
  have ha := a.isLt
  have hz := z.isLt
  have hi := i.isLt
  exact of_one rfl rfl (packM_lt (by omega) (by omega) (by omega) (by omega) (by omega))
theorem Sys2Proof.Laws.Words.ldx (d : R6) (a : R6) (z : BitVec 2) (i : BitVec 12) : Statement (.ldx d a z i) := by
  have hd := d.isLt
  have ha := a.isLt
  have hz := z.isLt
  have hi := i.isLt
  exact of_one rfl rfl (packM_lt (by omega) (by omega) (by omega) (by omega) (by omega))
theorem Sys2Proof.Laws.Words.stx (d : R6) (a : R6) (z : BitVec 2) (i : BitVec 12) : Statement (.stx d a z i) := by
  have hd := d.isLt
  have ha := a.isLt
  have hz := z.isLt
  have hi := i.isLt
  exact of_one rfl rfl (packM_lt (by omega) (by omega) (by omega) (by omega) (by omega))
theorem Sys2Proof.Laws.Words.amoAdd (d : R6) (a : R6) (b : R6) (z : BitVec 2) : Statement (.amoAdd d a b z) := by
  have hd := d.isLt
  have ha := a.isLt
  have hb := b.isLt
  have hz := z.isLt
  exact of_one rfl rfl (packS_lt (by omega) (by omega) (by omega) (by omega) (by omega))
theorem Sys2Proof.Laws.Words.amoAnd (d : R6) (a : R6) (b : R6) (z : BitVec 2) : Statement (.amoAnd d a b z) := by
  have hd := d.isLt
  have ha := a.isLt
  have hb := b.isLt
  have hz := z.isLt
  exact of_one rfl rfl (packS_lt (by omega) (by omega) (by omega) (by omega) (by omega))
theorem Sys2Proof.Laws.Words.amoOr (d : R6) (a : R6) (b : R6) (z : BitVec 2) : Statement (.amoOr d a b z) := by
  have hd := d.isLt
  have ha := a.isLt
  have hb := b.isLt
  have hz := z.isLt
  exact of_one rfl rfl (packS_lt (by omega) (by omega) (by omega) (by omega) (by omega))
theorem Sys2Proof.Laws.Words.amoXor (d : R6) (a : R6) (b : R6) (z : BitVec 2) : Statement (.amoXor d a b z) := by
  have hd := d.isLt
  have ha := a.isLt
  have hb := b.isLt
  have hz := z.isLt
  exact of_one rfl rfl (packS_lt (by omega) (by omega) (by omega) (by omega) (by omega))
theorem Sys2Proof.Laws.Words.amoMin (d : R6) (a : R6) (b : R6) (z : BitVec 2) : Statement (.amoMin d a b z) := by
  have hd := d.isLt
  have ha := a.isLt
  have hb := b.isLt
  have hz := z.isLt
  exact of_one rfl rfl (packS_lt (by omega) (by omega) (by omega) (by omega) (by omega))
theorem Sys2Proof.Laws.Words.amoMax (d : R6) (a : R6) (b : R6) (z : BitVec 2) : Statement (.amoMax d a b z) := by
  have hd := d.isLt
  have ha := a.isLt
  have hb := b.isLt
  have hz := z.isLt
  exact of_one rfl rfl (packS_lt (by omega) (by omega) (by omega) (by omega) (by omega))
theorem Sys2Proof.Laws.Words.amoMinu (d : R6) (a : R6) (b : R6) (z : BitVec 2) : Statement (.amoMinu d a b z) := by
  have hd := d.isLt
  have ha := a.isLt
  have hb := b.isLt
  have hz := z.isLt
  exact of_one rfl rfl (packS_lt (by omega) (by omega) (by omega) (by omega) (by omega))
theorem Sys2Proof.Laws.Words.amoMaxu (d : R6) (a : R6) (b : R6) (z : BitVec 2) : Statement (.amoMaxu d a b z) := by
  have hd := d.isLt
  have ha := a.isLt
  have hb := b.isLt
  have hz := z.isLt
  exact of_one rfl rfl (packS_lt (by omega) (by omega) (by omega) (by omega) (by omega))
theorem Sys2Proof.Laws.Words.amoXchg (d : R6) (a : R6) (b : R6) (z : BitVec 2) : Statement (.amoXchg d a b z) := by
  have hd := d.isLt
  have ha := a.isLt
  have hb := b.isLt
  have hz := z.isLt
  exact of_one rfl rfl (packS_lt (by omega) (by omega) (by omega) (by omega) (by omega))
theorem Sys2Proof.Laws.Words.amoFadd (d : R6) (a : R6) (b : R6) : Statement (.amoFadd d a b) := by
  have hd := d.isLt
  have ha := a.isLt
  have hb := b.isLt
  exact of_one rfl rfl (packS_lt (by omega) (by omega) (by omega) (by omega) (by omega))
theorem Sys2Proof.Laws.Words.cas (d : R6) (a : R6) (b : R6) (z : BitVec 2) : Statement (.cas d a b z) := by
  have hd := d.isLt
  have ha := a.isLt
  have hb := b.isLt
  have hz := z.isLt
  exact of_one rfl rfl (packS_lt (by omega) (by omega) (by omega) (by omega) (by omega))
theorem Sys2Proof.Laws.Words.br (c : BitVec 4) (h : BitVec 2) (a : R6) (o : BitVec 14) : Statement (.br c h a o) := by
  have hc := c.isLt
  have hh := h.isLt
  have ha := a.isLt
  have ho := o.isLt
  exact of_one rfl rfl (packB_lt (by omega) (by omega) (by omega) (by omega) (by omega))
theorem Sys2Proof.Laws.Words.checkS (h : BitVec 2) (a : R6) (o : BitVec 14) : Statement (.checkS h a o) := by
  have hh := h.isLt
  have ha := a.isLt
  have ho := o.isLt
  exact of_one rfl rfl (packB_lt (by omega) (by omega) (by omega) (by omega) (by omega))
theorem Sys2Proof.Laws.Words.checkP (h : BitVec 2) (a : BitVec 3) (o : BitVec 14) : Statement (.checkP h a o) := by
  have hh := h.isLt
  have ha := a.isLt
  have ho := o.isLt
  exact of_one rfl rfl (packB_lt (by omega) (by omega) (by omega) (by omega) (by omega))
theorem Sys2Proof.Laws.Words.loop (l : BitVec 2) (a : R6) (o : BitVec 14) : Statement (.loop l a o) := by
  have hl := l.isLt
  have ha := a.isLt
  have ho := o.isLt
  exact of_one rfl rfl (packB_lt (by omega) (by omega) (by omega) (by omega) (by omega))
theorem Sys2Proof.Laws.Words.jmp (o : BitVec 26) : Statement (.jmp o) := by
  have ho := o.isLt
  exact of_one rfl rfl (packJ_lt (by omega) (by omega))
theorem Sys2Proof.Laws.Words.call (o : BitVec 26) : Statement (.call o) := by
  have ho := o.isLt
  exact of_one rfl rfl (packJ_lt (by omega) (by omega))
theorem Sys2Proof.Laws.Words.sel (d : R6) (a : R6) (b : R6) (p : BitVec 3) : Statement (.sel d a b p) := by
  have hd := d.isLt
  have ha := a.isLt
  have hb := b.isLt
  have hp := p.isLt
  exact of_one rfl rfl (packS_lt (by omega) (by omega) (by omega) (by omega) (by omega))
theorem Sys2Proof.Laws.Words.sxv (d : R5) (a : R6) : Statement (.sxv d a) := by
  have hd := d.isLt
  have ha := a.isLt
  exact of_one rfl rfl (packS_lt (by omega) (by omega) (by omega) (by omega) (by omega))
theorem Sys2Proof.Laws.Words.vxs (d : R6) (a : R5) (b : R6) : Statement (.vxs d a b) := by
  have hd := d.isLt
  have ha := a.isLt
  have hb := b.isLt
  exact of_one rfl rfl (packS_lt (by omega) (by omega) (by omega) (by omega) (by omega))
theorem Sys2Proof.Laws.Words.go (e : BitVec 4) (g : BitVec 6) (t : BitVec 16) : Statement (.go e g t) := by
  have he := e.isLt
  have hg := g.isLt
  have ht := t.isLt
  exact of_one rfl rfl (packL_lt (by omega) (by omega) (by omega) (by omega))
theorem Sys2Proof.Laws.Words.push (d : R6) : Statement (.push d) := by
  have hd := d.isLt
  exact of_one rfl rfl (packI_lt (by omega) (by omega) (by omega) (by omega))
theorem Sys2Proof.Laws.Words.tlwait (d : R6) (q : R6) (i : BitVec 14) : Statement (.tlwait d q i) := by
  have hd := d.isLt
  have hq := q.isLt
  have hi := i.isLt
  exact of_one rfl rfl (packI_lt (by omega) (by omega) (by omega) (by omega))
theorem Sys2Proof.Laws.Words.tlread (d : R6) (q : R6) : Statement (.tlread d q) := by
  have hd := d.isLt
  have hq := q.isLt
  exact of_one rfl rfl (packI_lt (by omega) (by omega) (by omega) (by omega))
theorem Sys2Proof.Laws.Words.tlreadFail (d : R6) (q : R6) : Statement (.tlreadFail d q) := by
  have hd := d.isLt
  have hq := q.isLt
  exact of_one rfl rfl (packI_lt (by omega) (by omega) (by omega) (by omega))
theorem Sys2Proof.Laws.Words.pop (d : R6) : Statement (.pop d) := by
  have hd := d.isLt
  exact of_one rfl rfl (packI_lt (by omega) (by omega) (by omega) (by omega))
theorem Sys2Proof.Laws.Words.popTag (d : R6) : Statement (.popTag d) := by
  have hd := d.isLt
  exact of_one rfl rfl (packI_lt (by omega) (by omega) (by omega) (by omega))
theorem Sys2Proof.Laws.Words.peekq (d : R6) : Statement (.peekq d) := by
  have hd := d.isLt
  exact of_one rfl rfl (packI_lt (by omega) (by omega) (by omega) (by omega))
theorem Sys2Proof.Laws.Words.xlateRead (h : BitVec 4) (a : R6) : Statement (.xlateRead h a) := by
  have hh := h.isLt
  have ha := a.isLt
  exact of_one rfl rfl (packS_lt (by omega) (by omega) (by omega) (by omega) (by omega))
theorem Sys2Proof.Laws.Words.xlateWrite (h : BitVec 4) (a : R6) : Statement (.xlateWrite h a) := by
  have hh := h.isLt
  have ha := a.isLt
  exact of_one rfl rfl (packS_lt (by omega) (by omega) (by omega) (by omega) (by omega))
theorem Sys2Proof.Laws.Words.slook (d : R6) (a : R6) (b : R6) : Statement (.slook d a b) := by
  have hd := d.isLt
  have ha := a.isLt
  have hb := b.isLt
  exact of_one rfl rfl (packS_lt (by omega) (by omega) (by omega) (by omega) (by omega))
theorem Sys2Proof.Laws.Words.sfill (d : R6) (a : R6) (b : R6) : Statement (.sfill d a b) := by
  have hd := d.isLt
  have ha := a.isLt
  have hb := b.isLt
  exact of_one rfl rfl (packS_lt (by omega) (by omega) (by omega) (by omega) (by omega))
theorem Sys2Proof.Laws.Words.sevict (d : R6) (a : R6) : Statement (.sevict d a) := by
  have hd := d.isLt
  have ha := a.isLt
  exact of_one rfl rfl (packS_lt (by omega) (by omega) (by omega) (by omega) (by omega))
theorem Sys2Proof.Laws.Words.phase (a : R6) (i : BitVec 8) : Statement (.phase a i) := by
  have ha := a.isLt
  have hi := i.isLt
  exact of_one rfl rfl (packI_lt (by omega) (by omega) (by omega) (by omega))
theorem Sys2Proof.Laws.Words.wid (d : R6) (i : BitVec 14) : Statement (.wid d i) := by
  have hd := d.isLt
  have hi := i.isLt
  exact of_one rfl rfl (packI_lt (by omega) (by omega) (by omega) (by omega))
theorem Sys2Proof.Laws.Words.csrr (k : BitVec 14) (a : R6) : Statement (.csrr k a) := by
  have hk := k.isLt
  have ha := a.isLt
  exact of_one rfl rfl (packX_lt (by omega) (by omega) (by omega) (by omega))
theorem Sys2Proof.Laws.Words.csrw (k : BitVec 14) (a : R6) : Statement (.csrw k a) := by
  have hk := k.isLt
  have ha := a.isLt
  exact of_one rfl rfl (packX_lt (by omega) (by omega) (by omega) (by omega))
theorem Sys2Proof.Laws.Words.nop : Statement .nop := by
  exact of_one rfl rfl (packX_lt (by omega) (by omega) (by omega) (by omega))
theorem Sys2Proof.Laws.Words.mark : Statement .mark := by
  exact of_one rfl rfl (packX_lt (by omega) (by omega) (by omega) (by omega))
theorem Sys2Proof.Laws.Words.fence (s : BitVec 2) : Statement (.fence s) := by
  have hs := s.isLt
  exact of_one rfl rfl (packX_lt (by omega) (by omega) (by omega) (by omega))
theorem Sys2Proof.Laws.Words.trap (k : BitVec 14) : Statement (.trap k) := by
  have hk := k.isLt
  exact of_one rfl rfl (packX_lt (by omega) (by omega) (by omega) (by omega))
theorem Sys2Proof.Laws.Words.halt : Statement .halt := by
  exact of_one rfl rfl (packX_lt (by omega) (by omega) (by omega) (by omega))
theorem Sys2Proof.Laws.Words.done : Statement .done := by
  exact of_one rfl rfl (packX_lt (by omega) (by omega) (by omega) (by omega))
theorem Sys2Proof.Laws.Words.ret : Statement .ret := by
  exact of_one rfl rfl (packX_lt (by omega) (by omega) (by omega) (by omega))
theorem Sys2Proof.Laws.Words.cad (d : R6) : Statement (.cad d) := by
  have hd := d.isLt
  exact of_one rfl rfl (packX_lt (by omega) (by omega) (by omega) (by omega))
theorem Sys2Proof.Laws.Words.tick (k : BitVec 14) (a : R6) : Statement (.tick k a) := by
  have hk := k.isLt
  have ha := a.isLt
  exact of_one rfl rfl (packX_lt (by omega) (by omega) (by omega) (by omega))
theorem Sys2Proof.Laws.Words.stand (a : R6) : Statement (.stand a) := by
  have ha := a.isLt
  exact of_one rfl rfl (packX_lt (by omega) (by omega) (by omega) (by omega))
theorem Sys2Proof.Laws.Words.standQ (a : R6) : Statement (.standQ a) := by
  have ha := a.isLt
  exact of_one rfl rfl (packX_lt (by omega) (by omega) (by omega) (by omega))
theorem Sys2Proof.Laws.Words.bar (l : BitVec 2) (i : BitVec 4) : Statement (.bar l i) := by
  have hl := l.isLt
  have hi := i.isLt
  exact of_one rfl rfl (packX_lt (by omega) (by omega) (by omega) (by omega))
theorem Sys2Proof.Laws.Words.xinv (h : BitVec 4) : Statement (.xinv h) := by
  have hh := h.isLt
  exact of_one rfl rfl (packX_lt (by omega) (by omega) (by omega) (by omega))
theorem Sys2Proof.Laws.Words.fload (g : R6) (t : BitVec 16) : Statement (.fload g t) := by
  have hg := g.isLt
  have ht := t.isLt
  exact of_one rfl rfl (packL_lt (by omega) (by omega) (by omega) (by omega))
theorem Sys2Proof.Laws.Words.fbind (g : R6) (c : BitVec 4) : Statement (.fbind g c) := by
  have hg := g.isLt
  have hc := c.isLt
  exact of_one rfl rfl (packL_lt (by omega) (by omega) (by omega) (by omega))
theorem Sys2Proof.Laws.Words.vadd (d : R5) (a : R5) (b : R5) (m : BitVec 3) (r : BitVec 2) : Statement (.vadd d a b m r) := by
  have hd := d.isLt
  have ha := a.isLt
  have hb := b.isLt
  have hm := m.isLt
  have hr := r.isLt
  exact of_one rfl rfl (packV_lt (by omega) (by omega) (by omega) (by omega) (by omega) (by omega) (by omega))
theorem Sys2Proof.Laws.Words.vsub (d : R5) (a : R5) (b : R5) (m : BitVec 3) (r : BitVec 2) : Statement (.vsub d a b m r) := by
  have hd := d.isLt
  have ha := a.isLt
  have hb := b.isLt
  have hm := m.isLt
  have hr := r.isLt
  exact of_one rfl rfl (packV_lt (by omega) (by omega) (by omega) (by omega) (by omega) (by omega) (by omega))
theorem Sys2Proof.Laws.Words.vmul (d : R5) (a : R5) (b : R5) (m : BitVec 3) (r : BitVec 2) : Statement (.vmul d a b m r) := by
  have hd := d.isLt
  have ha := a.isLt
  have hb := b.isLt
  have hm := m.isLt
  have hr := r.isLt
  exact of_one rfl rfl (packV_lt (by omega) (by omega) (by omega) (by omega) (by omega) (by omega) (by omega))
theorem Sys2Proof.Laws.Words.vdiv (d : R5) (a : R5) (b : R5) (m : BitVec 3) (r : BitVec 2) : Statement (.vdiv d a b m r) := by
  have hd := d.isLt
  have ha := a.isLt
  have hb := b.isLt
  have hm := m.isLt
  have hr := r.isLt
  exact of_one rfl rfl (packV_lt (by omega) (by omega) (by omega) (by omega) (by omega) (by omega) (by omega))
theorem Sys2Proof.Laws.Words.vmin (d : R5) (a : R5) (b : R5) (m : BitVec 3) : Statement (.vmin d a b m) := by
  have hd := d.isLt
  have ha := a.isLt
  have hb := b.isLt
  have hm := m.isLt
  exact of_one rfl rfl (packV_lt (by omega) (by omega) (by omega) (by omega) (by omega) (by omega) (by omega))
theorem Sys2Proof.Laws.Words.vmax (d : R5) (a : R5) (b : R5) (m : BitVec 3) : Statement (.vmax d a b m) := by
  have hd := d.isLt
  have ha := a.isLt
  have hb := b.isLt
  have hm := m.isLt
  exact of_one rfl rfl (packV_lt (by omega) (by omega) (by omega) (by omega) (by omega) (by omega) (by omega))
theorem Sys2Proof.Laws.Words.vfma (d : R5) (a : R5) (b : R5) (c : R5) (m : BitVec 3) (r : BitVec 2) : Statement (.vfma d a b c m r) := by
  have hd := d.isLt
  have ha := a.isLt
  have hb := b.isLt
  have hc := c.isLt
  have hm := m.isLt
  have hr := r.isLt
  exact of_one rfl rfl (packV_lt (by omega) (by omega) (by omega) (by omega) (by omega) (by omega) (by omega))
theorem Sys2Proof.Laws.Words.vsqrt (d : R5) (a : R5) (m : BitVec 3) (r : BitVec 2) : Statement (.vsqrt d a m r) := by
  have hd := d.isLt
  have ha := a.isLt
  have hm := m.isLt
  have hr := r.isLt
  exact of_one rfl rfl (packV_lt (by omega) (by omega) (by omega) (by omega) (by omega) (by omega) (by omega))
theorem Sys2Proof.Laws.Words.vrcp (d : R5) (a : R5) (m : BitVec 3) (r : BitVec 2) : Statement (.vrcp d a m r) := by
  have hd := d.isLt
  have ha := a.isLt
  have hm := m.isLt
  have hr := r.isLt
  exact of_one rfl rfl (packV_lt (by omega) (by omega) (by omega) (by omega) (by omega) (by omega) (by omega))
theorem Sys2Proof.Laws.Words.vrsqrt (d : R5) (a : R5) (m : BitVec 3) (r : BitVec 2) : Statement (.vrsqrt d a m r) := by
  have hd := d.isLt
  have ha := a.isLt
  have hm := m.isLt
  have hr := r.isLt
  exact of_one rfl rfl (packV_lt (by omega) (by omega) (by omega) (by omega) (by omega) (by omega) (by omega))
theorem Sys2Proof.Laws.Words.vexp2 (d : R5) (a : R5) (m : BitVec 3) (r : BitVec 2) : Statement (.vexp2 d a m r) := by
  have hd := d.isLt
  have ha := a.isLt
  have hm := m.isLt
  have hr := r.isLt
  exact of_one rfl rfl (packV_lt (by omega) (by omega) (by omega) (by omega) (by omega) (by omega) (by omega))
theorem Sys2Proof.Laws.Words.vlog2 (d : R5) (a : R5) (m : BitVec 3) (r : BitVec 2) : Statement (.vlog2 d a m r) := by
  have hd := d.isLt
  have ha := a.isLt
  have hm := m.isLt
  have hr := r.isLt
  exact of_one rfl rfl (packV_lt (by omega) (by omega) (by omega) (by omega) (by omega) (by omega) (by omega))
theorem Sys2Proof.Laws.Words.vln (d : R5) (a : R5) (m : BitVec 3) (r : BitVec 2) : Statement (.vln d a m r) := by
  have hd := d.isLt
  have ha := a.isLt
  have hm := m.isLt
  have hr := r.isLt
  exact of_one rfl rfl (packV_lt (by omega) (by omega) (by omega) (by omega) (by omega) (by omega) (by omega))
theorem Sys2Proof.Laws.Words.vtanh (d : R5) (a : R5) (m : BitVec 3) (r : BitVec 2) : Statement (.vtanh d a m r) := by
  have hd := d.isLt
  have ha := a.isLt
  have hm := m.isLt
  have hr := r.isLt
  exact of_one rfl rfl (packV_lt (by omega) (by omega) (by omega) (by omega) (by omega) (by omega) (by omega))
theorem Sys2Proof.Laws.Words.vneg (d : R5) (a : R5) (m : BitVec 3) : Statement (.vneg d a m) := by
  have hd := d.isLt
  have ha := a.isLt
  have hm := m.isLt
  exact of_one rfl rfl (packV_lt (by omega) (by omega) (by omega) (by omega) (by omega) (by omega) (by omega))
theorem Sys2Proof.Laws.Words.vabs (d : R5) (a : R5) (m : BitVec 3) : Statement (.vabs d a m) := by
  have hd := d.isLt
  have ha := a.isLt
  have hm := m.isLt
  exact of_one rfl rfl (packV_lt (by omega) (by omega) (by omega) (by omega) (by omega) (by omega) (by omega))
theorem Sys2Proof.Laws.Words.viadd (d : R5) (a : R5) (b : R5) (m : BitVec 3) : Statement (.viadd d a b m) := by
  have hd := d.isLt
  have ha := a.isLt
  have hb := b.isLt
  have hm := m.isLt
  exact of_one rfl rfl (packV_lt (by omega) (by omega) (by omega) (by omega) (by omega) (by omega) (by omega))
theorem Sys2Proof.Laws.Words.visub (d : R5) (a : R5) (b : R5) (m : BitVec 3) : Statement (.visub d a b m) := by
  have hd := d.isLt
  have ha := a.isLt
  have hb := b.isLt
  have hm := m.isLt
  exact of_one rfl rfl (packV_lt (by omega) (by omega) (by omega) (by omega) (by omega) (by omega) (by omega))
theorem Sys2Proof.Laws.Words.vimul (d : R5) (a : R5) (b : R5) (m : BitVec 3) : Statement (.vimul d a b m) := by
  have hd := d.isLt
  have ha := a.isLt
  have hb := b.isLt
  have hm := m.isLt
  exact of_one rfl rfl (packV_lt (by omega) (by omega) (by omega) (by omega) (by omega) (by omega) (by omega))
theorem Sys2Proof.Laws.Words.vimin (d : R5) (a : R5) (b : R5) (m : BitVec 3) : Statement (.vimin d a b m) := by
  have hd := d.isLt
  have ha := a.isLt
  have hb := b.isLt
  have hm := m.isLt
  exact of_one rfl rfl (packV_lt (by omega) (by omega) (by omega) (by omega) (by omega) (by omega) (by omega))
theorem Sys2Proof.Laws.Words.vimax (d : R5) (a : R5) (b : R5) (m : BitVec 3) : Statement (.vimax d a b m) := by
  have hd := d.isLt
  have ha := a.isLt
  have hb := b.isLt
  have hm := m.isLt
  exact of_one rfl rfl (packV_lt (by omega) (by omega) (by omega) (by omega) (by omega) (by omega) (by omega))
theorem Sys2Proof.Laws.Words.vand (d : R5) (a : R5) (b : R5) (m : BitVec 3) : Statement (.vand d a b m) := by
  have hd := d.isLt
  have ha := a.isLt
  have hb := b.isLt
  have hm := m.isLt
  exact of_one rfl rfl (packV_lt (by omega) (by omega) (by omega) (by omega) (by omega) (by omega) (by omega))
theorem Sys2Proof.Laws.Words.vor (d : R5) (a : R5) (b : R5) (m : BitVec 3) : Statement (.vor d a b m) := by
  have hd := d.isLt
  have ha := a.isLt
  have hb := b.isLt
  have hm := m.isLt
  exact of_one rfl rfl (packV_lt (by omega) (by omega) (by omega) (by omega) (by omega) (by omega) (by omega))
theorem Sys2Proof.Laws.Words.vxor (d : R5) (a : R5) (b : R5) (m : BitVec 3) : Statement (.vxor d a b m) := by
  have hd := d.isLt
  have ha := a.isLt
  have hb := b.isLt
  have hm := m.isLt
  exact of_one rfl rfl (packV_lt (by omega) (by omega) (by omega) (by omega) (by omega) (by omega) (by omega))
theorem Sys2Proof.Laws.Words.vshl (d : R5) (a : R5) (b : R5) (m : BitVec 3) : Statement (.vshl d a b m) := by
  have hd := d.isLt
  have ha := a.isLt
  have hb := b.isLt
  have hm := m.isLt
  exact of_one rfl rfl (packV_lt (by omega) (by omega) (by omega) (by omega) (by omega) (by omega) (by omega))
theorem Sys2Proof.Laws.Words.vshr (d : R5) (a : R5) (b : R5) (m : BitVec 3) : Statement (.vshr d a b m) := by
  have hd := d.isLt
  have ha := a.isLt
  have hb := b.isLt
  have hm := m.isLt
  exact of_one rfl rfl (packV_lt (by omega) (by omega) (by omega) (by omega) (by omega) (by omega) (by omega))
theorem Sys2Proof.Laws.Words.vshra (d : R5) (a : R5) (b : R5) (m : BitVec 3) : Statement (.vshra d a b m) := by
  have hd := d.isLt
  have ha := a.isLt
  have hb := b.isLt
  have hm := m.isLt
  exact of_one rfl rfl (packV_lt (by omega) (by omega) (by omega) (by omega) (by omega) (by omega) (by omega))
theorem Sys2Proof.Laws.Words.viadds (d : R5) (a : R5) (b : R5) (m : BitVec 3) : Statement (.viadds d a b m) := by
  have hd := d.isLt
  have ha := a.isLt
  have hb := b.isLt
  have hm := m.isLt
  exact of_one rfl rfl (packV_lt (by omega) (by omega) (by omega) (by omega) (by omega) (by omega) (by omega))
theorem Sys2Proof.Laws.Words.vcmpeq (d : BitVec 3) (a : R5) (b : R5) (m : BitVec 3) : Statement (.vcmpeq d a b m) := by
  have hd := d.isLt
  have ha := a.isLt
  have hb := b.isLt
  have hm := m.isLt
  exact of_one rfl rfl (packV_lt (by omega) (by omega) (by omega) (by omega) (by omega) (by omega) (by omega))
theorem Sys2Proof.Laws.Words.vcmpne (d : BitVec 3) (a : R5) (b : R5) (m : BitVec 3) : Statement (.vcmpne d a b m) := by
  have hd := d.isLt
  have ha := a.isLt
  have hb := b.isLt
  have hm := m.isLt
  exact of_one rfl rfl (packV_lt (by omega) (by omega) (by omega) (by omega) (by omega) (by omega) (by omega))
theorem Sys2Proof.Laws.Words.vcmplt (d : BitVec 3) (a : R5) (b : R5) (m : BitVec 3) : Statement (.vcmplt d a b m) := by
  have hd := d.isLt
  have ha := a.isLt
  have hb := b.isLt
  have hm := m.isLt
  exact of_one rfl rfl (packV_lt (by omega) (by omega) (by omega) (by omega) (by omega) (by omega) (by omega))
theorem Sys2Proof.Laws.Words.vcmple (d : BitVec 3) (a : R5) (b : R5) (m : BitVec 3) : Statement (.vcmple d a b m) := by
  have hd := d.isLt
  have ha := a.isLt
  have hb := b.isLt
  have hm := m.isLt
  exact of_one rfl rfl (packV_lt (by omega) (by omega) (by omega) (by omega) (by omega) (by omega) (by omega))
theorem Sys2Proof.Laws.Words.vsel (d : R5) (a : R5) (b : R5) (c : BitVec 3) (m : BitVec 3) : Statement (.vsel d a b c m) := by
  have hd := d.isLt
  have ha := a.isLt
  have hb := b.isLt
  have hc := c.isLt
  have hm := m.isLt
  exact of_one rfl rfl (packV_lt (by omega) (by omega) (by omega) (by omega) (by omega) (by omega) (by omega))
theorem Sys2Proof.Laws.Words.vmand (d : BitVec 3) (a : BitVec 3) (b : BitVec 3) : Statement (.vmand d a b) := by
  have hd := d.isLt
  have ha := a.isLt
  have hb := b.isLt
  exact of_one rfl rfl (packV_lt (by omega) (by omega) (by omega) (by omega) (by omega) (by omega) (by omega))
theorem Sys2Proof.Laws.Words.vmor (d : BitVec 3) (a : BitVec 3) (b : BitVec 3) : Statement (.vmor d a b) := by
  have hd := d.isLt
  have ha := a.isLt
  have hb := b.isLt
  exact of_one rfl rfl (packV_lt (by omega) (by omega) (by omega) (by omega) (by omega) (by omega) (by omega))
theorem Sys2Proof.Laws.Words.vmxor (d : BitVec 3) (a : BitVec 3) (b : BitVec 3) : Statement (.vmxor d a b) := by
  have hd := d.isLt
  have ha := a.isLt
  have hb := b.isLt
  exact of_one rfl rfl (packV_lt (by omega) (by omega) (by omega) (by omega) (by omega) (by omega) (by omega))
theorem Sys2Proof.Laws.Words.vmnot (d : BitVec 3) (a : BitVec 3) : Statement (.vmnot d a) := by
  have hd := d.isLt
  have ha := a.isLt
  exact of_one rfl rfl (packV_lt (by omega) (by omega) (by omega) (by omega) (by omega) (by omega) (by omega))
theorem Sys2Proof.Laws.Words.vcvt (d : R5) (a : R5) (t : R5) (o : BitVec 1) (m : BitVec 3) (r : BitVec 2) : Statement (.vcvt d a t o m r) := by
  have hd := d.isLt
  have ha := a.isLt
  have ht := t.isLt
  have ho := o.isLt
  have hm := m.isLt
  have hr := r.isLt
  exact of_one rfl rfl (packV_lt (by omega) (by omega) (by omega) (by omega) (by omega) (by omega) (by omega))
theorem Sys2Proof.Laws.Words.vpack (d : R5) (a : R5) (f : R5) (c : R5) (r : BitVec 2) : Statement (.vpack d a f c r) := by
  have hd := d.isLt
  have ha := a.isLt
  have hf := f.isLt
  have hc := c.isLt
  have hr := r.isLt
  exact of_one rfl rfl (packV_lt (by omega) (by omega) (by omega) (by omega) (by omega) (by omega) (by omega))
theorem Sys2Proof.Laws.Words.vunpack (d : R5) (a : R5) (f : R5) (c : R5) : Statement (.vunpack d a f c) := by
  have hd := d.isLt
  have ha := a.isLt
  have hf := f.isLt
  have hc := c.isLt
  exact of_one rfl rfl (packV_lt (by omega) (by omega) (by omega) (by omega) (by omega) (by omega) (by omega))
theorem Sys2Proof.Laws.Words.vprune24 (d : R5) (a : R5) (b : R5) (m : BitVec 3) : Statement (.vprune24 d a b m) := by
  have hd := d.isLt
  have ha := a.isLt
  have hb := b.isLt
  have hm := m.isLt
  exact of_one rfl rfl (packV_lt (by omega) (by omega) (by omega) (by omega) (by omega) (by omega) (by omega))
theorem Sys2Proof.Laws.Words.vrsum (d : R5) (a : R5) (m : BitVec 3) : Statement (.vrsum d a m) := by
  have hd := d.isLt
  have ha := a.isLt
  have hm := m.isLt
  exact of_one rfl rfl (packV_lt (by omega) (by omega) (by omega) (by omega) (by omega) (by omega) (by omega))
theorem Sys2Proof.Laws.Words.vrmax (d : R5) (a : R5) (m : BitVec 3) : Statement (.vrmax d a m) := by
  have hd := d.isLt
  have ha := a.isLt
  have hm := m.isLt
  exact of_one rfl rfl (packV_lt (by omega) (by omega) (by omega) (by omega) (by omega) (by omega) (by omega))
theorem Sys2Proof.Laws.Words.vrmin (d : R5) (a : R5) (m : BitVec 3) : Statement (.vrmin d a m) := by
  have hd := d.isLt
  have ha := a.isLt
  have hm := m.isLt
  exact of_one rfl rfl (packV_lt (by omega) (by omega) (by omega) (by omega) (by omega) (by omega) (by omega))
theorem Sys2Proof.Laws.Words.vscan (d : R5) (a : R5) (m : BitVec 3) : Statement (.vscan d a m) := by
  have hd := d.isLt
  have ha := a.isLt
  have hm := m.isLt
  exact of_one rfl rfl (packV_lt (by omega) (by omega) (by omega) (by omega) (by omega) (by omega) (by omega))
theorem Sys2Proof.Laws.Words.vargmax (d : R5) (a : R5) (m : BitVec 3) : Statement (.vargmax d a m) := by
  have hd := d.isLt
  have ha := a.isLt
  have hm := m.isLt
  exact of_one rfl rfl (packV_lt (by omega) (by omega) (by omega) (by omega) (by omega) (by omega) (by omega))
theorem Sys2Proof.Laws.Words.vpopnz (d : R5) (a : R5) (m : BitVec 3) : Statement (.vpopnz d a m) := by
  have hd := d.isLt
  have ha := a.isLt
  have hm := m.isLt
  exact of_one rfl rfl (packV_lt (by omega) (by omega) (by omega) (by omega) (by omega) (by omega) (by omega))
theorem Sys2Proof.Laws.Words.vnzmap (d : R5) (a : R5) (m : BitVec 3) : Statement (.vnzmap d a m) := by
  have hd := d.isLt
  have ha := a.isLt
  have hm := m.isLt
  exact of_one rfl rfl (packV_lt (by omega) (by omega) (by omega) (by omega) (by omega) (by omega) (by omega))
theorem Sys2Proof.Laws.Words.vperm (d : R5) (a : R5) (b : R5) (m : BitVec 3) : Statement (.vperm d a b m) := by
  have hd := d.isLt
  have ha := a.isLt
  have hb := b.isLt
  have hm := m.isLt
  exact of_one rfl rfl (packV_lt (by omega) (by omega) (by omega) (by omega) (by omega) (by omega) (by omega))
theorem Sys2Proof.Laws.Words.vslide (d : R5) (a : R5) (b : R5) (m : BitVec 3) : Statement (.vslide d a b m) := by
  have hd := d.isLt
  have ha := a.isLt
  have hb := b.isLt
  have hm := m.isLt
  exact of_one rfl rfl (packV_lt (by omega) (by omega) (by omega) (by omega) (by omega) (by omega) (by omega))
theorem Sys2Proof.Laws.Words.vbcast (d : R5) (a : R5) (b : R5) (m : BitVec 3) : Statement (.vbcast d a b m) := by
  have hd := d.isLt
  have ha := a.isLt
  have hb := b.isLt
  have hm := m.isLt
  exact of_one rfl rfl (packV_lt (by omega) (by omega) (by omega) (by omega) (by omega) (by omega) (by omega))
theorem Sys2Proof.Laws.Words.vld (d : R5) (a : R5) (o : BitVec 15) : Statement (.vld d a o) := by
  have hd := d.isLt
  have ha := a.isLt
  have ho := o.isLt
  exact of_one rfl rfl (by omega)
theorem Sys2Proof.Laws.Words.vst (d : R5) (a : R5) (o : BitVec 15) : Statement (.vst d a o) := by
  have hd := d.isLt
  have ha := a.isLt
  have ho := o.isLt
  exact of_one rfl rfl (by omega)
theorem Sys2Proof.Laws.Words.vrand (d : R5) (a : R5) (b : R5) (m : BitVec 3) : Statement (.vrand d a b m) := by
  have hd := d.isLt
  have ha := a.isLt
  have hb := b.isLt
  have hm := m.isLt
  exact of_one rfl rfl (packV_lt (by omega) (by omega) (by omega) (by omega) (by omega) (by omega) (by omega))
theorem Sys2Proof.Laws.Words.vtget (d : R5) (a : R5) (b : BitVec 3) (m : BitVec 3) : Statement (.vtget d a b m) := by
  have hd := d.isLt
  have ha := a.isLt
  have hb := b.isLt
  have hm := m.isLt
  exact of_one rfl rfl (packV_lt (by omega) (by omega) (by omega) (by omega) (by omega) (by omega) (by omega))
theorem Sys2Proof.Laws.Words.vtset (d : R5) (a : R5) (b : BitVec 3) (m : BitVec 3) : Statement (.vtset d a b m) := by
  have hd := d.isLt
  have ha := a.isLt
  have hb := b.isLt
  have hm := m.isLt
  exact of_one rfl rfl (packV_lt (by omega) (by omega) (by omega) (by omega) (by omega) (by omega) (by omega))
theorem Sys2Proof.Laws.Words.shape (t : BitVec 4) (f : BitVec 1) (g : BitVec 4) (l : BitVec 13) : Statement (.shape t f g l) := by
  have ht := t.isLt
  have hf := f.isLt
  have hg := g.isLt
  have hl := l.isLt
  exact of_one rfl rfl (by omega)
theorem Sys2Proof.Laws.Words.shaper (a : R5) : Statement (.shaper a) := by
  have ha := a.isLt
  exact of_one rfl rfl (packV_lt (by omega) (by omega) (by omega) (by omega) (by omega) (by omega) (by omega))
theorem Sys2Proof.Laws.Words.tan (s : BitVec 3) (a : BitVec 1) (b : BitVec 1) (c : BitVec 1) : Statement (.tan s a b c) := by
  have hs := s.isLt
  have ha := a.isLt
  have hb := b.isLt
  have hc := c.isLt
  exact of_one rfl rfl (by omega)
theorem Sys2Proof.Laws.Words.vnop (n : BitVec 16) : Statement (.vnop n) := by
  have hn := n.isLt
  exact of_one rfl rfl (by omega)
theorem Sys2Proof.Laws.Words.mnop (n : BitVec 16) : Statement (.mnop n) := by
  have hn := n.isLt
  exact of_one rfl rfl (packJ_lt (by omega) (by omega))
theorem Sys2Proof.Laws.Words.mloadw (e : BitVec 17) : Statement (.mloadw e) := by
  have he := e.isLt
  exact of_two rfl rfl (packJ_lt (by omega) (by omega)) (by omega)
theorem Sys2Proof.Laws.Words.mswap : Statement .mswap := by
  exact of_one rfl rfl (packJ_lt (by omega) (by omega))
theorem Sys2Proof.Laws.Words.mrun (n : BitVec 2) (r : BitVec 8) (t : BitVec 12) (e : BitVec 17) : Statement (.mrun n r t e) := by
  have hn := n.isLt
  have hr := r.isLt
  have ht := t.isLt
  have he := e.isLt
  exact of_two rfl rfl (packJ_lt (by omega) (by omega)) (by omega)
theorem Sys2Proof.Laws.Words.mrunS (n : BitVec 2) (r : BitVec 8) (m : BitVec 4) (t : BitVec 12) (e : BitVec 17) : Statement (.mrunS n r m t e) := by
  have hn := n.isLt
  have hr := r.isLt
  have hm := m.isLt
  have ht := t.isLt
  have he := e.isLt
  exact of_two rfl rfl (packJ_lt (by omega) (by omega)) (by omega)
theorem Sys2Proof.Laws.Words.mmeta (n : BitVec 4) (e : BitVec 17) : Statement (.mmeta n e) := by
  have hn := n.isLt
  have he := e.isLt
  exact of_two rfl rfl (packJ_lt (by omega) (by omega)) (by omega)
theorem Sys2Proof.Laws.Words.mscq (n : BitVec 9) (e : BitVec 20) : Statement (.mscq n e) := by
  have hn := n.isLt
  have he := e.isLt
  exact of_two rfl rfl (packJ_lt (by omega) (by omega)) (by omega)
theorem Sys2Proof.Laws.Words.mscmode (m : BitVec 1) : Statement (.mscmode m) := by
  have hm := m.isLt
  exact of_one rfl rfl (packJ_lt (by omega) (by omega))
theorem Sys2Proof.Laws.Words.mdrain (n : BitVec 2) (r0 : BitVec 8) (r : BitVec 8) (f : BitVec 4) (t : BitVec 15) (e : BitVec 17) : Statement (.mdrain n r0 r f t e) := by
  have hn := n.isLt
  have hr0 := r0.isLt
  have hr := r.isLt
  have hf := f.isLt
  have ht := t.isLt
  have he := e.isLt
  exact of_two rfl rfl (packJ_lt (by omega) (by omega)) (by omega)
theorem Sys2Proof.Laws.Words.mzero (n : BitVec 2) : Statement (.mzero n) := by
  have hn := n.isLt
  exact of_one rfl rfl (packJ_lt (by omega) (by omega))
theorem Sys2Proof.Laws.Words.mseta (e : BitVec 17) : Statement (.mseta e) := by
  have he := e.isLt
  exact of_one rfl rfl (packJ_lt (by omega) (by omega))
theorem Sys2Proof.Laws.Words.mmode (x : BitVec 1) (a : BitVec 4) (w : BitVec 4) : Statement (.mmode x a w) := by
  have hx := x.isLt
  have ha := a.isLt
  have hw := w.isLt
  exact of_one rfl rfl (packJ_lt (by omega) (by omega))
theorem Sys2Proof.Laws.Words.xfnop (n : BitVec 16) : Statement (.xfnop n) := by
  have hn := n.isLt
  exact of_one rfl rfl (packJ_lt (by omega) (by omega))
theorem Sys2Proof.Laws.Words.xfcopy (e : BitVec 16) : Statement (.xfcopy e) := by
  have he := e.isLt
  exact of_one rfl rfl (packJ_lt (by omega) (by omega))
theorem Sys2Proof.Laws.Words.xfcast (e : BitVec 16) : Statement (.xfcast e) := by
  have he := e.isLt
  exact of_one rfl rfl (packJ_lt (by omega) (by omega))
theorem Sys2Proof.Laws.Words.xfzip (e : BitVec 16) : Statement (.xfzip e) := by
  have he := e.isLt
  exact of_one rfl rfl (packJ_lt (by omega) (by omega))
theorem Sys2Proof.Laws.Words.xfunzip (e : BitVec 16) : Statement (.xfunzip e) := by
  have he := e.isLt
  exact of_one rfl rfl (packJ_lt (by omega) (by omega))
theorem Sys2Proof.Laws.Words.xffill (e : BitVec 16) : Statement (.xffill e) := by
  have he := e.isLt
  exact of_one rfl rfl (packJ_lt (by omega) (by omega))
theorem Sys2Proof.Laws.Words.xfsend (e : BitVec 16) : Statement (.xfsend e) := by
  have he := e.isLt
  exact of_one rfl rfl (packJ_lt (by omega) (by omega))
theorem Sys2Proof.Laws.Words.xfrecv (e : BitVec 16) : Statement (.xfrecv e) := by
  have he := e.isLt
  exact of_one rfl rfl (packJ_lt (by omega) (by omega))
theorem Sys2Proof.Laws.Words.xfvirt (e : BitVec 16) : Statement (.xfvirt e) := by
  have he := e.isLt
  exact of_one rfl rfl (packJ_lt (by omega) (by omega))
theorem Sys2Proof.Laws.Words.ixnop (n : BitVec 16) : Statement (.ixnop n) := by
  have hn := n.isLt
  exact of_one rfl rfl (packJ_lt (by omega) (by omega))
theorem Sys2Proof.Laws.Words.ixgather (e : BitVec 17) : Statement (.ixgather e) := by
  have he := e.isLt
  exact of_one rfl rfl (packJ_lt (by omega) (by omega))
theorem Sys2Proof.Laws.Words.ixscatter (e : BitVec 17) : Statement (.ixscatter e) := by
  have he := e.isLt
  exact of_one rfl rfl (packJ_lt (by omega) (by omega))
theorem Sys2Proof.Laws.Words.ixscadd (e : BitVec 17) : Statement (.ixscadd e) := by
  have he := e.isLt
  exact of_one rfl rfl (packJ_lt (by omega) (by omega))
theorem Sys2Proof.Laws.Words.ixcount (e : BitVec 17) : Statement (.ixcount e) := by
  have he := e.isLt
  exact of_one rfl rfl (packJ_lt (by omega) (by omega))
theorem Sys2Proof.Laws.Words.ixcompact (e : BitVec 17) : Statement (.ixcompact e) := by
  have he := e.isLt
  exact of_one rfl rfl (packJ_lt (by omega) (by omega))
theorem Sys2Proof.Laws.Words.ixhist (e : BitVec 17) : Statement (.ixhist e) := by
  have he := e.isLt
  exact of_one rfl rfl (packJ_lt (by omega) (by omega))
theorem Sys2Proof.Laws.Words.ixamo (e : BitVec 17) : Statement (.ixamo e) := by
  have he := e.isLt
  exact of_one rfl rfl (packJ_lt (by omega) (by omega))
theorem Sys2Proof.Laws.Words.ixcas (e : BitVec 17) : Statement (.ixcas e) := by
  have he := e.isLt
  exact of_one rfl rfl (packJ_lt (by omega) (by omega))
theorem Sys2Proof.Laws.Words.indexCommandStart : Statement .indexCommandStart := by
  exact of_none rfl rfl
theorem Sys2Proof.Laws.Words.indexCommandEnd : Statement .indexCommandEnd := by
  exact of_none rfl rfl
theorem Sys2Proof.Laws.Words.dkeys (n : BitVec 13) (k : BitVec 2) (w : BitVec 8) (e : BitVec 17) : Statement (.dkeys n k w e) := by
  have hn := n.isLt
  have hk := k.isLt
  have hw := w.isLt
  have he := e.isLt
  exact of_two rfl rfl (packJ_lt (by omega) (by omega)) (by omega)
theorem Sys2Proof.Laws.Words.dmatch (d : BitVec 3) (m : BitVec 3) (u : BitVec 1) (r : BitVec 13) (p : BitVec 1) (e : BitVec 17) : Statement (.dmatch d m u r p e) := by
  have hd := d.isLt
  have hm := m.isLt
  have hu := u.isLt
  have hr := r.isLt
  have hp := p.isLt
  have he := e.isLt
  exact of_two rfl rfl (packJ_lt (by omega) (by omega)) (by omega)
theorem Sys2Proof.Laws.Words.dmerge (m : BitVec 3) (w : BitVec 11) (e : BitVec 17) : Statement (.dmerge m w e) := by
  have hm := m.isLt
  have hw := w.isLt
  have he := e.isLt
  exact of_two rfl rfl (packJ_lt (by omega) (by omega)) (by omega)
theorem Sys2Proof.Laws.Words.dunmerge (m : BitVec 3) (w : BitVec 11) (e : BitVec 17) : Statement (.dunmerge m w e) := by
  have hm := m.isLt
  have hw := w.isLt
  have he := e.isLt
  exact of_two rfl rfl (packJ_lt (by omega) (by omega)) (by omega)
theorem Sys2Proof.Laws.Words.dcompose (d : BitVec 3) (a : BitVec 3) (b : BitVec 3) : Statement (.dcompose d a b) := by
  have hd := d.isLt
  have ha := a.isLt
  have hb := b.isLt
  exact of_two rfl rfl (packJ_lt (by omega) (by omega)) (by omega)
theorem Sys2Proof.Laws.Words.dsizes (m : BitVec 3) (e : BitVec 17) : Statement (.dsizes m e) := by
  have hm := m.isLt
  have he := e.isLt
  exact of_two rfl rfl (packJ_lt (by omega) (by omega)) (by omega)
theorem Sys2Proof.Laws.Words.dsave (m : BitVec 3) (e : BitVec 17) : Statement (.dsave m e) := by
  have hm := m.isLt
  have he := e.isLt
  exact of_two rfl rfl (packJ_lt (by omega) (by omega)) (by omega)
theorem Sys2Proof.Laws.Words.dload (m : BitVec 3) (e : BitVec 17) : Statement (.dload m e) := by
  have hm := m.isLt
  have he := e.isLt
  exact of_two rfl rfl (packJ_lt (by omega) (by omega)) (by omega)
theorem Sys2Proof.Laws.Words.draftingCommandEnd : Statement .draftingCommandEnd := by
  exact of_none rfl rfl
theorem Sys2Proof.Laws.Words.fnop : Statement .fnop := by
  exact of_one rfl rfl (by omega)
theorem Sys2Proof.Laws.Words.fadd (d : BitVec 4) (a : R5) (b : R5) : Statement (.fadd d a b) := by
  have hd := d.isLt
  have ha := a.isLt
  have hb := b.isLt
  exact of_one rfl rfl (packF_lt (by omega) (by omega) (by omega) (by omega) (by omega))
theorem Sys2Proof.Laws.Words.fmul (d : BitVec 4) (a : R5) (b : R5) : Statement (.fmul d a b) := by
  have hd := d.isLt
  have ha := a.isLt
  have hb := b.isLt
  exact of_one rfl rfl (packF_lt (by omega) (by omega) (by omega) (by omega) (by omega))
theorem Sys2Proof.Laws.Words.fmax (d : BitVec 4) (a : R5) (b : R5) : Statement (.fmax d a b) := by
  have hd := d.isLt
  have ha := a.isLt
  have hb := b.isLt
  exact of_one rfl rfl (packF_lt (by omega) (by omega) (by omega) (by omega) (by omega))
theorem Sys2Proof.Laws.Words.fmin (d : BitVec 4) (a : R5) (b : R5) : Statement (.fmin d a b) := by
  have hd := d.isLt
  have ha := a.isLt
  have hb := b.isLt
  exact of_one rfl rfl (packF_lt (by omega) (by omega) (by omega) (by omega) (by omega))
theorem Sys2Proof.Laws.Words.fcmp (d : BitVec 4) (a : R5) (b : R5) (c : BitVec 2) : Statement (.fcmp d a b c) := by
  have hd := d.isLt
  have ha := a.isLt
  have hb := b.isLt
  have hc := c.isLt
  exact of_one rfl rfl (packF_lt (by omega) (by omega) (by omega) (by omega) (by omega))
theorem Sys2Proof.Laws.Words.fsel (d : BitVec 4) (a : R5) (b : R5) (c : R5) : Statement (.fsel d a b c) := by
  have hd := d.isLt
  have ha := a.isLt
  have hb := b.isLt
  have hc := c.isLt
  exact of_one rfl rfl (packF_lt (by omega) (by omega) (by omega) (by omega) (by omega))
theorem Sys2Proof.Laws.Words.facc (d : BitVec 4) (a : R5) : Statement (.facc d a) := by
  have hd := d.isLt
  have ha := a.isLt
  exact of_one rfl rfl (packF_lt (by omega) (by omega) (by omega) (by omega) (by omega))
theorem Sys2Proof.Laws.Words.fmov (d : BitVec 4) (a : R5) : Statement (.fmov d a) := by
  have hd := d.isLt
  have ha := a.isLt
  exact of_one rfl rfl (packF_lt (by omega) (by omega) (by omega) (by omega) (by omega))
theorem Sys2Proof.Laws.Words.froute (a : R5) (m : BitVec 4) : Statement (.froute a m) := by
  have ha := a.isLt
  have hm := m.isLt
  exact of_one rfl rfl (by omega)
theorem Sys2Proof.Laws.Words.ftake (d : BitVec 4) : Statement (.ftake d) := by
  have hd := d.isLt
  exact of_one rfl rfl (packF_lt (by omega) (by omega) (by omega) (by omega) (by omega))
theorem Sys2Proof.Laws.Words.femit (a : R5) : Statement (.femit a) := by
  have ha := a.isLt
  exact of_one rfl rfl (packF_lt (by omega) (by omega) (by omega) (by omega) (by omega))
theorem Sys2Proof.Laws.Words.floopb (t : BitVec 6) (c : BitVec 1) (f : BitVec 4) : Statement (.floopb t c f) := by
  have ht := t.isLt
  have hc := c.isLt
  have hf := f.isLt
  exact of_one rfl rfl (by omega)
theorem Sys2Proof.Laws.Words.fcvt (d : BitVec 4) (a : R5) (f : BitVec 3) (t : BitVec 3) (p : BitVec 2) : Statement (.fcvt d a f t p) := by
  have hd := d.isLt
  have ha := a.isLt
  have hf := f.isLt
  have ht := t.isLt
  have hp := p.isLt
  exact of_one rfl rfl (by omega)
theorem Sys2Proof.Laws.Words.fzip (d : BitVec 4) (a : R5) (b : R5) : Statement (.fzip d a b) := by
  have hd := d.isLt
  have ha := a.isLt
  have hb := b.isLt
  exact of_one rfl rfl (packF_lt (by omega) (by omega) (by omega) (by omega) (by omega))
theorem Sys2Proof.Laws.Words.funzip (d : BitVec 4) (a : R5) (h : BitVec 1) : Statement (.funzip d a h) := by
  have hd := d.isLt
  have ha := a.isLt
  have hh := h.isLt
  exact of_one rfl rfl (by omega)
theorem Sys2Proof.Laws.Words.segmentStart : Statement .segmentStart := by
  exact of_none rfl rfl
theorem Sys2Proof.Laws.Words.matrixStepCommit : Statement .matrixStepCommit := by
  exact of_none rfl rfl
theorem Sys2Proof.Laws.Words.transferWordEnd : Statement .transferWordEnd := by
  exact of_none rfl rfl
theorem Sys2Proof.Laws.Words.replyPortEntry : Statement .replyPortEntry := by
  exact of_none rfl rfl
theorem Sys2Proof.Laws.Words.storeMarkClose : Statement .storeMarkClose := by
  exact of_none rfl rfl
theorem Sys2Proof.Laws.Words.fenceEnd : Statement .fenceEnd := by
  exact of_none rfl rfl
theorem Sys2Proof.Laws.Words.tlwaitEnd : Statement .tlwaitEnd := by
  exact of_none rfl rfl
theorem Sys2Proof.Laws.Words.tickExpiry : Statement .tickExpiry := by
  exact of_none rfl rfl
theorem Sys2Proof.Laws.Words.popTake : Statement .popTake := by
  exact of_none rfl rfl
theorem Sys2Proof.Laws.Words.barrierRelease : Statement .barrierRelease := by
  exact of_none rfl rfl
theorem Sys2Proof.Laws.Words.itemStart : Statement .itemStart := by
  exact of_none rfl rfl
theorem Sys2Proof.Laws.Words.itemEnd : Statement .itemEnd := by
  exact of_none rfl rfl
theorem Sys2Proof.Laws.Words.launchCompletion : Statement .launchCompletion := by
  exact of_none rfl rfl
theorem Sys2Proof.Laws.Words.launchAbort : Statement .launchAbort := by
  exact of_none rfl rfl
theorem Sys2Proof.Laws.Words.phaseDirectoryAnswer : Statement .phaseDirectoryAnswer := by
  exact of_none rfl rfl
theorem Sys2Proof.Laws.Words.hubGrant : Statement .hubGrant := by
  exact of_none rfl rfl
theorem Sys2Proof.Laws.Words.ageingTick : Statement .ageingTick := by
  exact of_none rfl rfl
theorem Sys2Proof.Laws.Words.doorbellKick : Statement .doorbellKick := by
  exact of_none rfl rfl
theorem Sys2Proof.Laws.Words.slotFetch : Statement .slotFetch := by
  exact of_none rfl rfl
theorem Sys2Proof.Laws.Words.launchValidate : Statement .launchValidate := by
  exact of_none rfl rfl
theorem Sys2Proof.Laws.Words.slotSave : Statement .slotSave := by
  exact of_none rfl rfl
theorem Sys2Proof.Laws.Words.slotRestore : Statement .slotRestore := by
  exact of_none rfl rfl
theorem Sys2Proof.Laws.Words.preemptRequest : Statement .preemptRequest := by
  exact of_none rfl rfl
theorem Sys2Proof.Laws.Words.slotAbort : Statement .slotAbort := by
  exact of_none rfl rfl
theorem Sys2Proof.Laws.Words.countedPreemption : Statement .countedPreemption := by
  exact of_none rfl rfl
theorem Sys2Proof.Laws.Words.countedResume : Statement .countedResume := by
  exact of_none rfl rfl
theorem Sys2Proof.Laws.Words.watchdogExpiry : Statement .watchdogExpiry := by
  exact of_none rfl rfl
theorem Sys2Proof.Laws.Words.backstopReset : Statement .backstopReset := by
  exact of_none rfl rfl
theorem Sys2Proof.Laws.Words.haltLimitReset : Statement .haltLimitReset := by
  exact of_none rfl rfl
theorem Sys2Proof.Laws.Words.partitionReset : Statement .partitionReset := by
  exact of_none rfl rfl
theorem Sys2Proof.Laws.Words.partitionResetDone : Statement .partitionResetDone := by
  exact of_none rfl rfl
theorem Sys2Proof.Laws.Words.partitionScrub : Statement .partitionScrub := by
  exact of_none rfl rfl
theorem Sys2Proof.Laws.Words.ldmapLock : Statement .ldmapLock := by
  exact of_none rfl rfl
theorem Sys2Proof.Laws.Words.ldmapUnlock : Statement .ldmapUnlock := by
  exact of_none rfl rfl
theorem Sys2Proof.Laws.Words.dieFailure : Statement .dieFailure := by
  exact of_none rfl rfl
theorem Sys2Proof.Laws.Words.pacelineForm : Statement .pacelineForm := by
  exact of_none rfl rfl
theorem Sys2Proof.Laws.Words.pacelineDissolve : Statement .pacelineDissolve := by
  exact of_none rfl rfl
theorem Sys2Proof.Laws.Words.linkTrainingDone : Statement .linkTrainingDone := by
  exact of_none rfl rfl
theorem Sys2Proof.Laws.Words.frameTransmit : Statement .frameTransmit := by
  exact of_none rfl rfl
theorem Sys2Proof.Laws.Words.badFrame : Statement .badFrame := by
  exact of_none rfl rfl
theorem Sys2Proof.Laws.Words.timedBeatDelivery : Statement .timedBeatDelivery := by
  exact of_none rfl rfl
theorem Sys2Proof.Laws.Words.countedBeatReceive : Statement .countedBeatReceive := by
  exact of_none rfl rfl
theorem Sys2Proof.Laws.Words.countedRetryTimeout : Statement .countedRetryTimeout := by
  exact of_none rfl rfl
theorem Sys2Proof.Laws.Words.readRequest : Statement .readRequest := by
  exact of_none rfl rfl
theorem Sys2Proof.Laws.Words.readReply : Statement .readReply := by
  exact of_none rfl rfl
theorem Sys2Proof.Laws.Words.write : Statement .write := by
  exact of_none rfl rfl
theorem Sys2Proof.Laws.Words.writeAcknowledgement : Statement .writeAcknowledgement := by
  exact of_none rfl rfl
theorem Sys2Proof.Laws.Words.atomicRequest : Statement .atomicRequest := by
  exact of_none rfl rfl
theorem Sys2Proof.Laws.Words.atomicReply : Statement .atomicReply := by
  exact of_none rfl rfl
theorem Sys2Proof.Laws.Words.controlSpaceRead : Statement .controlSpaceRead := by
  exact of_none rfl rfl
theorem Sys2Proof.Laws.Words.fenceMarker : Statement .fenceMarker := by
  exact of_none rfl rfl
theorem Sys2Proof.Laws.Words.countedReplyDeadline : Statement .countedReplyDeadline := by
  exact of_none rfl rfl
theorem Sys2Proof.Laws.Words.sampleReceive : Statement .sampleReceive := by
  exact of_none rfl rfl
theorem Sys2Proof.Laws.Words.subminReceive : Statement .subminReceive := by
  exact of_none rfl rfl
theorem Sys2Proof.Laws.Words.downReceive : Statement .downReceive := by
  exact of_none rfl rfl
theorem Sys2Proof.Laws.Words.coastReceive : Statement .coastReceive := by
  exact of_none rfl rfl
theorem Sys2Proof.Laws.Words.coastApply : Statement .coastApply := by
  exact of_none rfl rfl
theorem Sys2Proof.Laws.Words.haltFrameReceive : Statement .haltFrameReceive := by
  exact of_none rfl rfl
theorem Sys2Proof.Laws.Words.releaseFrameReceive : Statement .releaseFrameReceive := by
  exact of_none rfl rfl
theorem Sys2Proof.Laws.Words.standAdoption : Statement .standAdoption := by
  exact of_none rfl rfl
theorem Sys2Proof.Laws.Words.standLeadCheck : Statement .standLeadCheck := by
  exact of_none rfl rfl
theorem Sys2Proof.Laws.Words.standHold : Statement .standHold := by
  exact of_none rfl rfl
theorem Sys2Proof.Laws.Words.standResume : Statement .standResume := by
  exact of_none rfl rfl
theorem Sys2Proof.Laws.Words.idleStandArm : Statement .idleStandArm := by
  exact of_none rfl rfl
theorem Sys2Proof.Laws.Words.quietSave : Statement .quietSave := by
  exact of_none rfl rfl
theorem Sys2Proof.Laws.Words.timedResume : Statement .timedResume := by
  exact of_none rfl rfl
theorem Sys2Proof.Laws.Words.faultReportReceive : Statement .faultReportReceive := by
  exact of_none rfl rfl
theorem Sys2Proof.Laws.Words.pageFaultBatchClose : Statement .pageFaultBatchClose := by
  exact of_none rfl rfl
theorem Sys2Proof.Laws.Words.pacelineHold : Statement .pacelineHold := by
  exact of_none rfl rfl
theorem Sys2Proof.Laws.Words.pacelineRelease : Statement .pacelineRelease := by
  exact of_none rfl rfl
theorem Sys2Proof.Laws.Words.pacelineAbort : Statement .pacelineAbort := by
  exact of_none rfl rfl
theorem Sys2Proof.Laws.Words.frtailWrite : Statement .frtailWrite := by
  exact of_none rfl rfl
theorem Sys2Proof.Laws.Words.faultRingEnable : Statement .faultRingEnable := by
  exact of_none rfl rfl
theorem Sys2Proof.Laws.Words.mailboxGo : Statement .mailboxGo := by
  exact of_none rfl rfl
theorem Sys2Proof.Laws.Words.mailboxDone : Statement .mailboxDone := by
  exact of_none rfl rfl
theorem Sys2Proof.Laws.Words.qcreate : Statement .qcreate := by
  exact of_none rfl rfl
theorem Sys2Proof.Laws.Words.qdestroy : Statement .qdestroy := by
  exact of_none rfl rfl
theorem Sys2Proof.Laws.Words.qrestart : Statement .qrestart := by
  exact of_none rfl rfl
theorem Sys2Proof.Laws.Words.qstat : Statement .qstat := by
  exact of_none rfl rfl
theorem Sys2Proof.Laws.Words.qprio : Statement .qprio := by
  exact of_none rfl rfl
theorem Sys2Proof.Laws.Words.psuspend : Statement .psuspend := by
  exact of_none rfl rfl
theorem Sys2Proof.Laws.Words.psuspendResponse : Statement .psuspendResponse := by
  exact of_none rfl rfl
theorem Sys2Proof.Laws.Words.presume : Statement .presume := by
  exact of_none rfl rfl
theorem Sys2Proof.Laws.Words.preset : Statement .preset := by
  exact of_none rfl rfl
theorem Sys2Proof.Laws.Words.pconfig : Statement .pconfig := by
  exact of_none rfl rfl
theorem Sys2Proof.Laws.Words.paceform : Statement .paceform := by
  exact of_none rfl rfl
theorem Sys2Proof.Laws.Words.sched : Statement .sched := by
  exact of_none rfl rfl
theorem Sys2Proof.Laws.Words.sleepRequest : Statement .sleepRequest := by
  exact of_none rfl rfl
theorem Sys2Proof.Laws.Words.presetPf : Statement .presetPf := by
  exact of_none rfl rfl
theorem Sys2Proof.Laws.Words.recoveryImageLoad : Statement .recoveryImageLoad := by
  exact of_none rfl rfl
theorem Sys2Proof.Laws.Words.coldReset : Statement .coldReset := by
  exact of_none rfl rfl
theorem Sys2Proof.Laws.Words.firmwareFirstReport : Statement .firmwareFirstReport := by
  exact of_none rfl rfl
theorem Sys2Proof.Laws.Words.debugToken : Statement .debugToken := by
  exact of_none rfl rfl
theorem Sys2Proof.Laws.Words.getVersion : Statement .getVersion := by
  exact of_none rfl rfl
theorem Sys2Proof.Laws.Words.getCapabilities : Statement .getCapabilities := by
  exact of_none rfl rfl
theorem Sys2Proof.Laws.Words.negotiateAlgorithms : Statement .negotiateAlgorithms := by
  exact of_none rfl rfl
theorem Sys2Proof.Laws.Words.getDigests : Statement .getDigests := by
  exact of_none rfl rfl
theorem Sys2Proof.Laws.Words.getCertificate : Statement .getCertificate := by
  exact of_none rfl rfl
theorem Sys2Proof.Laws.Words.challenge : Statement .challenge := by
  exact of_none rfl rfl
theorem Sys2Proof.Laws.Words.getMeasurements : Statement .getMeasurements := by
  exact of_none rfl rfl
theorem Sys2Proof.Laws.Words.keyExchange : Statement .keyExchange := by
  exact of_none rfl rfl
theorem Sys2Proof.Laws.Words.finish : Statement .finish := by
  exact of_none rfl rfl
theorem Sys2Proof.Laws.Words.endSession : Statement .endSession := by
  exact of_none rfl rfl
theorem Sys2Proof.Laws.Words.vendorDefinedRequest : Statement .vendorDefinedRequest := by
  exact of_none rfl rfl
theorem Sys2Proof.Laws.Words.ideKm : Statement .ideKm := by
  exact of_none rfl rfl
theorem Sys2Proof.Laws.Words.tdispLockInterface : Statement .tdispLockInterface := by
  exact of_none rfl rfl
theorem Sys2Proof.Laws.Words.tdispStartInterface : Statement .tdispStartInterface := by
  exact of_none rfl rfl
theorem Sys2Proof.Laws.Words.tdispStopInterface : Statement .tdispStopInterface := by
  exact of_none rfl rfl
theorem Sys2Proof.Laws.Words.tdispError : Statement .tdispError := by
  exact of_none rfl rfl
theorem Sys2Proof.Laws.Words.debugWindowAccess : Statement .debugWindowAccess := by
  exact of_none rfl rfl
theorem Sys2Proof.Laws.Words.controlWindowWrite : Statement .controlWindowWrite := by
  exact of_none rfl rfl
theorem Sys2Proof.Laws.Words.ranktabWrite : Statement .ranktabWrite := by
  exact of_none rfl rfl
theorem Sys2Proof.Laws.Words.xlinvShootdown : Statement .xlinvShootdown := by
  exact of_none rfl rfl
theorem Sys2Proof.Laws.Words.shootdown : Statement .shootdown := by
  exact of_none rfl rfl
theorem Sys2Proof.Laws.Words.xlretry : Statement .xlretry := by
  exact of_none rfl rfl
theorem Sys2Proof.Laws.Words.translationFillRequest : Statement .translationFillRequest := by
  exact of_none rfl rfl
theorem Sys2Proof.Laws.Words.translationFillReply : Statement .translationFillReply := by
  exact of_none rfl rfl
theorem Sys2Proof.Laws.Words.endpointPacket : Statement .endpointPacket := by
  exact of_none rfl rfl
theorem Sys2Proof.Laws.Words.endpointPacketDeliver : Statement .endpointPacketDeliver := by
  exact of_none rfl rfl
theorem Sys2Proof.Laws.Words.euzinFlitReceive : Statement .euzinFlitReceive := by
  exact of_none rfl rfl
theorem Sys2Proof.Laws.Words.flitTransmit : Statement .flitTransmit := by
  exact of_none rfl rfl
theorem Sys2Proof.Laws.Words.flitRetryTimeout : Statement .flitRetryTimeout := by
  exact of_none rfl rfl
theorem Sys2Proof.Laws.Words.longLinkTrained : Statement .longLinkTrained := by
  exact of_none rfl rfl
theorem Sys2Proof.Laws.Words.collectiveContribution : Statement .collectiveContribution := by
  exact of_none rfl rfl
theorem Sys2Proof.Laws.Words.ready : Statement .ready := by
  exact of_none rfl rfl
theorem Sys2Proof.Laws.Words.commit : Statement .commit := by
  exact of_none rfl rfl
theorem Sys2Proof.Laws.Words.abort : Statement .abort := by
  exact of_none rfl rfl
theorem Sys2Proof.Laws.Words.collectiveTimeLimit : Statement .collectiveTimeLimit := by
  exact of_none rfl rfl
theorem Sys2Proof.Laws.Words.powerLimitEvaluation : Statement .powerLimitEvaluation := by
  exact of_none rfl rfl
theorem Sys2Proof.Laws.Words.vcoreCurrentEvaluation : Statement .vcoreCurrentEvaluation := by
  exact of_none rfl rfl
theorem Sys2Proof.Laws.Words.thermalTrip : Statement .thermalTrip := by
  exact of_none rfl rfl
theorem Sys2Proof.Laws.Words.tripExit : Statement .tripExit := by
  exact of_none rfl rfl
theorem Sys2Proof.Laws.Words.idleRetainEntry : Statement .idleRetainEntry := by
  exact of_none rfl rfl
theorem Sys2Proof.Laws.Words.wakeFromIdle : Statement .wakeFromIdle := by
  exact of_none rfl rfl
theorem Sys2Proof.Laws.Words.wakeFromSleep : Statement .wakeFromSleep := by
  exact of_none rfl rfl
theorem Sys2Proof.Laws.Words.powerOff : Statement .powerOff := by
  exact of_none rfl rfl
theorem Sys2Proof.Laws.Words.draftingCommandStart : Statement .draftingCommandStart := by
  exact of_none rfl rfl
theorem Sys2Proof.Laws.Words.partitionScrubDone : Statement .partitionScrubDone := by
  exact of_none rfl rfl
end

