-- ==== Sys2Proof/Tests/Slice0.lean ====
section
/-! SUPPORT. Tests: ill-formed terms, words of the manual's examples, worked examples, and a state and operands that meet the
hypotheses of each statement. -/

namespace Sys2Proof.Tests

open Sys2Proof Sys2Proof.Machine

/-! ### Ill-formed terms: each check of WellFormed refuses one (R324 to R331, R402, R418, R479) -/

theorem test_wf_amo_width : (Instr.amoAdd 1 2 3 1).wf = false ∧ (Instr.amoXchg 1 2 3 2).wf = true := by decide
theorem test_wf_cas_width : (Instr.cas 1 2 3 0).wf = false := by decide
theorem test_wf_branch : (Instr.br 8 0 1 0).wf = false ∧ (Instr.br 0 2 1 0).wf = false ∧ (Instr.br 6 0 8 0).wf = false := by decide
theorem test_wf_check : (Instr.checkS 2 1 0).wf = false ∧ (Instr.checkP 3 1 0).wf = false := by decide
theorem test_wf_loop : (Instr.loop 0 1 0).wf = false ∧ (Instr.loop 0 1 8192).wf = false ∧ (Instr.loop 0 1 8191).wf = true := by decide
theorem test_wf_go : (Instr.go 0 0 0).wf = false ∧ (Instr.go 6 0 0).wf = false := by decide
theorem test_wf_timeline : (Instr.tlwait 1 7 0).wf = false ∧ (Instr.tlread 1 7).wf = false ∧ (Instr.tlreadFail 1 63).wf = false := by decide
theorem test_wf_wid : (Instr.wid 1 8).wf = false := by decide
theorem test_wf_csr : (Instr.csrr 0xF 1).wf = false ∧ (Instr.csrw 0x1E 1).wf = false ∧ (Instr.csrr 0x1D 1).wf = true := by decide
theorem test_wf_bar : (Instr.bar 3 0).wf = false := by decide
theorem test_wf_graph : (Instr.fload 16 0).wf = false ∧ (Instr.fbind 16 0).wf = false := by decide
theorem test_wf_types : (Instr.vcvt 0 0 11 0 0 0).wf = false ∧ (Instr.shape 11 0 0 0).wf = false := by decide
theorem test_wf_mx : (Instr.vpack 0 0 5 0 0).wf = false ∧ (Instr.vunpack 0 0 5 0).wf = false := by decide
theorem test_wf_shadow : (Instr.vtget 0 0 0 0).wf = false ∧ (Instr.vtset 0 0 5 0).wf = false ∧ (Instr.tan 5 0 0 0).wf = false := by decide
theorem test_wf_pair : (Instr.mrunS 0 0 1 0 0).wf = false := by decide
theorem test_wf_drain : (Instr.mdrain 0 0 0 7 0 0).wf = false ∧ (Instr.mdrain 0 1 255 0 0 0).wf = false := by decide
theorem test_wf_mode : (Instr.mmode 1 3 3).wf = false ∧ (Instr.mmode 0 2 0).wf = false ∧ (Instr.mmode 1 2 0).wf = true := by decide
theorem test_wf_keys : (Instr.dkeys 0 3 0 0).wf = false ∧ (Instr.dmatch 0 1 1 0 0 0).wf = false ∧ (Instr.dmatch 0 0 0 4097 0 0).wf = false ∧
    (Instr.dmatch 0 0 0 0 0 1).wf = false := by decide
theorem test_wf_source : (Instr.fadd 0 21 0).wf = false ∧ (Instr.fmul 0 0 21).wf = false ∧ (Instr.fmax 0 31 0).wf = false ∧
    (Instr.fmin 0 0 21).wf = false ∧ (Instr.fcmp 0 21 0 0).wf = false ∧ (Instr.fsel 0 0 0 21).wf = false ∧ (Instr.facc 0 21).wf = false ∧
    (Instr.fmov 0 21).wf = false ∧ (Instr.femit 21).wf = false ∧ (Instr.fzip 0 0 21).wf = false ∧ (Instr.funzip 0 21 0).wf = false := by decide
theorem test_wf_route : (Instr.froute 0 0).wf = false ∧ (Instr.froute 21 1).wf = false ∧ (Instr.floopb 0 0 1).wf = false := by decide
theorem test_wf_fcvt : (Instr.fcvt 0 0 0 0 0).wf = false ∧ (Instr.fcvt 0 0 1 2 0).wf = false ∧ (Instr.fcvt 0 0 1 0 2).wf = false ∧
    (Instr.fcvt 0 0 0 3 3).wf = true := by decide

/-! ### Words of the manual's examples (R340, R342 and the tables of chapters 14 to 17) -/

theorem test_word_branch : okOf (decode .control 0x5C527FFD none) = some (.br 1 1 9 (-3)) := by decide
theorem test_word_go : okOf (decode .control 0x7CC00028 none) = some (.go 3 0 40) := by decide
theorem test_word_fence : okOf (decode .control 0xA8200080 none) = some (.fence 2) := by decide
theorem test_word_cmplt : okOf (decode .control 0x0420C418 none) = some (.cmplt 2 3 4) := by decide
theorem test_word_ld : okOf (decode .control 0x44812040 none) = some (.ld 8 4 2 64) := by decide
theorem test_word_amo : okOf (decode .control 0x5401870C none) = some (.amoAdd 0 6 7 3) := by decide
theorem test_word_cas : okOf (decode .control 0x58518708 none) = some (.cas 5 6 7 2) := by decide
theorem test_word_check : okOf (decode .control 0x60130003 none) = some (.checkS 1 12 3) := by decide
theorem test_word_call : okOf (decode .control 0x6C000010 none) = some (.call 16) := by decide
theorem test_word_ret : okOf (decode .control 0xA8600000 none) = some .ret := by decide
theorem test_word_lil : okOf (decode .control 0x30900002 none) = some (.lil 9 2) := by decide
theorem test_word_lih : okOf (decode .control 0x34914000 none) = some (.lih 9 0x14000) := by decide
theorem test_word_ptag : okOf (decode .control 0x3C714600 none) = some (.ptag 7 5 6) := by decide
theorem test_word_no_sub6 : okOf (decode .control 0xA8D00000 none) = none := by decide
theorem test_word_zero_stream : okOf (decode .vector 0 none) = none ∧ okOf (decode .matrix 0 none) = none := by decide
theorem test_word_vadd : okOf (decode .vector 0x02308800 none) = some (.vadd 3 1 2 0 0) := by decide
theorem test_word_vmul : okOf (decode .vector 0x06421409 none) = some (.vmul 4 4 5 2 1) := by decide
theorem test_word_tan : okOf (decode .vector 0xFC100000 none) = some (.tan 0 0 1 0) := by decide
theorem test_word_vprune24 : okOf (decode .vector 0x66D73C00 none) = some (.vprune24 13 14 15 0) := by decide
theorem test_word_vrand : okOf (decode .vector 0xA14AD800 none) = some (.vrand 20 21 22 0) := by decide
theorem test_word_mmode : okOf (decode .matrix 0x30000102 (some 0)) = some (.mmode 1 0 2) := by decide
theorem test_word_ixgather : okOf (decode .index 0x08000040 none) = some (.ixgather 0x40) := by decide

/-! ### Small states -/

/-- Nothing is due, and `h` is the hub of unit `f`, which is at hand. -/
def unit (f : Focus) (h : Hub) : State := { State.reset with inbox := [], cur := f, hubs := [(8 * f.die + f.hub, h)] }

/-- Control core, vector engine and drafting unit of hub 0 of the V-die at position 29, matrix engine and transfer engine 0 of hub 0
of the M-die at position 13, index engine of hub 0 of the G-die at position 37, control core of hub 0 of the X-die at position 1. -/
def core (h : Hub) : State := unit ⟨29, 0, 0⟩ h
def vec (h : Hub) : State := unit ⟨29, 0, 1⟩ h
def mat (h : Hub) : State := unit ⟨13, 0, 2⟩ h
def xfer (h : Hub) : State := unit ⟨13, 0, 3⟩ h
def index (h : Hub) : State := unit ⟨37, 0, 5⟩ h
def draft (h : Hub) : State := unit ⟨29, 0, 6⟩ h

/-- Elements of `w` bytes of a vector register. -/
def vreg (r w : Nat) (vs : List Nat) : SMap Byte := (vs.flatMap (leBytes w)).zipIdx.map fun x => (vkey 0 r x.2, x.1)
/-- The same of a shadow. -/
def vtan (t r w : Nat) (vs : List Nat) : SMap Byte := (vs.flatMap (leBytes w)).zipIdx.map fun x => (vkey t r x.2, x.1)

/-- What the first effect on the agenda writes to vector registers: register, shadow, offset, bytes as a number. -/
def vecOut (r : Res) : List (Nat × Nat × Nat × Nat) :=
  match r with
  | .next t => match t.agenda with
    | ⟨_, _, _, _, _, _, .vec ws, _, _⟩ :: _ => ws.map fun w => (w.reg, w.tan, w.off, leNat w.bytes)
    | _ => []
  | _ => []

/-- Cycle and effect of the first entry of the agenda. -/
def first (r : Res) : Option (Nat × Act) :=
  match r with
  | .next t => (t.agenda.head?).map fun d => (d.at_, d.act)
  | _ => none

/-- The hub at hand after a step. -/
def after (r : Res) : Hub := match r with | .next t => t.curHub | _ => {}

/-! ### Worked examples -/

/-- R272: a DIV at scy 10 writes at 46, an ADD at 45 writes at 46. -/
theorem test_div_latency : (first (exec (.div 5 1 2) { core {} with dies := [(29, { cad := 10 })] })).map (·.1) = some 46 := by decide
theorem test_div_by_zero : first (exec (.div 5 1 0) (core { s := [(1, ⟨7, false⟩)] })) =
    some (36, .regS 5 0xFFFFFFFFFFFFFFFF false) := by decide
/-- R273: a wrong hint costs 4 scy. -/
theorem test_branch_wrong : (after (exec (.br 0 0 1 5) (core { pc := 100 }))).pc = 120 ∧
    (after (exec (.br 0 0 1 5) (core { pc := 100 }))).next = 4 := by decide
/-- The pointer of R345, its last step. -/
theorem test_lih : first (exec (.lih 9 0x1000) (core { s := [(9, ⟨0x2140000000000#64 / 256#64, false⟩)] })) =
    some (1, .regS 9 (BitVec.ofNat 64 (0x2140000000000 / 256 * 2 ^ 20 + 0x1000)) false) := by decide
theorem test_ptag : first (exec (.ptag 7 5 6) (core { s := [(5, ⟨0x2140, false⟩), (6, ⟨0x1000, false⟩)] })) =
    some (1, .regS 7 0x2140000000001000 false) := by decide
/-- R309: 2^24, 1, 1, 1 sum to 0x4B80_0001. -/
theorem test_vrsum_tree : vecOut (exec (.vrsum 1 2 0) (vec { shape := { vl := 4 }, vbytes := vreg 2 4 [0x4B800000, 0x3F800000, 0x3F800000, 0x3F800000] })) =
    [(1, 0, 0, 0x4B800001)] := by decide
/-- R403: two segments under a mask without element 5. -/
def red : Hub :=
  { shape := { vl := 8, segw := 2 }
    masks := [0, 1, 2, 3, 4, 6, 7].map fun i => (mkey 1 i, true)
    vbytes := vreg 2 4 [0x40000000, 0x40A00000, 0x40A00000, 0x80000000, 0, 0x41100000, 0x3F800000, 0x3F800000] }
theorem test_vrsum_masked : vecOut (exec (.vrsum 1 2 1) (vec red)) = [(1, 0, 0, 0x41400000), (1, 0, 4, 0x40000000)] := by decide
theorem test_vargmax : vecOut (exec (.vargmax 3 2 1) (vec red)) = [(3, 0, 0, 1), (3, 0, 4, 6)] := by decide
theorem test_vpopnz : vecOut (exec (.vpopnz 4 2 1) (vec red)) = [(4, 0, 0, 3), (4, 0, 4, 2)] := by decide
/-- R402. -/
def prune : Hub := { shape := { vl := 8, ety := 3 }, vbytes := vreg 14 1 [0x38, 0xB8, 0x40, 0x00, 0x01, 0x80, 0x00, 0x7F] }
theorem test_vprune24 : ((vec prune).land ⟨29, 8, 0, 0, 1, 0, match first (exec (.vprune24 13 14 15 0) (vec prune)) with
    | some (_, a) => a | none => .vec [], none, 0⟩).curHub.vbytesAt 0 13 0 4 = [0x38, 0x40, 0x01, 0x7F] := by decide
theorem test_vprune24_map : ((vec prune).land ⟨29, 8, 0, 0, 1, 0, match first (exec (.vprune24 13 14 15 0) (vec prune)) with
    | some (_, a) => a | none => .vec [], none, 0⟩).curHub.vbytesAt 0 15 0 1 = [0xC8] := by decide
/-- R407: the Philox block of key 0 and counter 0. -/
theorem test_vrand : (vecOut (exec (.vrand 20 21 22 0) (vec { shape := { vl := 4, ety := 6 } }))).map (·.2.2.2) =
    [0x6627E8D5, 0xE169C58D, 0xBC57AC4C, 0x9B00DBD8] := by decide
/-- R412: a product and its tangent, and the same with a constant operand. -/
def tang (t : Option Tan) : Hub :=
  { shape := { vl := 1 }, tan := t, item := some { launch := { tk := 1 } }
    vbytes := vreg 1 4 [0x3FC00000] ++ vreg 2 4 [0x40000000] ++ vtan 1 1 4 [0x3F800000] ++ vtan 1 2 4 [0x3E800000] }
theorem test_vmul_tangent : vecOut (exec (.vmul 3 1 2 0 0) (vec (tang none))) = [(3, 0, 0, 0x40400000), (3, 1, 0, 0x40180000)] := by decide
theorem test_vmul_constant : vecOut (exec (.vmul 4 1 2 0 0) (vec (tang (some { cb := true })))) =
    [(4, 0, 0, 0x40400000), (4, 1, 0, 0x40000000)] := by decide
/-- R318: the sum of the rounded products is +0. -/
theorem test_tangent_of_product :
    FpOp.mul.tangent ⟨fp32, 0, false⟩ 0x3F800000 0x3F800001 0x3F800001 (some 0x3F800001) (some 0xBF800002) none = 0 := by decide
/-- R296: an MXFP4 block of 5.0, 0.25, -1.75, 3.5. -/
theorem test_mxfp4 : mxPack (packFmt 4) 0 ([0x40A00000, 0x3E800000, 0xBFE00000, 0x40600000].map fp32.decode ++ List.replicate 28 (fp32.decode 0)) =
    (0x7F, [6, 0, 0xC, 6] ++ List.replicate 28 0) := by decide

/-! ### Hypotheses met: encodings, steps, memory, the control core -/

theorem test_hyp_encode : (Instr.br 7 1 7 0x3FFF).wf = true ∧ streamOf (.br 7 1 7 0x3FFF) = some .control := by decide
theorem test_hyp_encode_two : (Instr.mdrain 3 255 0 6 0 0).wf = true ∧ streamOf (.mdrain 3 255 0 6 0 0) = some .matrix := by decide
theorem test_hyp_decode : okOf (decode .matrix 0x117F0004 (some 0xFFFFFFFF)) = none ∧ okOf (decode .matrix 0x117F0004 (some 0x400)) ≠ none := by decide

/-- A control core with one word, running. -/
def running (w : Nat) : State := core { run := .running, code := [(0, [w])], item := some {} }
theorem test_hyp_step : (running 0xA8000000).inbox = [] ∧ (running 0xA8000000).dev.power ≠ .off ∧ (running 0xA8000000).agenda = [] ∧
    (running 0xA8000000).ended = false ∧ (running 0xA8000000).dueSegment = none ∧
    (running 0xA8000000).firstUnit = some ⟨29, 0, 0⟩ ∧ okOf (decode .control 0xA8000000 none) = some .nop := by decide
theorem test_hyp_step_wait : (running 0xA8000000).hubs.all (fun e => ((running 0xA8000000).endWait e).isNone) = true := by decide
theorem test_hyp_step_event : ({ core {} with inbox := [(.segmentStart, {})] } : State).inbox = (Instr.segmentStart, {}) :: [] := by decide
/-- A vector engine at word 1 of segment 0. -/
def engine : State :=
  vec { streams := [(1, { seg := some 0, pos := 1 })], code := [(1, [8, 2, 0xFE000000, 0x02308800])], item := some {} }
theorem test_hyp_engine : engine.inbox = [] ∧ engine.agenda = [] ∧ engine.dueSegment = none ∧ engine.firstUnit = some ⟨29, 0, 1⟩ ∧
    (engine.hub 29 0).engWord 1 = some (0x02308800, none) ∧ okOf (decode .vector 0x02308800 none) = some (.vadd 3 1 2 0 0) := by decide
theorem test_hyp_engine_wait : engine.hubs.all (fun e => (engine.endWait e).isNone) = true := by decide

theorem test_hyp_form : MemoryForm (core {}) ∧ MemoryForm ({ core {} with mem := [(5, 1), (flat 232 0, 255)] } : State) := ⟨rfl, rfl⟩
theorem test_hyp_form_step : ∃ s t, MemoryForm s ∧ step s = .next t :=
  ⟨{ core {} with inbox := [(.segmentStart, { die := 29 })] }, _, rfl, rfl⟩
theorem test_hyp_write : homeOf (flat 232 0x3FF8) = homeOf (flat 232 0x3FF8 + [0, 1, 2, 3, 4, 5, 6, 7].length) ∧
    ([7, 8] : List Byte)[1]? = some 8 ∧ isHbm (homeOf (flat 645 0)) = true ∧ isHbm (homeOf (flat 232 0)) = false := by decide
theorem test_hyp_poison : isSram (homeOf (flat 232 60)) = true ∧ isSram (homeOf (flat 639 60)) = true ∧ isSram (homeOf (flat 640 0)) = false ∧
    0 < ([1, 2, 3, 4, 5, 6, 7, 8] : List Byte).length := by decide

theorem test_hyp_float : fp32Finite 0x3F800000 ∧ fp32Finite 0xC0000000 ∧ fp32Value 0x3F800000 + fp32Value 0xC0000000 = -2 ^ 149 ∧
    fp32Units 0x3F800000 ≤ 2 ^ 149 ∧ 2 ^ 149 < fp32Units 0x3F800001 ∧ |fp32Value 0x3F800000| < 2 ^ 212 := by
  unfold fp32Finite; decide
theorem test_hyp_float_special : 0x7F800000 < (0xFFC00001 : Nat) % 2 ^ 31 ∧ 2 ^ 31 < 0xBF800000 ∧ 0xBF800000 ≤ 0xFF800000 := by decide
/-- R298: 1 + 2^-24 lies halfway between 1 and the next pattern; RM 0 takes the even one, RM 3 the upper one. -/
theorem test_rounded_tie : roundedTo 0 false (2 ^ 149 + 2 ^ 125) 0x3F800000 = 0x3F800000 ∧
    roundedTo 3 false (2 ^ 149 + 2 ^ 125) 0x3F800000 = 0x3F800001 := by norm_num [roundedTo, fp32Units]
theorem test_hyp_branch : (core {}).readS 0 = {} ∧ ((core { p := [(7, ⟨1, false⟩)] }).curHub.readP 7).2 = false ∧
    (5#4).toNat = 5 ∧ (6#4).toNat = 6 := by decide
theorem test_hyp_ret : ((core { s := [(63, ⟨0xFFFFFFFF, false⟩)] }).readS 63).p = false := by decide
/-- A loop on lc1 whose last word is at the PC, its counter `n`. -/
def looping (n : Nat) : Hub := { pc := 8, loops := [⟨1, 4, 8⟩], lc := [(1, ⟨BitVec.ofNat 64 n, false⟩)] }
theorem test_hyp_loop : ((core { s := [(1, ⟨0, false⟩)] }).readS 1).p = false ∧ (∀ l ∈ (core {}).curHub.loops, l.last ≠ (core {}).curHub.pc) ∧
    (core (looping 2)).curHub.loops.filter (fun l => decide (l.lc ≠ (0#2).toNat)) = [] ++ ⟨1, 4, 8⟩ :: [] ∧
    ((SMap.get {} (looping 2).lc 1).v.toNat + 2 ^ 32 - 1) % 2 ^ 32 ≠ 0 ∧ ((SMap.get {} (looping 1).lc 1).v.toNat + 2 ^ 32 - 1) % 2 ^ 32 = 0 := by decide
/-- R357: the counter goes down at the last word of the body; at 0 the loop ends. -/
theorem test_loop_again : (after (exec .nop (core (looping 2)))).pc = 4 ∧ (after (exec .nop (core (looping 2)))).loops = [⟨1, 4, 8⟩] := by decide
theorem test_loop_exit : (after (exec .nop (core (looping 1)))).pc = 12 ∧ (after (exec .nop (core (looping 1)))).loops = [] := by decide

/-- The whole scratchpad of hub 0 of the die at 29 and the B-buffer of the die at 5 stand in the sets of the control core, read, write
or atomic; partition 0 binds logical positions 0, 5, 13 and 29 to the same physical ones. -/
def sets (w a : Bool) : Sets := [(0, ⟨flat 232 0, 8388608, a, w, false⟩), (0, ⟨flat 581 0, 1073741824, a, w, false⟩)]
def bound (s : State) : State :=
  { s with parts := [(0, { lock := true, ldmap := [(0, 0x8100), (1, 0x8201), (5, 0x8305), (13, 0x840D), (29, 0x851D)] })] }
def core0 (h : Hub) : State := bound (core { h with item := some {} })
/-- The same in a timed launch on paceline 0 of the dies at 5 and 29. -/
def timed0 (h : Hub) : State :=
  { bound (core { h with item := some { launch := { timed := true } } }) with
    dies := [(5, { member := true, modules := [(6, { up := true })] }), (29, { member := true, modules := [(0, { up := true })] })] }

theorem test_hyp_local : ptrSpace 0x7FFFF8 = 0 ∧ ptrPos 0x7FFFF8 = 0 ∧ ptrHub 0x7FFFF8 = 0 ∧ ptrEng 0x7FFFF8 = 0 ∧ openTo .ldst 0 = true ∧
    ptrOff 0x7FFFF8 + 8 ≤ ((core {}).kind 29).scratchSize := by decide
theorem test_hyp_local_timed : ((timed0 {}).hub 29 0).launch.timed = true ∧
    (timed0 {}).isMember ((timed0 {}).hub 29 0).launch.plid 29 = true := by decide
def ldst : State := core0 { s := [(1, ⟨0x7FFFF0, false⟩)], sets := sets true false }
theorem test_hyp_ld : (ldst.readS 1).p = false ∧ eaOf (ldst.readS 1).v.toNat (8#12).toInt = some 0x7FFFF8 ∧
    ldst.translate 29 0 .ldst 0x7FFFF8 8 1 = .ok ⟨0, flat 232 0x7FFFF8, 29, false, 0⟩ ∧ ldst.curHub.mark = none ∧
    ldst.violation 29 0 0 .read (flat 232 0x7FFFF8) 8 = none ∧ ldst.violation 29 0 0 .write (flat 232 0x7FFFF8) 8 = none := ⟨rfl, rfl, rfl, rfl, by decide, by decide⟩
def far : State := core0 { s := [(1, ⟨0x2140000000001000, false⟩), (2, ⟨0x7740000000000000, false⟩)], sets := sets true false }
theorem test_hyp_ldx : (far.readS 1).p = false ∧ eaOf (far.readS 1).v.toNat (0#12).toInt = some 0x2140000000001000 ∧ far.curHub.mark = none ∧
    ptrSpace 0x2140000000001000 = 2 ∧ far.violation 29 0 0 .read (flat 581 0x1000) 8 = none ∧
    far.violation 29 0 0 .write (flat 581 0x1000) 8 = none := by decide
theorem test_hyp_ldx_target : far.translate 29 0 .ldx 0x2140000000001000 8 1 = .ok ⟨2, flat 581 0x1000, 5, false, 0⟩ ∧
    far.translate 29 0 .stx 0x2140000000001000 8 1 = .ok ⟨2, flat 581 0x1000, 5, false, 0⟩ := ⟨rfl, rfl⟩
theorem test_hyp_ldx_control : eaOf (far.readS 2).v.toNat (0#12).toInt = some 0x7740000000000000 ∧ ptrSpace 0x7740000000000000 = 7 ∧
    far.phys 0 (ptrPos 0x7740000000000000) = some 29 ∧ ptrHub 0x7740000000000000 = 0 ∧ ptrEng 0x7740000000000000 = 0 ∧
    ptrOff 0x7740000000000000 + 8 ≤ 2 ^ 20 := by decide
/-- Pointer of handle 3, and the endpoint window. -/
def handles0 (x : Handle) : State := core0 { s := [(1, ⟨0x5003000000001000, false⟩)], handles := [(3, x)] }
theorem test_hyp_ldx_handle : eaOf ((handles0 {}).readS 1).v.toNat (0#12).toInt = some 0x5003000000001000 ∧ ptrSpace 0x5003000000001000 = 5 ∧
    bits 0x5003000000001000 59 52 = 0 ∧ bits 0x5003000000001000 51 48 = 3 ∧ (handles0 {}).curHub.mark = none ∧
    SMap.get {} (handles0 {}).curHub.handles 3 = { st := .invalid } ∧ ptrOff 0x5003000000001000 + 8 ≤ 65536 ∧
    SMap.get {} (handles0 { st := .valid, size := 65536, w := true }).curHub.handles 3 = { st := .valid, size := 65536, w := true } ∧
    SMap.get {} (handles0 { st := .np }).curHub.handles 3 = { st := .np } := by decide
theorem test_hyp_stx_window : let p := 0x6000000000000000
    ptrSpace p = 6 ∧ bits p 59 48 = 0 ∧ ptrOff p % 8 = 0 ∧ p.testBit 36 = false ∧ bits p 23 13 = 0 ∧ p.testBit 12 = false ∧
    eaOf p 0 = some p ∧ (core {}).curHub.packet = none := by decide
def amo0 : State := core0 { s := [(1, ⟨0x1000, false⟩), (2, ⟨5, false⟩)], sets := sets true true }
theorem test_hyp_amo : amo0.translate 29 0 .amo 0x1000 8 8 = .ok ⟨0, flat 232 0x1000, 29, false, 0⟩ ∧
    amo0.translate 29 0 .amo 0x1000 4 4 = .ok ⟨0, flat 232 0x1000, 29, false, 0⟩ := ⟨rfl, rfl⟩
theorem test_hyp_amo_sets : (amo0.readS 1).v = 0x1000 ∧ (amo0.readS 1).p = false ∧ (amo0.readS 2).p = false ∧ (amo0.readS 3).p = false ∧
    amo0.curHub.mark = none ∧ amo0.violation 29 0 0 .atomic (flat 232 0x1000) 8 = none ∧
    amo0.violation 29 0 0 .atomic (flat 232 0x1000) 4 = none ∧ amo0.curHub.launch.det = false := by decide
theorem test_hyp_perform : homeOf (flat 232 0) = homeOf (flat 232 0 + 8) ∧ (0 : Nat) < 8 ∧ 0xFFFFFFFFFFFFFFFF < 2 ^ (8 * 8) := by decide
theorem test_hyp_crossing : ((core {}).kind 29).hasEng 1 = true ∧ ((core { s := [(2, ⟨1023, false⟩)] }).readS 2).v.toNat < (core {}).vctx.n ∧
    (core {}).vctx.n ≤ ((core { s := [(2, ⟨1024, false⟩)] }).readS 2).v.toNat := by decide

/-- Segment 0 of the vector engine's section: one word. -/
def go0 (t : Bool) (n : Nat) : State :=
  let h : Hub := { code := [(1, [8, 1, 0x02308800])], streams := [(1, { queue := List.replicate n ⟨0, 0, 0⟩ })], item := some {} }
  if t then timed0 h else core0 h
theorem test_hyp_go : ((core {}).kind 29).hasEng 1 = true ∧ ((go0 false 7).curHub.segment (sectionOf 1) 0).2 = 1 ∧
    ((go0 false 7).curHub.stream 1).queue.length < 8 ∧ 8 ≤ ((go0 false 8).curHub.stream 1).queue.length ∧ (go0 false 0).curHub.launch.timed = false := by decide
theorem test_hyp_go_timed : ((go0 true 0).curHub.segment (sectionOf 1) 0).2 = 1 ∧ (go0 true 0).curHub.launch.timed = true ∧
    (go0 true 0).mark + 8 ≤ ((go0 true 0).curHub.item.getD {}).start + (8#16).toNat ∧ (go0 true 0).alternates 29 0 1 = false := by decide

/-- A drafting command DSIZES m0 at offset 0x40 in memory. -/
def push0 : State :=
  { core0 { s := [(1, ⟨0x1000, false⟩)], sets := sets true false } with mem := [(flat 232 0x1003, 0x18), (flat 232 0x1004, 1)] }
theorem test_hyp_push : ((core {}).kind 29).hasEng 6 = true ∧ (push0.readS 1).p = false ∧
    push0.violation 29 0 0 .read (flat 232 0x1000) 8 = none ∧ push0.eccBad (flat 232 0x1000) 8 = false ∧
    (push0.ahead 29 2).poisoned (flat 232 0x1000) 8 = false ∧
    okOf (draftingOf (push0.peek 29 2 (flat 232 0x1000) 8)) = some (.dsizes 0 1) := by decide
theorem test_hyp_push_target : push0.translate 29 0 .drafting 0x1000 8 8 = .ok ⟨0, flat 232 0x1000, 29, false, 0⟩ := rfl
theorem test_hyp_pop : (core {}).curHub.replies = [] ∧ (core { replies := [{ value := 3 }] }).curHub.replies = { value := 3 } :: [] ∧
    ((core {}).kind 29).hasEng (unitOf 1) = true ∧ ((core {}).readS 0).p = false := by decide
theorem test_hyp_tick : ((core { s := [(1, ⟨0xFFFFFFFFFFFFFFFF, false⟩)] }).readS 1).p = false ∧
    ((0xFFFFFFFFFFFFFFFF : Nat) + (2#14).toNat) % 2 ^ 64 ≤ 1 ∧ 1 < ((0xFFFFFFFFFFFFFFFF : Nat) + (3#14).toNat) % 2 ^ 64 := by decide
theorem test_hyp_fault : ((core { run := .running, s := [(1, ⟨0, true⟩)] }).readS 1).p = true ∧
    (core { run := .running }).curHub.launch.timed = false ∧ (core { run := .running }).curHub.run ≠ .stopped ∧
    ((timed0 { run := .running, s := [(1, ⟨0, true⟩)] }).readS 1).p = true ∧ (timed0 { run := .running }).curHub.launch.timed = true ∧
    (timed0 { run := .running }).curHub.loops = [] ∧
    (∀ x ∈ (timed0 { run := .running }).reports, x.mark = (timed0 { run := .running }).mark → x.hub ≠ (timed0 { run := .running }).cur.hub) := by decide
def ticking : State := { core { wait := .tick 7 } with dies := [(29, { cad := 7 })], arg := { die := 29 } }
theorem test_hyp_tick_end : ticking.arg.die = (core {}).cur.die ∧ ticking.arg.hub = 0 ∧ (ticking.hub 29 0).wait = .tick (0 + 7) ∧
    (ticking.die 29).cad = 0 + 7 := by decide
theorem test_hyp_xlate : ((core {}).readS 0).p = false ∧ ((core {}).die 29).dtc = [] ∧ (core {}).servingB 0 0 = none ∧
    (core0 {}).servingB 0 0x10000 = some 5 := by decide
/-- A page of partition 0 that the die's cache holds. -/
def page0 : Xlat := ⟨0, 0, 0x10000, 65536, 0, homeHost 0 (some 0), 0x10000, false, true⟩
theorem test_hyp_xlate_cached : let s := { core { item := some {}, s := [(1, ⟨0x10000, false⟩)] } with dies := [(29, { dtc := [page0] })] }
    (s.readS 1).p = false ∧ (s.die 29).dtc.find? (fun e => e.hits 0 0 ((s.readS 1).v.toNat % 2 ^ 48)) = some page0 ∧ s.servingB 0 0x10000 = none := by decide
theorem test_hyp_slots_timed : let s := timed0 { s := [(1, ⟨0x77, false⟩), (2, ⟨5, false⟩), (3, ⟨0x50011, false⟩)] }
    s.curHub.launch.timed = true ∧ s.isMember 0 5 = true ∧ (s.timedLatency 0 29 5).isSome = true ∧ s.kind 5 = .bDie ∧
    (s.readS 1).v.toNat < 2 ^ 48 ∧ (s.readS 2).v.toNat < 64 ∧ s.phys 0 (s.readS 2).v.toNat = some 5 ∧
    (s.readS 3).v.toNat < 2 ^ 22 ∧ bits (s.readS 3).v.toNat 15 14 = 0 ∧ s.phys 0 (bits (s.readS 3).v.toNat 21 16) = some 5 := by decide
theorem test_hyp_slots : ((core0 {}).readS 1).p = false ∧ (core0 {}).curHub.launch.timed = false ∧ ¬ (2 ^ 48 < 2 ^ 48 ∧ (64 : Nat) < 64) ∧
    bits 0x4000 15 14 ≠ 0 := by decide
def req (op : Nat) (m : Bool) : SlotReq := ⟨op, 5, 17, 0x77, 0, m, 29, 0, 1, 0⟩
theorem test_hyp_slot_table : (req 0 true).malformed = true ∧ (req 1 false).op = 1 ∧ (core {}).slotValid 5 17 = false ∧
    (∀ e ∈ ((core {}).die 5).tags, e.2.testBit 63 = true → e.2 % 2 ^ 48 ≠ 0x77) ∧
    (∃ e ∈ (({ core {} with dies := [(5, { tags := [(17, 2 ^ 63 + 0x77)] })] } : State).die 5).tags, e.2.testBit 63 = true ∧ e.2 % 2 ^ 48 = 0x77) := by decide
theorem test_hyp_slot_evict : ({ core {} with dies := [(5, { tags := [(17, 2 ^ 63)] })] } : State).slotValid 5 17 = true ∧
    ({ core {} with dies := [(5, { tags := [(17, 2 ^ 63)] })] } : State).slotCovered 0 5 17 = false := by decide
theorem test_hyp_csrw : ((core { s := [(1, ⟨0xFFFFFFFFFFC0, false⟩)] }).readS 1).v.toNat % 64 = 0 ∧
    ((core { s := [(1, ⟨0xFFFFFFFFFFC0, false⟩)] }).readS 1).v.toNat < 2 ^ 48 ∧ ((core { s := [(1, ⟨0, true⟩)] }).readS 1).p = true ∧
    ((core { s := [(1, ⟨0x20, false⟩)] }).readS 1).v.toNat % 64 ≠ 0 := by decide
theorem test_hyp_done : (core {}).doneMet 29 0 = true ∧ (core {}).curHub.packet = none ∧ ((core {}).part 0).barriers = [] ∧
    (core { accesses := [⟨0, 5, 581, false, true, false, false⟩] }).doneMet 29 0 = false ∧ ((core {}).part 0).trapV = false ∧
    (core {}).curHub.launch.timed = false := by decide
theorem test_hyp_mark : (core {}).curHub.accesses.filter (·.store) = [] ∧
    (core { accesses := [⟨0, 5, 581, false, true, false, false⟩] }).curHub.accesses.filter (·.store) ≠ [] ∧ (2#2) ≠ 3 := by decide
theorem test_hyp_fence : (core { posted := true }).curHub.posted = true ∧ (core {}).curHub.posted = false ∧ (core {}).cur.hub < 8 := by decide
theorem test_hyp_phase : ((core { s := [(1, ⟨0x40, false⟩)] }).readS 1).p = false ∧ eaOf 0x40 ((0#8).toInt * 64) = some 0x40 ∧ ptrSpace 0x40 = 0 ∧
    0x40 % 64 = 0 ∧ (timed0 {}).curHub.launch.timed = true := by decide
theorem test_hyp_phase_target : (core0 {}).translate 29 0 .ldst 0x40 64 1 = .ok ⟨0, flat 232 0x40, 29, false, 0⟩ ∧
    (timed0 {}).translate 29 0 .ldst 0x40 64 1 = .ok ⟨0, flat 232 0x40, 29, true, 0⟩ := ⟨rfl, rfl⟩
theorem test_hyp_stand : ((timed0 { s := [(1, ⟨64, false⟩)] }).die 29).armed = false ∧
    (timed0 { s := [(1, ⟨64, false⟩)] }).mark + 64 ≤ ((timed0 { s := [(1, ⟨64, false⟩)] }).readS 1).v.toNat := by decide
/-- Context 0 valid for partition 0 with one link, and graph 0 of one bundle. -/
def fabric : State :=
  { unit ⟨1, 0, 0⟩ { code := [(5, [0, 0, 0, 0, 0x40000000, 0])] } with
    xdies := [(1, { colctx := [(0, BitVec.ofNat 64 (2 ^ 63 + 2 ^ 55 + 200))], graphs := [(0, [[0, 0, 0], [0, 0x40000000, 0]])] })] }
theorem test_hyp_fbind : (fabric.kind 1).hasEng 7 = true ∧ ctxUsable ((fabric.xdie 1).context 0) 0 = true ∧
    SMap.get [] (fabric.xdie 1).graphs 0 ≠ [] ∧ (fabric.xdie 1).busy = false := by decide
theorem test_hyp_fload : fabric.curHub.bundle 0 = some [0, 0, 0] ∧ fabric.curHub.bundles 1 1 = some [[0, 0x40000000, 0]] ∧
    bundleOk 1 [0, 0x40000000, 0] = true := by decide
/-! ### Hypotheses met: the engines -/

theorem test_hyp_vector : (vec {}).cur.eng = 1 ∧ (vec { shape := { ety := 4 } }).curHub.shape.ety < 5 ∧ (vec {}).curHub.tan = none ∧
    5 ≤ (vec { shape := { ety := 10 } }).curHub.shape.ety ∧ (vec {}).curHub.launch.tk = 0 := by decide
theorem test_hyp_float_formats : 0x7F800000 < 0x7FC00000 % 2 ^ 31 ∧ 0x7E < 0xFF % 2 ^ 7 ∧ 2 ^ 15 < 0xBC00 ∧ 0xBC00 ≤ 2 ^ 15 + 0x7C00 ∧
    (0xBC00 : Nat) < 2 * 2 ^ 15 ∧ 0xBC00 % 2 ^ 15 ≤ 0x7C00 ∧ fp16 ∈ [fp32, bf16, fp16, e4m3, e5m2] ∧ fp16 ≠ e4m3 := by decide
theorem test_hyp_vector_lands : let c := (vec { shape := { vl := 2 } }).vctx
    c.tan.sel = 0 ∧ 0 < c.w ∧ ([⟨0, 7, false, []⟩, ⟨1023, 8, true, []⟩].map fun e : Elt => e.i).Nodup ∧
    ∀ e ∈ ([⟨0, 7, false, []⟩, ⟨1023, 8, true, []⟩] : List Elt), (e.i + 1) * c.w ≤ 4096 := by decide
theorem test_hyp_relations : (0xFF : Nat) < 2 ^ 8 ∧ 5 ≤ (10 : Nat) ∧ ([(0, true), (4095, false)].map (·.1)).Nodup ∧
    ∀ x ∈ [(0, true), (4095, false)], x.1 < 4096 := by decide
theorem test_hyp_tree : 1 < ([some 1, none, some 3] : List (Option Nat)).length ∧ sextNat 0xFF 8 ≠ 0 := by decide
theorem test_hyp_bcast : let s := vec { shape := { vl := 2 }, vbytes := vreg 2 4 [1] }
    (s.kind 29).hasEng 1 = true ∧ s.vctx.h.elemPois 2 0 4 = false ∧ s.vctx.h.elem 0 2 0 4 < s.vctx.vl ∧ s.vctx.pois 1 1 = false := by decide
theorem test_hyp_tan : (vec { tan := some { ca := true, cb := true } }).vctx.tan.sel = 0 ∧
    (vec { tan := some { ca := true, cb := true } }).vctx.tan.cc = false ∧ (vec { tan := some { sel := 4 } }).vctx.tan.ca = false ∧
    (vec { tan := some { sel := 4 } }).vctx.tan.cb = false ∧ (vec { tan := some { sel := 4 } }).vctx.tan.cc = false := by decide
def vbad : State := vec { shape := { vl := 2, ety := 5 }, vpois := [(vkey 0 1 7, true)] }
theorem test_hyp_compare : (∀ i ∈ (vec { shape := { vl := 2 } }).vctx.actives 0,
      (vec { shape := { vl := 2 } }).vctx.pois 1 i = false ∧ (vec { shape := { vl := 2 } }).vctx.pois 2 i = false) ∧
    (vbad.vctx.actives 0).find? (fun i => vbad.vctx.pois 1 i || vbad.vctx.pois 2 i) = some 1 := by decide
theorem test_hyp_pack : (vec { shape := { ety := 2 } }).vctx.h.shape.ety < 3 ∧ (vec { shape := { ety := 3 } }).vctx.h.shape.ety = 3 ∧
    (0 : Nat) < ceilDiv (vec { shape := { vl := 1, ety := 4 } }).vctx.vl 4 ∧
    keepTwo (fun p => (vec { shape := { vl := 1, ety := 4 } }).vctx.key 0 1 (4 * 0 + p)) = (0, 1) := by decide
theorem test_hyp_rand : (vec { shape := { ety := 0 } }).vctx.h.shape.ety = 0 ∧ (vec { shape := { ety := 6 } }).vctx.h.shape.ety = 6 ∧
    (vec {}).vctx.k < (1#3).toNat := by decide
def vmem : State := vec { shape := { vl := 1 }, item := some {}, sets := [(1, ⟨flat 232 0, 4096, false, true, false⟩)] }
theorem test_hyp_vld : vmem.vctx.h.elemPois 1 0 4 = false ∧ 0 < vmem.vctx.vl * vmem.vctx.w ∧
    (∃ as, vmem.vecAddrs .read (vmem.vctx.h.elem 0 1 0 4 + 64 * (63#15).toNat) 4 vmem.vctx.ks = .ok as) ∧
    ∃ as, vmem.vecAddrs .write (vmem.vctx.h.elem 0 1 0 4 + 64 * (63#15).toNat) 4 vmem.vctx.ks = .ok as := ⟨rfl, by decide, ⟨_, rfl⟩, ⟨_, rfl⟩⟩
theorem test_hyp_shaper : let p := (vec { vbytes := vreg 1 4 [0x00040F8A] }).vctx.h.elem 0 1 0 4
    bits p 3 0 ≤ 10 ∧ bits p 6 4 = 0 ∧ bits p 15 12 = 0 ∧ p = 0x00040F8A := by decide
theorem test_hyp_tan_next : ((engine.curHub.stream 1).pos - 1) + 1 < (engine.curHub.segment 1 ((engine.curHub.stream 1).seg.getD 0)).2 := by decide
theorem test_hyp_vwrite_hub : (0 : Nat) < 8 ∧ (7 : Nat) < 8 := by decide

/-- An M-die hub with its scratchpad and the weight buffer in its sets. -/
def mat0 : State := mat { item := some {}, sets := [(2, ⟨flat 104 0, 8388608, false, true, false⟩), (2, ⟨flat 436 0, 33554432, false, false, false⟩)] }
theorem test_hyp_matrix : mat0.cur.eng = 2 ∧ mat0.cur.hub < 8 ∧ legalMode 1 2 2 = true ∧ (∀ u ∈ mat0.curArr.steps, u.1.acc ≠ 3) ∧
    mat0.curArr.loadingAt 0 = false := by decide
theorem test_hyp_mloadw : 0 * 256 + 256 * colBytes mat0.curArr.wf ≤ Config.weightSize ∧
    (∀ l, mat0.curArr.shadow.lastEntry = some l → l + 264 ≤ 0 + 16) := ⟨by decide, fun _ h => nomatch h⟩
theorem test_hyp_mloadw_sets : mat0.violation 13 0 2 .read (flat (homeWeight 13 0) 0) (256 * colBytes mat0.curArr.wf) = none := by decide +kernel
theorem test_hyp_mmeta : mat0.matCheck .read [0] 8192 false = none := by decide +kernel
theorem test_hyp_mscq : mat0.matCheck .read [0] (8 * ((511#9).toNat + 1)) false = none ∧
    mat0.curHub.sq.length + mat0.scqComing 13 0 + ((511#9).toNat + 1) ≤ (if mat0.period = 2 then 256 else 512) := by decide +kernel
/-- The active plane is loaded under the mode in force. -/
def mat1 : State := { mat0 with arrays := [(52, { plane0 := { loaded := true } })] }
theorem test_hyp_mrun : mat1.matCheck .read (rowOffsets 0 256 1) (rowBytes mat0.curArr.af mat0.curArr.wf) true = none ∧
    isSparse mat1.curArr.wf = (none : Option Nat).isSome ∧ mat1.stepClash 3 = none ∧ mat1.curArr.amx = false := by decide
theorem find_listed {α : Type} (v : α) (k n i : Nat) (h : k ≤ i ∧ i < k + n) : SMap.find i ((List.range' k n).map fun j => (j, v)) = some v := by
  induction n generalizing k with
  | zero => omega
  | succ n ih =>
    simp only [List.range'_succ, List.map_cons, SMap.find]
    split
    · rfl
    · exact ih (k + 1) (by omega)
/-- A slot table in which every slot is valid. -/
@[irreducible] def everySlot : SMap Nat := (List.range' 0 16384).map fun i => (i, 2 ^ 63)
def full : State := { core {} with dies := [(5, { tags := everySlot })] }
theorem full_tags : (full.die 5).tags = everySlot := rfl
theorem test_hyp_slots_full (k : Nat) (h : k < 16384) : full.slotValid 5 k = true := by
  have e : SMap.get 0 everySlot k = 2 ^ 63 := by
    unfold everySlot SMap.get
    rw [find_listed (2 ^ 63) 0 16384 k ⟨Nat.zero_le _, by omega⟩]
    rfl
  rw [State.slotValid, full_tags, e]
  decide
/-- Every nibble of the pair of registers 0 is 0x4. -/
@[irreducible] def nibbles : SMap Byte := (List.range' 0 16384).map fun i => (i, 0x44)
/-- The same for a sparse plane, with legal metadata. -/
def mat2 : State := { mat0 with arrays := [(52, { plane0 := { loaded := true, wf := 5 }, wf := 5, md := nibbles })] }
theorem test_hyp_mrunS : isSparse mat2.curArr.wf = (some 0 : Option Nat).isSome ∧ mat2.stepClash 3 = none ∧ mat2.curArr.amx = false := by decide
theorem mat2_md : mat2.curArr.md = nibbles := rfl
theorem test_hyp_mrunS_pair : mat2.curArr.pairLegal 0 = true := by
  unfold Arr.pairLegal
  rw [List.all_eq_true, mat2_md]
  intro i hi
  have h := find_listed (0x44 : Byte) 0 16384 i ⟨Nat.zero_le _, by simpa using hi⟩
  have h' : SMap.get 0#8 nibbles i = 68#8 := by unfold nibbles SMap.get; exact congrArg (·.getD 0#8) h
  simp [h', legalNibble]
theorem test_hyp_mdrain : mat0.matCheck .write (rowOffsets 0 1024 1) (256 * drainWidth 0) true = none ∧ mat0.curArr.epi = false := by decide
def commit0 : MatStep := ⟨13, 0, 0, 1, 1, 3, 1, 0, 0, 0, 1, 0, 0, false, false, none, [], [], 0, 0, 0, 0, 0, 0, 0⟩
theorem test_hyp_commit : (({ mat0 with arrays := [(52, { steps := [(commit0, 1)] })] } : State).arr 13 0).steps.find?
      (fun x => x.1.hub == 0 && x.1.id == 1 && x.1.rows == x.2) = some (commit0, 1) ∧ commit0.rows ≤ 256 := by decide

theorem test_hyp_transfer : (xfer {}).cur.eng = 3 ∧ (xfer {}).cur.hub < 8 ∧
    ((xfer {}).curHub.timeline 2).issued ≤ ((xfer {}).curHub.timeline 2).count ∧ (xfer {}).curHub.portFull 3 = false ∧
    (let h := (xfer { timelines := [(2, { issued := 4, count := 3 })] }).curHub
     h.launch.timed = false ∧ (h.timeline 2).count < (h.timeline 2).issued) ∧
    (xfer { ports := [(3, { entry := {}, op := 3 })] }).curHub.portFull 3 = true := by decide
theorem test_hyp_transfer_end : let u := { xfer {} with arg := { die := 13, eng := 3, ok := true } }
    (u.hub 13 0).stream 3 = { ((u.hub 13 0).stream 3) with fails := [] } ∧ (u.hub 13 0).replies.length < 16 := by decide
def word : XfWord :=
  { op := 2, d := { ndim := 1, sfmt := 5, dfmt := 5, esz := 2, dims := [(2, 4, 4)] }, die := 13, hub := 0, eng := 3, issue := 0, num := 1, k := 0, stride := 0 }
theorem test_hyp_chunk : word.k = 0 ∧ 0 < word.d.dw word.op ∧ (List.replicate 8 (1 : Byte)).length = word.d.dw word.op * (word.elems 0).length ∧
    (word.elems 0)[0]? = some 0 ∧ (word.elems 0)[1]? = some 1 ∧ word.dstAt 0 0 0 + word.d.dw word.op ≤ word.dstAt 0 1 0 := by decide
theorem test_hyp_index : (index {}).cur.eng = 5 ∧ (index {}).curHub.ixLoad < 16 ∧ (index {}).curHub.portFull 5 = false := by decide
def cmd : IxCmd := { op := 2, issue := 0, num := 0, seg := 0, idx := 0, off := 0, block := some {} }
theorem test_hyp_index_start : (index { ixq := [cmd] }).curHub.ixrun = none ∧ (index { ixq := [cmd] }).curHub.ixq = cmd :: [] ∧
    cmd.block = some {} := by decide
theorem test_hyp_index_waits : 16 ≤ (index { ixq := List.replicate 16 cmd }).curHub.ixLoad ∧
    (index { ports := [(5, { entry := {}, op := 3 })] }).curHub.portFull 5 = true ∧ (index {}).ixWillReply 5 0 = true ∧
    (index {}).ixWillReply 2 0 = false := by decide
def ixr (op : Nat) (r : Bool) : IxRun := { cmd := { cmd with op := op }, b := { ret := r, rpy := r }, t0 := 0 }
theorem test_hyp_index_end : (ixr 2 false).b.replies 2 = false ∧ (ixr 2 true).b.replies 2 = true ∧
    (index { ixrun := some (ixr 2 true) }).curHub.ixq = [] ∧ (index { ixrun := some (ixr 2 true) }).curHub.replies.length < 16 := by decide

/-- A drafting unit whose hub has a key descriptor of one key and the whole scratchpad in its sets; map 0 has 1 row in and 1 out. -/
def draft0 : State :=
  draft { item := some {}, keys := some ⟨1, 1, 0, 0⟩, maps := [(0, { nin := 1, nout := 1, e := [0], s := [1], v := [true] })]
          sets := [(6, ⟨flat 232 0, 8388608, false, true, false⟩)] }
theorem test_hyp_draft : draft0.cur.hub < 8 ∧ (∀ m ∈ [0], draft0.curHub.mapLost m = none) ∧
    draft0.drBounds 29 0 0 [⟨64, 4, false, true⟩, ⟨64, 4, true, true⟩] = none ∧
    draft0.drSets 29 0 0 0 [⟨64, 4, false, true⟩, ⟨64, 4, true, true⟩] = none := by decide
theorem test_hyp_dmatch : (draft0.curHub.keys.isSome && ((0 : Nat) == 1 || (draft0.curHub.map 0).nout == (draft0.curHub.keys.getD ⟨1, 1, 0, 0⟩).n)) = true ∧
    draft0.drBounds 29 0 0 [⟨0, 64, false, false⟩, ⟨64, 1, false, false⟩] = none ∧
    draft0.drSets 29 0 0 0 [⟨0, 64, false, false⟩, ⟨64, 1, false, false⟩] = none := by decide
theorem test_hyp_dcompose : ((draft0.curHub.map 0).nout == (draft0.curHub.map 0).nin) = true ∧ draft0.drBounds 29 0 0 [] = none ∧
    draft0.drSets 29 0 0 0 [] = none := by decide
theorem test_hyp_dsave : draft0.drBounds 29 0 0 [⟨64, imageSize 1, true, false⟩] = none ∧ draft0.drSets 29 0 0 0 [⟨64, imageSize 1, true, false⟩] = none ∧
    draft0.poisoned (flat (homeScratch (draft0.kind 29) 29 0) 64) 8 = false := by decide
theorem test_hyp_draft_start : let v := { draft { port := [⟨1, 2⟩] } with arg := { die := 29 } }
    (v.die 29).draft = none ∧ (v.die 29).draftGo = none ∧
    ((List.range 8).map fun i => ((v.die 29).draftLast + 1 + i) % 8).find? (fun y => v.drWaits 29 y) = some 0 ∧ (v.hub 29 0).port = ⟨1, 2⟩ :: [] := by decide
theorem test_hyp_draft_end : let y : DrRun := { hub := 0, instr := .dsizes 0 0, s := 0, e := 17, keys := some ⟨1, 1, 0, 0⟩, map := some (0, {}) }
    (({ draft {} with dies := [(29, { draft := some y })], arg := { die := 29 } } : State).die 29).draft = some y ∧ y.hub < 8 ∧ y.reply = none ∧
    ({ y with reply := some (3, 4) } : DrRun).reply = some (3, 4) ∧ ((draft { ports := [(6, { entry := {}, op := 3 })] }).hub 29 0).portFull 6 = true ∧
    ((draft {}).hub 29 0).portFull 6 = false ∧ ((draft {}).hub 29 0).replies.length < 16 := by decide
/-- Element 0 of the X-die at 1: f0 = 2, f1 = 1, f2 without a value, and a word waiting at its local input. -/
def elem0 : State :=
  { unit ⟨1, 0, 7⟩ {} with
    xdies := [(1, { elems := [(0, { f := [(0, ⟨2, true⟩), (1, ⟨1, true⟩)] })], bound := some (0, 1, [[0, 0, 0]]), ctx := some 0 })] }
theorem test_hyp_fabric : elem0.fabOperand 0 = some 2 ∧ elem0.fabOperand 1 = some 1 ∧ elem0.fabOperand 2 = none ∧ 1 < (2#64).toNat ∧
    (1#64).toNat ≤ 1 ∧ (0#3).toNat < 5 ∧ (4#3) ≠ 0 := by decide
/-- Two words of the own shard, one of them come, and a pending take. -/
def elem1 : State :=
  { elem0 with
    xdies := [(1, { (elem0.xdie 1) with sources := [(0, [⟨7, 0, 0, 0⟩])], elems := [(0, { f := [(0, ⟨2, true⟩), (3, ⟨9, true⟩)], pend := [⟨7, 0, 0, 0⟩] })] })] }
theorem test_hyp_fabric_commit : SMap.get {} (elem1.xdie 1).stage 0 = ({} : FStage) ∧ ({ hold := true } : FStage).hold = true ∧
    ({ regs := [(2, 7)] } : FStage).hold = false ∧ ({ regs := [(2, 7)] } : FStage).take = false ∧ ({ regs := [(2, 7)] } : FStage).emit = none := by decide
theorem test_hyp_fabric_stream : (elem1.xdie 1).offered (elem1.die 1).coast 0 = some 7 ∧ (elem0.xdie 1).offered (elem0.die 1).coast 0 = none ∧
    (elem1.xdie 1).accepts 0 = true ∧ (elem0.xdie 1).accepts 0 = false ∧ elem1.fabOperand 3 = some 9 := by decide
/-! ### Hypotheses met: device events -/

/-- Nothing else holds a value but the argument of the event at hand. -/
def base (a : Arg) : State := { State.reset with inbox := [], arg := a }
/-- The V-die hub 0 of position 29 with the event at hand. -/
def atHub (h : Hub) (a : Arg) : State := { core h with arg := { a with die := 29 } }

theorem test_hyp_segment : let s := atHub { streams := [(1, { queue := [⟨0, 0, 0⟩] })], item := some { launch := { timed := true } } } { eng := 1 }
    s.segmentDue 29 0 1 = some 0 ∧ (((s.hub 29 0).stream 1).queue)[0]? = some ⟨0, 0, 0⟩ ∧ ((s.hub 29 0).stream 1).seg = none ∧
    ((s.hub 29 0).stream 1).free ≤ 0 := by decide
theorem test_hyp_waits : (atHub { mark := some [] } {}).curHub.mark = some [] ∧ (atHub { wait := .fence 3 } {}).fenceMet 29 0 3 = true ∧
    3 ≤ (({ timelines := [(6, { count := 3 })] } : Hub).timeline 6).count ∧ (0 : Nat) ≤ ((core {}).die 29).cad ∧
    (atHub { replies := [{}], wait := .pop 3 } {}).curHub.replies = {} :: [] := by decide
def barrier : Barrier := ⟨0, 2, 15, 0, [232], [(232, 0)]⟩
theorem test_hyp_barrier : let s := { atHub { wait := .bar 2 15 } { m := 2, n := 15 } with parts := [(0, { barriers := [barrier] })] }
    (s.part 0).barriers.find? (·.is 0 2 15 0) = some barrier ∧ barrier.full = true ∧ (8 * 29 + 0) ∈ barrier.arrived.map (·.1) ∧
    (s.hub 29 0).wait = .bar barrier.level barrier.id ∧ (s.slot 0).stopping = false ∧ (s.slot 0).run = none ∧
    (({ s with slots := [(0, { stopping := true })] } : State).slot 0).stopping = true := by decide
theorem test_hyp_directory : let s := atHub { wait := .phase 0 4, item := some {}, run := .running } { n := 4, off := 1 }
    (s.hub 29 0).wait = .phase 0 s.arg.n ∧ s.arg.off ≠ 0 ∧ (s.hub 29 0).launch.timed = false ∧ (s.hub 29 0).run ≠ .stopped ∧
    (atHub { wait := .phase 0 4, run := .running } { n := 4 }).arg.off = 0 ∧ ((atHub { wait := .phase 0 4, run := .preempted } { n := 4 }).hub 29 0).run ≠ .running := by
  decide
theorem test_hyp_reply_port : SMap.find 5 ({ ports := [(5, { entry := {}, op := 1 })] } : Hub).ports = some { entry := {}, op := 1 } ∧
    (List.replicate 15 ({} : Reply)).length < 16 ∧ ({ entry := {}, op := 1, behind := [{ eng := 3 }] } : Port).behind = { eng := 3 } :: [] ∧
    ({ entry := {}, op := 1 } : Port).behind = [] ∧ ({ drHeld := some {} } : Hub).drHeld = some {} := by decide

/-- A counted launch of slot 0 with two items on hub 0 of the die at 29, and the same in a timed launch. -/
def run0 (t : Bool) : Run :=
  { launch := { nitem := 2, timed := t }, fields := [⟨2, 0, 1, 0⟩, {}, {}, {}, {}, {}], teams := [(29, 29, 1)] }
def slot0 (r : Run) (st : Nat) : State :=
  { bound (core {}) with slots := [(0, { valid := true, run := some r, qcb := { state := st, prio := 1, bprio := 1 } })] }
theorem test_hyp_item : (∀ h ∈ maskHubs 1, ((slot0 (run0 false) 2).hub 29 h).item = none) ∧
    (∃ it, (slot0 (run0 false) 2).itemOf (run0 false) 0 0 1 64 = .ok it ∧ it.fields.length = 6 ∧ it.wid = 1) ∧
    ∃ it, (slot0 (run0 true) 2).itemOf (run0 true) 0 0 1 ((run0 true).startMark 0) = .ok it ∧ it.fields.length = 6 :=
  ⟨by decide, ⟨_, rfl, rfl, rfl⟩, ⟨_, rfl, rfl⟩⟩
theorem test_hyp_item_end : ({ slot0 (run0 false) 2 with hubs := [(232, { item := some {} })] } : State).teamEnded (run0 false) 0 = true := by decide
theorem test_hyp_completion : ({ run0 false with next := 2, taken := [(0, 2)], ended := 2 } : Run).finished = true ∧
    ((slot0 (run0 false) 2).slot 0).qcb.state = 2 ∧ ((slot0 (run0 false) 2).slot 0).stopping = false ∧
    (run0 false).caddr = 0 ∧ ({ run0 false with caddr := 8 } : Run).caddr ≠ 0 := by decide
theorem test_hyp_launch_abort : (slot0 { run0 false with abort := true } 2).abortReady { run0 false with abort := true } = true := by decide
def ready0 : State :=
  { slot0 (run0 false) 2 with parts := (slot0 (run0 false) 2).parts.map fun e => (e.1, { e.2 with tdisp := 2 }) }
theorem test_hyp_grant : ready0.mayStart 0 = true ∧ ready0.candidates 0 = 0 :: [] ∧ ready0.runFor 0 = some (run0 false) ∧
    (∀ v ∈ (ready0.part 0).susp, v.off = false) ∧ wholeSet (ready0.slot 0) (run0 false) = false ∧ ready0.freeTeams (run0 false) [] ≠ [] := by decide
theorem test_hyp_grant_set : wholeSet ({ qcb := { state := 1 } } : Slot) (run0 true) = true ∧
    ({ slot0 (run0 true) 1 with pls := [(0, { formed := true })], dies := [(29, { member := true })] } : State).setFree (run0 true) [] = true := by decide

/-- Queue 7 of partition 0, mapped to slot 0 or not. -/
def queue7 (m : Bool) (a : Arg) (st : Nat) : State :=
  { base a with
    dev := { State.reset.dev with qregs := [(7, (true, 0, m, 0, 5))] }
    slots := [(0, { valid := true, qcb := { qid := 7, state := st, log2n := 4, tail := 1 } })] }
theorem test_hyp_kick : (queue7 true { fn := 1, off := 4096 * 7, size := 4 } 0).qreg 7 = (true, 1 - 1, true, 0, 5) ∧ 4096 * 7 = 4096 * (7 : Nat) ∧
    (7 : Nat) < 4096 ∧ (1 : Nat) ≤ 1 ∧ (0 : Nat) < 16 ∧ (queue7 false {} 0).qreg 7 = (true, 1 - 1, false, 0, 5) := by decide
theorem test_hyp_fetch : (queue7 true {} 0).fetches 0 = true ∧ (1 + 2 ^ 32 - 0) % 2 ^ 32 ≤ 2 ^ 4 := by decide
theorem test_hyp_validate : ((queue7 true {} 1).slot 0).qcb.state = 1 ∧ ((queue7 true {} 1).slot 0).validated = false ∧
    (queue7 true {} 1).refusal 0 [] = some 1 := by decide
/-- A record for one item on hub 0 of logical position 29: a control-core section of 4 bytes in its B-buffer. -/
def record : List Byte :=
  leBytes 8 (2 ^ 56) ++ leBytes 8 0 ++ leBytes 8 0 ++ leBytes 8 0 ++ leBytes 8 0 ++ leBytes 8 0 ++ leBytes 8 0 ++ leBytes 8 0 ++
  leBytes 8 0x2140000000000000 ++ List.replicate 40 0 ++ leBytes 4 4 ++ List.replicate 76 0 ++
  ((List.range 48).map fun l => if l = 29 then 1 else 0) ++ List.replicate 16 0
theorem test_hyp_refusal : (bound (base {})).refusal 0 record = none := by decide +kernel
theorem test_hyp_save : ((queue7 true {} 4).slot 0).valid = true ∧ ((queue7 true {} 4).slot 0).qcb.state = 4 ∧ (0x3F80 : Nat) % 128 = 0 ∧
    (queue7 true {} 4).qreg ((queue7 true {} 4).slot 0).qcb.qid = (true, 0, true, 0, 5) := by decide
theorem test_hyp_restore : let s : State := { queue7 false {} 0 with slots := [], dev := { (queue7 false {} 0).dev with fwsram := [(0x380, ({ qid := 7 } : Qcb).bytes)] } }
    (s.slot 0).valid = false ∧ (0x380 : Nat) % 128 = 0 ∧ s.imageOk (qcbOf (SMap.get [] s.dev.fwsram 0x380)) = true ∧
    s.qreg (qcbOf (SMap.get [] s.dev.fwsram 0x380)).qid = (true, 0, false, 0, 5) := by decide
theorem test_hyp_slot_quiet : (queue7 true {} 4).kickComing 7 = false ∧ ((queue7 true {} 4).part 0).takesRecord = false ∧
    ({ frEn := true } : Part).takesRecord = true ∧ (queue7 true {} 4).dev.bootRec = false := by decide
theorem test_hyp_pre : ((slot0 (run0 false) 2).slot 0).run = some (run0 false) ∧ ((slot0 (run0 false) 2).slot 0).preq = false ∧
    (slot0 (run0 false) 2).savepOk 0 0 (run0 false).hubs.length = true := by decide
theorem test_hyp_dog : ((slot0 (run0 false) 3).slot 0).qcb.state = 3 ∧ ((slot0 (run0 false) 2).slot 0).qcb.wrem = 0 := by decide

theorem test_hyp_stop : (run0 false).launch.timed = false ∧ (run0 false).abort = false ∧ (run0 false).placed = [] ∧
    (∀ y ∈ (slot0 (run0 false) 2).heldHubs (run0 false), (slot0 (run0 false) 2).savable y.1 y.2 = true) ∧ ((slot0 (run0 false) 2).slot 0).wdx = false ∧
    (run0 false).hubs = [(29, 0)] := by decide
def timedRun : State :=
  { slot0 (run0 true) 2 with
    dies := [(5, { member := true, gather := true, quiet := true }), (29, { member := true, gather := true, quiet := true })]
    pls := [(0, { root := 5, formed := true, slot := some 0 })] }
theorem test_hyp_timed_resume : ((timedRun.slot 0).run = some (run0 true)) ∧ (run0 true).launch.timed = true ∧
    SMap.find 29 timedRun.dies = some { member := true, gather := true, quiet := true } := by decide
theorem test_hyp_quiet : (timedRun.pl 0).slot = some 0 ∧ (timedRun.slot 0).wdx = false ∧
    (∀ q, q < 48 → timedRun.isMember 0 q = true → (timedRun.die q).gather = true ∧ (timedRun.die q).quiet = true ∧ (timedRun.die q).haltAt = none) ∧
    timedRun.openLoads (run0 true) 0 = false ∧ (∀ y ∈ (run0 true).hubs, ∀ a ∈ (timedRun.hub y.1 y.2).accesses, a.store = false) := by decide
theorem test_hyp_backstop_go : let s : State := { slot0 (run0 false) 2 with inbox := [(.partitionReset, {})] }
    s.goComing 0 = true ∧ (s.slot 0).qcb.state = 2 ∧ (s.part 0).rstBusy = false ∧ 10000000 ≤ ({ halt := 10000000 } : Slot).halt := by decide
theorem test_hyp_backstop : (slot0 (run0 false) 2).goComing 0 = false ∧ ((slot0 (run0 false) 2).part 0).rstBusy = false ∧
    2 * (slot0 (run0 false) 2).dev.graceUs ≤ 2000 := by decide

/-- Partition 0 with a good map of the H-die, two M-dies and one B-die. -/
def mapped : State := { base {} with parts := [(0, { ldmap := [(0, 0x8100), (5, 0x8305), (13, 0x840D), (14, 0x840E)] })] }
theorem test_hyp_map : (mapped.part 0).lock = false ∧ mapped.mapBad 0 = none ∧ (base {}).mapBad 0 = some (1, 5, 0) := by decide
theorem test_hyp_unlock : ((bound (base {})).part 0).lock = true ∧ ((bound (base {})).part 0).susp = [] ∧ (bound (base {})).slotsOf 0 = [] ∧
    (47 : Nat) < 48 ∧ SMap.get false (base {}).dev.dieFail 47 = false := by decide
theorem test_hyp_unlock_waiting : let s : State := { bound (base {}) with slots := [(0, { valid := true, validated := true, qcb := { state := 1 } })] }
    (∀ n ∈ s.slotsOf 0, (s.slot n).qcb.state ≠ 2 ∧ (s.slot n).qcb.state ≠ 3) ∧ 0 ∈ s.slotsOf 0 ∧ (s.slot 0).validated = true ∧ (s.part 0).susp = [] := by
  decide
theorem test_hyp_reset : ({ rstBusy := true, rstPhase := 1 } : Part).rstBusy = true ∧ ({ rstBusy := true, rstPhase := 1 } : Part).rstPhase = 1 ∧ ({ scrubbing := true } : Part).scrubbing = true ∧
    isSram (homeOf (flat 104 5)) = true ∧ homeDie (homeOf (flat 104 5)) ∈ (bound (base {})).boundDies 0 := by decide

/-- The dies at 5 and 29 are linked, and named by PLMEM0. -/
def linked : State :=
  { bound (base {}) with
    dies := [(5, { modules := [(6, { up := true })] }), (29, { modules := [(0, { up := true })] })]
    pls := [(0, { mem := 2 ^ 5 + 2 ^ 29 })] }
theorem test_hyp_form_pl : (linked.pl 0).formed = false ∧ linked.formErr 0 = 0 ∧ (linked.pl 0).members = [5, 29] := by decide
theorem test_hyp_form_stages : (base { m := 1 }).arg.m = 1 ∧ ({ form := true, stage := 1, mem := 3 } : Pl).stage = 1 ∧
    (linked.pl 0).form = false ∧ ({ form := true, stage := 3, mem := 3, taken := 2 ^ 29 } : Pl).members = [29] ∧ ({} : Die).forming = false := by decide
theorem test_hyp_dissolve : ∀ p ∈ ({ mem := 2 ^ 29 } : Pl).members, (base {}).runsLaunch p = false := by decide
def member (d : Die) (l : Pl) (a : Arg) : State := { base { a with pos := 29 } with dies := [(29, { d with member := true })], pls := [(0, { l with formed := true })] }
theorem test_hyp_halt : let s := member { haltAt := some 9 } {} { value := 8 }
    (s.die 29).member = true ∧ (s.die 29).plid = bits s.arg.value.toNat 59 56 ∧ (s.die 29).held = false ∧
    (∀ x, (s.die 29).haltAt = some x →
      s.haltCad 29 ((((s.die 29).cad : Int) - s.haltShift 29).toNat / 2 ^ 48 * 2 ^ 48 + s.arg.value.toNat % 2 ^ 48) < x) :=
  ⟨rfl, by decide, rfl, fun x h => by cases h; decide⟩
theorem test_hyp_hold : ((member { cad := 9, haltAt := some 9 } {} {}).die 29).haltAt = some 9 ∧
    ((member { cad := 9, haltAt := some 9 } {} {}).pl 0).trap = false ∧ ((member { cad := 9, haltAt := some 9 } {} {}).die 29).held = false ∧
    (∀ h, h < 8 → ((member {} {} {}).hub 29 h).refused = none) := by decide
theorem test_hyp_release : let s := { slot0 (run0 true) 2 with pls := [(0, ({ formed := true, held := true, slot := some 0 } : Pl))] }
    (s.pl 0).formed = true ∧ (s.pl 0).part = 0 ∧ (s.pl 0).held = true ∧ (s.pl 0).retrain = false ∧ (s.pl 0).slot = some 0 ∧
    (s.slot 0).run = some (run0 true) := by decide
theorem test_hyp_down : ((member { parent := 3 } {} { m := 3 }).die 29).root = false ∧ ((member { parent := 3 } {} { m := 3 }).die 29).parent = 3 := by decide
theorem test_hyp_coast : (0xC000000000000008 : Nat) / 2 ^ 60 ≤ 12 ∧ (7 : Nat) / 2 ^ 48 * 2 ^ 48 + 0xC000000000000008 % 2 ^ 48 = 8 ∧
    ((member { cad := 7 } {} { value := 0xC000000000000008 }).die 29).cad < 8 ∧
    (12, 8) ∉ ((member { cad := 7 } {} { value := 0xC000000000000008 }).die 29).coastNext ∧
    ((((member { cad := 8, coastNext := [(12, 8), (0, 9)] } {} {}).die 29).coastNext.filter fun x => x.2 == 8).getLast?) = some (12, 8) := by decide
theorem test_hyp_adopt : let s := member {} { slot := some 0 } { value := 0xFFFFFFFF }
    (s.die 29).member = true ∧ (s.die 29).armed = false ∧ (s.pl (s.die 29).plid).slot = some 0 ∧ s.launchHubs 29 = [] ∧
    s.markOf 29 < s.arg.value.toNat ∧ s.arg.value.toNat < s.markOf 29 / 2 ^ 32 * 2 ^ 32 + 2 ^ 32 := by decide
theorem test_hyp_stand_hold : let s := member { armed := true, standM := 0 } {} {}
    (s.die 29).armed = true ∧ (s.die 29).cad = (s.die 29).standAt ∧ (s.die 29).standing = false ∧ (s.die 29).haltAt = none ∧
    s.standNeighbours 29 = [] ∧ s.quietStand (s.die 29).plid = false ∧ (∀ h ∈ s.launchHubs 29, (s.die 29).standHubs.testBit h = true) := by decide
theorem test_hyp_stand_end : ({ standing := true } : Die).swallow = 0 ∧ ({ standing := true } : Die).gather = false ∧
    (16256 / 16384 + 1) * 16384 ≤ 16256 + 128 ∧ ((member {} {} {}).pl 0).idleFrom ≤ 16384 ∧ 16384 ≤ ({ slot := some 0, idleTo := 16384 } : Pl).idleTo ∧
    ((member { cad := 16256 } {} {}).die 29).cad = 16256 ∧ ((member { cad := 16256 } {} {}).die 29).armed = false ∧
    ((member { cad := 16256 } {} {}).pl 0).formed = true ∧ ((member { cad := 16256 } {} {}).pl 0).slot = none := by decide

theorem test_hyp_wire : Config.wire 29 0 = some (5, 6) ∧ Config.wire 40 3 = some (12, 8) := by decide
def beat0 : Beat := { id := 3, src := 13, die := 5, slot := 0, lpos := 0, hub := 0, eng := 3, hops := [(13, 0, 256)], at_ := 0, stream := true }
theorem test_hyp_beat : ({ base { n := 3 } with beats := [beat0] } : State).beat 3 = some beat0 ∧ beat0.hop + 1 ≥ beat0.hops.length ∧ beat0.stream = true ∧
    (beat0.hops.any fun f => decide (f.2.2 = 256) && Config.wire f.1 f.2.1 == some (5, 2)) = true := by decide
theorem test_hyp_frames : ({ still := true } : Die).still = true ∧ ({ cad := 256 } : Die).cad % 256 = 0 ∧ ({} : Die).still = false ∧ ({} : Die).sub = 0 ∧
    corrected (List.replicate 22 1 ++ [0]) = true ∧ corrected (List.replicate 23 1) = false ∧
    (base { size := 1 }).arg.size ≠ 0 ∧ (base {}).arg.sub = 0 ∧ (beatHeaderOf 0).seq = 0 := by decide
theorem test_hyp_retry : ({ replay := [{ seq := 0 }] } : Module).replay ≠ [] ∧ ({ prog := 7 } : Module).prog + 64 ≤ 71 ∧ (0 : Nat) = ({} : Module).expSeq ∧ (256 : Nat) % 256 = 0 ∧
    ((base {}).die 29).member = false := by decide
theorem test_hyp_records : ({ kind := 0x0D } : FaultReport).kind = 0x0D ∧ ({} : FaultReport).kind ≠ 0x0D ∧
    ({ frEn := true, frHead := 63 } : Part).ringFill 0 < 2 ^ ({ frEn := true, frHead := 63 } : Part).ringLog ∧
    2 ^ ({ frHead := 64 } : Part).ringLog ≤ ({ frHead := 64 } : Part).ringFill 0 ∧ ({ batch := [⟨0, 0, false, 0, 0, 0, 0, 0, 0, 0, 0⟩] } : Part).batch ≠ [] := by decide

theorem test_hyp_report : SMap.find 4 ({ base { n := 4 } with net := [(4, { typ := 0xC, rep := { kind := 0x0A } })] } : State).net =
    some { typ := 0xC, rep := { kind := 0x0A } } ∧ ({ batch := [⟨0, 0, false, 0, 0, 0, 0, 0, 0, 0, 0⟩], batchAt := 4 } : Part).batchAt = 4 := by decide

/-- A packet of the hub at 29 to the B-die at 5. -/
def pkt : Pkt := { typ := 0, die := 29, hub := 0, eng := 0, part := 0, target := 5, addr := flat 581 0, n := 8, reg := 3 }
def carry (p : Pkt) : State := { base { n := 4 } with net := [(4, p)] }
theorem test_hyp_packet : SMap.find 4 (carry pkt).net = some pkt ∧ (carry pkt).accepts pkt = true ∧ (carry pkt).hbmRefused pkt = false ∧ pkt.xf = none ∧
    pkt.target ≠ 48 ∧ pkt.late = false ∧ pkt.n ≠ 0 ∧ pkt.amo = none := by decide
theorem test_hyp_packet_clean : (carry pkt).eccBad pkt.addr pkt.n = false ∧ (∀ e ∈ ((carry pkt).hub 29 0).accesses, e.waiting = false) ∧
    ∀ e ∈ ((core { accesses := [⟨4, 5, 581, true, false, false, false⟩] }).hub 29 0).accesses, e.waiting = false := by decide
theorem test_hyp_packet_refused : (carry { pkt with addr := flat 645 0 }).hbmRefused { pkt with addr := flat 645 0 } = true := by decide
theorem test_hyp_packet_stranger : (bound (carry { pkt with die := 37 })).accepts { pkt with die := 37 } = false := by decide
theorem test_hyp_packet_amo : ({ pkt with amo := some ⟨.add, 0, 8, 1, 0, false, 29, 0, 0, 0⟩ } : Pkt).amo = some ⟨.add, 0, 8, 1, 0, false, 29, 0, 0, 0⟩ ∧
    ({ pkt with slotOp := some (req 0 false) } : Pkt).slotOp = some (req 0 false) ∧ ({ run := .running } : Hub).run = .running := by decide
def fill : Pkt := { pkt with typ := 6, fill := some ⟨0, 0x10000, false, 29, 0, 0, 0, 0, 0, 0, 0⟩ }
theorem test_hyp_fill : fill.fill = some ⟨0, 0x10000, false, 29, 0, 0, 0, 0, 0, 0, 0⟩ ∧ (carry fill).accepts fill = true ∧ ((carry fill).die 5).bcache = [] ∧
    ({ fill with res := some ⟨0, 0, 0, 65536, 1, 0, 0, false, false⟩ } : Pkt).res = some ⟨0, 0, 0, 65536, 1, 0, 0, false, false⟩ := by decide
theorem test_hyp_shootdown : ({ xlBusy := true } : Part).xlBusy = true ∧ ((base {}).partHubs 0).length = 0 ∧ ((bound (base {})).partHubs 0).length ≠ 0 ∧
    ({ shoot := some (0, 0, 65536), xlPend := 2 } : Part).shoot = some (0, 0, 65536) ∧ 1 < ({ xlPend := 2 } : Part).xlPend ∧
    ({ xlPend := 1 } : Part).xlPend ≤ 1 ∧ (base { ok := true }).agenda = [] := by decide
theorem test_hyp_shot : let s : State := { base { n := 4, ok := true } with
      net := [(4, { typ := 8, target := 29, n := 7 })], parts := [(0, { shoot := some (0, 0, 65536), xlPend := 1 })] }
    SMap.find 4 s.net = some { typ := 8, target := 29, n := 7 } ∧ (s.part 0).shoot = some (0, 0, 65536) ∧ (∀ e ∈ s.net, e.1 = 4) ∧
    ((s.part 0).xlPend ≤ 1) := by decide

/-- A mailbox request of partition 0 with the given doublewords after the command. -/
def asks (ws : List Nat) (s : State) : State :=
  { s with parts := [(0, { (s.part 0) with mbReq := ((0 :: ws).flatMap (leBytes 8)).zipIdx.map fun x => (x.2, x.1) })] }
theorem test_hyp_qcreate : (asks [7, 0x100, 0x701 + 0, 3] (base {})).mailOk 1 [4096, 2 ^ 64, 2048, 2 ^ 20] = true ∧
    let m := (asks [7, 0x100, 0x701, 3] (base {})).mail 1
    1 ≤ m 3 % 32 ∧ m 3 % 32 ≤ 20 ∧ bits (m 3) 7 5 = 0 ∧ bits (m 3) 10 8 ≤ 7 ∧ m 2 % 256 = 0 ∧ ((base {}).part 0).tdisp = 0 ∧
    ((base {}).qreg 7).1 = false ∧ ({ tdisp := 3 } : Part).tdisp ≠ 0 := by decide
theorem test_hyp_qdestroy : (asks [7] (queue7 true {} 4)).mailOk 1 [4096] = true ∧ (queue7 true {} 4).owns 0 7 = true ∧
    ((queue7 true {} 4).qcb 7).state = 4 ∧ (queue7 true {} 4).heldBy 7 = some 0 ∧
    ({ queue7 true {} 0 with dev := { State.reset.dev with qregs := [(7, (true, 0, true, 0, 0))] } } : State).qreg 7 = (true, 0, true, 0, ((queue7 true {} 0).qcb 7).head) := by decide
theorem test_hyp_qrestart : (asks [7, 1] (queue7 true {} 4)).mailOk 1 [4096, 2] = true ∧ (asks [7, 7] (queue7 true {} 4)).mailOk 1 [4096, 8] = true ∧
    (asks [7, 7] (queue7 true {} 4)).mail 1 2 ≤ 7 ∧ (asks [] (base {})).mailOk 1 [] = true := by decide
theorem test_hyp_psuspend : ({ suspReq := true } : Part).suspReq = true ∧ (∀ n ∈ (queue7 true {} 0).slotsOf 0, ((queue7 true {} 0).slot n).qcb.state ≠ 2) ∧
    (∃ n ∈ (queue7 true {} 2).slotsOf 0, ((queue7 true {} 2).slot n).qcb.state = 2) ∧ (base {}).arg.n ≤ (base {}).cy := by decide
def asksPf (ws : List Nat) : State :=
  { base {} with dev := { State.reset.dev with pfReq := ((0 :: ws).flatMap (leBytes 8)).zipIdx.map fun x => (x.2, x.1) } }
theorem test_hyp_pconfig : (asksPf [15, 7, 16]).mailOk 0 ([16, 8, 17] ++ List.replicate 12 (2 ^ 64)) = true ∧ (asksPf [15, 7, 16]).mail 0 3 ≠ 0 ∧
    (asksPf [15, 15, 2 ^ 47]).mailOk 0 [16, 16, 2 ^ 48] = true ∧ (asksPf [2 ^ 63]).mailOk 0 [2 ^ 64] = true ∧ (asksPf [15]).mailOk 0 [16] = true ∧
    (asksPf []).mailOk 0 [] = true ∧ (({ base {} with parts := [(15, { tdisp := 1 })] } : State).part 15).tdisp ≠ 0 := by decide
theorem test_hyp_sleep : ((List.range 16).any fun p => (base {}).hasLaunch p || ((base {}).part p).scrubbing || ((base {}).part p).rstBusy) = false ∧
    ((List.range 16).any fun p => (queue7 true {} 2).hasLaunch p || ((queue7 true {} 2).part p).scrubbing || ((queue7 true {} 2).part p).rstBusy) = true := by decide
theorem test_hyp_mailbox : (base {}).dev.power = .active ∧ (base {}).dev.gatedAt = none ∧ (base {}).dev.pfBusy = false ∧ (base { fn := 16 }).dev.bootRec = false ∧
    ((base { fn := 16 }).part (16 - 1)).mbBusy = false := by decide

/-- s2 and p0 of a hub as a debug read returns them (R130), and the refusal of a position outside the map. -/
theorem test_debug_read : amo0.engineWord 29 0 2 = ⟨5, false⟩ ∧ amo0.engineWord 29 0 64 = ⟨1, false⟩ ∧
    (asks [47, 9, 0] (base {})).debugRead 0 = [2] := by decide
theorem test_hyp_boot : (base {}).mixOk = true ∧ ({ base {} with dev := { State.reset.dev with mix := [] } } : State).mixOk = false ∧
    (base { ok := false }).arg.ok = false ∧ ({ State.reset.dev with bootStage := 5 } : Dev).bootStage = 5 ∧ (base {}).dev.pfBusy = false ∧
    (∀ p, p < 16 → ((base {}).part p).mbBusy = false) := by decide
theorem test_hyp_token : fieldOf [1, 1, 15] 1 1 = 1 ∧ (16 : Nat) = fieldOf [1, 1, 15] 2 1 + 1 ∧ fieldOf [1, 1, 15] 2 1 < 16 ∧ (base {}).hasLaunch 15 = false ∧
    fieldOf [1, 2, 0] 1 1 = 2 ∧ fieldOf [1, 2, 0] 2 1 = 0 ∧ (base {}).dev.vdbgoff = false ∧ (∀ p, p < 16 → (base {}).hasLaunch p = false) ∧
    (16 : Nat) < (base { fn := 17 }).arg.fn ∧ (({ base {} with parts := [(15, { rstBusy := true })] } : State).part 15).rstBusy = true ∧
    ({ base {} with dev := { State.reset.dev with bootStage := 6 } } : State).fwRuns = true ∧ (base {}).fwRuns = false ∧
    (base { ok := false, off := 8 }).arg.off < imageHeader := by decide
theorem test_hyp_recovery : ({ State.reset.dev with bootRec := true } : Dev).bootRec = true ∧ (asksPf [0x1000, 5]).mail 0 2 < imageHeader := by decide
theorem test_hyp_spdm : (base { fn := 16 }).spdmUp 16 = true ∧ partOfFn 16 = some 15 ∧ ((base {}).part 15).tdisp = 0 ∧
    (List.replicate 32 (0 : Byte)).length = 32 ∧ ({ finished := true } : Spdm).finished = true ∧ fieldOf [0x12, 0x82, 0, 0] 2 1 % 16 = 0 ∧ fieldOf [0x12, 0x82, 1, 0] 2 1 % 16 ≠ 0 ∧ ({ tdisp := 1 } : Part).tdisp = 1 := by decide
theorem test_hyp_window : ((3 : Nat) ≠ 4 ∧ (3 : Nat) ≠ 8) ∧ (0x1F0208 : Nat) = 0x100000 + 0x10000 * 15 + 0x208 ∧ (15 : Nat) < 16 ∧ (0 : Nat) % 8 = 0 ∧
    firmwareFn = 17 ∧ (1#64).toNat % 2 = 1 ∧ (base {}).frozen 15 = false ∧ (base {}).dev.gatedAt = none := by decide
theorem test_hyp_debug : (base {}).debugDie 0 0 = none ∧
    ({ base {} with dev := { State.reset.dev with bootDbg := 2 } } : State).debugDie 0 (7 * 2 ^ 30 + (2 ^ 30 - 1)) = some 12 ∧
    ((base {}).xdie 1).colls = [] := by decide

/-- Port 0 of the X-die at 1, up, with a flit of class 0 waiting. -/
def port0 : LPort := { up := true, queue := [{ seq := 0 }], replay := [({}, 1)] }
theorem test_hyp_port : port0.up = true ∧ ({} : LPort).up = false ∧ port0.replay.length < 512 ∧
    (({ port0 with replay := [], busy := false, times := flitTime 7 } : LPort).nextClass) = some (0, 0) ∧ port0.gone ≤ port0.replay.length ∧
    port0.replay[port0.gone]? = some ({}, 1) ∧ (takeClass 0 port0.queue) = some ({ seq := 0 }, []) ∧
    port0.replay ≠ [] ∧ port0.progress + flitTimeout ≤ 3800 ∧ (∀ y ∈ port0.replay, y.2 < 2) := by decide
def flit1 : Flit := { typ := 1, srank := 5, words := [7] }
theorem test_hyp_flit : ((base {}).xdie 1).isOwn flit1.drank = true ∧ flit1.seq = port0.exp ∧ flit1.nak = false ∧ flitOf flit1.bytes {} = flit1 ∧
    flitGood (1 :: flit1.bytes.drop 1) = false := by decide +kernel
theorem test_hyp_flit_good : flitGood flit1.bytes = true ∧ flitGood ({} : Flit).bytes = true := by decide +kernel
def ring0 : State := { bound (base { pkt := { dpos := 29 } }) with hubs := [(232, { epcfg := BitVec.ofNat 64 (2 ^ 63 + 2 ^ 26 + 16) })] }
theorem test_hyp_ring : ring0.phys 0 29 = some 29 ∧ (0 : Nat) < (ring0.kind 29).hubs ∧ ring0.ring 29 0 = some (flat 232 4096, 768) ∧
    (ring0.readNat (flat 232 4096) 8 + 2 ^ 64 - ring0.readNat (flat 232 4096 + 8) 8) % 2 ^ 64 ≠ (768 - 256) / 256 := by decide
theorem test_hyp_ring_full : let s : State := { ring0 with mem := [(flat 232 4096, 2)] }
    (s.readNat (flat 232 4096) 8 + 2 ^ 64 - s.readNat (flat 232 4096 + 8) 8) % 2 ^ 64 = (768 - 256) / 256 := by decide
/-- Context 0 of the X-die at 1 with an operation of 4 elements. -/
def coll0 (o : Coll) (p : Pkt) : State :=
  { carry p with arg := { n := 4, pos := 1 }, xdies := [(1, { colls := [{ o with ctx := 0 }] })] }
def give (e : Nat) (v : List (Nat × Nat)) : Pkt := { pkt with typ := 0xA, target := 1, addr := 0, con := ⟨e, v⟩ }
theorem test_hyp_contribution : let s := coll0 { ctx := 0, count := 4 } (give 5 [])
    SMap.find 4 s.net = some (give 5 []) ∧ ((s.xdie 1).op 0) = some { ctx := 0, count := 4 } ∧ (4 : Nat) ≠ 0 ∧ (give 5 []).con.count ≠ 4 := by decide
theorem test_hyp_contribution_good : let s := coll0 { ctx := 0, count := 4, mine := [(0, 1)] } (give 4 [(3, 1)])
    ((s.xdie 1).op 0) = some { ctx := 0, count := 4, mine := [(0, 1)] } ∧
    (∀ v ∈ (give 4 [(3, 1)]).con.vals, v.1 < 4 ∧ ∀ z ∈ ([(0, 1)] : List (Nat × Nat)), z.1 ≠ v.1) ∧
    ((s.xdie 1).setOp { ctx := 0, count := 4, mine := [(0, 1)] ++ [(3, 1)] }).used ≤ 8388608 ∧ s.lowerArrival 1 0 = false := by decide
/-- Context 4 of the X-die at 1, whose open operation is number 3, with the operations `l`. -/
def coll3 (l : List Coll) (num : Nat) : State := { base { n := 4, pos := 1, off := num } with xdies := [(1, { colls := l, opNums := [(4, 3)] })] }
theorem test_hyp_collective : ((coll3 [] 3).xdie 1).op 4 = none ∧ (2 : Nat) < ((coll3 [] 2).xdie 1).opNum 4 ∧ ((coll3 [] 3).xdie 1).opNum 4 ≤ 3 ∧
    ((coll3 [] 3).xdie 1).opAt 4 3 = none ∧ ((coll3 [{ ctx := 4, num := 3 }] 4).xdie 1).op 4 = some { ctx := 4, num := 3 } ∧
    ((coll3 [{ ctx := 4, num := 3 }] 3).xdie 1).opAt 4 3 = some { ctx := 4, num := 3 } ∧ ({ ctx := 4, num := 3 } : Coll).num < 4 ∧
    (∀ j, j < 1 → j ∈ ([] : List Nat) ∨ j = 0) ∧ ({ ctx := 0, committed := true } : Coll).committed = true := by decide
theorem test_hyp_power : (base {}).dev.power = .active ∧ (base {}).restful = true ∧ ({ State.reset.dev with power := .trip } : Dev).power = .trip ∧
    ({ State.reset.dev with gatedAt := some 7 } : Dev).gatedAt = some 7 ∧ 7 + 1000 * Config.cyPerUs ≤ 2000000 ∧
    (base {}).good 40 = true ∧ (base {}).kind 40 ≠ .hDie ∧ (base { ok := true }).arg.ok = true ∧ isSram (homeOf 0) = true ∧
    homeFlash ≤ homeOf (flat 700 0) := by decide

end Sys2Proof.Tests
end

section
/-! SUPPORT. Control-core words with at most one timed effect: what they leave, as Safety.lean names it, and the fields of
their encodings. -/

namespace Sys2Proof

/-! ### Fields of packed words (R322) -/

/-- Bits [31:26] of a word of format S. -/
theorem packS_opcode {op d a b f : Nat} (hd : d < 2 ^ 6) (ha : a < 2 ^ 6) (hb : b < 2 ^ 6) (hf : f < 2 ^ 8) :
    packS op d a b f / 2 ^ 26 = op := by
  unfold packS; omega

/-- Bits [31:26] of a word of format I. -/
theorem packI_opcode {op d a i : Nat} (hd : d < 2 ^ 6) (ha : a < 2 ^ 6) (hi : i < 2 ^ 14) : packI op d a i / 2 ^ 26 = op := by
  unfold packI; omega

/-- Bits [25:20] of a word of format X. -/
theorem packX_sub6 {op x k a : Nat} (hx : x < 2 ^ 6) (hk : k < 2 ^ 14) (ha : a < 2 ^ 6) : packX op x k a / 2 ^ 20 % 2 ^ 6 = x := by
  unfold packX; omega

/-- Bits [5:0] of a word of format X. -/
theorem packX_a6 {op x k a : Nat} (ha : a < 2 ^ 6) : packX op x k a % 2 ^ 6 = a := by
  unfold packX; omega

/-! ### The maps of single instructions (R324) -/

theorem encode_sel (d a b : R6) (c : BitVec 3) : encode (.sel d a b c) = [packS 28 d.toNat a.toNat b.toNat c.toNat] := rfl
theorem encode_peekq (d : R6) : encode (.peekq d) = [packI 36 d.toNat 0 0] := rfl
theorem encode_nop : encode .nop = [packX 42 0 0 0] := rfl
theorem encode_cad (d : R6) : encode (.cad d) = [packX 42 7 0 d.toNat] := rfl

end Sys2Proof

namespace Sys2Proof.Machine

/-! ### The end of a word, as a whole state -/

/-- A word without effects that ends leaves `afterPlain`. -/
theorem State.advance_eq_afterPlain (s : State) (d : Nat) : s.advance d = afterPlain s d := rfl

/-- A word that places one effect and ends leaves `afterCore`. -/
theorem State.later_advance (s : State) (l : Nat) (a : Act) (d : Nat) : (s.later l a).advance d = afterCore s l a d := rfl

/-- A word that writes one s register and ends (R7, R342). -/
theorem State.writeS_advance (s : State) (r : R6) (l : Nat) (v : W64) (p : Bool) (d : Nat) :
    (s.writeS r l v p).advance d = afterCore s l (.regS r.toNat v p) d := s.later_advance l _ d

/-! ### The hub behind a word -/

@[simp] theorem Hub.advance_replies (h : Hub) (now d : Nat) : (h.advance now d).replies = h.replies := rfl
@[simp] theorem Hub.advance_wait (h : Hub) (now d : Nat) : (h.advance now d).wait = .none := rfl

@[simp] theorem afterCore_curHub (s : State) (l : Nat) (a : Act) (d : Nat) :
    (afterCore s l a d).curHub = s.curHub.advance (s.die s.cur.die).cad d := SMap.get_put_self _ _ _ _

/-! ### What each word leaves -/

theorem exec_sel_next (s : State) (d a b : R6) (c : BitVec 3) :
    exec (.sel d a b c) s = .next (afterCore s 1
      (.regS d.toNat (if (s.curHub.readP c.toNat).1 then s.readS a else s.readS b).v
        ((s.curHub.readP c.toNat).2 || (if (s.curHub.readP c.toNat).1 then s.readS a else s.readS b).p)) 1) := by
  rw [exec_sel, execSel, State.writeS_advance]

theorem exec_peekq_next (s : State) (d : R6) :
    exec (.peekq d) s =
      .next (afterCore s 1 (.regS d.toNat (BitVec.ofNat 64 s.curHub.replies.length) false) 1) := by
  rw [exec_peekq, execPeekq, State.writeS_advance]

theorem exec_tlread_next (s : State) (d q : R6) :
    exec (.tlread d q) s =
      .next (afterCore s 2 (.regS d.toNat (BitVec.ofNat 64 (s.curHub.timeline q.toNat).count) false) 1) := by
  rw [exec_tlread, execTlread, State.writeS_advance]

theorem exec_tlreadFail_next (s : State) (d q : R6) :
    exec (.tlreadFail d q) s =
      .next (afterCore s 2 (.regS d.toNat (if (s.curHub.timeline q.toNat).fail then 1 else 0) false) 1) := by
  rw [exec_tlreadFail, execTlreadFail, State.writeS_advance]

theorem exec_nop_next (s : State) : exec .nop s = .next (afterPlain s 1) := by
  rw [exec_nop, execNop, State.advance_eq_afterPlain]

/-- The mark of the current scy is CADENCE − LSHIFT of the die at hand, and never below 0 (R263). -/
theorem State.mark_eq (s : State) : s.mark = (((s.die s.cur.die).cad : Int) - (s.die s.cur.die).lshift).toNat := rfl

theorem exec_cad_next (s : State) (d : R6) :
    exec (.cad d) s = .next (afterCore s 1
      (.regS d.toNat (BitVec.ofNat 64 (if s.curHub.launch.timed then s.mark else s.now)) false) 1) := by
  rw [exec_cad, execCad, State.writeS_advance]

/-! ### The statements -/

/-- Settles O14: the selector picks one operand whole, so its value and its poison come from the same side (R356). -/
theorem selectReadsTheSelectedOperand : Obligations.SelectReadsTheSelectedOperand := by
  intro s d a b c
  constructor
  · rw [exec_sel_next]
    cases (s.curHub.readP c.toNat).1 with
    | true => rfl
    | false => rfl
  · rw [encode_sel, List.headD_cons]
    exact packS_opcode d.isLt a.isLt b.isLt (by omega)

/-- Settles O23: the number of reply entries is written, and the hub behind the word keeps them and waits for nothing (R366). -/
theorem peekCountsReplies : Obligations.PeekCountsReplies := by
  intro s d
  refine ⟨exec_peekq_next s d, fun t ht => ?_, ?_⟩
  · rw [exec_peekq_next] at ht
    obtain rfl := Host.Outcome.next.inj ht
    rw [afterCore_curHub]
    exact ⟨Hub.advance_replies .., Hub.advance_wait ..⟩
  · rw [encode_peekq, List.headD_cons]
    exact packI_opcode d.isLt (by omega) (by omega)

/-- Settles O24: both forms write one s register at issue + 2 (R364). -/
theorem timelineReads : Obligations.TimelineReads :=
  fun s d q => ⟨exec_tlread_next s d q, exec_tlreadFail_next s d q⟩

/-- Settles O25: a word without effects ends, and its sub6 is 0 (R382). -/
theorem nopOnlyMovesOn : Obligations.NopOnlyMovesOn := by
  refine ⟨exec_nop_next, ?_⟩
  rw [encode_nop, List.headD_cons]
  exact packX_sub6 (by omega) (by omega) (by omega)

/-- Settles O26: the mark written in a timed launch is CADENCE − LSHIFT, and a6 is the destination (R373). -/
theorem cadReadsTheMark : Obligations.CadReadsTheMark := by
  intro s d
  rw [encode_cad, List.headD_cons]
  refine ⟨?_, packX_sub6 (by omega) (by omega) d.isLt, packX_a6 d.isLt⟩
  rw [exec_cad_next, State.mark_eq, State.now]

end Sys2Proof.Machine
end

section
/-! SUPPORT. The decoder against the encoder: a word that decodes has no bit that the encoding of its instruction lacks
(R332). -/

namespace Sys2Proof

/-! ### A word is packed from its fields (R322, R327, R330, R331) -/

section
variable {w : Nat} (hw : w < 2 ^ 32)
include hw

theorem packS_eq {op d a b f : Nat} (ho : w / 2 ^ 26 % 2 ^ 6 = op) (hd : d = w / 2 ^ 20 % 2 ^ 6) (ha : a = w / 2 ^ 14 % 2 ^ 6)
    (hb : b = w / 2 ^ 8 % 2 ^ 6) (hf : f = w / 2 ^ 0 % 2 ^ 8) : packS op d a b f = w := by
  unfold packS; omega

theorem packI_eq {op d a i : Nat} (ho : w / 2 ^ 26 % 2 ^ 6 = op) (hd : d = w / 2 ^ 20 % 2 ^ 6) (ha : a = w / 2 ^ 14 % 2 ^ 6)
    (hi : i = w / 2 ^ 0 % 2 ^ 14) : packI op d a i = w := by
  unfold packI; omega

/-- The long immediate of LIL and LIH lies over the field a. -/
theorem packI_long_eq {op d i : Nat} (ho : w / 2 ^ 26 % 2 ^ 6 = op) (hd : d = w / 2 ^ 20 % 2 ^ 6)
    (hi : i = w / 2 ^ 0 % 2 ^ 20) : packI op d 0 i = w := by
  unfold packI; omega

theorem packB_eq {op c h a o : Nat} (ho : w / 2 ^ 26 % 2 ^ 6 = op) (hc : c = w / 2 ^ 22 % 2 ^ 4) (hh : h = w / 2 ^ 20 % 2 ^ 2)
    (ha : a = w / 2 ^ 14 % 2 ^ 6) (hi : o = w / 2 ^ 0 % 2 ^ 14) : packB op c h a o = w := by
  unfold packB; omega

theorem packJ_eq {op x : Nat} (ho : w / 2 ^ 26 % 2 ^ 6 = op) (hx : x = w / 2 ^ 0 % 2 ^ 26) : packJ op x = w := by
  unfold packJ; omega

theorem packL_eq {op e g t : Nat} (ho : w / 2 ^ 26 % 2 ^ 6 = op) (he : e = w / 2 ^ 22 % 2 ^ 4) (hg : g = w / 2 ^ 16 % 2 ^ 6)
    (ht : t = w / 2 ^ 0 % 2 ^ 16) : packL op e g t = w := by
  unfold packL; omega

theorem packM_eq {op d a z i : Nat} (ho : w / 2 ^ 26 % 2 ^ 6 = op) (hd : d = w / 2 ^ 20 % 2 ^ 6) (ha : a = w / 2 ^ 14 % 2 ^ 6)
    (hz : z = w / 2 ^ 12 % 2 ^ 2) (hi : i = w / 2 ^ 0 % 2 ^ 12) : packM op d a z i = w := by
  unfold packM; omega

theorem packX_eq {op x k a : Nat} (ho : w / 2 ^ 26 % 2 ^ 6 = op) (hx : w / 2 ^ 20 % 2 ^ 6 = x) (hk : k = w / 2 ^ 6 % 2 ^ 14)
    (ha : a = w / 2 ^ 0 % 2 ^ 6) : packX op x k a = w := by
  unfold packX; omega

theorem packV_eq {op d a b c m f : Nat} (ho : w / 2 ^ 25 % 2 ^ 7 = op) (hd : d = w / 2 ^ 20 % 2 ^ 5) (ha : a = w / 2 ^ 15 % 2 ^ 5)
    (hb : b = w / 2 ^ 10 % 2 ^ 5) (hc : c = w / 2 ^ 5 % 2 ^ 5) (hm : m = w / 2 ^ 2 % 2 ^ 3) (hf : f = w / 2 ^ 0 % 2 ^ 2) :
    packV op d a b c m f = w := by
  unfold packV; omega

theorem packF_eq {op d a b x : Nat} (ho : w / 2 ^ 27 % 2 ^ 5 = op) (hd : d = w / 2 ^ 23 % 2 ^ 4) (ha : a = w / 2 ^ 18 % 2 ^ 5)
    (hb : b = w / 2 ^ 13 % 2 ^ 5) (hx : x = w / 2 ^ 0 % 2 ^ 13) : packF op d a b x = w := by
  unfold packF; omega

end

/-! ### Accepted instructions -/

/-- `i` is a well-formed instruction of the stream, and `ws` are its words. -/
def IsWordOf (st : Stream) (ws : List Nat) (i : Instr) : Prop :=
  i.wf = true ∧ (streamOf i = some st ∨ i = .fnop) ∧ encode i = ws

theorem toNat_field (w lo n : Nat) : (field w lo n).toNat = w / 2 ^ lo % 2 ^ n := BitVec.toNat_ofNat ..

theorem zeroAt_iff (w lo n : Nat) : zeroAt w lo n = true ↔ w / 2 ^ lo % 2 ^ n = 0 := decide_eq_true_iff

theorem accept_eq_ok_iff {z : Bool} {i j : Instr} : accept z i = .ok j ↔ z = true ∧ i.wf = true ∧ i = j := by
  unfold accept
  split
  next hc =>
    obtain ⟨hz, hwf⟩ := Bool.and_eq_true_iff.1 hc
    simp [hz, hwf]
  next hc =>
    simp only [Bool.and_eq_true] at hc
    simp only [reduceCtorEq, false_iff]
    exact fun ⟨hz, hwf, _⟩ => hc ⟨hz, hwf⟩

/-- What an accepted instruction is, where its packed fields are the word again. -/
theorem isWordOf_of_accept {st : Stream} {v w : Nat} {z : Bool} {i j : Instr} (h : accept z i = .ok j)
    (hs : streamOf i = some st) (he : encode i = [v]) (hv : z = true → v = w) : IsWordOf st [w] j := by
  obtain ⟨hz, hwf, rfl⟩ := accept_eq_ok_iff.1 h
  exact ⟨hwf, .inl hs, by rw [he, hv hz]⟩

/-- The same for an instruction with an extension word (R330). -/
theorem isWordOf_of_accept_ext {st : Stream} {u v w x : Nat} {z : Bool} {i j : Instr} (h : accept z i = .ok j)
    (hs : streamOf i = some st) (he : encode i = [u, v]) (hu : z = true → u = w ∧ v = x) : IsWordOf st [w, x] j := by
  obtain ⟨hz, hwf, rfl⟩ := accept_eq_ok_iff.1 h
  exact ⟨hwf, .inl hs, by rw [he, (hu hz).1, (hu hz).2]⟩


/-! ### The maps of the control core -/

section
variable {w : Nat} {i : Instr} (hw : w < 2 ^ 32)
include hw

theorem decodeInt_isWordOf (ho : fieldNat w 26 6 = 1) (h : decodeInt w = .ok i) : IsWordOf .control [w] i := by
  unfold decodeInt at h
  split at h
  case h_27 => cases h
  all_goals
    rename_i hf
    simp only [fieldNat] at hf
    refine isWordOf_of_accept h rfl rfl fun hz => ?_
    simp only [zeroAt_iff] at hz
    refine packS_eq hw ho ?_ (toNat_field ..) (toNat_field ..) hf.symm
    exact (toNat_field ..).trans (by omega)

theorem decodeScalarFp_isWordOf (ho : fieldNat w 26 6 = 16) (h : decodeScalarFp w = .ok i) : IsWordOf .control [w] i := by
  unfold decodeScalarFp at h
  split at h
  case h_13 => cases h
  all_goals
    rename_i hf
    simp only [fieldNat] at hf
    refine isWordOf_of_accept h rfl rfl fun hz => ?_
    simp only [zeroAt_iff, Bool.and_eq_true] at hz
    refine packS_eq hw ho ?_ (toNat_field ..) ?_ ?_ <;> (try simp only [toNat_field]) <;> omega

theorem decodeAmo_isWordOf (ho : fieldNat w 26 6 = 21) (h : decodeAmo w = .ok i) : IsWordOf .control [w] i := by
  unfold decodeAmo at h
  split at h
  case h_11 => cases h
  case h_10 hf =>
    refine isWordOf_of_accept h rfl rfl fun hz => packS_eq hw ho (toNat_field ..) (toNat_field ..) (toNat_field ..) ?_
    simp only [Bool.and_eq_true, zeroAt_iff, decide_eq_true_eq] at hz
    unfold fieldNat at hf hz
    omega
  all_goals
    rename_i hf
    refine isWordOf_of_accept h rfl rfl fun hz => packS_eq hw ho (toNat_field ..) (toNat_field ..) (toNat_field ..) ?_
    rw [zeroAt_iff] at hz
    unfold fieldNat at hf
    rw [toNat_field]
    omega

theorem decodeSystem_isWordOf (ho : fieldNat w 26 6 = 42) (h : decodeSystem w = .ok i) : IsWordOf .control [w] i := by
  unfold decodeSystem at h
  split at h
  case h_14 => cases h
  all_goals
    rename_i hf
    simp only [fieldNat] at hf
    refine isWordOf_of_accept h rfl rfl fun hz => ?_
    simp only [zeroAt_iff, Bool.and_eq_true] at hz
    refine packX_eq hw ho hf ?_ ?_ <;> (try simp only [toNat_field]) <;> omega

theorem decodePointer_isWordOf (ho : fieldNat w 26 6 = 15) (h : decodePointer w = .ok i) : IsWordOf .control [w] i := by
  unfold decodePointer at h
  split at h
  case h_3 => cases h
  all_goals
    rename_i hf
    simp only [fieldNat] at hf
    refine isWordOf_of_accept h rfl rfl fun hz => ?_
    simp only [zeroAt_iff] at hz
    refine packS_eq hw ho (toNat_field ..) (toNat_field ..) ?_ hf.symm <;> (try simp only [toNat_field]) <;> omega

theorem decodeCheck_isWordOf (ho : fieldNat w 26 6 = 24) (h : decodeCheck w = .ok i) : IsWordOf .control [w] i := by
  unfold decodeCheck at h
  split at h
  case h_3 => cases h
  all_goals
    rename_i hf
    simp only [fieldNat] at hf
    refine isWordOf_of_accept h rfl rfl fun hz => ?_
    simp only [zeroAt_iff] at hz
    refine packB_eq hw ho hf.symm (toNat_field ..) ?_ (toNat_field ..) <;> (try simp only [toNat_field]) <;> omega

theorem decodeXlate_isWordOf (ho : fieldNat w 26 6 = 37) (h : decodeXlate w = .ok i) : IsWordOf .control [w] i := by
  unfold decodeXlate at h
  split at h
  case h_3 => cases h
  all_goals
    rename_i hf
    simp only [fieldNat] at hf
    refine isWordOf_of_accept h rfl rfl fun hz => ?_
    simp only [zeroAt_iff, Bool.and_eq_true] at hz
    refine packS_eq hw ho ?_ (toNat_field ..) ?_ hf.symm <;> (try simp only [toNat_field]) <;> omega

theorem decodeSlotTable_isWordOf (ho : fieldNat w 26 6 = 38) (h : decodeSlotTable w = .ok i) : IsWordOf .control [w] i := by
  unfold decodeSlotTable at h
  split at h
  case h_4 => cases h
  all_goals
    rename_i hf
    simp only [fieldNat] at hf
    refine isWordOf_of_accept h rfl rfl fun hz => ?_
    simp only [zeroAt_iff] at hz
    refine packS_eq hw ho (toNat_field ..) (toNat_field ..) ?_ hf.symm <;> (try simp only [toNat_field]) <;> omega

theorem decodeCsr_isWordOf (ho : fieldNat w 26 6 = 41) (h : decodeCsr w = .ok i) : IsWordOf .control [w] i := by
  unfold decodeCsr at h
  split at h
  case h_3 => cases h
  all_goals
    rename_i hf
    simp only [fieldNat] at hf
    exact isWordOf_of_accept h rfl rfl fun _ => packX_eq hw ho hf (toNat_field ..) (toNat_field ..)

theorem decodeControl_isWordOf (h : decodeControl w = .ok i) : IsWordOf .control [w] i := by
  unfold decodeControl at h
  split at h
  case h_1 ho => exact decodeInt_isWordOf hw ho h
  case h_15 ho => exact decodePointer_isWordOf hw ho h
  case h_16 ho => exact decodeScalarFp_isWordOf hw ho h
  case h_21 ho => exact decodeAmo_isWordOf hw ho h
  case h_24 ho => exact decodeCheck_isWordOf hw ho h
  case h_37 ho => exact decodeXlate_isWordOf hw ho h
  case h_38 ho => exact decodeSlotTable_isWordOf hw ho h
  case h_41 ho => exact decodeCsr_isWordOf hw ho h
  case h_42 ho => exact decodeSystem_isWordOf hw ho h
  case h_2 ho | h_3 ho | h_4 ho | h_5 ho | h_9 ho | h_10 ho | h_11 ho | h_14 ho | h_33 ho => exact isWordOf_of_accept h rfl rfl fun _ => packI_eq hw ho (toNat_field ..) (toNat_field ..) (toNat_field ..)
  case h_12 ho | h_13 ho => exact isWordOf_of_accept h rfl rfl fun _ => packI_long_eq hw ho (toNat_field ..) (toNat_field ..)
  case h_17 ho | h_18 ho | h_19 ho | h_20 ho => exact isWordOf_of_accept h rfl rfl fun _ => packM_eq hw ho (toNat_field ..) (toNat_field ..) (toNat_field ..) (toNat_field ..)
  case h_23 ho => exact isWordOf_of_accept h rfl rfl fun _ => packB_eq hw ho (toNat_field ..) (toNat_field ..) (toNat_field ..) (toNat_field ..)
  case h_26 ho | h_27 ho => exact isWordOf_of_accept h rfl rfl fun _ => packJ_eq hw ho (toNat_field ..)
  case h_31 ho => exact isWordOf_of_accept h rfl rfl fun _ => packL_eq hw ho (toNat_field ..) (toNat_field ..) (toNat_field ..)
  case h_6 ho | h_7 ho | h_8 ho | h_36 ho | h_39 ho | h_40 ho =>
    refine isWordOf_of_accept h rfl rfl fun hz => ?_
    simp only [zeroAt_iff, Bool.and_eq_true] at hz
    refine packI_eq hw ho ?_ ?_ ?_ <;> (try simp only [toNat_field]) <;> omega
  case h_22 ho | h_28 ho | h_29 ho | h_30 ho =>
    refine isWordOf_of_accept h rfl rfl fun hz => ?_
    simp only [zeroAt_iff, Bool.and_eq_true] at hz
    refine packS_eq hw ho ?_ ?_ ?_ ?_ <;> (try simp only [toNat_field]) <;> omega
  case h_25 ho =>
    refine isWordOf_of_accept h rfl rfl fun hz => ?_
    simp only [zeroAt_iff, Bool.and_eq_true] at hz
    refine packB_eq hw ho ?_ ?_ ?_ ?_ <;> (try simp only [toNat_field]) <;> omega
  case h_32 ho =>
    refine isWordOf_of_accept h rfl rfl fun hz => ?_
    simp only [zeroAt_iff, Bool.and_eq_true, decide_eq_true_eq] at hz
    exact packI_eq hw ho (toNat_field ..) hz.1.symm hz.2.symm
  case h_34 ho =>
    split at h <;> rename_i hf <;> refine isWordOf_of_accept h rfl rfl fun hz => packI_eq hw ho (toNat_field ..) (toNat_field ..) ?_ <;>
      (rw [zeroAt_iff] at hz; unfold fieldNat at hf; omega)
  case h_35 ho =>
    split at h <;> rename_i hf <;> refine isWordOf_of_accept h rfl rfl fun hz => packI_eq hw ho (toNat_field ..) ?_ ?_ <;>
      (rw [zeroAt_iff] at hz; unfold fieldNat at hf; omega)
  case h_43 ho | h_44 ho =>
    refine isWordOf_of_accept h rfl rfl fun hz => ?_
    simp only [zeroAt_iff, Bool.and_eq_true, decide_eq_true_eq] at hz
    unfold fieldNat at hz
    refine packL_eq hw ho ?_ (toNat_field ..) ?_ <;> (try simp only [toNat_field]) <;> omega
  case h_45 => cases h

/-! ### The vector map -/

theorem decodeVector_isWordOf (h : decodeVector w = .ok i) : IsWordOf .vector [w] i := by
  unfold decodeVector at h
  split at h
  case h_7 ho =>
    exact isWordOf_of_accept h rfl rfl fun _ => packV_eq hw ho (toNat_field ..) (toNat_field ..) (toNat_field ..) (toNat_field ..) (toNat_field ..) (toNat_field ..)
  case h_1 ho | h_2 ho | h_3 ho | h_4 ho =>
    exact isWordOf_of_accept h rfl rfl fun hz => packV_eq hw ho (toNat_field ..) (toNat_field ..) (toNat_field ..) ((zeroAt_iff ..).1 hz).symm (toNat_field ..) (toNat_field ..)
  case h_5 ho | h_6 ho | h_17 ho | h_18 ho | h_19 ho | h_20 ho | h_21 ho | h_22 ho | h_23 ho | h_24 ho | h_25 ho | h_26 ho | h_27 ho | h_28 ho | h_41 ho | h_49 ho | h_50 ho | h_51 ho | h_54 ho =>
    refine isWordOf_of_accept h rfl rfl fun hz => ?_
    simp only [zeroAt_iff, Bool.and_eq_true] at hz
    exact packV_eq hw ho (toNat_field ..) (toNat_field ..) (toNat_field ..) hz.1.symm (toNat_field ..) hz.2.symm
  case h_8 ho | h_9 ho | h_10 ho | h_11 ho | h_12 ho | h_13 ho | h_14 ho =>
    refine isWordOf_of_accept h rfl rfl fun hz => ?_
    rw [zeroAt_iff] at hz
    refine packV_eq hw ho (toNat_field ..) (toNat_field ..) ?_ ?_ (toNat_field ..) (toNat_field ..) <;> omega
  case h_15 ho | h_16 ho | h_42 ho | h_43 ho | h_44 ho | h_45 ho | h_46 ho | h_47 ho | h_48 ho =>
    refine isWordOf_of_accept h rfl rfl fun hz => ?_
    simp only [zeroAt_iff, Bool.and_eq_true] at hz
    refine packV_eq hw ho (toNat_field ..) (toNat_field ..) ?_ ?_ (toNat_field ..) hz.2.symm <;> omega
  case h_29 ho | h_30 ho | h_31 ho | h_32 ho =>
    refine isWordOf_of_accept h rfl rfl fun hz => ?_
    simp only [zeroAt_iff, Bool.and_eq_true] at hz
    refine packV_eq hw ho ?_ (toNat_field ..) (toNat_field ..) ?_ (toNat_field ..) ?_ <;> (try simp only [toNat_field]) <;> omega
  case h_33 ho | h_34 ho | h_35 ho | h_36 ho | h_37 ho | h_38 ho | h_39 ho | h_40 ho | h_55 ho | h_56 ho | h_58 ho =>
    refine isWordOf_of_accept h rfl rfl fun hz => ?_
    simp only [zeroAt_iff, Bool.and_eq_true] at hz
    refine packV_eq hw ho ?_ ?_ ?_ ?_ ?_ ?_ <;> (try simp only [toNat_field]) <;> omega
  case h_52 ho | h_53 ho | h_57 ho | h_59 ho | h_60 ho =>
    refine isWordOf_of_accept h rfl rfl fun hz => ?_
    simp only [zeroAt_iff] at hz
    simp only [toNat_field]
    unfold fieldNat at ho
    omega
  case h_61 => cases h

/-! ### The maps of the step words (R330) -/

theorem decodeTransfer_isWordOf (h : decodeTransfer w = .ok i) : IsWordOf .transfer [w] i := by
  unfold decodeTransfer at h
  split at h
  case h_10 => cases h
  all_goals
    rename_i ho
    refine isWordOf_of_accept h rfl rfl fun hz => packJ_eq hw ho ?_
    rw [zeroAt_iff] at hz
    rw [toNat_field]
    omega

theorem decodeIndex_isWordOf (h : decodeIndex w = .ok i) : IsWordOf .index [w] i := by
  unfold decodeIndex at h
  split at h
  case h_10 => cases h
  all_goals
    rename_i ho
    refine isWordOf_of_accept h rfl rfl fun hz => packJ_eq hw ho ?_
    rw [zeroAt_iff] at hz
    rw [toNat_field]
    omega

theorem decodeMatrix_isWordOf {x : Nat} (hx : x < 2 ^ 32) (h : decodeMatrix w (some x) = .ok i) :
    IsWordOf .matrix [w] i ∨ IsWordOf .matrix [w, x] i := by
  unfold decodeMatrix at h
  simp only [withExt] at h
  split at h
  case h_13 => cases h
  case h_1 ho | h_3 ho | h_8 ho | h_10 ho | h_11 ho | h_12 ho =>
    refine .inl (isWordOf_of_accept h rfl rfl fun hz => packJ_eq hw ho ?_)
    rw [zeroAt_iff] at hz
    (try simp only [toNat_field]) <;> omega
  all_goals
    rename_i ho
    refine .inr (isWordOf_of_accept_ext h rfl rfl fun hz => ?_)
    simp only [zeroAt_iff, Bool.and_eq_true] at hz
    refine ⟨packJ_eq hw ho ?_, ?_⟩ <;> (try simp only [toNat_field]) <;> omega

theorem decodeDrafting_isWordOf {x : Nat} (hx : x < 2 ^ 32) (h : decodeDrafting w (some x) = .ok i) :
    IsWordOf .drafting [w, x] i := by
  unfold decodeDrafting at h
  simp only [withExt] at h
  split at h
  case h_9 => cases h
  all_goals
    rename_i ho
    refine isWordOf_of_accept_ext h rfl rfl fun hz => ?_
    simp only [zeroAt_iff, Bool.and_eq_true] at hz
    refine ⟨packJ_eq hw ho ?_, ?_⟩ <;> (try simp only [toNat_field]) <;> omega

/-! ### The slots of a fabric bundle (R331) -/

/-- FNOP, the word 0, stands in every slot. -/
theorem fnop_isWordOf {st : Stream} (ho : fieldNat w 27 5 = 0) (h : accept (zeroAt w 0 27) .fnop = .ok i) : IsWordOf st [w] i := by
  obtain ⟨hz, hwf, rfl⟩ := accept_eq_ok_iff.1 h
  rw [zeroAt_iff] at hz
  unfold fieldNat at ho
  obtain rfl : w = 0 := by omega
  exact ⟨hwf, .inr rfl, rfl⟩

theorem decodeSlotA_isWordOf (h : decodeSlotA w = .ok i) : IsWordOf .slotA [w] i := by
  unfold decodeSlotA at h
  split at h
  case h_1 ho => exact fnop_isWordOf hw ho h
  case h_9 => cases h
  all_goals
    rename_i ho
    refine isWordOf_of_accept h rfl rfl fun hz => ?_
    simp only [zeroAt_iff, Bool.and_eq_true] at hz
    refine packF_eq hw ho ?_ ?_ ?_ ?_ <;> (try simp only [toNat_field]) <;> omega

theorem decodeSlotB_isWordOf (h : decodeSlotB w = .ok i) : IsWordOf .slotB [w] i := by
  unfold decodeSlotB at h
  split at h
  case h_1 ho => exact fnop_isWordOf hw ho h
  case h_7 => cases h
  all_goals
    rename_i ho
    refine isWordOf_of_accept h rfl rfl fun hz => ?_
    simp only [zeroAt_iff, Bool.and_eq_true] at hz
    simp only [packF, toNat_field]
    unfold fieldNat at ho
    omega

theorem decodeSlotC_isWordOf (h : decodeSlotC w = .ok i) : IsWordOf .slotC [w] i := by
  unfold decodeSlotC at h
  split at h
  case h_1 ho => exact fnop_isWordOf hw ho h
  case h_5 => cases h
  all_goals
    rename_i ho
    refine isWordOf_of_accept h rfl rfl fun hz => ?_
    simp only [zeroAt_iff] at hz
    simp only [packF, toNat_field]
    unfold fieldNat at ho
    omega

end

/-- What a word of 32 bits and the word after it decode to has the first, or both, as its words. -/
theorem decode_isWordOf {st : Stream} {w x : Nat} {i : Instr} (hw : w < 2 ^ 32) (hx : x < 2 ^ 32)
    (h : decode st w (some x) = .ok i) : IsWordOf st [w] i ∨ IsWordOf st [w, x] i := by
  cases st with
  | control => exact .inl (decodeControl_isWordOf hw h)
  | vector => exact .inl (decodeVector_isWordOf hw h)
  | matrix => exact decodeMatrix_isWordOf hw hx h
  | transfer => exact .inl (decodeTransfer_isWordOf hw h)
  | index => exact .inl (decodeIndex_isWordOf hw h)
  | drafting => exact .inr (decodeDrafting_isWordOf hw hx h)
  | slotA => exact .inl (decodeSlotA_isWordOf hw h)
  | slotB => exact .inl (decodeSlotB_isWordOf hw h)
  | slotC => exact .inl (decodeSlotC_isWordOf hw h)

/-- Settles O3: along each map, the fields read from the word and the bits it requires to be 0 make up the whole word. -/
theorem decodedWordIsItsEncoding : Obligations.DecodedWordIsItsEncoding := by
  intro st w x i hw hx h
  rcases decode_isWordOf hw hx h with ⟨hwf, hs, he⟩ | ⟨hwf, hs, he⟩
  · exact ⟨hwf, hs, .inl he⟩
  · exact ⟨hwf, hs, .inr he⟩

end Sys2Proof
end

section
/-! SUPPORT. The encoder against the decoder: every field of an instruction is read back from its words (R322 to R331). -/

namespace Sys2Proof

/-! ### Opcodes and function numbers of packed words -/

section
variable {w : Nat}

theorem fieldNat_packS_op {op d a b f : Nat} (h : w = packS op d a b f) (ho : op < 2 ^ 6) (hd : d < 2 ^ 6) (ha : a < 2 ^ 6)
    (hb : b < 2 ^ 6) (hf : f < 2 ^ 8) : fieldNat w 26 6 = op := by
  rw [h]; unfold fieldNat packS; omega

theorem fieldNat_packS_fn {op d a b f : Nat} (h : w = packS op d a b f) (hf : f < 2 ^ 8) : fieldNat w 0 8 = f := by
  rw [h]; unfold fieldNat packS; omega

theorem fieldNat_packI_op {op d a i : Nat} (h : w = packI op d a i) (ho : op < 2 ^ 6) (hd : d < 2 ^ 6)
    (hi : a * 2 ^ 14 + i < 2 ^ 20) : fieldNat w 26 6 = op := by
  rw [h]; unfold fieldNat packI; omega

theorem fieldNat_packB_op {op c k a o : Nat} (h : w = packB op c k a o) (ho : op < 2 ^ 6) (hc : c < 2 ^ 4) (hk : k < 2 ^ 2)
    (ha : a < 2 ^ 6) (hi : o < 2 ^ 14) : fieldNat w 26 6 = op := by
  rw [h]; unfold fieldNat packB; omega

theorem fieldNat_packL_op {op e g t : Nat} (h : w = packL op e g t) (ho : op < 2 ^ 6) (he : e < 2 ^ 4) (hg : g < 2 ^ 6)
    (ht : t < 2 ^ 16) : fieldNat w 26 6 = op := by
  rw [h]; unfold fieldNat packL; omega

theorem fieldNat_packJ_op {op x : Nat} (h : w = packJ op x) (ho : op < 2 ^ 6) (hx : x < 2 ^ 26) : fieldNat w 26 6 = op := by
  rw [h]; unfold fieldNat packJ; omega

theorem fieldNat_packM_op {op d a z i : Nat} (h : w = packM op d a z i) (ho : op < 2 ^ 6) (hd : d < 2 ^ 6) (ha : a < 2 ^ 6)
    (hz : z < 2 ^ 2) (hi : i < 2 ^ 12) : fieldNat w 26 6 = op := by
  rw [h]; unfold fieldNat packM; omega

theorem fieldNat_packX_op {op x k a : Nat} (h : w = packX op x k a) (ho : op < 2 ^ 6) (hx : x < 2 ^ 6) (hk : k < 2 ^ 14)
    (ha : a < 2 ^ 6) : fieldNat w 26 6 = op := by
  rw [h]; unfold fieldNat packX; omega

theorem fieldNat_packX_sub {op x k a : Nat} (h : w = packX op x k a) (hx : x < 2 ^ 6) (hk : k < 2 ^ 14) (ha : a < 2 ^ 6) :
    fieldNat w 20 6 = x := by
  rw [h]; unfold fieldNat packX; omega

theorem fieldNat_packV_op {op d a b c m f : Nat} (h : w = packV op d a b c m f) (ho : op < 2 ^ 7) (hd : d < 2 ^ 5) (ha : a < 2 ^ 5)
    (hb : b < 2 ^ 5) (hc : c < 2 ^ 5) (hm : m < 2 ^ 3) (hf : f < 2 ^ 2) : fieldNat w 25 7 = op := by
  rw [h]; unfold fieldNat packV; omega

theorem fieldNat_packF_op {op d a b x : Nat} (h : w = packF op d a b x) (ho : op < 2 ^ 5) (hd : d < 2 ^ 4) (ha : a < 2 ^ 5)
    (hb : b < 2 ^ 5) (hx : x < 2 ^ 13) : fieldNat w 27 5 = op := by
  rw [h]; unfold fieldNat packF; omega

end

/-! ### Accepted forms -/

/-- A field is the number that its bits give. -/
theorem field_eq {w lo n : Nat} {x : BitVec n} (h : w / 2 ^ lo % 2 ^ n = x.toNat) : field w lo n = x :=
  BitVec.eq_of_toNat_eq ((toNat_field w lo n).trans h)

theorem accept_self {z : Bool} {i j : Instr} (hz : z = true) (hij : i = j) (hw : j.wf = true) : accept z i = .ok j :=
  accept_eq_ok_iff.2 ⟨hz, hij ▸ hw, hij⟩

/-- Two registers of the control core and an immediate. -/
theorem accept_packI {F : R6 → R6 → BitVec 14 → Instr} {d a : R6} {i : BitVec 14} {w op : Nat}
    (h : w = packI op d.toNat a.toNat i.toNat) (hw : (F d a i).wf = true) :
    accept true (F (field w 20 6) (field w 14 6) (field w 0 14)) = .ok (F d a i) := by
  have hd : field w 20 6 = d := field_eq (by rw [h]; unfold packI; omega)
  have ha : field w 14 6 = a := field_eq (by rw [h]; unfold packI; omega)
  have hi : field w 0 14 = i := field_eq (by rw [h]; unfold packI; omega)
  rw [hd, ha, hi, accept_self rfl rfl hw]

/-- A register, an address register, a size and an offset. -/
theorem accept_packM {F : R6 → R6 → BitVec 2 → BitVec 12 → Instr} {d a : R6} {z : BitVec 2} {i : BitVec 12} {w op : Nat}
    (h : w = packM op d.toNat a.toNat z.toNat i.toNat) (hw : (F d a z i).wf = true) :
    accept true (F (field w 20 6) (field w 14 6) (field w 12 2) (field w 0 12)) = .ok (F d a z i) := by
  have hd : field w 20 6 = d := field_eq (by rw [h]; unfold packM; omega)
  have ha : field w 14 6 = a := field_eq (by rw [h]; unfold packM; omega)
  have hz : field w 12 2 = z := field_eq (by rw [h]; unfold packM; omega)
  have hi : field w 0 12 = i := field_eq (by rw [h]; unfold packM; omega)
  rw [hd, ha, hz, hi, accept_self rfl rfl hw]

/-- Three registers of the control core and a function number. -/
theorem accept_packS {F : R6 → R6 → R6 → Instr} {d a b : R6} {w op f : Nat} {z : Bool}
    (h : w = packS op d.toNat a.toNat b.toNat f) (hf : f < 2 ^ 8) (hz : z = true) (hw : (F d a b).wf = true) :
    accept z (F (field w 20 6) (field w 14 6) (field w 8 6)) = .ok (F d a b) := by
  have hd : field w 20 6 = d := field_eq (by rw [h]; unfold packS; omega)
  have ha : field w 14 6 = a := field_eq (by rw [h]; unfold packS; omega)
  have hb : field w 8 6 = b := field_eq (by rw [h]; unfold packS; omega)
  rw [hd, ha, hb, accept_self hz rfl hw]

/-- Three vector registers and a mask (R327). -/
theorem accept_packV {F : BitVec 5 → BitVec 5 → BitVec 5 → BitVec 3 → Instr} {d a b : BitVec 5} {m : BitVec 3} {w op : Nat}
    (h : w = packV op d.toNat a.toNat b.toNat 0 m.toNat 0) (hw : (F d a b m).wf = true) :
    accept (zeroAt w 5 5 && zeroAt w 0 2) (F (field w 20 5) (field w 15 5) (field w 10 5) (field w 2 3)) = .ok (F d a b m) := by
  have hd : field w 20 5 = d := field_eq (by rw [h]; unfold packV; omega)
  have ha : field w 15 5 = a := field_eq (by rw [h]; unfold packV; omega)
  have hb : field w 10 5 = b := field_eq (by rw [h]; unfold packV; omega)
  have hm : field w 2 3 = m := field_eq (by rw [h]; unfold packV; omega)
  have hz : (zeroAt w 5 5 && zeroAt w 0 2) = true := by
    simp only [Bool.and_eq_true, zeroAt_iff, h]; unfold packV; omega
  rw [hd, ha, hb, hm, accept_self hz rfl hw]

/-- Three vector registers, a mask and a rounding field. -/
theorem accept_packV_rounded {F : BitVec 5 → BitVec 5 → BitVec 5 → BitVec 3 → BitVec 2 → Instr} {d a b : BitVec 5} {m : BitVec 3} {r : BitVec 2} {w op : Nat}
    (h : w = packV op d.toNat a.toNat b.toNat 0 m.toNat r.toNat) (hw : (F d a b m r).wf = true) :
    accept (zeroAt w 5 5) (F (field w 20 5) (field w 15 5) (field w 10 5) (field w 2 3) (field w 0 2)) = .ok (F d a b m r) := by
  have hd : field w 20 5 = d := field_eq (by rw [h]; unfold packV; omega)
  have ha : field w 15 5 = a := field_eq (by rw [h]; unfold packV; omega)
  have hb : field w 10 5 = b := field_eq (by rw [h]; unfold packV; omega)
  have hm : field w 2 3 = m := field_eq (by rw [h]; unfold packV; omega)
  have hr : field w 0 2 = r := field_eq (by rw [h]; unfold packV; omega)
  have hz : zeroAt w 5 5 = true := (zeroAt_iff ..).2 (by rw [h]; unfold packV; omega)
  rw [hd, ha, hb, hm, hr, accept_self hz rfl hw]

/-- Two vector registers and a mask. -/
theorem accept_packV_unary {F : BitVec 5 → BitVec 5 → BitVec 3 → Instr} {d a : BitVec 5} {m : BitVec 3} {w op : Nat}
    (h : w = packV op d.toNat a.toNat 0 0 m.toNat 0) (hw : (F d a m).wf = true) :
    accept (zeroAt w 5 10 && zeroAt w 0 2) (F (field w 20 5) (field w 15 5) (field w 2 3)) = .ok (F d a m) := by
  have hd : field w 20 5 = d := field_eq (by rw [h]; unfold packV; omega)
  have ha : field w 15 5 = a := field_eq (by rw [h]; unfold packV; omega)
  have hm : field w 2 3 = m := field_eq (by rw [h]; unfold packV; omega)
  have hz : (zeroAt w 5 10 && zeroAt w 0 2) = true := by
    simp only [Bool.and_eq_true, zeroAt_iff, h]; unfold packV; omega
  rw [hd, ha, hm, accept_self hz rfl hw]

/-- Two vector registers, a mask and a rounding field. -/
theorem accept_packV_unary_rounded {F : BitVec 5 → BitVec 5 → BitVec 3 → BitVec 2 → Instr} {d a : BitVec 5} {m : BitVec 3} {r : BitVec 2} {w op : Nat}
    (h : w = packV op d.toNat a.toNat 0 0 m.toNat r.toNat) (hw : (F d a m r).wf = true) :
    accept (zeroAt w 5 10) (F (field w 20 5) (field w 15 5) (field w 2 3) (field w 0 2)) = .ok (F d a m r) := by
  have hd : field w 20 5 = d := field_eq (by rw [h]; unfold packV; omega)
  have ha : field w 15 5 = a := field_eq (by rw [h]; unfold packV; omega)
  have hm : field w 2 3 = m := field_eq (by rw [h]; unfold packV; omega)
  have hr : field w 0 2 = r := field_eq (by rw [h]; unfold packV; omega)
  have hz : zeroAt w 5 10 = true := (zeroAt_iff ..).2 (by rw [h]; unfold packV; omega)
  rw [hd, ha, hm, hr, accept_self hz rfl hw]

/-- A step word with one operand of `n` bits (R330). -/
theorem accept_packJ {n m : Nat} {F : BitVec n → Instr} {e : BitVec n} {w op : Nat} (hn : n + m = 26) (h : w = packJ op e.toNat)
    (hw : (F e).wf = true) : accept (zeroAt w n m) (F (field w 0 n)) = .ok (F e) := by
  have he := e.isLt
  have h26 : w = 2 ^ n * (op * 2 ^ m) + e.toNat := by rw [h, packJ, ← hn, pow_add, mul_left_comm]
  have hf : field w 0 n = e := field_eq (by rw [pow_zero, Nat.div_one, h26, Nat.mul_add_mod, Nat.mod_eq_of_lt he])
  have hz : zeroAt w n m = true := (zeroAt_iff ..).2 (by
    rw [h26, Nat.mul_add_div (Nat.two_pow_pos n), Nat.div_eq_of_lt he, add_zero, Nat.mul_mod_left])
  rw [hf, accept_self hz rfl hw]

/-- A map answers an instruction on its first word, where it does so on every number that equals that word. -/
theorem decode_of_encode {D : Nat → Except Reject Instr} {i : Instr} {v : Nat} {r : List Nat} (he : encode i = v :: r)
    (h : ∀ w, w = v → D w = .ok i) : D ((encode i).headD 0) = .ok i := by
  rw [he]; exact h v rfl

/-- The same for a word and its extension word (R330). -/
theorem decode_of_encode_ext {D : Nat → Option Nat → Except Reject Instr} {i : Instr} {v y : Nat} (he : encode i = [v, y])
    (h : ∀ w x, w = v → x = y → D w (some x) = .ok i) : D ((encode i).headD 0) (encode i)[1]? = .ok i := by
  rw [he]; exact h v y rfl rfl

/-! ### The maps -/

section
variable {w : Nat}

theorem decodeControl_of_int (h : fieldNat w 26 6 = 1) : decodeControl w = decodeInt w := by
  unfold decodeControl; rw [h]; rfl

theorem decodeControl_of_pointer (h : fieldNat w 26 6 = 15) : decodeControl w = decodePointer w := by
  unfold decodeControl; rw [h]; rfl

theorem decodeControl_of_scalarFp (h : fieldNat w 26 6 = 16) : decodeControl w = decodeScalarFp w := by
  unfold decodeControl; rw [h]; rfl

theorem decodeControl_of_amo (h : fieldNat w 26 6 = 21) : decodeControl w = decodeAmo w := by
  unfold decodeControl; rw [h]; rfl

theorem decodeControl_of_check (h : fieldNat w 26 6 = 24) : decodeControl w = decodeCheck w := by
  unfold decodeControl; rw [h]; rfl

theorem decodeControl_of_xlate (h : fieldNat w 26 6 = 37) : decodeControl w = decodeXlate w := by
  unfold decodeControl; rw [h]; rfl

theorem decodeControl_of_slotTable (h : fieldNat w 26 6 = 38) : decodeControl w = decodeSlotTable w := by
  unfold decodeControl; rw [h]; rfl

theorem decodeControl_of_csr (h : fieldNat w 26 6 = 41) : decodeControl w = decodeCsr w := by
  unfold decodeControl; rw [h]; rfl

theorem decodeControl_of_system (h : fieldNat w 26 6 = 42) : decodeControl w = decodeSystem w := by
  unfold decodeControl; rw [h]; rfl

end

/-! ### Control core -/

/-- The atomics with a size (R351): function number and size stand side by side. -/
theorem decode_amo {F : R6 → R6 → R6 → BitVec 2 → Instr} {d a b : R6} {z : BitVec 2} {k : Nat} (hk : k < 2 ^ 4)
    (he : encode (F d a b z) = [packS 21 d.toNat a.toNat b.toNat (16 * k + 4 * z.toNat)])
    (hD : ∀ w, fieldNat w 4 4 = k →
      decodeAmo w = accept (zeroAt w 0 2) (F (field w 20 6) (field w 14 6) (field w 8 6) (field w 2 2)))
    (hw : (F d a b z).wf = true) : decodeControl ((encode (F d a b z)).headD 0) = .ok (F d a b z) := by
  refine decode_of_encode he fun w h => ?_
  have hd : field w 20 6 = d := field_eq (by rw [h]; unfold packS; omega)
  have ha : field w 14 6 = a := field_eq (by rw [h]; unfold packS; omega)
  have hb : field w 8 6 = b := field_eq (by rw [h]; unfold packS; omega)
  have hz : field w 2 2 = z := field_eq (by rw [h]; unfold packS; omega)
  rw [decodeControl_of_amo (fieldNat_packS_op h _ _ _ _ _), hD w, hd, ha, hb, hz]
  · exact accept_self ((zeroAt_iff ..).2 (by rw [h]; unfold packS; omega)) rfl hw
  · rw [h]; unfold fieldNat packS; omega
  all_goals omega

/-- Scalar FP with two sources and a rounding field (R347). -/
theorem decode_sf {F : R6 → R6 → R6 → BitVec 2 → Instr} {d a b : R6} {r : BitVec 2} {k : Nat} (hk : k < 2 ^ 5)
    (he : encode (F d a b r) = [packS 16 d.toNat a.toNat b.toNat (8 * k + 2 * r.toNat)])
    (hD : ∀ w, fieldNat w 3 5 = k →
      decodeScalarFp w = accept (zeroAt w 0 1) (F (field w 20 6) (field w 14 6) (field w 8 6) (field w 1 2)))
    (hw : (F d a b r).wf = true) : decodeControl ((encode (F d a b r)).headD 0) = .ok (F d a b r) := by
  refine decode_of_encode he fun w h => ?_
  have hd : field w 20 6 = d := field_eq (by rw [h]; unfold packS; omega)
  have ha : field w 14 6 = a := field_eq (by rw [h]; unfold packS; omega)
  have hb : field w 8 6 = b := field_eq (by rw [h]; unfold packS; omega)
  have hr : field w 1 2 = r := field_eq (by rw [h]; unfold packS; omega)
  rw [decodeControl_of_scalarFp (fieldNat_packS_op h _ _ _ _ _), hD w, hd, ha, hb, hr]
  · exact accept_self ((zeroAt_iff ..).2 (by rw [h]; unfold packS; omega)) rfl hw
  · rw [h]; unfold fieldNat packS; omega
  all_goals omega

/-- Scalar FP with one source and a rounding field (R347). -/
theorem decode_sf_unary {F : R6 → R6 → BitVec 2 → Instr} {d a : R6} {r : BitVec 2} {k : Nat} (hk : k < 2 ^ 5)
    (he : encode (F d a r) = [packS 16 d.toNat a.toNat 0 (8 * k + 2 * r.toNat)])
    (hD : ∀ w, fieldNat w 3 5 = k →
      decodeScalarFp w = accept (zeroAt w 0 1 && zeroAt w 8 6) (F (field w 20 6) (field w 14 6) (field w 1 2)))
    (hw : (F d a r).wf = true) : decodeControl ((encode (F d a r)).headD 0) = .ok (F d a r) := by
  refine decode_of_encode he fun w h => ?_
  have hd : field w 20 6 = d := field_eq (by rw [h]; unfold packS; omega)
  have ha : field w 14 6 = a := field_eq (by rw [h]; unfold packS; omega)
  have hr : field w 1 2 = r := field_eq (by rw [h]; unfold packS; omega)
  rw [decodeControl_of_scalarFp (fieldNat_packS_op h _ _ _ _ _), hD w, hd, ha, hr]
  · exact accept_self (by simp only [Bool.and_eq_true, zeroAt_iff, h]; unfold packS; omega) rfl hw
  · rw [h]; unfold fieldNat packS; omega
  all_goals omega

/-- The words of the control core (R322 to R326). -/
theorem decodeControl_encode (i : Instr) (hw : i.wf = true) (hs : streamOf i = some .control) :
    decodeControl ((encode i).headD 0) = .ok i := by
  cases i with
  | add d a b | sub d a b | and d a b | or d a b | xor d a b | shl d a b | shr d a b | shra d a b | rol d a b | ror d a b
    | min d a b | max d a b | minu d a b | maxu d a b | slt d a b | sltu d a b | mul d a b | mulh d a b | mulhu d a b
    | div d a b | divu d a b | rem d a b | remu d a b =>
    refine decode_of_encode (v := packS _ _ _ _ _) rfl fun w h => ?_
    rw [decodeControl_of_int (fieldNat_packS_op h _ _ _ _ _)]
    · unfold decodeInt
      rw [fieldNat_packS_fn h (by decide)]
      exact accept_packS h (by decide) rfl hw
    all_goals omega
  | cmpeq d a b | cmplt d a b | cmpltu d a b =>
    refine decode_of_encode (v := packS _ _ _ _ _) rfl fun w h => ?_
    rw [decodeControl_of_int (fieldNat_packS_op h _ _ _ _ _)]
    · unfold decodeInt
      rw [fieldNat_packS_fn h (by decide)]
      refine accept_self ((zeroAt_iff ..).2 (by rw [h]; unfold packS; omega)) ?_ hw
      congr 1 <;> refine field_eq ?_ <;> rw [h] <;> unfold packS <;> omega
    all_goals omega
  | addi d a i | andi d a i | ori d a i | xori d a i | slti d a i | sltui d a i | muli d a i | lea d a i | tlwait d q i =>
    refine decode_of_encode (v := packI _ _ _ _) rfl fun w h => ?_
    unfold decodeControl
    rw [fieldNat_packI_op h]
    · exact accept_packI h hw
    all_goals omega
  | ld d a z i | st d a z i | ldx d a z i | stx d a z i =>
    refine decode_of_encode (v := packM _ _ _ _ _) rfl fun w h => ?_
    unfold decodeControl
    rw [fieldNat_packM_op h]
    · exact accept_packM h hw
    all_goals omega
  | sfadd d a b r => exact decode_sf (k := 0) (by decide) rfl (fun w hk => by unfold decodeScalarFp; rw [hk]; rfl) hw
  | sfsub d a b r => exact decode_sf (k := 1) (by decide) rfl (fun w hk => by unfold decodeScalarFp; rw [hk]; rfl) hw
  | sfmul d a b r => exact decode_sf (k := 2) (by decide) rfl (fun w hk => by unfold decodeScalarFp; rw [hk]; rfl) hw
  | sfdiv d a b r => exact decode_sf (k := 3) (by decide) rfl (fun w hk => by unfold decodeScalarFp; rw [hk]; rfl) hw
  | sfsqrt d a r => exact decode_sf_unary (k := 4) (by decide) rfl (fun w hk => by unfold decodeScalarFp; rw [hk]; rfl) hw
  | sfcvts d a r => exact decode_sf_unary (k := 10) (by decide) rfl (fun w hk => by unfold decodeScalarFp; rw [hk]; rfl) hw
  | sfcvtf d a r => exact decode_sf_unary (k := 11) (by decide) rfl (fun w hk => by unfold decodeScalarFp; rw [hk]; rfl) hw
  | amoAdd d a b z => exact decode_amo (k := 0) (by decide) rfl (fun w hk => by unfold decodeAmo; rw [hk]; rfl) hw
  | amoAnd d a b z => exact decode_amo (k := 1) (by decide) rfl (fun w hk => by unfold decodeAmo; rw [hk]; rfl) hw
  | amoOr d a b z => exact decode_amo (k := 2) (by decide) rfl (fun w hk => by unfold decodeAmo; rw [hk]; rfl) hw
  | amoXor d a b z => exact decode_amo (k := 3) (by decide) rfl (fun w hk => by unfold decodeAmo; rw [hk]; rfl) hw
  | amoMin d a b z => exact decode_amo (k := 4) (by decide) rfl (fun w hk => by unfold decodeAmo; rw [hk]; rfl) hw
  | amoMax d a b z => exact decode_amo (k := 5) (by decide) rfl (fun w hk => by unfold decodeAmo; rw [hk]; rfl) hw
  | amoMinu d a b z => exact decode_amo (k := 6) (by decide) rfl (fun w hk => by unfold decodeAmo; rw [hk]; rfl) hw
  | amoMaxu d a b z => exact decode_amo (k := 7) (by decide) rfl (fun w hk => by unfold decodeAmo; rw [hk]; rfl) hw
  | amoXchg d a b z => exact decode_amo (k := 8) (by decide) rfl (fun w hk => by unfold decodeAmo; rw [hk]; rfl) hw
  | sfmin d a b =>
    refine decode_of_encode (v := packS _ _ _ _ _) rfl fun w h => ?_
    have hf : fieldNat w 3 5 = 5 := by rw [h]; unfold fieldNat packS; omega
    rw [decodeControl_of_scalarFp (fieldNat_packS_op h _ _ _ _ _)]
    · unfold decodeScalarFp
      rw [hf]
      refine accept_self ((zeroAt_iff ..).2 (by rw [h]; unfold packS; omega)) ?_ hw
      congr 1 <;> refine field_eq ?_ <;> rw [h] <;> unfold packS <;> omega
    all_goals omega
  | sfmax d a b =>
    refine decode_of_encode (v := packS _ _ _ _ _) rfl fun w h => ?_
    have hf : fieldNat w 3 5 = 6 := by rw [h]; unfold fieldNat packS; omega
    rw [decodeControl_of_scalarFp (fieldNat_packS_op h _ _ _ _ _)]
    · unfold decodeScalarFp
      rw [hf]
      refine accept_self ((zeroAt_iff ..).2 (by rw [h]; unfold packS; omega)) ?_ hw
      congr 1 <;> refine field_eq ?_ <;> rw [h] <;> unfold packS <;> omega
    all_goals omega
  | sfeq d a b =>
    refine decode_of_encode (v := packS _ _ _ _ _) rfl fun w h => ?_
    have hf : fieldNat w 3 5 = 7 := by rw [h]; unfold fieldNat packS; omega
    rw [decodeControl_of_scalarFp (fieldNat_packS_op h _ _ _ _ _)]
    · unfold decodeScalarFp
      rw [hf]
      refine accept_self (by simp only [Bool.and_eq_true, zeroAt_iff, h]; unfold packS; omega) ?_ hw
      congr 1 <;> refine field_eq ?_ <;> rw [h] <;> unfold packS <;> omega
    all_goals omega
  | sflt d a b =>
    refine decode_of_encode (v := packS _ _ _ _ _) rfl fun w h => ?_
    have hf : fieldNat w 3 5 = 8 := by rw [h]; unfold fieldNat packS; omega
    rw [decodeControl_of_scalarFp (fieldNat_packS_op h _ _ _ _ _)]
    · unfold decodeScalarFp
      rw [hf]
      refine accept_self (by simp only [Bool.and_eq_true, zeroAt_iff, h]; unfold packS; omega) ?_ hw
      congr 1 <;> refine field_eq ?_ <;> rw [h] <;> unfold packS <;> omega
    all_goals omega
  | sfle d a b =>
    refine decode_of_encode (v := packS _ _ _ _ _) rfl fun w h => ?_
    have hf : fieldNat w 3 5 = 9 := by rw [h]; unfold fieldNat packS; omega
    rw [decodeControl_of_scalarFp (fieldNat_packS_op h _ _ _ _ _)]
    · unfold decodeScalarFp
      rw [hf]
      refine accept_self (by simp only [Bool.and_eq_true, zeroAt_iff, h]; unfold packS; omega) ?_ hw
      congr 1 <;> refine field_eq ?_ <;> rw [h] <;> unfold packS <;> omega
    all_goals omega
  | amoFadd d a b =>
    refine decode_of_encode (v := packS _ _ _ _ _) rfl fun w h => ?_
    have hf : fieldNat w 4 4 = 9 := by rw [h]; unfold fieldNat packS; omega
    rw [decodeControl_of_amo (fieldNat_packS_op h _ _ _ _ _)]
    · unfold decodeAmo
      rw [hf]
      refine accept_self (by simp only [Bool.and_eq_true, zeroAt_iff, decide_eq_true_eq, h]; unfold fieldNat packS; omega) ?_ hw
      congr 1 <;> refine field_eq ?_ <;> rw [h] <;> unfold packS <;> omega
    all_goals omega
  | ptag d a b =>
    refine decode_of_encode (v := packS _ _ _ _ _) rfl fun w h => ?_
    rw [decodeControl_of_pointer (fieldNat_packS_op h _ _ _ _ _)]
    · unfold decodePointer
      rw [fieldNat_packS_fn h (by decide)]
      exact accept_packS h (by decide) rfl hw
    all_goals omega
  | pspace d a =>
    refine decode_of_encode (v := packS _ _ _ _ _) rfl fun w h => ?_
    rw [decodeControl_of_pointer (fieldNat_packS_op h _ _ _ _ _)]
    · unfold decodePointer
      rw [fieldNat_packS_fn h (by decide)]
      refine accept_self ((zeroAt_iff ..).2 (by rw [h]; unfold packS; omega)) ?_ hw
      congr 1 <;> refine field_eq ?_ <;> rw [h] <;> unfold packS <;> omega
    all_goals omega
  | slook d a b | sfill d a b =>
    refine decode_of_encode (v := packS _ _ _ _ _) rfl fun w h => ?_
    rw [decodeControl_of_slotTable (fieldNat_packS_op h _ _ _ _ _)]
    · unfold decodeSlotTable
      rw [fieldNat_packS_fn h (by decide)]
      exact accept_packS h (by decide) rfl hw
    all_goals omega
  | sevict d a =>
    refine decode_of_encode (v := packS _ _ _ _ _) rfl fun w h => ?_
    rw [decodeControl_of_slotTable (fieldNat_packS_op h _ _ _ _ _)]
    · unfold decodeSlotTable
      rw [fieldNat_packS_fn h (by decide)]
      refine accept_self ((zeroAt_iff ..).2 (by rw [h]; unfold packS; omega)) ?_ hw
      congr 1 <;> refine field_eq ?_ <;> rw [h] <;> unfold packS <;> omega
    all_goals omega
  | xlateRead h a | xlateWrite h a =>
    refine decode_of_encode (v := packS _ _ _ _ _) rfl fun w h => ?_
    rw [decodeControl_of_xlate (fieldNat_packS_op h _ _ _ _ _)]
    · unfold decodeXlate
      rw [fieldNat_packS_fn h (by decide)]
      refine accept_self (by simp only [Bool.and_eq_true, zeroAt_iff, h]; unfold packS; omega) ?_ hw
      congr 1 <;> refine field_eq ?_ <;> rw [h] <;> unfold packS <;> omega
    all_goals omega
  | checkS h a o =>
    refine decode_of_encode (v := packB _ _ _ _ _) rfl fun w h => ?_
    have hf : fieldNat w 22 4 = 0 := by rw [h]; unfold fieldNat packB; omega
    rw [decodeControl_of_check (fieldNat_packB_op h _ _ _ _ _)]
    · unfold decodeCheck
      rw [hf]
      refine accept_self rfl ?_ hw
      congr 1 <;> refine field_eq ?_ <;> rw [h] <;> unfold packB <;> omega
    all_goals omega
  | checkP h a o =>
    refine decode_of_encode (v := packB _ _ _ _ _) rfl fun w h => ?_
    have hf : fieldNat w 22 4 = 1 := by rw [h]; unfold fieldNat packB; omega
    rw [decodeControl_of_check (fieldNat_packB_op h _ _ _ _ _)]
    · unfold decodeCheck
      rw [hf]
      refine accept_self ((zeroAt_iff ..).2 (by rw [h]; unfold packB; omega)) ?_ hw
      congr 1 <;> refine field_eq ?_ <;> rw [h] <;> unfold packB <;> omega
    all_goals omega
  | csrr k a | csrw k a =>
    refine decode_of_encode (v := packX _ _ _ _) rfl fun w h => ?_
    rw [decodeControl_of_csr (fieldNat_packX_op h _ _ _ _)]
    · unfold decodeCsr
      rw [fieldNat_packX_sub h (by decide) k.isLt a.isLt]
      refine accept_self rfl ?_ hw
      congr 1 <;> refine field_eq ?_ <;> rw [h] <;> unfold packX <;> omega
    all_goals omega
  | shli d a i | shri d a i | shrai d a i =>
    refine decode_of_encode (v := packI _ _ _ _) rfl fun w h => ?_
    unfold decodeControl
    rw [fieldNat_packI_op h]
    · refine accept_self ((zeroAt_iff ..).2 (by rw [h]; unfold packI; omega)) ?_ hw
      congr 1 <;> refine field_eq ?_ <;> rw [h] <;> unfold packI <;> omega
    all_goals omega
  | lil d i | lih d i =>
    refine decode_of_encode (v := packI _ _ _ _) rfl fun w h => ?_
    unfold decodeControl
    rw [fieldNat_packI_op h]
    · refine accept_self rfl ?_ hw
      congr 1 <;> refine field_eq ?_ <;> rw [h] <;> unfold packI <;> omega
    all_goals omega
  | cas d a b z =>
    refine decode_of_encode (v := packS _ _ _ _ _) rfl fun w h => ?_
    unfold decodeControl
    rw [fieldNat_packS_op h]
    · refine accept_self (by simp only [Bool.and_eq_true, zeroAt_iff, h]; unfold packS; omega) ?_ hw
      congr 1 <;> refine field_eq ?_ <;> rw [h] <;> unfold packS <;> omega
    all_goals omega
  | br c h a o =>
    refine decode_of_encode (v := packB _ _ _ _ _) rfl fun w h => ?_
    unfold decodeControl
    rw [fieldNat_packB_op h]
    · refine accept_self rfl ?_ hw
      congr 1 <;> refine field_eq ?_ <;> rw [h] <;> unfold packB <;> omega
    all_goals omega
  | loop l a o =>
    refine decode_of_encode (v := packB _ _ _ _ _) rfl fun w h => ?_
    unfold decodeControl
    rw [fieldNat_packB_op h]
    · refine accept_self (by simp only [Bool.and_eq_true, zeroAt_iff, h]; unfold packB; omega) ?_ hw
      congr 1 <;> refine field_eq ?_ <;> rw [h] <;> unfold packB <;> omega
    all_goals omega
  | jmp o | call o =>
    refine decode_of_encode (v := packJ _ _) rfl fun w h => ?_
    unfold decodeControl
    rw [fieldNat_packJ_op h]
    · refine accept_self rfl ?_ hw
      congr 1
      exact field_eq (by rw [h]; unfold packJ; omega)
    all_goals omega
  | sel d a b p =>
    refine decode_of_encode (v := packS _ _ _ _ _) rfl fun w h => ?_
    unfold decodeControl
    rw [fieldNat_packS_op h]
    · refine accept_self ((zeroAt_iff ..).2 (by rw [h]; unfold packS; omega)) ?_ hw
      congr 1 <;> refine field_eq ?_ <;> rw [h] <;> unfold packS <;> omega
    all_goals omega
  | sxv d a =>
    refine decode_of_encode (v := packS _ _ _ _ _) rfl fun w h => ?_
    unfold decodeControl
    rw [fieldNat_packS_op h]
    · refine accept_self (by simp only [Bool.and_eq_true, zeroAt_iff, h]; unfold packS; omega) ?_ hw
      congr 1 <;> refine field_eq ?_ <;> rw [h] <;> unfold packS <;> omega
    all_goals omega
  | vxs d a b =>
    refine decode_of_encode (v := packS _ _ _ _ _) rfl fun w h => ?_
    unfold decodeControl
    rw [fieldNat_packS_op h]
    · refine accept_self (by simp only [Bool.and_eq_true, zeroAt_iff, h]; unfold packS; omega) ?_ hw
      congr 1 <;> refine field_eq ?_ <;> rw [h] <;> unfold packS <;> omega
    all_goals omega
  | go e g t =>
    refine decode_of_encode (v := packL _ _ _ _) rfl fun w h => ?_
    unfold decodeControl
    rw [fieldNat_packL_op h]
    · refine accept_self rfl ?_ hw
      congr 1 <;> refine field_eq ?_ <;> rw [h] <;> unfold packL <;> omega
    all_goals omega
  | push d =>
    refine decode_of_encode (v := packI _ _ _ _) rfl fun w h => ?_
    unfold decodeControl
    rw [fieldNat_packI_op h]
    · refine accept_self (by simp only [Bool.and_eq_true, zeroAt_iff, decide_eq_true_eq]; unfold fieldNat; rw [h]; unfold packI; omega) ?_ hw
      congr 1; refine field_eq ?_; rw [h]; unfold packI; omega
    all_goals omega
  | tlread d q =>
    refine decode_of_encode (v := packI _ _ _ _) rfl fun w h => ?_
    have hf : fieldNat w 0 1 = 0 := by rw [h]; unfold fieldNat packI; omega
    unfold decodeControl
    rw [fieldNat_packI_op h]
    · change (if fieldNat w 0 1 = 1 then _ else _) = _
      rw [if_neg (by omega)]
      refine accept_self ((zeroAt_iff ..).2 (by rw [h]; unfold packI; omega)) ?_ hw
      congr 1 <;> refine field_eq ?_ <;> rw [h] <;> unfold packI <;> omega
    all_goals omega
  | tlreadFail d q =>
    refine decode_of_encode (v := packI _ _ _ _) rfl fun w h => ?_
    have hf : fieldNat w 0 1 = 1 := by rw [h]; unfold fieldNat packI; omega
    unfold decodeControl
    rw [fieldNat_packI_op h]
    · change (if fieldNat w 0 1 = 1 then _ else _) = _
      rw [if_pos hf]
      refine accept_self ((zeroAt_iff ..).2 (by rw [h]; unfold packI; omega)) ?_ hw
      congr 1 <;> refine field_eq ?_ <;> rw [h] <;> unfold packI <;> omega
    all_goals omega
  | pop d =>
    refine decode_of_encode (v := packI _ _ _ _) rfl fun w h => ?_
    have hf : fieldNat w 0 1 = 0 := by rw [h]; unfold fieldNat packI; omega
    unfold decodeControl
    rw [fieldNat_packI_op h]
    · change (if fieldNat w 0 1 = 1 then _ else _) = _
      rw [if_neg (by omega)]
      refine accept_self ((zeroAt_iff ..).2 (by rw [h]; unfold packI; omega)) ?_ hw
      congr 1; refine field_eq ?_; rw [h]; unfold packI; omega
    all_goals omega
  | popTag d =>
    refine decode_of_encode (v := packI _ _ _ _) rfl fun w h => ?_
    have hf : fieldNat w 0 1 = 1 := by rw [h]; unfold fieldNat packI; omega
    unfold decodeControl
    rw [fieldNat_packI_op h]
    · change (if fieldNat w 0 1 = 1 then _ else _) = _
      rw [if_pos hf]
      refine accept_self ((zeroAt_iff ..).2 (by rw [h]; unfold packI; omega)) ?_ hw
      congr 1; refine field_eq ?_; rw [h]; unfold packI; omega
    all_goals omega
  | peekq d =>
    refine decode_of_encode (v := packI _ _ _ _) rfl fun w h => ?_
    unfold decodeControl
    rw [fieldNat_packI_op h]
    · refine accept_self ((zeroAt_iff ..).2 (by rw [h]; unfold packI; omega)) ?_ hw
      congr 1; refine field_eq ?_; rw [h]; unfold packI; omega
    all_goals omega
  | phase a i =>
    refine decode_of_encode (v := packI _ _ _ _) rfl fun w h => ?_
    unfold decodeControl
    rw [fieldNat_packI_op h]
    · refine accept_self (by simp only [Bool.and_eq_true, zeroAt_iff, h]; unfold packI; omega) ?_ hw
      congr 1 <;> refine field_eq ?_ <;> rw [h] <;> unfold packI <;> omega
    all_goals omega
  | wid d i =>
    refine decode_of_encode (v := packI _ _ _ _) rfl fun w h => ?_
    unfold decodeControl
    rw [fieldNat_packI_op h]
    · refine accept_self ((zeroAt_iff ..).2 (by rw [h]; unfold packI; omega)) ?_ hw
      congr 1 <;> refine field_eq ?_ <;> rw [h] <;> unfold packI <;> omega
    all_goals omega
  | nop | mark | halt | done | ret =>
    refine decode_of_encode (v := packX _ _ _ _) rfl fun w h => ?_
    rw [decodeControl_of_system (fieldNat_packX_op h _ _ _ _)]
    · unfold decodeSystem
      rw [fieldNat_packX_sub h (by decide) (by omega) (by omega)]
      exact accept_self ((zeroAt_iff ..).2 (by rw [h]; unfold packX; omega)) rfl hw
    all_goals omega
  | fence s =>
    refine decode_of_encode (v := packX _ _ _ _) rfl fun w h => ?_
    rw [decodeControl_of_system (fieldNat_packX_op h _ _ _ _)]
    · unfold decodeSystem
      rw [fieldNat_packX_sub h (by decide) (by omega) (by omega)]
      refine accept_self (by simp only [Bool.and_eq_true, zeroAt_iff, h]; unfold packX; omega) ?_ hw
      congr 1; refine field_eq ?_; rw [h]; unfold packX; omega
    all_goals omega
  | trap k =>
    refine decode_of_encode (v := packX _ _ _ _) rfl fun w h => ?_
    rw [decodeControl_of_system (fieldNat_packX_op h _ _ _ _)]
    · unfold decodeSystem
      rw [fieldNat_packX_sub h (by decide) (by omega) (by omega)]
      refine accept_self ((zeroAt_iff ..).2 (by rw [h]; unfold packX; omega)) ?_ hw
      congr 1; refine field_eq ?_; rw [h]; unfold packX; omega
    all_goals omega
  | cad d | stand a | standQ a =>
    refine decode_of_encode (v := packX _ _ _ _) rfl fun w h => ?_
    rw [decodeControl_of_system (fieldNat_packX_op h _ _ _ _)]
    · unfold decodeSystem
      rw [fieldNat_packX_sub h (by decide) (by omega) (by omega)]
      refine accept_self ((zeroAt_iff ..).2 (by rw [h]; unfold packX; omega)) ?_ hw
      congr 1; refine field_eq ?_; rw [h]; unfold packX; omega
    all_goals omega
  | tick k a =>
    refine decode_of_encode (v := packX _ _ _ _) rfl fun w h => ?_
    rw [decodeControl_of_system (fieldNat_packX_op h _ _ _ _)]
    · unfold decodeSystem
      rw [fieldNat_packX_sub h (by decide) (by omega) (by omega)]
      refine accept_self rfl ?_ hw
      congr 1 <;> refine field_eq ?_ <;> rw [h] <;> unfold packX <;> omega
    all_goals omega
  | bar l i =>
    refine decode_of_encode (v := packX _ _ _ _) rfl fun w h => ?_
    rw [decodeControl_of_system (fieldNat_packX_op h _ _ _ _)]
    · unfold decodeSystem
      rw [fieldNat_packX_sub h (by decide) (by omega) (by omega)]
      refine accept_self (by simp only [Bool.and_eq_true, zeroAt_iff, h]; unfold packX; omega) ?_ hw
      congr 1 <;> refine field_eq ?_ <;> rw [h] <;> unfold packX <;> omega
    all_goals omega
  | xinv h =>
    refine decode_of_encode (v := packX _ _ _ _) rfl fun w h => ?_
    rw [decodeControl_of_system (fieldNat_packX_op h _ _ _ _)]
    · unfold decodeSystem
      rw [fieldNat_packX_sub h (by decide) (by omega) (by omega)]
      refine accept_self (by simp only [Bool.and_eq_true, zeroAt_iff, h]; unfold packX; omega) ?_ hw
      congr 1; refine field_eq ?_; rw [h]; unfold packX; omega
    all_goals omega
  | fload g t =>
    refine decode_of_encode (v := packL _ _ _ _) rfl fun w h => ?_
    unfold decodeControl
    rw [fieldNat_packL_op h]
    · refine accept_self (decide_eq_true (by unfold fieldNat; rw [h]; unfold packL; omega)) ?_ hw
      congr 1 <;> refine field_eq ?_ <;> rw [h] <;> unfold packL <;> omega
    all_goals omega
  | fbind g c =>
    refine decode_of_encode (v := packL _ _ _ _) rfl fun w h => ?_
    unfold decodeControl
    rw [fieldNat_packL_op h]
    · refine accept_self (by simp only [Bool.and_eq_true, zeroAt_iff, decide_eq_true_eq]; unfold fieldNat; rw [h]; unfold packL; omega) ?_ hw
      congr 1 <;> refine field_eq ?_ <;> rw [h] <;> unfold packL <;> omega
    all_goals omega
  | _ => cases hs

/-! ### Vector, matrix, transfer, index and drafting words -/

/-- The vector words (R327 to R329). -/
theorem decodeVector_encode (i : Instr) (hw : i.wf = true) (hs : streamOf i = some .vector) :
    decodeVector ((encode i).headD 0) = .ok i := by
  cases i with
  | vadd d a b m r | vsub d a b m r | vmul d a b m r | vdiv d a b m r =>
    refine decode_of_encode (v := packV _ _ _ _ _ _ _) rfl fun w h => ?_
    unfold decodeVector
    rw [fieldNat_packV_op h]
    · exact accept_packV_rounded h hw
    all_goals omega
  | vmin d a b m | vmax d a b m | viadd d a b m | visub d a b m | vimul d a b m | vimin d a b m | vimax d a b m
    | vand d a b m | vor d a b m | vxor d a b m | vshl d a b m | vshr d a b m | vshra d a b m | viadds d a b m
    | vprune24 d a b m | vperm d a b m | vslide d a b m | vbcast d a b m | vrand d a b m =>
    refine decode_of_encode (v := packV _ _ _ _ _ _ _) rfl fun w h => ?_
    unfold decodeVector
    rw [fieldNat_packV_op h]
    · exact accept_packV h hw
    all_goals omega
  | vsqrt d a m r | vrcp d a m r | vrsqrt d a m r | vexp2 d a m r | vlog2 d a m r | vln d a m r | vtanh d a m r =>
    refine decode_of_encode (v := packV _ _ _ _ _ _ _) rfl fun w h => ?_
    unfold decodeVector
    rw [fieldNat_packV_op h]
    · exact accept_packV_unary_rounded h hw
    all_goals omega
  | vneg d a m | vabs d a m | vrsum d a m | vrmax d a m | vrmin d a m | vscan d a m | vargmax d a m | vpopnz d a m
    | vnzmap d a m =>
    refine decode_of_encode (v := packV _ _ _ _ _ _ _) rfl fun w h => ?_
    unfold decodeVector
    rw [fieldNat_packV_op h]
    · exact accept_packV_unary h hw
    all_goals omega
  | vfma d a b c m r =>
    refine decode_of_encode (v := packV _ _ _ _ _ _ _) rfl fun w h => ?_
    unfold decodeVector
    rw [fieldNat_packV_op h]
    · refine accept_self rfl ?_ hw
      congr 1 <;> refine field_eq ?_ <;> rw [h] <;> unfold packV <;> omega
    all_goals omega
  | vcmpeq d a b m | vcmpne d a b m | vcmplt d a b m | vcmple d a b m =>
    refine decode_of_encode (v := packV _ _ _ _ _ _ _) rfl fun w h => ?_
    unfold decodeVector
    rw [fieldNat_packV_op h]
    · refine accept_self (by simp only [Bool.and_eq_true, zeroAt_iff, h]; unfold packV; omega) ?_ hw
      congr 1 <;> refine field_eq ?_ <;> rw [h] <;> unfold packV <;> omega
    all_goals omega
  | vmand d a b | vmor d a b | vmxor d a b =>
    refine decode_of_encode (v := packV _ _ _ _ _ _ _) rfl fun w h => ?_
    unfold decodeVector
    rw [fieldNat_packV_op h]
    · refine accept_self (by simp only [Bool.and_eq_true, zeroAt_iff, h]; unfold packV; omega) ?_ hw
      congr 1 <;> refine field_eq ?_ <;> rw [h] <;> unfold packV <;> omega
    all_goals omega
  | vmnot d a =>
    refine decode_of_encode (v := packV _ _ _ _ _ _ _) rfl fun w h => ?_
    unfold decodeVector
    rw [fieldNat_packV_op h]
    · refine accept_self (by simp only [Bool.and_eq_true, zeroAt_iff, h]; unfold packV; omega) ?_ hw
      congr 1 <;> refine field_eq ?_ <;> rw [h] <;> unfold packV <;> omega
    all_goals omega
  | vsel d a b c m =>
    refine decode_of_encode (v := packV _ _ _ _ _ _ _) rfl fun w h => ?_
    unfold decodeVector
    rw [fieldNat_packV_op h]
    · refine accept_self (by simp only [Bool.and_eq_true, zeroAt_iff, h]; unfold packV; omega) ?_ hw
      congr 1 <;> refine field_eq ?_ <;> rw [h] <;> unfold packV <;> omega
    all_goals omega
  | vcvt d a t o m r =>
    refine decode_of_encode (v := packV _ _ _ _ _ _ _) rfl fun w h => ?_
    unfold decodeVector
    rw [fieldNat_packV_op h]
    · refine accept_self ((zeroAt_iff ..).2 (by rw [h]; unfold packV; omega)) ?_ hw
      congr 1 <;> refine field_eq ?_ <;> rw [h] <;> unfold packV <;> omega
    all_goals omega
  | vpack d a f c r =>
    refine decode_of_encode (v := packV _ _ _ _ _ _ _) rfl fun w h => ?_
    unfold decodeVector
    rw [fieldNat_packV_op h]
    · refine accept_self ((zeroAt_iff ..).2 (by rw [h]; unfold packV; omega)) ?_ hw
      congr 1 <;> refine field_eq ?_ <;> rw [h] <;> unfold packV <;> omega
    all_goals omega
  | vunpack d a f c =>
    refine decode_of_encode (v := packV _ _ _ _ _ _ _) rfl fun w h => ?_
    unfold decodeVector
    rw [fieldNat_packV_op h]
    · refine accept_self ((zeroAt_iff ..).2 (by rw [h]; unfold packV; omega)) ?_ hw
      congr 1 <;> refine field_eq ?_ <;> rw [h] <;> unfold packV <;> omega
    all_goals omega
  | vtget d a b m | vtset d a b m =>
    refine decode_of_encode (v := packV _ _ _ _ _ _ _) rfl fun w h => ?_
    unfold decodeVector
    rw [fieldNat_packV_op h]
    · refine accept_self (by simp only [Bool.and_eq_true, zeroAt_iff, h]; unfold packV; omega) ?_ hw
      congr 1 <;> refine field_eq ?_ <;> rw [h] <;> unfold packV <;> omega
    all_goals omega
  | shaper a =>
    refine decode_of_encode (v := packV _ _ _ _ _ _ _) rfl fun w h => ?_
    unfold decodeVector
    rw [fieldNat_packV_op h]
    · refine accept_self (by simp only [Bool.and_eq_true, zeroAt_iff, h]; unfold packV; omega) ?_ hw
      congr 1; refine field_eq ?_; rw [h]; unfold packV; omega
    all_goals omega
  | vld d a o =>
    refine decode_of_encode rfl fun w h => ?_
    have ho : fieldNat w 25 7 = 72 := by rw [h]; unfold fieldNat; omega
    unfold decodeVector
    rw [ho]
    refine accept_self rfl ?_ hw
    congr 1 <;> refine field_eq ?_ <;> rw [h] <;> omega
  | vst d a o =>
    refine decode_of_encode rfl fun w h => ?_
    have ho : fieldNat w 25 7 = 73 := by rw [h]; unfold fieldNat; omega
    unfold decodeVector
    rw [ho]
    refine accept_self rfl ?_ hw
    congr 1 <;> refine field_eq ?_ <;> rw [h] <;> omega
  | shape t f g l =>
    refine decode_of_encode rfl fun w h => ?_
    have ho : fieldNat w 25 7 = 90 := by rw [h]; unfold fieldNat; omega
    unfold decodeVector
    rw [ho]
    refine accept_self ((zeroAt_iff ..).2 (by rw [h]; omega)) ?_ hw
    congr 1 <;> refine field_eq ?_ <;> rw [h] <;> omega
  | tan s a b c =>
    refine decode_of_encode rfl fun w h => ?_
    have ho : fieldNat w 25 7 = 126 := by rw [h]; unfold fieldNat; omega
    unfold decodeVector
    rw [ho]
    refine accept_self ((zeroAt_iff ..).2 (by rw [h]; omega)) ?_ hw
    congr 1 <;> refine field_eq ?_ <;> rw [h] <;> omega
  | vnop n =>
    refine decode_of_encode rfl fun w h => ?_
    have ho : fieldNat w 25 7 = 127 := by rw [h]; unfold fieldNat; omega
    unfold decodeVector
    rw [ho]
    refine accept_self ((zeroAt_iff ..).2 (by rw [h]; omega)) ?_ hw
    congr 1; refine field_eq ?_; rw [h]; omega
  | _ => cases hs

/-- The transfer words (R330). -/
theorem decodeTransfer_encode (i : Instr) (hw : i.wf = true) (hs : streamOf i = some .transfer) :
    decodeTransfer ((encode i).headD 0) = .ok i := by
  cases i with
  | xfnop n | xfcopy e | xfcast e | xfzip e | xfunzip e | xffill e | xfsend e | xfrecv e | xfvirt e =>
    refine decode_of_encode (v := packJ _ _) rfl fun w h => ?_
    unfold decodeTransfer
    rw [fieldNat_packJ_op h]
    · exact accept_packJ (by decide) h hw
    all_goals omega
  | _ => cases hs

/-- The index words (R330). -/
theorem decodeIndex_encode (i : Instr) (hw : i.wf = true) (hs : streamOf i = some .index) :
    decodeIndex ((encode i).headD 0) = .ok i := by
  cases i with
  | ixnop n | ixgather e | ixscatter e | ixscadd e | ixcount e | ixcompact e | ixhist e | ixamo e | ixcas e =>
    refine decode_of_encode (v := packJ _ _) rfl fun w h => ?_
    unfold decodeIndex
    rw [fieldNat_packJ_op h]
    · exact accept_packJ (by decide) h hw
    all_goals omega
  | _ => cases hs

/-- The matrix words (R330). -/
theorem decodeMatrix_encode (i : Instr) (hw : i.wf = true) (hs : streamOf i = some .matrix) :
    decodeMatrix ((encode i).headD 0) (encode i)[1]? = .ok i := by
  cases i with
  | mnop n | mscmode m | mseta e =>
    refine decode_of_encode (D := fun w => decodeMatrix w _) (v := packJ _ _) rfl fun w h => ?_
    unfold decodeMatrix
    rw [fieldNat_packJ_op h]
    · exact accept_packJ (by decide) h hw
    all_goals omega
  | mswap =>
    refine decode_of_encode (D := fun w => decodeMatrix w _) (v := packJ _ _) rfl fun w h => ?_
    unfold decodeMatrix
    rw [fieldNat_packJ_op h]
    · exact accept_self ((zeroAt_iff ..).2 (by rw [h]; unfold packJ; omega)) rfl hw
    all_goals omega
  | mzero n =>
    refine decode_of_encode (D := fun w => decodeMatrix w _) (v := packJ _ _) rfl fun w h => ?_
    unfold decodeMatrix
    rw [fieldNat_packJ_op h]
    · refine accept_self ((zeroAt_iff ..).2 (by rw [h]; unfold packJ; omega)) ?_ hw
      congr 1; refine field_eq ?_; rw [h]; unfold packJ; omega
    all_goals omega
  | mmode x a w =>
    refine decode_of_encode (D := fun w => decodeMatrix w _) (v := packJ _ _) rfl fun w h => ?_
    unfold decodeMatrix
    rw [fieldNat_packJ_op h]
    · refine accept_self ((zeroAt_iff ..).2 (by rw [h]; unfold packJ; omega)) ?_ hw
      congr 1 <;> refine field_eq ?_ <;> rw [h] <;> unfold packJ <;> omega
    all_goals omega
  | mloadw e =>
    refine decode_of_encode_ext (D := decodeMatrix) (v := packJ _ _) rfl fun w x h hx => ?_
    unfold decodeMatrix
    rw [fieldNat_packJ_op h]
    · refine accept_self (by simp only [Bool.and_eq_true, zeroAt_iff, h, hx]; unfold packJ; omega) ?_ hw
      congr 1; exact field_eq (by omega)
    all_goals omega
  | mrun n r t e =>
    refine decode_of_encode_ext (D := decodeMatrix) (v := packJ _ _) rfl fun w x h hx => ?_
    unfold decodeMatrix
    rw [fieldNat_packJ_op h]
    · refine accept_self (by simp only [Bool.and_eq_true, zeroAt_iff, h, hx]; unfold packJ; omega) ?_ hw
      congr 1 <;> refine field_eq ?_ <;> unfold packJ at h <;> omega
    all_goals omega
  | mrunS n r m t e =>
    refine decode_of_encode_ext (D := decodeMatrix) (v := packJ _ _) rfl fun w x h hx => ?_
    unfold decodeMatrix
    rw [fieldNat_packJ_op h]
    · refine accept_self ((zeroAt_iff ..).2 (by rw [hx]; omega)) ?_ hw
      congr 1 <;> refine field_eq ?_ <;> unfold packJ at h <;> omega
    all_goals omega
  | mmeta n e =>
    refine decode_of_encode_ext (D := decodeMatrix) (v := packJ _ _) rfl fun w x h hx => ?_
    unfold decodeMatrix
    rw [fieldNat_packJ_op h]
    · refine accept_self (by simp only [Bool.and_eq_true, zeroAt_iff, h, hx]; unfold packJ; omega) ?_ hw
      congr 1 <;> refine field_eq ?_ <;> unfold packJ at h <;> omega
    all_goals omega
  | mscq n e =>
    refine decode_of_encode_ext (D := decodeMatrix) (v := packJ _ _) rfl fun w x h hx => ?_
    unfold decodeMatrix
    rw [fieldNat_packJ_op h]
    · refine accept_self (by simp only [Bool.and_eq_true, zeroAt_iff, h, hx]; unfold packJ; omega) ?_ hw
      congr 1 <;> refine field_eq ?_ <;> unfold packJ at h <;> omega
    all_goals omega
  | mdrain n r0 r f t e =>
    refine decode_of_encode_ext (D := decodeMatrix) (v := packJ _ _) rfl fun w x h hx => ?_
    unfold decodeMatrix
    rw [fieldNat_packJ_op h]
    · refine accept_self ((zeroAt_iff ..).2 (by rw [h]; unfold packJ; omega)) ?_ hw
      congr 1 <;> refine field_eq ?_ <;> unfold packJ at h <;> omega
    all_goals omega
  | _ => cases hs

/-- The drafting commands (R330). -/
theorem decodeDrafting_encode (i : Instr) (hw : i.wf = true) (hs : streamOf i = some .drafting) :
    decodeDrafting ((encode i).headD 0) (encode i)[1]? = .ok i := by
  cases i with
  | dkeys n k w e =>
    refine decode_of_encode_ext (D := decodeDrafting) (v := packJ _ _) rfl fun w x h hx => ?_
    unfold decodeDrafting withExt
    simp only []
    rw [fieldNat_packJ_op h]
    · refine accept_self (by simp only [Bool.and_eq_true, zeroAt_iff, h, hx]; unfold packJ; omega) ?_ hw
      congr 1 <;> refine field_eq ?_ <;> unfold packJ at h <;> omega
    all_goals omega
  | dmatch d m u r p e =>
    refine decode_of_encode_ext (D := decodeDrafting) (v := packJ _ _) rfl fun w x h hx => ?_
    unfold decodeDrafting withExt
    simp only []
    rw [fieldNat_packJ_op h]
    · refine accept_self (by simp only [Bool.and_eq_true, zeroAt_iff, h, hx]; unfold packJ; omega) ?_ hw
      congr 1 <;> refine field_eq ?_ <;> unfold packJ at h <;> omega
    all_goals omega
  | dmerge m w e =>
    refine decode_of_encode_ext (D := decodeDrafting) (v := packJ _ _) rfl fun w x h hx => ?_
    unfold decodeDrafting withExt
    simp only []
    rw [fieldNat_packJ_op h]
    · refine accept_self (by simp only [Bool.and_eq_true, zeroAt_iff, h, hx]; unfold packJ; omega) ?_ hw
      congr 1 <;> refine field_eq ?_ <;> unfold packJ at h <;> omega
    all_goals omega
  | dunmerge m w e =>
    refine decode_of_encode_ext (D := decodeDrafting) (v := packJ _ _) rfl fun w x h hx => ?_
    unfold decodeDrafting withExt
    simp only []
    rw [fieldNat_packJ_op h]
    · refine accept_self (by simp only [Bool.and_eq_true, zeroAt_iff, h, hx]; unfold packJ; omega) ?_ hw
      congr 1 <;> refine field_eq ?_ <;> unfold packJ at h <;> omega
    all_goals omega
  | dcompose d a b =>
    refine decode_of_encode_ext (D := decodeDrafting) (v := packJ _ _) rfl fun w x h hx => ?_
    unfold decodeDrafting withExt
    simp only []
    rw [fieldNat_packJ_op h]
    · refine accept_self (by simp only [Bool.and_eq_true, zeroAt_iff, h, hx]; unfold packJ; omega) ?_ hw
      congr 1 <;> refine field_eq ?_ <;> unfold packJ at h <;> omega
    all_goals omega
  | dsizes m e =>
    refine decode_of_encode_ext (D := decodeDrafting) (v := packJ _ _) rfl fun w x h hx => ?_
    unfold decodeDrafting withExt
    simp only []
    rw [fieldNat_packJ_op h]
    · refine accept_self (by simp only [Bool.and_eq_true, zeroAt_iff, h, hx]; unfold packJ; omega) ?_ hw
      congr 1 <;> refine field_eq ?_ <;> unfold packJ at h <;> omega
    all_goals omega
  | dsave m e =>
    refine decode_of_encode_ext (D := decodeDrafting) (v := packJ _ _) rfl fun w x h hx => ?_
    unfold decodeDrafting withExt
    simp only []
    rw [fieldNat_packJ_op h]
    · refine accept_self (by simp only [Bool.and_eq_true, zeroAt_iff, h, hx]; unfold packJ; omega) ?_ hw
      congr 1 <;> refine field_eq ?_ <;> unfold packJ at h <;> omega
    all_goals omega
  | dload m e =>
    refine decode_of_encode_ext (D := decodeDrafting) (v := packJ _ _) rfl fun w x h hx => ?_
    unfold decodeDrafting withExt
    simp only []
    rw [fieldNat_packJ_op h]
    · refine accept_self (by simp only [Bool.and_eq_true, zeroAt_iff, h, hx]; unfold packJ; omega) ?_ hw
      congr 1 <;> refine field_eq ?_ <;> unfold packJ at h <;> omega
    all_goals omega
  | _ => cases hs

/-! ### The slots of a fabric bundle -/

/-- Slot A (R331, R477). -/
theorem decodeSlotA_encode (i : Instr) (hw : i.wf = true) (hs : streamOf i = some .slotA) :
    decodeSlotA ((encode i).headD 0) = .ok i := by
  cases i with
  | fnop =>
    refine decode_of_encode rfl fun w h => ?_
    subst h
    rfl
  | fadd d a b | fmul d a b | fmax d a b | fmin d a b =>
    refine decode_of_encode (v := packF _ _ _ _ _) rfl fun w h => ?_
    unfold decodeSlotA
    rw [fieldNat_packF_op h]
    · refine accept_self ((zeroAt_iff ..).2 (by rw [h]; unfold packF; omega)) ?_ hw
      congr 1 <;> refine field_eq ?_ <;> rw [h] <;> unfold packF <;> omega
    all_goals omega
  | fcmp d a b c =>
    refine decode_of_encode (v := packF _ _ _ _ _) rfl fun w h => ?_
    unfold decodeSlotA
    rw [fieldNat_packF_op h]
    · refine accept_self (by simp only [Bool.and_eq_true, zeroAt_iff, h]; unfold packF; omega) ?_ hw
      congr 1 <;> refine field_eq ?_ <;> rw [h] <;> unfold packF <;> omega
    all_goals omega
  | fsel d a b c =>
    refine decode_of_encode (v := packF _ _ _ _ _) rfl fun w h => ?_
    unfold decodeSlotA
    rw [fieldNat_packF_op h]
    · refine accept_self ((zeroAt_iff ..).2 (by rw [h]; unfold packF; omega)) ?_ hw
      congr 1 <;> refine field_eq ?_ <;> rw [h] <;> unfold packF <;> omega
    all_goals omega
  | facc d a =>
    refine decode_of_encode (v := packF _ _ _ _ _) rfl fun w h => ?_
    unfold decodeSlotA
    rw [fieldNat_packF_op h]
    · refine accept_self ((zeroAt_iff ..).2 (by rw [h]; unfold packF; omega)) ?_ hw
      congr 1 <;> refine field_eq ?_ <;> rw [h] <;> unfold packF <;> omega
    all_goals omega
  | _ => cases hs

/-- Slot B (R331, R478). -/
theorem decodeSlotB_encode (i : Instr) (hw : i.wf = true) (hs : streamOf i = some .slotB) :
    decodeSlotB ((encode i).headD 0) = .ok i := by
  cases i with
  | fmov d a =>
    refine decode_of_encode (v := packF _ _ _ _ _) rfl fun w h => ?_
    unfold decodeSlotB
    rw [fieldNat_packF_op h]
    · refine accept_self ((zeroAt_iff ..).2 (by rw [h]; unfold packF; omega)) ?_ hw
      congr 1 <;> refine field_eq ?_ <;> rw [h] <;> unfold packF <;> omega
    all_goals omega
  | froute a m =>
    refine decode_of_encode rfl fun w h => ?_
    have ho : fieldNat w 27 5 = 9 := by rw [h]; unfold fieldNat; omega
    unfold decodeSlotB
    rw [ho]
    refine accept_self (by simp only [Bool.and_eq_true, zeroAt_iff, h]; omega) ?_ hw
    congr 1 <;> refine field_eq ?_ <;> rw [h] <;> omega
  | ftake d =>
    refine decode_of_encode (v := packF _ _ _ _ _) rfl fun w h => ?_
    unfold decodeSlotB
    rw [fieldNat_packF_op h]
    · refine accept_self ((zeroAt_iff ..).2 (by rw [h]; unfold packF; omega)) ?_ hw
      congr 1; refine field_eq ?_; rw [h]; unfold packF; omega
    all_goals omega
  | femit a =>
    refine decode_of_encode (v := packF _ _ _ _ _) rfl fun w h => ?_
    unfold decodeSlotB
    rw [fieldNat_packF_op h]
    · refine accept_self (by simp only [Bool.and_eq_true, zeroAt_iff, h]; unfold packF; omega) ?_ hw
      congr 1; refine field_eq ?_; rw [h]; unfold packF; omega
    all_goals omega
  | floopb t c f =>
    refine decode_of_encode rfl fun w h => ?_
    have ho : fieldNat w 27 5 = 12 := by rw [h]; unfold fieldNat; omega
    unfold decodeSlotB
    rw [ho]
    refine accept_self (by simp only [Bool.and_eq_true, zeroAt_iff, h]; omega) ?_ hw
    congr 1 <;> refine field_eq ?_ <;> rw [h] <;> omega
  | _ => cases hs

/-- Slot C (R331, R479). -/
theorem decodeSlotC_encode (i : Instr) (hw : i.wf = true) (hs : streamOf i = some .slotC) :
    decodeSlotC ((encode i).headD 0) = .ok i := by
  cases i with
  | fcvt d a f t p =>
    refine decode_of_encode rfl fun w h => ?_
    have ho : fieldNat w 27 5 = 16 := by rw [h]; unfold fieldNat; omega
    unfold decodeSlotC
    rw [ho]
    refine accept_self ((zeroAt_iff ..).2 (by rw [h]; omega)) ?_ hw
    congr 1 <;> refine field_eq ?_ <;> rw [h] <;> omega
  | fzip d a b =>
    refine decode_of_encode (v := packF _ _ _ _ _) rfl fun w h => ?_
    unfold decodeSlotC
    rw [fieldNat_packF_op h]
    · refine accept_self ((zeroAt_iff ..).2 (by rw [h]; unfold packF; omega)) ?_ hw
      congr 1 <;> refine field_eq ?_ <;> rw [h] <;> unfold packF <;> omega
    all_goals omega
  | funzip d a h =>
    refine decode_of_encode rfl fun w h => ?_
    have ho : fieldNat w 27 5 = 18 := by rw [h]; unfold fieldNat; omega
    unfold decodeSlotC
    rw [ho]
    refine accept_self ((zeroAt_iff ..).2 (by rw [h]; omega)) ?_ hw
    congr 1 <;> refine field_eq ?_ <;> rw [h] <;> omega
  | _ => cases hs

/-- Settles O2: in the map of its stream, every field of an instruction is read back from the bits where it was put. -/
theorem encodedInstructionDecodesToItself : Obligations.EncodedInstructionDecodesToItself := by
  intro i st hw hs
  cases st with
  | control => exact decodeControl_encode i hw hs
  | vector => exact decodeVector_encode i hw hs
  | matrix => exact decodeMatrix_encode i hw hs
  | transfer => exact decodeTransfer_encode i hw hs
  | index => exact decodeIndex_encode i hw hs
  | drafting => exact decodeDrafting_encode i hw hs
  | slotA => exact decodeSlotA_encode i hw hs
  | slotB => exact decodeSlotB_encode i hw hs
  | slotC => exact decodeSlotC_encode i hw hs

end Sys2Proof
end

section
/-! SUPPORT. The memory of a state, and the operations of the model that leave it as it is: one lemma for each. -/

namespace Sys2Proof.Machine

open Sys2Proof

/-- What a state holds of memory: its bytes, the poison of lines, the key epochs of HBM lines and the lines in error. -/
def State.memory (s : State) : List Host.Cell × SMap Bool × SMap Nat × SMap Bool := (s.mem, s.lines, s.epochs, s.ecc)

theorem sameMemory_iff (s t : State) : SameMemory s t ↔ t.memory = s.memory := by
  simp [SameMemory, State.memory]

@[simp] theorem ite_memory (c : Prop) [Decidable c] (s t : State) : (if c then s else t).memory = if c then s.memory else t.memory := apply_ite State.memory c s t
theorem State.foldl_memory {β : Type} (f : State → β → State) (h : ∀ s x, (f s x).memory = s.memory) (l : List β) (s : State) :
    (l.foldl f s).memory = s.memory := State.foldl_keeps State.memory f h l s
@[simp] theorem State.mk_memory (s : State) (cur inbox arg ended agenda timers seq free net netSeq chan outs cy dev slots parts pls dies hubs arrays xdies beats) :
  State.memory { s with cur := cur, inbox := inbox, arg := arg, ended := ended, agenda := agenda, timers := timers, seq := seq, free := free, net := net, netSeq := netSeq, chan := chan, outs := outs, cy := cy, dev := dev, slots := slots, parts := parts, pls := pls, dies := dies, hubs := hubs, arrays := arrays, xdies := xdies, beats := beats } = s.memory := (rfl)
@[simp] theorem State.setDie_memory (s : State) (p d) : (s.setDie p d).memory = s.memory := (rfl)
@[simp] theorem State.setHub_memory (s : State) (p h x3) : (s.setHub p h x3).memory = s.memory := (rfl)
@[simp] theorem State.setArr_memory (s : State) (p a x3) : (s.setArr p a x3).memory = s.memory := (rfl)
@[simp] theorem State.setSlot_memory (s : State) (n x2) : (s.setSlot n x2).memory = s.memory := (rfl)
@[simp] theorem State.setPart_memory (s : State) (p x2) : (s.setPart p x2).memory = s.memory := (rfl)
@[simp] theorem State.setPl_memory (s : State) (n x2) : (s.setPl n x2).memory = s.memory := (rfl)
@[simp] theorem State.setXdie_memory (s : State) (p x2) : (s.setXdie p x2).memory = s.memory := (rfl)
@[simp] theorem State.setCurHub_memory (s : State) (h) : (s.setCurHub h).memory = s.memory := (rfl)
@[simp] theorem State.post_memory (s : State) (die at_ lpos hub eng a) : (s.post die at_ lpos hub eng a).memory = s.memory := (rfl)
@[simp] theorem State.follow_memory (s : State) (d die at_ lpos hub eng a beat) : (s.follow d die at_ lpos hub eng a beat).memory = s.memory := (rfl)
@[simp] theorem State.later_memory (s : State) (l a) : (s.later l a).memory = s.memory := (rfl)
@[simp] theorem State.laterAll_memory (s : State) (a) : (s.laterAll a).memory = s.memory := by
  induction a generalizing s with
  | nil => rfl
  | cons x r ih => rw [State.laterAll, ih]; simp
@[simp] theorem State.after_memory (s : State) (pulses i a) : (s.after pulses i a).memory = s.memory := (rfl)
@[simp] theorem State.useFree_memory (s : State) : (s.useFree).memory = s.memory := (rfl)
@[simp] theorem State.writeS_memory (s : State) (d l v p) : (s.writeS d l v p).memory = s.memory := (rfl)
@[simp] theorem State.writeP_memory (s : State) (d l v p) : (s.writeP d l v p).memory = s.memory := (rfl)
@[simp] theorem State.advance_memory (s : State) (d) : (s.advance d).memory = s.memory := (rfl)
@[simp] theorem State.jump_memory (s : State) (target d) : (s.jump target d).memory = s.memory := (rfl)
@[simp] theorem State.waitOn_memory (s : State) (w) : (s.waitOn w).memory = s.memory := (rfl)
@[simp] theorem State.sendWithin_memory (s : State) (bound i p) : (s.sendWithin bound i p).memory = s.memory := (rfl)
@[simp] theorem State.sendReport_memory (s : State) (r) : (s.sendReport r).memory = s.memory := (rfl)
@[simp] theorem State.eccFor_memory (s : State) (l lpos hub eng detail places) : (s.eccFor l lpos hub eng detail places).memory = s.memory := by
  unfold State.eccFor; split <;> simp
@[simp] theorem State.eccRead_memory (s : State) (die hub eng detail places) : (s.eccRead die hub eng detail places).memory = s.memory := by
  simp [State.eccRead]
@[simp] theorem State.stopHub_memory (s : State) (die hub eng) : (s.stopHub die hub eng).memory = s.memory := (rfl)
@[simp] theorem State.settleVector_memory (s : State) (die hub) : (s.settleVector die hub).memory = s.memory := by
  simp [State.settleVector]
@[simp] theorem State.markAbort_memory (s : State) (slot) : (s.markAbort slot).memory = s.memory := (rfl)
@[simp] theorem State.sendWord_memory (s : State) (p m ctype cdata) : (s.sendWord p m ctype cdata).memory = s.memory := by
  unfold State.sendWord; split <;> simp
@[simp] theorem State.sendFour_memory (s : State) (p m ctype cdata) : (s.sendFour p m ctype cdata).memory = s.memory := (rfl)
@[simp] theorem State.sendHalt_memory (s : State) (p hmark ms) : (s.sendHalt p hmark ms).memory = s.memory := by
  unfold State.sendHalt; refine State.foldl_memory _ (fun _ _ => ?_) _ _; simp
@[simp] theorem State.raiseHalt_memory (s : State) (p mark) : (s.raiseHalt p mark).memory = s.memory := by
  simp [State.raiseHalt]
@[simp] theorem State.countFault_memory (s : State) (r) : (s.countFault r).memory = s.memory := (rfl)
@[simp] theorem State.recordFault_memory (s : State) (r) : (s.recordFault r).memory = s.memory := by
  simp [State.recordFault]
@[simp] theorem State.haltRoot_memory (s : State) (n hmark) : (s.haltRoot n hmark).memory = s.memory := (rfl)
@[simp] theorem State.takeFaultAs_memory (s : State) (die hub f dests num) : (s.takeFaultAs die hub f dests num).memory = s.memory := by
  simp [State.takeFaultAs]
@[simp] theorem State.takeFault_memory (s : State) (die hub f dests) : (s.takeFault die hub f dests).memory = s.memory := by
  simp [State.takeFault]
@[simp] theorem State.coreFaultAs_memory (s : State) (kind sub eng detail dests) : (s.coreFaultAs kind sub eng detail dests).memory = s.memory := by
  simp [State.coreFaultAs]
@[simp] theorem State.coreFault_memory (s : State) (kind sub dests) : (s.coreFault kind sub dests).memory = s.memory := by
  simp [State.coreFault]
@[simp] theorem State.sendBeat_memory (s : State) (n src dst slot mark lpos hub eng stream planes pois) : (s.sendBeat n src dst slot mark lpos hub eng stream planes pois).1.memory = s.memory := (rfl)
@[simp] theorem State.postOn_memory (s : State) (die at_ lpos hub eng a beat) : (s.postOn die at_ lpos hub eng a beat).memory = s.memory := (rfl)
@[simp] theorem State.request_memory (s : State) (die l a) : (s.request die l a).memory = s.memory := by
  unfold State.request; dsimp only; (repeat' split) <;> simp
@[simp] theorem State.inOrder_memory (s : State) (ch i a) : (s.inOrder ch i a).memory = s.memory := (rfl)
@[simp] theorem State.setModule_memory (s : State) (p m k) : (s.setModule p m k).memory = s.memory := (rfl)
@[simp] theorem State.beatOut_memory (s : State) (p m b) : (s.beatOut p m b).memory = s.memory := by
  unfold State.beatOut; split <;> simp
@[simp] theorem State.startTimer_memory (s : State) (p m) : (s.startTimer p m).memory = s.memory := by
  simp [State.startTimer]
@[simp] theorem State.sendOn_memory (s : State) (p m id) : (s.sendOn p m id).memory = s.memory := by
  simp [State.sendOn]
@[simp] theorem State.returnAck_memory (s : State) (p m) : (s.returnAck p m).memory = s.memory := by
  simp [State.returnAck]
@[simp] theorem State.forward_memory (s : State) (at_ id) : (s.forward at_ id).memory = s.memory := by
  unfold State.forward; dsimp only; (repeat' split) <;> simp
@[simp] theorem State.launch_memory (s : State) (from_ id p) : (s.launch from_ id p).memory = s.memory := by
  simp [State.launch]
@[simp] theorem State.send_memory (s : State) (p) : (s.send p).memory = s.memory := by
  simp [State.send]
@[simp] theorem State.sendQueued_memory (s : State) (p load store) : (s.sendQueued p load store).memory = s.memory := by
  simp [State.sendQueued]
@[simp] theorem State.sendWaiting_memory (s : State) (die hub) : (s.sendWaiting die hub).memory = s.memory := by
  unfold State.sendWaiting; refine State.foldl_memory _ (fun _ _ => ?_) _ _; simp
@[simp] theorem State.reply_memory (s : State) (id p) : (s.reply id p).memory = s.memory := by
  simp [State.reply]
@[simp] theorem State.loadDone_memory (s : State) (die hub id) : (s.loadDone die hub id).memory = s.memory := by
  simp [State.loadDone]
@[simp] theorem State.storeDone_memory (s : State) (die hub id) : (s.storeDone die hub id).memory = s.memory := by
  simp [State.storeDone]
@[simp] theorem State.loadSampled_memory (s : State) (die hub id) : (s.loadSampled die hub id).memory = s.memory := by
  simp [State.loadSampled]
@[simp] theorem State.deadline_memory (s : State) (id prom) : (s.deadline id prom).memory = s.memory := (rfl)
@[simp] theorem State.countedLoad_memory (s : State) (p store prom) : (s.countedLoad p store prom).memory = s.memory := by
  simp [State.countedLoad]
@[simp] theorem State.countedSlotOp_memory (s : State) (p prom) : (s.countedSlotOp p prom).memory = s.memory := by
  simp [State.countedSlotOp]
@[simp] theorem State.voidLoad_memory (s : State) (p prom) : (s.voidLoad p prom).memory = s.memory := (rfl)
@[simp] theorem aluOp_memory (s : State) (d a b l f) : (aluOp d a b l f s).memory = s.memory := (rfl)
@[simp] theorem aluImm_memory (s : State) (d a l f) : (aluImm d a l f s).memory = s.memory := (rfl)
@[simp] theorem aluCmp_memory (s : State) (d a b f) : (aluCmp d a b f s).memory = s.memory := (rfl)
@[simp] theorem heldByMark_memory (s : State) (i va vb vd) (k : State → State) (hk : ∀ s, (k s).memory = s.memory) :
    (heldByMark i va vb vd k s).memory = s.memory := by
  unfold heldByMark; split <;> simp [hk]
@[simp] theorem doLd_memory (s : State) (d z i x3) : (doLd d z i x3 s).memory = s.memory := by
  unfold doLd; dsimp only; (repeat' split) <;> simp
@[simp] theorem doLdx_memory (s : State) (d z i x3) : (doLdx d z i x3 s).memory = s.memory := by
  unfold doLdx; dsimp only; (repeat' split) <;> simp
@[simp] theorem endpointStore_memory (s : State) (x0 v) : (endpointStore x0 v s).memory = s.memory := by
  simp [endpointStore]
@[simp] theorem enqueue_memory (s : State) (e seg off) : (enqueue e seg off s).memory = s.memory := (rfl)
@[simp] theorem doGo_memory (s : State) (e seg off) : (doGo e seg off s).memory = s.memory := by
  simp [doGo]
@[simp] theorem takeReply_memory (s : State) (d) : (takeReply d s).memory = s.memory := by
  unfold takeReply; split <;> simp
@[simp] theorem takeTag_memory (s : State) (d) : (takeTag d s).memory = s.memory := by
  unfold takeTag; split <;> simp
@[simp] theorem State.retire_memory (s : State) (w c) : (s.retire w c).memory = s.memory := (rfl)
@[simp] theorem State.finishOp_memory (s : State) (die hub q n) : (s.finishOp die hub q n).memory = s.memory := (rfl)
@[simp] theorem State.issueOp_memory (s : State) : (s.issueOp).memory = s.memory := (rfl)
@[simp] theorem State.engFault_memory (s : State) (kind sub low w c dests) : (s.engFault kind sub low w c dests).memory = s.memory := by
  simp [State.engFault]
@[simp] theorem State.withTags_memory (s : State) (tags) : (s.withTags tags).memory = s.memory := (rfl)
@[simp] theorem State.setStride_memory (s : State) (die hub v) : (s.setStride die hub v).memory = s.memory := (rfl)
@[simp] theorem State.withdrawPhase_memory (s : State) (die hub) : (s.withdrawPhase die hub).memory = s.memory := (rfl)
@[simp] theorem State.closePhase_memory (s : State) (die hub) : (s.closePhase die hub).memory = s.memory := (rfl)
@[simp] theorem State.openPhase_memory (s : State) (die hub t pc sets) : (s.openPhase die hub t pc sets).memory = s.memory := (rfl)
@[simp] theorem State.withdrawSets_memory (s : State) (die hub t) : (s.withdrawSets die hub t).memory = s.memory := by
  simp [State.withdrawSets]
@[simp] theorem State.withdrawRefused_memory (s : State) (die) : (s.withdrawRefused die).memory = s.memory := by
  unfold State.withdrawRefused; refine State.foldl_memory _ (fun _ _ => ?_) _ _; (repeat' split) <;> simp
@[simp] theorem issuePhase_memory (s : State) (block) : (issuePhase block s).memory = s.memory := by
  simp [issuePhase]
@[simp] theorem State.pushReply_memory (s : State) (die hub e x4) : (s.pushReply die hub e x4).memory = s.memory := by
  unfold State.pushReply; dsimp only; (repeat' split) <;> simp
@[simp] theorem State.holdWord_memory (s : State) : (s.holdWord).memory = s.memory := (rfl)
@[simp] theorem State.scheduleRelease_memory (s : State) (part timed b) : (s.scheduleRelease part timed b).memory = s.memory := by
  unfold State.scheduleRelease; dsimp only
  split
  · exact State.foldl_memory _ (fun _ _ => by simp) _ _
  · simp
@[simp] theorem State.leaveBarriers_memory (s : State) (die hub a) : (s.leaveBarriers die hub a).memory = s.memory := by
  induction a generalizing s with
  | nil => rfl
  | cons x r ih => rw [State.leaveBarriers, ih]; (repeat' split) <;> simp
@[simp] theorem State.finishDone_memory (s : State) (die hub) : (s.finishDone die hub).memory = s.memory := by
  simp [State.finishDone]
@[simp] theorem doDone_memory (s : State) : (doDone s).memory = s.memory := by
  simp [doDone]
@[simp] theorem State.finishHalt_memory (s : State) (die hub) : (s.finishHalt die hub).memory = s.memory := by
  simp [State.finishHalt]
@[simp] theorem State.arrive_memory (s : State) (die hub level id) : (s.arrive die hub level id).memory = s.memory := by
  unfold State.arrive; dsimp only; (repeat' split) <;> simp
@[simp] theorem doFbind_memory (s : State) (g c) : (doFbind g c s).memory = s.memory := (rfl)
@[simp] theorem State.fabStage_memory (s : State) (f) : (s.fabStage f).memory = s.memory := (rfl)
@[simp] theorem State.fabResult_memory (s : State) (d v) : (s.fabResult d v).memory = s.memory := (rfl)
@[simp] theorem fabBinary_memory (s : State) (d a b f) : (fabBinary d a b f s).memory = s.memory := (rfl)
@[simp] theorem State.dieFault_memory (s : State) (p kind sub modl) : (s.dieFault p kind sub modl).memory = s.memory := by
  unfold State.dieFault; dsimp only; (repeat' split) <;> simp
@[simp] theorem State.announce_memory (s : State) (p m) : (s.announce p m).memory = s.memory := by
  unfold State.announce; refine State.foldl_memory _ (fun _ _ => ?_) _ _; (repeat' split) <;> simp
@[simp] theorem State.arm_memory (s : State) (p m adopt idle hub q) : (s.arm p m adopt idle hub q).memory = s.memory := by
  simp [State.arm]
@[simp] theorem stand_memory (s : State) (q a) : (stand q a s).memory = s.memory := by
  simp [stand]
@[simp] theorem State.setMsix_memory (s : State) (fn o b) : (s.setMsix fn o b).memory = s.memory := (rfl)
@[simp] theorem State.signal_memory (s : State) (fn vec) : (s.signal fn vec).memory = s.memory := by
  simp [State.signal]
@[simp] theorem State.interrupt_memory (s : State) (core cause) : (s.interrupt core cause).memory = s.memory := (rfl)
@[simp] theorem State.noteFault_memory (s : State) (slot kind) : (s.noteFault slot kind).memory = s.memory := (rfl)
@[simp] theorem State.faultSlot_memory (s : State) (slot) : (s.faultSlot slot).memory = s.memory := by
  simp [State.faultSlot]
@[simp] theorem State.setQreg_memory (s : State) (q x2) : (s.setQreg q x2).memory = s.memory := (rfl)
@[simp] theorem State.setPend_memory (s : State) (q b) : (s.setPend q b).memory = s.memory := (rfl)
@[simp] theorem State.kickPort_memory (s : State) (pos m) : (s.kickPort pos m).memory = s.memory := by
  simp [State.kickPort]
@[simp] theorem State.queueFlit_memory (s : State) (pos m f) : (s.queueFlit pos m f).memory = s.memory := by
  simp [State.queueFlit]
@[simp] theorem State.sendFlit_memory (s : State) (pos f) : (s.sendFlit pos f).memory = s.memory := by
  unfold State.sendFlit; split <;> simp
@[simp] theorem State.putFlit_memory (s : State) (pos m p f) : (s.putFlit pos m p f).memory = s.memory := (rfl)
@[simp] theorem State.flitTimer_memory (s : State) (pos m) : (s.flitTimer pos m).memory = s.memory := by
  simp [State.flitTimer]
@[simp] theorem State.sendControl_memory (s : State) (pos kind c num mine r) : (s.sendControl pos kind c num mine r).memory = s.memory := by
  simp [State.sendControl]
@[simp] theorem State.abortLost_memory (s : State) (pos f) : (s.abortLost pos f).memory = s.memory := by
  unfold State.abortLost; split <;> simp
@[simp] theorem State.linkError_memory (s : State) (pos m) : (s.linkError pos m).memory = s.memory := by
  unfold State.linkError; dsimp only
  rw [State.foldl_memory _ (fun _ _ => by simp), State.foldl_memory _ (fun _ _ => by simp)]; simp
@[simp] theorem State.resend_memory (s : State) (pos m) : (s.resend pos m).memory = s.memory := by
  simp [State.resend]
@[simp] theorem State.beginOp_memory (s : State) (pos c num) : (s.beginOp pos c num).1.memory = s.memory := by
  unfold State.beginOp; dsimp only; (repeat' split) <;> simp
@[simp] theorem State.sendData_memory (s : State) (pos c num mine r q a x8) : (s.sendData pos c num mine r q a x8).memory = s.memory := by
  induction a generalizing s q x8 with
  | zero => simp [State.sendData]
  | succ n ih => cases x8 <;> simp [State.sendData, ih]
@[simp] theorem State.sendResult_memory (s : State) (pos c num mine r q w) : (s.sendResult pos c num mine r q w).memory = s.memory := by
  simp [State.sendResult]
@[simp] theorem State.spreadShards_memory (s : State) (pos c a) : (s.spreadShards pos c a).memory = s.memory := by
  induction a generalizing s with
  | nil => rfl
  | cons x r ih => rw [State.spreadShards, ih]; (repeat' split) <;> simp
@[simp] theorem State.endOp_memory (s : State) (pos c status) : (s.endOp pos c status).memory = s.memory := by
  simp [State.endOp]
@[simp] theorem State.suppressed_memory (s : State) (pos c) : (s.suppressed pos c).memory = s.memory := by
  simp [State.suppressed]
@[simp] theorem State.finishColl_memory (s : State) (pos c) : (s.finishColl pos c).memory = s.memory := by
  unfold State.finishColl; dsimp only; (repeat' split) <;> simp
@[simp] theorem State.collReady_memory (s : State) (pos c) : (s.collReady pos c).memory = s.memory := by
  unfold State.collReady; dsimp only; (repeat' split) <;> simp
@[simp] theorem State.deliverTo_memory (s : State) (pos part p) : (s.deliverTo pos part p).memory = s.memory := by
  unfold State.deliverTo; split <;> simp
@[simp] theorem State.takeWord_memory (s : State) (pos m c w) : (s.takeWord pos m c w).memory = s.memory := by
  unfold State.takeWord; dsimp only; (repeat' split) <;> simp
@[simp] theorem State.dataWords_memory (s : State) (pos m c num rank q a) : (s.dataWords pos m c num rank q a).memory = s.memory := by
  induction a generalizing s pos m c num rank q with
  | nil => rfl
  | cons x r ih => rw [State.dataWords, ih]; simp
@[simp] theorem State.resultWords_memory (s : State) (pos c rank q ws) : (s.resultWords pos c rank q ws).memory = s.memory := by
  unfold State.resultWords; dsimp only; (repeat' split) <;> simp
@[simp] theorem State.flitAct_memory (s : State) (pos m f) : (s.flitAct pos m f).memory = s.memory := by
  unfold State.flitAct; dsimp only
  (repeat' split) <;> simp
@[simp] theorem State.restartOp_memory (s : State) (pos r o) : (s.restartOp pos r o).memory = s.memory := by
  simp [State.restartOp]
@[simp] theorem doAmo_memory (s : State) (op d z x3 y e) : (doAmo op d z x3 y e s).memory = s.memory := by
  unfold doAmo; dsimp only; (repeat' split) <;> simp
@[simp] theorem amo_memory (s : State) (i op d a b z) : (amo i op d a b z s).memory = s.memory := by
  simp [amo]
@[simp] theorem State.atCore_memory (s : State) : (s.atCore).memory = s.memory := (rfl)
@[simp] theorem runHeld_memory (a : State) (x0) : (runHeld x0 a).memory = a.memory := by
  rcases x0 with ⟨i, va, vb, vd⟩
  unfold runHeld
  cases i with
  | ld | ldx | amoAdd | amoAnd | amoOr | amoXor | amoMin | amoMax | amoMinu | amoMaxu | amoXchg | amoFadd | cas => simp
  | _ => rfl
@[simp] theorem State.releaseHubs_memory (s : State) (b timed a) : (s.releaseHubs b timed a).memory = s.memory := by
  induction a generalizing s with
  | nil => rfl
  | cons x r ih => rw [State.releaseHubs, ih]; (repeat' split) <;> simp
@[simp] theorem State.takeItem_memory (s : State) (die hub t) : (s.takeItem die hub t).memory = s.memory := by
  simp [State.takeItem]
@[simp] theorem State.holdArray_memory (s : State) (l die a) : (s.holdArray l die a).memory = s.memory := by
  simp [State.holdArray]
@[simp] theorem State.holdArrays_memory (s : State) (l teams) : (s.holdArrays l teams).memory = s.memory := by
  exact State.foldl_memory _ (fun _ _ => State.foldl_memory _ (fun _ _ => by simp) _ _) _ _
@[simp] theorem State.freeArrays_memory (s : State) (l) : (s.freeArrays l).memory = s.memory := (rfl)
@[simp] theorem State.closePhases_memory (s : State) (part qid keys) : (s.closePhases part qid keys).memory = s.memory := (rfl)
@[simp] theorem State.settleTk_memory (s : State) : (s.settleTk).memory = s.memory := (rfl)
@[simp] theorem State.freePaceline_memory (s : State) (n) : (s.freePaceline n).memory = s.memory := (rfl)
@[simp] theorem State.takePaceline_memory (s : State) (n slot) : (s.takePaceline n slot).memory = s.memory := (rfl)
@[simp] theorem State.zeroShift_memory (s : State) (n) : (s.zeroShift n).memory = s.memory := (rfl)
@[simp] theorem State.leaveHubs_memory (s : State) (slot r keep) : (s.leaveHubs slot r keep).memory = s.memory := by
  simp [State.leaveHubs]
@[simp] theorem State.endHold_memory (s : State) (l) : (s.endHold l).memory = s.memory := by
  simp [State.endHold]
@[simp] theorem State.discardLaunch_memory (s : State) (slot r) : (s.discardLaunch slot r).memory = s.memory := by
  simp [State.discardLaunch]
@[simp] theorem State.discardSaved_memory (s : State) (part v) : (s.discardSaved part v).memory = s.memory := (rfl)
@[simp] theorem vecWord_memory (s : State) (tan ety m l ds f) : (vecWord tan ety m l ds f s).memory = s.memory := by
  simp [vecWord]
@[simp] theorem State.endOpAt_memory (s : State) (l q n) : (s.endOpAt l q n).memory = s.memory := (rfl)
@[simp] theorem State.setCurArr_memory (s : State) (x1) : (s.setCurArr x1).memory = s.memory := (rfl)
@[simp] theorem State.abandonSteps_memory (s : State) (die hub) : (s.abandonSteps die hub).memory = s.memory := (rfl)
@[simp] theorem matFault_memory (s : State) (kind sub acc w c) : (matFault kind sub acc w c s).memory = s.memory := by
  simp [matFault]
@[simp] theorem State.stepFault_memory (s : State) (t sub row) : (s.stepFault t sub row).memory = s.memory := by
  simp [State.stepFault]
@[simp] theorem State.matAt_memory (s : State) (t at_ x3) : (s.matAt t at_ x3).memory = s.memory := (rfl)
@[simp] theorem State.enterRow_memory (s : State) (t i) : (s.enterRow t i).memory = s.memory := by
  unfold State.enterRow; dsimp only; (repeat' split) <;> simp
@[simp] theorem State.enterRows_memory (s : State) (t i a) : (s.enterRows t i a).memory = s.memory := by
  induction a generalizing s i with
  | zero => rfl
  | succ n ih => unfold State.enterRows; split <;> simp [ih]
@[simp] theorem State.sampleRow_memory (s : State) (t i plane scales) : (s.sampleRow t i plane scales).memory = s.memory := by
  simp [State.sampleRow]
@[simp] theorem State.writeRow_memory (s : State) (t i plane scales rows pois) : (s.writeRow t i plane scales rows pois).memory = s.memory := by
  simp [State.writeRow]
@[simp] theorem startStep_memory (s : State) (t) : (startStep t s).memory = s.memory := by
  simp [startStep]
@[simp] theorem State.drainOut_memory (s : State) (t i delay vals pois k) : (s.drainOut t i delay vals pois k).memory = s.memory := (rfl)
@[simp] theorem State.drainRow_memory (s : State) (t i) : (s.drainRow t i).memory = s.memory := by
  simp [State.drainRow]
@[simp] theorem State.drainScale_memory (s : State) (t i vals pois) : (s.drainScale t i vals pois).memory = s.memory := by
  simp [State.drainScale]
@[simp] theorem State.loadSample_memory (s : State) (t j) : (s.loadSample t j).memory = s.memory := by
  simp [State.loadSample]
@[simp] theorem State.loadWrite_memory (s : State) (t j bs pois) : (s.loadWrite t j bs pois).memory = s.memory := by
  simp [State.loadWrite]
@[simp] theorem State.mdSample_memory (s : State) (t n) : (s.mdSample t n).memory = s.memory := by
  simp [State.mdSample]
@[simp] theorem State.mdWrite_memory (s : State) (t n bs pois) : (s.mdWrite t n bs pois).memory = s.memory := (rfl)
@[simp] theorem State.scqSample_memory (s : State) (t n) : (s.scqSample t n).memory = s.memory := by
  simp [State.scqSample]
@[simp] theorem State.scqPush_memory (s : State) (t es) : (s.scqPush t es).memory = s.memory := by
  simp [State.scqPush]
@[simp] theorem State.setRun_memory (s : State) (slot r) : (s.setRun slot r).memory = s.memory := (rfl)
@[simp] theorem State.schedule_memory (s : State) (slot r t j) : (s.schedule slot r t j).memory = s.memory := by
  simp [State.schedule]
@[simp] theorem State.takeAll_memory (s : State) (die t a) : (s.takeAll die t a).memory = s.memory := by
  induction a generalizing s die t with
  | nil => rfl
  | cons x r ih => rw [State.takeAll, ih]; simp
@[simp] theorem State.endItem_memory (s : State) (r t) : (s.endItem r t).memory = s.memory := (rfl)
@[simp] theorem State.missStart_memory (s : State) (r die hub ord) : (s.missStart r die hub ord).memory = s.memory := by
  simp [State.missStart]
@[simp] theorem State.listFault_memory (s : State) (r t die hub f) : (s.listFault r t die hub f).memory = s.memory := by
  simp [State.listFault]
@[simp] theorem State.listEcc_memory (s : State) (r t places) : (s.listEcc r t places).memory = s.memory := by
  simp [State.listEcc]
@[simp] theorem State.entryRead_memory (s : State) (r t) : (s.entryRead r t).memory = s.memory := by
  simp [State.entryRead]
@[simp] theorem State.tableRead_memory (s : State) (r) : (s.tableRead r).memory = s.memory := by
  unfold State.tableRead; split
  · exact State.foldl_memory _ (fun _ _ => by simp) _ _
  · rfl
@[simp] theorem State.itemRead_memory (s : State) (r t j) : (s.itemRead r t j).memory = s.memory := by
  simp [State.itemRead]
@[simp] theorem State.place_memory (s : State) (slot t) : (s.place slot t).memory = s.memory := by
  unfold State.place; split <;> simp
@[simp] theorem State.placeAll_memory (s : State) (slot a) : (s.placeAll slot a).memory = s.memory := by
  induction a generalizing s slot with
  | nil => rfl
  | cons x r ih => rw [State.placeAll, ih]; simp
@[simp] theorem State.startTimed_memory (s : State) (slot r) : (s.startTimed slot r).memory = s.memory := by
  unfold State.startTimed; refine State.foldl_memory _ (fun _ _ => ?_) _ _; simp
@[simp] theorem State.startRun_memory (s : State) (slot r) : (s.startRun slot r).memory = s.memory := by
  simp [State.startRun]
@[simp] theorem State.standStill_memory (s : State) (die hub ref quiet) : (s.standStill die hub ref quiet).memory = s.memory := by
  simp [State.standStill]
@[simp] theorem State.standAll_memory (s : State) (quiet ref a) : (s.standAll quiet ref a).memory = s.memory := by
  induction a generalizing s with
  | nil => rfl
  | cons x r ih => rw [State.standAll, ih]; (repeat' split) <;> simp
@[simp] theorem State.replaySteps_memory (s : State) (die hub a x4) : (s.replaySteps die hub a x4).memory = s.memory := by
  induction x4 generalizing s a with
  | nil => simp [State.replaySteps]
  | cons x r ih => rw [State.replaySteps, ih]; simp
@[simp] theorem State.rephase_memory (s : State) (die hub ref) : (s.rephase die hub ref).memory = s.memory := by
  unfold State.rephase; dsimp only; (repeat' split) <;> simp
@[simp] theorem State.resumeHub_memory (s : State) (die hub ref) : (s.resumeHub die hub ref).memory = s.memory := by
  simp [State.resumeHub]
@[simp] theorem State.resumeAll_memory (s : State) (ref a) : (s.resumeAll ref a).memory = s.memory := by
  induction a generalizing s with
  | nil => rfl
  | cons x r ih => rw [State.resumeAll, ih]; (repeat' split) <;> simp
@[simp] theorem State.rebar_memory (s : State) (slot part timed) : (s.rebar slot part timed).memory = s.memory := by
  unfold State.rebar; refine State.foldl_memory _ (fun _ _ => ?_) _ _; simp
@[simp] theorem State.releaseAll_memory (s : State) (n w) : (s.releaseAll n w).memory = s.memory := (rfl)
@[simp] theorem State.settleLoads_memory (s : State) (a) : (s.settleLoads a).memory = s.memory := by
  induction a generalizing s with
  | nil => rfl
  | cons x r ih => rw [State.settleLoads, ih]; (repeat' split) <;> simp
@[simp] theorem State.extendDev_memory (s : State) (i bs) : (s.extendDev i bs).memory = s.memory := (rfl)
@[simp] theorem State.extendPart_memory (s : State) (part i bs) : (s.extendPart part i bs).memory = s.memory := (rfl)
@[simp] theorem State.installKey_memory (s : State) (part) : (s.installKey part).memory = s.memory := (rfl)
@[simp] theorem State.respond_memory (s : State) (fn ws) : (s.respond fn ws).memory = s.memory := by
  simp [State.respond]
@[simp] theorem State.dropLaunch_memory (s : State) (slot) : (s.dropLaunch slot).memory = s.memory := by
  unfold State.dropLaunch; dsimp only; (repeat' split) <;> simp
@[simp] theorem State.holdMembers_memory (s : State) (part) : (s.holdMembers part).memory = s.memory := (rfl)
@[simp] theorem State.endCollectives_memory (s : State) (part) : (s.endCollectives part).memory = s.memory := (rfl)
@[simp] theorem State.stopPart_memory (s : State) (part) : (s.stopPart part).memory = s.memory := by
  unfold State.stopPart; dsimp only; split
  · rfl
  · simp; exact State.foldl_memory _ (fun _ _ => by simp) _ _
@[simp] theorem State.setQcb_memory (s : State) (slot f) : (s.setQcb slot f).memory = s.memory := (rfl)
@[simp] theorem State.wake_memory (s : State) (q part) : (s.wake q part).memory = s.memory := by
  simp [State.wake]
@[simp] theorem State.wakeDies_memory (s : State) : (s.wakeDies).memory = s.memory := by
  simp [State.wakeDies]
@[simp] theorem State.wakeDevice_memory (s : State) : (s.wakeDevice).memory = s.memory := by
  simp [State.wakeDevice]
@[simp] theorem State.setHold_memory (s : State) (slot b) : (s.setHold slot b).memory = s.memory := by
  simp [State.setHold]
@[simp] theorem State.slotErr_memory (s : State) (slot e) : (s.slotErr slot e).memory = s.memory := (rfl)
@[simp] theorem State.kicksFirst_memory (s : State) (q i) : (s.kicksFirst q i).memory = s.memory := (rfl)
@[simp] theorem State.raise_memory (s : State) (i a) : (s.raise i a).memory = s.memory := (rfl)
@[simp] theorem State.strike_memory (s : State) (i a) : (s.strike i a).memory = s.memory := (rfl)
@[simp] theorem State.writeFrctl_memory (s : State) (part v mask) : (s.writeFrctl part v mask).memory = s.memory := by
  simp [State.writeFrctl]
@[simp] theorem State.writePart_memory (s : State) (part o v mask fw vf) : (s.writePart part o v mask fw vf).memory = s.memory := by
  simp [State.writePart]
@[simp] theorem State.writeMsix_memory (s : State) (fn o v mask) : (s.writeMsix fn o v mask).memory = s.memory := by
  unfold State.writeMsix; dsimp only
  have h : ∀ (l : List (Byte × ℕ)) s, (l.foldl (fun (s : State) b => s.setMsix fn (o + b.2) b.1) s).memory = s.memory :=
    State.foldl_memory _ (fun _ _ => by simp)
  (repeat' split) <;> simp [h]
@[simp] theorem State.writeFirmware_memory (s : State) (o v mask) : (s.writeFirmware o v mask).memory = s.memory := by
  unfold State.writeFirmware; dsimp only
  split
  · (repeat' split) <;> simp
  · split
    · split <;> simp
    · split
      · exact State.mk_memory s ..
      · split <;> simp
@[simp] theorem State.refuseAccess_memory (s : State) (bar) : (s.refuseAccess bar).memory = s.memory := (rfl)
@[simp] theorem State.serve_memory (s : State) (fn) : (s.serve fn).memory = s.memory := by
  unfold State.serve; (repeat' split) <;> simp
@[simp] theorem State.romServe_memory (s : State) : (s.romServe).memory = s.memory := by
  unfold State.romServe; split <;> simp
@[simp] theorem State.paceRound_memory (s : State) (p) : (s.paceRound p).memory = s.memory := by
  simp [State.paceRound]
@[simp] theorem State.sendSample_memory (s : State) (p m) : (s.sendSample p m).memory = s.memory := by
  unfold State.sendSample; split <;> simp
@[simp] theorem State.sendScheduled_memory (s : State) (p m) : (s.sendScheduled p m).memory = s.memory := by
  simp [State.sendScheduled]
@[simp] theorem State.sendRiding_memory (s : State) (p m) : (s.sendRiding p m).memory = s.memory := by
  unfold State.sendRiding; split <;> simp
@[simp] theorem State.sendCounted_memory (s : State) (p m) : (s.sendCounted p m).memory = s.memory := by
  unfold State.sendCounted; refine State.foldl_memory _ (fun _ _ => ?_) _ _; simp
@[simp] theorem State.sendFrame_memory (s : State) (p m) : (s.sendFrame p m).memory = s.memory := by
  simp [State.sendFrame]
@[simp] theorem State.dissolve_memory (s : State) (n) : (s.dissolve n).memory = s.memory := (rfl)
@[simp] theorem State.enterVendor_memory (s : State) : (s.enterVendor).memory = s.memory := by
  simp [State.enterVendor]
@[simp] theorem State.clearHolds_memory (s : State) (part) : (s.clearHolds part).memory = s.memory := by
  unfold State.clearHolds; dsimp only; (repeat' split) <;> simp [State.foldl_memory]
@[simp] theorem State.unlink_memory (s : State) (p m) : (s.unlink p m).memory = s.memory := by
  unfold State.unlink; split <;> simp
@[simp] theorem State.retrainFrom_memory (s : State) (pos a) : (s.retrainFrom pos a).memory = s.memory := by
  induction a generalizing s with
  | nil => rfl
  | cons x r ih => rw [State.retrainFrom, ih]; (repeat' split) <;> simp
@[simp] theorem State.enrol_memory (s : State) (n p) : (s.enrol n p).memory = s.memory := (rfl)
@[simp] theorem State.formNext_memory (s : State) (n stage pos) : (s.formNext n stage pos).memory = s.memory := (rfl)
@[simp] theorem State.abortPaceline_memory (s : State) (n) : (s.abortPaceline n).memory = s.memory := by
  unfold State.abortPaceline; (repeat' split) <;> simp
@[simp] theorem State.clearHalt_memory (s : State) (n) : (s.clearHalt n).memory = s.memory := by
  unfold State.clearHalt; split <;> simp
@[simp] theorem State.setImage_memory (s : State) (q b) : (s.setImage q b).memory = s.memory := (rfl)
@[simp] theorem State.editQcb_memory (s : State) (q f) : (s.editQcb q f).memory = s.memory := by
  unfold State.editQcb; split <;> simp
@[simp] theorem State.emptySlot_memory (s : State) (n) : (s.emptySlot n).memory = s.memory := (rfl)
@[simp] theorem State.dropStopped_memory (s : State) (q) : (s.dropStopped q).memory = s.memory := (rfl)
@[simp] theorem State.answerNow_memory (s : State) (ws) : (s.answerNow ws).memory = s.memory := by
  simp [State.answerNow]
@[simp] theorem State.boot_memory (s : State) (f) : (s.boot f).memory = s.memory := by
  simp [State.boot]
@[simp] theorem State.stage_memory (s : State) (n) : (s.stage n).memory = s.memory := by
  simp [State.stage]
@[simp] theorem State.startFirmware_memory (s : State) (h) : (s.startFirmware h).memory = s.memory := by
  simp [State.startFirmware]
@[simp] theorem State.bootImage_memory (s : State) (n) : (s.bootImage n).memory = s.memory := by
  simp [State.bootImage]
@[simp] theorem State.startClocks_memory (s : State) : (s.startClocks).memory = s.memory := by
  exact State.mk_memory s ..
@[simp] theorem State.trainLinks_memory (s : State) : (s.trainLinks).memory = s.memory := by
  unfold State.trainLinks; refine State.foldl_memory _ (fun _ _ => ?_) _ _; simp
@[simp] theorem State.runRom_memory (s : State) (n) : (s.runRom n).memory = s.memory := by
  simp [State.runRom]
@[simp] theorem State.orderCoast_memory (s : State) (n) : (s.orderCoast n).memory = s.memory := by
  unfold State.orderCoast; dsimp only
  split
  · rfl
  · split
    · rfl
    · rw [State.foldl_memory _ (fun _ _ => by split <;> simp)]; simp
@[simp] theorem State.coastAlone_memory (s : State) (p) : (s.coastAlone p).memory = s.memory := by
  simp [State.coastAlone]
@[simp] theorem State.orderLevels_memory (s : State) : (s.orderLevels).memory = s.memory := by
  unfold State.orderLevels
  rw [State.foldl_memory _ (fun _ _ => by simp), State.foldl_memory _ (fun _ _ => by simp)]
@[simp] theorem State.evalDie_memory (s : State) (p) : (s.evalDie p).1.memory = s.memory := (rfl)
@[simp] theorem State.setIslands_memory (s : State) (p) : (s.setIslands p).memory = s.memory := by
  unfold State.setIslands; refine State.foldl_memory _ (fun _ _ => ?_) _ _; simp
@[simp] theorem State.evalDies_memory (s : State) (a) : (s.evalDies a).1.memory = s.memory := by
  induction a generalizing s with
  | nil => rfl
  | cons d r ih => simp [State.evalDies, ih]
@[simp] theorem State.tripIf_memory (s : State) (b) : (s.tripIf b).memory = s.memory := by
  simp [State.tripIf]
@[simp] theorem State.remeasure_memory (s : State) (part) : (s.remeasure part).memory = s.memory := by
  simp [State.remeasure]
@[simp] theorem State.gateDies_memory (s : State) (b) : (s.gateDies b).memory = s.memory := (rfl)
@[simp] theorem State.answerDog_memory (s : State) (n) : (s.answerDog n).memory = s.memory := by
  unfold State.answerDog; dsimp only; (repeat' split) <;> simp
@[simp] theorem State.readyImage_memory (s : State) (part q) : (s.readyImage part q).memory = s.memory := by
  simp [State.readyImage]
@[simp] theorem State.mapInto_memory (s : State) (part q n) : (s.mapInto part q n).memory = s.memory := by
  simp [State.mapInto]
@[simp] theorem State.swapInto_memory (s : State) (part q n) : (s.swapInto part q n).memory = s.memory := by
  simp [State.swapInto]
@[simp] theorem State.mapQueues_memory (s : State) (part) : (s.mapQueues part).memory = s.memory := by
  unfold State.mapQueues; dsimp only; (repeat' split) <;> simp
@[simp] theorem State.settleReset_memory (s : State) (part) : (s.settleReset part).memory = s.memory := by
  simp [State.settleReset]
@[simp] theorem State.firmware_memory (s : State) : (s.firmware).memory = s.memory := by
  unfold State.firmware; dsimp only; split
  · rfl
  · rw [State.foldl_memory _ (fun _ _ => by simp), State.foldl_memory _ (fun _ _ => by simp)]; rfl
@[simp] theorem fpWord_memory (s : State) (op n l d a b e m rm) : (fpWord op n l d a b e m rm s).memory = s.memory := by
  simp [fpWord]
@[simp] theorem minmaxWord_memory (s : State) (max d a b m) : (minmaxWord max d a b m s).memory = s.memory := by
  simp [minmaxWord]
@[simp] theorem extremeWord_memory (s : State) (max d a m) : (extremeWord max d a m s).memory = s.memory := by
  simp [extremeWord]
@[simp] theorem State.drFault_memory (s : State) (die hub kind sub reg num) : (s.drFault die hub kind sub reg num).memory = s.memory := by
  simp [State.drFault]
@[simp] theorem drStart_memory (s : State) (i p head) : (drStart i p head s).memory = s.memory := by
  unfold drStart; dsimp only; (repeat' split) <;> simp
@[simp] theorem State.drWrites_memory (s : State) (die hub e base a) : (s.drWrites die hub e base a).memory = s.memory := by
  induction a generalizing s with
  | nil => rfl
  | cons x r ih => rw [State.drWrites, ih]; simp
@[simp] theorem State.landDraft_memory (s : State) (die x2) : (s.landDraft die x2).memory = s.memory := by
  unfold State.landDraft; split <;> simp
@[simp] theorem State.landPush_memory (s : State) (die hub x3 issue) : (s.landPush die hub x3 issue).memory = s.memory := by
  unfold State.landPush; dsimp only; (repeat' split) <;> simp
@[simp] theorem State.landPort_memory (s : State) (die hub c) : (s.landPort die hub c).memory = s.memory := (rfl)
@[simp] theorem State.ixAt_memory (s : State) (die hub at_ x4) : (s.ixAt die hub at_ x4).memory = s.memory := (rfl)
@[simp] theorem State.ixNext_memory (s : State) (die hub) : (s.ixNext die hub).memory = s.memory := by
  unfold State.ixNext; dsimp only; (repeat' split) <;> simp
@[simp] theorem State.ixBlock_memory (s : State) (die hub issue) : (s.ixBlock die hub issue).memory = s.memory := by
  unfold State.ixBlock; dsimp only; (repeat' split) <;> simp
@[simp] theorem State.ixFirst_memory (s : State) (die hub r) : (s.ixFirst die hub r).memory = s.memory := by
  simp [State.ixFirst]
@[simp] theorem State.ixOperands_memory (s : State) (die hub) : (s.ixOperands die hub).memory = s.memory := by
  unfold State.ixOperands; dsimp only; (repeat' split) <;> simp
@[simp] theorem State.ixSample_memory (s : State) (die hub j) : (s.ixSample die hub j).memory = s.memory := by
  unfold State.ixSample; dsimp only; (repeat' split) <;> simp
@[simp] theorem State.xfAt_memory (s : State) (t at_ x3) : (s.xfAt t at_ x3).memory = s.memory := (rfl)
@[simp] theorem State.xfEnd_memory (s : State) (t) : (s.xfEnd t).memory = s.memory := by
  unfold State.xfEnd; split <;> simp
@[simp] theorem State.xfPiece_memory (s : State) (t) : (s.xfPiece t).memory = s.memory := by
  simp [State.xfPiece]
@[simp] theorem State.xfFault_memory (s : State) (t kind sub low) : (s.xfFault t kind sub low).memory = s.memory := by
  simp [State.xfFault]
@[simp] theorem State.xfOccupy_memory (s : State) (die hub eng last) : (s.xfOccupy die hub eng last).memory = s.memory := (rfl)
@[simp] theorem State.xfStart_memory (s : State) (t) : (s.xfStart t).memory = s.memory := by
  simp [State.xfStart]
@[simp] theorem State.xfDesc_memory (s : State) (die hub eng op e issue seg idx w) : (s.xfDesc die hub eng op e issue seg idx w).memory = s.memory := by
  unfold State.xfDesc
  extract_lets h size a n bs t s1
  have h1 : s1.memory = s.memory := by simp [s1]
  split
  · simp [h1]
  · split
    · simp [h1]
    · split
      · simp [h1]
      · split
        · simp [h1]
        · dsimp only
          split <;> simp [h1]
@[simp] theorem State.xfDrop_memory (s : State) (t) : (s.xfDrop t).memory = s.memory := (rfl)
@[simp] theorem State.xfData_memory (s : State) (t c planes pois) : (s.xfData t c planes pois).memory = s.memory := by
  simp [State.xfData]
@[simp] theorem State.xfChunk_memory (s : State) (t c) : (s.xfChunk t c).memory = s.memory := by
  simp [State.xfChunk]
@[simp] theorem State.xfFailed_memory (s : State) (t d) : (s.xfFailed t d).memory = s.memory := (rfl)
@[simp] theorem State.xfSend_memory (s : State) (t c i d planes pois) : (s.xfSend t c i d planes pois).memory = s.memory := by
  simp [State.xfSend]
@[simp] theorem State.xfContribute_memory (s : State) (t c bytes) : (s.xfContribute t c bytes).memory = s.memory := by
  simp [State.xfContribute]
@[simp] theorem State.unstage_memory (s : State) (t) : (s.unstage t).memory = s.memory := (rfl)
@[simp] theorem State.xfUnzipRead_memory (s : State) (t) : (s.xfUnzipRead t).memory = s.memory := by
  simp [State.xfUnzipRead]
@[simp] theorem State.xfBeat_memory (s : State) (t b) : (s.xfBeat t b).memory = s.memory := by
  simp [State.xfBeat]
@[simp] theorem State.xfPut_memory (s : State) (t b planes pois) : (s.xfPut t b planes pois).memory = s.memory := by
  unfold State.xfPut; dsimp only; split <;> simp
@[simp] theorem State.xfTake_memory (s : State) (t b) : (s.xfTake t b).memory = s.memory := by
  unfold State.xfTake; dsimp only; (repeat' split) <;> simp
@[simp] theorem xfWord_memory (s : State) (op e) : (xfWord op e s).memory = s.memory := by
  simp [xfWord]
@[simp] theorem State.multicastRecord_memory (s : State) (die hub eng fs) : (s.multicastRecord die hub eng fs).memory = s.memory := by
  simp [State.multicastRecord]
@[simp] theorem xlate_memory (s : State) (h a wr) : (xlate h a wr s).memory = s.memory := by
  unfold xlate; dsimp only; (repeat' split) <;> simp
@[simp] theorem State.slotTable_memory (s : State) (q) : (s.slotTable q).1.memory = s.memory := by
  unfold State.slotTable; dsimp only; (repeat' split) <;> simp
@[simp] theorem slotInstr_memory (s : State) (op d x2 y) : (slotInstr op d x2 y s).memory = s.memory := by
  unfold slotInstr; dsimp only; (repeat' split) <;> simp
@[simp] theorem State.hubDo_memory (s : State) (die hub f) : (s.hubDo die hub f).memory = s.memory := (rfl)
@[simp] theorem State.replyReg_memory (s : State) (d die hub at_ act p) : (s.replyReg d die hub at_ act p).memory = s.memory := by
  unfold State.replyReg; dsimp only; (repeat' split) <;> simp
@[simp] theorem State.landSample_memory (s : State) (d a n x4) : (s.landSample d a n x4).memory = s.memory := by
  unfold State.landSample; split <;> simp
@[simp] theorem State.landPhase_memory (s : State) (die hub x3 t pc tags) : (s.landPhase die hub x3 t pc tags).memory = s.memory := by
  unfold State.landPhase; split <;> simp
@[simp] theorem State.refusePhase_memory (s : State) (ph c) : (s.refusePhase ph c).memory = s.memory := by
  simp [State.refusePhase]
@[simp] theorem State.landOpen_memory (s : State) (die hub t pc) : (s.landOpen die hub t pc).memory = s.memory := by
  unfold State.landOpen; dsimp only; (repeat' split) <;> simp [State.foldl_memory]
@[simp] theorem State.setBeat_memory (s : State) (b) : (s.setBeat b).memory = s.memory := (rfl)
@[simp] theorem State.landHop_memory (s : State) (id) : (s.landHop id).memory = s.memory := by
  unfold State.landHop; (repeat' split) <;> simp
@[simp] theorem State.landLost_memory (s : State) (d) : (s.landLost d).memory = s.memory := by
  unfold State.landLost; split <;> simp
@[simp] theorem State.unpost_memory (s : State) (d) : (s.unpost d).memory = s.memory := (rfl)
@[simp] theorem State.badWord_memory (s : State) (w x2) : (s.badWord w x2).memory = s.memory := by
  simp [State.badWord]
@[simp] theorem State.endFabrics_memory (s : State) : (s.endFabrics).memory = s.memory := by
  unfold State.endFabrics; refine State.foldl_memory _ (fun _ _ => ?_) _ _; (repeat' split) <;> simp
@[simp] theorem State.endHub_memory (s : State) (e) : (s.endHub e).memory = s.memory := by
  unfold State.endHub; dsimp only
  repeat' split
  all_goals simp
  all_goals exact State.foldl_memory _ (fun _ _ => by simp) _ _
@[simp] theorem State.endPulse_memory (s : State) : (s.endPulse).memory = s.memory := by
  unfold State.endPulse; dsimp only; simp
  rw [State.foldl_memory _ (fun _ _ => by simp)]; simp
@[simp] theorem State.dogTick_memory (s : State) (n) : (s.dogTick n).memory = s.memory := by
  unfold State.dogTick; dsimp only; (repeat' split) <;> simp
@[simp] theorem State.usTick_memory (s : State) : (s.usTick).memory = s.memory := by
  have h : ∀ (l : List ℕ) s, (l.foldl (fun (s : State) n => s.dogTick n) s).memory = s.memory :=
    State.foldl_memory _ (fun _ _ => by simp)
  unfold State.usTick; dsimp only
  (repeat' split) <;> simp [h]
@[simp] theorem State.arrivals_memory (s : State) (a) : (s.arrivals a).memory = s.memory := by
  induction a generalizing s with
  | nil => rfl
  | cons x r ih => rw [State.arrivals, ih]; (repeat' split) <;> simp
@[simp] theorem State.placeWord_memory (s : State) (w x2) : (s.placeWord w x2).memory = s.memory := by
  unfold State.placeWord; split <;> simp
@[simp] theorem branchTo_memory (s : State) (hint o taken) : (branchTo hint o taken s).memory = s.memory := by
  simp [branchTo]
@[simp] theorem State.batchFault_memory (s : State) (part f) : (s.batchFault part f).memory = s.memory := by
  simp [State.batchFault]
@[simp] theorem State.refuse_memory (s : State) (id p) : (s.refuse id p).memory = s.memory := by
  simp [State.refuse]
@[simp] theorem State.hbmRecord_memory (s : State) (p) : (s.hbmRecord p).memory = s.memory := (rfl)
@[simp] theorem State.replyHere_memory (s : State) (id p) : (s.replyHere id p).memory = s.memory := by
  simp [State.replyHere]
@[simp] theorem State.loadResult_memory (s : State) (p v bad) : (s.loadResult p v bad).memory = s.memory := by
  simp [State.loadResult]
@[simp] theorem State.xfReply_memory (s : State) (t c p) : (s.xfReply t c p).memory = s.memory := by
  simp [State.xfReply]
@[simp] theorem State.setResponder_memory (s : State) (fn x2) : (s.setResponder fn x2).memory = s.memory := (rfl)
@[simp] theorem State.sendSpdm_memory (s : State) (fn body) : (s.sendSpdm fn body).memory = s.memory := (rfl)
@[simp] theorem State.spdmWith_memory (s : State) (r extra f) : (s.spdmWith r extra f).memory = s.memory := by
  simp [State.spdmWith]
@[simp] theorem State.spdmStep_memory (s : State) (r f) : (s.spdmStep r f).memory = s.memory := by
  simp [State.spdmStep]
@[simp] theorem State.dropXlat_memory (s : State) (part bad) : (s.dropXlat part bad).memory = s.memory := (rfl)
@[simp] theorem State.shootHub_memory (s : State) (part die hub pasid va size) : (s.shootHub part die hub pasid va size).memory = s.memory := (rfl)
@[simp] theorem State.shotHub_memory (s : State) (part die hub n c) : (s.shotHub part die hub n c).memory = s.memory := by
  simp [State.shotHub]
@[simp] theorem fpOp_memory (s : State) (d a b f) : (fpOp d a b f s).memory = s.memory := (rfl)
@[simp] theorem fpCmp_memory (s : State) (d a b f) : (fpCmp d a b f s).memory = s.memory := (rfl)
@[simp] theorem intWord_memory (s : State) (ety f d a b m) : (intWord ety f d a b m s).memory = s.memory := by
  simp [intWord]
@[simp] theorem cmpWord_memory (s : State) (rel d a b m) : (cmpWord rel d a b m s).memory = s.memory := by
  unfold cmpWord; dsimp only; (repeat' split) <;> simp
@[simp] theorem maskWord_memory (s : State) (d a b f) : (maskWord d a b f s).memory = s.memory := by
  simp [maskWord]
@[simp] theorem permWord_memory (s : State) (f d a m) : (permWord f d a m s).memory = s.memory := by
  simp [permWord]
@[simp] theorem setShape_memory (s : State) (x0) : (setShape x0 s).memory = s.memory := (rfl)
@[simp] theorem State.withFetchWord_memory (s : State) (nbits w) : (s.withFetchWord nbits w).memory = s.memory := by
  simp [State.withFetchWord]
@[simp] theorem afterCore_memory (s : State) (l a d) : (afterCore s l a d).memory = s.memory := (rfl)
@[simp] theorem afterPlain_memory (s : State) (d) : (afterPlain s d).memory = s.memory := (rfl)
@[simp] theorem afterJump_memory (s : State) (pc d) : (afterJump s pc d).memory = s.memory := (rfl)
@[simp] theorem afterWait_memory (s : State) (w) : (afterWait s w).memory = s.memory := (rfl)
@[simp] theorem afterWords_memory (s : State) (l a w c) : (afterWords s l a w c).memory = s.memory := (rfl)
@[simp] theorem afterWord_memory (s : State) (l a) : (afterWord s l a).memory = s.memory := (rfl)
@[simp] theorem afterSlots_memory (s : State) (c) : (afterSlots s c).memory = s.memory := (rfl)
end Sys2Proof.Machine
end

section
/-! SUPPORT. The instructions and events that leave memory as it is: one lemma for each whose meaning has cases. -/

namespace Sys2Proof.Machine

open Sys2Proof

/-- The outcome `r` leaves the memory of `s` as it is, where it brings a state at all. -/
def KeepsMemory (s : State) (r : Res) : Prop := ∀ t, r = .next t → t.memory = s.memory
@[simp] theorem keepsMemory_next (s t : State) : KeepsMemory s (.next t) ↔ t.memory = s.memory :=
  ⟨fun h => h t rfl, fun h _ ht => by cases ht; exact h⟩
@[simp] theorem keepsMemory_fault (s : State) (f) : KeepsMemory s (.fault f) := fun _ h => by cases h
@[simp] theorem keepsMemory_refused (s : State) (f) : KeepsMemory s (.refused f) := fun _ h => by cases h
@[simp] theorem keepsMemory_answer (s t : State) (fn ws) : KeepsMemory s (t.answer fn ws) ↔ t.memory = s.memory := by
  simp [State.answer]
theorem keepsMemory_serveVf (s : State) (ms : List Nat) (f : State → Nat → Res) (hf : ∀ fn, KeepsMemory s (f s fn)) :
    KeepsMemory s (s.serveVf ms f) := by
  unfold State.serveVf; dsimp only; split <;> simp [hf]
theorem keepsMemory_servePf (s : State) (ms : List Nat) (f : State → Res) (hf : KeepsMemory s (f s)) :
    KeepsMemory s (s.servePf ms f) := by
  unfold State.servePf; split <;> simp [hf]
@[simp] theorem execSel_memory (s : State) (d a b p) : KeepsMemory s (execSel d a b p s) := by
  simp [execSel]
@[simp] theorem execSxv_memory (s : State) (d a) : KeepsMemory s (execSxv d a s) := by
  unfold execSxv; split <;> simp
@[simp] theorem execVxs_memory (s : State) (d a b) : KeepsMemory s (execVxs d a b s) := by
  unfold execVxs; dsimp only; (repeat' split) <;> simp
@[simp] theorem execLd_memory (s : State) (d a z i) : KeepsMemory s (execLd d a z i s) := by
  simp [execLd]
@[simp] theorem execSt_memory (s : State) (d a z i) : KeepsMemory s (execSt d a z i s) := by
  unfold execSt; dsimp only; (repeat' split) <;> simp
@[simp] theorem execLdx_memory (s : State) (d a z i) : KeepsMemory s (execLdx d a z i s) := by
  simp [execLdx]
@[simp] theorem execStx_memory (s : State) (d a z i) : KeepsMemory s (execStx d a z i s) := by
  unfold execStx; dsimp only; (repeat' split) <;> simp
@[simp] theorem execGo_memory (s : State) (e g t) : KeepsMemory s (execGo e g t s) := by
  unfold execGo; split <;> simp
@[simp] theorem execTlwait_memory (s : State) (d q i) : KeepsMemory s (execTlwait d q i s) := by
  unfold execTlwait; dsimp only; (repeat' split) <;> simp
@[simp] theorem execTlreadFail_memory (s : State) (d q) : KeepsMemory s (execTlreadFail d q s) := by
  simp [execTlreadFail]
@[simp] theorem execPhase_memory (s : State) (a i) : KeepsMemory s (execPhase a i s) := by
  unfold execPhase; dsimp only; (repeat' split) <;> simp
@[simp] theorem execReplyPortEntry_memory (s : State) : KeepsMemory s (execReplyPortEntry s) := by
  unfold execReplyPortEntry; dsimp only; (repeat' split) <;> simp
@[simp] theorem execWid_memory (s : State) (d i) : KeepsMemory s (execWid d i s) := by
  simp [execWid]
@[simp] theorem execCsrw_memory (s : State) (k a) : KeepsMemory s (execCsrw k a s) := by
  unfold execCsrw; dsimp only; (repeat' split) <;> simp
@[simp] theorem execMark_memory (s : State) : KeepsMemory s (execMark s) := by
  simp [execMark]
@[simp] theorem execFence_memory (s : State) (sc) : KeepsMemory s (execFence sc s) := by
  unfold execFence; dsimp only; (repeat' split) <;> simp
@[simp] theorem execTrap_memory (s : State) (k) : KeepsMemory s (execTrap k s) := by
  unfold execTrap; dsimp only; (repeat' split) <;> simp
@[simp] theorem execDone_memory (s : State) : KeepsMemory s (execDone s) := by
  simp [execDone]
@[simp] theorem execHalt_memory (s : State) : KeepsMemory s (execHalt s) := by
  simp [execHalt]
@[simp] theorem execCad_memory (s : State) (d) : KeepsMemory s (execCad d s) := by
  simp [execCad]
@[simp] theorem execTick_memory (s : State) (k a) : KeepsMemory s (execTick k a s) := by
  unfold execTick; dsimp only; (repeat' split) <;> simp
@[simp] theorem execBar_memory (s : State) (l i) : KeepsMemory s (execBar l i s) := by
  unfold execBar; split <;> simp
@[simp] theorem execFload_memory (s : State) (g t) : KeepsMemory s (execFload g t s) := by
  unfold execFload; dsimp only; (repeat' split) <;> simp
@[simp] theorem execFbind_memory (s : State) (g c) : KeepsMemory s (execFbind g c s) := by
  unfold execFbind; dsimp only; (repeat' split) <;> simp
@[simp] theorem execFcmp_memory (s : State) (d a b c) : KeepsMemory s (execFcmp d a b c s) := by
  simp [execFcmp]
@[simp] theorem execFsel_memory (s : State) (d a b c) : KeepsMemory s (execFsel d a b c s) := by
  simp [execFsel]
@[simp] theorem execFacc_memory (s : State) (d a) : KeepsMemory s (execFacc d a s) := by
  simp [execFacc]
@[simp] theorem execFroute_memory (s : State) (a m) : KeepsMemory s (execFroute a m s) := by
  simp [execFroute]
@[simp] theorem execFtake_memory (s : State) (d) : KeepsMemory s (execFtake d s) := by
  simp [execFtake]
@[simp] theorem execFemit_memory (s : State) (a) : KeepsMemory s (execFemit a s) := by
  simp [execFemit]
@[simp] theorem execFloopb_memory (s : State) (t c f) : KeepsMemory s (execFloopb t c f s) := by
  simp [execFloopb]
@[simp] theorem execFcvt_memory (s : State) (d a f t p) : KeepsMemory s (execFcvt d a f t p s) := by
  simp [execFcvt]
@[simp] theorem execFzip_memory (s : State) (d a b) : KeepsMemory s (execFzip d a b s) := by
  simp [execFzip]
@[simp] theorem execFunzip_memory (s : State) (d a h) : KeepsMemory s (execFunzip d a h s) := by
  simp [execFunzip]
@[simp] theorem execStandAdoption_memory (s : State) : KeepsMemory s (execStandAdoption s) := by
  unfold execStandAdoption; dsimp only; (repeat' split) <;> simp
@[simp] theorem execStandLeadCheck_memory (s : State) : KeepsMemory s (execStandLeadCheck s) := by
  unfold execStandLeadCheck; dsimp only; (repeat' split) <;> simp
@[simp] theorem execStandHold_memory (s : State) : KeepsMemory s (execStandHold s) := by
  unfold execStandHold; dsimp only; (repeat' split) <;> simp [State.foldl_memory]
@[simp] theorem execStandResume_memory (s : State) : KeepsMemory s (execStandResume s) := by
  unfold execStandResume; dsimp only; (repeat' split) <;> simp
@[simp] theorem execIdleStandArm_memory (s : State) : KeepsMemory s (execIdleStandArm s) := by
  unfold execIdleStandArm; split <;> simp
@[simp] theorem execFlitTransmit_memory (s : State) : KeepsMemory s (execFlitTransmit s) := by
  unfold execFlitTransmit; dsimp only; (repeat' split) <;> simp
@[simp] theorem execFlitRetryTimeout_memory (s : State) : KeepsMemory s (execFlitRetryTimeout s) := by
  unfold execFlitRetryTimeout; dsimp only; (repeat' split) <;> simp
@[simp] theorem execLongLinkTrained_memory (s : State) : KeepsMemory s (execLongLinkTrained s) := by
  simp [execLongLinkTrained]
@[simp] theorem execEuzinFlitReceive_memory (s : State) : KeepsMemory s (execEuzinFlitReceive s) := by
  unfold execEuzinFlitReceive; dsimp only; (repeat' split) <;> simp
@[simp] theorem execEndpointPacket_memory (s : State) : KeepsMemory s (execEndpointPacket s) := by
  unfold execEndpointPacket; dsimp only; (repeat' split) <;> simp
@[simp] theorem execRanktabWrite_memory (s : State) : KeepsMemory s (execRanktabWrite s) := by
  unfold execRanktabWrite; dsimp only; simp [State.foldl_memory]
@[simp] theorem execCollectiveContribution_memory (s : State) : KeepsMemory s (execCollectiveContribution s) := by
  unfold execCollectiveContribution; dsimp only; (repeat' split) <;> simp
@[simp] theorem execReady_memory (s : State) : KeepsMemory s (execReady s) := by
  unfold execReady; dsimp only; (repeat' split) <;> simp
@[simp] theorem execCommit_memory (s : State) : KeepsMemory s (execCommit s) := by
  unfold execCommit; dsimp only
  split
  · simp
  · split
    · simp
    · have hr : ∀ o r (l : List (Nat × W64)) t, (l.foldl (fun (t : State) (w : Nat × W64) =>
          t.sendResult s.arg.pos s.arg.n o (ctxMine ((s.xdie s.arg.pos).context s.arg.n)) r w.1 w.2) t).memory = t.memory :=
        fun _ _ => State.foldl_memory _ (fun _ _ => by simp)
      split <;> split <;> simp [State.foldl_memory, hr]
@[simp] theorem execAbort_memory (s : State) : KeepsMemory s (execAbort s) := by
  unfold execAbort; dsimp only; (repeat' split) <;> simp [State.foldl_memory]
@[simp] theorem execCollectiveTimeLimit_memory (s : State) : KeepsMemory s (execCollectiveTimeLimit s) := by
  unfold execCollectiveTimeLimit; dsimp only; (repeat' split) <;> simp
@[simp] theorem execCas_memory (s : State) (d a b z) : KeepsMemory s (execCas d a b z s) := by
  simp [execCas]
@[simp] theorem execSegmentStart_memory (s : State) : KeepsMemory s (execSegmentStart s) := by
  unfold execSegmentStart; dsimp only; (repeat' split) <;> simp
@[simp] theorem execStoreMarkClose_memory (s : State) : KeepsMemory s (execStoreMarkClose s) := by
  unfold execStoreMarkClose; dsimp only; (repeat' split) <;> simp
@[simp] theorem execFenceEnd_memory (s : State) : KeepsMemory s (execFenceEnd s) := by
  unfold execFenceEnd; dsimp only; (repeat' split) <;> simp
@[simp] theorem execTlwaitEnd_memory (s : State) : KeepsMemory s (execTlwaitEnd s) := by
  unfold execTlwaitEnd; dsimp only; (repeat' split) <;> simp
@[simp] theorem execTickExpiry_memory (s : State) : KeepsMemory s (execTickExpiry s) := by
  unfold execTickExpiry; dsimp only; (repeat' split) <;> simp
@[simp] theorem execPopTake_memory (s : State) : KeepsMemory s (execPopTake s) := by
  unfold execPopTake; dsimp only; (repeat' split) <;> simp
@[simp] theorem execBarrierRelease_memory (s : State) : KeepsMemory s (execBarrierRelease s) := by
  unfold execBarrierRelease; dsimp only; (repeat' split) <;> simp
@[simp] theorem execPhaseDirectoryAnswer_memory (s : State) : KeepsMemory s (execPhaseDirectoryAnswer s) := by
  unfold execPhaseDirectoryAnswer; dsimp only; (repeat' split) <;> simp
@[simp] theorem execVcvt_memory (s : State) (d a t o m r) : KeepsMemory s (execVcvt d a t o m r s) := by
  simp [execVcvt]
@[simp] theorem execVpack_memory (s : State) (d a f e r) : KeepsMemory s (execVpack d a f e r s) := by
  simp [execVpack]
@[simp] theorem execVunpack_memory (s : State) (d a f e) : KeepsMemory s (execVunpack d a f e s) := by
  simp [execVunpack]
@[simp] theorem execVprune24_memory (s : State) (d a b m) : KeepsMemory s (execVprune24 d a b m s) := by
  simp [execVprune24]
@[simp] theorem execVld_memory (s : State) (d a o) : KeepsMemory s (execVld d a o s) := by
  unfold execVld; dsimp only; (repeat' split) <;> simp
@[simp] theorem execVst_memory (s : State) (d a o) : KeepsMemory s (execVst d a o s) := by
  unfold execVst; dsimp only; (repeat' split) <;> simp
@[simp] theorem execMatrixStepCommit_memory (s : State) : KeepsMemory s (execMatrixStepCommit s) := by
  unfold execMatrixStepCommit; dsimp only; (repeat' split) <;> simp
@[simp] theorem execMmode_memory (s : State) (x0 a w) : KeepsMemory s (execMmode x0 a w s) := by
  unfold execMmode; split <;> simp
@[simp] theorem execMscmode_memory (s : State) (m) : KeepsMemory s (execMscmode m s) := by
  simp [execMscmode]
@[simp] theorem execMzero_memory (s : State) (n) : KeepsMemory s (execMzero n s) := by
  unfold execMzero; split <;> simp
@[simp] theorem execMswap_memory (s : State) : KeepsMemory s (execMswap s) := by
  unfold execMswap; split <;> simp
@[simp] theorem execMloadw_memory (s : State) (e) : KeepsMemory s (execMloadw e s) := by
  unfold execMloadw; dsimp only; (repeat' split) <;> simp
@[simp] theorem execMmeta_memory (s : State) (n e) : KeepsMemory s (execMmeta n e s) := by
  unfold execMmeta; split <;> simp
@[simp] theorem execMscq_memory (s : State) (n e) : KeepsMemory s (execMscq n e s) := by
  unfold execMscq; dsimp only; (repeat' split) <;> simp
@[simp] theorem execMrun_memory (s : State) (n r t e) : KeepsMemory s (execMrun n r t e s) := by
  unfold execMrun; dsimp only; (repeat' split) <;> simp
@[simp] theorem execMrunS_memory (s : State) (n r m t e) : KeepsMemory s (execMrunS n r m t e s) := by
  unfold execMrunS; dsimp only; (repeat' split) <;> simp
@[simp] theorem execMdrain_memory (s : State) (n r0 r f t e) : KeepsMemory s (execMdrain n r0 r f t e s) := by
  unfold execMdrain; dsimp only; (repeat' split) <;> simp
@[simp] theorem execItemStart_memory (s : State) : KeepsMemory s (execItemStart s) := by
  unfold execItemStart; dsimp only; (repeat' split) <;> simp
@[simp] theorem execItemEnd_memory (s : State) : KeepsMemory s (execItemEnd s) := by
  unfold execItemEnd; (repeat' split) <;> simp
@[simp] theorem execLaunchAbort_memory (s : State) : KeepsMemory s (execLaunchAbort s) := by
  unfold execLaunchAbort; dsimp only; (repeat' split) <;> simp
@[simp] theorem execCountedResume_memory (s : State) : KeepsMemory s (execCountedResume s) := by
  unfold execCountedResume; dsimp only; (repeat' split) <;> simp
@[simp] theorem execTimedResume_memory (s : State) : KeepsMemory s (execTimedResume s) := by
  unfold execTimedResume; dsimp only
  split
  · simp
  · split
    · simp only [keepsMemory_next, State.rebar_memory]
      rw [State.foldl_memory _ (fun _ _ => by simp)]; simp
    · simp
@[simp] theorem execAgeingTick_memory (s : State) : KeepsMemory s (execAgeingTick s) := by
  unfold execAgeingTick; dsimp only; simp [State.foldl_memory]
@[simp] theorem execDoorbellKick_memory (s : State) : KeepsMemory s (execDoorbellKick s) := by
  unfold execDoorbellKick; dsimp only; (repeat' split) <;> simp
@[simp] theorem execSlotSave_memory (s : State) : KeepsMemory s (execSlotSave s) := by
  unfold execSlotSave; dsimp only; (repeat' split) <;> simp
@[simp] theorem execSlotRestore_memory (s : State) : KeepsMemory s (execSlotRestore s) := by
  unfold execSlotRestore; dsimp only; (repeat' split) <;> simp
@[simp] theorem execMailboxGo_memory (s : State) : KeepsMemory s (execMailboxGo s) := by
  unfold execMailboxGo; dsimp only; (repeat' split) <;> simp
@[simp] theorem execMailboxDone_memory (s : State) : KeepsMemory s (execMailboxDone s) := by
  unfold execMailboxDone; dsimp only; (repeat' split) <;> simp
@[simp] theorem execLinkTrainingDone_memory (s : State) : KeepsMemory s (execLinkTrainingDone s) := by
  unfold execLinkTrainingDone; dsimp only; (repeat' split) <;> simp
@[simp] theorem execFrameTransmit_memory (s : State) : KeepsMemory s (execFrameTransmit s) := by
  unfold execFrameTransmit; dsimp only
  rw [keepsMemory_next, State.foldl_memory _ (fun _ _ => by simp)]; split <;> simp
@[simp] theorem execBadFrame_memory (s : State) : KeepsMemory s (execBadFrame s) := by
  unfold execBadFrame; split <;> simp
@[simp] theorem execCountedBeatReceive_memory (s : State) : KeepsMemory s (execCountedBeatReceive s) := by
  unfold execCountedBeatReceive; dsimp only; (repeat' split) <;> simp
@[simp] theorem execCountedRetryTimeout_memory (s : State) : KeepsMemory s (execCountedRetryTimeout s) := by
  unfold execCountedRetryTimeout; dsimp only; (repeat' split) <;> simp
@[simp] theorem execPartitionScrubDone_memory (s : State) : KeepsMemory s (execPartitionScrubDone s) := by
  unfold execPartitionScrubDone; dsimp only
  (repeat' split) <;> simp [State.foldl_memory]
@[simp] theorem execPartitionResetDone_memory (s : State) : KeepsMemory s (execPartitionResetDone s) := by
  unfold execPartitionResetDone; dsimp only
  (repeat' split) <;> simp [State.foldl_memory]
@[simp] theorem execLdmapLock_memory (s : State) : KeepsMemory s (execLdmapLock s) := by
  unfold execLdmapLock; dsimp only; (repeat' split) <;> simp
@[simp] theorem execPacelineForm_memory (s : State) : KeepsMemory s (execPacelineForm s) := by
  unfold execPacelineForm; dsimp only; (repeat' split) <;> simp [State.foldl_memory]
@[simp] theorem execPacelineDissolve_memory (s : State) : KeepsMemory s (execPacelineDissolve s) := by
  unfold execPacelineDissolve; dsimp only; (repeat' split) <;> simp
@[simp] theorem execSampleReceive_memory (s : State) : KeepsMemory s (execSampleReceive s) := by
  unfold execSampleReceive; dsimp only; (repeat' split) <;> simp
@[simp] theorem execSubminReceive_memory (s : State) : KeepsMemory s (execSubminReceive s) := by
  simp [execSubminReceive]
@[simp] theorem execDownReceive_memory (s : State) : KeepsMemory s (execDownReceive s) := by
  unfold execDownReceive; dsimp only; (repeat' split) <;> simp
@[simp] theorem execCoastReceive_memory (s : State) : KeepsMemory s (execCoastReceive s) := by
  unfold execCoastReceive; dsimp only; (repeat' split) <;> simp
@[simp] theorem execCoastApply_memory (s : State) : KeepsMemory s (execCoastApply s) := by
  unfold execCoastApply; dsimp only; (repeat' split) <;> simp
@[simp] theorem execHaltFrameReceive_memory (s : State) : KeepsMemory s (execHaltFrameReceive s) := by
  unfold execHaltFrameReceive; dsimp only; (repeat' split) <;> simp
@[simp] theorem execPacelineHold_memory (s : State) : KeepsMemory s (execPacelineHold s) := by
  unfold execPacelineHold; dsimp only; (repeat' split) <;> simp
@[simp] theorem execPacelineRelease_memory (s : State) : KeepsMemory s (execPacelineRelease s) := by
  unfold execPacelineRelease; dsimp only; (repeat' split) <;> simp
@[simp] theorem execPacelineAbort_memory (s : State) : KeepsMemory s (execPacelineAbort s) := by
  unfold execPacelineAbort; dsimp only; (repeat' split) <;> simp
@[simp] theorem execReleaseFrameReceive_memory (s : State) : KeepsMemory s (execReleaseFrameReceive s) := by
  unfold execReleaseFrameReceive; dsimp only; (repeat' split) <;> simp [State.foldl_memory]
@[simp] theorem execQcreate_memory (s : State) : KeepsMemory s (execQcreate s) := by
  refine keepsMemory_serveVf _ _ _ fun fn => ?_
  dsimp only; (repeat' split) <;> simp
@[simp] theorem execQdestroy_memory (s : State) : KeepsMemory s (execQdestroy s) := by
  refine keepsMemory_serveVf _ _ _ fun fn => ?_
  dsimp only; (repeat' split) <;> simp
@[simp] theorem execQrestart_memory (s : State) : KeepsMemory s (execQrestart s) := by
  refine keepsMemory_serveVf _ _ _ fun fn => ?_
  dsimp only; (repeat' split) <;> simp
@[simp] theorem execQstat_memory (s : State) : KeepsMemory s (execQstat s) := by
  refine keepsMemory_serveVf _ _ _ fun fn => ?_
  dsimp only; (repeat' split) <;> simp
@[simp] theorem execQprio_memory (s : State) : KeepsMemory s (execQprio s) := by
  refine keepsMemory_serveVf _ _ _ fun fn => ?_
  dsimp only; (repeat' split) <;> simp
@[simp] theorem execPsuspend_memory (s : State) : KeepsMemory s (execPsuspend s) := by
  refine keepsMemory_serveVf _ _ _ (fun fn => ?_)
  simp [State.foldl_memory]
@[simp] theorem execPsuspendResponse_memory (s : State) : KeepsMemory s (execPsuspendResponse s) := by
  unfold execPsuspendResponse; dsimp only; (repeat' split) <;> simp
@[simp] theorem execPresume_memory (s : State) : KeepsMemory s (execPresume s) := by
  refine keepsMemory_serveVf _ _ _ (fun fn => ?_)
  simp [State.foldl_memory]
@[simp] theorem execPconfig_memory (s : State) : KeepsMemory s (execPconfig s) := by
  refine keepsMemory_servePf _ _ _ ?_
  dsimp only
  split
  · simp
  · split
    · simp
    · split
      case h_1 t ht => simpa using execLdmapLock_memory _ t ht
      case h_2 hr => exact fun t ht => absurd ht (hr t)
@[simp] theorem execPaceform_memory (s : State) : KeepsMemory s (execPaceform s) := by
  refine keepsMemory_servePf _ _ _ ?_
  dsimp only
  split
  · simp
  · split
    case h_1 t ht =>
      rw [keepsMemory_answer]
      refine (execPacelineForm_memory _ t ht).trans ?_
      split <;> rfl
    case h_2 hr => exact fun t ht => absurd ht (hr t)
@[simp] theorem execSched_memory (s : State) : KeepsMemory s (execSched s) := by
  refine keepsMemory_servePf _ _ _ ?_
  dsimp only; simp
@[simp] theorem execFirmwareFirstReport_memory (s : State) : KeepsMemory s (execFirmwareFirstReport s) := by
  unfold execFirmwareFirstReport; dsimp only
  split
  · simp
  · rw [keepsMemory_next, State.foldl_memory _ (fun _ _ => by split <;> simp)]; split <;> simp
@[simp] theorem execPowerLimitEvaluation_memory (s : State) : KeepsMemory s (execPowerLimitEvaluation s) := by
  simp [execPowerLimitEvaluation]
@[simp] theorem execVcoreCurrentEvaluation_memory (s : State) : KeepsMemory s (execVcoreCurrentEvaluation s) := by
  simp [execVcoreCurrentEvaluation]
@[simp] theorem execIdleRetainEntry_memory (s : State) : KeepsMemory s (execIdleRetainEntry s) := by
  unfold execIdleRetainEntry; (repeat' split) <;> simp
@[simp] theorem execWakeFromIdle_memory (s : State) : KeepsMemory s (execWakeFromIdle s) := by
  unfold execWakeFromIdle; split <;> simp
@[simp] theorem execVrsum_memory (s : State) (d a m) : KeepsMemory s (execVrsum d a m s) := by
  simp [execVrsum]
@[simp] theorem execVscan_memory (s : State) (d a m) : KeepsMemory s (execVscan d a m s) := by
  simp [execVscan]
@[simp] theorem execVargmax_memory (s : State) (d a m) : KeepsMemory s (execVargmax d a m s) := by
  simp [execVargmax]
@[simp] theorem execVpopnz_memory (s : State) (d a m) : KeepsMemory s (execVpopnz d a m s) := by
  simp [execVpopnz]
@[simp] theorem execVnzmap_memory (s : State) (d a m) : KeepsMemory s (execVnzmap d a m s) := by
  simp [execVnzmap]
@[simp] theorem execDraftingCommandStart_memory (s : State) : KeepsMemory s (execDraftingCommandStart s) := by
  unfold execDraftingCommandStart; dsimp only; (repeat' split) <;> simp
@[simp] theorem execDmatch_memory (s : State) (d m u r p e) : KeepsMemory s (execDmatch d m u r p e s) := by
  simp [execDmatch]
@[simp] theorem execDmerge_memory (s : State) (m w e) : KeepsMemory s (execDmerge m w e s) := by
  simp [execDmerge]
@[simp] theorem execDunmerge_memory (s : State) (m w e) : KeepsMemory s (execDunmerge m w e s) := by
  simp [execDunmerge]
@[simp] theorem execDcompose_memory (s : State) (d a b) : KeepsMemory s (execDcompose d a b s) := by
  simp [execDcompose]
@[simp] theorem execDsizes_memory (s : State) (m e) : KeepsMemory s (execDsizes m e s) := by
  simp [execDsizes]
@[simp] theorem execDsave_memory (s : State) (m e) : KeepsMemory s (execDsave m e s) := by
  simp [execDsave]
@[simp] theorem execDload_memory (s : State) (m e) : KeepsMemory s (execDload m e s) := by
  unfold execDload; dsimp only; (repeat' split) <;> simp
@[simp] theorem execDraftingCommandEnd_memory (s : State) : KeepsMemory s (execDraftingCommandEnd s) := by
  unfold execDraftingCommandEnd; dsimp only; (repeat' split) <;> simp
@[simp] theorem execIndexCommandStart_memory (s : State) : KeepsMemory s (execIndexCommandStart s) := by
  unfold execIndexCommandStart; dsimp only; (repeat' split) <;> simp
@[simp] theorem execIndexCommandEnd_memory (s : State) : KeepsMemory s (execIndexCommandEnd s) := by
  unfold execIndexCommandEnd; dsimp only; (repeat' split) <;> simp
@[simp] theorem execXfnop_memory (s : State) (n) : KeepsMemory s (execXfnop n s) := by
  unfold execXfnop; split <;> simp
@[simp] theorem execTransferWordEnd_memory (s : State) : KeepsMemory s (execTransferWordEnd s) := by
  unfold execTransferWordEnd; dsimp only; (repeat' split) <;> simp
@[simp] theorem execTimedBeatDelivery_memory (s : State) : KeepsMemory s (execTimedBeatDelivery s) := by
  unfold execTimedBeatDelivery; dsimp only; (repeat' split) <;> simp
@[simp] theorem execBr_memory (s : State) (c h a o) : KeepsMemory s (execBr c h a o s) := by
  unfold execBr; dsimp only; (repeat' split) <;> simp
@[simp] theorem execLoop_memory (s : State) (l a o) : KeepsMemory s (execLoop l a o s) := by
  unfold execLoop; dsimp only; (repeat' split) <;> simp
@[simp] theorem execRet_memory (s : State) : KeepsMemory s (execRet s) := by
  unfold execRet; dsimp only; (repeat' split) <;> simp
@[simp] theorem execFrtailWrite_memory (s : State) : KeepsMemory s (execFrtailWrite s) := by
  unfold execFrtailWrite; dsimp only; (repeat' split) <;> simp
@[simp] theorem execFaultRingEnable_memory (s : State) : KeepsMemory s (execFaultRingEnable s) := by
  unfold execFaultRingEnable; dsimp only; (repeat' split) <;> simp
@[simp] theorem execReadRequest_memory (s : State) : KeepsMemory s (execReadRequest s) := by
  unfold execReadRequest; dsimp only; (repeat' split) <;> simp
@[simp] theorem execControlSpaceRead_memory (s : State) : KeepsMemory s (execControlSpaceRead s) := by
  unfold execControlSpaceRead; dsimp only; (repeat' split) <;> simp
@[simp] theorem execFenceMarker_memory (s : State) : KeepsMemory s (execFenceMarker s) := by
  unfold execFenceMarker; dsimp only; (repeat' split) <;> simp
@[simp] theorem execReadReply_memory (s : State) : KeepsMemory s (execReadReply s) := by
  unfold execReadReply; dsimp only; (repeat' split) <;> simp
@[simp] theorem execAtomicReply_memory (s : State) : KeepsMemory s (execAtomicReply s) := by
  unfold execAtomicReply; dsimp only; (repeat' split) <;> simp
@[simp] theorem execWriteAcknowledgement_memory (s : State) : KeepsMemory s (execWriteAcknowledgement s) := by
  unfold execWriteAcknowledgement; dsimp only; (repeat' split) <;> simp
@[simp] theorem execCountedReplyDeadline_memory (s : State) : KeepsMemory s (execCountedReplyDeadline s) := by
  unfold execCountedReplyDeadline; dsimp only; (repeat' split) <;> simp
@[simp] theorem execGetCertificate_memory (s : State) : KeepsMemory s (execGetCertificate s) := by
  unfold execGetCertificate; dsimp only; (repeat' split) <;> simp
@[simp] theorem execChallenge_memory (s : State) : KeepsMemory s (execChallenge s) := by
  unfold execChallenge; dsimp only; (repeat' split) <;> simp
@[simp] theorem execGetMeasurements_memory (s : State) : KeepsMemory s (execGetMeasurements s) := by
  unfold execGetMeasurements; dsimp only; (repeat' split) <;> simp
@[simp] theorem execVendorDefinedRequest_memory (s : State) : KeepsMemory s (execVendorDefinedRequest s) := by
  unfold execVendorDefinedRequest; dsimp only; (repeat' split) <;> simp
@[simp] theorem execIdeKm_memory (s : State) : KeepsMemory s (execIdeKm s) := by
  unfold execIdeKm; dsimp only; (repeat' split) <;> simp
@[simp] theorem execTdispLockInterface_memory (s : State) : KeepsMemory s (execTdispLockInterface s) := by
  unfold execTdispLockInterface; (repeat' split) <;> simp
@[simp] theorem execTdispStartInterface_memory (s : State) : KeepsMemory s (execTdispStartInterface s) := by
  unfold execTdispStartInterface; (repeat' split) <;> simp
@[simp] theorem execTdispStopInterface_memory (s : State) : KeepsMemory s (execTdispStopInterface s) := by
  unfold execTdispStopInterface; split <;> simp
@[simp] theorem execTranslationFillRequest_memory (s : State) : KeepsMemory s (execTranslationFillRequest s) := by
  unfold execTranslationFillRequest; dsimp only; (repeat' split) <;> simp
@[simp] theorem execTranslationFillReply_memory (s : State) : KeepsMemory s (execTranslationFillReply s) := by
  unfold execTranslationFillReply; dsimp only; (repeat' split) <;> simp
@[simp] theorem execXlinvShootdown_memory (s : State) : KeepsMemory s (execXlinvShootdown s) := by
  unfold execXlinvShootdown; dsimp only; (repeat' split) <;> simp [State.foldl_memory]
@[simp] theorem execShootdown_memory (s : State) : KeepsMemory s (execShootdown s) := by
  unfold execShootdown; dsimp only; (repeat' split) <;> simp
@[simp] theorem execXlretry_memory (s : State) : KeepsMemory s (execXlretry s) := by
  simp [execXlretry]
@[simp] theorem execVimin_memory (s : State) (d a b m) : KeepsMemory s (execVimin d a b m s) := by
  simp [execVimin]
@[simp] theorem execVimax_memory (s : State) (d a b m) : KeepsMemory s (execVimax d a b m s) := by
  simp [execVimax]
@[simp] theorem execVsel_memory (s : State) (d a b c m) : KeepsMemory s (execVsel d a b c m s) := by
  simp [execVsel]
@[simp] theorem execVslide_memory (s : State) (d a b m) : KeepsMemory s (execVslide d a b m s) := by
  simp [execVslide]
@[simp] theorem execVrand_memory (s : State) (d a b m) : KeepsMemory s (execVrand d a b m s) := by
  simp [execVrand]
@[simp] theorem execVtget_memory (s : State) (d a b m) : KeepsMemory s (execVtget d a b m s) := by
  simp [execVtget]
@[simp] theorem execVtset_memory (s : State) (d a b m) : KeepsMemory s (execVtset d a b m s) := by
  simp [execVtset]
@[simp] theorem execShape_memory (s : State) (t f g l) : KeepsMemory s (execShape t f g l s) := by
  unfold execShape; split <;> simp
@[simp] theorem execShaper_memory (s : State) (a) : KeepsMemory s (execShaper a s) := by
  unfold execShaper; dsimp only; (repeat' split) <;> simp
@[simp] theorem execTan_memory (s : State) (t a b c) : KeepsMemory s (execTan t a b c s) := by
  unfold execTan; dsimp only; (repeat' split) <;> simp
@[simp] theorem execVnop_memory (s : State) (n) : KeepsMemory s (execVnop n s) := by
  unfold execVnop; split <;> simp
end Sys2Proof.Machine
end

section
/-! SUPPORT. The operations and events that write memory keep its canonical form. -/

namespace Sys2Proof.Machine

open Sys2Proof

/-- The canonical form of memory, of the part of a state that holds memory. -/
def FormOf (m : List Host.Cell × SMap Bool × SMap Nat × SMap Bool) : Prop := Memory.wf m.1 = true
theorem memoryForm_iff (s : State) : MemoryForm s ↔ FormOf s.memory := Iff.rfl
theorem foldl_form {β : Type} (f : State → β → State) (h : ∀ s x, FormOf s.memory → FormOf (f s x).memory) (l : List β) (s : State)
    (hs : FormOf s.memory) : FormOf (l.foldl f s).memory := by
  induction l generalizing s with
  | nil => exact hs
  | cons x r ih => exact ih _ (h s x hs)
/-- Every state that the outcome `r` brings has the canonical form of memory. -/
def BringsForm (r : Res) : Prop := ∀ t, r = .next t → FormOf t.memory
@[simp] theorem bringsForm_next (t : State) : BringsForm (.next t) ↔ FormOf t.memory :=
  ⟨fun h => h t rfl, fun h _ ht => by cases ht; exact h⟩
@[simp] theorem bringsForm_fault (f) : BringsForm (.fault f) := fun _ h => by cases h
@[simp] theorem bringsForm_refused (f) : BringsForm (.refused f) := fun _ h => by cases h
theorem KeepsMemory.bringsForm {s : State} {r : Res} (h : KeepsMemory s r) (hs : FormOf s.memory) : BringsForm r :=
  fun t ht => by rw [h t ht]; exact hs
theorem FormOf.ite {c : Prop} [Decidable c] {s t : State} (hs : FormOf s.memory) (ht : FormOf t.memory) : FormOf (if c then s else t).memory := by
  split <;> assumption
theorem BringsForm.ite {c : Prop} [Decidable c] {r q : Res} (hr : BringsForm r) (hq : BringsForm q) : BringsForm (if c then r else q) := by
  split <;> assumption
@[simp] theorem bringsForm_answer (t : State) (fn ws) : BringsForm (t.answer fn ws) ↔ FormOf t.memory := by
  simp [State.answer]
theorem bringsForm_serveVf (s : State) (ms : List Nat) (f : State → Nat → Res) (hs : FormOf s.memory) (hf : ∀ fn, BringsForm (f s fn)) :
    BringsForm (s.serveVf ms f) := by
  unfold State.serveVf; dsimp only; split <;> simp [hf, hs]
theorem bringsForm_servePf (s : State) (ms : List Nat) (f : State → Res) (hs : FormOf s.memory) (hf : BringsForm (f s)) :
    BringsForm (s.servePf ms f) := by
  unfold State.servePf; split <;> simp [hf, hs]
@[simp] theorem State.writeBytes_form (s : State) (a bs p) (hs : FormOf s.memory) : FormOf (s.writeBytes a bs p).memory :=
  State.writeBytes_wf s a bs p hs
@[simp] theorem State.writeScatter_form (s : State) (rs p) (hs : FormOf s.memory) : FormOf (s.writeScatter rs p).memory :=
  State.writeScatter_wf s rs p hs
@[simp] theorem doPush_memory (s : State) (x) : (doPush x s).memory = s.memory := by
  unfold doPush; (repeat' split) <;> simp
@[simp] theorem execPush_memory (s : State) (a) : KeepsMemory s (execPush a s) := by
  unfold execPush; dsimp only; (repeat' split) <;> simp
@[simp] theorem ixWord_memory (s : State) (op e) : (ixWord op e s).memory = s.memory := by
  unfold ixWord; dsimp only; split <;> simp
theorem State.settleWait_memory (s : State) (die hub) (t : State) (ht : s.settleWait die hub = some t) : t.memory = s.memory := by
  unfold State.settleWait at ht
  dsimp only at ht
  split at ht
  case h_7 => cases ht
  all_goals
    split at ht
    all_goals cases ht
    all_goals simp
@[simp] theorem State.hostWrite_form (s : State) (part pasid a bs) (hs : FormOf s.memory) : FormOf (s.hostWrite part pasid a bs).memory := by
  simp [State.hostWrite, hs]
@[simp] theorem State.writeRecord_form (s : State) (r) (hs : FormOf s.memory) : FormOf (s.writeRecord r).memory := by
  unfold State.writeRecord; dsimp only; (repeat' split) <;> simp [hs]
@[simp] theorem State.slotRecord_form (s : State) (r) (hs : FormOf s.memory) : FormOf (s.slotRecord r).memory := by
  simp [State.slotRecord, hs]
@[simp] theorem State.queueRecord_form (s : State) (r) (hs : FormOf s.memory) : FormOf (s.queueRecord r).memory := by
  unfold State.queueRecord; split <;> simp [hs]
@[simp] theorem State.refuseLaunch_form (s : State) (slot sub) (hs : FormOf s.memory) : FormOf (s.refuseLaunch slot sub).memory := by
  simp [State.refuseLaunch, hs]
@[simp] theorem execEndpointPacketDeliver_form (s : State) (hs : FormOf s.memory) : BringsForm (execEndpointPacketDeliver s) := by
  unfold execEndpointPacketDeliver; dsimp only; (repeat' split) <;> simp [hs]
@[simp] theorem State.perform_form (s : State) (q) (hs : FormOf s.memory) : FormOf (s.perform q).1.memory := by
  simp [State.perform, hs]
@[simp] theorem State.drainWrite_form (s : State) (t i out pois) (hs : FormOf s.memory) : FormOf (s.drainWrite t i out pois).memory := by
  unfold State.drainWrite
  extract_lets w u
  have hu : FormOf u.memory := by
    refine foldl_form _ (fun v x hv => foldl_form _ (fun v y hv => ?_) _ _ (State.writeBytes_form _ _ _ _ hv)) _ _ hs
    split <;> simp [hv]
  split <;> simp [hu]
@[simp] theorem State.landMat_form (s : State) (a) (hs : FormOf s.memory) : FormOf (s.landMat a).memory := by
  unfold State.landMat; split <;> simp [hs]
@[simp] theorem execLaunchCompletion_form (s : State) (hs : FormOf s.memory) : BringsForm (execLaunchCompletion s) := by
  unfold execLaunchCompletion; dsimp only; (repeat' split) <;> simp [hs]
@[simp] theorem State.restorePads_form (s : State) (v) (hs : FormOf s.memory) : FormOf (s.restorePads v).memory := by
  have hfold : ∀ (l : List Host.Cell) (m : List Host.Cell), Memory.wf m = true →
      Memory.wf (l.foldl (fun (m : List Host.Cell) c => Memory.write m c.1 c.2) m) = true := by
    intro l
    induction l with
    | nil => exact fun m hm => hm
    | cons c r ih => exact fun m hm => ih _ (Memory.wf_write m c.1 c.2 hm)
  unfold State.restorePads
  split
  · exact hfold _ _ hs
  · exact hs
@[simp] theorem State.regrant_form (s : State) (slot v) (hs : FormOf s.memory) : FormOf (s.regrant slot v).memory := by
  unfold State.regrant; dsimp only
  split
  · simp [hs]
  · simp; rw [State.foldl_memory _ (fun _ _ => by simp)]; simp [hs]
@[simp] theorem State.grant_form (s : State) (part n teams) (hs : FormOf s.memory) : FormOf (s.grant part n teams).memory := by
  unfold State.grant; dsimp only; (repeat' split) <;> simp [hs]
@[simp] theorem State.arbitrate_form (s : State) (part a x3) (hs : FormOf s.memory) : FormOf (s.arbitrate part a x3).memory := by
  induction x3 generalizing s a with
  | nil => exact hs
  | cons n r ih =>
    unfold State.arbitrate; dsimp only
    (repeat' split) <;> simp [ih, hs]
@[simp] theorem execHubGrant_form (s : State) (hs : FormOf s.memory) : BringsForm (execHubGrant s) := by
  unfold execHubGrant; dsimp only; (repeat' split) <;> simp [hs]
@[simp] theorem State.writeContexts_form (s : State) (area n num) (hs : FormOf s.memory) : FormOf (s.writeContexts area n num).memory := by
  exact Memory.wf_filter _ _ hs
@[simp] theorem State.saveLaunch_form (s : State) (slot mark r) (hs : FormOf s.memory) : FormOf (s.saveLaunch slot mark r).memory := by
  unfold State.saveLaunch; dsimp only; (repeat' split) <;> simp [hs]
@[simp] theorem execCountedPreemption_form (s : State) (hs : FormOf s.memory) : BringsForm (execCountedPreemption s) := by
  unfold execCountedPreemption; dsimp only; (repeat' split) <;> simp [hs]
@[simp] theorem execQuietSave_form (s : State) (hs : FormOf s.memory) : BringsForm (execQuietSave s) := by
  unfold execQuietSave; dsimp only; (repeat' split) <;> simp [hs]
@[simp] theorem State.dogRecord_form (s : State) (slot sub) (hs : FormOf s.memory) : FormOf (s.dogRecord slot sub).memory := by
  simp [State.dogRecord, hs]
@[simp] theorem State.loseSaved_form (s : State) (part kind sub) (hs : FormOf s.memory) : FormOf (s.loseSaved part kind sub).memory := by
  unfold State.loseSaved; refine foldl_form _ (fun t x ht => ?_) _ _ hs; simp [ht]
@[simp] theorem State.abortAll_form (s : State) (part kind sub susp) (hs : FormOf s.memory) : FormOf (s.abortAll part kind sub susp).memory := by
  refine foldl_form _ (fun t n ht => ?_) _ _ hs
  dsimp only; split <;> simp [ht]
@[simp] theorem State.startReset_form (s : State) (part origin who) (hs : FormOf s.memory) : FormOf (s.startReset part origin who).memory := by
  unfold State.startReset
  split
  · exact hs
  · simp only [State.after_memory, State.setPart_memory, State.holdMembers_memory]
    refine foldl_form _ (fun t n ht => ?_) _ _ hs
    (repeat' split) <;> simp [ht]
@[simp] theorem State.zeroDie_form (s : State) (p) (hs : FormOf s.memory) : FormOf (s.zeroDie p).memory := by
  exact Memory.wf_filter _ _ hs
@[simp] theorem State.zeroDies_form (s : State) (a) (hs : FormOf s.memory) : FormOf (s.zeroDies a).memory := by
  induction a generalizing s with
  | nil => exact hs
  | cons p r ih => exact ih _ (State.zeroDie_form _ _ hs)
@[simp] theorem State.passLaunches_form (s : State) (part) (hs : FormOf s.memory) : FormOf (s.passLaunches part).memory := by
  have hfold : FormOf ((s.slotsOf part).foldl (fun (s : State) n =>
    let st := (s.slot n).qcb.state
    let live := st == 2 || st == 3
    let s := if live then s.slotRecord (s.launchReport n 0x1A 1) else s
    let s := if live || (s.slot n).run.isSome then s.dropLaunch n else s
    let x := s.slot n
    s.setSlot n { x with
      owes := false, validated := false, preq := false, run := none
      qcb := { x.qcb with state := 0, head := if live || x.owes then (x.qcb.head + 1) % 2 ^ 32 else x.qcb.head } }) s).memory := by
    refine foldl_form _ (fun t n ht => ?_) _ _ hs
    dsimp only; (repeat' split) <;> simp [ht]
  unfold State.passLaunches; dsimp only
  split <;> exact State.loseSaved_form _ _ _ _ hfold
@[simp] theorem State.scrubDies_form (s : State) (part) (hs : FormOf s.memory) : FormOf (s.scrubDies part).memory := by
  simp [State.scrubDies, hs]
@[simp] theorem State.scrub_form (s : State) (part) (hs : FormOf s.memory) : FormOf (s.scrub part).memory := by
  simp [State.scrub, hs]
@[simp] theorem execSlotFetch_form (s : State) (hs : FormOf s.memory) : BringsForm (execSlotFetch s) := by
  unfold execSlotFetch; dsimp only; (repeat' split) <;> simp [hs]
@[simp] theorem execLaunchValidate_form (s : State) (hs : FormOf s.memory) : BringsForm (execLaunchValidate s) := by
  unfold execLaunchValidate; dsimp only; (repeat' split) <;> simp [hs]
@[simp] theorem execPreemptRequest_form (s : State) (hs : FormOf s.memory) : BringsForm (execPreemptRequest s) := by
  unfold execPreemptRequest; dsimp only; (repeat' split) <;> simp [hs]
@[simp] theorem execSlotAbort_form (s : State) (hs : FormOf s.memory) : BringsForm (execSlotAbort s) := by
  unfold execSlotAbort; dsimp only; (repeat' split) <;> simp [hs]
@[simp] theorem execWatchdogExpiry_form (s : State) (hs : FormOf s.memory) : BringsForm (execWatchdogExpiry s) := by
  unfold execWatchdogExpiry; dsimp only; (repeat' split) <;> simp [hs]
@[simp] theorem State.hardReset_form (s : State) (slot) (hs : FormOf s.memory) : FormOf (s.hardReset slot).memory := by
  unfold State.hardReset; dsimp only; (repeat' split) <;> simp [hs]
@[simp] theorem execBackstopReset_form (s : State) (hs : FormOf s.memory) : BringsForm (execBackstopReset s) := by
  unfold execBackstopReset; dsimp only; (repeat' split) <;> simp [hs]
@[simp] theorem execHaltLimitReset_form (s : State) (hs : FormOf s.memory) : BringsForm (execHaltLimitReset s) := by
  unfold execHaltLimitReset; dsimp only; (repeat' split) <;> simp [hs]
@[simp] theorem State.writeDie_form (s : State) (p o v mask) (hs : FormOf s.memory) : FormOf (s.writeDie p o v mask).memory := by
  unfold State.writeDie; dsimp only; (repeat' split) <;> simp [hs]
@[simp] theorem State.writeByFirmware_form (s : State) (o v mask) (hs : FormOf s.memory) : FormOf (s.writeByFirmware o v mask).memory := by
  unfold State.writeByFirmware; dsimp only; (repeat' split) <;> simp [hs, foldl_form]
@[simp] theorem execControlWindowWrite_form (s : State) (hs : FormOf s.memory) : BringsForm (execControlWindowWrite s) := by
  unfold execControlWindowWrite; dsimp only
  repeat' apply BringsForm.ite
  all_goals (repeat' split) <;> simp [hs]
@[simp] theorem execDebugWindowAccess_form (s : State) (hs : FormOf s.memory) : BringsForm (execDebugWindowAccess s) := by
  unfold execDebugWindowAccess; dsimp only; (repeat' split) <;> simp [hs]
@[simp] theorem execPartitionReset_form (s : State) (hs : FormOf s.memory) : BringsForm (execPartitionReset s) := by
  unfold execPartitionReset; split <;> simp [hs]
@[simp] theorem execPartitionScrub_form (s : State) (hs : FormOf s.memory) : BringsForm (execPartitionScrub s) := by
  simp [execPartitionScrub, hs]
@[simp] theorem State.refuseWaiting_form (s : State) (part) (hs : FormOf s.memory) : FormOf (s.refuseWaiting part).memory := by
  unfold State.refuseWaiting; refine foldl_form _ (fun t x ht => ?_) _ _ hs; simp [ht]
@[simp] theorem execLdmapUnlock_form (s : State) (hs : FormOf s.memory) : BringsForm (execLdmapUnlock s) := by
  unfold execLdmapUnlock; dsimp only; (repeat' split) <;> simp [hs]
@[simp] theorem execDieFailure_form (s : State) (hs : FormOf s.memory) : BringsForm (execDieFailure s) := by
  unfold execDieFailure; dsimp only
  split
  · simp [hs]
  · rw [bringsForm_next]
    refine foldl_form _ (fun t n ht => ?_) _ _ (by simp [hs])
    split <;> simp [ht]
@[simp] theorem State.presetFor_form (s : State) (part fn) (hs : FormOf s.memory) : FormOf (s.presetFor part fn).memory := by
  simp [State.presetFor, hs]
@[simp] theorem execPreset_form (s : State) (hs : FormOf s.memory) : BringsForm (execPreset s) := by
  exact bringsForm_serveVf _ _ _ hs (fun fn => by simp [hs])
@[simp] theorem execPresetPf_form (s : State) (hs : FormOf s.memory) : BringsForm (execPresetPf s) := by
  exact bringsForm_servePf _ _ _ hs (by simp [hs])
@[simp] theorem State.powerDown_form (s : State) (p) (hs : FormOf s.memory) : FormOf (s.powerDown p).memory := by
  exact Memory.wf_filter _ _ hs
@[simp] theorem execSleepRequest_form (s : State) (hs : FormOf s.memory) : BringsForm (execSleepRequest s) := by
  refine bringsForm_servePf _ _ _ hs ?_
  split <;> simp [hs]
@[simp] theorem State.cold_form (s : State) (hs : FormOf s.memory) : FormOf (s.cold).memory := by
  exact Memory.wf_filter _ _ hs
@[simp] theorem execColdReset_form (s : State) (hs : FormOf s.memory) : BringsForm (execColdReset s) := by
  simp [execColdReset, hs]
@[simp] theorem execRecoveryImageLoad_form (s : State) (hs : FormOf s.memory) : BringsForm (execRecoveryImageLoad s) := by
  unfold execRecoveryImageLoad; dsimp only; (repeat' split) <;> simp [hs]
@[simp] theorem execDebugToken_form (s : State) (hs : FormOf s.memory) : BringsForm (execDebugToken s) := by
  unfold execDebugToken; dsimp only
  split
  · simp [hs]
  · split
    · (repeat' split) <;> simp [hs]
    · split
      · simp [hs]
      · rw [bringsForm_next]
        refine foldl_form _ (fun t n ht => ?_) _ _ (by simp [hs])
        split <;> simp [ht]
    · simp [hs]
@[simp] theorem State.tripPart_form (s : State) (part) (hs : FormOf s.memory) : FormOf (s.tripPart part).memory := by
  unfold State.tripPart; dsimp only; (repeat' split) <;> simp [hs, foldl_form]
@[simp] theorem execThermalTrip_form (s : State) (hs : FormOf s.memory) : BringsForm (execThermalTrip s) := by
  unfold execThermalTrip
  split
  · simp [hs]
  · rw [bringsForm_next, State.signal_memory]
    exact State.powerDown_form _ _ (foldl_form _ (fun t n ht => by simp [ht]) _ _ hs)
@[simp] theorem State.wakeUp_form (s : State) (n) (hs : FormOf s.memory) : FormOf (s.wakeUp n).memory := by
  unfold State.wakeUp; dsimp only
  refine foldl_form _ (fun t n ht => ?_) _ _ ?_
  · (repeat' split) <;> simp [ht]
  · simp only [State.runRom_memory, State.trainLinks_memory, State.startClocks_memory]
    rw [State.foldl_memory _ (fun _ _ => by simp)]; exact hs
@[simp] theorem execTripExit_form (s : State) (hs : FormOf s.memory) : BringsForm (execTripExit s) := by
  unfold execTripExit; split <;> simp [hs]
@[simp] theorem execWakeFromSleep_form (s : State) (hs : FormOf s.memory) : BringsForm (execWakeFromSleep s) := by
  unfold execWakeFromSleep; split <;> simp [hs]
@[simp] theorem execPowerOff_form (s : State) (hs : FormOf s.memory) : BringsForm (execPowerOff s) := by
  simp [execPowerOff, hs]
@[simp] theorem State.writeRowOf_form (s : State) (a w bs ps) (hs : FormOf s.memory) : FormOf (s.writeRowOf a w bs ps).memory := by
  unfold State.writeRowOf
  refine foldl_form _ (fun t n ht => ?_) _ _ (by simp [hs])
  split <;> simp [ht]
@[simp] theorem State.ixPerform_form (s : State) (die hub j bs ps) (hs : FormOf s.memory) : FormOf (s.ixPerform die hub j bs ps).memory := by
  unfold State.ixPerform; dsimp only; (repeat' split) <;> simp [hs]
@[simp] theorem State.scaddRow_form (s : State) (a b bs ps) (hs : FormOf s.memory) : FormOf (s.scaddRow a b bs ps).memory := by
  unfold State.scaddRow; refine foldl_form _ (fun t x ht => ?_) _ _ hs; simp [ht]
@[simp] theorem State.ixAtomic_form (s : State) (die hub j bs ps) (hs : FormOf s.memory) : FormOf (s.ixAtomic die hub j bs ps).memory := by
  unfold State.ixAtomic
  split
  · exact hs
  · dsimp only
    repeat' apply FormOf.ite
    all_goals (repeat' split) <;> simp [hs]
@[simp] theorem State.landIx_form (s : State) (a) (hs : FormOf s.memory) : FormOf (s.landIx a).memory := by
  unfold State.landIx; split <;> simp [hs]
@[simp] theorem State.xfWrite_form (s : State) (t c base planes pois) (hs : FormOf s.memory) : FormOf (s.xfWrite t c base planes pois).memory := by
  simp [State.xfWrite, hs]
@[simp] theorem State.xfPerform_form (s : State) (t c planes pois) (hs : FormOf s.memory) : FormOf (s.xfPerform t c planes pois).memory := by
  unfold State.xfPerform; dsimp only; (repeat' split) <;> simp [hs]
@[simp] theorem State.xfStream_form (s : State) (t base planes pois) (hs : FormOf s.memory) : FormOf (s.xfStream t base planes pois).memory := by
  unfold State.xfStream; refine foldl_form _ (fun t x ht => ?_) _ _ hs; simp [ht]
@[simp] theorem State.xfArrive_form (s : State) (t c p) (hs : FormOf s.memory) : FormOf (s.xfArrive t c p).memory := by
  unfold State.xfArrive; (repeat' split) <;> simp [hs]
@[simp] theorem State.xfMulti_form (s : State) (t) (hs : FormOf s.memory) : FormOf (s.xfMulti t).memory := by
  unfold State.xfMulti; dsimp only
  split
  · simp [hs]
  · refine foldl_form _ (fun t n ht => ?_) _ _ (by simp [hs])
    (repeat' split) <;> simp [ht]
@[simp] theorem State.xfTiles_form (s : State) (t xs) (hs : FormOf s.memory) : FormOf (s.xfTiles t xs).memory := by
  unfold State.xfTiles; dsimp only
  split
  · exact foldl_form _ (fun t n ht => by simpa [State.xfTiles.xfSendTile] using ht) _ _ (by simp [hs])
  · rw [State.xfEnd_memory]; exact foldl_form _ (fun t n ht => by simp [ht]) _ _ hs
@[simp] theorem State.xfZip_form (s : State) (t) (hs : FormOf s.memory) : FormOf (s.xfZip t).memory := by
  simp [State.xfZip, hs]
@[simp] theorem State.xfUnzip_form (s : State) (t bs ps) (hs : FormOf s.memory) : FormOf (s.xfUnzip t bs ps).memory := by
  simp [State.xfUnzip, hs]
@[simp] theorem State.xfTakeWrite_form (s : State) (t b planes pois) (hs : FormOf s.memory) : FormOf (s.xfTakeWrite t b planes pois).memory := by
  simp [State.xfTakeWrite, hs]
@[simp] theorem State.landXf_form (s : State) (a) (hs : FormOf s.memory) : FormOf (s.landXf a).memory := by
  unfold State.landXf; split <;> simp [hs]
@[simp] theorem State.landAct_form (s : State) (d) (hs : FormOf s.memory) : FormOf (s.landAct d).memory := by
  unfold State.landAct; split <;> simp [hs]
@[simp] theorem State.land_form (s : State) (d) (hs : FormOf s.memory) : FormOf (s.land d).memory := by
  unfold State.land; dsimp only; (repeat' split) <;> simp [hs]
@[simp] theorem State.upset_form (s : State) (hs : FormOf s.memory) : FormOf (s.upset).memory := by
  unfold State.upset; (repeat' split) <;> exact hs
@[simp] theorem State.pulse_form (s : State) (hs : FormOf s.memory) : FormOf (s.pulse).memory := by
  unfold State.pulse; dsimp only; (repeat' split) <;> simp [hs]
@[simp] theorem State.merge_form (s : State) (r) (hs : FormOf s.memory) : FormOf (s.merge r).memory := by
  unfold State.merge; dsimp only; (repeat' split) <;> simp [hs]
@[simp] theorem execFaultReportReceive_form (s : State) (hs : FormOf s.memory) : BringsForm (execFaultReportReceive s) := by
  unfold execFaultReportReceive; split <;> simp [hs]
@[simp] theorem execPageFaultBatchClose_form (s : State) (hs : FormOf s.memory) : BringsForm (execPageFaultBatchClose s) := by
  unfold execPageFaultBatchClose; dsimp only
  split
  · simp [hs]
  · rw [bringsForm_next, State.signal_memory]
    exact foldl_form _ (fun t n ht => by simp [ht]) _ _ (by simp [hs])
@[simp] theorem execWrite_form (s : State) (hs : FormOf s.memory) : BringsForm (execWrite s) := by
  unfold execWrite; dsimp only; (repeat' split) <;> simp [hs]
@[simp] theorem execAtomicRequest_form (s : State) (hs : FormOf s.memory) : BringsForm (execAtomicRequest s) := by
  unfold execAtomicRequest; dsimp only; (repeat' split) <;> simp [hs]
@[simp] theorem execTdispError_form (s : State) (hs : FormOf s.memory) : BringsForm (execTdispError s) := by
  unfold execTdispError; split <;> simp [hs]
end Sys2Proof.Machine
end

section
/-! SUPPORT. Every instruction, and every way a pulse goes on, keeps the canonical form of memory. Settles O7. -/

namespace Sys2Proof.Machine
open Sys2Proof

/-- The instructions and events that may write memory or its marks; every other one leaves them as they are. -/
def writesMemory : Instr → Bool
  | .launchCompletion .. | .hubGrant .. | .slotFetch .. | .launchValidate .. | .preemptRequest .. | .slotAbort .. |
    .countedPreemption .. | .watchdogExpiry .. | .backstopReset .. | .haltLimitReset .. | .partitionReset .. |
    .partitionScrub .. | .ldmapUnlock .. | .dieFailure .. | .write .. | .atomicRequest .. | .quietSave .. |
    .faultReportReceive .. | .pageFaultBatchClose .. | .preset .. | .sleepRequest .. | .presetPf .. | .recoveryImageLoad .. |
    .coldReset .. | .debugToken .. | .tdispError .. | .debugWindowAccess .. | .controlWindowWrite .. | .endpointPacketDeliver
    .. | .thermalTrip .. | .tripExit .. | .wakeFromSleep .. | .powerOff .. => true
  | _ => false

theorem exec_keepsMemory (i : Instr) (s : State) (hi : writesMemory i = false) : KeepsMemory s (exec i s) := by
  cases i with
  | launchCompletion | hubGrant | slotFetch | launchValidate | preemptRequest | slotAbort | countedPreemption |
    watchdogExpiry | backstopReset | haltLimitReset | partitionReset | partitionScrub | ldmapUnlock | dieFailure | write |
    atomicRequest | quietSave | faultReportReceive | pageFaultBatchClose | preset | sleepRequest | presetPf |
    recoveryImageLoad | coldReset | debugToken | tdispError | debugWindowAccess | controlWindowWrite | endpointPacketDeliver
    | thermalTrip | tripExit | wakeFromSleep | powerOff => cases hi
  | add | sub | and | or | xor | shl | shr | shra | rol | ror | min | max | minu | maxu | slt | sltu | mul | mulh | mulhu |
    div | divu | rem | remu | cmpeq | cmplt | cmpltu | addi | andi | ori | xori | shli | shri | shrai | slti | sltui | muli |
    lil | lih | lea | ptag | pspace | sfadd | sfsub | sfmul | sfdiv | sfsqrt | sfmin | sfmax | sfeq | sflt | sfle | sfcvts |
    sfcvtf | amoAdd | amoAnd | amoOr | amoXor | amoMin | amoMax | amoMinu | amoMaxu | amoXchg | amoFadd | checkS | checkP |
    jmp | call | tlread | pop | popTag | peekq | xlateRead | xlateWrite | slook | sfill | sevict | csrr | nop | stand |
    standQ | xinv | vadd | vsub | vmul | vdiv | vmin | vmax | vfma | vsqrt | vrcp | vrsqrt | vexp2 | vlog2 | vln | vtanh |
    vneg | vabs | viadd | visub | vimul | vand | vor | vxor | vshl | vshr | vshra | viadds | vcmpeq | vcmpne | vcmplt |
    vcmple | vmand | vmor | vmxor | vmnot | vrmax | vrmin | vperm | vbcast | mnop | mseta | xfcopy | xfcast | xfzip | xfunzip
    | xffill | xfsend | xfrecv | xfvirt | ixnop | ixgather | ixscatter | ixscadd | ixcount | ixcompact | ixhist | ixamo |
    ixcas | dkeys | fnop | fadd | fmul | fmax | fmin | fmov | getVersion | getCapabilities | negotiateAlgorithms | getDigests
    | keyExchange | finish | endSession =>
    exact (keepsMemory_next s _).2 (by simp)
  | ld | st | ldx | stx | cas | br | loop | sel | sxv | vxs | go | push | tlwait | tlreadFail | phase | wid | csrw | mark |
    fence | trap | halt | done | ret | cad | tick | bar | fload | fbind | vimin | vimax | vsel | vcvt | vpack | vunpack |
    vprune24 | vrsum | vscan | vargmax | vpopnz | vnzmap | vslide | vld | vst | vrand | vtget | vtset | shape | shaper | tan
    | vnop | mloadw | mswap | mrun | mrunS | mmeta | mscq | mscmode | mdrain | mzero | mmode | xfnop | indexCommandStart |
    indexCommandEnd | dmatch | dmerge | dunmerge | dcompose | dsizes | dsave | dload | draftingCommandEnd | fcmp | fsel |
    facc | froute | ftake | femit | floopb | fcvt | fzip | funzip | segmentStart | matrixStepCommit | transferWordEnd |
    replyPortEntry | storeMarkClose | fenceEnd | tlwaitEnd | tickExpiry | popTake | barrierRelease | itemStart | itemEnd |
    launchAbort | phaseDirectoryAnswer | ageingTick | doorbellKick | slotSave | slotRestore | countedResume |
    partitionResetDone | ldmapLock | pacelineForm | pacelineDissolve | linkTrainingDone | frameTransmit | badFrame |
    timedBeatDelivery | countedBeatReceive | countedRetryTimeout | readRequest | readReply | writeAcknowledgement |
    atomicReply | controlSpaceRead | fenceMarker | countedReplyDeadline | sampleReceive | subminReceive | downReceive |
    coastReceive | coastApply | haltFrameReceive | releaseFrameReceive | standAdoption | standLeadCheck | standHold |
    standResume | idleStandArm | timedResume | pacelineHold | pacelineRelease | pacelineAbort | frtailWrite | faultRingEnable
    | mailboxGo | mailboxDone | qcreate | qdestroy | qrestart | qstat | qprio | psuspend | psuspendResponse | presume |
    pconfig | paceform | sched | firmwareFirstReport | getCertificate | challenge | getMeasurements | vendorDefinedRequest |
    ideKm | tdispLockInterface | tdispStartInterface | tdispStopInterface | ranktabWrite | xlinvShootdown | shootdown |
    xlretry | translationFillRequest | translationFillReply | endpointPacket | euzinFlitReceive | flitTransmit |
    flitRetryTimeout | longLinkTrained | collectiveContribution | ready | commit | abort | collectiveTimeLimit |
    powerLimitEvaluation | vcoreCurrentEvaluation | idleRetainEntry | wakeFromIdle | draftingCommandStart |
    partitionScrubDone => simp

theorem exec_bringsForm (i : Instr) (s : State) (hs : FormOf s.memory) : BringsForm (exec i s) := by
  cases hi : writesMemory i
  · exact (exec_keepsMemory i s hi).bringsForm hs
  · cases i with
    | launchCompletion | hubGrant | slotFetch | launchValidate | preemptRequest | slotAbort | countedPreemption |
      watchdogExpiry | backstopReset | haltLimitReset | partitionReset | partitionScrub | ldmapUnlock | dieFailure | write |
      atomicRequest | quietSave | faultReportReceive | pageFaultBatchClose | preset | sleepRequest | presetPf |
      recoveryImageLoad | coldReset | debugToken | tdispError | debugWindowAccess | controlWindowWrite |
      endpointPacketDeliver | thermalTrip | tripExit | wakeFromSleep | powerOff => simp [hs]
    | _ => cases hi

/-- The state that a pick goes to, or runs an instruction at. -/
def Pick.state : Pick → State
  | .run _ t => t
  | .go t => t

theorem State.come_form (s : State) (d) (hs : FormOf s.memory) : FormOf (s.come d).state.memory := by
  unfold State.come State.unpost
  split <;> simp [Pick.state, hs]

theorem State.endWait_form (s : State) (e) (x : Pick) (hs : FormOf s.memory) (hx : s.endWait e = some x) : FormOf x.state.memory := by
  unfold State.endWait at hx
  split at hx
  · cases hx
  · split at hx
    · cases hx; exact hs
    · obtain ⟨t, ht, rfl⟩ := Option.map_eq_some_iff.1 hx
      simpa [Pick.state, State.settleWait_memory s _ _ t ht] using hs

theorem State.fetch_memory (s : State) (f) : (s.fetch f).state.memory = s.memory := by
  unfold State.fetch State.fetchCore State.fetchDraft State.fetchEng
  dsimp only
  (repeat' split) <;> simp [Pick.state]

theorem State.fetchSlot_memory (s : State) (f w) : (s.fetchSlot f w).state.memory = s.memory := by
  unfold State.fetchSlot
  dsimp only
  split <;> simp [Pick.state]

theorem State.pick_form (s : State) (hs : FormOf s.memory) : FormOf s.pick.state.memory := by
  unfold State.pick
  split
  · exact s.come_form _ hs
  · split
    · exact s.pulse_form hs
    · split
      · exact hs
      · split
        next x hx =>
          obtain ⟨e, -, he⟩ := List.exists_of_findSome?_eq_some hx
          exact s.endWait_form e x hs he
        · split
          · rw [State.fetch_memory]; exact hs
          · split
            · rw [State.fetchSlot_memory]; exact hs
            · rw [Pick.state, State.endPulse_memory]; exact hs

theorem step_bringsForm (s : State) (hs : FormOf s.memory) : BringsForm (step s) := by
  have hp := s.pick_form hs
  unfold step
  split
  · exact exec_bringsForm _ _ hs
  · split
    · simp
    · split
      next i t h => rw [h] at hp; exact exec_bringsForm i t hp
      next t h => rw [h] at hp; exact (bringsForm_next t).2 hp

/-- Settles O7: no instruction, event or pulse breaks the canonical form, shown for every arm of `exec` and every way a pulse goes on. -/
theorem stepKeepsMemoryForm : Obligations.StepKeepsMemoryForm :=
  fun s t hs ht => step_bringsForm s hs t ht
end Sys2Proof.Machine
end

section
/-! SUPPORT. Steps, reset and writes to memory. Settles O1, O4, O5, O6, O8. -/

namespace Sys2Proof.Machine

open Sys2Proof

theorem State.firstDue_eq_none (s : State) (l : List Due) (h : ∀ d ∈ l, (s.die d.die).cad < d.at_) : s.firstDue l = none := by
  induction l with
  | nil => rfl
  | cons d r ih =>
    have hd : s.isDue d = false := by
      have := h d (by simp)
      simp [State.isDue]; omega
    rw [State.firstDue, ih fun x hx => h x (by simp [hx]), hd]; rfl

/-- Nothing is due, no segment starts and no wait ends: the pick is the word of the first unit. -/
theorem State.pick_eq_fetch (s : State) (f : Focus) (hag : ∀ d ∈ s.agenda, (s.die d.die).cad < d.at_) (hend : s.ended = false)
    (hseg : s.dueSegment = none) (hwait : s.hubs.findSome? s.endWait = none) (hunit : s.firstUnit = some f) :
    s.pick = s.fetch f := by
  rw [State.pick, s.firstDue_eq_none _ hag]
  simp only [hend, hseg, hwait, hunit]
  rfl

/-- An empty inbox and a powered package: the step is what the pick runs. -/
theorem step_of_pick_run (s t : State) (i : Instr) (hin : s.inbox = []) (hpow : s.dev.power ≠ .off) (h : s.pick = .run i t) :
    step s = exec i t := by
  rw [step, hin]
  simp only [hpow, if_false, h]

/-- Settles O1, by running the decoder on each word. -/
theorem wordsOfTheManualDecode : Obligations.WordsOfTheManualDecode := by
  unfold Obligations.WordsOfTheManualDecode
  decide

/-- Settles O6: the memory of the reset state is empty. -/
theorem resetHasMemoryForm : Obligations.ResetHasMemoryForm := rfl

/-- Settles O5, by what the reset state is. -/
theorem resetLeaves : Obligations.ResetLeaves := by
  refine ⟨fun _ => rfl, fun _ => rfl, fun _ => rfl, fun _ _ => rfl, fun _ => rfl, ?_, rfl, rfl, rfl, rfl, rfl⟩
  decide

/-- Settles O4: with nothing due and no wait that ends, the pick is the word of the first unit, which the decoder turns into the instruction. -/
theorem stepRunsTheDecodedInstruction : Obligations.StepRunsTheDecodedInstruction := by
  refine ⟨⟨?_, ?_⟩, ?_⟩
  · intro s f w i hin hpow hag hend hseg hwait hunit h0 hw hdec
    refine step_of_pick_run s _ i hin hpow ?_
    rw [s.pick_eq_fetch f hag hend hseg hwait hunit, State.fetch, if_pos h0, State.fetchCore]
    have hw' : ({ s with cur := f } : State).curHub.codeWord 0 (({ s with cur := f } : State).curHub.pc / 4) = some w := hw
    simp only [hw', hdec]
  · intro s i a r h
    rw [step, h]
  · intro s f w x i hin hpow hag hend hseg hwait hunit h0 h6 hw hdec
    refine step_of_pick_run s _ i hin hpow ?_
    rw [s.pick_eq_fetch f hag hend hseg hwait hunit, State.fetch, if_neg h0, if_neg h6, State.fetchEng]
    have hw' : ({ s with cur := f } : State).curHub.engWord ({ s with cur := f } : State).cur.eng = some (w, x) := hw
    have hs : streamOfEng f.eng = if f.eng = 1 then .vector else if f.eng = 2 then .matrix else if f.eng = 5 then .index else .transfer := by
      unfold streamOfEng; split <;> simp_all
    rw [← hs] at hdec
    simp only [hw', hdec]

theorem get_eccAfter (m : SMap Bool) (a n : Nat) (ls : List Nat) (l : Nat) :
    SMap.get false (eccAfter m a n ls) l =
      if l ∈ ls ∧ a ≤ 64 * l ∧ 64 * l + 64 ≤ a + n then false else SMap.get false m l := by
  induction ls generalizing m with
  | nil => simp [eccAfter]
  | cons k r ih =>
    rw [eccAfter, ih]
    by_cases hk : a ≤ 64 * k ∧ 64 * k + 64 ≤ a + n
    · rw [if_pos hk, SMap.get_set]
      by_cases h : l = k
      · subst h; simp [hk]
      · simp [h]
    · rw [if_neg hk]
      by_cases h : l = k
      · subst h; simp [hk]
      · simp [h]

/-- A line that a write touches lies at the write's home. -/
theorem homeOf_of_mem_linesOf {a n x : Nat} (h : homeOf a = homeOf (a + n)) (hx : x / 64 ∈ linesOf a n) : homeOf x = homeOf a := by
  rw [mem_linesOf] at hx
  unfold homeOf at *
  omega

/-- The key epoch of a line after a write: that of the write's die for the HBM lines that it touches (R128). -/
theorem State.writeBytes_epoch (s : State) (a : Nat) (bs : List Byte) (p : Bool) (l : Nat) :
    SMap.get 0 (s.writeBytes a bs p).epochs l =
      if isHbm (homeOf a) ∧ l ∈ linesOf a bs.length then (s.die (homeDie (homeOf a))).epoch else SMap.get 0 s.epochs l := by
  unfold State.writeBytes
  by_cases hh : isHbm (homeOf a) <;> simp [hh, get_stamp]

/-- A byte that a write covers reads back. -/
theorem State.byteAt_writeBytes_in (s : State) (a : Nat) (bs : List Byte) (p : Bool) (h : homeOf a = homeOf (a + bs.length))
    (k : Nat) (b : Byte) (hb : bs[k]? = some b) : (s.writeBytes a bs p).byteAt (a + k) = b := by
  have hk : k < bs.length := (List.getElem?_eq_some_iff.1 hb).1
  have hmem : Memory.read (s.writeBytes a bs p).mem (a + k) = b := Memory.read_writeAll _ _ _ _ _ hb
  have hl : (a + k) / 64 ∈ linesOf a bs.length := by rw [mem_linesOf]; omega
  have hhome := homeOf_of_mem_linesOf h hl
  unfold State.byteAt
  rw [hhome, State.writeBytes_epoch, hmem]
  by_cases hh : isHbm (homeOf a) <;> simp [hh, hl]

/-- A byte outside a write reads as before, also where its line is rewritten under another key (R128). -/
theorem State.byteAt_writeBytes_out (s : State) (a : Nat) (bs : List Byte) (p : Bool) (h : homeOf a = homeOf (a + bs.length))
    (x : Nat) (hx : x < a ∨ a + bs.length ≤ x) : (s.writeBytes a bs p).byteAt x = s.byteAt x := by
  have hmem : Memory.read (s.writeBytes a bs p).mem x =
      Memory.read (if isHbm (homeOf a) then s.rewritten a bs.length (linesOf a bs.length) else s.mem) x :=
    Memory.read_writeAll_out _ _ _ _ hx
  unfold State.byteAt
  simp only [State.writeBytes_epoch, State.writeBytes_get_die, hmem]
  by_cases ha : isHbm (homeOf a)
  · by_cases hl : x / 64 ∈ linesOf a bs.length
    · have hhome := homeOf_of_mem_linesOf h hl
      have hcov : ¬ (a ≤ 64 * (x / 64) ∧ 64 * (x / 64) + 64 ≤ a + bs.length) := by omega
      by_cases he : SMap.get 0 s.epochs (x / 64) = (s.die (homeDie (homeOf a))).epoch <;>
        simp [ha, hl, hhome, State.read_rewritten, he, hcov]
    · simp [ha, hl, State.read_rewritten]
  · simp [ha]

theorem State.writeBytes_ecc_get (s : State) (a : Nat) (bs : List Byte) (p : Bool) (l : Nat) :
    SMap.get false (s.writeBytes a bs p).ecc l =
      if 0 < bs.length ∧ a ≤ 64 * l ∧ 64 * l + 64 ≤ a + bs.length then false else SMap.get false s.ecc l := by
  have hls : (l ∈ linesOf a bs.length ∧ a ≤ 64 * l ∧ 64 * l + 64 ≤ a + bs.length) ↔
      (0 < bs.length ∧ a ≤ 64 * l ∧ 64 * l + 64 ≤ a + bs.length) := by rw [mem_linesOf]; omega
  show SMap.get false (if s.ecc.isEmpty then s.ecc else eccAfter s.ecc a bs.length (linesOf a bs.length)) l = _
  split
  next he => rw [List.isEmpty_iff.1 he]; simp
  next => rw [get_eccAfter, if_congr hls rfl rfl]

theorem State.writeBytes_lines_get (s : State) (a : Nat) (bs : List Byte) (p : Bool) (l : Nat) (h : isSram (homeOf a) = true) :
    SMap.get false (s.writeBytes a bs p).lines l =
      if l ∈ linesOf a bs.length then
        (if p then true else if a ≤ 64 * l ∧ 64 * l + 64 ≤ a + bs.length then false else SMap.get false s.lines l)
      else SMap.get false s.lines l := by
  show SMap.get false (if isSram (homeOf a) then poisonAfter s.lines a bs.length p (linesOf a bs.length) else s.lines) l = _
  rw [if_pos h, get_poisonAfter]

/-- Settles O8: each byte, line and error after a write is told by whether the write touches its line (R128, R195, R254). -/
theorem writeReadsBack : Obligations.WriteReadsBack := by
  refine ⟨fun s a bs p h => ⟨s.byteAt_writeBytes_in a bs p h, s.byteAt_writeBytes_out a bs p h, s.writeBytes_ecc_get a bs p,
    s.writeBytes_wf a bs p⟩, fun s a bs p l h hpos => ?_⟩
  rw [s.writeBytes_lines_get a bs p l h]
  simp only [mem_linesOf, hpos, true_and]

end Sys2Proof.Machine
end

section
/-! SUPPORT. Register writes that land, and the frame of a word. Settles O9, O10. -/

namespace Sys2Proof.Machine

open Sys2Proof

theorem Hub.readS_writeS (h : Hub) (r r' : Nat) (v : W64) (p : Bool) :
    (h.writeS r v p).readS r' = if r' = r ∧ r ≠ 0 then ⟨if p then 0 else v, p⟩ else h.readS r' := by
  unfold Hub.writeS Hub.readS
  by_cases hr : r = 0
  · simp [hr]
  · by_cases h0 : r' = 0
    · have : ¬ (0 = r) := fun h => hr h.symm
      simp [hr, h0, this]
    · simp [hr, h0, SMap.get_put]

theorem Hub.readP_writeP (h : Hub) (r r' : Nat) (v p : Bool) :
    (h.writeP r v p).readP r' = if r' = r ∧ r ≠ 0 then (v && !p, p) else h.readP r' := by
  unfold Hub.writeP Hub.readP
  by_cases hr : r = 0
  · simp [hr]
  · by_cases h0 : r' = 0
    · have : ¬ (0 = r) := fun h => hr h.symm
      simp [hr, h0, this]
    · simp only [hr, h0, if_false, SMap.get_put]
      by_cases e : r' = r
      · cases v <;> cases p <;> simp [e, hr]
      · simp [e]

@[simp] theorem Hub.writeS_p (h : Hub) (r : Nat) (v : W64) (p : Bool) : (h.writeS r v p).p = h.p := by
  unfold Hub.writeS; split <;> rfl
@[simp] theorem Hub.writeP_s (h : Hub) (r : Nat) (v p : Bool) : (h.writeP r v p).s = h.s := by
  unfold Hub.writeP; split <;> rfl

/-- A full-byte write of a run of bytes: inside, the bytes; outside, as before. -/
theorem get_putBytes (m : SMap Byte) (k : Nat) (bs : List Byte) (j : Nat) :
    SMap.get 0 (putBytes 255 m k bs) j = if k ≤ j then bs.getD (j - k) (SMap.get 0 m j) else SMap.get 0 m j := by
  induction bs generalizing m k with
  | nil => simp [putBytes]
  | cons b r ih =>
    rw [putBytes, ih, SMap.get_set]
    rcases Nat.lt_trichotomy j k with h | h | h
    · simp [show ¬ k + 1 ≤ j by omega, show ¬ k ≤ j by omega, show j ≠ k by omega]
    · simp [h, blend]
    · obtain ⟨n, rfl⟩ : ∃ n, j = k + 1 + n := ⟨j - k - 1, by omega⟩
      simp [show k + 1 + n ≠ k by omega, show k + 1 + n - k = n + 1 by omega, show k ≤ k + 1 + n by omega]

theorem get_putPois (m : SMap Bool) (k : Nat) (p : Bool) (n j : Nat) :
    SMap.get false (putPois m k p n) j = if k ≤ j ∧ j < k + n then p else SMap.get false m j := by
  induction n generalizing m k with
  | zero => simp [putPois]
  | succ n ih =>
    rw [putPois, ih, SMap.get_set]
    by_cases h : j = k
    · simp [h]
    · rw [if_neg h]
      have : (k + 1 ≤ j ∧ j < k + 1 + n) ↔ (k ≤ j ∧ j < k + (n + 1)) := by omega
      rw [if_congr this rfl rfl]

theorem Hub.maskBit_maskWrite (h : Hub) (m i : Nat) (b : Bool) (m' j : Nat) (hi : i < 4096) (hj : j < 4096) :
    (h.maskWrite m [(i, b)]).maskBit m' j = if m' = m ∧ j = i then (decide (m = 0) || b) else h.maskBit m' j := by
  have hk : mkey m' j = mkey m i ↔ m' = m ∧ j = i := by unfold mkey; omega
  unfold Hub.maskBit
  by_cases hm : m = 0
  · by_cases hm' : m' = 0
    · simp [Hub.maskWrite, hm, hm']
    · simp [Hub.maskWrite, hm, hm']
  · simp only [Hub.maskWrite, hm, if_false, SMap.get_set, hk]
    by_cases e : m' = m ∧ j = i
    · simp [e, hm]
    · simp [e]

/-- A register write that no beat carries lands in its hub. -/
theorem State.land_none (s : State) (die at_ lpos hub eng q : Nat) (a : Act) (dt : Nat) :
    s.land ⟨die, at_, lpos, hub, eng, q, a, none, dt⟩ = s.landAct ⟨die, at_, lpos, hub, eng, q, a, none, dt⟩ := rfl

theorem State.hub_hubDo (s : State) (die hub d h : Nat) (f : Hub → Hub) :
    (s.hubDo die hub f).hub d h = if 8 * d + h = 8 * die + hub then f (s.hub die hub) else s.hub d h := SMap.get_put _ _ _ _ _

/-- Settles O9: a write that no beat carries acts on its hub alone, and each register file reads back what was put there. -/
theorem registerWritesLand : Obligations.RegisterWritesLand := by
  refine ⟨fun s die at_ lpos hub eng q r dt v b p hhub => ⟨?_, ?_⟩, ?_⟩
  · intro w hw
    have hland : s.land ⟨die, at_, lpos, hub, eng, q, w, none, dt⟩ = s.hubDo die hub fun h => h.writeS r v p := by
      simp only [List.mem_cons, List.not_mem_nil, or_false] at hw
      rcases hw with rfl | rfl <;> rfl
    simp only [hland, State.hub_hubDo, if_true, Hub.readS_writeS, Hub.writeS_p, true_and]
    refine ⟨?_, fun r' h => by simp [h], fun d h e => by rw [if_neg e], ⟨rfl, rfl, rfl, rfl⟩, rfl⟩
    by_cases hr : r = 0 <;> simp [hr, Hub.readS]
  · have hland : s.land ⟨die, at_, lpos, hub, eng, q, .regP r b p, none, dt⟩ = s.hubDo die hub fun h => h.writeP r b p := rfl
    simp only [hland, State.hub_hubDo, if_true, Hub.readP_writeP, Hub.writeP_s, true_and]
    refine ⟨?_, fun r' h => by simp [h], fun d h e => by rw [if_neg e], ⟨rfl, rfl, rfl, rfl⟩, rfl⟩
    by_cases hr : r = 0 <;> simp [hr, Hub.readP]
  · intro h x hx
    have hlen : (if x.pois = some true then x.bytes.map fun _ => (0 : Byte) else x.bytes).length = x.bytes.length := by
      split <;> simp
    refine ⟨fun n b hb => ?_, fun n hn => ?_, fun n => ?_, rfl, rfl, rfl, rfl, rfl, rfl, fun m i b hi => ?_, fun m i b m' j hi hj hne => ?_⟩
    · have hn := (List.getElem?_eq_some_iff.1 hb).1
      simp only [Hub.vwrite, hx, get_putBytes, Nat.le_add_right, if_true, Nat.add_sub_cancel_left, List.getD]
      by_cases hp : x.pois = some true
      · simp [hp, hn]
      · simp [hp, hb]
    · simp only [Hub.vwrite, hx, get_putBytes]
      split
      · rw [List.getD_eq_default _ _ (by rw [hlen]; omega)]
      · rfl
    · cases hp : x.pois <;> simp [Hub.vwrite, hp, get_putPois]
    · simp [h.maskBit_maskWrite m i b m i hi hi]
    · rw [h.maskBit_maskWrite m i b m' j hi hj, if_neg]
      rintro ⟨rfl, rfl⟩
      simp at hne

theorem sameRegisters_refl (h : Hub) : SameRegisters h h := ⟨rfl, rfl, rfl, rfl, rfl, rfl, rfl, rfl, rfl, rfl, rfl⟩

/-- The state `s` with another agenda and `g` as the hub at hand: what every word of a unit leaves behind. -/
def State.movedTo (s : State) (ag : List Due) (q : Nat) (g : Hub) : State :=
  { s with agenda := ag, seq := q, hubs := SMap.put s.hubs (hubKey s) g }

theorem State.hub_movedTo (s : State) (ag : List Due) (q : Nat) (g : Hub) (x h : Nat) :
    (s.movedTo ag q g).hub x h = if 8 * x + h = hubKey s then g else s.hub x h := SMap.get_put ..

theorem State.curHub_movedTo (s : State) (ag : List Due) (q : Nat) (g : Hub) : (s.movedTo ag q g).curHub = g :=
  (s.hub_movedTo ag q g _ _).trans (if_pos rfl)

/-- What holds of the hub at hand and its successor, and of each hub and itself, holds of every hub before and after the word. -/
theorem State.hub_movedTo_rel (s : State) (ag : List Due) (q : Nat) (g : Hub) (P : Hub → Hub → Prop) (hrefl : ∀ h, P h h)
    (hg : P s.curHub g) (x h : Nat) : P (s.hub x h) ((s.movedTo ag q g).hub x h) := by
  rw [State.hub_movedTo]
  split
  next e =>
    have : s.hub x h = s.curHub := congrArg (SMap.get ({} : Hub) s.hubs) e
    rw [this]; exact hg
  next => exact hrefl _

theorem afterCore_movedTo (s : State) (l : Nat) (a : Act) (d : Nat) :
    afterCore s l a d = s.movedTo (dueOf s l a :: s.agenda) (s.seq + 1) (s.curHub.advance (s.die s.cur.die).cad d) := rfl
theorem afterPlain_movedTo (s : State) (d : Nat) :
    afterPlain s d = s.movedTo s.agenda s.seq (s.curHub.advance (s.die s.cur.die).cad d) := rfl
theorem afterJump_movedTo (s : State) (pc d : Nat) :
    afterJump s pc d = s.movedTo s.agenda s.seq { s.curHub with pc := pc, next := (s.die s.cur.die).cad + d, wait := .none } := rfl
theorem afterWait_movedTo (s : State) (w : Wait) :
    afterWait s w = s.movedTo s.agenda s.seq { s.curHub with wait := w, next := (s.die s.cur.die).cad + 1 } := rfl
theorem afterWords_movedTo (s : State) (l : Nat) (a : Act) (w c : Nat) :
    afterWords s l a w c = s.movedTo (dueOf s l a :: s.agenda) (s.seq + 1) (afterIssue s w c) := rfl
theorem afterSlots_movedTo (s : State) (c : Nat) : afterSlots s c = s.movedTo s.agenda s.seq (afterIssue s 1 c) := rfl

/-- A control-core word moves the PC, the loops and the wait of its hub; its registers stay. -/
theorem sameRegisters_advance (h : Hub) (now d : Nat) : SameRegisters h (h.advance now d) := sameRegisters_refl h

/-- An engine's word moves its own stream alone. -/
theorem afterIssue_stream (s : State) (w c e : Nat) (he : e ≠ s.cur.eng) : (afterIssue s w c).stream e = s.curHub.stream e :=
  SMap.get_put_ne _ _ _ he

/-- A word that moves the hub at hand, and keeps its registers, changes no other hub, no memory and no special register. -/
theorem State.movedTo_frame (s : State) (ag : List Due) (q : Nat) (g : Hub) (hg : SameRegisters s.curHub g) :
    let t := s.movedTo ag q g
    SameMemory s t ∧ (∀ x h, h < 8 → SameRegisters (s.hub x h) (t.hub x h)) ∧ t.parts = s.parts ∧ t.slots = s.slots ∧
    t.dies = s.dies ∧ t.arrays = s.arrays ∧ t.xdies = s.xdies ∧ t.pls = s.pls ∧ t.dev = s.dev ∧ t.inbox = s.inbox ∧
    (∀ x h, h < 8 → 8 * x + h ≠ hubKey s → t.hub x h = s.hub x h) :=
  ⟨⟨rfl, rfl, rfl, rfl⟩, fun x h _ => s.hub_movedTo_rel ag q g SameRegisters sameRegisters_refl hg x h, rfl, rfl, rfl, rfl, rfl, rfl, rfl, rfl,
    fun x h _ e => (s.hub_movedTo ag q g x h).trans (if_neg e)⟩

theorem State.movedTo_issue_frame (s : State) (ag : List Due) (q w c : Nat) :
    let t := s.movedTo ag q (afterIssue s w c)
    SameMemory s t ∧ (∀ x h, h < 8 → SameRegisters (s.hub x h) (t.hub x h) ∧ (t.hub x h).pc = (s.hub x h).pc ∧
      (t.hub x h).run = (s.hub x h).run ∧ (t.hub x h).wait = (s.hub x h).wait) ∧
    t.parts = s.parts ∧ t.slots = s.slots ∧ t.dies = s.dies ∧ t.arrays = s.arrays ∧ t.xdies = s.xdies ∧ t.pls = s.pls ∧ t.dev = s.dev ∧
    (∀ x h, h < 8 → 8 * x + h ≠ hubKey s → t.hub x h = s.hub x h) ∧
    (∀ e, e ≠ s.cur.eng → s.cur.hub < 8 → t.curHub.stream e = s.curHub.stream e) :=
  ⟨⟨rfl, rfl, rfl, rfl⟩,
    fun x h _ => s.hub_movedTo_rel ag q (afterIssue s w c) (fun g h => SameRegisters g h ∧ h.pc = g.pc ∧ h.run = g.run ∧ h.wait = g.wait)
      (fun h => ⟨sameRegisters_refl h, rfl, rfl, rfl⟩) ⟨⟨rfl, rfl, rfl, rfl, rfl, rfl, rfl, rfl, rfl, rfl, rfl⟩, rfl, rfl, rfl⟩ x h,
    rfl, rfl, rfl, rfl, rfl, rfl, rfl, fun x h _ e => (s.hub_movedTo ag q _ x h).trans (if_neg e),
    fun e he _ => by rw [State.curHub_movedTo]; exact afterIssue_stream s w c e he⟩

/-- Settles O10: every word leaves the state with another agenda and another hub at hand, whose registers are those of before. -/
theorem wordFrames : Obligations.WordFrames := by
  refine ⟨fun s l d pc a w t ht => ?_, fun s l c a t ht => ?_⟩
  · rcases ht with rfl | rfl | rfl | rfl
    · exact s.movedTo_frame _ _ _ (sameRegisters_advance ..)
    · exact s.movedTo_frame _ _ _ (sameRegisters_advance ..)
    · exact s.movedTo_frame _ _ _ (sameRegisters_refl _)
    · exact s.movedTo_frame _ _ _ (sameRegisters_refl _)
  · rcases ht with rfl | rfl
    · exact s.movedTo_issue_frame _ _ 1 1
    · exact s.movedTo_issue_frame _ _ 1 c

end Sys2Proof.Machine
end

section
/-! SUPPORT. Integer words of the control core. Settles O11, O12. -/

namespace Sys2Proof.Machine

open Sys2Proof

/-- The register forms write one s register and end (R342). -/
theorem aluOp_eq (s : State) (d a b : R6) (l : Nat) (f : W64 → W64 → W64) :
    aluOp d a b l f s = afterCore s l (.regS d.toNat (f (s.readS a).v (s.readS b).v) ((s.readS a).p || (s.readS b).p)) 1 := rfl
theorem aluImm_eq (s : State) (d a : R6) (l : Nat) (f : W64 → W64) :
    aluImm d a l f s = afterCore s l (.regS d.toNat (f (s.readS a).v) (s.readS a).p) 1 := rfl
theorem aluCmp_eq (s : State) (d : BitVec 3) (a b : R6) (f : W64 → W64 → Bool) :
    aluCmp d a b f s = afterCore s 1 (.regP d.toNat (f (s.readS a).v (s.readS b).v) ((s.readS a).p || (s.readS b).p)) 1 := rfl

theorem aluOp_out (s : State) (d a b : R6) (l : Nat) (f : W64 → W64 → W64) (v : W64) (h : f (s.readS a).v (s.readS b).v = v) :
    Host.Outcome.next (aluOp d a b l f s) =
      (.next (afterCore s l (.regS d.toNat v ((s.readS a).p || (s.readS b).p)) 1) : Res) := by
  rw [aluOp_eq, h]
theorem aluImm_out (s : State) (d a : R6) (l : Nat) (f : W64 → W64) (v : W64) (h : f (s.readS a).v = v) :
    Host.Outcome.next (aluImm d a l f s) = (.next (afterCore s l (.regS d.toNat v (s.readS a).p) 1) : Res) := by
  rw [aluImm_eq, h]

/-! ### The values of R343 as numbers -/

theorem add_eq_ofNat (x y : W64) : x + y = BitVec.ofNat 64 (x.toNat + y.toNat) := by
  apply BitVec.eq_of_toNat_eq; simp
theorem sub_eq_ofInt (x y : W64) : x - y = BitVec.ofInt 64 (x.toNat - y.toNat) := by
  apply BitVec.eq_of_toInt_eq
  rw [BitVec.toInt_sub, BitVec.toInt_ofInt, BitVec.toInt_eq_toNat_bmod, BitVec.toInt_eq_toNat_bmod]
  simp
theorem shl_eq_ofNat (x : W64) (n : Nat) : x <<< n = BitVec.ofNat 64 (x.toNat * 2 ^ n) := by
  apply BitVec.eq_of_toNat_eq; simp [Nat.shiftLeft_eq]
theorem shr_eq_ofNat (x : W64) (n : Nat) : x >>> n = BitVec.ofNat 64 (x.toNat / 2 ^ n) := by
  apply BitVec.eq_of_toNat_eq
  simp only [BitVec.toNat_ushiftRight, Nat.shiftRight_eq_div_pow, BitVec.toNat_ofNat]
  exact (Nat.mod_eq_of_lt (lt_of_le_of_lt (Nat.div_le_self _ _) x.isLt)).symm
theorem shra_eq_ofInt (x : W64) (n : Nat) : x.sshiftRight n = BitVec.ofInt 64 (x.toInt / 2 ^ n) := by
  rw [BitVec.sshiftRight, Int.shiftRight_eq_div_pow]; simp
theorem ite_toInt_lt (x y : W64) : minS x y = BitVec.ofInt 64 (min x.toInt y.toInt) := by
  unfold minS; split
  · rw [min_eq_right (by omega)]; simp
  · rw [min_eq_left (by omega)]; simp

theorem mul_eq_ofNat (x y : W64) : x * y = BitVec.ofNat 64 (x.toNat * y.toNat) := by
  apply BitVec.eq_of_toNat_eq; simp
theorem maxS_eq (x y : W64) : maxS x y = BitVec.ofInt 64 (max x.toInt y.toInt) := by
  unfold maxS; split
  · rw [max_eq_right (by omega)]; simp
  · rw [max_eq_left (by omega)]; simp
theorem minU_eq (x y : W64) : minU x y = BitVec.ofNat 64 (min x.toNat y.toNat) := by
  unfold minU; split
  · rw [min_eq_right (by omega)]; simp
  · rw [min_eq_left (by omega)]; simp
theorem maxU_eq (x y : W64) : maxU x y = BitVec.ofNat 64 (max x.toNat y.toNat) := by
  unfold maxU; split
  · rw [max_eq_right (by omega)]; simp
  · rw [max_eq_left (by omega)]; simp
/-- Settles O11: each form writes one s or p register, with a value that equals the number R343 gives. -/
theorem integerRegisterForms : Obligations.IntegerRegisterForms := by
  refine ⟨fun s d a b => ?_, fun s d a b => ?_⟩
  · exact ⟨aluOp_out _ _ _ _ _ _ _ (add_eq_ofNat ..), aluOp_out _ _ _ _ _ _ _ (sub_eq_ofInt ..), rfl, rfl, rfl,
      aluOp_out _ _ _ _ _ _ _ (shl_eq_ofNat ..), aluOp_out _ _ _ _ _ _ _ (shr_eq_ofNat ..), aluOp_out _ _ _ _ _ _ _ (shra_eq_ofInt ..),
      rfl, rfl, aluOp_out _ _ _ _ _ _ _ (ite_toInt_lt ..), aluOp_out _ _ _ _ _ _ _ (maxS_eq ..),
      aluOp_out _ _ _ _ _ _ _ (minU_eq ..), aluOp_out _ _ _ _ _ _ _ (maxU_eq ..), rfl, rfl,
      aluOp_out _ _ _ _ _ _ _ (mul_eq_ofNat ..), rfl, rfl, rfl, rfl, rfl, rfl⟩
  · exact ⟨rfl, rfl, rfl⟩


theorem sext14_eq_ofInt (i : BitVec 14) : sext14 i = BitVec.ofInt 64 i.toInt := rfl
theorem addi_eq_ofInt (x : W64) (i : BitVec 14) : x + sext14 i = BitVec.ofInt 64 (x.toInt + i.toInt) := by
  rw [BitVec.ofInt_add, BitVec.ofInt_toInt, sext14_eq_ofInt]
theorem muli_eq_ofInt (x : W64) (i : BitVec 14) : x * sext14 i = BitVec.ofInt 64 (x.toInt * i.toInt) := by
  rw [BitVec.ofInt_mul, BitVec.ofInt_toInt, sext14_eq_ofInt]
theorem toInt_sext14 (i : BitVec 14) : (sext14 i).toInt = i.toInt := BitVec.toInt_signExtend_of_le (by omega)
theorem and_zext64_eq_ofNat (x : W64) (i : BitVec 14) : x &&& zext64 i = BitVec.ofNat 64 (x.toNat &&& i.toNat) := by
  apply BitVec.eq_of_toNat_eq; simp [zext64]
theorem or_zext64_eq_ofNat (x : W64) (i : BitVec 14) : x ||| zext64 i = BitVec.ofNat 64 (x.toNat ||| i.toNat) := by
  apply BitVec.eq_of_toNat_eq; simp [zext64]
theorem xor_zext64_eq_ofNat (x : W64) (i : BitVec 14) : x ^^^ zext64 i = BitVec.ofNat 64 (x.toNat ^^^ i.toNat) := by
  apply BitVec.eq_of_toNat_eq; simp [zext64]
theorem lih_eq_ofNat (x : W64) (k : BitVec 20) : (x <<< (20 : Nat)) + zext64 k = BitVec.ofNat 64 (x.toNat * 2 ^ 20 + k.toNat) := by
  apply BitVec.eq_of_toNat_eq; simp [zext64, Nat.shiftLeft_eq]

/-- Settles O12: each form writes one s register, with a value that equals the number R344 to R346 give. -/
theorem immediateForms : Obligations.ImmediateForms := by
  intro s d a b i n k
  exact ⟨aluImm_out _ _ _ _ _ _ (addi_eq_ofInt ..), aluImm_out _ _ _ _ _ _ (and_zext64_eq_ofNat ..),
    aluImm_out _ _ _ _ _ _ (or_zext64_eq_ofNat ..), aluImm_out _ _ _ _ _ _ (xor_zext64_eq_ofNat ..),
    aluImm_out _ _ _ _ _ _ (shl_eq_ofNat ..), aluImm_out _ _ _ _ _ _ (shr_eq_ofNat ..), aluImm_out _ _ _ _ _ _ (shra_eq_ofInt ..),
    aluImm_out _ _ _ _ _ _ (by rw [sltS, toInt_sext14]), rfl, aluImm_out _ _ _ _ _ _ (muli_eq_ofInt ..), rfl,
    aluImm_out _ _ _ _ _ _ (lih_eq_ofNat ..), aluImm_out _ _ _ _ _ _ (by rw [leaOf, addi_eq_ofInt]), rfl,
    aluImm_out _ _ _ _ _ _ (shr_eq_ofNat ..)⟩

end Sys2Proof.Machine
end

section
/-! SUPPORT. Branches, jumps, calls and loops. Settles O15, O16. -/

namespace Sys2Proof.Machine

open Sys2Proof

theorem branchTarget_lt (pc : Nat) (o : Int) : branchTarget pc o < 2 ^ 32 := by unfold branchTarget; omega

/-- A jump to an address of 32 bits leaves `afterJump`. -/
theorem State.jump_eq (s : State) {pc : Nat} (d : Nat) (h : pc < 2 ^ 32) : s.jump pc d = afterJump s pc d := by
  unfold State.jump afterJump
  rw [Nat.mod_eq_of_lt h]; rfl

/-- A branch goes to its target, or on, at the delay that its hint gives (R353). -/
theorem branchTo_eq (h : BitVec 2) (o : BitVec 14) (taken : Bool) (s : State) :
    branchTo h o taken s =
      if taken then afterJump s (branchTarget s.curHub.pc o.toInt) (if h.toNat = 1 then 1 else 4)
      else afterPlain s (if h.toNat = 1 then 4 else 1) := by
  unfold branchTo branchDelay
  cases taken
  · by_cases hh : h.toNat = 1 <;> simp [hh, State.advance_eq_afterPlain]
  · by_cases hh : h.toNat = 1 <;> simp [hh, State.jump_eq s _ (branchTarget_lt ..)]

theorem exec_br_reg (c : BitVec 4) (h : BitVec 2) (a : R6) (o : BitVec 14) (s : State) (hc : c.toNat ≤ 5) (hp : (s.readS a).p = false) :
    exec (.br c h a o) s = .next (branchTo h o (condS c.toNat (s.readS a).v) s) := by
  rw [exec_br, execBr, if_pos hc]; simp [hp]

theorem exec_br_pred (c : BitVec 4) (h : BitVec 2) (a : R6) (o : BitVec 14) (s : State) (hc : 5 < c.toNat)
    (hp : (s.curHub.readP (a.toNat % 8)).2 = false) :
    exec (.br c h a o) s = .next (branchTo h o
      (if c.toNat = 6 then (s.curHub.readP (a.toNat % 8)).1 else !(s.curHub.readP (a.toNat % 8)).1) s) := by
  rw [exec_br, execBr, if_neg (by omega)]; simp [hp]

/-- Settles O15: each word is a jump, or goes on, at the delay that its hint gives. -/
theorem branchesJumpsAndCalls : Obligations.BranchesJumpsAndCalls := by
  intro s c h a b o f pc tgt go x q
  have hgo : ∀ taken, branchTo h o taken s = go taken := fun taken => branchTo_eq h o taken s
  refine ⟨fun hp => ?_, fun hp => ?_, ?_, ?_, ?_, ?_, fun hp => ?_⟩
  · have hbr : ∀ n v, n ≤ 5 → condS n (s.readS a).v = v → c.toNat = n → exec (.br c h a o) s = .next (go v) := by
      intro n v hn hv hc
      rw [exec_br_reg c h a o s (by omega) hp, hc, hgo, hv]
    exact ⟨hbr 0 _ (by omega) rfl, hbr 1 _ (by omega) (Bool.eq_iff_iff.2 (by simp [condS, x])), hbr 2 _ (by omega) rfl,
      hbr 3 _ (by omega) rfl, hbr 4 _ (by omega) rfl, hbr 5 _ (by omega) rfl⟩
  · refine ⟨fun hc => ?_, fun hc => ?_⟩
    · rw [exec_br_pred c h a o s (by omega) hp, hgo, if_pos hc]
    · rw [exec_br_pred c h a o s (by omega) hp, hgo, if_neg (by omega)]
  · rw [exec_checkS, execCheckS, hgo]
  · rw [exec_checkP, execCheckP, hgo]
  · rw [exec_jmp, execJmp, State.jump_eq s _ (branchTarget_lt ..)]; rfl
  · rw [exec_call, execCall, State.jump_eq _ _ (branchTarget_lt ..)]; rfl
  · have hlt : lo32 (s.readS 63).v / 4 * 4 < 2 ^ 32 := by unfold lo32; omega
    rw [exec_ret, execRet, if_neg (by rw [hp]; exact Bool.false_ne_true), State.jump_eq s _ hlt]; rfl


/-- No loop ends on the word: the test changes nothing. -/
theorem loopTest_none (w : Nat) (ls : List LoopRec) (lc : SMap PVal) (h : ∀ l ∈ ls, l.last ≠ w) : loopTest w ls lc = (ls, lc, none) := by
  induction ls with
  | nil => rfl
  | cons l r ih => rw [loopTest, if_neg (h l (by simp)), ih fun x hx => h x (by simp [hx])]

/-- Loops before the first that ends on the word stay, and are not counted. -/
theorem loopTest_append (w : Nat) (pre ls : List LoopRec) (lc : SMap PVal) (h : ∀ l ∈ pre, l.last ≠ w) :
    loopTest w (pre ++ ls) lc = (pre ++ (loopTest w ls lc).1, (loopTest w ls lc).2) := by
  induction pre with
  | nil => rfl
  | cons l r ih => rw [List.cons_append, loopTest, if_neg (h l (by simp)), ih fun x hx => h x (by simp [hx])]; rfl

/-- The counter that a loop test leaves in a loop's counter register (R357). -/
def counted (lc : SMap PVal) (l : LoopRec) : Nat := ((SMap.get {} lc l.lc).v.toNat + 2 ^ 32 - 1) % 2 ^ 32

theorem loopTest_round (w : Nat) (l : LoopRec) (ls : List LoopRec) (lc : SMap PVal) (h : l.last = w) (hc : counted lc l ≠ 0) :
    loopTest w (l :: ls) lc = (l :: ls, SMap.put lc l.lc ⟨BitVec.ofNat 64 (counted lc l), (SMap.get {} lc l.lc).p⟩, some l.start) := by
  rw [loopTest, if_pos h]; exact if_pos hc

theorem loopTest_end (w : Nat) (l : LoopRec) (ls : List LoopRec) (lc : SMap PVal) (h : l.last = w) (hc : counted lc l = 0) :
    loopTest w (l :: ls) lc = loopTest w ls (SMap.put lc l.lc ⟨BitVec.ofNat 64 (counted lc l), (SMap.get {} lc l.lc).p⟩) := by
  rw [loopTest, if_pos h, hc]
  exact if_neg (fun h => h hc)

/-- A loop that goes round: those before it, and it, stay. -/
theorem loopTest_append_round (w : Nat) (pre : List LoopRec) (l : LoopRec) (post : List LoopRec) (lc : SMap PVal)
    (hpre : ∀ x ∈ pre, x.last ≠ w) (h : l.last = w) (hc : counted lc l ≠ 0) :
    loopTest w (pre ++ l :: post) lc =
      (pre ++ l :: post, SMap.put lc l.lc ⟨BitVec.ofNat 64 (counted lc l), (SMap.get {} lc l.lc).p⟩, some l.start) := by
  rw [loopTest_append w pre _ lc hpre, loopTest_round w l post lc h hc]

/-- Settles O16: the loops on the counter are taken out, and the test of the rest goes loop by loop, latest started first. -/
theorem loopStartsOrSkips : Obligations.LoopStartsOrSkips := by
  refine ⟨?_, ?_⟩
  · intro s j a o hp h n now started others lc
    have hex : exec (.loop j a o) s = .next { s with
        hubs := SMap.put s.hubs (hubKey s)
          { h with
            loops := started ++ (loopTest h.pc others lc).1, lc := (loopTest h.pc others lc).2.1, next := now + 1
            pc := (loopTest h.pc others lc).2.2.getD (if n = 0 then h.pc + 4 * o.toNat + 4 else h.pc + 4) } } := by
      rw [exec_loop, execLoop, if_neg (by simp [hp])]
      by_cases hn : n = 0
      · have hn' : lo32 (s.readS a).v = 0 := hn
        simp only [hn', if_true, started, lc, hn]; rfl
      · have hn' : ¬ lo32 (s.readS a).v = 0 := hn
        simp only [hn', if_false, started, lc, hn]; rfl
    refine ⟨fun hall => ?_, ?_⟩
    · rw [hex, loopTest_none _ _ _ hall]; rfl
    · intro pre l post hsplit hpre hl c hc
      rw [hex, hsplit, loopTest_append_round _ pre l post lc hpre hl hc]; rfl
  · intro s h now
    refine ⟨rfl, fun f => ⟨_, rfl, ?_, ?_⟩, fun hall => ?_, ?_⟩
    · rw [State.jump_eq s _ (branchTarget_lt ..), afterJump_movedTo, State.curHub_movedTo]
    · rw [State.jump_eq s _ (branchTarget_lt ..), afterJump_movedTo, State.curHub_movedTo]
    · unfold Hub.advance
      rw [loopTest_none _ _ _ hall]; rfl
    · intro pre l post hsplit hpre hl k c lc
      refine ⟨fun hc => ?_, fun hc => ?_⟩
      · unfold Hub.advance
        rw [hsplit, loopTest_append_round _ pre l post _ hpre hl hc]; rfl
      · unfold Hub.advance
        rw [hsplit, loopTest_append _ pre _ _ hpre, loopTest_end _ l post _ hl hc, loopTest_append _ pre _ _ hpre]; rfl

end Sys2Proof.Machine
end

section
/-! SUPPORT. Loads and stores of the own memory. Settles O17. -/

namespace Sys2Proof.Machine

open Sys2Proof

theorem heldByMark_none (i : Instr) (va vb vd : PVal) (k : State → State) (s : State) (h : s.curHub.mark = none) :
    heldByMark i va vb vd k s = k s := by
  unfold heldByMark; rw [h]; rfl

/-- A store whose access lies in a writable range of the sets violates none of them (R187). -/
theorem State.stViolation_none (s : State) (die hub a n : Nat) (h : s.violation die hub 0 .write a n = none) :
    s.stViolation die hub a n = none := by
  unfold State.stViolation; rw [h]

theorem exec_ld_next (s : State) (d a : R6) (z : BitVec 2) (i : BitVec 12) (p : Nat) (t : Target)
    (hp : (s.readS a).p = false) (hea : eaOf (s.readS a).v.toNat i.toInt = some p) (hsp : ptrSpace p ≠ 6)
    (ht : s.translate s.cur.die s.cur.hub .ldst p (2 ^ z.toNat) 1 = .ok t) (hm : s.curHub.mark = none)
    (hv : s.violation s.cur.die s.cur.hub 0 .read t.addr (2 ^ z.toNat) = none) :
    exec (.ld d a z i) s = .next (afterCore s 2
      (.sample t.addr (2 ^ z.toNat) (.reg s.cur.die s.cur.hub d.toNat ((s.die s.cur.die).cad + 4))) 1) := by
  rw [exec_ld, execLd, heldByMark_none _ _ _ _ _ _ hm, doLd]
  simp only [sizeOf2, off12, hp, hea, hsp, ht, hv, Bool.false_eq_true, if_false]
  rfl

theorem exec_st_next (s : State) (d a : R6) (z : BitVec 2) (i : BitVec 12) (p : Nat) (t : Target)
    (hp : (s.readS a).p = false) (hea : eaOf (s.readS a).v.toNat i.toInt = some p)
    (ht : s.translate s.cur.die s.cur.hub .ldst p (2 ^ z.toNat) 1 = .ok t)
    (hv : s.violation s.cur.die s.cur.hub 0 .write t.addr (2 ^ z.toNat) = none) :
    exec (.st d a z i) s = .next (afterCore s 3
      (.write t.addr (leBytes (2 ^ z.toNat) (s.readS d).v.toNat) (s.readS d).p) 1) := by
  rw [exec_st, execSt]
  simp only [sizeOf2, off12, hp, hea, ht, State.stViolation_none _ _ _ _ _ hv, Bool.false_eq_true, if_false]
  rfl

/-- A local access is open to LD and ST in space 0x0 alone (R348). -/
theorem State.translate_ldst_space (s : State) (die hub x n align : Nat) (t : Target)
    (h : s.translate die hub .ldst x n align = .ok t) : ptrSpace x = 0 := by
  unfold State.translate at h
  by_contra hne
  have : (ptrSpace x == 0) = false := by simpa using hne
  simp only [openTo, this] at h
  split at h <;> simp at h

/-- A hub's own scratchpad (R192): the owner of a pointer of space 0x0. -/
theorem State.owner_local (s : State) (die hub part x : Nat) (h0 : ptrSpace x = 0) (h1 : ptrPos x = 0) (h2 : ptrHub x = 0)
    (h3 : ptrEng x = 0) :
    s.owner die hub part x = .ok (homeScratch (s.kind die) die hub, (s.kind die).scratchSize, die) := by
  unfold State.owner; simp [h0, h1, h2, h3]

theorem State.timedLatency_self (s : State) (n p : Nat) : s.timedLatency n p p = some 0 := if_pos rfl

theorem State.translate_local (s : State) (die hub x n : Nat) (g : Group) (h0 : ptrSpace x = 0) (h1 : ptrPos x = 0)
    (h2 : ptrHub x = 0) (h3 : ptrEng x = 0) (ho : openTo g 0 = true) (hn : ptrOff x + n ≤ (s.kind die).scratchSize)
    (hm : (s.hub die hub).launch.timed = true → s.isMember (s.hub die hub).launch.plid die = true) :
    s.translate die hub g x n 1 =
      .ok ⟨0, flat (homeScratch (s.kind die) die hub) (ptrOff x), die, (s.hub die hub).launch.timed, 0⟩ := by
  unfold State.translate
  simp only [h0, ho, State.owner_local s die hub _ x h0 h1 h2 h3, show ¬ (s.kind die).scratchSize < ptrOff x + n by omega, Nat.mod_one]
  cases ht : (s.hub die hub).launch.timed
  · simp
  · simp [hm ht, State.timedLatency_self]

theorem State.landAct_sample (s : State) (die at_ lpos hub eng q a n r w dt : Nat) :
    s.land ⟨die, at_, lpos, hub, eng, q, .sample a n (.reg die hub r w), none, dt⟩ =
      (s.eccRead die hub 0 dt [(a, n)]).follow ⟨die, at_, lpos, hub, eng, q, .sample a n (.reg die hub r w), none, dt⟩ die w
        (s.hub die hub).lpos hub 0 (.regS r (BitVec.ofNat 64 (s.readNat a n)) (s.poisoned a n)) none := by
  show (s.eccRead die hub 0 dt [(a, n)]).replyReg _ _ _ _ _ _ = _
  unfold State.replyReg
  rw [if_pos rfl]
  simp

/-- Settles O17: LD and ST complete once their translation and their sets are given, and a landing follows the agenda entry alone. -/
theorem localLoadsAndStores : Obligations.LocalLoadsAndStores := by
  refine ⟨fun s d a z i p t hp hea ht => ⟨fun hm hv => ?_, fun hv => exec_st_next s d a z i p t hp hea ht hv⟩,
    fun s die hub x n g h0 h1 h2 h3 ho hn hm => s.translate_local die hub x n g h0 h1 h2 h3 ho hn hm,
    fun s die at_ lpos hub eng q a n r w dt bs p => ⟨?_, rfl⟩⟩
  · have hsp := s.translate_ldst_space _ _ _ _ _ _ ht
    exact exec_ld_next s d a z i p t hp hea (by omega) ht hm hv
  · rw [State.landAct_sample]
    refine ⟨?_, ?_, ?_⟩
    · simp [State.follow]
    · rw [sameMemory_iff]; simp
    · simp [State.follow]

end Sys2Proof.Machine
end

section
/-! SUPPORT. Far loads and stores, and what a packet that is sent leaves. Settles O18. -/

namespace Sys2Proof.Machine

open Sys2Proof

theorem State.cad_setDie (s : State) (p q : Nat) (d : Die) (h : d.cad = (s.die p).cad) : ((s.setDie p d).die q).cad = (s.die q).cad := by
  show (SMap.get {} (SMap.put s.dies p d) q).cad = _
  rw [SMap.get_put]
  split
  next e => rw [h, e]
  next => rfl

@[simp] theorem State.cad_setModule (s : State) (p m q : Nat) (k : Module) : ((s.setModule p m k).die q).cad = (s.die q).cad :=
  s.cad_setDie _ _ _ rfl

@[simp] theorem State.cad_startTimer (s : State) (p m q : Nat) : ((s.startTimer p m).die q).cad = (s.die q).cad := by
  unfold State.startTimer
  dsimp only
  split
  · rfl
  · exact s.cad_setModule ..

/-- A packet that goes on changes the modules of dies, never the time of one. -/
@[simp] theorem State.cad_sendOn (s : State) (p m id q : Nat) : ((s.sendOn p m id).die q).cad = (s.die q).cad :=
  (State.cad_startTimer ..).trans (s.cad_setModule ..)

@[simp] theorem State.cad_forward (s : State) (at_ id q : Nat) : ((s.forward at_ id).die q).cad = (s.die q).cad := by
  unfold State.forward
  split
  · rfl
  · extract_lets dst
    split
    · split <;> rfl
    · split
      · exact s.cad_sendOn ..
      · rfl

@[simp] theorem State.cad_send (s : State) (p : Pkt) (q : Nat) : ((s.send p).die q).cad = (s.die q).cad :=
  State.cad_forward _ _ _ _

@[simp] theorem State.cad_sendQueued (s : State) (p : Pkt) (load store : Bool) (q : Nat) :
    ((s.sendQueued p load store).die q).cad = (s.die q).cad := by
  unfold State.sendQueued
  extract_lets h id e
  split
  · exact State.cad_send ..
  · rfl

theorem State.startTimer_net (s : State) (p m : Nat) : (s.startTimer p m).net = s.net := by
  unfold State.startTimer
  dsimp only
  split <;> rfl

theorem State.sendOn_net (s : State) (p m id : Nat) : (s.sendOn p m id).net = s.net := State.startTimer_net ..

/-- A packet that arrives as an event stays listed while it is on its way. -/
theorem State.forward_net (s : State) (at_ id : Nat) (p : Pkt) (h : SMap.find id s.net = some p) (he : (arrivalEvent p).isSome) :
    (s.forward at_ id).net = s.net := by
  unfold State.forward
  rw [h]
  show State.net (let dst := if p.back then p.die else if p.target < 48 then p.target else s.actingH
    if at_ = dst then (match arrivalEvent p with | some i => s.inOrder p.channel i { n := id } | none => { s with net := SMap.drop s.net id })
    else (match s.firstModule s.alive at_ dst with | some m => s.sendOn at_ m id | none => s)) = _
  extract_lets dst
  split
  · split
    · rfl
    next hn => simp [hn] at he
  · split
    · exact s.sendOn_net ..
    · rfl

theorem State.send_net (s : State) (p : Pkt) (he : (arrivalEvent p).isSome) : (s.send p).net = SMap.put s.net s.netSeq p :=
  State.forward_net _ _ _ p (SMap.find_put_self ..) he

/-- The packet of a queued access is listed, whether it goes now or waits for an earlier atomic (R226). -/
theorem State.sendQueued_net (s : State) (p : Pkt) (load store : Bool) (he : (arrivalEvent p).isSome) :
    (s.sendQueued p load store).net = SMap.put s.net s.netSeq p := by
  unfold State.sendQueued
  extract_lets h id e
  split
  · exact State.send_net _ p he
  · rfl


/-- A queued access is noted in the hub that makes it; nothing else of a hub changes. -/
theorem State.hubs_sendQueued (s : State) (p : Pkt) (load store : Bool) :
    ∃ es, (s.sendQueued p load store).hubs = SMap.put s.hubs (8 * p.die + p.hub) { s.hub p.die p.hub with accesses := es } := by
  unfold State.sendQueued
  extract_lets h id e
  split
  · refine ⟨h.accesses ++ [e], ?_⟩
    have hf := (State.send_frame (s.setHub p.die p.hub { h with accesses := h.accesses ++ [e] }) p)
    obtain ⟨-, -, -, -, -, -, -, -, -, -, hh, -⟩ := hf
    exact hh
  · exact ⟨_, rfl⟩

theorem State.curHub_sendQueued (s : State) (p : Pkt) (load store : Bool) (hd : p.die = s.cur.die) (hh : p.hub = s.cur.hub) :
    ∃ es, (s.sendQueued p load store).curHub = { s.curHub with accesses := es } := by
  obtain ⟨es, h⟩ := s.hubs_sendQueued p load store
  refine ⟨es, ?_⟩
  unfold State.curHub State.hub
  rw [(s.sendQueued_frame p load store).1, h, hd, hh, SMap.get_put_self]
  rfl

theorem exec_ldx_next (s : State) (d a : R6) (z : BitVec 2) (i : BitVec 12) (hm : s.curHub.mark = none) :
    exec (.ldx d a z i) s = .next (doLdx d z i (s.readS a) s) := by
  rw [exec_ldx, execLdx, heldByMark_none _ _ _ _ _ _ hm]

theorem doLdx_far (s : State) (d a : R6) (z : BitVec 2) (i : BitVec 12) (p : Nat) (t : Target)
    (hp : (s.readS a).p = false) (hea : eaOf (s.readS a).v.toNat i.toInt = some p) (hs : 1 ≤ ptrSpace p ∧ ptrSpace p ≤ 4)
    (ht : s.translate s.cur.die s.cur.hub .ldx p (2 ^ z.toNat) 1 = .ok t)
    (hv : s.violation s.cur.die s.cur.hub 0 .read t.addr (2 ^ z.toNat) = none) :
    doLdx d z i (s.readS a) s =
      if t.timed then
        (s.request t.die (t.lat + 4) (.sample t.addr (2 ^ z.toNat)
          (.ldx s.cur.die s.cur.hub d.toNat ((s.die s.cur.die).cad + 2 * t.lat + 8)))).advance 1
      else
        (s.countedLoad { s.packet 0 t.die t.addr (2 ^ z.toNat) with reg := d.toNat } false (s.promiseTo s.cur.die t.die)).advance 1 := by
  unfold doLdx
  simp only [sizeOf2, off12, hp, hea, Bool.false_eq_true, if_false]
  split
  · omega
  · omega
  · omega
  · simp only [ht, hv]; rfl

theorem doLdx_control (s : State) (d a : R6) (z : BitVec 2) (i : BitVec 12) (p q : Nat)
    (hp : (s.readS a).p = false) (hea : eaOf (s.readS a).v.toNat i.toInt = some p) (hs : ptrSpace p = 7)
    (hq : s.phys s.curHub.launch.part (ptrPos p) = some q) (hh : ptrHub p = 0) (he : ptrEng p = 0)
    (hlim : ptrOff p + 2 ^ z.toNat ≤ 2 ^ 20) (hn : 2 ^ z.toNat = 8) (hal : ptrOff p % 8 = 0) :
    doLdx d z i (s.readS a) s =
      (s.countedLoad { s.packet 0xB q (ptrOff p) (2 ^ z.toNat) with reg := d.toNat } false (s.promiseTo s.cur.die q)).advance 1 := by
  unfold doLdx
  simp only [sizeOf2, off12, hp, hea, Bool.false_eq_true, if_false]
  rw [hs]
  simp only [hq, hh, he]
  have hlim' : ¬ 2 ^ 20 < ptrOff p + 8 := by omega
  simp only [ne_eq, not_true, or_self, if_false, hn, hal, hlim']

theorem doLdx_handle (s : State) (d a : R6) (z : BitVec 2) (i : BitVec 12) (p : Nat)
    (hp : (s.readS a).p = false) (hea : eaOf (s.readS a).v.toNat i.toInt = some p) (hs : ptrSpace p = 5) (hb : bits p 59 52 = 0) :
    let h := s.handleOf (bits p 51 48)
    doLdx d z i (s.readS a) s =
      match handleAccess h (ptrOff p) (2 ^ z.toNat) false with
      | .error (k, c) => s.coreFault k c [poisonS d (s.ldxCycle p)]
      | .ok none => (s.voidLoad { s.packet 0 s.cur.die (flat (homeHbm s.cur.die) 0) (2 ^ z.toNat) with reg := d.toNat } (handlePromise h)).advance 1
      | .ok (some x) => (s.countedLoad { s.packet 0 (homeDie (homeOf x)) x (2 ^ z.toNat) with reg := d.toNat } false (handlePromise h)).advance 1 := by
  unfold doLdx
  simp only [sizeOf2, off12, hp, hea, Bool.false_eq_true, if_false]
  rw [hs]
  simp only [hb]
  rfl

theorem exec_stx_far (s : State) (d a : R6) (z : BitVec 2) (i : BitVec 12) (p : Nat) (t : Target)
    (hp : (s.readS a).p = false) (hea : eaOf (s.readS a).v.toNat i.toInt = some p)
    (hs : ptrSpace p = 1 ∨ ptrSpace p = 2 ∨ ptrSpace p = 4)
    (ht : s.translate s.cur.die s.cur.hub .stx p (2 ^ z.toNat) 1 = .ok t)
    (hv : s.violation s.cur.die s.cur.hub 0 .write t.addr (2 ^ z.toNat) = none) :
    exec (.stx d a z i) s = .next
      (if t.timed then (s.request t.die (t.lat + 4) (.write t.addr (leBytes (2 ^ z.toNat) (s.readS d).v.toNat) (s.readS d).p)).advance 1
       else
        (s.sendQueued { s.packet 2 t.die t.addr (2 ^ z.toNat) with bytes := leBytes (2 ^ z.toNat) (s.readS d).v.toNat, pois := (s.readS d).p }
          false true).advance 1) := by
  rw [exec_stx, execStx]
  simp only [sizeOf2, off12, hp, hea, Bool.false_eq_true, if_false]
  split
  · omega
  · omega
  · simp only [ht, hv]
    split <;> rfl

theorem exec_stx_handle (s : State) (d a : R6) (z : BitVec 2) (i : BitVec 12) (p : Nat)
    (hp : (s.readS a).p = false) (hea : eaOf (s.readS a).v.toNat i.toInt = some p) (hs : ptrSpace p = 5) (hb : bits p 59 52 = 0)
    (hst : (s.handleOf (bits p 51 48)).st = .valid) (hsz : ptrOff p + 2 ^ z.toNat ≤ (s.handleOf (bits p 51 48)).size)
    (hw : (s.handleOf (bits p 51 48)).w = true) (hd : (s.readS d).p = false) :
    let x := flat (s.handleOf (bits p 51 48)).home ((s.handleOf (bits p 51 48)).base + ptrOff p)
    let u := s.sendQueued { s.packet 2 (homeDie (homeOf x)) x (2 ^ z.toNat) with bytes := leBytes (2 ^ z.toNat) (s.readS d).v.toNat } false true
    exec (.stx d a z i) s =
      .next ((u.setCurHub { u.curHub with posted := u.curHub.posted || decide (homeDie (homeOf x) = 48) }).advance 1) := by
  rw [exec_stx, execStx]
  simp only [sizeOf2, off12, hp, hea, Bool.false_eq_true, if_false]
  rw [hs]
  have hacc : handleAccess (s.handleOf (bits p 51 48)) (ptrOff p) (2 ^ z.toNat) true =
      .ok (some (flat (s.handleOf (bits p 51 48)).home ((s.handleOf (bits p 51 48)).base + ptrOff p))) := by
    unfold handleAccess
    rw [hst]
    simp only [hw]
    rw [if_neg (by omega), if_neg (by simp)]
  simp only [hb, hacc, hd]
  rfl

theorem exec_stx_endpoint (s : State) (d a : R6) (z : BitVec 2) (i : BitVec 12) (p : Nat)
    (hp : (s.readS a).p = false) (hea : eaOf (s.readS a).v.toNat i.toInt = some p) (hs : ptrSpace p = 6) (hn : 2 ^ z.toNat = 8)
    (h1 : bits p 59 48 = 0) (h2 : bits p 2 0 = 0) (h3 : p.testBit 36 = false) (h4 : bits p 23 13 = 0) (hd : (s.readS d).p = false) :
    exec (.stx d a z i) s = .next (endpointStore p (s.readS d).v s) := by
  rw [exec_stx, execStx]
  simp only [sizeOf2, off12, hp, hea, Bool.false_eq_true, if_false]
  rw [hs]
  simp [hn, h1, h2, h3, h4, hd]


theorem bits_mod_eq (x hi lo n : Nat) (h : hi < n) (hl : lo ≤ hi) : bits (x % 2 ^ n) hi lo = bits x hi lo := by
  unfold bits
  apply Nat.eq_of_testBit_eq
  intro i
  simp only [Nat.testBit_mod_two_pow, Nat.testBit_div_two_pow]
  by_cases hi' : i < hi - lo + 1
  · simp [hi', show i + lo < n by omega]
  · simp [hi']

theorem handleAccess_read (h : Handle) (off n : Nat) :
    (h.st = .valid → off + n ≤ h.size → handleAccess h off n false = .ok (some (flat h.home (h.base + off)))) ∧
    (h.st = .np ∨ h.st = .poison → handleAccess h off n false = .ok none) ∧
    (h.st = .invalid → handleAccess h off n false = .error (0x0C, 1)) := by
  unfold handleAccess
  refine ⟨fun hs hn => ?_, fun hs => ?_, fun hs => ?_⟩
  · rw [hs]; simp; omega
  · rcases hs with hs | hs <;> rw [hs] <;> rfl
  · rw [hs]

theorem handlePromise_valid (h : Handle) (hs : h.st = .valid) : handlePromise h = Config.promise (if h.hbm then 5 else 6) := by
  unfold handlePromise; cases h.hbm <;> simp [hs]
theorem handlePromise_other (h : Handle) (hs : h.st ≠ .valid) : handlePromise h = Config.promise 5 := by
  unfold handlePromise; simp [hs]

theorem State.curHub_setCurHub_advance (s : State) (g : Hub) (d : Nat) :
    ((s.setCurHub g).advance d).curHub = g.advance (s.die s.cur.die).cad d := by
  have hg : (s.setCurHub g).curHub = g := SMap.get_put_self ..
  rw [State.advance_eq_afterPlain, afterPlain_movedTo, State.curHub_movedTo, hg]; rfl

/-- A load whose destination is poisoned all the same: its reply stands in the state, done and poisoned. -/
theorem voidLoad_next (s : State) (p : Pkt) (prom : Nat) :
    let t := (s.voidLoad p prom).advance 1
    t.curHub.next = (s.die s.cur.die).cad + 1 ∧ t.curHub.s = s.curHub.s ∧ SameMemory s t ∧
      ∃ r, SMap.find s.netSeq t.net = some r ∧ r.reg = p.reg ∧ r.pois = true ∧ r.at_ = (s.die s.cur.die).cad + prom := by
  intro t
  have hc : (s.voidLoad p prom).curHub = { s.curHub with accesses := s.curHub.accesses ++ [⟨s.netSeq, 49, homeOf p.addr, true, false, false, true⟩] } :=
    SMap.get_put_self ..
  have ht : t.curHub = (s.voidLoad p prom).curHub.advance (s.die s.cur.die).cad 1 := SMap.get_put_self ..
  refine ⟨by rw [ht]; rfl, by rw [ht, hc]; rfl, (sameMemory_iff _ _).2 (by simp [t]), _, SMap.find_put_self .., rfl, rfl, rfl⟩

/-- A store through a handle: its packet is listed, and the word goes on. -/
theorem handleStore_next (s : State) (p : Pkt) (b : Bool → Bool) (hd : p.die = s.cur.die) (hh : p.hub = s.cur.hub)
    (he : (arrivalEvent p).isSome) :
    let u := s.sendQueued p false true
    let t := (u.setCurHub { u.curHub with posted := b u.curHub.posted }).advance 1
    t.curHub.next = (s.die s.cur.die).cad + 1 ∧ t.curHub.s = s.curHub.s ∧ SameMemory s t ∧ SMap.find s.netSeq t.net = some p := by
  intro u t
  obtain ⟨es, hu⟩ := s.curHub_sendQueued p false true hd hh
  have hcur : u.cur = s.cur := (s.sendQueued_frame p false true).1
  have ht : t.curHub = ({ u.curHub with posted := b u.curHub.posted } : Hub).advance (u.die u.cur.die).cad 1 :=
    u.curHub_setCurHub_advance _ 1
  have hcad : (u.die u.cur.die).cad = (s.die s.cur.die).cad := by rw [hcur]; exact s.cad_sendQueued ..
  refine ⟨by rw [ht, hcad]; rfl, ?_, (sameMemory_iff _ _).2 (by simp [t, u]), ?_⟩
  · rw [ht]
    show u.curHub.s = _
    rw [hu]
  · show SMap.find s.netSeq u.net = _
    rw [s.sendQueued_net p _ _ he, SMap.find_put_self]

/-- Settles O18: each address space has one lemma for LDX and one for STX, and the packet of a queued access is listed whether it goes or waits. -/
theorem farLoadsAndStores : Obligations.FarLoadsAndStores := by
  intro s d a z i p hp hea n now
  refine ⟨fun t hm hs ht hv => ?_, fun t hs ht hv => exec_stx_far s d a z i p t hp hea hs ht hv,
    fun q hm hs hq hh he hlim hn hal => ?_, ?_, fun hs hn h1 h2 h3 h4 h5 hd hk _ => ?_⟩
  · rw [exec_ldx_next s d a z i hm, doLdx_far s d a z i p t hp hea hs ht hv]
  · rw [exec_ldx_next s d a z i hm, doLdx_control s d a z i p q hp hea hs hq hh he hlim hn hal]
  · intro h hs hb hh at_ q
    have hof : s.handleOf (bits p 51 48) = h := hh
    refine ⟨fun hm => ?_, fun hst hsz hw hd _ => ?_⟩
    · rw [exec_ldx_next s d a z i hm, doLdx_handle s d a z i p hp hea hs hb, hof]
      obtain ⟨hv, hnp, hinv⟩ := handleAccess_read h (ptrOff p) n
      refine ⟨fun hst hsz => ?_, fun hst => ?_, fun hst => ?_⟩
      · rw [hv hst hsz, handlePromise_valid h hst]
      · rw [hnp hst, handlePromise_other h (by rcases hst with e | e <;> rw [e] <;> decide)]
        exact ⟨_, rfl, voidLoad_next s _ _⟩
      · rw [hinv hst]
        have hcy : s.ldxCycle p = Config.promise 5 := by
          unfold State.ldxCycle
          rw [hs, show SMap.get {} s.curHub.handles (bits p 51 48) = h from hh]
          exact handlePromise_other h (by rw [hst]; decide)
        simp only [hcy]
    · refine ⟨_, exec_stx_handle s d a z i p hp hea hs hb (hof ▸ hst) (hof ▸ hsz) (hof ▸ hw) hd, ?_⟩
      obtain ⟨h1, h2, h3, h4⟩ := handleStore_next s { s.packet 2 q at_ n with bytes := leBytes n (s.readS d).v.toNat }
        (fun x => x || decide (q = 48)) rfl rfl rfl
      subst hof
      exact ⟨h1, h2, h3, _, h4, rfl, rfl, rfl, rfl⟩
  · refine ⟨_, exec_stx_endpoint s d a z i p hp hea hs hn h1 ?_ h3 h4 hd, ?_⟩
    · unfold bits; unfold ptrOff at h2; omega
    · have hb : ∀ hi lo, hi < 48 → lo ≤ hi → bits (ptrOff p) hi lo = bits p hi lo := fun hi lo h hl => bits_mod_eq p hi lo 48 h hl
      have h12 : (ptrOff p).testBit 12 = false := by
        unfold ptrOff; rw [Nat.testBit_mod_two_pow, h5]; rfl
      unfold endpointStore
      simp only [hk, h12, hb 47 42 (by omega) (by omega), hb 41 39 (by omega) (by omega), hb 38 37 (by omega) (by omega),
        hb 35 24 (by omega) (by omega)]
      simp only [List.length_nil, List.nil_append, ne_eq, not_true, or_self, if_false, Bool.false_eq_true]
      rw [if_neg (by decide)]
      refine ⟨?_, rfl, (sameMemory_iff _ _).2 (by simp), ?_⟩
      · rw [State.curHub_setCurHub_advance]; rfl
      · rw [State.curHub_setCurHub_advance]; rfl

end Sys2Proof.Machine
end

section
/-! SUPPORT. Atomics, and numbers in memory. Settles O19. -/

namespace Sys2Proof.Machine

open Sys2Proof

/-! ### Numbers in memory -/

theorem leBytes_length (n v : Nat) : (leBytes n v).length = n := by
  induction n generalizing v with
  | zero => rfl
  | succ n ih => rw [leBytes, List.length_cons, ih]

theorem leNat_leBytes (n v : Nat) : leNat (leBytes n v) = v % 2 ^ (8 * n) := by
  induction n generalizing v with
  | zero => simp [leBytes, leNat, Nat.mod_one]
  | succ n ih =>
    rw [leBytes, leNat, ih, BitVec.toNat_ofNat, show 2 ^ (8 * (n + 1)) = 2 ^ 8 * 2 ^ (8 * n) by rw [← pow_add]; congr 1; omega]
    exact (Nat.mod_mul).symm

theorem leNat_lt (bs : List Byte) : leNat bs < 2 ^ (8 * bs.length) := by
  induction bs with
  | nil => simp [leNat]
  | cons b r ih =>
    rw [leNat, List.length_cons, show 2 ^ (8 * (r.length + 1)) = 2 ^ 8 * 2 ^ (8 * r.length) by rw [← pow_add]; congr 1; omega]
    have := b.isLt
    omega

theorem State.readBytes_length (s : State) (a n : Nat) : (s.readBytes a n).length = n := by
  induction n generalizing a with
  | zero => rfl
  | succ n ih => rw [State.readBytes, List.length_cons, ih]

/-- Bytes that are those of memory, one by one. -/
theorem State.readBytes_eq (s : State) (a : Nat) (bs : List Byte) (h : ∀ k b, bs[k]? = some b → s.byteAt (a + k) = b) :
    s.readBytes a bs.length = bs := by
  induction bs generalizing a with
  | nil => rfl
  | cons b r ih =>
    rw [List.length_cons, State.readBytes, show s.byteAt a = b from h 0 b rfl]
    congr 1
    refine ih (a + 1) fun k c hc => ?_
    rw [← h (k + 1) c (by simpa using hc)]
    congr 1
    omega

theorem State.readNat_lt (s : State) (a n : Nat) : s.readNat a n < 2 ^ (8 * n) := by
  have := leNat_lt (s.readBytes a n)
  rwa [s.readBytes_length] at this

/-- A number that is written reads back modulo the width. -/
theorem State.readNat_writeBytes (s : State) (a n v : Nat) (p : Bool) (h : homeOf a = homeOf (a + n)) :
    (s.writeBytes a (leBytes n v) p).readNat a n = v % 2 ^ (8 * n) := by
  have hb : (s.writeBytes a (leBytes n v) p).readBytes a n = leBytes n v := by
    have := State.readBytes_eq (s.writeBytes a (leBytes n v) p) a (leBytes n v)
      (s.byteAt_writeBytes_in a _ p (by rw [leBytes_length]; exact h))
    rwa [leBytes_length] at this
  unfold State.readNat
  rw [hb, leNat_leBytes]

/-! ### AMO and CAS -/

/-- A number of `n` bytes as a signed one. -/
def signedOf (n x : Nat) : Int :=
  if x % 2 ^ (8 * n) < 2 ^ (8 * n) / 2 then ((x % 2 ^ (8 * n) : Nat) : Int) else ((x % 2 ^ (8 * n) : Nat) : Int) - (2 ^ (8 * n) : Nat)

theorem decode_signed (n x : Nat) (hn : 0 < n) : (⟨8 * n, true⟩ : ITy).decode x = signedOf n x := by
  unfold ITy.decode sextNat signedOf
  have hpow : 2 ^ (8 * n) = 2 * 2 ^ (8 * n - 1) := by rw [← pow_succ']; congr 1; omega
  simp only [if_true]
  have : 2 ^ (8 * n) / 2 = 2 ^ (8 * n - 1) := by omega
  rw [this]

/-- A checked atomic is sent to its home: as a timed request, or in a packet. -/
theorem doAmo_sent (s : State) (op : AmoOp) (d : R6) (z : Nat) (x y e : PVal) (t : Target) (hx : x.p = false) (hy : y.p = false)
    (he : op = .cas → e.p = false) (ht : s.translate s.cur.die s.cur.hub .amo x.v.toNat (2 ^ z) (2 ^ z) = .ok t)
    (hv : s.violation s.cur.die s.cur.hub 0 .atomic t.addr (2 ^ z) = none)
    (hdet : s.curHub.launch.timed = true ∨ s.curHub.launch.det = false) :
    let q : AmoReq :=
      { op := op, addr := t.addr, size := 2 ^ z, operand := y.v.toNat % 2 ^ (8 * 2 ^ z), expect := e.v.toNat % 2 ^ (8 * 2 ^ z)
        die := s.cur.die, hub := s.cur.hub, reg := d.toNat, at_ := (s.die s.cur.die).cad + 400 }
    doAmo op d z x y e s =
      if t.timed then (s.request t.die 200 (.amo q)).advance 1
      else (s.countedLoad { s.packet 4 t.die t.addr (2 ^ z) with reg := d.toNat, amo := some q } true (s.promiseTo s.cur.die t.die)).advance 1 := by
  have hcas : (op == .cas && e.p) = false := by
    by_cases h : op = .cas
    · simp [h, he h]
    · simp [h]
  have hclosed : (!s.curHub.launch.timed && s.curHub.launch.det) = false := by
    rcases hdet with h | h <;> simp [h]
  unfold doAmo
  simp only [hx, hy, hcas, ht, hv, hclosed, Bool.false_and, Bool.or_self, Bool.false_eq_true, if_false]
  rfl

/-- Settles O19: every operation comes to one request, and a number that is written reads back modulo its width. -/
theorem atomicsAreSent : Obligations.AtomicsAreSent := by
  refine ⟨?_, ?_⟩
  · intro s op i d a b z t e hi hz hcas ha hb hm ht hv hdet n q
    have hsent := fun (o : AmoOp) (x : PVal) hx => doAmo_sent s o d z.toNat (s.readS a) (s.readS b) x t ha hb hx ht hv hdet
    have hamo : ∀ (j : Instr) (o : AmoOp) x hx, heldByMark j (s.readS a) (s.readS b) x (doAmo o d z.toNat (s.readS a) (s.readS b) x) s = _ :=
      fun j o x hx => (heldByMark_none _ _ _ _ _ _ hm).trans (hsent o x hx)
    simp only [List.mem_cons, Prod.mk.injEq, List.not_mem_nil, or_false] at hi
    rcases hi with ⟨rfl, rfl, rfl⟩ | ⟨rfl, rfl, rfl⟩ | ⟨rfl, rfl, rfl⟩ | ⟨rfl, rfl, rfl⟩ | ⟨rfl, rfl, rfl⟩ | ⟨rfl, rfl, rfl⟩ | ⟨rfl, rfl, rfl⟩ |
      ⟨rfl, rfl, rfl⟩ | ⟨rfl, rfl, rfl⟩ | ⟨rfl, rfl, rfl⟩ | ⟨rfl, rfl, rfl⟩
    case inr.inr.inr.inr.inr.inr.inr.inr.inr.inl =>
      obtain rfl := hz rfl
      exact congrArg _ (hamo (.amoFadd d a b) .fadd {} (by simp))
    case inr.inr.inr.inr.inr.inr.inr.inr.inr.inr => exact congrArg _ (hamo (.cas d a b z) .cas (s.readS d) hcas)
    all_goals exact congrArg _ (hamo _ _ {} (by simp))
  · intro s q hhome old m sg new
    have hnew : new = amoValue q.op q.size old q.operand q.expect % m := s.readNat_writeBytes q.addr q.size _ _ hhome
    have hold : old < m := s.readNat_lt ..
    refine ⟨rfl, rfl, fun hn hop => ?_, fun x hx => s.byteAt_writeBytes_out q.addr _ _ (by rw [leBytes_length]; exact hhome) x (by rwa [leBytes_length]), rfl⟩
    have hmod : ∀ v, v < m → v % m = v := fun v hv => Nat.mod_eq_of_lt hv
    have hsg : ∀ x, (⟨8 * q.size, true⟩ : ITy).decode x = sg x := fun x => decode_signed q.size x hn
    rw [hnew]
    refine ⟨fun h => ?_, fun h => ?_, fun h => ?_, fun h => ?_, fun h => ?_, fun h => ?_, fun h => ?_, fun h => ?_, fun h => ?_, fun h => ?_⟩ <;>
      simp only [h, amoValue, hsg]
    · exact Nat.mod_mod ..
    · exact hmod _ (Nat.and_lt_two_pow _ hop)
    · exact hmod _ (Nat.or_lt_two_pow hold hop)
    · exact hmod _ (Nat.xor_lt_two_pow hold hop)
    · exact hmod _ hop
    · split
      · rw [hmod _ hop, min_eq_right (by omega)]
      · rw [hmod _ hold, min_eq_left (by omega)]
    · split
      · rw [hmod _ hop, max_eq_right (by omega)]
      · rw [hmod _ hold, max_eq_left (by omega)]
    · split
      · rw [hmod _ hop, min_eq_right (by omega)]
      · rw [hmod _ hold, min_eq_left (by omega)]
    · split
      · rw [hmod _ hop, max_eq_right (by omega)]
      · rw [hmod _ hold, max_eq_left (by omega)]
    · split
      · exact hmod _ hop
      · exact hmod _ hold

end Sys2Proof.Machine
end

section
/-! SUPPORT. Crossings, segments, replies and timelines, TICK. Settles O20, O21, O22, O27. -/

namespace Sys2Proof.Machine

open Sys2Proof

theorem SMap.put_put {α : Type} (m : SMap α) (k : Nat) (a b : α) : SMap.put (SMap.put m k a) k b = SMap.put m k b := by
  induction m with
  | nil => simp [SMap.put]
  | cons x r ih =>
    obtain ⟨j, c⟩ := x
    by_cases h1 : k < j
    · simp [SMap.put, h1]
    · by_cases h2 : j = k
      · simp [SMap.put, h2]
      · simp [SMap.put, h1, h2, ih]

/-- A hub that is changed and whose word then ends. -/
theorem State.setCurHub_advance (s : State) (g : Hub) (d : Nat) :
    (s.setCurHub g).advance d = { s with hubs := SMap.put s.hubs (hubKey s) (g.advance (s.die s.cur.die).cad d) } := by
  have hg : (s.setCurHub g).curHub = g := SMap.get_put_self ..
  have h : (s.setCurHub g).advance d =
      { s with hubs := SMap.put (SMap.put s.hubs (hubKey s) g) (hubKey s) ((s.setCurHub g).curHub.advance (s.die s.cur.die).cad d) } := rfl
  rw [h, hg, SMap.put_put]

/-- A word that enters a hardware wait leaves `afterWait`. -/
theorem State.waitOn_eq (s : State) (w : Wait) : s.waitOn w = afterWait s w := rfl

/-- Settles O20: both words write once, from the context that the vector engine shows at the issue. -/
theorem scalarVectorCrossings : Obligations.ScalarVectorCrossings := by
  intro s d a b v he c
  have hu : ¬ (!s.hasUnit 1) = true := by rw [show s.hasUnit 1 = true from he]; decide
  refine ⟨?_, fun hi => ?_, fun hi hp => ?_⟩
  · rw [exec_sxv, execSxv, if_neg hu]; rfl
  · rw [exec_vxs, execVxs, if_neg hu]
    exact if_pos hi
  · rw [exec_vxs, execVxs, if_neg hu]
    refine (if_neg (Nat.not_lt.2 hi)).trans ?_
    rw [State.writeS_advance, hp]

/-- A segment enters the queue of its engine, and the word goes on. -/
theorem enqueue_advance (s : State) (e x o : Nat) :
    let h := s.curHub
    let seg : Segment := ⟨x, ((((h.item.getD {}).start + o : Nat) : Int) + (s.die s.cur.die).lshift).toNat, (s.die s.cur.die).cad⟩
    let g := (h.setStream e { h.stream e with queue := (h.stream e).queue ++ [seg] }).advance (s.die s.cur.die).cad 1
    (enqueue e x o s).advance 1 = { s with hubs := SMap.put s.hubs (hubKey s) g } :=
  s.setCurHub_advance _ 1

theorem exec_go_next (s : State) (e : BitVec 4) (g : BitVec 6) (t : BitVec 16) (he : (s.kind s.cur.die).hasEng e.toNat = true)
    (hg : (s.curHub.segment (sectionOf e.toNat) g.toNat).2 ≠ 0) : exec (.go e g t) s = .next (doGo e.toNat g.toNat t.toNat s) := by
  have hu : s.hasUnit e.toNat = true := he
  rw [exec_go, execGo, if_neg (by simp [hu, hg])]

/-- Settles O21: the segment enters the queue unless the start or the queue stands against it. -/
theorem goQueuesASegment : Obligations.GoQueuesASegment := by
  intro s e g t he hg h start x seg after queued
  have hq : (enqueue e.toNat g.toNat t.toNat s).advance 1 = queued := enqueue_advance s _ _ _
  rw [exec_go_next s e g t he hg]
  refine ⟨fun ht hs hpar => ?_, fun ht hlen => ?_, fun ht hlen => ?_⟩
  · have hp : (s.alternates s.cur.die s.cur.hub e.toNat && decide (start % 2 ≠ s.cur.hub % 2)) = false := by
      cases ha : s.alternates s.cur.die s.cur.hub e.toNat
      · rfl
      · simp [hpar ha]
    unfold doGo
    rw [if_pos ht, if_neg (Nat.not_lt.2 hs), if_neg (by rw [show (s.curHub.item.getD {}).start + t.toNat = start from rfl, hp]; decide), hq]
  · unfold doGo
    rw [if_neg (by rw [show s.curHub.launch.timed = false from ht]; decide), if_pos hlen, hq]
  · unfold doGo
    rw [if_neg (by rw [show s.curHub.launch.timed = false from ht]; decide), if_neg (Nat.not_lt.2 hlen)]; rfl

theorem exec_push_next (s : State) (d : R6) (t : Target) (he : (s.kind s.cur.die).hasEng 6 = true) (hp : (s.readS d).p = false)
    (ht : s.translate s.cur.die s.cur.hub .drafting (s.readS d).v.toNat 8 8 = .ok t)
    (hv : s.violation s.cur.die s.cur.hub 0 .read t.addr 8 = none)
    (hf : s.curHub.launch.timed = false → s.pushFault t.addr = none) :
    exec (.push d) s = .next
      (if s.portLoad s.cur.die s.cur.hub < 8 then afterCore s 2 (.push t.addr s.mark) 1 else afterWait s (.push (s.readS d).v.toNat)) := by
  have hu : s.hasUnit 6 = true := he
  have hf' : (if s.curHub.launch.timed then none else s.pushFault t.addr) = none := by
    cases h : s.curHub.launch.timed
    · exact hf h
    · rfl
  rw [exec_push, execPush, if_neg (by simp [hu])]
  simp only [hp, Bool.false_eq_true, if_false]
  unfold doPush
  simp only [ht, hv, hf']
  by_cases hl : s.portLoad s.cur.die s.cur.hub < 8
  · rw [if_neg (by omega), if_pos hl, State.later_advance]
  · rw [if_pos (by omega), if_neg hl, State.waitOn_eq]

/-- What will stand at a pushed address is a legal and clean command (R194, log 19). -/
theorem State.pushFault_none (s : State) (a : Nat) (c) (hp : (s.ahead s.cur.die ((s.die s.cur.die).cad + 2)).poisoned a 8 = false)
    (hc : draftingOf (s.peek s.cur.die ((s.die s.cur.die).cad + 2) a 8) = .ok c) : s.pushFault a = none := by
  unfold State.pushFault State.now
  simp [hc, hp]

/-- The reply queue says nothing about where a word stands. -/
theorem dueOf_setCurHub_replies (s : State) (rs : List Reply) (l : Nat) (a : Act) :
    dueOf (s.setCurHub { s.curHub with replies := rs }) l a = dueOf s l a := by
  have hg : (s.setCurHub { s.curHub with replies := rs }).curHub = { s.curHub with replies := rs } := SMap.get_put_self ..
  have hw : (s.setCurHub { s.curHub with replies := rs }).wordDetail = s.wordDetail := by
    simp only [State.wordDetail, State.curEng, State.wordIdx, State.curTan, hg, State.setCurHub_frame]
    rfl
  unfold dueOf
  rw [hg, hw]; rfl

/-- Settles O22: each word has one lemma for what it finds in the port, the count or the queue. -/
theorem repliesAndTimelines : Obligations.RepliesAndTimelines := by
  intro s d q i
  refine ⟨fun t c he hp ht hv hq => exec_push_next s d t he hp ht hv fun h => s.pushFault_none _ c (hq h).1 (hq h).2, ?_,
    fun hr => ?_, fun r rest hr => ?_⟩
  · intro he hp target
    have hu : s.hasUnit (unitOf q.toNat) = true := he
    rw [exec_tlwait, execTlwait, if_neg (by simp [hu])]
    simp only [hp, Bool.false_eq_true, if_false]
    exact (apply_ite Host.Outcome.next _ _ _).symm
  · rw [exec_pop, execPop, exec_popTag, execPopTag, takeReply, takeTag, hr]
    exact ⟨rfl, rfl⟩
  · rw [exec_pop, execPop, exec_popTag, execPopTag, takeReply, takeTag, hr]
    have hc : (((s.setCurHub { s.curHub with replies := rest }).later 2 (.regS d.toNat r.value r.psn)).advance 1).curHub =
        ({ s.curHub with replies := rest } : Hub).advance (s.die s.cur.die).cad 1 := by
      have hg : (s.setCurHub { s.curHub with replies := rest }).curHub = { s.curHub with replies := rest } := SMap.get_put_self ..
      rw [State.later_advance, afterCore_curHub, hg]; rfl
    refine ⟨rfl, _, rfl, ?_, by rw [hc]; rfl, by rw [hc]; rfl, by rw [hc]; rfl, (sameMemory_iff _ _).2 (by simp)⟩
    show dueOf (s.setCurHub { s.curHub with replies := rest }) 2 (.regS d.toNat r.value r.psn) :: s.agenda = _
    rw [dueOf_setCurHub_replies]

/-- Settles O27: the sum decides between going on and a wait, and the expiry of the wait is the cycle n + c. -/
theorem tickDelaysTheNextWord : Obligations.TickDelaysTheNextWord := by
  intro s k a hp c n
  have hex : exec (.tick k a) s = if c ≤ 1 then .next (afterPlain s 1) else .next (afterWait s (.tick (n + c))) := by
    have hc : ((s.readS a).v + zext64 k).toNat = c := by simp [zext64, c]
    rw [exec_tick, execTick, if_neg (by rw [hp]; decide)]
    simp only [hc]; rfl
  refine ⟨fun h => by rw [hex, if_pos h], fun h => ⟨by rw [hex, if_neg (by omega)], fun u hd hh hw hcad => ?_⟩⟩
  have hat : u.atCore.curHub = u.hub s.cur.die s.cur.hub := by rw [← hd, ← hh]; rfl
  have hnow : u.atCore.now = n + c := by rw [← hcad, ← hd]; rfl
  have hcur : u.atCore.cur = ⟨s.cur.die, s.cur.hub, 0⟩ := by rw [← hd, ← hh]; rfl
  refine ⟨u.atCore.advance 0, ?_, ?_⟩
  · rw [exec_tickExpiry, execTickExpiry]
    simp only [hat, hw, hnow, le_refl, if_true]
  · have ht : (u.atCore.advance 0).hub s.cur.die s.cur.hub = u.atCore.curHub.advance u.atCore.now 0 :=
      (u.atCore.hub_movedTo _ _ _ _ _).trans (if_pos (by rw [hubKey, hcur]))
    rw [ht, hnow]
    exact ⟨rfl, rfl⟩

end Sys2Proof.Machine
end

section
/-! SUPPORT. Handles and the slot table, control registers, item ends, faults, barriers and phases (O28 to O31). -/

namespace Sys2Proof.Machine

open Sys2Proof

/-! ### Handles and the slot table -/

theorem handleFrom_np (e : Xlat) (wr : Bool) (h : e.res = 1) :
    handleFrom e wr = { st := .np, pasid := e.pasid, va := e.va, size := e.size } := by
  unfold handleFrom; rw [if_pos h]

theorem handleFrom_deny (e : Xlat) (wr : Bool) (h : e.res = 2 ∨ e.res = 0 ∧ wr = true ∧ e.w = false) :
    handleFrom e wr = { st := .deny, pasid := e.pasid, va := e.va, size := e.size } := by
  unfold handleFrom
  rw [if_neg (by rcases h with h | ⟨h, -⟩ <;> rw [h] <;> decide),
    if_pos (by rcases h with h | ⟨-, h, hw⟩ <;> simp [*])]

theorem handleFrom_page (e : Xlat) (wr : Bool) (h : e.res = 0) (hw : wr = true → e.w = true) :
    handleFrom e wr = { st := .valid, home := e.home, base := e.base, size := e.size, hbm := e.hbm, w := wr, pasid := e.pasid, va := e.va } := by
  unfold handleFrom
  rw [if_neg (by rw [h]; decide), if_neg (by rw [h]; cases wr <;> simp_all)]

/-- XLATE of an address that a cache of the die holds an entry of. -/
theorem xlate_held (s : State) (h : BitVec 4) (a : R6) (wr : Bool) (e : Xlat) (hp : (s.readS a).p = false)
    (he : (s.die s.cur.die).dtc.find? (fun e => e.hits s.curHub.launch.part s.curHub.launch.pasid ((s.readS a).v.toNat % 2 ^ 48)) = some e)
    (hf : Config.cacheHolds s.free = true) :
    xlate h a wr s = { afterCore s 48 (.handle h.toNat (handleFrom e wr)) 1 with free := s.free + 1 } := by
  unfold xlate
  simp only [hp, hf, Bool.and_true, he, Bool.false_eq_true, if_false]
  rfl

/-- The state in which XLATE has listed the poison of its handle. -/
def xlatePoison (s : State) (h : BitVec 4) (a : R6) : State :=
  { afterCore s 48 (.handle h.toNat
      { st := .poison, pasid := s.curHub.launch.pasid, va := (s.readS a).v.toNat % 2 ^ 48, size := 1 }) 1 with free := s.free + 1 }

theorem xlatePoison_curHub (s : State) (h : BitVec 4) (a : R6) :
    (xlatePoison s h a).curHub = s.curHub.advance (s.die s.cur.die).cad 1 := SMap.get_put_self ..

/-- What the request of a fill says of who asks. -/
def fillAsk (s : State) (h : BitVec 4) (a : R6) (wr : Bool) : PFault :=
  { pasid := s.curHub.launch.pasid, va := (s.readS a).v.toNat % 2 ^ 48, wr := wr, lpos := (xlatePoison s h a).curHub.lpos
    hub := (xlatePoison s h a).cur.hub, slot := s.curHub.launch.slot, qid := s.curHub.launch.qid, mark := (xlatePoison s h a).mark
    ltag := s.curHub.launch.ltag }

/-- XLATE of an address that no cache of the die holds an entry of. -/
theorem xlate_missed (s : State) (h : BitVec 4) (a : R6) (wr : Bool) (hp : (s.readS a).p = false)
    (he : (s.die s.cur.die).dtc.find? (fun e => e.hits s.curHub.launch.part s.curHub.launch.pasid ((s.readS a).v.toNat % 2 ^ 48)) = none ∨
      Config.cacheHolds s.free = false) :
    xlate h a wr s =
      match s.servingB s.curHub.launch.part ((s.readS a).v.toNat % 2 ^ 48) with
      | none => xlatePoison s h a
      | some b =>
        let t := xlatePoison s h a
        t.send { t.packet 6 b ((s.readS a).v.toNat % 2 ^ 48) 0 with
          fill := some (fillAsk s h a wr) } := by
  have hn : (s.die s.cur.die).dtc.find? (fun e => e.hits s.curHub.launch.part s.curHub.launch.pasid ((s.readS a).v.toNat % 2 ^ 48) &&
      Config.cacheHolds s.free) = none := by
    rcases he with he | he
    · cases Config.cacheHolds s.free <;> simp_all
    · simp [he]
  unfold xlate
  simp only [hp, hn, Bool.false_eq_true, if_false]
  rfl

/-- The request of a fill is listed, and the word goes on. -/
theorem xlate_asks (s : State) (h : BitVec 4) (a : R6) (p : Pkt) (hp : p.typ = 6) :
    let u := xlatePoison s h a
    let t := u.send p
    t.curHub.next = (s.die s.cur.die).cad + 1 ∧ t.agenda = u.agenda ∧ SameMemory s t ∧ SameRegisters s.curHub t.curHub ∧
      SMap.find s.netSeq t.net = some p := by
  intro u t
  have hh : t.curHub = s.curHub.advance (s.die s.cur.die).cad 1 := by
    obtain ⟨hcur, -, -, -, -, -, -, -, -, -, hhubs, -⟩ := u.send_frame p
    rw [← xlatePoison_curHub s h a]
    unfold State.curHub State.hub
    rw [hcur, hhubs]
  obtain ⟨-, -, -, hag, -⟩ := u.send_frame p
  refine ⟨by rw [hh]; rfl, hag, (sameMemory_iff _ _).2 ?_, by rw [hh]; exact sameRegisters_advance .., ?_⟩
  · rw [State.send_memory]; rfl
  · rw [u.send_net p (by unfold arrivalEvent; rw [hp]; rfl)]
    exact SMap.find_put_self ..

/-- The operands of a slot-table operation have no bits that its rule asks to be 0 (R215). -/
def slotClean (op : Nat) (x y : W64) : Prop :=
  if op = 0 then x.toNat < 2 ^ 48 ∧ y.toNat < 64
  else x.toNat < 2 ^ 22 ∧ bits x.toNat 15 14 = 0 ∧ (op = 2 ∨ y.toNat < 2 ^ 48)

/-- The logical position that a slot-table operation names (R215). -/
def slotPos (op : Nat) (x y : W64) : Nat := if op = 0 then y.toNat % 64 else bits x.toNat 21 16

/-- The request that a slot-table instruction makes. -/
def slotReqOf (s : State) (op : Nat) (d : R6) (x y : W64) (q : Nat) (bad : Bool) : SlotReq :=
  { op := op, bdie := q, a := x, b := y, part := s.curHub.launch.part, malformed := bad, die := s.cur.die, hub := s.cur.hub
    reg := d.toNat, at_ := (s.die s.cur.die).cad + 400 }

/-- How a request is sent: to the B-die's mark, or as a packet. -/
def slotSent (s : State) (d : R6) (r : SlotReq) : State :=
  if s.curHub.launch.timed then (s.request r.bdie 200 (.slotOp r)).advance 1
  else (s.countedSlotOp { s.packet 4 r.bdie 0 0 with reg := d.toNat, slotOp := some r } (s.promiseTo s.cur.die r.bdie)).advance 1

/-- A slot-table instruction sends its request, of a B-die that it names or as malformed. -/
theorem slotInstr_sent (s : State) (op : Nat) (d : R6) (x y : PVal) (q : Nat) (bad : Bool) (hx : x.p = false) (hy : y.p = false)
    (hq : bad = false → slotClean op x.v y.v ∧ s.phys s.curHub.launch.part (slotPos op x.v y.v) = some q ∧ s.kind q = .bDie)
    (hbad : bad = true → q = s.cur.die ∧
      ¬(slotClean op x.v y.v ∧ ∃ q, s.phys s.curHub.launch.part (slotPos op x.v y.v) = some q ∧ s.kind q = .bDie))
    (hl : s.curHub.launch.timed = true → s.isMember s.curHub.launch.plid q = true ∧
      (s.timedLatency s.curHub.launch.plid s.cur.die q).isSome = true) :
    slotInstr op d x y s = slotSent s d (slotReqOf s op d x.v y.v q bad) := by
  unfold slotInstr
  extract_lets dest l pos clean bdie target r src
  rw [if_neg (by rw [hx, hy]; exact Bool.false_ne_true)]
  have hclean : clean = true ↔ slotClean op x.v y.v := by
    unfold clean slotClean
    split <;> simp [and_assoc]
  have htb : target = q ∧ (!clean || bdie.isNone) = bad := by
    unfold target
    cases bad with
    | false =>
      obtain ⟨hc, hph, hk⟩ := hq rfl
      have hb : bdie = some q := by
        unfold bdie
        rw [show s.phys l.part pos = some q from hph]
        exact Option.filter_some_pos (by simp [hk])
      rw [hclean.2 hc, hb]
      exact ⟨rfl, rfl⟩
    | true =>
      obtain ⟨rfl, hn⟩ := hbad rfl
      cases hc : clean with
      | false => exact ⟨rfl, rfl⟩
      | true =>
        have hb : bdie = none := by
          unfold bdie
          rw [Option.filter_eq_none_iff]
          exact fun q hq hk => hn ⟨hclean.1 hc, q, hq, by simpa using hk⟩
        rw [hb]
        exact ⟨rfl, rfl⟩
  obtain ⟨ht, hb⟩ := htb
  have hr : r = slotReqOf s op d x.v y.v q bad := by
    unfold r
    rw [ht, hb]
    rfl
  unfold src slotSent
  rw [hr, ht]
  cases hlt : s.curHub.launch.timed with
  | false => simp only [l, hlt, Bool.false_eq_true, if_false]; rfl
  | true =>
    obtain ⟨hm, hs⟩ := hl hlt
    obtain ⟨L, hL⟩ := Option.isSome_iff_exists.1 hs
    simp only [l, hlt, hm, hL, if_true]
    rfl

/-! ### The slot table -/

theorem lookTag_hit (tags : SMap Nat) (tag k : Nat) (hm : ∃ e ∈ tags, e.2.testBit 63 = true ∧ e.2 % 2 ^ 48 = tag)
    (hk : ∀ e ∈ tags, e.2.testBit 63 = true → e.2 % 2 ^ 48 = tag → e.1 = k) : lookTag tags tag = BitVec.ofNat 64 k := by
  unfold lookTag
  cases hf : tags.find? fun e => e.2.testBit 63 && decide (e.2 % 2 ^ 48 = tag) with
  | some e =>
    have hp := List.find?_some hf
    simp only [Bool.and_eq_true, decide_eq_true_eq] at hp
    exact congrArg (BitVec.ofNat 64) (hk e (List.mem_of_find?_eq_some hf) hp.1 hp.2)
  | none =>
    obtain ⟨e, he, h63, htag⟩ := hm
    exact absurd (by rw [h63, htag]; simp) (List.find?_eq_none.1 hf e he)

/-- What SLOOK answers at a miss: the lowest invalid slot, where there is one (R215). -/
def slotAnswer : Option Nat → W64
  | some n => BitVec.ofNat 64 (2 ^ 63 + n)
  | none => 0xC000000000000000

theorem lookTag_miss (tags : SMap Nat) (tag : Nat) (hm : ¬∃ e ∈ tags, e.2.testBit 63 = true ∧ e.2 % 2 ^ 48 = tag) :
    lookTag tags tag = slotAnswer ((List.range 16384).find? fun n => !(SMap.get 0 tags n).testBit 63) := by
  have hn : (tags.find? fun e => e.2.testBit 63 && decide (e.2 % 2 ^ 48 = tag)) = none := by
    refine List.find?_eq_none.2 fun e he => ?_
    rw [Bool.and_eq_true, decide_eq_true_eq]
    exact fun hp => hm ⟨e, he, hp⟩
  unfold lookTag
  rw [hn]
  dsimp only
  split
  next n hf => rw [hf]; rfl
  next hf => rw [hf]; rfl

/-- The least number below a bound with a property is the one that a search from 0 finds. -/
theorem find?_range_least (N k : Nat) (p : Nat → Bool) (hk : k < N) (hp : p k = true) (hlt : ∀ j, j < k → p j = false) :
    (List.range N).find? p = some k := by
  rw [List.find?_range_eq_some]
  exact ⟨hp, List.mem_range.2 hk, fun j hj => by simp [hlt j hj]⟩

theorem slotTable_op0 (s : State) (q : SlotReq) (hm : q.malformed = false) (ho : q.op = 0) :
    s.slotTable q = (s, lookTag (s.die q.bdie).tags (q.a.toNat % 2 ^ 48)) := by
  unfold State.slotTable
  rw [if_neg (by rw [hm]; exact Bool.false_ne_true), ho]
  rfl

theorem slotTable_op1 (s : State) (q : SlotReq) (hm : q.malformed = false) (ho : q.op = 1) :
    s.slotTable q = (let n := q.a.toNat % 2 ^ 14
      let d := s.die q.bdie
      if s.slotValid q.bdie n then (s, 1)
      else if d.tags.any fun e => e.2.testBit 63 && decide (e.2 % 2 ^ 48 = q.b.toNat % 2 ^ 48) then (s, 2)
      else (s.setDie q.bdie { d with tags := SMap.set 0 d.tags n (2 ^ 63 + q.b.toNat % 2 ^ 48) }, 0)) := by
  unfold State.slotTable
  rw [if_neg (by rw [hm]; exact Bool.false_ne_true), ho]
  rfl

theorem slotTable_op2 (s : State) (q : SlotReq) (hm : q.malformed = false) (ho : q.op = 2) :
    s.slotTable q = (let n := q.a.toNat % 2 ^ 14
      let d := s.die q.bdie
      if !s.slotValid q.bdie n then (s, 1)
      else if s.slotCovered q.part q.bdie n then (s, 2)
      else (s.setDie q.bdie { d with tags := SMap.set 0 d.tags n (SMap.get 0 d.tags n % 2 ^ 63) }, 0)) := by
  unfold State.slotTable
  rw [if_neg (by rw [hm]; exact Bool.false_ne_true), ho]
  rfl

/-- An entry of the tag table after one entry is set. -/
theorem tags_setDie (s : State) (b n v k : Nat) :
    SMap.get 0 ((s.setDie b { s.die b with tags := SMap.set 0 (s.die b).tags n v }).die b).tags k =
      if k = n then v else SMap.get 0 (s.die b).tags k := by
  have hd : (s.setDie b { s.die b with tags := SMap.set 0 (s.die b).tags n v }).die b =
      { s.die b with tags := SMap.set 0 (s.die b).tags n v } := SMap.get_put_self ..
  rw [hd]
  exact SMap.get_set ..

/-- Settles O28: XLATE has one lemma for a hit and one for a miss, the slot-table instructions one for what they send, the table one per operation. -/
theorem handlesAndSlots : Obligations.HandlesAndSlots := by
  refine ⟨fun s h a => ⟨rfl, fun hp => ?_⟩, fun s d a b hx => ?_, fun s q => ?_⟩
  · intro va l now entry poison asks
    refine ⟨fun he => ?_, fun e he hf => ?_⟩
    · have hmiss := fun wr => xlate_missed s h a wr hp he
      have hasks : ∀ wr i, exec i s = .next (xlate h a wr s) → asks i wr := by
        intro wr i hi q hq
        refine ⟨_, hi.trans (congrArg Host.Outcome.next ((hmiss wr).trans (by rw [hq]))), ?_⟩
        obtain ⟨h1, h2, h3, h4, h5⟩ := xlate_asks s h a { (xlatePoison s h a).packet 6 q va 0 with fill := some (fillAsk s h a wr) } rfl
        refine ⟨h1, h2, h3, h4, _, h5, rfl, rfl, rfl, ?_, ?_⟩
        · show (xlatePoison s h a).curHub.launch.part = _
          rw [xlatePoison_curHub]; rfl
        · show some (fillAsk s h a wr) = _
          unfold fillAsk
          rw [xlatePoison_curHub]
          rfl
      refine ⟨fun hb => ⟨?_, ?_⟩, hasks false _ rfl, hasks true _ rfl⟩
      · exact congrArg _ ((hmiss false).trans (by rw [hb]; rfl))
      · exact congrArg _ ((hmiss true).trans (by rw [hb]; rfl))
    · intro gone page sets
      have hset : ∀ wr x, handleFrom e wr = x →
          xlate h a wr s = { afterCore s 48 (.handle h.toNat x) 1 with free := s.free + 1 } := fun wr x hx =>
        hx ▸ xlate_held s h a wr e hp he hf
      refine ⟨fun hr => ⟨congrArg Host.Outcome.next (hset _ _ (handleFrom_np e _ hr)), congrArg Host.Outcome.next (hset _ _ (handleFrom_np e _ hr))⟩,
        fun hr => ⟨congrArg Host.Outcome.next (hset _ _ (handleFrom_deny e _ (.inl hr))), congrArg Host.Outcome.next (hset _ _ (handleFrom_deny e _ (.inl hr)))⟩,
        fun hr => ⟨congrArg Host.Outcome.next (hset _ _ (handleFrom_page e _ hr (fun h => absurd h Bool.false_ne_true))), congrArg Host.Outcome.next (hset _ _ ?_)⟩⟩
      cases hw : e.w with
      | true => exact handleFrom_page e _ hr fun _ => hw
      | false => exact handleFrom_deny e _ (.inr ⟨hr, rfl, hw⟩)
  · intro x y l p req sends names filled
    have hsends : ∀ (op : Nat) (z : PVal) (q : Nat) (bad : Bool) (i : Instr), z.p = false →
        exec i s = .next (slotInstr op d (s.readS a) z s) →
        (bad = false → slotClean op x z.v ∧ names (slotPos op x z.v) q) →
        (bad = true → q = p ∧ ¬(slotClean op x z.v ∧ ∃ q, names (slotPos op x z.v) q)) →
        sends i (req op q z.v bad) := by
      intro op z q bad i hz hi hgood hbad
      refine ⟨fun ht hm hs => hi.trans (congrArg _ ?_), fun ht => hi.trans (congrArg _ ?_)⟩
      · rw [slotInstr_sent s op d (s.readS a) z q bad hx hz hgood hbad fun _ => ⟨hm, hs⟩]
        unfold slotSent
        rw [if_pos ht]
        rfl
      · rw [slotInstr_sent s op d (s.readS a) z q bad hx hz hgood hbad fun h => absurd (ht.symm.trans h) Bool.false_ne_true]
        unfold slotSent
        rw [if_neg (by rw [ht]; exact Bool.false_ne_true)]
        rfl
    have hclean0 : ∀ z, slotClean 0 x z ↔ x.toNat < 2 ^ 48 ∧ z.toNat < 64 := fun z => Iff.rfl
    have hclean1 : ∀ z, slotClean 1 x z ↔ filled ∧ z.toNat < 2 ^ 48 := fun z => by simp [slotClean, filled, and_assoc]
    have hclean2 : ∀ z, slotClean 2 x z ↔ filled := fun z => by simp [slotClean, filled]
    have hpos0 : ∀ z : W64, z.toNat < 64 → slotPos 0 x z = z.toNat := fun z h => Nat.mod_eq_of_lt h
    refine ⟨fun hy => ⟨fun q hxl hyl hq => ?_, fun hn => ?_, fun q hf hyl hq => ?_, fun hn => ?_⟩, fun q hf hq => ?_, fun hn => ?_⟩
    · exact hsends 0 (s.readS b) q false _ hy rfl (fun _ => ⟨(hclean0 _).2 ⟨hxl, hyl⟩, hpos0 _ hyl ▸ hq⟩) (fun h => absurd h Bool.false_ne_true)
    · refine hsends 0 (s.readS b) p true _ hy rfl (fun h => absurd h.symm Bool.false_ne_true) fun _ => ⟨rfl, ?_⟩
      rintro ⟨hc, q, hq⟩
      obtain ⟨hxl, hyl⟩ := (hclean0 _).1 hc
      exact hn ⟨hxl, hyl, q, hpos0 _ hyl ▸ hq⟩
    · exact hsends 1 (s.readS b) q false _ hy rfl (fun _ => ⟨(hclean1 _).2 ⟨hf, hyl⟩, hq⟩) (fun h => absurd h Bool.false_ne_true)
    · refine hsends 1 (s.readS b) p true _ hy rfl (fun h => absurd h.symm Bool.false_ne_true) fun _ => ⟨rfl, ?_⟩
      rintro ⟨hc, q, hq⟩
      obtain ⟨hf, hyl⟩ := (hclean1 _).1 hc
      exact hn ⟨hf, hyl, q, hq⟩
    · exact hsends 2 {} q false _ rfl rfl (fun _ => ⟨(hclean2 _).2 hf, hq⟩) (fun h => absurd h Bool.false_ne_true)
    · refine hsends 2 {} p true _ rfl rfl (fun h => absurd h.symm Bool.false_ne_true) fun _ => ⟨rfl, ?_⟩
      rintro ⟨hc, q, hq⟩
      exact hn ⟨(hclean2 _).1 hc, q, hq⟩
  · intro n d held entry
    have hmem : ∀ tag, (d.tags.any fun e => e.2.testBit 63 && decide (e.2 % 2 ^ 48 = tag)) = true ↔ held tag := fun tag => by
      rw [List.any_eq_true]
      simp only [Bool.and_eq_true, decide_eq_true_eq]
      rfl
    refine ⟨fun hm => ?_, fun hm ho => ?_, fun hm ho => ?_, fun hm ho => ?_⟩
    · unfold State.slotTable
      rw [if_pos hm]
      rfl
    · intro tag
      rw [slotTable_op0 s q hm ho]
      refine ⟨rfl, fun k hh hk => ?_, fun hn => ?_⟩
      · have hl : lookTag d.tags tag = BitVec.ofNat 64 k := lookTag_hit d.tags tag k hh hk
        dsimp only
        exact hl
      have hl : lookTag d.tags tag = slotAnswer ((List.range 16384).find? fun n => !s.slotValid q.bdie n) := lookTag_miss _ _ hn
      dsimp only
      rw [hl]
      refine ⟨fun k hk hi hv => ?_, fun hv => ?_⟩
      · have hf : ((List.range 16384).find? fun n => !s.slotValid q.bdie n) = some k :=
          find?_range_least 16384 k _ hk (by rw [hi]; rfl) fun j hj => by rw [hv j hj]; rfl
        exact congrArg slotAnswer hf
      · have hf : ((List.range 16384).find? fun n => !s.slotValid q.bdie n) = none :=
          List.find?_eq_none.2 fun j hj => by rw [hv j (List.mem_range.1 hj)]; exact Bool.false_ne_true
        exact congrArg slotAnswer hf
    · intro tag
      rw [slotTable_op1 s q hm ho]
      refine ⟨fun hv => if_pos hv, fun hv hh => ?_, fun hv hh => ?_⟩
      · dsimp only
        rw [if_neg (by rw [hv]; exact Bool.false_ne_true), if_pos ((hmem tag).2 hh)]
      · dsimp only
        rw [if_neg (by rw [hv]; exact Bool.false_ne_true), if_neg (mt (hmem tag).1 hh)]
        refine ⟨rfl, ?_, fun k hk => ?_⟩
        · exact (tags_setDie ..).trans (if_pos rfl)
        · exact (tags_setDie ..).trans (if_neg hk)
    · rw [slotTable_op2 s q hm ho]
      refine ⟨fun hv => if_pos (by rw [hv]; rfl), fun hv hc => ?_, fun hv hc => ?_⟩
      · dsimp only
        rw [if_neg (by rw [hv]; exact Bool.false_ne_true), if_pos hc]
      · dsimp only
        rw [if_neg (by rw [hv]; exact Bool.false_ne_true), if_neg (by rw [hc]; exact Bool.false_ne_true)]
        refine ⟨rfl, ?_, fun k hk => ?_⟩
        · exact (tags_setDie ..).trans (if_pos rfl)
        · exact (tags_setDie ..).trans (if_neg hk)

/-! ### Identity and control registers -/

/-- The number whose digits to base 8 a function gives, `n` of them. -/
def octal (f : Nat → Nat) (n : Nat) : Nat := (List.range n).foldl (fun a i => a + f i * 2 ^ (3 * i)) 0

theorem octal_succ (f : Nat → Nat) (n : Nat) : octal f (n + 1) = octal f n + f n * 8 ^ n := by
  unfold octal
  rw [List.range_succ, List.foldl_append, List.foldl_cons, List.foldl_nil, pow_mul]
  rfl

theorem octal_lt (f : Nat → Nat) (hf : ∀ i, f i < 8) (n : Nat) : octal f n < 8 ^ n := by
  induction n with
  | zero => exact Nat.zero_lt_one
  | succ n ih =>
    rw [octal_succ, pow_succ]
    have := hf n
    nlinarith

theorem octal_digit (f : Nat → Nat) (hf : ∀ i, f i < 8) (n i : Nat) (hi : i < n) : octal f n / 8 ^ i % 8 = f i := by
  induction n with
  | zero => omega
  | succ n ih =>
    rw [octal_succ]
    by_cases h : i = n
    · subst h
      rw [Nat.add_mul_div_right _ _ (by positivity), Nat.div_eq_of_lt (octal_lt f hf i), Nat.zero_add, Nat.mod_eq_of_lt (hf i)]
    · have hn : 8 ^ n = 8 ^ i * (8 * 8 ^ (n - i - 1)) := by
        rw [← pow_succ', ← pow_add]; congr 1; omega
      rw [hn, show f n * (8 ^ i * (8 * 8 ^ (n - i - 1))) = 8 ^ i * (8 * (f n * 8 ^ (n - i - 1))) by ring,
        Nat.add_mul_div_left _ _ (by positivity), Nat.add_mul_mod_self_left]
      exact ih (by omega)

theorem HState.code_lt (st : HState) : st.code < 8 := by cases st <;> decide

theorem Hub.csr_handles (h : Hub) (x : Nat) : h.csr x 0x1B = BitVec.ofNat 64 (octal (fun i => (SMap.get {} h.handles i).st.code) 16) := rfl

/-- What a hub holds after k.tstride is set, and that memory stays. -/
theorem State.hub_setStride (s : State) (die hub : Nat) (v : W64) :
    (s.setStride die hub v).hub die hub = { s.hub die hub with tstride := v } := SMap.get_put_self ..

/-- Settles O29: the register of the handles is a number to base 8, read digit by digit. -/
theorem identityAndControlRegisters : Obligations.IdentityAndControlRegisters := by
  intro s d a i k _ t l reads nat code
  have hcode : ∀ st, HState.code st = code st := fun st => by cases st <;> rfl
  refine ⟨rfl, rfl, fun h x hi => ?_, fun hp h64 h48 => ⟨?_, fun u at_ lpos eng q dt v => ?_⟩, fun hk => ?_, fun hp => ?_⟩
  · have hof : ∀ (f : Item → W64), f (h.item.getD {}) = f t := fun f => by rw [hi]
    refine ⟨hof (·.launch.args), hof (nat ·.team), hof (nat ·.trank), hof (nat ·.launch.tsize), hof (nat ·.launch.nteam),
      hof (nat ·.launch.nitem), ?_, hof (nat ·.start), hof (nat ·.launch.tk), hof (nat ·.launch.ltag), ?_, rfl, rfl,
      _, h.csr_handles x, ?_, fun n hn => ?_⟩
    · refine (hof fun t => nat (if t.launch.timed then t.launch.lbase else 0)).trans ?_
      show nat (if l.timed then l.lbase else 0) = _
      split <;> rfl
    · show BitVec.ofNat 64 promiseReg = _
      decide
    · rw [BitVec.toNat_ofNat]
      have := octal_lt (fun i => (SMap.get {} h.handles i).st.code) (fun _ => HState.code_lt _) 16
      omega
    · have hlt := octal_lt (fun i => (SMap.get {} h.handles i).st.code) (fun _ => HState.code_lt _) 16
      rw [BitVec.toNat_ofNat, Nat.mod_eq_of_lt (lt_of_lt_of_le hlt (by decide)), octal_digit (fun i => (SMap.get {} h.handles i).st.code) (fun _ => HState.code_lt _) 16 n hn, hcode]
  · rw [exec_csrw]
    unfold execCsrw
    rw [if_neg (by decide), if_neg (by rw [hp]; exact Bool.false_ne_true), if_neg (by omega)]
    rfl
  · intro u'
    have hu : u' = u.setStride s.cur.die s.cur.hub v := rfl
    rw [hu, u.hub_setStride s.cur.die s.cur.hub v]
    exact ⟨rfl, rfl, rfl, (sameMemory_iff _ _).2 (State.setStride_memory ..)⟩
  · show execCsrw _ _ _ = _
    unfold execCsrw
    dsimp only
    by_cases h1 : k.toNat ≠ 0x1D
    · rw [if_pos h1]
    · rw [if_neg h1]
      obtain ⟨hp, hv⟩ := hk.resolve_left fun h => h1 fun e => h (BitVec.eq_of_toNat_eq e)
      rw [if_neg (by rw [hp]; exact Bool.false_ne_true), if_pos (by omega)]
  · rw [exec_csrw]
    unfold execCsrw
    rw [if_neg (by decide), if_pos hp]

/-! ### Halts, reports and stops -/

theorem State.curHub_congr {s t : State} (hc : t.cur = s.cur) (hh : t.hubs = s.hubs) : t.curHub = s.curHub := by
  unfold State.curHub State.hub
  rw [hc, hh]


/-- HALT on the modules of a die changes nothing but its modules. -/
theorem State.die_sendHalt {α : Type} (f : Die → α) (hf : ∀ d m, f { d with modules := m } = f d) (s : State) (p h : Nat)
    (ms : List Nat) (q : Nat) : f ((s.sendHalt p h ms).die q) = f (s.die q) := by
  unfold State.sendHalt
  induction ms generalizing s with
  | nil => rfl
  | cons m r ih =>
    rw [List.foldl_cons, ih]
    unfold State.sendFour
    rw [State.die_setDie]
    split
    next e => rw [e]; exact hf _ _
    · rfl

/-- A field of a die that holds neither its halt mark nor its modules is left by a halt. -/
theorem State.die_raiseHalt {α : Type} (f : Die → α) (hf : ∀ d m, f { d with modules := m } = f d)
    (hh : ∀ d h, f (d.halt h) = f d) (s : State) (p mark q : Nat) : f ((s.raiseHalt p mark).die q) = f (s.die q) := by
  unfold State.raiseHalt
  rw [State.die_sendHalt f hf, State.die_setDie]
  split
  next e => rw [e]; exact hh _ _
  · rfl

theorem State.haltAt_raiseHalt (s : State) (p mark : Nat) :
    ((s.raiseHalt p mark).die p).haltAt = ((s.die p).halt (s.haltCad p (mark + 256))).haltAt := by
  unfold State.raiseHalt
  rw [State.die_sendHalt Die.haltAt fun _ _ => rfl, State.setDie_self]

theorem haltOf_eq (s : State) : ((s.die s.cur.die).halt (s.haltCad s.cur.die (s.mark + 256))).haltAt = some (haltOf s) := by
  unfold Die.halt State.haltCad State.haltShift haltOf
  cases (s.die s.cur.die).haltAt <;> rfl

/-- A report is on its way to the merger: a packet that a timer of at most 128 pulses brings. -/
theorem State.sendReport_sent (s : State) (r : FaultReport) :
    ∃ x ∈ (s.sendReport r).timers, s.cy < x.1 ∧ x.1 ≤ s.cy + 128 ∧ x.2.1 = .faultReportReceive ∧
      SMap.find x.2.2.n (s.sendReport r).net =
        some { typ := 0xC, part := r.part, target := s.actingH, rep := { r with time := s.nanos } } := by
  refine ⟨(s.cy + (1 + Config.transit s.free % 128), .faultReportReceive, { n := s.netSeq }), List.mem_cons_self .., ?_, ?_, rfl,
    SMap.find_put_self ..⟩ <;> dsimp only <;> omega

theorem State.hub_stopHub (s : State) (die hub : Nat) :
    ∃ pend, (s.stopHub die hub 0).hub die hub = { s.hub die hub with
      run := .stopped, stopRef := if (s.hub die hub).run = .stopped then (s.hub die hub).stopRef else (s.die die).cad, pending := pend } :=
  ⟨_, SMap.get_put_self ..⟩

theorem State.curHub_stopHub (s : State) :
    ∃ pend, (s.stopHub s.cur.die s.cur.hub 0).curHub = { s.curHub with
      run := .stopped, stopRef := if s.curHub.run = .stopped then s.curHub.stopRef else (s.die s.cur.die).cad, pending := pend } :=
  s.hub_stopHub ..

theorem State.run_markAbort (s : State) (n : Nat) :
    ((s.markAbort n).slot n).run = (s.slot n).run.map fun r => { r with abort := true } := by
  unfold State.markAbort
  rw [State.setSlot_self]

/-- The report of a fault of a word of the control core, as the state names its unit. -/
def coreReport (s : State) (kind sub : Nat) (halts : Bool) : FaultReport :=
  s.reportAs s.cur.die s.cur.hub ⟨kind, sub, 0, s.curHub.pc % 2 ^ 32, s.mark⟩ halts none

/-- A fault of the control core in a counted launch. -/
theorem coreFault_counted (s : State) (kind sub : Nat) (hl : s.curHub.launch.timed = false) (hr : s.curHub.run ≠ .stopped) :
    s.coreFault kind sub [] =
      ((s.stopHub s.cur.die s.cur.hub 0).markAbort s.curHub.launch.slot).sendReport (coreReport s kind sub false) := by
  have hh : s.hub s.cur.die s.cur.hub = s.curHub := rfl
  unfold State.coreFault State.coreFaultAs State.takeFault State.takeFaultAs
  simp only [hh, hl, hr, Bool.false_eq_true, if_false, false_and]
  rfl

/-- A fault of the control core in a timed launch, where no other fault of its hub has the record. -/
theorem coreFault_timed (s : State) (kind sub : Nat) (hl : s.curHub.launch.timed = true)
    (hx : ∀ x ∈ s.reports, x.mark = s.mark → x.hub ≠ s.cur.hub) :
    ∃ r, r = (s.raiseHalt s.cur.die s.mark).reportAs s.cur.die s.cur.hub ⟨kind, sub, 0, s.curHub.pc % 2 ^ 32, s.mark⟩ true none ∧
      s.coreFault kind sub [] = ((s.raiseHalt s.cur.die s.mark).sendReport r).advance 1 := by
  refine ⟨_, rfl, ?_⟩
  have hh : s.hub s.cur.die s.cur.hub = s.curHub := rfl
  have hrep : (s.raiseHalt s.cur.die s.mark).reported
      ((s.raiseHalt s.cur.die s.mark).reportAs s.cur.die s.cur.hub ⟨kind, sub, 0, s.curHub.pc % 2 ^ 32, s.mark⟩ true none) = false := by
    unfold State.reported
    rw [List.any_eq_false]
    intro x hxm hb
    have hxs : x ∈ s.reports := by
      unfold State.reports at hxm ⊢
      simpa using hxm
    unfold FaultReport.beside at hb
    simp only [Bool.and_eq_true, decide_eq_true_eq] at hb
    obtain ⟨⟨⟨⟨⟨hm, hu⟩, -⟩, -⟩, -⟩, -⟩ := hb
    exact hx x hxs hm hu
  unfold State.coreFault State.coreFaultAs State.takeFault State.takeFaultAs
  simp only [hh, hl, if_true, State.laterAll]
  unfold State.recordFault
  rw [if_neg (by rw [hrep]; exact Bool.false_ne_true)]


/-- A queued store of a hub stands among its open accesses. -/
theorem State.curHub_sendQueued_open (s : State) (p : Pkt) (load store : Bool) (hd : p.die = s.cur.die) (hh : p.hub = s.cur.hub) :
    ∃ e, e.target = p.target ∧ (s.sendQueued p load store).curHub = { s.curHub with accesses := s.curHub.accesses ++ [e] } := by
  have key : ∀ (t : State) (e : QEntry), t.cur = s.cur → t.hubs = (s.setHub p.die p.hub { s.hub p.die p.hub with
      accesses := (s.hub p.die p.hub).accesses ++ [e] }).hubs → t.curHub = { s.curHub with accesses := s.curHub.accesses ++ [e] } := by
    intro t e hc ht
    unfold State.curHub State.hub
    rw [hc, ht, ← hd, ← hh]
    exact SMap.get_put_self ..
  unfold State.sendQueued
  extract_lets h id e
  split
  next hg =>
    obtain ⟨hcur, -, -, -, -, -, -, -, -, -, hhubs, -⟩ := State.send_frame (s.setHub p.die p.hub { h with accesses := h.accesses ++ [e] }) p
    exact ⟨e, rfl, key _ e hcur hhubs⟩
  · exact ⟨{ e with waiting := true }, rfl, key { (s.setHub p.die p.hub { h with accesses := h.accesses ++ [{ e with waiting := true }] }) with
      net := SMap.put s.net id p, netSeq := id + 1 } { e with waiting := true } rfl rfl⟩

/-! ### The words -/

theorem exec_done_waits (s : State) (h : s.doneMet s.cur.die s.cur.hub = false) :
    exec .done s = .next (afterWait s .done) ∧ exec .halt s = .next (afterWait s .halt) := by
  rw [exec_done, exec_halt]
  unfold execDone doDone execHalt
  rw [if_neg (by rw [h]; exact Bool.false_ne_true), if_neg (by rw [h]; exact Bool.false_ne_true)]
  exact ⟨rfl, rfl⟩

/-- What DONE leaves of a hub without an open packet, in a partition without barriers. -/
theorem finishDone_ends (s : State) (hp : s.curHub.packet = none) (hb : (s.part s.curHub.launch.part).barriers = []) :
    let t := s.finishDone s.cur.die s.cur.hub
    (∀ d ∈ t.agenda, d.ofDone s.cur.die s.cur.hub (s.curHub.accesses.map (·.id)) = false) ∧ t.slots = s.slots ∧ t.curHub = { s.curHub with
        packet := none, loops := [], replies := [], accesses := [], mark := none, wait := .none, run := .idle } := by
  have hpk : (s.hub s.cur.die s.cur.hub).packet = none := hp
  have hbar : ((s.withdrawPhase s.cur.die s.cur.hub).part (s.hub s.cur.die s.cur.hub).launch.part).barriers = [] := by
    unfold State.withdrawPhase
    dsimp only
    rw [State.setPart_self]
    exact hb
  intro t
  unfold t State.finishDone
  simp only [hpk, Option.isSome_none, Bool.false_eq_true, if_false, hbar, State.leaveBarriers]
  refine ⟨fun d hd => ?_, rfl, State.setHub_self ..⟩
  obtain ⟨-, hd⟩ := List.mem_filter.1 hd
  rwa [Bool.not_eq_true'] at hd

/-- No load of the hub is on its way after DONE, and no deadline of one of its accesses. -/
theorem not_ofDone (d : Due) (die hub : Nat) (es : List QEntry) (h : d.ofDone die hub (es.map (·.id)) = false) (hd : d.die = die)
    (hh : d.hub = hub) :
    match d.act with
    | .load .. => False
    | .ev .countedReplyDeadline a => ∀ e ∈ es, e.id ≠ a.n
    | _ => True := by
  unfold Due.ofDone at h
  split
  next e => rw [e] at h; simp [hd, hh] at h
  next a e =>
    intro x hx hn
    rw [e] at h
    simp only [hd, hh, decide_true, Bool.true_and] at h
    rw [← hn] at h
    simp at h
    exact h x hx rfl
  · trivial

theorem exec_done_ends (s : State) (hm : s.doneMet s.cur.die s.cur.hub = true) :
    exec .done s = .next (s.finishDone s.cur.die s.cur.hub) ∧ exec .halt s = .next (s.finishHalt s.cur.die s.cur.hub) := by
  rw [exec_done, exec_halt]
  unfold execDone doDone execHalt
  rw [if_pos hm, if_pos hm]
  exact ⟨rfl, rfl⟩

theorem Part.takeTrap_of_free (p : Part) (code lpos hub slot pc : Nat) (h : p.trapV = false) (hc : code < 2 ^ 14) (hh : hub < 8) :
    (p.takeTrap code lpos hub slot pc).trapMore = false ∧ (p.takeTrap code lpos hub slot pc).trap =
      BitVec.ofNat 64 (code * 2 ^ 48 + lpos % 64 * 2 ^ 42 + hub * 2 ^ 39 + slot % 16 * 2 ^ 35 + pc % 2 ^ 32) := by
  unfold Part.takeTrap
  rw [if_neg (by rw [h]; exact Bool.false_ne_true)]
  refine ⟨rfl, ?_⟩
  dsimp only
  rw [Nat.mod_eq_of_lt hc, Nat.mod_eq_of_lt hh]

theorem Part.takeTrap_valid (p : Part) (code lpos hub slot pc : Nat) : (p.takeTrap code lpos hub slot pc).trapV = true := by
  unfold Part.takeTrap
  split
  next h => exact h
  · rfl

/-- The record of a trap of this launch is in TRAPREC. -/
def TrapTaken (s t : State) (k : BitVec 14) : Prop :=
  t.part s.curHub.launch.part = (s.part s.curHub.launch.part).takeTrap k.toNat s.curHub.lpos s.cur.hub s.curHub.launch.slot s.curHub.pc

theorem exec_trap_counted (s : State) (k : BitVec 14) (hl : s.curHub.launch.timed = false) :
    ∃ t, exec (.trap k) s = .next t ∧ t.curHub.run = .stopped ∧ TrapTaken s t k ∧ SameMemory s t ∧ SameRegisters s.curHub t.curHub ∧
      (t.slot s.curHub.launch.slot).run = ((s.slot s.curHub.launch.slot).run.map fun r => { r with abort := true }) := by
  rw [exec_trap]
  unfold execTrap
  extract_lets h l u
  rw [if_neg (by rw [hl]; exact Bool.false_ne_true)]
  have hcur : u.curHub = s.curHub := rfl
  obtain ⟨pend, hst⟩ := u.curHub_stopHub
  have hch : ((u.stopHub u.cur.die u.cur.hub 0).markAbort l.slot).curHub = (u.stopHub u.cur.die u.cur.hub 0).curHub := rfl
  refine ⟨_, rfl, ?_, ?_, (sameMemory_iff _ _).2 ?_, ?_, ?_⟩
  · rw [hch]; exact congrArg Hub.run hst
  · exact State.setPart_self ..
  · simp [u]
  · rw [hch, hst]; exact sameRegisters_refl _
  · exact State.run_markAbort ..

theorem State.curHub_advance (s : State) (d : Nat) : (s.advance d).curHub = s.curHub.advance (s.die s.cur.die).cad d :=
  SMap.get_put_self ..

theorem Hub.advance_pc (h : Hub) (now d : Nat) (hl : h.loops = []) : (h.advance now d).pc = h.pc + 4 := by
  unfold Hub.advance; rw [hl]; rfl

theorem exec_trap_timed (s : State) (k : BitVec 14) (hl : s.curHub.launch.timed = true) (hlo : s.curHub.loops = []) :
    ∃ t, exec (.trap k) s = .next t ∧ t.curHub.run = s.curHub.run ∧ t.curHub.pc = s.curHub.pc + 4 ∧ SameMemory s t ∧
      SameRegisters s.curHub t.curHub ∧ (t.pl s.curHub.launch.plid).trap = true ∧ TrapTaken s t k ∧
      (t.die s.cur.die).haltAt = some (haltOf s) := by
  rw [exec_trap]
  unfold execTrap
  extract_lets h l u
  rw [if_pos hl]
  have hpl : ((u.setPl l.plid { u.pl l.plid with trap := true }).pl l.plid).trap = true := by
    unfold State.pl State.setPl; rw [SMap.get_put_self]
  have hslot : ∀ n, ((u.setPl l.plid { u.pl l.plid with trap := true }).pl n).slot = (s.pl n).slot := fun n => by
    unfold State.pl State.setPl
    rw [SMap.get_put]
    split
    next e => rw [e]; rfl
    · rfl
  generalize hw : u.setPl l.plid { u.pl l.plid with trap := true } = w at hpl hslot
  have hwd : w.dies = s.dies := by rw [← hw]; rfl
  have hcur : w.cur = s.cur := by rw [← hw]; rfl
  have hwh : w.curHub = s.curHub := by rw [← hw]; rfl
  obtain ⟨hc, -, -, -, -, -, -, -, -, -, hparts, hpls, hhubs, -⟩ := w.raiseHalt_frame u.cur.die u.mark
  have hch := ((w.raiseHalt u.cur.die u.mark).curHub_advance 1).trans (by rw [State.curHub_congr hc hhubs, hwh])
  refine ⟨_, rfl, ?_, ?_, (sameMemory_iff _ _).2 ?_, ?_, ?_, ?_, ?_⟩
  · rw [hch]; rfl
  · rw [hch]; exact Hub.advance_pc _ _ _ hlo
  · rw [State.advance_memory, State.raiseHalt_memory, ← hw]; rfl
  · rw [hch]; exact sameRegisters_advance ..
  · show (SMap.get {} (w.raiseHalt u.cur.die u.mark).pls l.plid).trap = true
    rw [hpls]; exact hpl
  · show SMap.get {} (w.raiseHalt u.cur.die u.mark).parts l.part = _
    rw [hparts, ← hw]
    exact State.setPart_self ..
  · show ((w.raiseHalt s.cur.die s.mark).die s.cur.die).haltAt = _
    rw [State.haltAt_raiseHalt, ← haltOf_eq]
    have hd : w.die s.cur.die = s.die s.cur.die := by unfold State.die; rw [hwd]
    unfold State.haltCad State.haltShift
    rw [hd, hslot]

theorem exec_mark_next (s : State) :
    ∃ t, exec .mark s = .next t ∧ t.curHub.next = (s.die s.cur.die).cad + 1 ∧ t.curHub.wait = .none ∧ SameMemory s t ∧
      (s.curHub.accesses.filter (·.store) = [] → t.curHub.mark = s.curHub.mark) ∧
      (s.curHub.accesses.filter (·.store) ≠ [] → t.curHub.mark = some ((s.curHub.accesses.filter (·.store)).map (·.id))) := by
  rw [exec_mark]
  unfold execMark
  extract_lets h ids
  have hch := s.curHub_setCurHub_advance { h with mark := if ids.isEmpty then h.mark else some ids } 1
  refine ⟨_, rfl, by rw [hch]; rfl, by rw [hch]; rfl, (sameMemory_iff _ _).2 (by simp), fun he => ?_, fun he => ?_⟩
  · rw [hch]
    exact if_pos (by simp [ids, h, he])
  · rw [hch]
    exact if_neg (by simpa [ids, h] using he)

theorem exec_fence_plain (s : State) (sc : BitVec 2) (h : sc ≠ 3 ∨ s.curHub.posted = false) :
    exec (.fence sc) s = .next
      (if s.fenceMet s.cur.die s.cur.hub sc.toNat then afterPlain s 1 else afterWait s (.fence sc.toNat)) := by
  have hn : ¬(sc = 3 ∧ s.curHub.posted = true) := by
    rintro ⟨h3, hp⟩
    rcases h with h | h
    · exact h h3
    · exact absurd (hp.symm.trans h) (by decide)
  rw [exec_fence]
  unfold execFence
  simp only [hn, if_false]
  split <;> rfl

/-- FENCE.sys after host writes: the flushing read stands open, so that the fence waits for it. -/
theorem exec_fence_flush (s : State) (sc : BitVec 2) (h3 : sc = 3) (hp : s.curHub.posted = true) :
    ∃ t, exec (.fence sc) s = .next t ∧ t.curHub.wait = .fence 3 ∧ t.curHub.posted = false ∧ SameMemory s t ∧
      SameRegisters s.curHub t.curHub ∧ ∃ p, SMap.find s.netSeq t.net = some p ∧ p.typ = 0xD ∧ p.target = 48 := by
  subst h3
  let u := s.setCurHub { s.curHub with posted := false }
  let v := u.sendQueued { u.packet 0xD 48 (flat (homeHost u.curHub.launch.part (some u.curHub.launch.pasid)) 0) 0 with n := 0 } false true
  have hex : exec (.fence 3) s = if v.fenceMet v.cur.die v.cur.hub 3 then .next (v.advance 1) else .next (v.waitOn (.fence 3)) := by
    rw [exec_fence]
    unfold execFence
    simp only [hp, and_self, if_true]
    rfl
  have hu : u.curHub = { s.curHub with posted := false } := SMap.get_put_self ..
  obtain ⟨e, -, hv⟩ := u.curHub_sendQueued_open
    { u.packet 0xD 48 (flat (homeHost u.curHub.launch.part (some u.curHub.launch.pasid)) 0) 0 with n := 0 } false true rfl rfl
  have hmet : v.fenceMet v.cur.die v.cur.hub 3 = false := by
    unfold State.fenceMet
    rw [Bool.and_eq_false_iff, Bool.not_eq_false']
    refine .inl (List.any_eq_true.2 ⟨e, ?_, rfl⟩)
    have : v.hub v.cur.die v.cur.hub = { u.curHub with accesses := u.curHub.accesses ++ [e] } := hv
    rw [this]
    exact List.mem_append_right _ (List.mem_singleton.2 rfl)
  rw [hex, if_neg (by rw [hmet]; exact Bool.false_ne_true)]
  have hch : (v.waitOn (.fence 3)).curHub = { v.curHub with wait := .fence 3, next := v.now + 1 } := SMap.get_put_self ..
  have hvh : v.curHub = { u.curHub with accesses := u.curHub.accesses ++ [e] } := hv
  rw [hvh, hu] at hch
  refine ⟨_, rfl, congrArg Hub.wait hch, congrArg Hub.posted hch, (sameMemory_iff _ _).2 (by simp [v, u]), ?_,
    { u.packet 0xD 48 (flat (homeHost u.curHub.launch.part (some u.curHub.launch.pasid)) 0) 0 with n := 0 }, ?_, rfl, rfl⟩
  · exact hch ▸ sameRegisters_refl s.curHub
  · show SMap.find s.netSeq v.net = _
    unfold v
    rw [u.sendQueued_net _ _ _ rfl]
    exact SMap.find_put_self ..

/-- A report of a fault of subcode 2 of kind 0x0A of the core is on its way, as O30 asks it. -/
def PoisonReported (s t : State) : Prop :=
  ∃ x ∈ t.timers, s.cy < x.1 ∧ x.1 ≤ s.cy + 128 ∧ x.2.1 = .faultReportReceive ∧
    ∃ p, SMap.find x.2.2.n t.net = some p ∧ p.typ = 0xC ∧ p.rep.kind = 0x0A ∧ p.rep.sub = 2 ∧ p.rep.slot = s.curHub.launch.slot ∧
      p.rep.hub = s.cur.hub ∧ p.rep.eng = 0 ∧ p.rep.mark = s.mark ∧ p.rep.time = s.cy * 10 / 19 ∧
      p.rep.estat = 2 * 2 ^ 48 + s.curHub.pc % 2 ^ 32

theorem estatOf_core (sub pc : Nat) (h : sub < 256) : estatOf 0 sub (pc % 2 ^ 32) = sub * 2 ^ 48 + pc % 2 ^ 32 := by
  unfold estatOf; omega

/-- The report that is sent says what the fault is, whatever else the state that sends it holds. -/
theorem poisonReported_sendReport (s u : State) (halts : Bool) (hcy : u.cy = s.cy)
    (hh : (u.hub s.cur.die s.cur.hub).launch = s.curHub.launch) :
    PoisonReported s (u.sendReport (u.reportAs s.cur.die s.cur.hub ⟨0x0A, 2, 0, s.curHub.pc % 2 ^ 32, s.mark⟩ halts none)) := by
  obtain ⟨x, hx, h1, h2, h3, h4⟩ := u.sendReport_sent
    (u.reportAs s.cur.die s.cur.hub ⟨0x0A, 2, 0, s.curHub.pc % 2 ^ 32, s.mark⟩ halts none)
  refine ⟨x, hx, by omega, by omega, h3, _, h4, rfl, rfl, rfl, congrArg Launch.slot hh, rfl, rfl, rfl, ?_, estatOf_core 2 _ (by decide)⟩
  show u.cy * 10 / 19 = _
  rw [hcy]

theorem coreFault_counted_stops (s : State) (hl : s.curHub.launch.timed = false) (hr : s.curHub.run ≠ .stopped) :
    let t := s.coreFault 0x0A 2 []
    t.curHub.run = .stopped ∧ t.curHub.stopRef = (s.die s.cur.die).cad ∧ t.curHub.pc = s.curHub.pc ∧
      SameRegisters s.curHub t.curHub ∧ SameMemory s t ∧
      (t.slot s.curHub.launch.slot).run = ((s.slot s.curHub.launch.slot).run.map fun r => { r with abort := true }) ∧
      PoisonReported s t := by
  rw [coreFault_counted s 0x0A 2 hl hr]
  intro t
  have hch : t.curHub = (s.stopHub s.cur.die s.cur.hub 0).curHub := rfl
  obtain ⟨pend, hst⟩ := s.curHub_stopHub
  rw [hch, hst]
  refine ⟨rfl, if_neg hr, rfl, sameRegisters_refl _, (sameMemory_iff _ _).2 (by simp [t]), ?_, ?_⟩
  · show (((s.stopHub s.cur.die s.cur.hub 0).markAbort s.curHub.launch.slot).slot s.curHub.launch.slot).run = _
    rw [State.run_markAbort]
    rfl
  · obtain ⟨x, hx, h1, h2, h3, h4⟩ := ((s.stopHub s.cur.die s.cur.hub 0).markAbort s.curHub.launch.slot).sendReport_sent (coreReport s 0x0A 2 false)
    exact ⟨x, hx, h1, h2, h3, _, h4, rfl, rfl, rfl, rfl, rfl, rfl, rfl, rfl, estatOf_core 2 _ (by decide)⟩

theorem coreFault_timed_halts (s : State) (hl : s.curHub.launch.timed = true) (hlo : s.curHub.loops = [])
    (hx : ∀ x ∈ s.reports, x.mark = s.mark → x.hub ≠ s.cur.hub) :
    let t := s.coreFault 0x0A 2 []
    t.curHub.run = s.curHub.run ∧ t.curHub.pc = s.curHub.pc + 4 ∧ SameRegisters s.curHub t.curHub ∧ SameMemory s t ∧
      (t.die s.cur.die).haltAt = some (haltOf s) ∧ PoisonReported s t := by
  intro t
  obtain ⟨r, hr, ht⟩ := coreFault_timed s 0x0A 2 hl hx
  obtain ⟨hc, -, -, -, -, -, -, hcy, -, -, -, -, hhubs, -⟩ := s.raiseHalt_frame s.cur.die s.mark
  have hsame : (s.raiseHalt s.cur.die s.mark).curHub = s.curHub := State.curHub_congr hc hhubs
  have hsent : ((s.raiseHalt s.cur.die s.mark).sendReport r).curHub = s.curHub := by
    obtain ⟨hc', -, -, -, -, -, -, -, -, -, -, hhubs', -⟩ := (s.raiseHalt s.cur.die s.mark).sendReport_frame r
    rw [State.curHub_congr hc' hhubs', hsame]
  obtain ⟨c, hch⟩ : ∃ c, t.curHub = s.curHub.advance c 1 := by
    have h := (congrArg State.curHub ht).trans (State.curHub_advance _ 1)
    rw [hsent] at h
    exact ⟨_, h⟩
  refine ⟨by rw [hch]; rfl, by rw [hch]; exact Hub.advance_pc _ _ _ hlo, by rw [hch]; exact sameRegisters_advance ..,
    (sameMemory_iff _ _).2 ?_, ?_, ?_⟩
  · unfold t; rw [ht]; simp
  · unfold t; rw [ht]
    show ((s.raiseHalt s.cur.die s.mark).die s.cur.die).haltAt = _
    rw [State.haltAt_raiseHalt, haltOf_eq]
  · have := poisonReported_sendReport s (s.raiseHalt s.cur.die s.mark) true hcy (by
      unfold State.hub; rw [hhubs]; rfl)
    rw [← hr] at this
    unfold t; rw [ht]
    exact this

theorem exec_poisoned (s : State) (k : BitVec 14) (d a : R6) (z : BitVec 2) (i : BitVec 12) (hp : (s.readS a).p = true) :
    ∀ j ∈ [Instr.tick k a, .st d a z i], exec j s = .next (s.coreFault 0x0A 2 []) := by
  intro j hj
  simp only [List.mem_cons, List.not_mem_nil, or_false] at hj
  rcases hj with rfl | rfl
  · exact if_pos hp
  · exact if_pos hp

/-- Settles O30: DONE discards by one filter of the agenda, and a fault is a stop or a halt with a report that a timer of at most 128 pulses brings. -/
theorem itemsEndTrapOrFault : Obligations.ItemsEndTrapOrFault := by
  refine ⟨fun s k hh8 => ?_, fun s sc => ⟨?_, fun h => ?_, fun h3 hp h8 => ?_⟩, fun s k d a z i hpois => ?_⟩
  · intro l ends rec_
    have hends : ∀ u : State, u.cur = s.cur → u.hubs = s.hubs → u.agenda = s.agenda → u.parts = s.parts → u.memory = s.memory →
        s.curHub.packet = none → (s.part l.part).barriers = [] → ends (u.finishDone s.cur.die s.cur.hub) ∧
          (u.finishDone s.cur.die s.cur.hub).slots = u.slots := by
      intro u hc hhubs hag hpt hmem hp hb
      have hcur : u.curHub = s.curHub := State.curHub_congr hc hhubs
      obtain ⟨hin, hsl, hch⟩ := finishDone_ends u (hcur ▸ hp) (by rw [hcur]; unfold State.part at hb ⊢; rw [hpt]; exact hb)
      rw [hc] at hin hsl hch
      refine ⟨⟨?_, ?_, ?_, ?_, ?_, ?_, (sameMemory_iff _ _).2 ?_, fun d hd hdie hhub => ?_⟩, hsl⟩
      · rw [hch]
      · rw [hch]
      · rw [hch]
      · rw [hch]
      · rw [hch]
      · rw [hch, hcur]
      · rw [State.finishDone_memory, hmem]
      · have hof := hin d hd
        rw [hcur] at hof
        exact not_ofDone d _ _ _ hof hdie hhub
    have hrec : ∀ t : State, t.part l.part = (s.part l.part).takeTrap k.toNat s.curHub.lpos s.cur.hub l.slot s.curHub.pc → rec_ t := by
      intro t ht
      refine ⟨by rw [ht]; exact Part.takeTrap_valid .., fun hv => ?_⟩
      rw [ht]
      exact Part.takeTrap_of_free _ _ _ _ _ _ hv k.isLt hh8
    refine ⟨exec_done_waits s, fun hm hp hb => ?_, fun hl => ?_, fun hl hlo => ?_⟩
    · obtain ⟨h1, h2⟩ := exec_done_ends s hm
      refine ⟨⟨_, h1, (hends s rfl rfl rfl rfl rfl hp hb).1⟩, _, h2, ?_⟩
      unfold State.finishHalt
      dsimp only
      rw [show (s.hub s.cur.die s.cur.hub).launch = l from rfl]
      cases hl : l.timed with
      | true =>
        obtain ⟨he, hs⟩ := hends s rfl rfl rfl rfl rfl hp hb
        exact ⟨he, congrArg (fun m => (SMap.get {} m l.slot : Slot).run) hs⟩
      | false =>
        simp only [Bool.false_eq_true, if_false]
        obtain ⟨he, hs⟩ := hends (s.setSlot l.slot { s.slot l.slot with run := (s.slot l.slot).run.map fun r => { r with halt := true } })
          rfl rfl rfl rfl rfl hp hb
        exact ⟨he, (congrArg (fun m => (SMap.get {} m l.slot : Slot).run) hs).trans (congrArg Slot.run (State.setSlot_self ..))⟩
    · obtain ⟨t, h1, h2, h3, h4, h5, h6⟩ := exec_trap_counted s k hl
      exact ⟨t, h1, h2, hrec t h3, h4, h5, h6⟩
    · obtain ⟨t, h1, h2, h3, h4, h5, h6, h7, h8⟩ := exec_trap_timed s k hl hlo
      exact ⟨t, h1, h2, h3, h4, h5, h6, hrec t h7, h8⟩
  · exact exec_mark_next s
  · exact exec_fence_plain s sc h
  · exact exec_fence_flush s sc h3 hp
  · intro l reports
    refine ⟨fun j hj hl hr => ?_, fun j hj hl hlo hx => ?_⟩
    · exact ⟨_, exec_poisoned s k d a z i hpois j hj, coreFault_counted_stops s hl hr⟩
    · exact ⟨_, exec_poisoned s k d a z i hpois j hj, coreFault_timed_halts s hl hlo hx⟩

/-! ### Barriers, phases, stands and the fabric -/

theorem stand_counted (s : State) (q : Bool) (a : R6) (hp : (s.readS a).p = false) (hl : s.curHub.launch.timed = false) :
    stand q a s = afterPlain s 1 := by
  unfold stand
  rw [if_neg (by rw [hp]; exact Bool.false_ne_true), if_pos (by rw [hl]; rfl)]
  rfl

theorem stand_arms (s : State) (q : Bool) (a : R6) (hp : (s.readS a).p = false) (hl : s.curHub.launch.timed = true)
    (ha : (s.die s.cur.die).armed = false) (hm : s.mark + 64 ≤ (s.readS a).v.toNat) :
    stand q a s = (s.arm s.cur.die (s.readS a).v.toNat false false s.cur.hub q).advance 1 := by
  unfold stand
  extract_lets x p d m b
  rw [if_neg (by rw [hp]; exact Bool.false_ne_true), if_neg (by rw [hl]; decide), if_neg (by rw [ha]; exact Bool.false_ne_true),
    if_neg (by show ¬(s.readS a).v.toNat < _; omega), if_pos (by rw [ha]; rfl)]

theorem issuePhase_eq (s : State) (x : Nat) :
    issuePhase x s =
      let u := s.later 2 (.phaseSample x s.mark (s.curHub.pc % 2 ^ 32) s.slotTags)
      if s.curHub.launch.timed then u.later 8 .phaseClose else u := rfl

theorem exec_phase_local (s : State) (a : R6) (i : BitVec 8) (p : Nat) (t : Target) (hp : (s.readS a).p = false)
    (he : eaOf (s.readS a).v.toNat (i.toInt * 64) = some p) (hs : ptrSpace p = 0) (h64 : p % 64 = 0)
    (ht : s.translate s.cur.die s.cur.hub .ldst p 64 1 = .ok t) :
    exec (.phase a i) s = if s.curHub.launch.timed then .next ((issuePhase t.addr s).advance 1)
      else .next ((issuePhase t.addr s).waitOn (.phase t.addr s.mark)) := by
  rw [exec_phase]
  unfold execPhase
  simp only [hp, he, hs, h64, ht, Bool.false_eq_true, if_false, ne_eq, not_true, or_self]

theorem exec_fbind_binds (s : State) (g : R6) (c : BitVec 4) (h7 : (s.kind s.cur.die).hasEng 7 = true)
    (hc : ctxUsable ((s.xdie s.cur.die).context c.toNat) s.curHub.launch.part = true)
    (hg : SMap.get [] (s.xdie s.cur.die).graphs g.toNat ≠ []) (hb : (s.xdie s.cur.die).busy = false) :
    exec (.fbind g c) s = .next (doFbind g.toNat c.toNat s) := by
  have h7' : s.hasUnit 7 = true := h7
  have hg' : (SMap.get [] (s.xdie s.cur.die).graphs g.toNat).isEmpty = false := by simpa using hg
  rw [exec_fbind]
  unfold execFbind
  simp only [h7', hc, hg', hb, Bool.not_true, Bool.or_self, Bool.false_eq_true, if_false]

theorem exec_fload_stores (s : State) (g : R6) (t : BitVec 16) (x : Nat) (bs : List (List Nat)) (h7 : (s.kind s.cur.die).hasEng 7 = true)
    (hx : s.curHub.bundle t.toNat = some [x, 0, 0]) (hlt : x < 192)
    (hbs : s.curHub.bundles (t.toNat + 1) ((x % 64 + 1) * programs (x / 64)) = some bs) (hok : ∀ y ∈ bs, bundleOk (x % 64 + 1) y = true) :
    exec (.fload g t) s = .next ((s.setXdie s.cur.die { s.xdie s.cur.die with
      graphs := SMap.put (s.xdie s.cur.die).graphs g.toNat ([x, 0, 0] :: bs) }).advance
        (4 + ((x % 64 + 1) * programs (x / 64) + 1 + 3) / 4)) := by
  have h7' : s.hasUnit 7 = true := h7
  have hmode : x / 64 % 4 = x / 64 := by omega
  have hfind : bs.findIdx? (fun y => !bundleOk (x % 64 + 1) y) = none := by
    rw [List.findIdx?_eq_none_iff]
    exact fun y hy => by rw [hok y hy]; rfl
  rw [exec_fload]
  unfold execFload
  simp only [h7', hx, hmode, Bool.not_true, Bool.false_eq_true, if_false]
  rw [if_neg (by omega)]
  simp only [hbs, hfind]
  rfl

/-- Settles O31: each word has one lemma for the case that its operands and unit allow. -/
theorem barriersPhasesStandsAndFabric : Obligations.BarriersPhasesStandsAndFabric := by
  intro s a g i l b c t16
  refine ⟨?_, fun p t hp he hs h64 ht => ?_, fun hp => ⟨fun hl => ?_, fun hl ha hm => ?_⟩, fun h7 => ⟨fun hc hg hb => ?_, fun x bs hx hlt hbs hok => ?_⟩⟩
  · rw [exec_bar]
    unfold execBar
    dsimp only
    split <;> rfl
  · have he := exec_phase_local s a i p t hp he hs h64 ht
    refine ⟨fun hl => ?_, fun hl => ?_⟩
    · rw [he, if_pos hl]
      exact congrArg (fun u => Host.Outcome.next (State.advance u 1)) ((issuePhase_eq ..).trans (if_pos hl))
    · rw [he, if_neg (by rw [hl]; exact Bool.false_ne_true)]
      exact congrArg (fun u => Host.Outcome.next (State.waitOn u _))
        ((issuePhase_eq ..).trans (if_neg (by rw [hl]; exact Bool.false_ne_true)))
  · exact ⟨congrArg _ (stand_counted s false a hp hl), congrArg _ (stand_counted s true a hp hl)⟩
  · exact ⟨congrArg _ (stand_arms s false a hp hl ha hm), congrArg _ (stand_arms s true a hp hl ha hm)⟩
  · exact exec_fbind_binds s g c h7 hc hg hb
  · exact exec_fload_stores s g t16 x bs h7 hx hlt hbs hok

end Sys2Proof.Machine
end

section
/-! SUPPORT. The events of a hub, items, launches and grants (O43, O44). -/

namespace Sys2Proof.Machine

open Sys2Proof

/-! ### Events of one hub -/

/-- A state that differs in one hub, and in what is due and listed, is left as it was but for that hub. -/
theorem onlyHub_of_put {s t : State} {d k : Nat} {g : Hub} (hh : t.hubs = SMap.put s.hubs (8 * d + k) g) (hm : t.memory = s.memory)
    (hp : t.parts = s.parts) (hs : t.slots = s.slots) (hd : t.dies = s.dies) (ha : t.arrays = s.arrays) (hx : t.xdies = s.xdies)
    (hl : t.pls = s.pls) (hv : t.dev = s.dev) : OnlyHub s t d k := by
  refine ⟨(sameMemory_iff _ _).2 hm, hp, hs, hd, ha, hx, hl, hv, fun x h h8 hk8 hne => ?_⟩
  unfold State.hub
  rw [hh, SMap.get_put_ne _ _ _ (by omega)]

theorem onlyHub_setHub (s : State) (d k : Nat) (g : Hub) : OnlyHub s (s.setHub d k g) d k :=
  onlyHub_of_put rfl rfl rfl rfl rfl rfl rfl rfl rfl

theorem State.hub_of_put {s t : State} {d k : Nat} {g : Hub} (hh : t.hubs = SMap.put s.hubs (8 * d + k) g) : t.hub d k = g := by
  unfold State.hub
  rw [hh, SMap.get_put_self]

theorem exec_segmentStart_starts (s : State) (i : Nat) (g : Segment)
    (hi : s.segmentDue s.arg.die s.arg.hub s.arg.eng = some i)
    (hg : ((s.hub s.arg.die s.arg.hub).stream s.arg.eng).queue[i]? = some g)
    (hf : (s.hub s.arg.die s.arg.hub).launch.timed = true →
      ((s.hub s.arg.die s.arg.hub).stream s.arg.eng).seg = none ∧ ((s.hub s.arg.die s.arg.hub).stream s.arg.eng).free ≤ g.start) :
    ∃ tan, exec .segmentStart s = .next (s.setHub s.arg.die s.arg.hub
      { (s.hub s.arg.die s.arg.hub).setStream s.arg.eng { (s.hub s.arg.die s.arg.hub).stream s.arg.eng with
          queue := ((s.hub s.arg.die s.arg.hub).stream s.arg.eng).queue.eraseIdx i, seg := some g.num, pos := 0
          next := (s.die s.arg.die).cad } with tan := tan }) := by
  refine ⟨if s.arg.eng = 1 then none else (s.hub s.arg.die s.arg.hub).tan, ?_⟩
  have hget : ∀ d, ((s.hub s.arg.die s.arg.hub).stream s.arg.eng).queue.getD i d = g := fun d => by
    rw [List.getD_eq_getElem?_getD, hg]; rfl
  rw [exec_segmentStart]
  unfold execSegmentStart
  simp only [hi, hget]
  rw [if_neg ?_]
  intro hb
  rw [Bool.and_eq_true, Bool.or_eq_true, decide_eq_true_eq] at hb
  obtain ⟨ht, hb⟩ := hb
  obtain ⟨h1, h2⟩ := hf ht
  rcases hb with hb | hb
  · rw [h1] at hb; exact absurd hb Bool.false_ne_true
  · omega

theorem exec_storeMarkClose_closes (s : State) (hm : (s.hub s.arg.die s.arg.hub).mark = some [])
    (hw : (s.hub s.arg.die s.arg.hub).wait = .none) :
    exec .storeMarkClose s = .next (s.atCore.setCurHub { s.hub s.arg.die s.arg.hub with mark := none }) := by
  rw [exec_storeMarkClose]
  unfold execStoreMarkClose
  have hc : s.atCore.curHub = s.hub s.arg.die s.arg.hub := rfl
  simp only [hc, hm, hw, if_true]

/-- What a release leaves of the waits: none that is over is set again, and those of the hubs that arrived end. -/
theorem State.wait_releaseHubs (s : State) (b : Barrier) (timed : Bool) (ks : List (Nat × Nat)) (y z : Nat) (hz : z < 8) :
    ((s.hub y z).wait = .none → ((s.releaseHubs b timed ks).hub y z).wait = .none) ∧
    (8 * y + z ∈ ks.map (·.1) → (s.hub y z).wait = .bar b.level b.id → ((s.releaseHubs b timed ks).hub y z).wait = .none) := by
  induction ks generalizing s with
  | nil => exact ⟨id, fun h => absurd h (List.not_mem_nil)⟩
  | cons e r ih =>
    obtain ⟨k, m⟩ := e
    unfold State.releaseHubs
    extract_lets h at_ u
    have hnone : (s.hub y z).wait = .none → (u.hub y z).wait = .none := fun hw => by
      unfold u
      split
      · rw [State.hub_setHub]
        split
        · rfl
        · exact hw
      · exact hw
    refine ⟨fun hw => (ih u).1 (hnone hw), fun hmem hw => ?_⟩
    rw [List.map_cons, List.mem_cons] at hmem
    by_cases hk : 8 * y + z = k
    · have hy : k / 8 = y := by omega
      have hz' : k % 8 = z := by omega
      refine (ih u).1 ?_
      unfold u h
      rw [hy, hz', if_pos hw, State.setHub_self]
      rfl
    · refine (ih u).2 (hmem.resolve_left hk) ?_
      unfold u
      split
      · rw [State.hub_setHub, if_neg (by omega)]
        exact hw
      · exact hw

theorem State.releaseHubs_parts (s : State) (b : Barrier) (timed : Bool) (ks : List (Nat × Nat)) :
    (s.releaseHubs b timed ks).parts = s.parts := by
  induction ks generalizing s with
  | nil => rfl
  | cons e r ih =>
    unfold State.releaseHubs
    extract_lets h at_ u
    rw [ih]
    unfold u
    split <;> rfl

/-- What is left of a hub whose port has given its entry to the queue. -/
def portGiven (h : Hub) (e : Nat) (x : Port) : Hub :=
  let g : Hub := { h.nextInPort e x with replies := h.replies ++ [x.entry] }
  g.setTimeline (timelineOf e) ((g.timeline (timelineOf e)).finish x.op)

theorem exec_replyPortEntry_gives (s : State) (x : Port) (hx : SMap.find s.arg.eng (s.hub s.arg.die s.arg.hub).ports = some x)
    (hr : (s.hub s.arg.die s.arg.hub).replies.length < 16) :
    ∃ t, exec .replyPortEntry s = .next t ∧ OnlyHub s t s.arg.die s.arg.hub ∧
      t.hub s.arg.die s.arg.hub = portGiven (s.hub s.arg.die s.arg.hub) s.arg.eng x := by
  rw [exec_replyPortEntry]
  unfold execReplyPortEntry
  simp only [hx, hr, if_true]
  refine ⟨_, rfl, onlyHub_of_put (g := portGiven (s.hub s.arg.die s.arg.hub) s.arg.eng x) ?_ ?_ rfl rfl rfl rfl rfl rfl rfl, ?_⟩
  · show SMap.put (SMap.put _ _ _) _ _ = _
    rw [SMap.put_put]
    unfold portGiven
    rw [State.setHub_self]
  · simp
  · unfold State.finishOp portGiven
    simp only [State.setHub_self]

theorem portGiven_ports (h : Hub) (e : Nat) (x : Port) : (portGiven h e x).ports = (h.nextInPort e x).ports := rfl
theorem portGiven_drHeld (h : Hub) (e : Nat) (x : Port) : (portGiven h e x).drHeld = (h.nextInPort e x).drHeld := rfl

theorem Hub.nextInPort_behind (h : Hub) (e : Nat) (x : Port) (z : Reply) (r : List Reply) (hb : x.behind = z :: r) :
    h.nextInPort e x = { h with ports := SMap.put h.ports e { entry := z, op := z.seq, behind := r } } := by
  unfold Hub.nextInPort; rw [hb]

theorem Hub.nextInPort_held (h : Hub) (x : Port) (z : Reply) (hb : x.behind = []) (hd : h.drHeld = some z) :
    h.nextInPort 6 x = { h with ports := SMap.put h.ports 6 { entry := z, op := z.seq }, drHeld := none } := by
  unfold Hub.nextInPort; simp only [hb, if_true, hd]

theorem Hub.nextInPort_empty (h : Hub) (e : Nat) (x : Port) (hb : x.behind = []) (hd : e ≠ 6 ∨ h.drHeld = none) :
    h.nextInPort e x = { h with ports := SMap.drop h.ports e } := by
  have hn : (if e = 6 then h.drHeld else none) = none := by
    rcases hd with he | hd
    · exact if_neg he
    · rw [hd, ite_self]
  unfold Hub.nextInPort
  simp only [hb, hn]

theorem coreFault_counted_hub (s : State) (kind sub : Nat) (hl : s.curHub.launch.timed = false) (hr : s.curHub.run ≠ .stopped) :
    ∃ n pend, (s.coreFault kind sub []).hub s.cur.die s.cur.hub = { s.curHub with run := .stopped, stopRef := n, pending := pend } := by
  rw [coreFault_counted s kind sub hl hr]
  obtain ⟨pend, h⟩ := s.curHub_stopHub
  exact ⟨_, pend, h⟩

/-- Settles O43: each event has one lemma or unfolds at the core it names, and a release is followed through the list of arrivals. -/
theorem hubEvents : Obligations.HubEvents := by
  intro s h8 d k h e x at_
  refine ⟨fun i g hi hg hf => ?_, fun hm hw => ?_, fun sc hw hm => ?_, fun q n hw hn => ?_, fun n hw hn => ?_, fun n r rest hr => ⟨fun hw => ?_, fun hw => ?_⟩,
    fun b hb hfull => ⟨fun hst => ?_, fun hst ht => ?_⟩, fun y hw => ⟨fun hrun => ?_, fun hrun h0 => ?_, fun hrun h0 hl => ?_⟩, fun y hy hlen => ?_⟩
  · obtain ⟨tan, ht⟩ := exec_segmentStart_starts s i g hi hg hf
    refine ⟨_, ht, onlyHub_setHub .., ?_, ?_⟩
    · rw [State.setHub_self]; rfl
    · rw [State.setHub_self]; exact SMap.get_put_self ..
  · have hg : (s.atCore.setCurHub { s.hub s.arg.die s.arg.hub with mark := none }).hub d k = { s.hub s.arg.die s.arg.hub with mark := none } :=
      SMap.get_put_self ..
    refine ⟨_, exec_storeMarkClose_closes s hm hw, ?_, ?_, onlyHub_of_put rfl (by simp [State.atCore]) rfl rfl rfl rfl rfl rfl rfl⟩
    · rw [hg]
    · rw [hg]
  · rw [exec_fenceEnd]
    unfold execFenceEnd
    have hc : s.atCore.curHub.wait = .fence sc := hw
    have hf : s.atCore.fenceMet s.atCore.cur.die s.atCore.cur.hub sc = true := hm
    simp only [hc, hf, if_true]
    rfl
  · rw [exec_tlwaitEnd]
    unfold execTlwaitEnd
    have hc : s.atCore.curHub.wait = .timeline q n := hw
    have hf : n ≤ (s.atCore.curHub.timeline q).count := hn
    simp only [hc, hf, if_true]
    rfl
  · rw [exec_tickExpiry]
    unfold execTickExpiry
    have hc : s.atCore.curHub.wait = .tick n := hw
    have hf : n ≤ s.atCore.now := hn
    simp only [hc, hf, if_true]
    rfl
  · have hc : s.atCore.curHub.wait = .pop n := hw
    have hq : s.atCore.curHub.replies = r :: rest := hr
    have he : exec .popTake s = .next (((s.atCore.setCurHub { s.atCore.curHub with replies := rest }).later 2 (.regS n r.value r.psn)).advance 1) := by
      rw [exec_popTake]
      unfold execPopTake takeReply
      simp only [hc, hq]
    have hcur : (s.atCore.setCurHub { s.atCore.curHub with replies := rest }).curHub = { h with replies := rest } := SMap.get_put_self ..
    have hput : ((((s.atCore.setCurHub { s.atCore.curHub with replies := rest }).later 2 (.regS n r.value r.psn)).advance 1)).hubs =
        SMap.put s.hubs (8 * d + k) (({ h with replies := rest } : Hub).advance (s.die d).cad 1) := by
      rw [← hcur]
      exact SMap.put_put ..
    refine ⟨_, he, ?_, ?_, ?_, ?_⟩
    · rw [State.hub_of_put hput]; rfl
    · rw [State.hub_of_put hput]; rfl
    · exact congrArg (· :: s.agenda) (dueOf_setCurHub_replies s.atCore rest 2 (.regS n r.value r.psn))
    · exact onlyHub_of_put hput (by simp [State.atCore]) rfl rfl rfl rfl rfl rfl rfl
  · have hc : s.atCore.curHub.wait = .popTag n := hw
    have hq : s.atCore.curHub.replies = r :: rest := hr
    rw [exec_popTake]
    unfold execPopTake takeTag
    simp only [hc, hq]
    rfl
  · rw [exec_barrierRelease]
    unfold execBarrierRelease
    simp only [hb, hst, Bool.not_true, Bool.and_false, Bool.false_and, Bool.false_eq_true, if_false]
  · have hcond : (!((s.slot s.arg.slot).run.map (·.launch.timed)).getD false || b.releaseMark == s.arg.off) = true := by
      cases hrun : (s.slot s.arg.slot).run with
      | none => rfl
      | some r =>
        cases htm : r.launch.timed with
        | false => simp [htm]
        | true => simp [ht r hrun htm]
    have he : exec .barrierRelease s = .next ((s.setPart s.arg.part { s.part s.arg.part with
        barriers := (s.part s.arg.part).barriers.filter fun x => decide (x ≠ b) }).releaseHubs b
          (((s.slot s.arg.slot).run.map (·.launch.timed)).getD false) b.arrived) := by
      rw [exec_barrierRelease]
      unfold execBarrierRelease
      simp only [hb, hfull, hst, hcond, Bool.not_false, Bool.and_self, if_true]
    refine ⟨_, he, (sameMemory_iff _ _).2 (by simp), ?_, fun y z hz hmem hw => ?_⟩
    · unfold State.part
      rw [State.releaseHubs_parts]
      exact congrArg Part.barriers (State.setPart_self ..)
    · exact (State.wait_releaseHubs _ b _ b.arrived y z hz).2 hmem hw
  · rw [exec_phaseDirectoryAnswer]
    unfold execPhaseDirectoryAnswer
    have hc : s.atCore.curHub.wait = .phase y s.arg.n := hw
    simp only [hc]
    rw [if_pos (.inr hrun)]
    rfl
  · rw [exec_phaseDirectoryAnswer]
    unfold execPhaseDirectoryAnswer
    have hc : s.atCore.curHub.wait = .phase y s.arg.n := hw
    have hn : ¬(s.arg.n ≠ s.atCore.arg.n ∨ s.atCore.curHub.run ≠ .running) := by
      rintro (hx | hx)
      · exact hx rfl
      · exact hx hrun
    have h0' : s.atCore.arg.off = 0 := h0
    simp only [hc, hn, h0', if_true, if_false]
    rfl
  · have he : exec .phaseDirectoryAnswer s =
        .next ((s.atCore.setCurHub { s.atCore.curHub with wait := .none }).coreFault 0x03 s.arg.off []) := by
      rw [exec_phaseDirectoryAnswer]
      unfold execPhaseDirectoryAnswer
      have hc : s.atCore.curHub.wait = .phase y s.arg.n := hw
      have hn : ¬(s.arg.n ≠ s.atCore.arg.n ∨ s.atCore.curHub.run ≠ .running) := by
        rintro (hx | hx)
        · exact hx rfl
        · exact hx hrun
      have h0' : ¬s.atCore.arg.off = 0 := h0
      simp only [hc, hn, h0', if_false]
      rfl
    have hcur : (s.atCore.setCurHub { s.atCore.curHub with wait := .none }).curHub = { h with wait := .none } := SMap.get_put_self ..
    have hnot : ({ h with wait := .none } : Hub).run ≠ .stopped := by
      show h.run ≠ .stopped
      rw [hrun]
      decide
    obtain ⟨n, pend, hst⟩ := coreFault_counted_hub (s.atCore.setCurHub { s.atCore.curHub with wait := .none }) 0x03 s.arg.off
      (by rw [hcur]; exact hl) (by rw [hcur]; exact hnot)
    rw [hcur] at hst
    have hg : ((s.atCore.setCurHub { s.atCore.curHub with wait := .none }).coreFault 0x03 s.arg.off []).hub d k =
      { h with wait := .none, run := .stopped, stopRef := n, pending := pend } := hst
    refine ⟨_, he, by rw [hg], by rw [hg], by rw [hg], by rw [hg], (sameMemory_iff _ _).2 (by simp [State.atCore])⟩
  · obtain ⟨t, ht, ho, hg⟩ := exec_replyPortEntry_gives s y hy hlen
    refine ⟨t, ht, ?_, ho, fun z r hb => ?_, fun hb hd => ?_, fun z hb he hd => ?_⟩
    · rw [hg]; rfl
    · rw [hg, portGiven_ports, Hub.nextInPort_behind _ _ _ z r hb]
      exact SMap.find_put_self ..
    · unfold Hub.portFull
      rw [hg, portGiven_ports, Hub.nextInPort_empty _ _ _ hb hd, SMap.find_drop, if_pos rfl]
      rfl
    · have hn := Hub.nextInPort_held h y z hb hd
      rw [← he] at hn
      rw [hg, portGiven_ports, portGiven_drHeld, hn]
      exact ⟨SMap.find_put_self .., rfl⟩

/-! ### Items -/

theorem State.readBytes_congr {s t : State} (hb : t.byteAt = s.byteAt) (a n : Nat) : t.readBytes a n = s.readBytes a n := by
  induction n generalizing a with
  | zero => rfl
  | succ n ih => rw [State.readBytes, State.readBytes, hb, ih]

theorem State.itemOf_congr {s t : State} (hb : t.byteAt = s.byteAt) (hp : t.poisoned = s.poisoned) (hh : t.hPlace = s.hPlace)
    (r : Run) (u j o m : Nat) : t.itemOf r u j o m = s.itemOf r u j o m := by
  have hw : t.listWord = s.listWord := by
    funext part x e
    unfold State.listWord State.readNat
    simp only [hp, hh, State.readBytes_congr hb]
  unfold State.itemOf
  rw [hw]

theorem State.itemOf_schedule (s : State) (slot : Nat) (q r : Run) (t j k u o m : Nat) :
    (s.schedule slot q u k).itemOf r t j o m = s.itemOf r t j o m := by
  unfold State.schedule
  extract_lets die
  split
  · refine State.itemOf_congr ?_ ?_ ?_ r t j o m
    · rfl
    · rfl
    · funext part x n
      unfold State.hPlace
      rfl
  · rfl
theorem State.itemOf_run (s : State) (r q : Run) (t j o m : Nat) (hl : q.launch = r.launch) (ht : q.teams = r.teams)
    (hi : q.lists = r.lists) (hf : q.fields = r.fields) : s.itemOf q t j o m = s.itemOf r t j o m := by
  unfold State.itemOf
  rw [hl, ht, hi, hf]

theorem State.hub_eccRead (s : State) (die hub eng detail : Nat) (ps : List (Nat × Nat)) (y z : Nat) :
    (s.eccRead die hub eng detail ps).hub y z = s.hub y z := by
  obtain ⟨-, -, -, -, -, -, -, -, -, -, -, hh, -⟩ := s.eccRead_frame die hub eng detail ps
  unfold State.hub
  rw [hh]

theorem State.hub_takeItem (s : State) (die hub : Nat) (t : Item) (y z : Nat) :
    (s.takeItem die hub t).hub y z = if 8 * y + z = 8 * die + hub then
      (s.turnTo die hub t.launch).preload { t with trank := hub - t.lead % 8 } (s.die die).cad else s.hub y z := by
  have hput : ∀ (v : State) (g : Hub), v.hubs = SMap.put s.hubs (8 * die + hub) g → v.hub y z = if 8 * y + z = 8 * die + hub then g else s.hub y z :=
    fun v g hv => by
      unfold State.hub
      rw [hv]
      exact SMap.get_put ..
  unfold State.takeItem
  dsimp only
  split
  · rw [State.hub_eccRead]
    exact hput _ _ rfl
  · exact hput _ _ rfl

/-- A hub has begun an item: its core stands at the start, and its registers hold what the item brings (R171). -/
def Begun (t : Item) (h : Hub) : Prop := ∃ g rank now, h = Hub.preload g { t with trank := rank } now

theorem State.hub_takeAll (s : State) (die : Nat) (t : Item) (hs : List Nat) (z : Nat) :
    (Begun t (s.hub die z) → Begun t ((s.takeAll die t hs).hub die z)) ∧ (z ∈ hs → Begun t ((s.takeAll die t hs).hub die z)) := by
  induction hs generalizing s with
  | nil => exact ⟨id, fun h => absurd h List.not_mem_nil⟩
  | cons h r ih =>
    have hstep := s.hub_takeItem die h t die z
    have hkeep : Begun t (s.hub die z) → Begun t ((s.takeItem die h t).hub die z) := fun hb => by
      rw [hstep]
      split
      · exact ⟨_, _, _, rfl⟩
      · exact hb
    refine ⟨fun hb => (ih _).1 (hkeep hb), fun hz => ?_⟩
    rcases List.mem_cons.1 hz with rfl | hz
    · refine (ih _).1 ?_
      rw [hstep, if_pos rfl]
      exact ⟨_, _, _, rfl⟩
    · exact (ih _).2 hz

theorem readS_preload (g : Hub) (t : Item) (now : Nat) :
    (∀ i, i < 6 → (g.preload t now).readS (i + 1) = ⟨t.fields.getD i 0, false⟩) ∧ (g.preload t now).readS 7 = ⟨t.wid, false⟩ ∧
      (g.preload t now).readS 8 = ⟨BitVec.ofNat 64 t.ord, false⟩ ∧ ∀ i, 8 < i → (g.preload t now).readS i = {} := by
  have hs : (g.preload t now).s = [(1, ⟨t.fields.getD 0 0, false⟩), (2, ⟨t.fields.getD 1 0, false⟩), (3, ⟨t.fields.getD 2 0, false⟩),
      (4, ⟨t.fields.getD 3 0, false⟩), (5, ⟨t.fields.getD 4 0, false⟩), (6, ⟨t.fields.getD 5 0, false⟩), (7, ⟨t.wid, false⟩),
      (8, ⟨BitVec.ofNat 64 t.ord, false⟩)] := rfl
  unfold Hub.readS
  rw [hs]
  refine ⟨fun i hi => ?_, rfl, rfl, fun i hi => ?_⟩
  · match i, hi with
    | 0, _ => rfl
    | 1, _ => rfl
    | 2, _ => rfl
    | 3, _ => rfl
    | 4, _ => rfl
    | 5, _ => rfl
  · rw [if_neg (by omega)]
    have hf : ∀ k, k < 9 → ¬k = i := fun k hk => by omega
    simp [SMap.get, SMap.find, hf]

/-! ### What a grant leaves -/

/-- What every step of a fold keeps, the fold keeps. -/
theorem foldl_keeps {σ α β : Type} (f : σ → β) (g : σ → α → σ) (h : ∀ s a, f (g s a) = f s) (l : List α) (s : σ) :
    f (l.foldl g s) = f s := by
  induction l generalizing s with
  | nil => rfl
  | cons a r ih => rw [List.foldl_cons, ih, h]

/-- The partitions, the other slots and the queue of slot `n` are as before. -/
def KeepsQueue (n : Nat) (s t : State) : Prop :=
  t.parts = s.parts ∧ (∀ q, q ≠ n → t.slot q = s.slot q) ∧ (t.slot n).qcb = (s.slot n).qcb

theorem KeepsQueue.trans {n : Nat} {s t u : State} (h : KeepsQueue n s t) (k : KeepsQueue n t u) : KeepsQueue n s u :=
  ⟨k.1.trans h.1, fun q hq => (k.2.1 q hq).trans (h.2.1 q hq), k.2.2.trans h.2.2⟩

theorem keepsQueue_of_slots {n : Nat} {s t : State} (hp : t.parts = s.parts) (hs : t.slots = s.slots) : KeepsQueue n s t := by
  have hslot : ∀ q, t.slot q = s.slot q := fun q => by unfold State.slot; rw [hs]
  exact ⟨hp, fun q _ => hslot q, by rw [hslot]⟩

theorem keepsQueue_setRun (s : State) (n : Nat) (r : Run) : KeepsQueue n s (s.setRun n r) :=
  ⟨rfl, fun q hq => (State.slot_setSlot ..).trans (if_neg hq), by rw [State.setRun, State.setSlot_self]⟩

theorem State.holdArrays_slots (s : State) (l : Launch) (ts : List (Nat × Nat × Nat)) :
    ((s.holdArrays l ts).slots, (s.holdArrays l ts).parts) = (s.slots, s.parts) := by
  unfold State.holdArrays
  refine foldl_keeps (fun s : State => (s.slots, s.parts)) _ (fun s t => ?_) ts s
  refine foldl_keeps (fun s : State => (s.slots, s.parts)) _ (fun s h => ?_) _ s
  unfold State.holdArray
  extract_lets own x
  split <;> rfl

theorem keepsQueue_holdArrays (s : State) (n : Nat) (l : Launch) (ts : List (Nat × Nat × Nat)) : KeepsQueue n s (s.holdArrays l ts) :=
  keepsQueue_of_slots (congrArg Prod.snd (s.holdArrays_slots l ts)) (congrArg Prod.fst (s.holdArrays_slots l ts))

theorem keepsQueue_eccFor (s : State) (n : Nat) (l : Launch) (a b c d : Nat) (ps : List (Nat × Nat)) :
    KeepsQueue n s (s.eccFor l a b c d ps) := by
  obtain ⟨-, -, -, -, -, -, -, hs, hp, -⟩ := s.eccFor_frame l a b c d ps
  exact keepsQueue_of_slots hp hs

theorem keepsQueue_foldl {α : Type} (n : Nat) (g : State → α → State) (h : ∀ s a, KeepsQueue n s (g s a)) (l : List α) (s : State) :
    KeepsQueue n s (l.foldl g s) := by
  induction l generalizing s with
  | nil => exact keepsQueue_of_slots rfl rfl
  | cons a r ih => exact (h s a).trans (ih _)

theorem keepsQueue_tableRead (s : State) (n : Nat) (r : Run) : KeepsQueue n s (s.tableRead r) := by
  unfold State.tableRead
  split
  · exact keepsQueue_foldl n _ (fun s t => keepsQueue_eccFor ..) _ s
  · exact keepsQueue_of_slots rfl rfl

theorem keepsQueue_schedule (s : State) (n slot : Nat) (r : Run) (t j : Nat) : KeepsQueue n s (s.schedule slot r t j) := by
  unfold State.schedule
  extract_lets die
  split <;> exact keepsQueue_of_slots rfl rfl

theorem keepsQueue_startTimed (s : State) (n : Nat) (r : Run) : KeepsQueue n s (s.startTimed n r) := by
  unfold State.startTimed
  dsimp only
  refine KeepsQueue.trans (KeepsQueue.trans ?_ (keepsQueue_setRun _ n _)) (keepsQueue_foldl n _ (fun s t => keepsQueue_schedule ..) _ _)
  exact keepsQueue_of_slots rfl rfl

theorem keepsQueue_place (s : State) (n t : Nat) : KeepsQueue n s (s.place n t) := by
  unfold State.place
  split
  · exact keepsQueue_of_slots rfl rfl
  next r _ =>
    split
    · exact keepsQueue_of_slots rfl rfl
    · exact ((keepsQueue_setRun s n _).trans (keepsQueue_holdArrays _ n _ _)).trans (keepsQueue_of_slots rfl rfl)

theorem keepsQueue_placeAll (s : State) (n : Nat) (ts : List Nat) : KeepsQueue n s (s.placeAll n ts) := by
  induction ts generalizing s with
  | nil => exact keepsQueue_of_slots rfl rfl
  | cons t r ih => exact (keepsQueue_place s n t).trans (ih _)

/-- What a grant to slot `n` keeps of the queues and of the directory of its partition. -/
structure GrantKeeps (n part : Nat) (s t : State) : Prop where
  others : ∀ q, q ≠ n → t.slot q = s.slot q
  part_ : (t.slot n).qcb.part = (s.slot n).qcb.part
  bprio : (t.slot n).qcb.bprio = (s.slot n).qcb.bprio
  state : (s.slot n).qcb.state = 1 → (t.slot n).qcb.state = 2
  susp : ∀ v ∈ (t.part part).susp, v ∈ (s.part part).susp
  memory : (∀ v ∈ (s.part part).susp, v.off = false) → t.memory = s.memory

theorem GrantKeeps.keeps {n part : Nat} {s t u : State} (h : GrantKeeps n part s t) (k : KeepsQueue n t u) (hm : u.memory = t.memory) :
    GrantKeeps n part s u := by
  obtain ⟨hp, ho, hq⟩ := k
  refine ⟨fun q hne => (ho q hne).trans (h.others q hne), by rw [hq, h.part_], by rw [hq, h.bprio], fun h1 => by rw [hq, h.state h1],
    fun v hv => h.susp v ?_, fun hoff => hm.trans (h.memory hoff)⟩
  unfold State.part at hv ⊢
  rwa [hp] at hv

theorem grantKeeps_startRun (s : State) (n part : Nat) (r : Run) : GrantKeeps n part s (s.startRun n r) := by
  have hset : ∀ y : Slot, y.qcb.part = (s.slot n).qcb.part → y.qcb.bprio = (s.slot n).qcb.bprio → y.qcb.state = 2 →
      GrantKeeps n part s (s.setSlot n y) := fun y hp hb h2 =>
    { others := fun q hq => (State.slot_setSlot ..).trans (if_neg hq)
      part_ := by rw [State.setSlot_self, hp]
      bprio := by rw [State.setSlot_self, hb]
      state := fun _ => by rw [State.setSlot_self, h2]
      susp := fun v hv => hv
      memory := fun _ => rfl }
  unfold State.startRun
  extract_lets x w wb q u v
  have hu : GrantKeeps n part s u := hset _ rfl rfl rfl
  have hv : GrantKeeps n part s v :=
    hu.keeps ((keepsQueue_holdArrays u n r.launch r.teams).trans (keepsQueue_tableRead _ n r)) (by simp [v])
  split
  · exact hv.keeps (keepsQueue_startTimed v n r) (by simp)
  · exact hv

theorem restorePads_frame (s : State) (v : Saved) : (s.restorePads v).parts = s.parts ∧ (s.restorePads v).slots = s.slots ∧
    (v.off = false → (s.restorePads v).memory = s.memory) := by
  unfold State.restorePads
  split
  next h => exact ⟨rfl, rfl, fun h' => absurd (h.symm.trans h') (by decide)⟩
  · exact ⟨rfl, rfl, fun _ => rfl⟩

theorem grantKeeps_regrant (s : State) (n part : Nat) (v : Saved) (hp : (s.slot n).qcb.part = part) (hv : v ∈ (s.part part).susp)
    (h1 : (s.slot n).qcb.state ≠ 1) : GrantKeeps n part s (s.regrant n v) := by
  have key : ∀ (u : State) (p : Part) (y : Slot), u.parts = SMap.put s.parts part p → u.slots = SMap.put s.slots n y →
      (v.off = false → u.memory = s.memory) → (∀ w ∈ p.susp, w ∈ (s.part part).susp) → y.qcb.part = part → y.qcb.bprio = (s.slot n).qcb.bprio →
      GrantKeeps n part s u := by
    intro u p y hparts hslots hmem hsusp hpart hb
    have hslot : ∀ q, u.slot q = if q = n then y else s.slot q := fun q => by
      unfold State.slot; rw [hslots]; exact SMap.get_put ..
    refine ⟨fun q hq => (hslot q).trans (if_neg hq), by rw [hslot, if_pos rfl, hpart, hp], by rw [hslot, if_pos rfl, hb],
      fun h => absurd h h1, fun w hw => ?_, fun hoff => hmem (hoff v hv)⟩
    unfold State.part at hw
    rw [hparts, SMap.get_put_self] at hw
    exact hsusp w hw
  subst hp
  unfold State.regrant
  dsimp only
  split
  · refine key _ _ _ (restorePads_frame _ v).1 (restorePads_frame _ v).2.1 (restorePads_frame _ v).2.2 ?_ ?_ ?_
    · exact fun w hw => (List.mem_filter.1 hw).1
    · rfl
    · rfl
  · have hfold := fun u => foldl_keeps (fun s : State => (s.parts, s.slots, s.memory))
      (fun (s : State) (e : Nat × Hub) => if e.2.item.isSome then s.setDie (e.1 / 8) { s.die (e.1 / 8) with tk := v.run.launch.tk } else s)
      (fun s e => by dsimp only; split <;> rfl) v.hubs u
    refine key _ _ _ ((congrArg (·.1) (hfold _)).trans (restorePads_frame _ v).1) ((congrArg (·.2.1) (hfold _)).trans (restorePads_frame _ v).2.1)
      (fun h => (congrArg (·.2.2) (hfold _)).trans ((restorePads_frame _ v).2.2 h)) ?_ ?_ ?_
    · exact fun w hw => (List.mem_filter.1 hw).1
    · rfl
    · rfl

theorem grantKeeps_refl (s : State) (n part : Nat) (h1 : (s.slot n).qcb.state ≠ 1) : GrantKeeps n part s s :=
  ⟨fun _ _ => rfl, rfl, rfl, fun h => absurd h h1, fun _ h => h, fun _ => rfl⟩

/-- What a candidate of the partition holds once it is granted. -/
theorem grant_grants (s : State) (n part : Nat) (teams : List Nat) (hp : (s.slot n).qcb.part = part) :
    let t := s.grant part n teams
    GrantKeeps n part s t ∧ (t.slot n).granted = true ∧ (t.slot n).qcb.age = 0 ∧ (t.slot n).qcb.prio = (s.slot n).qcb.bprio ∧
      (t.part part).lastGrant = n := by
  have key : ∀ w : State, GrantKeeps n part s w →
      let y := w.slot n
      let u := w.setSlot n { y with granted := true, qcb := { y.qcb with prio := y.qcb.bprio, age := 0 } }
      let t := u.setPart part { u.part part with lastGrant := n }
      GrantKeeps n part s t ∧ (t.slot n).granted = true ∧ (t.slot n).qcb.age = 0 ∧ (t.slot n).qcb.prio = (s.slot n).qcb.bprio ∧
        (t.part part).lastGrant = n := by
    intro w hw y u t
    have hy : t.slot n = { y with granted := true, qcb := { y.qcb with prio := y.qcb.bprio, age := 0 } } := State.setSlot_self ..
    have ht : t.part part = { w.part part with lastGrant := n } := State.setPart_self ..
    refine ⟨⟨fun q hq => (hw.others q hq).symm ▸ (State.slot_setSlot ..).trans (if_neg hq), ?_, ?_, fun h => ?_, fun v hv => ?_, fun hoff => ?_⟩, ?_, ?_, ?_, ?_⟩
    · rw [hy]; exact hw.part_
    · rw [hy]; exact hw.bprio
    · rw [hy]; exact hw.state h
    · rw [ht] at hv; exact hw.susp v hv
    · exact hw.memory hoff
    · rw [hy]
    · rw [hy]
    · rw [hy]; exact hw.bprio
    · rw [ht]
  have hplace : ∀ w, GrantKeeps n part s w → GrantKeeps n part s (w.placeAll n teams) := fun w hw =>
    hw.keeps (keepsQueue_placeAll w n teams) (by simp)
  unfold State.grant
  extract_lets x u v
  have hu : GrantKeeps n part s u := by
    unfold u
    split
    next h3 =>
      have h1 : (s.slot n).qcb.state ≠ 1 := by
        rw [show (s.slot n).qcb.state = 3 from h3]; decide
      split
      next w hw =>
        refine grantKeeps_regrant s n part w hp ?_ h1
        subst hp
        exact List.mem_of_find?_eq_some hw
      · exact grantKeeps_refl s n part h1
    · split
      · exact grantKeeps_startRun ..
      next h1 => exact grantKeeps_refl s n part h1
  exact key v (hplace u hu)

/-- The arbiter leaves the slots that are no candidates, and memory where no launch comes back from a loss of power. -/
theorem arbitrate_keeps (part : Nat) (ns : List Nat) (avoid : List (Nat × Nat)) (s : State) (hp : ∀ n ∈ ns, (s.slot n).qcb.part = part) :
    (∀ q, q ∉ ns → (s.arbitrate part avoid ns).slot q = s.slot q) ∧
      ((∀ v ∈ (s.part part).susp, v.off = false) → (s.arbitrate part avoid ns).memory = s.memory) := by
  induction ns generalizing s avoid with
  | nil => exact ⟨fun _ _ => rfl, fun _ => rfl⟩
  | cons n rest ih =>
    have hrest : ∀ a, (∀ q, q ∉ n :: rest → (s.arbitrate part a rest).slot q = s.slot q) ∧
        ((∀ v ∈ (s.part part).susp, v.off = false) → (s.arbitrate part a rest).memory = s.memory) := fun a =>
      have h := ih a s fun m hm => hp m (List.mem_cons_of_mem _ hm)
      ⟨fun q hq => h.1 q fun hm => hq (List.mem_cons_of_mem _ hm), h.2⟩
    have hgrant : ∀ a teams, (∀ q, q ∉ n :: rest → ((s.grant part n teams).arbitrate part a rest).slot q = s.slot q) ∧
        ((∀ v ∈ (s.part part).susp, v.off = false) → ((s.grant part n teams).arbitrate part a rest).memory = s.memory) := fun a teams => by
      obtain ⟨hk, -⟩ := grant_grants s n part teams (hp n (List.mem_cons_self ..))
      obtain ⟨h1, h2⟩ := ih a (s.grant part n teams) fun m hm => by
        by_cases hmn : m = n
        · rw [hmn, hk.part_, hp n (List.mem_cons_self ..)]
        · rw [hk.others m hmn, hp m (List.mem_cons_of_mem _ hm)]
      refine ⟨fun q hq => ?_, fun hoff => ?_⟩
      · rw [List.mem_cons, not_or] at hq
        rw [h1 q hq.2, hk.others q hq.1]
      · rw [h2 fun v hv => hoff v (hk.susp v hv), hk.memory hoff]
    unfold State.arbitrate
    split
    · exact hrest avoid
    next r _ =>
      split
      · split
        · exact hgrant avoid []
        · exact hrest _
      · dsimp only
        split
        · exact hrest avoid
        · exact hgrant avoid _

/-- The candidates of a partition are slots of its own, each once. -/
theorem candidates_nodup (s : State) (part : Nat) : (s.candidates part).Nodup ∧ ∀ n ∈ s.candidates part, (s.slot n).qcb.part = part := by
  unfold State.candidates
  extract_lets last cs
  have hcs : cs.Nodup := by
    refine List.Nodup.filter _ (List.Nodup.map_on (fun i hi j hj h => ?_) List.nodup_range)
    rw [List.mem_range] at hi hj
    omega
  refine ⟨?_, fun n hn => ?_⟩
  · rw [List.nodup_flatMap]
    refine ⟨fun i _ => hcs.filter _, ?_⟩
    refine List.Pairwise.imp_of_mem ?_ List.nodup_range
    intro i j hi hj hij
    rw [List.mem_range] at hi hj
    rw [Function.onFun, List.disjoint_left]
    intro n h1 h2
    obtain ⟨-, h1⟩ := List.mem_filter.1 h1
    obtain ⟨-, h2⟩ := List.mem_filter.1 h2
    rw [beq_iff_eq] at h1 h2
    omega
  · obtain ⟨i, -, hn⟩ := List.mem_flatMap.1 hn
    obtain ⟨hn, -⟩ := List.mem_filter.1 hn
    obtain ⟨-, hn⟩ := List.mem_filter.1 hn
    rw [Bool.and_eq_true] at hn
    exact beq_iff_eq.1 hn.2

/-- The first candidate whose hubs are free is granted. -/
theorem arbitrate_first (s : State) (part m : Nat) (rest : List Nat) (g : Run) (hr : s.runFor m = some g)
    (hfree : if wholeSet (s.slot m) g then s.setFree g [] = true else s.freeTeams g [] ≠ []) :
    ∃ teams, s.arbitrate part [] (m :: rest) = (s.grant part m teams).arbitrate part [] rest := by
  rw [State.arbitrate]
  simp only [hr]
  split at hfree
  next hw => exact ⟨[], by rw [if_pos hw, if_pos hfree]⟩
  next hw => exact ⟨_, by rw [if_neg hw, if_neg (by simpa using hfree)]⟩

theorem exec_hubGrant_grants (s : State) (m : Nat) (rest : List Nat) (g : Run) (hmay : s.mayStart s.arg.part = true)
    (hc : s.candidates s.arg.part = m :: rest) (hr : s.runFor m = some g)
    (hfree : if wholeSet (s.slot m) g then s.setFree g [] = true else s.freeTeams g [] ≠ []) :
    ∃ t, exec .hubGrant s = .next t ∧ ((∀ v ∈ (s.part s.arg.part).susp, v.off = false) → SameMemory s t) ∧ (t.slot m).granted = true ∧
      (t.slot m).qcb.age = 0 ∧ (t.slot m).qcb.prio = (s.slot m).qcb.bprio ∧ (rest = [] → (t.part s.arg.part).lastGrant = m) ∧
      ((s.slot m).qcb.state = 1 → (t.slot m).qcb.state = 2) := by
  obtain ⟨hnd, hpart⟩ := candidates_nodup s s.arg.part
  rw [hc] at hnd hpart
  obtain ⟨hm, -⟩ := List.nodup_cons.1 hnd
  obtain ⟨teams, ha⟩ := arbitrate_first s s.arg.part m rest g hr hfree
  obtain ⟨hk, h1, h2, h3, h4⟩ := grant_grants s m s.arg.part teams (hpart m (List.mem_cons_self ..))
  obtain ⟨hslot, hmem⟩ := arbitrate_keeps s.arg.part rest [] (s.grant s.arg.part m teams) fun n hn => by
    rw [hk.others n fun h => hm (h ▸ hn), hpart n (List.mem_cons_of_mem _ hn)]
  refine ⟨(s.grant s.arg.part m teams).arbitrate s.arg.part [] rest, ?_, fun hoff => (sameMemory_iff _ _).2 ?_, ?_, ?_, ?_, fun he => ?_, fun h => ?_⟩
  · rw [exec_hubGrant]
    unfold execHubGrant
    rw [if_pos hmay, hc, ha]
  · rw [hmem fun v hv => hoff v (hk.susp v hv), hk.memory hoff]
  · rw [hslot m hm, h1]
  · rw [hslot m hm, h2]
  · rw [hslot m hm, h3]
  · subst he; exact h4
  · rw [hslot m hm, hk.state h]

/-! ### Starts, ends, completion and abort -/

theorem teamEnded_free (s : State) (r : Run) (t : Nat)
    (hf : ∀ h ∈ maskHubs (r.teams.getD t (0, 0, 0)).2.2, (s.hub (r.teams.getD t (0, 0, 0)).2.1 h).item = none) : s.teamEnded r t = false := by
  unfold State.teamEnded
  dsimp only
  cases hm : maskHubs (r.teams.getD t (0, 0, 0)).2.2 with
  | nil => rfl
  | cons h hs =>
    have hn := hf h (by rw [hm]; exact List.mem_cons_self ..)
    have he : s.itemEnded (r.teams.getD t (0, 0, 0)).2.1 h = false := by
      unfold State.itemEnded
      dsimp only
      rw [hn]
      rfl
    rw [List.all_cons, he]
    rfl

theorem State.schedule_arg (s : State) (slot : Nat) (r : Run) (t j : Nat) : (s.schedule slot r t j).arg = s.arg := by
  unfold State.schedule
  dsimp only
  split <;> rfl

/-- An item that a free team takes is begun by every hub of the team. -/
theorem exec_itemStart_begins (s : State) (r : Run) (it : Item) (hr : (s.slot s.arg.slot).run = some r)
    (hf : ∀ h ∈ maskHubs (r.teams.getD s.arg.team (0, 0, 0)).2.2, (s.hub (r.teams.getD s.arg.team (0, 0, 0)).2.1 h).item = none)
    (hit : s.itemOf r s.arg.team s.arg.m s.arg.n
      (if r.launch.timed then r.startMark s.arg.m else s.markOf (r.teams.getD s.arg.team (0, 0, 0)).2.1 + 64) = .ok it) :
    ∃ u, exec .itemStart s = .next (State.takeAll u (r.teams.getD s.arg.team (0, 0, 0)).2.1 it
      (maskHubs (r.teams.getD s.arg.team (0, 0, 0)).2.2)) ∧ u.memory = s.memory := by
  have hleft := teamEnded_free s r s.arg.team hf
  have hbusy : ((maskHubs (r.teams.getD s.arg.team (0, 0, 0)).2.2).any fun h =>
      (s.hub (r.teams.getD s.arg.team (0, 0, 0)).2.1 h).item.isSome) = false := by
    rw [List.any_eq_false]
    intro h hh
    rw [hf h hh]
    exact Bool.false_ne_true
  rw [exec_itemStart]
  unfold execItemStart
  simp only [hr, hleft, Bool.false_eq_true, if_false]
  cases ht : r.launch.timed with
  | true =>
    rw [ht, if_pos rfl] at hit
    have hi := (State.itemOf_run s r { r with taken := SMap.put r.taken s.arg.team (r.got s.arg.team + 1) } _ _ _ _ rfl rfl rfl rfl).trans hit
    simp only [if_true, hbusy, Bool.false_eq_true, if_false, State.schedule_arg, State.itemOf_schedule]
    rw [show Run.startMark { r with taken := SMap.put r.taken s.arg.team (r.got s.arg.team + 1) } s.arg.m = r.startMark s.arg.m from rfl, hi]
    exact ⟨_, rfl, by simp⟩
  | false =>
    rw [ht, if_neg Bool.false_ne_true] at hit
    have hi := (State.itemOf_run s r { r with placed := r.placed.filter fun x => decide (x.1 ≠ s.arg.team) } _ _ _ _ rfl rfl rfl rfl).trans hit
    simp only [Bool.false_eq_true, if_false, hbusy]
    rw [hi]
    exact ⟨_, rfl, by simp⟩

/-- A hub that gives its item back. -/
def Hub.endedItem (h : Hub) : Hub := { h with item := none, sets := [], pendSets := [] }

theorem SMap.get_mapKey {α : Type} (d : α) (f : Nat → α → α) (m : SMap α) (k : Nat) (h : f k d = d) :
    SMap.get d (m.map fun e => (e.1, f e.1 e.2)) k = f k (SMap.get d m k) := by
  unfold SMap.get
  rw [SMap.find_map]
  cases SMap.find k m with
  | none => exact h.symm
  | some a => rfl

/-- The hubs of a team after its item has ended. -/
theorem State.hub_endItem (s : State) (r : Run) (t y z : Nat) :
    (s.endItem r t).hub y z = if 8 * y + z ∈ (maskHubs (r.teams.getD t (0, 0, 0)).2.2).map (fun h => 8 * (r.teams.getD t (0, 0, 0)).2.1 + h) then
      (s.hub y z).endedItem else s.hub y z := by
  have hhubs : ∀ (u : State) a b c, ((u.closePhases a b c).settleTk).hubs = u.hubs := fun _ _ _ _ => rfl
  unfold State.endItem
  extract_lets tm hs hubs
  have hmap : hubs = s.hubs.map fun e => (e.1, if hs.contains e.1 then e.2.endedItem else e.2) := by
    unfold hubs
    refine List.map_congr_left fun e _ => ?_
    split <;> rfl
  have hdef : (if hs.contains (8 * y + z) then ({} : Hub).endedItem else {}) = ({} : Hub) := ite_self _
  have hget : SMap.get {} hubs (8 * y + z) = if hs.contains (8 * y + z) then (s.hub y z).endedItem else s.hub y z := by
    rw [hmap]
    exact SMap.get_mapKey {} (fun k (h : Hub) => if hs.contains k then h.endedItem else h) _ _ hdef
  simp only [List.contains_iff_mem] at hget
  exact hget

theorem State.slot_faultSlot (s : State) (n : Nat) :
    (s.faultSlot n).slot n = { s.slot n with qcb := { (s.slot n).qcb with state := 4 }, preq := false, run := none, validated := false } := by
  have hs : ∀ (u : State) a b c d, ((u.signal a b).interrupt c d).slots = u.slots := fun u a b c d => by
    obtain ⟨-, -, -, -, -, -, -, h1, -⟩ := u.signal_frame a b
    obtain ⟨-, -, -, -, -, -, -, -, h2, -⟩ := (u.signal a b).interrupt_frame c d
    rw [h2, h1]
  unfold State.faultSlot
  dsimp only
  unfold State.slot
  rw [hs]
  exact State.setSlot_self ..

theorem State.leaveHubs_slots (s : State) (slot : Nat) (r : Run) (keep : Hub → Bool) : (s.leaveHubs slot r keep).slots = s.slots := by
  unfold State.leaveHubs
  dsimp only
  split <;> rfl

/-- What a launch leaves that has made its completion write: its slot idle with HEAD stepped. -/
def leaveDone (s u : State) (r : Run) : State :=
  let v := u.leaveHubs s.arg.slot r fun _ => false
  let q := (s.slot s.arg.slot).qcb
  let w := v.setSlot s.arg.slot { v.slot s.arg.slot with
    run := none, validated := false, preq := false, qcb := { q with head := (q.head + 1) % 2 ^ 32, state := 0 } }
  if r.cie then w.signal (q.part + 1) r.cvec else w

theorem leaveDone_leaves (s u : State) (r : Run) (hu : u.slots = s.slots) :
    let x := s.slot s.arg.slot
    (leaveDone s u r).slot s.arg.slot =
      { x with run := none, validated := false, preq := false, qcb := { x.qcb with head := (x.qcb.head + 1) % 2 ^ 32, state := 0 } } ∧
    (leaveDone s u r).memory = u.memory := by
  intro x
  have hv : (u.leaveHubs s.arg.slot r fun _ => false).slot s.arg.slot = x := by
    unfold State.slot
    rw [State.leaveHubs_slots, hu]
    rfl
  unfold leaveDone
  extract_lets v q src w
  have hw : w.slot s.arg.slot =
      { x with run := none, validated := false, preq := false, qcb := { x.qcb with head := (x.qcb.head + 1) % 2 ^ 32, state := 0 } } := by
    unfold w src v q
    rw [State.setSlot_self, hv]
  have hm : w.memory = u.memory := by simp [w, v]
  split
  · obtain ⟨-, -, -, -, -, -, -, hs, -⟩ := w.signal_frame (q.part + 1) r.cvec
    refine ⟨?_, by rw [State.signal_memory, hm]⟩
    rw [← hw]
    unfold State.slot
    rw [hs]
  · exact ⟨hw, hm⟩

theorem exec_launchCompletion_completes (s : State) (r : Run) (hr : (s.slot s.arg.slot).run = some r)
    (h2 : (s.slot s.arg.slot).qcb.state = 2) (hf : r.finished = true) (hst : (s.slot s.arg.slot).stopping = false) :
    let x := s.slot s.arg.slot
    ∃ t, exec .launchCompletion s = .next t ∧
      t.slot s.arg.slot = { x with run := none, validated := false, preq := false, qcb := { x.qcb with head := (x.qcb.head + 1) % 2 ^ 32, state := 0 } } ∧
      (r.caddr = 0 → SameMemory s t) ∧
      (r.caddr ≠ 0 → t.mem = (s.hostWrite x.qcb.part (some x.qcb.pasid) r.caddr (leBytes 8 r.cval.toNat)).mem) := by
  intro x
  rw [exec_launchCompletion]
  unfold execLaunchCompletion
  simp only [hr]
  rw [if_pos ⟨h2, hf, by rw [hst]; rfl⟩]
  obtain ⟨h1, h2⟩ := leaveDone_leaves s (if r.caddr = 0 then s else s.hostWrite x.qcb.part (some x.qcb.pasid) r.caddr (leBytes 8 r.cval.toNat)) r
    (by split <;> rfl)
  refine ⟨_, rfl, h1, fun hc => (sameMemory_iff _ _).2 ?_, fun hc => ?_⟩
  · refine h2.trans ?_
    rw [if_pos hc]
  · rw [if_neg hc] at h2
    have hm : ∀ u v : State, u.memory = v.memory → u.mem = v.mem := fun u v h => congrArg (·.1) h
    rw [if_neg hc]
    exact hm _ _ h2

/-- Settles O44: a hub that takes an item is one that was preloaded, and a grant changes its own slot and the directory alone. -/
theorem itemsAndLaunches : Obligations.ItemsAndLaunches := by
  intro s r n x tm die hs
  refine ⟨fun hr => ⟨fun it hf _ hit => ?_, fun he => ?_, fun h2 hfin hst => ?_, fun hab => ?_⟩,
    fun m rest g hmay hc hg hfree => exec_hubGrant_grants s m rest g hmay hc hg hfree⟩
  · obtain ⟨u, hu, hm⟩ := exec_itemStart_begins s r it hr hf hit
    refine ⟨_, hu, (sameMemory_iff _ _).2 (by rw [State.takeAll_memory, hm]), fun h hh => ?_⟩
    obtain ⟨g, rank, now, hb⟩ := (u.hub_takeAll die it hs h).2 hh
    rw [hb]
    exact ⟨rfl, rfl, rfl, rfl, readS_preload g _ now⟩
  · have hex : exec .itemEnd s = .next ((s.endItem r s.arg.team).setRun s.arg.slot { r with ended := r.ended + 1 }) := by
      rw [exec_itemEnd]
      unfold execItemEnd
      simp only [show (s.slot s.arg.slot).run = some r from hr, he, if_true]
    refine ⟨_, hex, (sameMemory_iff _ _).2 (by simp), congrArg Slot.run (State.setSlot_self ..), fun h hh => ?_⟩
    have hhub : ((s.endItem r s.arg.team).setRun s.arg.slot { r with ended := r.ended + 1 }).hub die h =
        (s.hub die h).endedItem :=
      (s.hub_endItem r s.arg.team die h).trans (if_pos (List.mem_map.2 ⟨h, hh, rfl⟩))
    rw [hhub]
    exact ⟨rfl, rfl, rfl⟩
  · obtain ⟨t, ht, h1, h2, h3⟩ := exec_launchCompletion_completes s r hr h2 hfin hst
    exact ⟨t, ht, congrArg Slot.run h1, congrArg (fun x : Slot => x.qcb.state) h1, congrArg (fun x : Slot => x.qcb.head) h1, h2, h3⟩
  · have hex : exec .launchAbort s = .next ((s.leaveHubs s.arg.slot r fun h => h.run == .stopped).faultSlot s.arg.slot) := by
      rw [exec_launchAbort]
      unfold execLaunchAbort
      simp only [show (s.slot s.arg.slot).run = some r from hr, hab, if_true]
    have hs : ((s.leaveHubs s.arg.slot r fun h => h.run == .stopped).faultSlot s.arg.slot).slot s.arg.slot =
        { x with qcb := { x.qcb with state := 4 }, preq := false, run := none, validated := false } := by
      have hx : (s.leaveHubs s.arg.slot r fun h => h.run == .stopped).slot s.arg.slot = x := by
        unfold State.slot
        rw [State.leaveHubs_slots]
        rfl
      rw [State.slot_faultSlot, hx]
    exact ⟨_, hex, (sameMemory_iff _ _).2 (by simp), by rw [hs], by rw [hs], by rw [hs]⟩

end Sys2Proof.Machine
end

section
/-! SUPPORT. Queues, slots, pre-emption and resets of a launch (O45, O46). -/

namespace Sys2Proof.Machine

open Sys2Proof

/-! ### Queues and slots -/

/-- What the ageing tick makes of a slot (R145). -/
def aged (s : State) (m : Nat) : Slot :=
  let y := s.slot m
  if y.valid then
    { y with
      granted := false, fresh := false
      qcb := if s.candidate m && !y.granted && !y.fresh then { y.qcb with prio := min (y.qcb.prio + 1) 7, age := (y.qcb.age + 1) % 2 ^ 32 } else y.qcb }
  else y

def ageStep (s : State) (n : Nat) : State := if (s.slot n).valid then s.setSlot n (aged s n) else s

theorem aged_congr {s t : State} {m : Nat} (h : t.slot m = s.slot m) : aged t m = aged s m := by
  unfold aged State.candidate
  rw [h]

theorem slot_ageStep (s : State) (n m : Nat) : (ageStep s n).slot m = if m = n then aged s n else s.slot m := by
  unfold ageStep
  split
  · exact State.slot_setSlot ..
  next hv =>
    split
    next e => subst e; unfold aged; rw [if_neg hv]
    · rfl

theorem slot_ageSteps (s : State) (k m : Nat) :
    ((List.range k).foldl ageStep s).slot m = if m < k then aged s m else s.slot m := by
  induction k with
  | zero => rfl
  | succ k ih =>
    rw [List.range_succ, List.foldl_append, List.foldl_cons, List.foldl_nil, slot_ageStep]
    by_cases h : m = k
    · subst h
      rw [if_pos rfl, if_pos (Nat.lt_succ_self m), aged_congr (ih.trans (if_neg (Nat.lt_irrefl m)))]
    · rw [if_neg h, ih]
      by_cases hm : m < k
      · rw [if_pos hm, if_pos (by omega)]
      · rw [if_neg hm, if_neg (by omega)]

theorem exec_ageingTick_ages (s : State) : exec .ageingTick s = .next ((List.range 16).foldl ageStep s) := by
  rw [exec_ageingTick]
  unfold execAgeingTick
  have hstep : ∀ f g : State → Nat → State, f = g → Host.Outcome.next ((List.range 16).foldl f s) = (.next ((List.range 16).foldl g s) : Res) :=
    fun f g h => by rw [h]
  refine hstep _ _ (funext fun u => funext fun n => ?_)
  unfold ageStep aged
  dsimp only
  split <;> rfl

theorem ageSteps_keeps (s : State) (k : Nat) :
    ((List.range k).foldl ageStep s).hubs = s.hubs ∧ ((List.range k).foldl ageStep s).memory = s.memory := by
  refine ⟨foldl_keeps State.hubs ageStep (fun s n => ?_) _ s, foldl_keeps State.memory ageStep (fun s n => ?_) _ s⟩ <;>
    (unfold ageStep; split <;> rfl)

/-! ### Kicks and fetches -/

/-- A kick of the own partition's queue. -/
theorem exec_doorbellKick_kicks (s : State) (k sl old : Nat) (map : Bool) (hb : s.dev.bootRec = false) (h1 : 1 ≤ s.arg.fn)
    (h16 : s.arg.fn ≤ 16) (ho : s.arg.off = 4096 * k) (hk : k < 4096) (hs : s.arg.size = 4)
    (hq : s.qreg k = (true, s.arg.fn - 1, map, sl, old)) :
    let u := s.wakeDevice.setQreg k (true, s.arg.fn - 1, map, sl, s.arg.value.toNat % 2 ^ 32)
    exec .doorbellKick s = .next (if map then u.setQcb sl fun b => { b with tail := s.arg.value.toNat % 2 ^ 32 } else u.wake k (s.arg.fn - 1)) := by
  intro u
  have hdiv : s.arg.off / 4096 = k := by omega
  rw [exec_doorbellKick]
  unfold execDoorbellKick
  simp only [hdiv, hs, hb, hq]
  rw [if_neg (by rw [ho]; simp; omega), if_neg (by simp; omega)]
  simp only [Bool.not_true, bne_self_eq_false, Bool.or_self, Bool.false_eq_true, if_false]
  cases map <;> rfl

theorem State.qreg_setQreg (s : State) (q : Nat) (x : Bool × Nat × Bool × Nat × Nat) : (s.setQreg q x).qreg q = x := SMap.get_put_self ..

theorem State.wake_leaves (s : State) (q part : Nat) :
    SMap.get false (s.wake q part).dev.pend q = true ∧ (s.wake q part).dev.qregs = s.dev.qregs := by
  unfold State.wake
  dsimp only
  have hset : ∀ m : SMap Bool, SMap.get false (SMap.set false m q true) q = true := fun m => SMap.get_set_self ..
  split <;> exact ⟨hset _, rfl⟩

/-! ### Records and faulted slots -/

theorem State.slot_writeRecord (s : State) (r : FaultReport) (q : Nat) : (s.writeRecord r).slot q = s.slot q := by
  simp

theorem State.slot_slotRecord (s : State) (r : FaultReport) :
    (s.slotRecord r).slot r.slot = if (s.part r.part).takesRecord then
      { s.slot r.slot with qcb := { (s.slot r.slot).qcb with lkind := r.kind, nflt := satAdd 0xFFFF (s.slot r.slot).qcb.nflt 1 } }
    else s.slot r.slot := by
  unfold State.slotRecord
  split
  · unfold State.noteFault
    dsimp only
    rw [State.setSlot_self, State.slot_writeRecord]
  · exact State.slot_writeRecord ..

/-- A slot that takes a record about its queue and is then faulted. -/
theorem State.slot_recordFault (s : State) (r : FaultReport) (n : Nat) (hr : r.slot = n) :
    let t := (s.slotRecord r).faultSlot n
    (t.slot n).qcb.state = 4 ∧ (t.slot n).qcb.head = (s.slot n).qcb.head ∧
      ((s.part r.part).takesRecord = true → (t.slot n).qcb.lkind = r.kind) := by
  subst hr
  intro t
  have ht : t.slot r.slot = _ := (s.slotRecord r).slot_faultSlot r.slot
  rw [ht, State.slot_slotRecord]
  refine ⟨rfl, ?_, fun h => ?_⟩
  · split <;> rfl
  · rw [if_pos h]

/-- A slot whose record has been fetched (R143). -/
def fetched (x : Slot) (bs : List Byte) : Slot :=
  let q := { x.qcb with cap := x.newCap.getD x.qcb.cap }
  let p := min (bits (recNat bs 0 8) 55 53) q.cap
  { x with
    newCap := none, record := { bytes := bs }, validated := false
    qcb := { q with state := 1, bprio := p, prio := p, age := 0, ltag := recNat bs 8 8 / 2 ^ 32 } }

theorem State.slot_dogRecord (s : State) (n sub : Nat) :
    (s.dogRecord n sub).slot n = if (s.part (s.slot n).qcb.part).takesRecord then
      { s.slot n with qcb := { (s.slot n).qcb with lkind := 0x11, nflt := satAdd 0xFFFF (s.slot n).qcb.nflt 1 } }
    else s.slot n := by
  unfold State.dogRecord
  exact State.slot_slotRecord ..

/-! ### Saving and restoring -/

theorem exec_slotSave_saves (s : State) (v m : Bool) (p a tail : Nat) (hv : (s.slot s.arg.slot).valid = true)
    (hst : (s.slot s.arg.slot).qcb.state = 0 ∨ (s.slot s.arg.slot).qcb.state = 3 ∨ (s.slot s.arg.slot).qcb.state = 4)
    (ho : s.arg.off % 128 = 0) (hk : s.kickComing (s.slot s.arg.slot).qcb.qid = false)
    (hq : s.qreg (s.slot s.arg.slot).qcb.qid = (v, p, m, a, tail)) :
    let x := s.slot s.arg.slot
    ∃ t, exec .slotSave s = .next t ∧ SameMemory s t ∧ (t.slot s.arg.slot).valid = false ∧ (t.slot s.arg.slot).err = 0 ∧
      SMap.get [] t.dev.fwsram (s.arg.off % 2 ^ 48) = { x.qcb with tail := tail, cap := x.newCap.getD x.qcb.cap }.bytes ∧
      t.qreg x.qcb.qid = (v, p, false, 0, tail) := by
  intro x
  have hstate : (x.qcb.state == 0 || x.qcb.state == 3 || x.qcb.state == 4) = true := by
    rcases hst with h | h | h <;> rw [h] <;> rfl
  rw [exec_slotSave]
  unfold execSlotSave
  dsimp only
  rw [if_neg (by rw [hk, Bool.and_false]; exact Bool.false_ne_true), if_neg (by rw [hv, hstate]; decide), if_neg (fun h => h ho)]
  have hq' : ∀ y, (s.setSlot s.arg.slot y).qreg (s.slot s.arg.slot).qcb.qid = (v, p, m, a, tail) := fun y => hq
  rw [hq']
  dsimp only
  refine ⟨_, rfl, (sameMemory_iff _ _).2 ?_, ?_, ?_, ?_, ?_⟩
  · split
    · split <;> simp
    · simp
  · rw [State.setSlot_self]
  · rw [State.setSlot_self]
  · have hput : ∀ m : SMap (List Byte), SMap.get [] (SMap.put m (s.arg.off % 2 ^ 48) ({ x.qcb with tail := tail, cap := x.newCap.getD x.qcb.cap } : Qcb).bytes)
        (s.arg.off % 2 ^ 48) = ({ x.qcb with tail := tail, cap := x.newCap.getD x.qcb.cap } : Qcb).bytes := fun m => SMap.get_put_self ..
    split
    · split <;> exact hput _
    · exact hput _
  · exact State.qreg_setQreg ..

theorem exec_slotRestore_restores (s : State) (p : Nat) (m : Bool) (a tail : Nat) (hv : (s.slot s.arg.slot).valid = false) (ho : s.arg.off % 128 = 0)
    (hi : s.imageOk (qcbOf (SMap.get [] s.dev.fwsram (s.arg.off % 2 ^ 48))) = true)
    (hq : s.qreg (qcbOf (SMap.get [] s.dev.fwsram (s.arg.off % 2 ^ 48))).qid = (true, p, m, a, tail)) :
    let im := qcbOf (SMap.get [] s.dev.fwsram (s.arg.off % 2 ^ 48))
    s.kickComing im.qid = false →
    ∃ t, exec .slotRestore s = .next t ∧ SameMemory s t ∧ (t.slot s.arg.slot).valid = true ∧ (t.slot s.arg.slot).err = 0 ∧
      (t.slot s.arg.slot).qcb = { im with tail := tail } ∧ t.qreg im.qid = (true, p, true, s.arg.slot, tail) := by
  intro im hk
  rw [exec_slotRestore]
  unfold execSlotRestore
  dsimp only
  have hi' : ∀ y, (s.setSlot s.arg.slot y).imageOk im = true := fun y => hi
  have hq' : ∀ y, (s.setSlot s.arg.slot y).qreg im.qid = (true, p, m, a, tail) := fun y => hq
  rw [if_neg (by rw [show s.kickComing (qcbOf (SMap.get [] s.dev.fwsram (s.arg.off % 2 ^ 48))).qid = false from hk, Bool.and_false]; exact Bool.false_ne_true),
    if_neg (by rw [hv]; exact Bool.false_ne_true), if_neg (fun h => h ho), if_neg (by rw [hi']; decide), hq']
  dsimp only
  refine ⟨_, rfl, (sameMemory_iff _ _).2 (by simp), ?_, ?_, ?_, State.qreg_setQreg ..⟩
  · exact congrArg Slot.valid (State.setSlot_self ..)
  · exact congrArg Slot.err (State.setSlot_self ..)
  · exact congrArg Slot.qcb (State.setSlot_self ..)

theorem State.discardLaunch_slots (s : State) (n : Nat) (r : Run) :
    (s.discardLaunch n r).slots = s.slots := by
  have hhold : ∀ (u : State) l, (u.endHold l).slots = u.slots := fun u l => by
    unfold State.endHold
    split <;> rfl
  unfold State.discardLaunch
  dsimp only
  split
  · exact (hhold ..).trans (State.leaveHubs_slots ..)
  · exact (hhold ..).trans (State.leaveHubs_slots ..)

/-- A launch that is thrown away leaves its queue's QCB. -/
theorem State.qcb_dropLaunch (s : State) (n : Nat) : ((s.dropLaunch n).slot n).qcb = (s.slot n).qcb := by
  have hslot : ∀ u : State, u.slots = s.slots → (u.slot n).qcb = (s.slot n).qcb := fun u h => by unfold State.slot; rw [h]
  have hrun : ∀ o : Option Run, (match o with | some r => s.discardLaunch n r | none => s).slots = s.slots := fun o => by
    cases o with
    | none => rfl
    | some r => exact s.discardLaunch_slots n r
  have hsaved : ∀ (u : State) (o : Option Saved) (p : Nat), (match o with | some v => u.discardSaved p v | none => u).slots = u.slots :=
    fun u o p => by cases o <;> rfl
  unfold State.dropLaunch
  dsimp only
  rw [State.setSlot_self]
  exact hslot _ ((hsaved _ _ _).trans (hrun _))

/-- Settles O45: the ageing tick is a fold of one step a slot, and each other event has its own slot's equation. -/
theorem queuesAndSlots : Obligations.QueuesAndSlots := by
  intro s n x q
  refine ⟨?_, fun k sl old map hb h1 h16 ho hk hs hq hsl => ?_, fun hf hd => ?_, fun hst hv => ⟨fun hr => ?_, fun c hr => ?_⟩,
    fun v p m a tail hv hst ho hk hq => ?_, ?_, fun r hr hst hp hs => ?_, fun hst => ?_, fun hst hw => ?_⟩
  · obtain ⟨hhubs, hmem⟩ := ageSteps_keeps s 16
    refine ⟨_, exec_ageingTick_ages s, (sameMemory_iff _ _).2 hmem, hhubs, fun m hm => ?_⟩
    rw [slot_ageSteps s 16 m, if_pos hm]
    rfl
  · have he := exec_doorbellKick_kicks s k sl old map hb h1 h16 ho hk hs hq
    have hwake : s.wakeDevice.hubs = s.hubs ∧ s.wakeDevice.slots = s.slots := by
      simp
    refine ⟨_, he, (sameMemory_iff _ _).2 ?_, ?_, ?_, fun hm => ?_, fun hm => ?_⟩
    · split <;> simp
    · split
      · exact hwake.1
      · simp
    · split
      · exact State.qreg_setQreg ..
      · unfold State.qreg
        rw [(State.wake_leaves ..).2]
        exact State.qreg_setQreg ..
    · rw [if_pos hm]
      unfold State.setQcb
      rw [State.setSlot_self]
    · rw [if_neg (by rw [hm]; exact Bool.false_ne_true)]
      exact ⟨(State.wake_leaves ..).1, by simp⟩
  · intro bs
    have he : exec .slotFetch s = .next (((s.setSlot n (fetched x bs)).after s.transit .launchValidate { slot := n }).useFree) := by
      rw [exec_slotFetch]
      unfold execSlotFetch
      simp only [show s.fetches s.arg.slot = true from hf]
      rw [if_neg (by decide), if_neg (Nat.not_lt.2 hd)]
      rfl
    have hs : (((s.setSlot n (fetched x bs)).after s.transit .launchValidate { slot := n }).useFree).slot n = fetched x bs :=
      State.setSlot_self ..
    exact ⟨_, he, (sameMemory_iff _ _).2 (by simp), rfl, by rw [hs]; rfl, by rw [hs]; rfl, by rw [hs]; rfl, by rw [hs]; rfl⟩
  · rw [exec_launchValidate]
    unfold execLaunchValidate
    dsimp only
    rw [if_neg (by rw [show (s.slot s.arg.slot).qcb.state = 1 from hst, show (s.slot s.arg.slot).validated = false from hv]; decide),
      show s.refusal (s.slot s.arg.slot).qcb.part (s.slot s.arg.slot).record.bytes = none from hr]
  · have he : exec .launchValidate s = .next (s.refuseLaunch n c) := by
      rw [exec_launchValidate]
      unfold execLaunchValidate
      dsimp only
      rw [if_neg (by rw [show (s.slot s.arg.slot).qcb.state = 1 from hst, show (s.slot s.arg.slot).validated = false from hv]; decide),
        show s.refusal (s.slot s.arg.slot).qcb.part (s.slot s.arg.slot).record.bytes = some c from hr]
    exact ⟨_, he, State.slot_recordFault s (s.launchReport n 0x17 c) n rfl⟩
  · exact exec_slotSave_saves s v m p a tail hv hst ho hk hq
  · exact fun p m a tail hv ho hi hk hq => exec_slotRestore_restores s p m a tail hv ho hi hq hk
  · rw [exec_preemptRequest]
    unfold execPreemptRequest
    dsimp only
    rw [show (s.slot s.arg.slot).run = some r from hr]
    dsimp only
    rw [if_neg (by rw [show (s.slot s.arg.slot).qcb.state = 2 from hst, show (s.slot s.arg.slot).preq = false from hp]; decide),
      if_pos (show s.savepOk (s.slot s.arg.slot).qcb.part (s.slot s.arg.slot).qcb.savep r.hubs.length = true from hs)]
  · have he : exec .slotAbort s = .next (((((s.dogRecord n 2).dropLaunch n).setQcb n fun q => { q with head := (q.head + 1) % 2 ^ 32 })).faultSlot n) := by
      rw [exec_slotAbort]
      unfold execSlotAbort
      dsimp only
      rw [if_neg (by rw [show (s.slot s.arg.slot).qcb.state = 3 from hst]; decide)]
    have hq : ((((s.dogRecord n 2).dropLaunch n).setQcb n fun q => { q with head := (q.head + 1) % 2 ^ 32 }).slot n).qcb =
        { ((s.dogRecord n 2).slot n).qcb with head := (((s.dogRecord n 2).slot n).qcb.head + 1) % 2 ^ 32 } := by
      unfold State.setQcb
      rw [State.setSlot_self, State.qcb_dropLaunch]
    have hd := s.slot_dogRecord n 2
    refine ⟨_, he, ?_, ?_, fun ht => ?_⟩
    · rw [State.slot_faultSlot]
    · rw [State.slot_faultSlot, hq, hd]
      dsimp only
      split <;> rfl
    · rw [State.slot_faultSlot, hq, hd]
      dsimp only
      rw [if_pos ht]
  · let y : Slot := { x with wdx := true, grace := 0 }
    have he : exec .watchdogExpiry s = .next (((((s.setSlot n y).dogRecord n 1).interrupt q.part 2).after
        (((s.setSlot n y).dogRecord n 1).interrupt q.part 2).transit .preemptRequest { slot := n }).useFree) := by
      rw [exec_watchdogExpiry]
      unfold execWatchdogExpiry
      dsimp only
      rw [if_neg (by rw [show (s.slot s.arg.slot).qcb.state = 2 from hst, show (s.slot s.arg.slot).qcb.wrem = 0 from hw]; decide)]
    have hs : (((((s.setSlot n y).dogRecord n 1).interrupt q.part 2).after
        (((s.setSlot n y).dogRecord n 1).interrupt q.part 2).transit .preemptRequest { slot := n }).useFree).slot n =
        ((s.setSlot n y).dogRecord n 1).slot n := rfl
    have hd := (s.setSlot n y).slot_dogRecord n 1
    rw [State.setSlot_self] at hd
    refine ⟨_, he, ?_, ?_, ?_⟩
    · rw [hs, hd]; split <;> rfl
    · rw [hs, hd]; split <;> exact hst
    · have : (((s.setSlot n y).dogRecord n 1).interrupt q.part 2).hubs = s.hubs := by simp
      exact this

/-! ### What standing still and going on leave -/

/-- Slots, partitions and dies: what a hub's stop or resumption leaves. -/
def State.ledger (s : State) : SMap Slot × SMap Part × SMap Die := (s.slots, s.parts, s.dies)

theorem State.ledger_standStill (s : State) (die hub ref : Nat) (quiet : Bool) : (s.standStill die hub ref quiet).ledger = s.ledger := by
  unfold State.standStill
  extract_lets h waits u keeps settled g v w
  have hw : w.ledger = s.ledger := by
    unfold w v u
    cases waits <;> rfl
  split
  · exact (show (w.abandonSteps die hub).ledger = w.ledger from rfl).trans hw
  · exact hw

theorem State.ledger_standAll (s : State) (quiet : Bool) (ref : Nat → Nat) (hs : List (Nat × Nat)) :
    (s.standAll quiet ref hs).ledger = s.ledger := by
  induction hs generalizing s with
  | nil => rfl
  | cons x r ih =>
    unfold State.standAll
    rw [ih]
    split
    · exact s.ledger_standStill ..
    · rfl

theorem State.ledger_replaySteps (s : State) (die hub at_ : Nat) (ts : List MatStep) : (s.replaySteps die hub at_ ts).ledger = s.ledger := by
  induction ts generalizing s at_ with
  | nil => rfl
  | cons t r ih =>
    unfold State.replaySteps
    exact (ih _ _).trans rfl

theorem State.ledger_rephase (s : State) (die hub ref : Nat) : (s.rephase die hub ref).ledger = s.ledger := by
  unfold State.rephase
  dsimp only
  split <;> rfl

theorem State.ledger_resumeHub (s : State) (die hub ref : Nat) : (s.resumeHub die hub ref).ledger = s.ledger := by
  unfold State.resumeHub
  extract_lets h f g k u v w x
  have hw : w.ledger = s.ledger := State.ledger_rephase v die hub ref
  have hx : x.ledger = s.ledger := by
    unfold x
    split
    · exact hw
    · exact hw
  split
  · exact hx
  · exact (State.ledger_replaySteps ..).trans hx

theorem State.ledger_resumeAll (s : State) (ref : Nat → Nat) (hs : List (Nat × Nat)) : (s.resumeAll ref hs).ledger = s.ledger := by
  induction hs generalizing s with
  | nil => rfl
  | cons x r ih =>
    unfold State.resumeAll
    rw [ih]
    split
    · exact s.ledger_resumeHub ..
    · rfl

theorem State.ledger_scheduleRelease (s : State) (part : Nat) (timed : Bool) (b : Barrier) : (s.scheduleRelease part timed b).ledger = s.ledger := by
  unfold State.scheduleRelease
  dsimp only
  split
  · refine foldl_keeps State.ledger _ (fun _ _ => ?_) _ s
    rfl
  · rfl

theorem State.ledger_rebar (s : State) (slot part : Nat) (timed : Bool) : (s.rebar slot part timed).ledger = s.ledger :=
  foldl_keeps State.ledger _ (fun s b => s.ledger_scheduleRelease part timed b) _ s

theorem State.ledger_settleLoads (s : State) (ds : List Due) : (s.settleLoads ds).ledger = s.ledger := by
  induction ds generalizing s with
  | nil => rfl
  | cons d r ih =>
    unfold State.settleLoads
    dsimp only
    rw [ih]
    split
    · split <;> rfl
    · rfl

theorem State.ledger_schedule (s : State) (slot : Nat) (r : Run) (t j : Nat) : (s.schedule slot r t j).ledger = s.ledger := by
  unfold State.schedule
  dsimp only
  split <;> rfl

theorem State.slot_of_ledger {s t : State} (h : t.ledger = s.ledger) (n : Nat) : t.slot n = s.slot n := by
  unfold State.slot
  rw [show t.slots = s.slots from congrArg (·.1) h]

theorem State.part_of_ledger {s t : State} (h : t.ledger = s.ledger) (n : Nat) : t.part n = s.part n := by
  unfold State.part
  rw [show t.parts = s.parts from congrArg (·.2.1) h]

theorem State.die_of_ledger {s t : State} (h : t.ledger = s.ledger) (n : Nat) : t.die n = s.die n := by
  unfold State.die
  rw [show t.dies = s.dies from congrArg (·.2.2) h]

/-! ### Hubs that stand still run no more -/

theorem State.hub_standStill (s : State) (die hub ref y z : Nat) (quiet : Bool) :
    ((s.standStill die hub ref quiet).hub y z).item = (s.hub y z).item ∧
      ((s.hub y z).run ≠ .running → ((s.standStill die hub ref quiet).hub y z).run ≠ .running) ∧
      (8 * y + z = 8 * die + hub → ((s.standStill die hub ref quiet).hub y z).run ≠ .running) := by
  unfold State.standStill
  extract_lets h waits u keeps settled g v w
  have hgr : g.run ≠ .running := by
    show (if h.run = .running then CoreRun.preempted else h.run) ≠ .running
    split
    · decide
    next hr => exact hr
  have hu : ∀ a b, u.hub a b = s.hub a b := fun a b => by unfold u; cases waits <;> rfl
  have hw : w.hub y z = if 8 * y + z = 8 * die + hub then g else s.hub y z := (State.hub_setHub ..).trans (by rw [hu])
  have hself : 8 * y + z = 8 * die + hub → s.hub y z = h := fun e => by unfold h State.hub; rw [e]
  have key : ∀ k : Hub, k.item = (w.hub y z).item → k.run = (w.hub y z).run →
      k.item = (s.hub y z).item ∧ ((s.hub y z).run ≠ .running → k.run ≠ .running) ∧ (8 * y + z = 8 * die + hub → k.run ≠ .running) := by
    intro k hi hr
    rw [hi, hr, hw]
    split
    next e => exact ⟨by rw [hself e], fun _ => hgr, fun _ => hgr⟩
    next e => exact ⟨rfl, id, fun h => absurd h e⟩
  split
  · have hab : ((w.abandonSteps die hub).hub y z).item = (w.hub y z).item ∧ ((w.abandonSteps die hub).hub y z).run = (w.hub y z).run := by
      unfold State.abandonSteps
      dsimp only
      rw [State.hub_setHub]
      split
      next e =>
        have : w.hub y z = w.hub die hub := by unfold State.hub; rw [e]
        rw [this]
        exact ⟨rfl, rfl⟩
      · exact ⟨rfl, rfl⟩
    exact key _ hab.1 hab.2
  · exact key _ rfl rfl

theorem State.hub_standAll (s : State) (quiet : Bool) (ref : Nat → Nat) (hs : List (Nat × Nat)) (y z : Nat) :
    ((s.hub y z).run ≠ .running → ((s.standAll quiet ref hs).hub y z).run ≠ .running) ∧
      ((y, z) ∈ hs → (s.hub y z).item.isSome = true → ((s.standAll quiet ref hs).hub y z).run ≠ .running) := by
  induction hs generalizing s with
  | nil => exact ⟨id, fun h => absurd h List.not_mem_nil⟩
  | cons x r ih =>
    obtain ⟨d, h⟩ := x
    unfold State.standAll
    obtain ⟨hi, hk, hs⟩ := s.hub_standStill d h (ref d) y z quiet
    split
    next hit =>
      refine ⟨fun hr => (ih _).1 (hk hr), fun hm hy => ?_⟩
      rcases List.mem_cons.1 hm with e | hm
      · obtain ⟨rfl, rfl⟩ := Prod.mk.inj e
        exact (ih _).1 (hs rfl)
      · exact (ih _).2 hm (by rw [hi]; exact hy)
    next hit =>
      refine ⟨(ih _).1, fun hm hy => ?_⟩
      rcases List.mem_cons.1 hm with e | hm
      · obtain ⟨rfl, rfl⟩ := Prod.mk.inj e
        exact absurd hy hit
      · exact (ih _).2 hm hy

/-! ### A saved launch -/

/-- What a save leaves of memory outside its area, of the slot and of the directory. -/
theorem saveLaunch_leaves (s : State) (n mark : Nat) (r : Run) (hw : (s.slot n).wdx = false) :
    let t := s.saveLaunch n mark r
    SameOutside s t n r ∧ (t.slot n).qcb.state = 3 ∧ (t.slot n).run = none ∧
      (t.part (s.slot n).qcb.part).susp.length = (s.part (s.slot n).qcb.part).susp.length + 1 := by
  have hfree : ∀ (u : State) (c : Bool) (k : Nat), let w := if c then (u.freePaceline k).zeroShift k else u
      w.lines = u.lines ∧ w.mem = u.mem ∧ w.parts = u.parts := fun u c k => by cases c <;> exact ⟨rfl, rfl, rfl⟩
  unfold State.saveLaunch
  extract_lets x p l keys area v u u2 u3 u4 y q w t
  have ht : t = w := if_neg (by rw [show x.wdx = false from hw]; exact Bool.false_ne_true)
  obtain ⟨hl, hm, hp⟩ := hfree u3 l.timed l.plid
  obtain ⟨-, -, -, -, -, -, -, -, hs, hps, -, -, -, -, -, hms, hls, -⟩ :=
    (u4.setSlot n { y with run := none, preq := false, stopping := false, qcb := { q with state := 3 } }).interrupt_frame q.part 3
  have hslot : t.slot n = { y with run := none, preq := false, stopping := false, qcb := { q with state := 3 } } := by
    rw [ht]
    unfold State.slot
    rw [hs]
    exact State.setSlot_self ..
  have hpart : t.part q.part = { p with susp := p.susp ++ [v], barriers := p.barriers.filter fun b => decide (b.slot ≠ n) } := by
    rw [ht]
    unfold State.part
    rw [hps]
    show SMap.get {} u4.parts q.part = _
    rw [show u4.parts = u3.parts from hp]
    exact State.setPart_self ..
  refine ⟨⟨?_, fun a ha => ?_⟩, by rw [hslot], by rw [hslot], ?_⟩
  · rw [ht]
    exact hls.trans (hl.trans rfl)
  · rw [ht]
    have hmem : w.mem = s.mem.filter fun c => !decide (flat (homeHbm area.1) area.2 ≤ c.1 ∧ c.1 < flat (homeHbm area.1) area.2 + keys.length * 2 ^ 22) :=
      hms.trans (hm.trans rfl)
    rw [hmem, Memory.read_filter s.mem (fun k => !decide (flat (homeHbm area.1) area.2 ≤ k ∧ k < flat (homeHbm area.1) area.2 + keys.length * 2 ^ 22)),
      if_pos ?_]
    have hlen : keys.length = r.hubs.length := List.length_map ..
    rw [Bool.not_eq_true', decide_eq_false_iff_not, hlen]
    rintro ⟨h1, h2⟩
    rcases ha with ha | ha
    · exact absurd h1 (Nat.not_le.2 ha)
    · exact absurd h2 (Nat.not_lt.2 ha)
  · show (t.part q.part).susp.length = _
    rw [hpart]
    exact List.length_append ..

theorem sameOutside_of {s u t : State} {n : Nat} {r : Run} (hl : u.ledger = s.ledger) (hm : u.memory = s.memory) (h : SameOutside u t n r) :
    SameOutside s t n r := by
  obtain ⟨h1, h2⟩ := h
  have hmem : u.mem = s.mem := congrArg (·.1) hm
  have hlines : u.lines = s.lines := congrArg (·.2.1) hm
  have hphys : ∀ p k, u.phys p k = s.phys p k := fun p k => by unfold State.phys; rw [State.part_of_ledger hl]
  rw [State.slot_of_ledger hl, hphys, hmem] at h2
  exact ⟨h1.trans hlines, h2⟩

/-! ### Resets -/

theorem State.startReset_busy (s : State) (part origin : Nat) (who : Option Nat) (hb : (s.part part).rstBusy = false) :
    ((s.startReset part origin who).part part).rstBusy = true ∧ ((s.startReset part origin who).part part).rstOrigin = origin := by
  unfold State.startReset
  rw [if_neg (by rw [hb]; exact Bool.false_ne_true)]
  have hset : ∀ (u : State) (p : Part), ((u.setPart part p).after 1 .partitionReset { part := part, m := 1 }).part part = p :=
    fun u p => State.setPart_self ..
  dsimp only
  rw [hset]
  exact ⟨rfl, rfl⟩

theorem hardReset_busy (s : State) (n : Nat) (hb : (s.part (s.slot n).qcb.part).rstBusy = false) :
    ((s.hardReset n).part (s.slot n).qcb.part).rstBusy = true ∧
      ((s.hardReset n).part (s.slot n).qcb.part).rstOrigin = if s.goComing (s.slot n).qcb.part then 1 else 2 := by
  unfold State.hardReset
  dsimp only
  cases hf : s.inbox.find? (s.isGo (s.slot n).qcb.part) with
  | some e =>
    have hg : s.goComing (s.slot n).qcb.part = true := List.any_eq_true.2 ⟨e, List.mem_of_find?_eq_some hf, List.find?_some hf⟩
    rw [hg, if_pos rfl]
    exact s.startReset_busy _ 1 _ hb
  | none =>
    have hg : s.goComing (s.slot n).qcb.part = false := List.any_eq_false.2 (List.find?_eq_none.1 hf)
    rw [hg, if_neg Bool.false_ne_true]
    exact s.startReset_busy _ 2 _ hb

theorem exec_backstopReset_resets (s : State) (hst : (s.slot s.arg.slot).qcb.state = 2) (hg : 2 * s.dev.graceUs ≤ (s.slot s.arg.slot).grace) :
    exec .backstopReset s = .next (s.hardReset s.arg.slot) := by
  rw [exec_backstopReset]
  unfold execBackstopReset
  dsimp only
  rw [if_pos (by rw [hst, decide_eq_true hg]; rfl)]

theorem exec_haltLimitReset_resets (s : State) (hst : (s.slot s.arg.slot).qcb.state = 2) (hg : 10000000 ≤ (s.slot s.arg.slot).halt) :
    exec .haltLimitReset s = .next (s.hardReset s.arg.slot) := by
  rw [exec_haltLimitReset]
  unfold execHaltLimitReset
  dsimp only
  rw [if_pos (by rw [hst, decide_eq_true hg]; rfl)]

/-! ### The events -/

theorem exec_countedPreemption_of (s : State) (r : Run) (hr : (s.slot s.arg.slot).run = some r) (hst : (s.slot s.arg.slot).qcb.state = 2)
    (hl : r.launch.timed = false) (hp : (s.slot s.arg.slot).preq = true) (ha : r.abort = false) (hpl : r.placed = []) :
    exec .countedPreemption s =
      if !(s.slot s.arg.slot).stopping then
        .next ((s.standAll false (fun d => (s.die d).cad) (s.heldHubs r)).setSlot s.arg.slot { s.slot s.arg.slot with stopping := true })
      else if (s.heldHubs r).all fun h => s.savable h.1 h.2 then .next (s.saveLaunch s.arg.slot 0 r) else .next s := by
  rw [exec_countedPreemption]
  unfold execCountedPreemption
  simp only [hr]
  rw [if_neg (by rw [hst, hl, hp, ha, hpl]; decide)]

theorem exec_countedResume_resumes (s : State) (r : Run) (hr : (s.slot s.arg.slot).run = some r) (hst : (s.slot s.arg.slot).qcb.state = 2)
    (hl : r.launch.timed = false) (hs : (s.slot s.arg.slot).stopping = true) :
    exec .countedResume s = .next (((s.setSlot s.arg.slot { s.slot s.arg.slot with stopping := false }).resumeAll
      (fun d => (s.die d).cad + 64) (s.heldHubs r)).rebar s.arg.slot (s.slot s.arg.slot).qcb.part false) := by
  rw [exec_countedResume]
  unfold execCountedResume
  simp only [hr]
  rw [if_pos (by rw [hst, hl, hs]; rfl)]
  rfl

/-- A die of a paceline at a timed resumption (R263). -/
def resumedDie (n tk : Nat) (shift : Int) (e : Nat × Die) : Nat × Die :=
  if e.2.member && e.2.plid == n then (e.1, { e.2 with tk := tk, lshift := shift }) else e

theorem exec_timedResume_resumes (s : State) (r : Run) (hr : (s.slot s.arg.slot).run = some r) (hst : (s.slot s.arg.slot).qcb.state = 2)
    (hl : r.launch.timed = true) (hs : (s.slot s.arg.slot).stopping = true) :
    ∃ t u : State, exec .timedResume s = .next t ∧ t.memory = s.memory ∧ t.ledger = u.ledger ∧
      u = ({ s with dies := s.dies.map (resumedDie r.launch.plid r.launch.tk
        ((roundUp (s.rootCad r.launch.plid + 4096) 256 : Nat) - (s.arg.n : Int))) } : State).setSlot s.arg.slot { s.slot s.arg.slot with stopping := false } := by
  rw [exec_timedResume]
  unfold execTimedResume
  simp only [hr]
  rw [if_pos (by rw [hst, hl, hs]; rfl)]
  refine ⟨_, _, rfl, ?_, ?_, rfl⟩
  · rw [State.rebar_memory]
    refine (foldl_keeps State.memory _ (fun s t => State.schedule_memory ..) _ _).trans ?_
    simp
  · refine (State.ledger_rebar ..).trans ((foldl_keeps State.ledger _ (fun s t => State.ledger_schedule ..) _ _).trans ((State.ledger_resumeAll ..).trans rfl))

theorem exec_quietSave_saves (s : State) (r : Run) (k : Nat) (hk : (s.pl s.arg.n).slot = some k) (hr : (s.slot k).run = some r)
    (hm : ∀ q, q < 48 → s.isMember s.arg.n q = true → (s.die q).gather = true ∧ (s.die q).quiet = true ∧ (s.die q).haltAt = none)
    (ho : s.openLoads r s.arg.size = false) (hs : ∀ y ∈ r.hubs, ∀ a ∈ (s.hub y.1 y.2).accesses, a.store = false) :
    ∃ (u : State) (m w : Nat), exec .quietSave s = .next ((u.saveLaunch k m r).releaseAll s.arg.n w) ∧ u.ledger = s.ledger ∧ u.memory = s.memory := by
  have hmem : ∀ q ∈ (List.range 48).filter (fun p => s.isMember s.arg.n p), (s.die q).gather = true ∧ (s.die q).quiet = true ∧ (s.die q).haltAt = none :=
    fun q hq => by
      obtain ⟨h48, hq⟩ := List.mem_filter.1 hq
      exact hm q (List.mem_range.1 h48) hq
  have hg : (((List.range 48).filter fun p => s.isMember s.arg.n p).all fun p => (s.die p).gather) = true :=
    List.all_eq_true.2 fun q hq => (hmem q hq).1
  have hq : (((List.range 48).filter fun p => s.isMember s.arg.n p).all fun p => (s.die p).quiet) = true :=
    List.all_eq_true.2 fun q hq => (hmem q hq).2.1
  have hh : (((List.range 48).filter fun p => s.isMember s.arg.n p).any fun p => (s.die p).haltAt.isSome) = false :=
    List.any_eq_false.2 fun q hq => by rw [(hmem q hq).2.2]; exact Bool.false_ne_true
  have hst : (r.hubs.any fun h => (s.hub h.1 h.2).accesses.any (·.store)) = false :=
    List.any_eq_false.2 fun y hy => by
      rw [Bool.not_eq_true, List.any_eq_false]
      exact fun a ha => by rw [hs y hy a ha]; exact Bool.false_ne_true
  rw [exec_quietSave]
  unfold execQuietSave
  simp only [hk, hr]
  rw [if_neg (by rw [hg]; decide), if_neg (by rw [hq, hh]; decide), if_neg (by rw [ho, hst]; decide)]
  exact ⟨_, _, _, rfl, (State.ledger_standAll ..).trans (State.ledger_settleLoads ..), by simp⟩

/-- Settles O46: a stop and a resumption leave the ledger of slots, partitions and dies, and a save leaves all but its own area. -/
theorem preemptionAndLimits : Obligations.PreemptionAndLimits := by
  intro s r n x p
  refine ⟨fun hr hst hl => ⟨fun hp ha hpl => ⟨fun hs => ?_, fun hs hw hall => ?_⟩, fun hs => ?_⟩, fun hr hst hl hs => ?_,
    fun k hk hr hw hm ho hs => ?_, fun hst hg hb hgr => ?_, fun hst hg hb => ⟨fun hgr => ?_, fun hgr => ?_⟩⟩
  · have he := exec_countedPreemption_of s r hr hst hl hp ha hpl
    rw [if_pos (by rw [show (s.slot s.arg.slot).stopping = false from hs]; rfl)] at he
    refine ⟨_, he, congrArg Slot.stopping (State.setSlot_self ..), (sameMemory_iff _ _).2 (by simp), fun y hy hi _ => ?_⟩
    exact (s.hub_standAll false _ (s.heldHubs r) y.1 y.2).2 hy hi
  · have he := exec_countedPreemption_of s r hr hst hl hp ha hpl
    rw [if_neg (by rw [show (s.slot s.arg.slot).stopping = true from hs]; decide),
      if_pos (List.all_eq_true.2 hall)] at he
    exact ⟨_, he, saveLaunch_leaves s n 0 r hw⟩
  · refine ⟨_, exec_countedResume_resumes s r hr hst hl hs, (sameMemory_iff _ _).2 (by simp), ?_, ?_⟩
    all_goals
      rw [State.slot_of_ledger ((State.ledger_rebar ..).trans (State.ledger_resumeAll ..)), State.setSlot_self]
    exact hr
  · obtain ⟨t, u, he, hmem, hled, hu⟩ := exec_timedResume_resumes s r hr hst hl hs
    refine ⟨t, he, (sameMemory_iff _ _).2 hmem, ?_, fun e _ hf hmb hpl => ?_⟩
    · rw [State.slot_of_ledger hled, hu, State.setSlot_self]
    · have hmap : u.dies = s.dies.map fun e => (e.1, (resumedDie r.launch.plid r.launch.tk
          ((roundUp (s.rootCad r.launch.plid + 4096) 256 : Nat) - (s.arg.n : Int)) (e.1, e.2)).2) := by
        rw [hu]
        refine List.map_congr_left fun e _ => ?_
        unfold resumedDie
        split <;> rfl
      have hd : u.die e.1 = (resumedDie r.launch.plid r.launch.tk
          ((roundUp (s.rootCad r.launch.plid + 4096) 256 : Nat) - (s.arg.n : Int)) e).2 := by
        unfold State.die SMap.get
        rw [hmap, SMap.find_map (fun k d => (resumedDie r.launch.plid r.launch.tk
          ((roundUp (s.rootCad r.launch.plid + 4096) 256 : Nat) - (s.arg.n : Int)) (k, d)).2), hf]
        rfl
      rw [State.die_of_ledger hled, hd]
      unfold resumedDie
      rw [if_pos (by rw [hmb, hpl]; simp)]
      exact ⟨rfl, rfl⟩
  · obtain ⟨u, m, w, he, hled, hmem⟩ := exec_quietSave_saves s r k hk hr hm ho hs
    obtain ⟨h1, h2, h3, -⟩ := saveLaunch_leaves u k m r (by rw [State.slot_of_ledger hled]; exact hw)
    exact ⟨_, he, sameOutside_of hled hmem h1, h2, h3⟩
  · obtain ⟨h1, h2⟩ := hardReset_busy s n hb
    exact ⟨_, exec_backstopReset_resets s hst hgr, h1, h2.trans (if_pos hg)⟩
  · obtain ⟨h1, h2⟩ := hardReset_busy s n hb
    exact ⟨_, exec_backstopReset_resets s hst hgr, h1, h2.trans (if_neg (by rw [hg]; exact Bool.false_ne_true))⟩
  · obtain ⟨h1, h2⟩ := hardReset_busy s n hb
    exact ⟨_, exec_haltLimitReset_resets s hst hgr, h1, h2.trans (if_neg (by rw [hg]; exact Bool.false_ne_true))⟩

end Sys2Proof.Machine
end

section
/-! SUPPORT. Partitions: resets, scrubs, map locks and failed dies. -/

namespace Sys2Proof.Machine

open Sys2Proof

/-! ### Folds over the slots of a partition -/

/-- A fold establishes of every member what each step establishes of its own and keeps of the others. -/
theorem foldl_establishes {σ α : Type} (P : α → σ → Prop) (g : σ → α → σ) (own : ∀ s a, P a (g s a))
    (keep : ∀ s a b, P a s → P a (g s b)) (l : List α) (s : σ) : ∀ a ∈ l, P a (l.foldl g s) := by
  have kept : ∀ (r : List α) (a : α) (s : σ), P a s → P a (r.foldl g s) := fun r a => by
    induction r with
    | nil => exact fun _ h => h
    | cons b r ih => exact fun s h => ih _ (keep s a b h)
  induction l generalizing s with
  | nil => exact fun a ha => absurd ha List.not_mem_nil
  | cons b r ih =>
    intro a ha
    rcases List.mem_cons.1 ha with rfl | ha
    · exact kept r _ _ (own s _)
    · exact ih _ a ha

theorem State.slot_dropLaunch_ne (s : State) (n m : Nat) (h : m ≠ n) : (s.dropLaunch n).slot m = s.slot m := by
  have hrun : ∀ o : Option Run, (match o with | some r => s.discardLaunch n r | none => s).slots = s.slots := fun o => by
    cases o with
    | none => rfl
    | some r => exact s.discardLaunch_slots n r
  have hsaved : ∀ (u : State) (o : Option Saved) (p : Nat), (match o with | some v => u.discardSaved p v | none => u).slots = u.slots :=
    fun u o p => by cases o <;> rfl
  unfold State.dropLaunch
  dsimp only
  rw [State.slot_setSlot, if_neg h]
  exact congrArg (fun x => SMap.get {} x m) ((hsaved _ _ _).trans (hrun _))

theorem State.slot_dropLaunch_self (s : State) (n : Nat) : ((s.dropLaunch n).slot n).run = none := by
  unfold State.dropLaunch
  dsimp only
  rw [State.setSlot_self]

theorem State.slot_slotRecord_ne (s : State) (r : FaultReport) (m : Nat) (h : m ≠ r.slot) : (s.slotRecord r).slot m = s.slot m := by
  unfold State.slotRecord
  split
  · unfold State.noteFault
    dsimp only
    rw [State.slot_setSlot, if_neg h, State.slot_writeRecord]
  · exact State.slot_writeRecord ..

theorem State.slot_dogRecord_ne (s : State) (n sub m : Nat) (h : m ≠ n) : (s.dogRecord n sub).slot m = s.slot m :=
  State.slot_slotRecord_ne _ _ _ h

theorem State.slot_faultSlot_ne (s : State) (n m : Nat) (h : m ≠ n) : (s.faultSlot n).slot m = s.slot m := by
  unfold State.faultSlot
  simp [State.slot_setSlot, h]

/-! ### The reset of a partition -/

theorem State.slot_holdMembers (s : State) (part n : Nat) : (s.holdMembers part).slot n = s.slot n := rfl

/-- Step 1 of a reset leaves every slot of the partition held and its queue under reset. -/
theorem State.startReset_holds (s : State) (part origin : Nat) (who : Option Nat) (hb : (s.part part).rstBusy = false) :
    ∀ n ∈ s.slotsOf part, ((s.startReset part origin who).slot n).hold = true ∧ ((s.startReset part origin who).slot n).qcb.state = 5 := by
  unfold State.startReset
  rw [if_neg (by rw [hb]; exact Bool.false_ne_true)]
  refine foldl_establishes (fun n (t : State) => (t.slot n).hold = true ∧ (t.slot n).qcb.state = 5) _ (fun u n => ?_) (fun u n m h => ?_)
    (s.slotsOf part) s
  · dsimp only
    rw [State.setSlot_self]
    exact ⟨rfl, rfl⟩
  · dsimp only
    by_cases hm : n = m
    · rw [hm, State.setSlot_self]
      exact ⟨rfl, rfl⟩
    · rw [State.slot_setSlot, if_neg hm]
      have hdog : ∀ (c : Bool) (sub : Nat), (if c then u.dogRecord m sub else u).slot n = u.slot n := fun c sub => by
        split
        · exact State.slot_dogRecord_ne _ _ _ _ hm
        · rfl
      split
      · rw [State.slot_dropLaunch_ne _ _ _ hm, hdog]
        exact h
      · rw [hdog]
        exact h

/-- Step 2 of a reset throws away the launch of every slot of the partition, and keeps PREQ. -/
theorem State.stopPart_stops (s : State) (part : Nat) (hb : (s.part part).rstBusy = true) (hp : (s.part part).rstPhase = 1) :
    ((s.stopPart part).part part).rstPhase = 3 ∧
      ∀ n ∈ s.slotsOf part, ((s.stopPart part).slot n).run = none ∧ ((s.stopPart part).slot n).preq = (s.slot n).preq := by
  unfold State.stopPart
  dsimp only
  rw [if_neg (by rw [hb, hp]; decide)]
  refine ⟨congrArg Part.rstPhase (State.setPart_self ..), fun n hn => ⟨?_, ?_⟩⟩
  · refine foldl_establishes (fun n (t : State) => (t.slot n).run = none) _ (fun u n => ?_) (fun u n m h => ?_) (s.slotsOf part) s n hn
    · rw [State.setSlot_self]
      exact u.slot_dropLaunch_self n
    · rw [State.slot_setSlot]
      split
      · exact u.slot_dropLaunch_self m
      · rename_i hm
        rw [State.slot_dropLaunch_ne _ _ _ hm]
        exact h
  · refine foldl_keeps (fun t : State => (t.slot n).preq) _ (fun u m => ?_) (s.slotsOf part) s
    rw [State.slot_setSlot]
    split
    · rename_i hm
      rw [hm]
    · rename_i hm
      rw [State.slot_dropLaunch_ne _ _ _ hm]


/-! ### What a scrub and an unlocking keep of the map -/

/-- The lock, the outcome, the entries and the epoch of a partition's map, and whether a reset, a scrub or a level's entry is under way, with
the state of its interface. -/
def Part.mapRegs (p : Part) : Bool × Nat × SMap Nat × Nat × Bool × Bool × Bool × Nat :=
  (p.lock, p.ldErr, p.ldmap, p.epoch, p.rstBusy, p.scrubbing, p.enter, p.tdisp)

theorem State.mapRegs_setPart (s : State) (j k : Nat) (x : Part) (h : x.mapRegs = (s.part j).mapRegs) :
    ((s.setPart j x).part k).mapRegs = (s.part k).mapRegs := by
  rw [State.part_setPart]
  split
  · rename_i hk
    rw [hk, h]
  · rfl

theorem State.part_of_parts {s t : State} (h : t.parts = s.parts) (k : Nat) : t.part k = s.part k := by
  unfold State.part
  rw [h]

theorem State.signal_parts (s : State) (fn vec : Nat) : (s.signal fn vec).parts = s.parts := by simp

/-- The registers of the device, but for the latches of its interrupts. -/
def Dev.base (d : Dev) : Dev := { d with msix := {}, mgmtIrq := {} }

theorem State.devBase_signal (s : State) (fn vec : Nat) : (s.signal fn vec).dev.base = s.dev.base := by
  unfold State.signal
  dsimp only
  split
  · rfl
  · split <;> rfl

theorem State.mapRegs_writeRecord (s : State) (r : FaultReport) (k : Nat) : ((s.writeRecord r).part k).mapRegs = (s.part k).mapRegs := by
  have hw : ∀ a bs, (s.hostWrite r.part (some (Config.vfPasid r.part)) a bs).parts = s.parts := fun a bs => by simp
  unfold State.writeRecord
  dsimp only
  rw [State.part_of_parts (State.signal_parts ..)]
  split
  · rw [State.mapRegs_setPart _ _ _ _ (by rw [State.part_of_parts (hw _ _)]; rfl), State.part_of_parts (hw _ _)]
  · exact s.mapRegs_setPart _ _ _ rfl

theorem State.mapRegs_slotRecord (s : State) (r : FaultReport) (k : Nat) : ((s.slotRecord r).part k).mapRegs = (s.part k).mapRegs := by
  unfold State.slotRecord
  split <;> exact s.mapRegs_writeRecord r k

theorem State.mapRegs_faultSlot (s : State) (n k : Nat) : ((s.faultSlot n).part k).mapRegs = (s.part k).mapRegs :=
  congrArg Part.mapRegs (State.part_of_parts (by simp [State.faultSlot]) k)

theorem State.mapRegs_closePhases (s : State) (part qid : Nat) (keys : List Nat) (k : Nat) :
    ((s.closePhases part qid keys).part k).mapRegs = (s.part k).mapRegs := by
  refine s.mapRegs_setPart part k _ ?_
  rfl

theorem State.mapRegs_discardSaved (s : State) (part k : Nat) (v : Saved) : ((s.discardSaved part v).part k).mapRegs = (s.part k).mapRegs := by
  unfold State.discardSaved
  extract_lets p t
  refine (t.mapRegs_closePhases part v.qid _ k).trans (s.mapRegs_setPart part k _ ?_)
  rfl

theorem State.mapRegs_leaveHubs (s : State) (slot : Nat) (r : Run) (keep : Hub → Bool) (k : Nat) :
    ((s.leaveHubs slot r keep).part k).mapRegs = (s.part k).mapRegs := by
  have hfree : ∀ (u : State) (l : Launch), (if l.timed then u.freePaceline l.plid else u).settleTk.parts = u.parts := fun u l => by
    split <;> rfl
  unfold State.leaveHubs
  extract_lets l hs hubs t p u v
  rw [State.part_of_parts (hfree _ _)]
  refine (u.mapRegs_closePhases l.part l.qid _ k).trans (t.mapRegs_setPart l.part k _ ?_)
  rfl

theorem State.mapRegs_discardLaunch (s : State) (n : Nat) (r : Run) (k : Nat) :
    ((s.discardLaunch n r).part k).mapRegs = (s.part k).mapRegs := by
  have hhold : ∀ (u : State) l, (u.endHold l).parts = u.parts := fun u l => by
    unfold State.endHold
    split <;> rfl
  have hshift : ∀ (u : State) (l : Launch), (if l.timed then u.zeroShift l.plid else u).parts = u.parts := fun u l => by
    split <;> rfl
  unfold State.discardLaunch
  dsimp only
  rw [State.part_of_parts (hshift _ _), State.part_of_parts (hhold _ _)]
  exact State.mapRegs_leaveHubs ..

theorem State.mapRegs_dropLaunch (s : State) (n k : Nat) : ((s.dropLaunch n).part k).mapRegs = (s.part k).mapRegs := by
  have hrun : ∀ o : Option Run, ((match o with | some r => s.discardLaunch n r | none => s).part k).mapRegs = (s.part k).mapRegs := fun o => by
    cases o with
    | none => rfl
    | some r => exact s.mapRegs_discardLaunch n r k
  have hsaved : ∀ (u : State) (o : Option Saved) (p : Nat),
      ((match o with | some v => u.discardSaved p v | none => u).part k).mapRegs = (u.part k).mapRegs := fun u o p => by
    cases o with
    | none => rfl
    | some v => exact u.mapRegs_discardSaved p k v
  unfold State.dropLaunch
  exact (hsaved _ _ _).trans (hrun _)

theorem State.mapRegs_loseSaved (s : State) (part kind sub k : Nat) : ((s.loseSaved part kind sub).part k).mapRegs = (s.part k).mapRegs := by
  unfold State.loseSaved
  exact foldl_keeps (fun t : State => (t.part k).mapRegs) _
    (fun u v => (State.mapRegs_writeRecord ..).trans (u.mapRegs_discardSaved part k v)) _ s

theorem State.mapRegs_passLaunches (s : State) (part k : Nat) : ((s.passLaunches part).part k).mapRegs = (s.part k).mapRegs := by
  unfold State.passLaunches
  extract_lets reset t
  have ht : (t.part k).mapRegs = (s.part k).mapRegs := by
    refine foldl_keeps (fun t : State => (t.part k).mapRegs) _ (fun u n => ?_) _ s
    extract_lets st live v w x
    have hv : (v.part k).mapRegs = (u.part k).mapRegs := by
      unfold v
      split
      · exact State.mapRegs_slotRecord ..
      · rfl
    refine Eq.trans ?_ hv
    show (w.part k).mapRegs = _
    unfold w
    split
    · exact State.mapRegs_dropLaunch ..
    · rfl
  split <;> exact (State.mapRegs_loseSaved ..).trans ht

theorem State.boundDies_of_map {s t : State} {k : Nat} (h : (t.part k).mapRegs = (s.part k).mapRegs) : t.boundDies k = s.boundDies k := by
  have hl : (t.part k).lock = (s.part k).lock := congrArg Prod.fst h
  have hm : (t.part k).ldmap = (s.part k).ldmap := congrArg (fun x => x.2.2.1) h
  have hp : ∀ l, t.phys k l = s.phys k l := fun l => by unfold State.phys; rw [hm]
  unfold State.boundDies
  simp only [hl, hp]

/-! ### The scrub of the dies -/

theorem State.parts_zeroDies (ps : List Nat) (s : State) : (s.zeroDies ps).parts = s.parts := by
  induction ps generalizing s with
  | nil => rfl
  | cons p r ih => exact ih _

theorem State.read_zeroDie (s : State) (p a : Nat) :
    Memory.read (s.zeroDie p).mem a = if isSram (homeOf a) && homeDie (homeOf a) == p then 0 else Memory.read s.mem a := by
  refine (Memory.read_filter s.mem (fun a => !(isSram (homeOf a) && homeDie (homeOf a) == p)) a).trans ?_
  cases isSram (homeOf a) && homeDie (homeOf a) == p <;> rfl

/-- Zeroed dies leave no byte of their SRAM that is not 0. -/
theorem State.read_zeroDies (ps : List Nat) (s : State) (a : Nat) (hs : isSram (homeOf a) = true)
    (h : homeDie (homeOf a) ∈ ps ∨ Memory.read s.mem a = 0) : Memory.read (s.zeroDies ps).mem a = 0 := by
  induction ps generalizing s with
  | nil => exact h.resolve_left List.not_mem_nil
  | cons p r ih =>
    refine ih _ ?_
    rw [s.read_zeroDie, hs, Bool.true_and]
    by_cases hp : homeDie (homeOf a) = p
    · exact .inr (if_pos (beq_iff_eq.2 hp))
    · rw [if_neg (by simpa using hp)]
      exact h.imp_left fun hm => (List.mem_cons.1 hm).resolve_left hp

theorem State.scrubDies_scrubs (s : State) (k : Nat) :
    ((s.scrubDies k).part k).scrubbing = true ∧ ((s.scrubDies k).part k).epoch = (s.part k).epoch + 1 ∧
      ((s.scrubDies k).part k).phases = [] ∧
      ∀ a, isSram (homeOf a) = true → homeDie (homeOf a) ∈ s.boundDies k → Memory.read (s.scrubDies k).mem a = 0 := by
  unfold State.scrubDies
  extract_lets p t ds v w x
  have hx : (((x.after (1 + Config.transit x.free % (4900 * Config.cyPerUs)) .partitionScrubDone { part := k }).useFree).part k) =
      { p with epoch := p.epoch + 1, scrubbing := true, phases := [], barriers := [], susp := [],
               rstPhase := if p.rstBusy then 4 else p.rstPhase } := by
    refine (State.part_of_parts (t := ((x.after (1 + Config.transit x.free % (4900 * Config.cyPerUs)) .partitionScrubDone { part := k }).useFree))
      (s := t) ?_ k).trans (State.setPart_self ..)
    exact State.parts_zeroDies ds _
  have hds : ds = s.boundDies k := by
    have hl : (t.part k).lock = (s.part k).lock := by unfold t; rw [State.setPart_self]
    have hm : (t.part k).ldmap = (s.part k).ldmap := by unfold t; rw [State.setPart_self]
    have hp : ∀ l, t.phys k l = s.phys k l := fun l => by unfold State.phys; rw [hm]
    unfold ds State.boundDies
    simp only [hl, hp]
  rw [hx]
  exact ⟨rfl, rfl, rfl, fun a ha hd => State.read_zeroDies ds _ a ha (.inl (hds ▸ hd))⟩

/-! ### Locking and unlocking -/

/-- The key of a partition stands on each of its bound dies. -/
theorem State.epoch_installKey (s : State) (k d : Nat) (hd : d ∈ s.boundDies k) :
    ((s.installKey k).die d).epoch = keyOf k (s.part k).epoch := by
  refine foldl_establishes (fun d (m : SMap Die) => (SMap.get {} m d).epoch = keyOf k (s.part k).epoch) _ (fun m p => ?_) (fun m p q h => ?_)
    (s.boundDies k) s.dies d hd
  · rw [SMap.get_put_self]
  · rw [SMap.get_put]
    split
    · rfl
    · exact h

theorem State.mem_boundDies (s : State) (k l d : Nat) (hk : (s.part k).lock = true) (hl : l < 48) (hp : s.phys k l = some d) (hd : d ≠ 0) :
    d ∈ s.boundDies k := by
  unfold State.boundDies
  rw [if_neg (by rw [hk]; decide)]
  exact List.mem_filter.2 ⟨List.mem_filterMap.2 ⟨l, List.mem_range.2 hl, hp⟩, by simpa using hd⟩

/-- A launch that is refused leaves its queue faulted, and no other slot changes. -/
theorem State.slot_refuseLaunch (s : State) (n m sub : Nat) :
    (((s.refuseLaunch n sub).slot n).qcb.state = 4) ∧ (m ≠ n → (s.refuseLaunch n sub).slot m = s.slot m) := by
  obtain ⟨h4, -, -⟩ := s.slot_recordFault (s.launchReport n 0x17 sub) n rfl
  refine ⟨h4, fun hm => ?_⟩
  exact ((s.slotRecord _).slot_faultSlot_ne n m hm).trans (s.slot_slotRecord_ne _ m hm)

theorem State.refuseWaiting_refuses (s : State) (k : Nat) :
    (∀ j, ((s.refuseWaiting k).part j).mapRegs = (s.part j).mapRegs) ∧
      ∀ n ∈ s.slotsOf k, (s.slot n).qcb.state = 1 → (s.slot n).validated = true → ((s.refuseWaiting k).slot n).qcb.state = 4 := by
  refine ⟨fun j => ?_, fun n hn h1 hv => ?_⟩
  · exact foldl_keeps (fun t : State => (t.part j).mapRegs) _
      (fun u n => (State.mapRegs_faultSlot ..).trans (u.mapRegs_slotRecord _ j)) _ s
  · refine foldl_establishes (fun n (t : State) => (t.slot n).qcb.state = 4) _ (fun u n => (u.slot_refuseLaunch n n 5).1) (fun u n m h => ?_)
      _ s n (List.mem_filter.2 ⟨hn, by rw [h1, hv]; rfl⟩)
    by_cases hm : n = m
    · rw [hm]
      exact (u.slot_refuseLaunch m m 5).1
    · rw [(u.slot_refuseLaunch m n 5).2 hm]
      exact h


/-! ### A failed die -/

theorem State.devBase_setModule (s : State) (p m : Nat) (k : Module) : (s.setModule p m k).dev = s.dev := rfl

theorem State.devBase_retrainFrom (s : State) (pos : Nat) (ls : List (Nat × Nat × Nat)) : (s.retrainFrom pos ls).dev = s.dev := by
  have hunlink : ∀ (u : State) p m, (u.unlink p m).dev = u.dev := fun u p m => by
    unfold State.unlink
    dsimp only
    split <;> rfl
  have hfault : ∀ (u : State) p a b c, (u.dieFault p a b c).dev = u.dev := fun u p a b c => by
    obtain ⟨-, -, -, -, -, -, hd, -⟩ := u.dieFault_frame p a b c
    exact hd
  induction ls generalizing s with
  | nil => rfl
  | cons x r ih =>
    obtain ⟨m, q, k⟩ := x
    unfold State.retrainFrom
    dsimp only
    rw [ih]
    split
    · exact (hfault _ _ _ _ _).trans (hunlink s pos m)
    · exact hunlink s pos m

theorem State.dev_setPart (s : State) (k : Nat) (x : Part) : (s.setPart k x).dev = s.dev := rfl

theorem State.dev_discardSaved (s : State) (part : Nat) (v : Saved) : (s.discardSaved part v).dev = s.dev := rfl

theorem State.devBase_writeRecord (s : State) (r : FaultReport) : (s.writeRecord r).dev.base = s.dev.base := by
  have hw : ∀ a bs, (s.hostWrite r.part (some (Config.vfPasid r.part)) a bs).dev = s.dev := fun a bs => by simp
  unfold State.writeRecord
  dsimp only
  rw [State.devBase_signal]
  split
  · rw [State.dev_setPart, hw]
  · rfl

theorem State.devBase_slotRecord (s : State) (r : FaultReport) : (s.slotRecord r).dev.base = s.dev.base := by
  unfold State.slotRecord
  split <;> exact s.devBase_writeRecord r

theorem State.devBase_faultSlot (s : State) (n : Nat) : (s.faultSlot n).dev.base = s.dev.base := by
  unfold State.faultSlot State.interrupt
  exact State.devBase_signal ..

theorem State.dev_leaveHubs (s : State) (slot : Nat) (r : Run) (keep : Hub → Bool) : (s.leaveHubs slot r keep).dev = s.dev := by
  unfold State.leaveHubs
  dsimp only
  split <;> rfl

theorem State.dev_discardLaunch (s : State) (n : Nat) (r : Run) : (s.discardLaunch n r).dev = s.dev := by
  have hhold : ∀ (u : State) l, (u.endHold l).dev = u.dev := fun u l => by
    unfold State.endHold
    split <;> rfl
  unfold State.discardLaunch
  dsimp only
  split <;> exact (hhold ..).trans (State.dev_leaveHubs ..)

theorem State.dev_dropLaunch (s : State) (n : Nat) : (s.dropLaunch n).dev = s.dev := by
  have hrun : ∀ o : Option Run, (match o with | some r => s.discardLaunch n r | none => s).dev = s.dev := fun o => by
    cases o with
    | none => rfl
    | some r => exact s.dev_discardLaunch n r
  have hsaved : ∀ (u : State) (o : Option Saved) (p : Nat), (match o with | some v => u.discardSaved p v | none => u).dev = u.dev :=
    fun u o p => by cases o <;> rfl
  unfold State.dropLaunch
  exact (hsaved _ _ _).trans (hrun _)

theorem State.devBase_abortAll (s : State) (part kind sub : Nat) (susp : Bool) :
    (s.abortAll part kind sub susp).dev.base = s.dev.base := by
  refine foldl_keeps (fun t : State => t.dev.base) _ (fun u n => ?_) (s.slotsOf part) s
  dsimp only
  split
  · rw [State.devBase_faultSlot, State.dev_dropLaunch, State.devBase_slotRecord]
  · rfl

theorem State.devBase_loseSaved (s : State) (part kind sub : Nat) : (s.loseSaved part kind sub).dev.base = s.dev.base := by
  unfold State.loseSaved
  exact foldl_keeps (fun t : State => t.dev.base) _ (fun u v => (State.devBase_writeRecord ..).trans (congrArg Dev.base (u.dev_discardSaved part v))) _ s

/-- The launches of a partition that has a failed die are lost. -/
def State.loseDie (pos : Nat) (s : State) (part : Nat) : State :=
  if (s.part part).lock && (s.logical part pos).isSome then
    (s.abortAll part 0x15 s.arg.n true).loseSaved part 0x15 s.arg.n
  else s

theorem State.devBase_loseDie (s : State) (pos part : Nat) : (s.loseDie pos part).dev.base = s.dev.base := by
  unfold State.loseDie
  split
  · rw [State.devBase_loseSaved, State.devBase_abortAll]
  · rfl

/-- A failed die is marked first; then its neighbours retrain and the launches of its partition are lost. -/
theorem execDieFailure_eq (s : State) : execDieFailure s =
    if SMap.get false s.dev.dieFail s.arg.pos || 48 ≤ s.arg.pos then .next s
    else .next ((List.range 16).foldl (State.loseDie s.arg.pos)
      ((State.signal { s with dev := { s.dev with dieFail := SMap.set false s.dev.dieFail s.arg.pos true } } 0 2).retrainFrom s.arg.pos
        ((State.signal { s with dev := { s.dev with dieFail := SMap.set false s.dev.dieFail s.arg.pos true } } 0 2).links s.arg.pos))) := by
  unfold execDieFailure State.loseDie
  rfl

theorem exec_dieFailure_marks (s : State) (h48 : s.arg.pos < 48) (hf : SMap.get false s.dev.dieFail s.arg.pos = false) :
    ∃ t, exec .dieFailure s = .next t ∧ SMap.get false t.dev.dieFail s.arg.pos = true := by
  rw [exec_dieFailure, execDieFailure_eq, if_neg (by rw [hf]; simp; omega)]
  refine ⟨_, rfl, ?_⟩
  have hbase : ∀ t : State, t.dev.dieFail = t.dev.base.dieFail := fun _ => rfl
  rw [hbase, foldl_keeps (fun t : State => t.dev.base) _ (fun u p => u.devBase_loseDie _ p), State.devBase_retrainFrom, State.devBase_signal]
  show SMap.get false (SMap.set false s.dev.dieFail s.arg.pos true) s.arg.pos = true
  exact SMap.get_set_self false _ _ _

theorem ldmapLock_locks (s : State) (hl : (s.part s.arg.part).lock = false) (hm : s.mapBad s.arg.part = none) :
    let k := s.arg.part
    ∃ t, execLdmapLock s = .next t ∧ SameMemory s t ∧ (t.part k).lock = true ∧ (t.part k).ldErr = 0 ∧
      ∀ l d, l < 48 → s.phys k l = some d → d ≠ 0 → (t.die d).epoch = keyOf k (s.part k).epoch := by
  intro k
  unfold execLdmapLock
  dsimp only
  rw [if_neg (by rw [hl]; decide), hm]
  refine ⟨_, rfl, (sameMemory_iff _ _).2 (by simp), ?_⟩
  generalize hu : ((s.setPart s.arg.part _).extendPart s.arg.part 0 _) = u
  have hp : (u.part k).mapRegs = (true, 0, (s.part k).ldmap, (s.part k).epoch, (s.part k).rstBusy, (s.part k).scrubbing, (s.part k).enter, (s.part k).tdisp) := by
    rw [← hu]
    unfold State.extendPart
    rw [State.setPart_self, State.setPart_self]
    rfl
  have hlock : (u.part k).lock = true := congrArg Prod.fst hp
  have hphys : ∀ l, u.phys k l = s.phys k l := fun l => by
    unfold State.phys
    rw [show (u.part k).ldmap = _ from congrArg (fun x => x.2.2.1) hp]
  have he : (u.part k).epoch = (s.part k).epoch := congrArg (fun x => x.2.2.2.1) hp
  refine ⟨hlock, congrArg (fun x => x.2.1) hp, fun l d h48 hd h0 => ?_⟩
  rw [u.epoch_installKey _ d (u.mem_boundDies k l d hlock h48 ((hphys l).trans hd) h0)]
  exact congrArg (keyOf k) he

theorem ldmapUnlock_unlocks (s : State) (hl : (s.part s.arg.part).lock = true) (hs : (s.part s.arg.part).susp = [])
    (hq : ∀ n ∈ s.slotsOf s.arg.part, (s.slot n).qcb.state ≠ 2 ∧ (s.slot n).qcb.state ≠ 3) :
    let k := s.arg.part
    let p := s.part k
    (∃ t, exec .ldmapUnlock s = .next t ∧ (t.part k).lock = false ∧ (t.part k).ldErr = 0 ∧ (t.part k).ldmap = p.ldmap ∧
        ∀ n ∈ s.slotsOf k, (s.slot n).qcb.state = 1 → (s.slot n).validated = true → (t.slot n).qcb.state = 4) ∧
      ((∀ n ∈ s.slotsOf k, (s.slot n).qcb.state ≠ 1) →
        exec .ldmapUnlock s = .next (s.setPart k { p with lock := false, ldErr := 0, ldRsn := 0, ldBad := 0 })) := by
  intro k p
  let u := s.setPart k { p with lock := false, ldErr := 0, ldRsn := 0, ldBad := 0 }
  have hex : exec .ldmapUnlock s = .next (u.refuseWaiting k) := by
    rw [exec_ldmapUnlock]
    unfold execLdmapUnlock
    dsimp only
    rw [if_neg (by rw [hl]; decide), if_neg]
    rw [hs, Bool.not_eq_true, List.isEmpty_nil, Bool.not_true, Bool.false_or, List.any_eq_false]
    intro n hn
    simp [hq n hn]
  have hu : (u.part k).mapRegs = (false, 0, p.ldmap, p.epoch, p.rstBusy, p.scrubbing, p.enter, p.tdisp) := by
    rw [State.setPart_self]
    rfl
  obtain ⟨hmap, href⟩ := u.refuseWaiting_refuses k
  have ht := (hmap k).trans hu
  refine ⟨⟨_, hex, congrArg Prod.fst ht, congrArg (fun x => x.2.1) ht, congrArg (fun x => x.2.2.1) ht, href⟩, fun h1 => ?_⟩
  rw [hex]
  refine congrArg Host.Outcome.next ?_
  unfold State.refuseWaiting
  rw [List.filter_eq_nil_iff.2]
  · rfl
  · intro n hn hc
    exact h1 n hn (eq_of_beq (Bool.and_eq_true_iff.1 hc).1)

theorem State.part_signal (s : State) (fn vec k : Nat) : (s.signal fn vec).part k = s.part k := State.part_of_parts (s.signal_parts fn vec) k

theorem State.part_enterVendor (s : State) (k : Nat) : (s.enterVendor).part k = s.part k := by
  unfold State.enterVendor
  split
  · exact State.part_of_parts (State.signal_parts ..) k
  · rfl

theorem scrubDone_ends (s : State) (hs : (s.part s.arg.part).scrubbing = true) :
    let k := s.arg.part
    ∃ t, execPartitionScrubDone s = .next t ∧ SameMemory s t ∧ (t.part k).scrubbing = false ∧ (t.part k).customer = (s.part k).enter := by
  intro k
  unfold execPartitionScrubDone
  extract_lets p u v w x ns y q z
  rw [if_neg (by rw [hs]; decide)]
  have hv : (v.part k).scrubbing = false ∧ (v.part k).customer = p.enter := by
    unfold v u State.extendPart
    rw [State.setPart_self, State.setPart_self]
    exact ⟨rfl, rfl⟩
  have hx : x.part k = v.part k := by
    refine State.part_enterVendor .. |>.trans ?_
    have hw : w.part k = v.part k := by
      unfold w
      split
      · rfl
      · exact State.part_signal ..
    split
    · exact hw
    · exact hw
  have hm : x.memory = s.memory := by
    unfold x w v u
    split <;> split <;> simp
  split
  · refine ⟨_, rfl, (sameMemory_iff _ _).2 ?_, ?_⟩
    · exact (foldl_keeps State.memory _ (fun w n => w.dissolve_memory n) ns x).trans hm
    · have hz : z.part k = { y.part k with rstPhase := 5, reform := ns } := State.setPart_self ..
      have hy : y.part k = x.part k := foldl_keeps (fun w : State => w.part k) _ (fun w n => (rfl : (w.dissolve n).part k = w.part k)) ns x
      show (z.part k).scrubbing = false ∧ (z.part k).customer = p.enter
      rw [hz, hy, hx]
      exact hv
  · exact ⟨_, rfl, (sameMemory_iff _ _).2 hm, by rw [hx]; exact hv.1, by rw [hx]; exact hv.2⟩

theorem State.rstBusy_respond (s : State) (fn : Nat) (ws : List Nat) (k : Nat) : ((s.respond fn ws).part k).rstBusy = (s.part k).rstBusy := by
  unfold State.respond
  extract_lets m src q t
  show (t.part k).rstBusy = _
  unfold t
  split
  · rfl
  · rw [State.part_setPart]
    split
    · rename_i h
      rw [h]
    · rfl

theorem State.rstBusy_clearHolds (s : State) (k : Nat) : ((s.clearHolds k).part k).rstBusy = (s.part k).rstBusy := by
  unfold State.clearHolds
  extract_lets p t
  have ht : (t.part k).rstBusy = p.rstBusy := by unfold t; rw [State.setPart_self]
  split
  · exact ht
  · exact (foldl_keeps (fun w : State => (w.part k).rstBusy) (fun w n => w.setSlot n { w.slot n with hold := false }) (fun w n => rfl) _ t).trans ht

theorem resetDone_clears (s : State) (hb : (s.part s.arg.part).rstBusy = true) :
    let k := s.arg.part
    ∃ t, execPartitionResetDone s = .next t ∧ SameMemory s t ∧ (t.part k).rstBusy = false := by
  intro k
  unfold execPartitionResetDone
  extract_lets p u v
  rw [if_pos hb]
  have hfold : ∀ w : State, (p.waits.foldl (fun (s : State) fn => s.respond fn [0]) w).memory = w.memory := fun w =>
    foldl_keeps State.memory _ (fun w fn => w.respond_memory fn [0]) _ w
  have hbusy : ∀ w : State, ((p.waits.foldl (fun (s : State) fn => s.respond fn [0]) w).part k).rstBusy = (w.part k).rstBusy := fun w =>
    foldl_keeps (fun w : State => (w.part k).rstBusy) _ (fun w fn => w.rstBusy_respond fn [0] k) _ w
  have hu : (u.part k).rstBusy = false := by
    unfold u State.interrupt
    exact congrArg Part.rstBusy (State.setPart_self ..)
  refine ⟨_, rfl, (sameMemory_iff _ _).2 ?_, ?_⟩
  · rw [hfold]
    have hum : u.memory = s.memory := by simp [u]
    unfold v
    split
    · exact (u.clearHolds_memory k).trans hum
    · exact hum
  · rw [hbusy]
    unfold v
    split
    · exact (State.rstBusy_clearHolds ..).trans hu
    · exact hu


/-- Settles O47: each event by what its fold over the partition's slots establishes of every slot and keeps of the map; a scrubbed byte by the filter of memory, a failed die by what no later step of the event touches. -/
theorem partitions : Obligations.Partitions := by
  unfold Obligations.Partitions
  intro s k p
  refine ⟨fun hm => ?_, fun hm => ⟨fun h => ?_, fun hb hp => ?_⟩, ?_, fun hs => ?_, fun hb => ?_, fun hl hm => ?_, fun e r l hl hm => ?_,
    fun hl hs hq => ?_, exec_dieFailure_marks s⟩
  · rw [exec_partitionReset]
    unfold execPartitionReset
    rw [if_pos hm]
    refine ⟨_, rfl, ?_, fun hb => ?_, fun hb => s.startReset_holds k 1 _ hb⟩
    · cases hb : p.rstBusy with
      | false => exact (s.startReset_busy k 1 _ hb).1
      | true =>
        unfold State.startReset
        rw [if_pos hb]
        exact hb
    · unfold State.startReset
      rw [if_pos hb]
  · rw [exec_partitionReset]
    unfold execPartitionReset
    rw [if_neg hm]
    unfold State.stopPart
    dsimp only
    rw [if_pos]
    rcases h with h | h
    · rw [show (s.part s.arg.part).rstBusy = false from h]; rfl
    · rw [bne_iff_ne.2 h, Bool.or_true]
  · rw [exec_partitionReset]
    unfold execPartitionReset
    rw [if_neg hm]
    obtain ⟨h3, hn⟩ := s.stopPart_stops k hb hp
    exact ⟨_, rfl, (sameMemory_iff _ _).2 (by simp), h3, hn⟩
  · rw [exec_partitionScrub]
    unfold execPartitionScrub State.scrub
    obtain ⟨h1, h2, h3, h4⟩ := (s.passLaunches k).scrubDies_scrubs k
    have hmap := s.mapRegs_passLaunches k k
    have he : ((s.passLaunches k).part k).epoch = p.epoch := congrArg (fun x => x.2.2.2.1) hmap
    rw [he] at h2
    rw [State.boundDies_of_map hmap] at h4
    exact ⟨_, rfl, h1, h2, h3, h4⟩
  · rw [exec_partitionScrubDone]
    exact scrubDone_ends s hs
  · rw [exec_partitionResetDone]
    exact resetDone_clears s hb
  · rw [exec_ldmapLock]
    exact ldmapLock_locks s hl hm
  · rw [exec_ldmapLock]
    unfold execLdmapLock
    dsimp only
    rw [if_neg (by rw [show (s.part s.arg.part).lock = false from hl]; decide), show s.mapBad s.arg.part = _ from hm]
  · exact ldmapUnlock_unlocks s hl hs hq

end Sys2Proof.Machine
end

section
/-! SUPPORT. Pacelines and track stands. -/

namespace Sys2Proof.Machine

open Sys2Proof

/-- An event goes on to a state of the given kind, and changes no byte of memory and no hub. -/
def GoesOn (i : Instr) (s : State) (f : State → Prop) : Prop := ∃ t, exec i s = .next t ∧ SameMemory s t ∧ t.hubs = s.hubs ∧ f t

theorem goesOn_of {i : Instr} {s t : State} {f : State → Prop} (h : exec i s = .next t) (hm : t.memory = s.memory) (hh : t.hubs = s.hubs)
    (hf : f t) : GoesOn i s f := ⟨t, h, (sameMemory_iff _ _).2 hm, hh, hf⟩

/-! ### Forming and dissolving -/

theorem le_foldl_max (l : List Nat) (b : Nat) : b ≤ l.foldl max b ∧ ∀ a ∈ l, a ≤ l.foldl max b := by
  induction l generalizing b with
  | nil => exact ⟨Nat.le_refl _, fun a ha => absurd ha List.not_mem_nil⟩
  | cons x r ih =>
    obtain ⟨h1, h2⟩ := ih (max b x)
    refine ⟨by rw [List.foldl_cons]; omega, fun a ha => ?_⟩
    rw [List.foldl_cons]
    rcases List.mem_cons.1 ha with rfl | ha
    · omega
    · exact h2 a ha

theorem le_roundUp (x m : Nat) (hm : 0 < m) : x ≤ roundUp x m ∧ roundUp x m % m = 0 := by
  unfold roundUp
  refine ⟨?_, Nat.mul_mod_left ..⟩
  have h := Nat.div_add_mod (x + m - 1) m
  have h2 := Nat.mod_lt (x + m - 1) hm
  rw [Nat.mul_comm] at h
  omega

theorem exec_pacelineForm_begins (s : State) (hm : s.arg.m = 0) (hf : (s.pl s.arg.n).form = false) :
    let n := s.arg.n
    let l := s.pl n
    (s.formErr n = 0 → GoesOn .pacelineForm s fun t =>
      (t.pl n).form = true ∧ (t.pl n).err = 0 ∧ (t.pl n).stage = 1 ∧ (t.pl n).mem = l.mem ∧ (t.pl n).taken = l.mem) ∧
    (s.formErr n ≠ 0 → exec .pacelineForm s = .next (s.setPl n { l with err := s.formErr n })) := by
  intro n l
  have hex : exec .pacelineForm s = if s.formErr n ≠ 0 then .next (s.setPl n { l with err := s.formErr n })
      else .next ((s.setPl n { l with err := 0, form := true, stage := 1, taken := l.mem }).formNext n 1 0) := by
    rw [exec_pacelineForm]
    unfold execPacelineForm
    dsimp only
    rw [if_pos hm, if_neg (by rw [hf]; exact Bool.false_ne_true)]
  rw [hex]
  refine ⟨fun h => ?_, fun h => if_pos h⟩
  refine goesOn_of (hex.trans (if_neg (fun hn => hn h))) rfl rfl ?_
  have hp : ((s.setPl n { l with err := 0, form := true, stage := 1, taken := l.mem }).formNext n 1 0).pl n =
    { l with err := 0, form := true, stage := 1, taken := l.mem } := State.setPl_self ..
  rw [hp]
  exact ⟨rfl, rfl, rfl, rfl, rfl⟩

/-- A paceline whose root and mark 0 have been chosen (R49, R50). -/
def State.rooted (s : State) (n : Nat) : Pl :=
  let l := s.pl n
  let ms := l.members
  { l with
    stage := 2, root := ms.headD 0, hops := (s.span ms).getD 0
    mark0 := roundUp ((ms.map fun p => (s.die p).cad).foldl max 0 + 131072) 65536, slot := none, held := false
    pend := false, haltErr := 0, nflt := 0, kind := 0, low := none, retrain := false, trap := false, coast := s.coastFor ms
    idleFrom := 0, idleTo := 0 }

theorem exec_pacelineForm_chooses (s : State) (hm : s.arg.m = 1) (hs : (s.pl s.arg.n).stage = 1) :
    let n := s.arg.n
    let l := s.pl n
    GoesOn .pacelineForm s fun t => (t.pl n).stage = 2 ∧ (t.pl n).root = l.members.headD 0 ∧
      (t.pl n).mark0 % 65536 = 0 ∧ t.dies = s.dies ∧ ∀ p ∈ l.members, (s.die p).cad + 131072 ≤ (t.pl n).mark0 := by
  intro n l
  have hfold : ∀ {β : Type} (f : State → β) (hf : ∀ u p, f (State.formNext u n 2 p) = f u) (u : State),
      f (l.members.foldl (fun (s : State) p => s.formNext n 2 p) u) = f u := fun f hf u => foldl_keeps f _ hf _ u
  obtain ⟨hle, hmod⟩ := le_roundUp ((l.members.map fun p => (s.die p).cad).foldl max 0 + 131072) 65536 (by decide)
  have hex : exec .pacelineForm s = .next (l.members.foldl (fun (s : State) p => s.formNext n 2 p) (s.setPl n (s.rooted n))) := by
    rw [exec_pacelineForm]
    unfold execPacelineForm
    dsimp only
    rw [if_neg (by rw [hm]; decide), if_neg (by rw [hs, hm]; decide), if_pos hm]
    rfl
  refine goesOn_of hex (hfold State.memory (fun _ _ => rfl) _) (hfold State.hubs (fun _ _ => rfl) _) ?_
  rw [hfold (fun u => u.pl n) (fun _ _ => rfl), State.setPl_self]
  refine ⟨rfl, rfl, hmod, hfold State.dies (fun _ _ => rfl) _, fun p hp => ?_⟩
  have := (le_foldl_max (l.members.map fun p => (s.die p).cad) 0).2 _ (List.mem_map_of_mem hp)
  exact (Nat.add_le_add_right this 131072).trans hle

theorem exec_pacelineForm_enrols (s : State) (hm : s.arg.m = 2) (hs : (s.pl s.arg.n).stage = 2) :
    let n := s.arg.n
    let l := s.pl n
    let k := s.arg.pos
    GoesOn .pacelineForm s fun t => (t.die k).member = true ∧ (t.die k).plid = n ∧ (t.die k).cad = l.mark0 ∧ (t.die k).lshift = 0 ∧
      (t.die k).held = true ∧ (t.die k).coast = l.coast ∧ (t.die k).armed = true ∧ (t.die k).standM = l.mark0 ∧
      (t.die k).root = decide (k = l.root) ∧ ∀ p, p ≠ k → t.die p = s.die p := by
  intro n l k
  have hex : ∃ t, exec .pacelineForm s = .next t ∧ t.memory = s.memory ∧ t.hubs = s.hubs ∧ ∀ p, t.die p = (s.enrol n k).die p := by
    rw [exec_pacelineForm]
    unfold execPacelineForm
    dsimp only
    rw [if_neg (by rw [hm]; decide), if_neg (by rw [hs, hm]; decide), if_neg (by rw [hm]; decide), if_pos hm]
    split <;> exact ⟨_, rfl, rfl, rfl, fun _ => rfl⟩
  obtain ⟨t, hex, hmem, hh, hd⟩ := hex
  refine goesOn_of hex hmem hh ?_
  simp only [hd]
  unfold State.enrol
  dsimp only
  rw [State.setDie_self]
  refine ⟨rfl, rfl, rfl, rfl, rfl, rfl, rfl, rfl, ?_, fun p hp => ?_⟩
  · exact beq_eq_decide ..
  · rw [State.die_setDie, if_neg hp]

theorem exec_pacelineForm_ends (s : State) (hm : s.arg.m = 3) (hs : (s.pl s.arg.n).stage = 3)
    (hf : ∀ p ∈ (s.pl s.arg.n).members, (s.die p).forming = false) :
    exec .pacelineForm s = .next (s.setPl s.arg.n { s.pl s.arg.n with stage := 0, formed := true }) := by
  rw [exec_pacelineForm]
  unfold execPacelineForm
  dsimp only
  rw [if_neg (by rw [hm]; decide), if_neg (by rw [hs, hm]; decide), if_neg (by rw [hm]; decide), if_neg (by rw [hm]; decide), if_neg]
  rw [Bool.not_eq_true, List.any_eq_false]
  exact fun p hp => by rw [hf p hp]; exact Bool.false_ne_true

/-- A die as the dissolution of a paceline leaves it (R49). -/
def Die.leave (n : Nat) (d : Die) : Die :=
  if d.member && d.plid == n then
    { d with
      member := false, root := false, plid := 0, parent := 0, tk := 0, lshift := 0, ahead := 0, lag := 0, held := false
      forming := false, haltAt := none, release := none, armed := false, adopt := false, idle := false, standing := false
      gather := false, swallow := 0, coastNext := [] }
  else d

theorem State.die_dissolve (s : State) (n p : Nat) : (s.dissolve n).die p = (s.die p).leave n := by
  have hmap : (s.dissolve n).dies = s.dies.map fun e => (e.1, e.2.leave n) := by
    refine List.map_congr_left fun e _ => ?_
    unfold Die.leave
    split <;> rfl
  unfold State.die
  rw [hmap]
  exact SMap.get_map {} (Die.leave n) s.dies p rfl

theorem exec_pacelineDissolve_dissolves (s : State) (hf : (s.pl s.arg.n).form = true)
    (hr : ∀ p ∈ (s.pl s.arg.n).members, s.runsLaunch p = false) :
    let n := s.arg.n
    GoesOn .pacelineDissolve s fun t => (t.pl n).formed = false ∧ (t.pl n).form = false ∧ (t.pl n).err = 0 ∧
      ∀ e ∈ s.dies, SMap.find e.1 s.dies = some e.2 → e.2.member = true → e.2.plid = n → (t.die e.1).member = false := by
  intro n
  have hex : exec .pacelineDissolve s = .next ((s.dissolve n).setPl n { (s.dissolve n).pl n with err := 0 }) := by
    rw [exec_pacelineDissolve]
    unfold execPacelineDissolve
    dsimp only
    rw [if_neg (by rw [hf]; decide), if_neg]
    rw [Bool.not_eq_true, List.any_eq_false.2 fun p hp => by rw [hr p hp]; exact Bool.false_ne_true, Bool.and_false]
  refine goesOn_of hex rfl rfl ?_
  rw [State.setPl_self]
  have hl : (s.dissolve n).pl n = _ := State.setPl_self ..
  rw [hl]
  refine ⟨rfl, rfl, rfl, fun e _ hfind hmem hpl => ?_⟩
  have he : s.die e.1 = e.2 := by
    unfold State.die SMap.get
    rw [hfind]
    rfl
  refine (congrArg Die.member (s.die_dissolve n e.1)).trans ?_
  rw [he]
  unfold Die.leave
  rw [if_pos (by rw [hmem, hpl]; simp)]


/-! ### Halts and releases -/

theorem exec_haltFrameReceive_takes (s : State) (hm : (s.die s.arg.pos).member = true) (hp : (s.die s.arg.pos).plid = bits s.arg.value.toNat 59 56)
    (hh : (s.die s.arg.pos).held = false) :
    let k := s.arg.pos
    let d := s.die k
    let halt := ((d.cad : Int) - s.haltShift k).toNat / 2 ^ 48 * 2 ^ 48 + s.arg.value.toNat % 2 ^ 48
    (∀ x, d.haltAt = some x → s.haltCad k halt < x) → GoesOn .haltFrameReceive s fun t => (t.die k).haltAt = some (s.haltCad k halt) := by
  intro k d halt hx
  have hex : exec .haltFrameReceive s =
      .next ((s.setDie k (d.halt (s.haltCad k halt))).sendHalt k halt ((s.plModules k).filter fun m => m != s.arg.m)) := by
    rw [exec_haltFrameReceive]
    unfold execHaltFrameReceive
    dsimp only
    rw [hm, hp, hh, if_neg]
    · rw [Bool.not_true, bne_self_eq_false, Bool.false_or, Bool.false_or, Bool.false_or]
      split
      · rename_i x hd
        exact fun hc => Nat.not_le.2 (hx x hd) (of_decide_eq_true hc)
      · exact Bool.false_ne_true
  obtain ⟨-, -, -, -, -, -, -, -, -, -, -, -, hhubs, -⟩ := (s.setDie k (d.halt (s.haltCad k halt))).sendHalt_frame k halt
    ((s.plModules k).filter fun m => m != s.arg.m)
  refine goesOn_of hex (by simp) hhubs ?_
  rw [State.die_sendHalt Die.haltAt fun _ _ => rfl, State.setDie_self]
  unfold Die.halt
  cases hd : d.haltAt with
  | none => rfl
  | some x => exact congrArg some (Nat.min_eq_right (Nat.le_of_lt (hx x hd)))


theorem SameMemory.of_eq {s t : State} (h : t.memory = s.memory) : SameMemory s t := (sameMemory_iff _ _).2 h

/-- Withdrawing the sets of one refused PHASE (R64). -/
def State.withdrawOne (die : Nat) (s : State) (k : Nat) : State :=
  match (s.hub die k).refused with
  | some t => (s.withdrawSets die k t).setHub die k { (s.withdrawSets die k t).hub die k with refused := none }
  | none => s

theorem State.withdrawRefused_eq (s : State) (die : Nat) : s.withdrawRefused die = (List.range 8).foldl (State.withdrawOne die) s := rfl

theorem State.withdrawSets_keeps (s : State) (die k t : Nat) :
    (s.withdrawSets die k t).dies = s.dies ∧ (s.withdrawSets die k t).pls = s.pls ∧
      ∀ x y, ((s.withdrawSets die k t).hub x y).refused = (s.hub x y).refused := by
  unfold State.withdrawSets
  split
  · refine ⟨rfl, rfl, fun x y => ?_⟩
    refine (congrArg Hub.refused (State.hub_setHub ..)).trans ?_
    split
    · rename_i h
      unfold State.hub
      rw [h]
    · rfl
  · exact ⟨rfl, rfl, fun _ _ => rfl⟩


theorem State.withdrawOne_keeps (s : State) (die k : Nat) :
    (State.withdrawOne die s k).dies = s.dies ∧ (State.withdrawOne die s k).pls = s.pls ∧
      ∀ h, ((State.withdrawOne die s k).hub die h).refused = if h = k then none else (s.hub die h).refused := by
  unfold State.withdrawOne
  split
  · rename_i t ht
    obtain ⟨hd, hp, hr⟩ := s.withdrawSets_keeps die k t
    refine ⟨hd, hp, fun h => ?_⟩
    refine (congrArg Hub.refused (State.hub_setHub ..)).trans ?_
    by_cases e : h = k
    · rw [if_pos e, if_pos (by rw [e])]
    · rw [if_neg e, if_neg (fun c => e (Nat.add_left_cancel c))]
      exact hr die h
  · rename_i hk
    refine ⟨rfl, rfl, fun h => ?_⟩
    split
    · rename_i e
      rw [e, hk]
    · rfl

theorem State.withdrawRefused_leaves (s : State) (die : Nat) :
    (s.withdrawRefused die).dies = s.dies ∧ (s.withdrawRefused die).pls = s.pls ∧
      (∀ h, h < 8 → ((s.withdrawRefused die).hub die h).refused = none) ∧
      ((∀ h, h < 8 → (s.hub die h).refused = none) → (s.withdrawRefused die).hubs = s.hubs) := by
  rw [State.withdrawRefused_eq]
  refine ⟨foldl_keeps State.dies _ (fun u k => (u.withdrawOne_keeps die k).1) _ s,
    foldl_keeps State.pls _ (fun u k => (u.withdrawOne_keeps die k).2.1) _ s, fun h h8 => ?_, fun hn => ?_⟩
  · refine foldl_establishes (fun h (u : State) => (u.hub die h).refused = none) _ (fun u k => ?_) (fun u h k hu => ?_) _ s h (List.mem_range.2 h8)
    · rw [(u.withdrawOne_keeps die k).2.2, if_pos rfl]
    · rw [(u.withdrawOne_keeps die k).2.2, hu, ite_self]
  · have hone : ∀ l : List Nat, (∀ k ∈ l, k < 8) → l.foldl (State.withdrawOne die) s = s := fun l => by
      induction l with
      | nil => exact fun _ => rfl
      | cons k r ih =>
        intro hl
        have hk : State.withdrawOne die s k = s := by
          unfold State.withdrawOne
          rw [hn k (hl k List.mem_cons_self)]
        rw [List.foldl_cons, hk]
        exact ih fun x hx => hl x (List.mem_cons_of_mem _ hx)
    rw [hone _ fun k hk => List.mem_range.1 hk]

/-- A die that holds at its halt mark (R64). -/
def State.holdDie (s : State) (p : Nat) : State :=
  s.setDie p { s.die p with held := true, haltAt := none, standing := false, swallow := 0, gather := false }

theorem execPacelineHold_eq (s : State) : execPacelineHold s =
    let p := s.arg.pos
    let d := s.die p
    let n := d.plid
    let u := (s.holdDie p).withdrawRefused p
    if d.haltAt != some d.cad || d.held then .next s
    else if (List.range 48).all fun q => !u.isMember n q || (u.die q).held then
      if (u.part (u.pl n).part).rstBusy then .next u
      else
        let v := u.setPl n { u.pl n with held := true, pend := false, hmark := ((d.cad : Int) - u.haltShift p).toNat }
        .next (if (u.pl n).trap then v.abortPaceline n else v)
    else .next u := rfl

theorem exec_pacelineHold_holds (s : State) (ha : (s.die s.arg.pos).haltAt = some (s.die s.arg.pos).cad) (hh : (s.die s.arg.pos).held = false)
    (ht : (s.pl (s.die s.arg.pos).plid).trap = false) :
    let k := s.arg.pos
    ∃ t, exec .pacelineHold s = .next t ∧ SameMemory s t ∧ (t.die k).held = true ∧ (t.die k).haltAt = none ∧
      (∀ h, h < 8 → (t.hub k h).refused = none) ∧ ((∀ h, h < 8 → (s.hub k h).refused = none) → t.hubs = s.hubs) := by
  intro k
  obtain ⟨hd, hp, hr, hs⟩ := (s.holdDie k).withdrawRefused_leaves k
  have hex : ∃ t, exec .pacelineHold s = .next t ∧ t.memory = ((s.holdDie k).withdrawRefused k).memory ∧
      t.dies = ((s.holdDie k).withdrawRefused k).dies ∧ t.hubs = ((s.holdDie k).withdrawRefused k).hubs := by
    have htrap : (((s.holdDie k).withdrawRefused k).pl (s.die k).plid).trap = false := by
      unfold State.pl
      rw [hp]
      exact ht
    rw [exec_pacelineHold, execPacelineHold_eq, if_neg (by rw [ha, hh]; simp), htrap]
    generalize (s.holdDie k).withdrawRefused k = u
    split
    · split <;> exact ⟨_, rfl, rfl, rfl, rfl⟩
    · exact ⟨_, rfl, rfl, rfl, rfl⟩
  obtain ⟨t, hex, hmem, hdies, hhubs⟩ := hex
  have hk : t.die k = { s.die k with held := true, haltAt := none, standing := false, swallow := 0, gather := false } := by
    unfold State.die
    rw [hdies, hd]
    exact State.setDie_self ..
  have hhub : ∀ h, t.hub k h = ((s.holdDie k).withdrawRefused k).hub k h := fun h => by
    unfold State.hub
    rw [hhubs]
  refine ⟨t, hex, SameMemory.of_eq (by rw [hmem]; simp [State.holdDie]), by rw [hk], by rw [hk], fun h h8 => ?_, fun hn => hhubs.trans (hs hn)⟩
  rw [hhub]
  exact hr h h8

theorem State.clearHalt_leaves (s : State) (n : Nat) :
    (s.clearHalt n).inbox = s.inbox ∧ (s.clearHalt n).hubs = s.hubs ∧ (s.clearHalt n).memory = s.memory ∧
      (s.clearHalt n).pls = s.pls ∧ ∀ m, ((s.clearHalt n).slot m).run = (s.slot m).run := by
  unfold State.clearHalt
  split
  · refine ⟨rfl, rfl, rfl, rfl, fun m => ?_⟩
    rw [State.slot_setSlot]
    split
    · rename_i h
      rw [h]
    · rfl
  · exact ⟨rfl, rfl, rfl, rfl, fun _ => rfl⟩

theorem exec_pacelineRelease_releases (s : State) (hf : (s.pl s.arg.n).formed = true) (hp : (s.pl s.arg.n).part = s.arg.part)
    (hh : (s.pl s.arg.n).held = true) (hr : (s.pl s.arg.n).retrain = false) :
    let n := s.arg.n
    GoesOn .pacelineRelease s fun t => (t.pl n).held = false ∧ (t.pl n).nflt = 0 ∧
      t.inbox.map (·.1) = s.inbox.map (·.1) ++ [.releaseFrameReceive] := by
  intro n
  obtain ⟨hi, hu, hm, -, -⟩ := s.clearHalt_leaves n
  have hex := exec_pacelineRelease s
  unfold execPacelineRelease at hex
  dsimp only at hex
  rw [if_neg (by rw [hf, hp]; simp), if_neg (by rw [hh]; decide), if_neg (by rw [hr]; decide)] at hex
  refine goesOn_of hex hm hu ?_
  have hpl : ((s.clearHalt n).setPl n { s.pl n with held := false, pend := false, nflt := 0, kind := 0, low := none, haltErr := 0 }).pl n =
    { s.pl n with held := false, pend := false, nflt := 0, kind := 0, low := none, haltErr := 0 } := State.setPl_self ..
  refine ⟨congrArg Pl.held hpl, congrArg Pl.nflt hpl, ?_⟩
  rw [List.map_append]
  exact congrArg (fun l => l.map (·.1) ++ [Instr.releaseFrameReceive]) hi

theorem exec_pacelineAbort_aborts (s : State) (hf : (s.pl s.arg.n).formed = true) (hp : (s.pl s.arg.n).part = s.arg.part)
    (hh : (s.pl s.arg.n).held = true) (m : Nat) (r : Run) (hm : (s.pl s.arg.n).slot = some m) (hr : (s.slot m).run = some r) :
    ∃ t, exec .pacelineAbort s = .next t ∧ (t.slot m).qcb.state = 4 ∧ (t.slot m).run = none ∧ SameMemory s t := by
  let v := (s.clearHalt s.arg.n).setPl s.arg.n { s.pl s.arg.n with haltErr := 0 }
  obtain ⟨-, -, hmem, -, hrun⟩ := s.clearHalt_leaves s.arg.n
  have hex := exec_pacelineAbort s
  unfold execPacelineAbort at hex
  dsimp only at hex
  rw [if_neg (by rw [hf, hp]; simp), if_neg (by rw [hh]; decide)] at hex
  have hv : v.abortPaceline s.arg.n = (v.discardLaunch m r).faultSlot m := by
    have hpl : v.pl s.arg.n = { s.pl s.arg.n with haltErr := 0 } := State.setPl_self ..
    have hslot : (v.slot m).run = some r := (hrun m).trans hr
    unfold State.abortPaceline
    rw [hpl]
    dsimp only
    rw [hm]
    dsimp only
    rw [hslot]
  refine ⟨_, hex.trans (congrArg Host.Outcome.next hv), ?_, ?_, SameMemory.of_eq ?_⟩
  · rw [State.slot_faultSlot]
  · rw [State.slot_faultSlot]
  · simp [v, hmem]

theorem exec_paceline_notHeld (s : State) (hf : (s.pl s.arg.n).formed = true) (hp : (s.pl s.arg.n).part = s.arg.part)
    (hh : (s.pl s.arg.n).held = false) :
    exec .pacelineRelease s = .next (s.setPl s.arg.n { s.pl s.arg.n with haltErr := 1 }) ∧
      exec .pacelineAbort s = .next (s.setPl s.arg.n { s.pl s.arg.n with haltErr := 1 }) := by
  constructor
  · rw [exec_pacelineRelease]
    unfold execPacelineRelease
    dsimp only
    rw [if_neg (by rw [hf, hp]; simp), if_pos (by rw [hh]; rfl)]
  · rw [exec_pacelineAbort]
    unfold execPacelineAbort
    dsimp only
    rw [if_neg (by rw [hf, hp]; simp), if_pos (by rw [hh]; rfl)]

theorem exec_releaseFrameReceive_takes (s : State) (hh : (s.die s.arg.pos).held = true) :
    let k := s.arg.pos
    GoesOn .releaseFrameReceive s fun t => (t.die k).release = some (bits s.arg.value.toNat 63 48) := by
  intro k
  have hex := exec_releaseFrameReceive s
  unfold execReleaseFrameReceive at hex
  dsimp only at hex
  rw [if_neg (by rw [hh]; decide)] at hex
  refine goesOn_of hex ?_ ?_ ?_
  · exact foldl_keeps State.memory _ (fun u x => u.setModule_memory ..) _ _
  · refine (foldl_keeps State.hubs _ (fun u x => ?_) _ _).trans rfl
    rfl
  refine (foldl_keeps (fun u : State => (u.die k).release) _ (fun u x => ?_) _ _).trans (congrArg Die.release (State.setDie_self ..))
  unfold State.setModule
  rw [State.setDie_self]

/-! ### Control words of the paceline -/

theorem exec_subminReceive_takes (s : State) : GoesOn .subminReceive s fun t =>
    (SMap.get {} (t.die s.arg.pos).modules s.arg.m).submin = some (s.arg.value.toNat % 2 ^ 32) := by
  refine goesOn_of (exec_subminReceive s) rfl rfl ?_
  unfold State.setModule
  rw [State.setDie_self, SMap.get_put_self]

theorem sextNat_bits (v : Nat) : sextNat (bits v 63 32) 32 = sextNat (v / 2 ^ 32) 32 := by
  unfold sextNat bits
  rw [Nat.mod_mod]

theorem exec_downReceive_takes (s : State) (hm : (s.die s.arg.pos).member = true) (hr : (s.die s.arg.pos).root = false)
    (hp : (s.die s.arg.pos).parent = s.arg.m) :
    let k := s.arg.pos
    let v := s.arg.value.toNat
    GoesOn .downReceive s fun t => (t.die k).gmin = v % 2 ^ 32 ∧
      (t.die k).ahead = wrapInt (sextNat (v / 2 ^ 32) 32 - sextNat (SMap.get {} (s.die k).modules s.arg.m).drift 32) 32 := by
  intro k v
  have hex := exec_downReceive s
  unfold execDownReceive at hex
  dsimp only at hex
  rw [if_pos (by rw [hm, hr, hp]; simp)] at hex
  refine goesOn_of hex rfl rfl ?_
  rw [State.setDie_self, ← sextNat_bits]
  exact ⟨congrArg (· % 2 ^ 32) (Nat.div_one v), rfl⟩

theorem exec_coastReceive_takes (s : State) (c : Nat) (hc : c = s.arg.value.toNat / 2 ^ 60) :
    let k := s.arg.pos
    let d := s.die k
    let mark := d.cad / 2 ^ 48 * 2 ^ 48 + s.arg.value.toNat % 2 ^ 48
    d.member = true → c ≤ 12 → d.cad < mark → (c, mark) ∉ d.coastNext →
      GoesOn .coastReceive s fun t => (t.die k).coastNext = d.coastNext ++ [(c, mark)] ∧ (t.die k).coast = d.coast := by
  intro k d mark hm h12 hlt hn
  have hb : bits s.arg.value.toNat 63 60 = c := by
    unfold bits
    have := s.arg.value.isLt
    omega
  have hex := exec_coastReceive s
  unfold execCoastReceive at hex
  dsimp only at hex
  rw [hb, if_neg (by rw [hm]; simpa using ⟨h12, hn⟩), if_neg (show ¬ s.near48 k s.arg.value.toNat ≤ d.cad from Nat.not_le.2 hlt)] at hex
  have hd : ∀ (u : State) x a, ((u.setDie k x).post k mark 0 0 0 a).die k = x := fun u x a => State.setDie_self ..
  rw [show s.near48 s.arg.pos s.arg.value.toNat = mark from rfl] at hex
  refine goesOn_of hex rfl rfl ?_
  rw [hd]
  exact ⟨rfl, rfl⟩

theorem exec_coastApply_applies (s : State) (x : Nat × Nat)
    (hx : ((s.die s.arg.pos).coastNext.filter fun x => x.2 == (s.die s.arg.pos).cad).getLast? = some x) :
    let k := s.arg.pos
    GoesOn .coastApply s fun t => (t.die k).coast = x.1 ∧ (t.die k).phase = 1 ∧ ∀ y ∈ (t.die k).coastNext, (s.die k).cad < y.2 := by
  intro k
  have hex := exec_coastApply s
  unfold execCoastApply at hex
  dsimp only at hex
  rw [hx] at hex
  refine goesOn_of hex rfl rfl ?_
  rw [State.setDie_self]
  exact ⟨rfl, rfl, fun y hy => of_decide_eq_true (List.mem_filter.1 hy).2⟩


/-! ### Track stands -/

theorem State.arm_arms (s : State) (p m : Nat) (adopt idle : Bool) (hub : Nat) (q : Bool) :
    (s.arm p m adopt idle hub q).hubs = s.hubs ∧ ((s.arm p m adopt idle hub q).die p).armed = true ∧
      ((s.arm p m adopt idle hub q).die p).adopt = adopt ∧ ((s.arm p m adopt idle hub q).die p).idle = idle ∧
      ((s.arm p m adopt idle hub q).die p).standM = m := by
  have hd : ∀ (u : State) (x : Die), ((u.setDie p x).announce p m).die p = x := fun u x => by
    obtain ⟨-, -, -, -, -, -, -, -, -, -, -, hd, -⟩ := (u.setDie p x).announce_frame p m
    unfold State.die
    rw [hd]
    exact State.setDie_self ..
  have hh : ∀ (u : State) (x : Die), ((u.setDie p x).announce p m).hubs = u.hubs := fun u x => by
    obtain ⟨-, -, -, -, -, -, -, -, -, -, -, -, hh, -⟩ := (u.setDie p x).announce_frame p m
    exact hh
  unfold State.arm
  dsimp only
  rw [hd, hh]
  exact ⟨rfl, rfl, rfl, rfl, rfl⟩

/-- A neighbour's mark, as the module that faces it shows it (R57). -/
def State.seeMark (s : State) (p j m : Nat) : State :=
  s.setDie p { s.die p with modules := SMap.put (s.die p).modules j { SMap.get {} (s.die p).modules j with nbrV := true, nbrMark := m % 2 ^ 32 } }

/-- The mark at or after the present one that the low bits of an announced mark name. -/
theorem announced_mark (now m : Nat) (hlt : now < m) (hup : m < now / 2 ^ 32 * 2 ^ 32 + 2 ^ 32) :
    (if now < now / 2 ^ 32 * 2 ^ 32 + m % 2 ^ 32 then now / 2 ^ 32 * 2 ^ 32 + m % 2 ^ 32
      else now / 2 ^ 32 * 2 ^ 32 + m % 2 ^ 32 + 2 ^ 32) = m := by
  have h : now / 2 ^ 32 * 2 ^ 32 + m % 2 ^ 32 = m := by omega
  rw [h, if_pos hlt]

theorem execStandAdoption_eq (s : State) : execStandAdoption s =
    let p := s.arg.pos
    let m := s.arg.value.toNat
    let d := s.die p
    let u := s.seeMark p s.arg.m m
    let mark := if u.markOf p < u.markOf p / 2 ^ 32 * 2 ^ 32 + m % 2 ^ 32 then u.markOf p / 2 ^ 32 * 2 ^ 32 + m % 2 ^ 32
      else u.markOf p / 2 ^ 32 * 2 ^ 32 + m % 2 ^ 32 + 2 ^ 32
    if !d.member then .next u
    else if d.armed then (if d.adopt && d.standM % 2 ^ 32 != m % 2 ^ 32 then .next (u.dieFault p 0x06 5 s.arg.m) else .next u)
    else if (u.pl d.plid).slot.isSome && (u.launchHubs p).isEmpty then .next (u.arm p mark true false 0 false)
    else .next u := rfl

theorem exec_standAdoption_arms (s : State) (v : Nat) (hm : (s.die s.arg.pos).member = true) (ha : (s.die s.arg.pos).armed = false)
    (hv : (s.pl (s.die s.arg.pos).plid).slot = some v) (hl : s.launchHubs s.arg.pos = []) (hlt : s.markOf s.arg.pos < s.arg.value.toNat)
    (hup : s.arg.value.toNat < s.markOf s.arg.pos / 2 ^ 32 * 2 ^ 32 + 2 ^ 32) :
    GoesOn .standAdoption s fun t => (t.die s.arg.pos).armed = true ∧ (t.die s.arg.pos).adopt = true ∧
      (t.die s.arg.pos).standM = s.arg.value.toNat := by
  let u := s.seeMark s.arg.pos s.arg.m s.arg.value.toNat
  have hu : u.die s.arg.pos = { s.die s.arg.pos with modules := (u.die s.arg.pos).modules } := by
    unfold u State.seeMark
    rw [State.setDie_self]
  have hmark : u.markOf s.arg.pos = s.markOf s.arg.pos := by
    unfold State.markOf
    rw [hu]
    rfl
  have hhubs : u.launchHubs s.arg.pos = [] := by
    rw [← hl]
    unfold State.launchHubs
    rw [hu]
    rfl
  have hslot : (u.pl (s.die s.arg.pos).plid).slot = some v := hv
  have hex : exec .standAdoption s = .next (u.arm s.arg.pos s.arg.value.toNat true false 0 false) := by
    have hsome : ((u.pl (s.die s.arg.pos).plid).slot.isSome && ([] : List Nat).isEmpty) = true := by rw [hslot]; rfl
    rw [exec_standAdoption, execStandAdoption_eq]
    dsimp only
    rw [hmark, announced_mark _ _ hlt hup, if_neg (by rw [hm]; decide), if_neg (by rw [ha]; decide), hhubs, if_pos hsome]
  obtain ⟨hh, h1, h2, -, h3⟩ := u.arm_arms s.arg.pos s.arg.value.toNat true false 0 false
  exact goesOn_of hex ((State.arm_memory ..).trans rfl) hh ⟨h1, h2, h3⟩

theorem exec_standLeadCheck_goesOn (s : State) (hh : ∀ h ∈ s.launchHubs s.arg.pos, (s.die s.arg.pos).standHubs.testBit h = true) :
    exec .standLeadCheck s = .next s := by
  rw [exec_standLeadCheck]
  unfold execStandLeadCheck
  dsimp only
  rw [if_neg]
  rw [List.all_eq_true.2 hh, Bool.not_true, Bool.and_false]
  exact Bool.false_ne_true

theorem exec_standHold_holds (s : State) (ha : (s.die s.arg.pos).armed = true) (hc : (s.die s.arg.pos).cad = (s.die s.arg.pos).standAt)
    (hs : (s.die s.arg.pos).standing = false) (hh : (s.die s.arg.pos).haltAt = none) (hn : s.standNeighbours s.arg.pos = [])
    (hq : s.quietStand (s.die s.arg.pos).plid = false) :
    let d := s.die s.arg.pos
    GoesOn .standHold s fun t => (t.die s.arg.pos).standing = true ∧ (t.die s.arg.pos).swallow = swallowed d.lag d.tk d.coast ∧
      (t.die s.arg.pos).gather = false := by
  intro d
  have hex : ∃ (u : State) (x : Die), exec .standHold s = .next u ∧ u.memory = s.memory ∧ u.hubs = s.hubs ∧ u.die s.arg.pos = x ∧
      x = { d with standing := true, swallow := swallowed d.lag d.tk d.coast, gather := false, quiet := s.quietDie s.arg.pos } := by
    rw [exec_standHold]
    unfold execStandHold
    dsimp only
    rw [if_neg (by rw [ha, hs, hc]; simp), hn, List.foldl_nil, hh, if_neg (by simp), hq, if_neg Bool.false_ne_true]
    split <;> exact ⟨_, _, rfl, rfl, rfl, State.setDie_self .., rfl⟩
  obtain ⟨u, x, hex, hm, hu, hx, he⟩ := hex
  refine goesOn_of hex hm hu ?_
  rw [hx, he]
  exact ⟨rfl, rfl, rfl⟩

theorem exec_standResume_leaves (s : State) (h1 : (s.die s.arg.pos).standing = true) (h2 : (s.die s.arg.pos).swallow = 0)
    (h3 : (s.die s.arg.pos).gather = false) :
    let d := s.die s.arg.pos
    GoesOn .standResume s fun t => (t.die s.arg.pos).standing = false ∧ (t.die s.arg.pos).armed = false ∧
      (t.die s.arg.pos).standM = d.standM ∧ (t.die s.arg.pos).lastStand = d.cad ∧ (t.die s.arg.pos).cad = d.cad := by
  intro d
  have hex := exec_standResume s
  unfold execStandResume at hex
  dsimp only at hex
  rw [if_pos (by rw [h1, h2, h3]; rfl)] at hex
  refine goesOn_of hex rfl rfl ?_
  rw [State.setDie_self]
  exact ⟨rfl, rfl, rfl, rfl, rfl⟩

theorem exec_idleStandArm_arms (s : State) :
    let d := s.die s.arg.pos
    let m := (d.cad / 16384 + 1) * 16384
    d.member = true → (s.pl d.plid).formed = true → d.armed = false → m ≤ d.cad + 128 → (s.pl d.plid).idleFrom ≤ m →
      (s.pl d.plid).slot = none ∨ m ≤ (s.pl d.plid).idleTo →
      GoesOn .idleStandArm s fun t => (t.die s.arg.pos).armed = true ∧ (t.die s.arg.pos).idle = true ∧ (t.die s.arg.pos).standM = m ∧
        (t.die s.arg.pos).standM % 16384 = 0 ∧ d.cad < (t.die s.arg.pos).standM := by
  intro d m h1 h2 h3 h4 h5 h6
  have hdue : s.idleDue s.arg.pos = some m := by
    have h6' : ((s.pl d.plid).slot.isNone || decide (m ≤ (s.pl d.plid).idleTo)) = true := by
      rcases h6 with h | h
      · rw [h]; rfl
      · rw [decide_eq_true h, Bool.or_true]
    unfold State.idleDue
    dsimp only
    rw [if_pos]
    · rw [show (s.die s.arg.pos).member = true from h1, show (s.pl (s.die s.arg.pos).plid).formed = true from h2,
        show (s.die s.arg.pos).armed = false from h3]
      exact Bool.and_eq_true_iff.2 ⟨Bool.and_eq_true_iff.2 ⟨Bool.and_eq_true_iff.2 ⟨rfl, decide_eq_true h4⟩, decide_eq_true h5⟩, h6'⟩
  have hex := exec_idleStandArm s
  unfold execIdleStandArm at hex
  rw [hdue] at hex
  obtain ⟨hh, e1, -, e2, e3⟩ := s.arm_arms s.arg.pos m false true 0 false
  refine goesOn_of hex (State.arm_memory ..) hh ?_
  rw [e1, e2, e3]
  exact ⟨rfl, rfl, rfl, Nat.mul_mod_left .., by omega⟩

/-- Settles O48: each event of the forming, the halt, the release and the stands by its own lemma. -/
theorem pacelines : Obligations.Pacelines := by
  unfold Obligations.Pacelines
  refine ⟨fun s => ?_, fun s => ?_⟩
  · intro n l k d v mark halt goes
    exact ⟨exec_pacelineForm_begins s, exec_pacelineForm_chooses s, exec_pacelineForm_enrols s, exec_pacelineForm_ends s,
      exec_pacelineDissolve_dissolves s, exec_haltFrameReceive_takes s, exec_pacelineHold_holds s,
      fun hf hp hh => ⟨exec_pacelineRelease_releases s hf hp hh, exec_pacelineAbort_aborts s hf hp hh⟩, exec_paceline_notHeld s,
      exec_releaseFrameReceive_takes s, exec_subminReceive_takes s, exec_downReceive_takes s, exec_coastReceive_takes s,
      exec_coastApply_applies s⟩
  · intro k d goes
    exact ⟨exec_standAdoption_arms s, exec_standLeadCheck_goesOn s, exec_standHold_holds s, exec_standResume_leaves s,
      exec_idleStandArm_arms s⟩

end Sys2Proof.Machine
end

section
/-! SUPPORT. Die-to-die links. -/

namespace Sys2Proof.Machine

open Sys2Proof

/-! ### What the frames of a pulse read -/

/-- The part of a state that a control word or a counted beat on its way leaves alone. -/
def State.linkState (s : State) : SMap Die × List Beat × SMap Pkt × Dev × SMap Hub := (s.dies, s.beats, s.net, s.dev, s.hubs)

/-- The part of a die, and of the beats and packets about it, that its frames are made of, its modules apart. -/
def State.dieView (s : State) (p : Nat) : (List Beat × SMap Pkt × Dev × SMap Hub) × (Nat × Bool × Nat × Bool) × Bool × Nat :=
  ((s.beats, s.net, s.dev, s.hubs), ((s.die p).cad, (s.die p).gap, (s.die p).sub, (s.die p).still), (s.die p).armed, (s.die p).standM)

theorem State.die_of_link {s t : State} (h : t.linkState = s.linkState) (p : Nat) : t.die p = s.die p := by
  have hd : t.dies = s.dies := congrArg Prod.fst h
  unfold State.die
  rw [hd]

theorem State.module_of_link {s t : State} (h : t.linkState = s.linkState) (p m : Nat) : t.module p m = s.module p m := by
  unfold State.module
  rw [State.die_of_link h]

theorem State.dieView_of_link {s t : State} (h : t.linkState = s.linkState) (p : Nat) : t.dieView p = s.dieView p := by
  unfold State.dieView
  rw [State.die_of_link h]
  exact congrArg (fun x => (x, _)) (congrArg Prod.snd h)

theorem State.module_setModule (s : State) (p m j : Nat) (x : Module) : (s.setModule p m x).module p j = if j = m then x else s.module p j := by
  unfold State.module State.setModule
  rw [State.setDie_self, SMap.get_put]

theorem State.dieView_setModule (s : State) (p m : Nat) (x : Module) : (s.setModule p m x).dieView p = s.dieView p := by
  unfold State.dieView State.setModule
  rw [State.setDie_self]
  rfl

theorem State.linkState_sendWord (s : State) (p m c d : Nat) : (s.sendWord p m c d).linkState = s.linkState := by
  unfold State.sendWord
  dsimp only
  split
  · split <;> rfl
  · rfl

theorem State.linkState_sendScheduled (s : State) (p m : Nat) : (s.sendScheduled p m).linkState = s.linkState := by
  unfold State.sendScheduled
  dsimp only
  split
  · unfold State.sendSample
    split <;> rfl
  · exact State.linkState_sendWord ..

theorem State.linkState_beatOut (s : State) (p m : Nat) (b : OutBeat) : (s.beatOut p m b).linkState = s.linkState := by
  unfold State.beatOut
  split <;> rfl

theorem State.freeSlots_of_view {s t : State} {p : Nat} (h : t.dieView p = s.dieView p) (m : Nat) : t.freeSlots p m = s.freeSlots p m := by
  simp only [State.dieView, Prod.mk.injEq] at h
  obtain ⟨⟨hb, -, -, -⟩, ⟨hc, hg, hs, -⟩, -, -⟩ := h
  unfold State.freeSlots State.claimed
  dsimp only
  rw [hb, hc, hg, hs]

/-! ### One frame -/

theorem State.sendRiding_leaves (s : State) (p m : Nat) :
    (s.sendRiding p m).dieView p = s.dieView p ∧ (∀ j, j ≠ m → (s.sendRiding p m).module p j = s.module p j) ∧
      ∃ q, (s.sendRiding p m).module p m = { s.module p m with ctlq := q } := by
  unfold State.sendRiding
  split
  · exact ⟨rfl, fun _ _ => rfl, _, rfl⟩
  · dsimp only
    refine ⟨(State.dieView_of_link (State.linkState_sendWord ..) p).trans (State.dieView_setModule ..), fun j hj => ?_, ?_⟩
    · rw [State.module_of_link (State.linkState_sendWord ..), State.module_setModule, if_neg hj]
    · rw [State.module_of_link (State.linkState_sendWord ..), State.module_setModule, if_pos rfl]
      exact ⟨_, rfl⟩

theorem State.sendCounted_leaves (s : State) (p m : Nat) :
    (s.sendCounted p m).dieView p = s.dieView p ∧ (∀ j, j ≠ m → (s.sendCounted p m).module p j = s.module p j) ∧
      (s.sendCounted p m).module p m = { s.module p m with outq := (s.module p m).outq.drop (s.freeSlots p m).length } := by
  have hlink : ∀ (l : List OutBeat) (u : State), (l.foldl (fun (s : State) b => s.beatOut p m b) u).linkState = u.linkState := fun l u =>
    foldl_keeps State.linkState _ (fun u b => u.linkState_beatOut p m b) l u
  unfold State.sendCounted
  dsimp only
  refine ⟨(State.dieView_of_link (hlink _ _) p).trans (State.dieView_setModule ..), fun j hj => ?_, ?_⟩
  · rw [State.module_of_link (hlink _ _), State.module_setModule, if_neg hj]
  · rw [State.module_of_link (hlink _ _), State.module_setModule, if_pos rfl]

/-- A frame of a die changes no other module, takes the beats of the free slots, and is what the module then shows as sent. -/
theorem State.sendFrame_leaves (s : State) (p m : Nat) :
    (s.sendFrame p m).dieView p = s.dieView p ∧ (∀ j, j ≠ m → (s.sendFrame p m).module p j = s.module p j) ∧
      ((s.sendFrame p m).module p m).outq = (s.module p m).outq.drop (s.freeSlots p m).length ∧
      ((s.sendFrame p m).module p m).tx = s.frameOf p m := by
  unfold State.sendFrame
  extract_lets src u v
  have hv : v.linkState = u.linkState := by
    unfold v
    split
    · exact State.linkState_sendScheduled ..
    · rfl
  have hu : u.dieView p = s.dieView p := State.dieView_setModule ..
  have hum : u.module p m = { s.module p m with tx := s.frameOf p m } := (State.module_setModule ..).trans (if_pos rfl)
  obtain ⟨hr, hrj, q, hrm⟩ := v.sendRiding_leaves p m
  obtain ⟨hc, hcj, hcm⟩ := (v.sendRiding p m).sendCounted_leaves p m
  have hview : (v.sendRiding p m).dieView p = s.dieView p := hr.trans ((State.dieView_of_link hv p).trans hu)
  refine ⟨hc.trans hview, fun j hj => ?_, ?_, ?_⟩
  · rw [hcj j hj, hrj j hj, State.module_of_link hv]
    exact (State.module_setModule ..).trans (if_neg hj)
  · rw [hcm, State.freeSlots_of_view hview, hrm, State.module_of_link hv, hum]
  · rw [hcm, hrm, State.module_of_link hv, hum]

/-- The frame of a die that sends no schedule frame is made of what it and the module hold. -/
theorem State.frameOf_of_view {s t : State} {p m : Nat} (h : t.dieView p = s.dieView p) (hm : t.module p m = s.module p m)
    (hs : (s.die p).still = true) : t.frameOf p m = s.frameOf p m := by
  have hfree := State.freeSlots_of_view h m
  simp only [State.dieView, Prod.mk.injEq] at h
  obtain ⟨⟨hb, hn, hdev, -⟩, ⟨hc, hg, hsub, hst⟩, ha, hsm⟩ := h
  have hclaim : ∀ x, t.claimed p m x = s.claimed p m x := fun x => by
    unfold State.claimed
    dsimp only
    rw [hb, hc, hg, hsub]
  have hheads : (s.die p).heads = false := by unfold Die.heads; rw [hs]; rfl
  have hheadt : (t.die p).heads = false := by unfold Die.heads; rw [hst, hs]; rfl
  have hrides : t.rides p m = s.rides p m := by
    unfold State.rides
    dsimp only
    rw [hheads, hheadt, hm]
    rfl
  have hword : t.wordOf p m = s.wordOf p m := by
    unfold State.wordOf
    rw [hrides, hm, hheads, hheadt]
    rfl
  have hbytes : ∀ b, t.beatBytes p m b = s.beatBytes p m b := fun b => by
    have hact : t.actingH = s.actingH := by unfold State.actingH State.kind State.good; rw [hdev]
    unfold State.beatBytes State.beatBits
    rw [hn, hm, hact]
  have hslot : ∀ x, t.slotBytes p m x = s.slotBytes p m x := fun x => by
    unfold State.slotBytes
    dsimp only
    simp only [hclaim, hb, hc, hsub, hm, hfree, hbytes]
  unfold State.frameOf State.frameHeader
  dsimp only
  simp only [hslot, hclaim, hfree, hm, hword, hb, hc, hg, hsub, ha, hsm]

/-! ### The frames of a pulse -/

theorem State.mem_links {s : State} {p : Nat} {x : Nat × Nat × Nat} (h : x ∈ s.links p) : Config.wire p x.1 = some x.2 := by
  obtain ⟨m, -, hm⟩ := List.mem_filterMap.1 h
  split at hm
  · rename_i q k hw
    split at hm
    · cases hm
      exact hw
    · cases hm
  · cases hm

theorem map_fst_filterMap_sublist {β : Type} (f : Nat → Option (Nat × β)) (h : ∀ m x, f m = some x → x.1 = m) (l : List Nat) :
    ((l.filterMap f).map (·.1)).Sublist l := by
  induction l with
  | nil => exact List.Sublist.slnil
  | cons m r ih =>
    rw [List.filterMap_cons]
    split
    · exact ih.cons m
    · rename_i x hx
      rw [List.map_cons, h m x hx]
      exact ih.cons_cons m

theorem State.links_nodup (s : State) (p : Nat) : ((s.links p).map (·.1)).Nodup := by
  refine (map_fst_filterMap_sublist _ (fun m x hm => ?_) (List.range 12)).nodup List.nodup_range
  split at hm
  · split at hm
    · cases hm
      rfl
    · cases hm
  · cases hm

theorem State.sendFrames_leave (p : Nat) (l : List (Nat × Nat × Nat)) (hl : (l.map (·.1)).Nodup) (s : State) :
    let t := l.foldl (fun (s : State) x => s.sendFrame p x.1) s
    t.dieView p = s.dieView p ∧ (∀ j, j ∉ l.map (·.1) → t.module p j = s.module p j) ∧
      ∀ x ∈ l, (t.module p x.1).outq = (s.module p x.1).outq.drop (s.freeSlots p x.1).length ∧
        ((s.die p).still = true → (t.module p x.1).tx = s.frameOf p x.1) := by
  induction l generalizing s with
  | nil => exact ⟨rfl, fun _ _ => rfl, fun x hx => absurd hx List.not_mem_nil⟩
  | cons y r ih =>
    obtain ⟨hy, hr⟩ := List.nodup_cons.1 hl
    obtain ⟨hv, hj, hq, htx⟩ := s.sendFrame_leaves p y.1
    obtain ⟨ihv, ihj, ihx⟩ := ih hr (s.sendFrame p y.1)
    rw [List.foldl_cons]
    refine ⟨ihv.trans hv, fun j hn => ?_, fun x hx => ?_⟩
    · rw [List.map_cons, List.mem_cons, not_or] at hn
      rw [ihj j hn.2, hj j hn.1]
    · rcases List.mem_cons.1 hx with rfl | hx
      · rw [ihj _ hy]
        exact ⟨hq, fun _ => htx⟩
      · have hne : x.1 ≠ y.1 := fun e => hy (show y.1 ∈ _ by rw [← e]; exact List.mem_map_of_mem (f := fun x : Nat × Nat × Nat => x.1) hx)
        obtain ⟨h1, h2⟩ := ihx x hx
        have hst : ((s.sendFrame p y.1).die p).still = (s.die p).still := congrArg (fun v => v.2.1.2.2.2) hv
        refine ⟨by rw [h1, hj _ hne, State.freeSlots_of_view hv], fun hs => ?_⟩
        rw [h2 (hst.trans hs), State.frameOf_of_view hv (hj _ hne) hs]

theorem State.paceRound_leaves (s : State) (p : Nat) : (s.paceRound p).dieView p = s.dieView p ∧
    (∀ j, (s.paceRound p).module p j = s.module p j) ∧ ((s.die p).cad % 256 = 0 → s.paceRound p = s) := by
  unfold State.paceRound
  dsimp only
  split
  · exact ⟨rfl, fun _ => rfl, fun _ => rfl⟩
  · split
    · refine ⟨?_, fun j => ?_, fun h => ?_⟩
      · unfold State.dieView
        rw [State.setDie_self]
        rfl
      · unfold State.module
        rw [State.setDie_self]
      · omega
    · split
      · refine ⟨?_, fun j => ?_, fun h => ?_⟩
        · unfold State.dieView
          rw [State.setDie_self]
          rfl
        · unfold State.module
          rw [State.setDie_self]
        · omega
      · exact ⟨rfl, fun _ => rfl, fun _ => rfl⟩

/-- A frame that carries SAMPLE lists its receipt, and nothing else. -/
theorem State.agenda_sendFrame (s : State) (p m : Nat) (x : Nat × Nat) (hw : Config.wire p m = some x) (hh : (s.die p).heads = true)
    (hc : (s.die p).cad % 256 = 0) : (s.sendFrame p m).agenda.length = s.agenda.length + 1 := by
  have hout : ∀ (l : List OutBeat) (u : State), (l.foldl (fun (s : State) b => s.beatOut p m b) u).agenda = u.agenda := fun l u =>
    foldl_keeps State.agenda _ (fun u b => by unfold State.beatOut; split <;> rfl) l u
  have hu : ((s.setModule p m { s.module p m with tx := s.frameOf p m }).die p).heads = true := by
    unfold State.setModule
    rw [State.setDie_self]
    exact hh
  have hcu : ((s.setModule p m { s.module p m with tx := s.frameOf p m }).die p).cad % 256 = 0 := by
    unfold State.setModule
    rw [State.setDie_self]
    exact hc
  unfold State.sendFrame
  extract_lets src u v
  have hword : ∀ w : State, w.linkState = u.linkState → (w.ctlWord p m).1 = ctSample := fun w hw => by
    unfold State.ctlWord
    dsimp only
    rw [State.die_of_link hw, if_pos hcu]
  have hv : v.linkState = u.linkState ∧ v.agenda.length = u.agenda.length + 1 := by
    unfold v
    rw [if_pos hu]
    refine ⟨State.linkState_sendScheduled .., ?_⟩
    unfold State.sendScheduled
    dsimp only
    rw [if_pos (hword u rfl)]
    unfold State.sendSample
    rw [hw]
    rfl
  have hride : v.sendRiding p m = v := by
    have hnone : v.rides p m = none := by
      unfold State.rides
      dsimp only
      rw [State.die_of_link hv.1, hword v hv.1, hu]
      rfl
    unfold State.sendRiding
    rw [hnone]
  rw [hride]
  unfold State.sendCounted
  dsimp only
  rw [hout]
  exact hv.2

theorem State.agenda_sendFrames (p : Nat) (l : List (Nat × Nat × Nat)) (hw : ∀ x ∈ l, Config.wire p x.1 = some x.2) (s : State)
    (hh : (s.die p).heads = true) (hc : (s.die p).cad % 256 = 0) :
    (l.foldl (fun (s : State) x => s.sendFrame p x.1) s).agenda.length = s.agenda.length + l.length := by
  induction l generalizing s with
  | nil => rfl
  | cons y r ih =>
    obtain ⟨hv, -⟩ := s.sendFrame_leaves p y.1
    have hh' : ((s.sendFrame p y.1).die p).heads = true := by
      rw [← hh]
      unfold Die.heads
      rw [show ((s.sendFrame p y.1).die p).still = _ from congrArg (fun v => v.2.1.2.2.2) hv,
        show ((s.sendFrame p y.1).die p).sub = _ from congrArg (fun v => v.2.1.2.2.1) hv]
      rfl
    have hc' : ((s.sendFrame p y.1).die p).cad % 256 = 0 := by
      rw [show ((s.sendFrame p y.1).die p).cad = _ from congrArg (fun v => v.2.1.1) hv]
      exact hc
    rw [List.foldl_cons, ih (fun x hx => hw x (List.mem_cons_of_mem _ hx)) _ hh' hc',
      s.agenda_sendFrame p y.1 y.2 (hw y List.mem_cons_self) hh hc, List.length_cons]
    omega

/-- A state from which a die sends its frames, as FRAME_TRANSMIT finds it. -/
def State.paced (s : State) : State := if (s.die s.arg.pos).heads then s.paceRound s.arg.pos else s

theorem State.paced_leaves (s : State) : s.paced.dieView s.arg.pos = s.dieView s.arg.pos ∧
    ∀ j, s.paced.module s.arg.pos j = s.module s.arg.pos j := by
  unfold State.paced
  split
  · exact ⟨(s.paceRound_leaves _).1, (s.paceRound_leaves _).2.1⟩
  · exact ⟨rfl, fun _ => rfl⟩

theorem exec_frameTransmit_eq (s : State) : exec .frameTransmit s =
    .next ((s.paced.links s.arg.pos).foldl (fun (u : State) x => u.sendFrame s.arg.pos x.1) s.paced) := by
  rw [exec_frameTransmit]
  rfl

theorem State.links_paced (s : State) : s.paced.links s.arg.pos = s.links s.arg.pos := by
  have h : ∀ m, SMap.get {} (s.paced.die s.arg.pos).modules m = SMap.get {} (s.die s.arg.pos).modules m := s.paced_leaves.2
  unfold State.links
  simp only [h]

theorem State.hubs_of_view {s t : State} {p : Nat} (h : t.dieView p = s.dieView p) : t.hubs = s.hubs := congrArg (fun v => v.1.2.2.2) h

theorem exec_frameTransmit_sends (s : State) :
    let k := s.arg.pos
    GoesOn .frameTransmit s fun t =>
      (∀ x ∈ s.links k, (t.module k x.1).outq = (s.module k x.1).outq.drop (s.freeSlots k x.1).length) ∧
      ((s.die k).still = true → ∀ x ∈ s.links k, (t.module k x.1).tx = s.frameOf k x.1) ∧
      ((s.die k).still = false → (s.die k).sub = 0 → (s.die k).cad % 256 = 0 →
        t.agenda.length = s.agenda.length + (s.links k).length) := by
  intro k
  obtain ⟨hv, hm⟩ := s.paced_leaves
  obtain ⟨hfv, -, hx⟩ := State.sendFrames_leave k (s.links k) (s.links_nodup k) s.paced
  have hst : (s.paced.die k).still = (s.die k).still := congrArg (fun v => v.2.1.2.2.2) hv
  have hmem : s.paced.memory = s.memory := by
    unfold State.paced
    split
    · exact s.paceRound_memory _
    · rfl
  have hex := exec_frameTransmit_eq s
  rw [s.links_paced] at hex
  refine goesOn_of hex ((foldl_keeps State.memory _ (fun u x => u.sendFrame_memory _ _) _ _).trans hmem)
    ((State.hubs_of_view hfv).trans (State.hubs_of_view hv)) ⟨fun x hl => ?_, fun hs x hl => ?_, fun hs h0 hc => ?_⟩
  · rw [(hx x hl).1, hm, State.freeSlots_of_view hv]
  · rw [(hx x hl).2 (hst.trans hs), State.frameOf_of_view hv (hm x.1) hs]
  · have hheads : (s.die k).heads = true := by unfold Die.heads; rw [hs, h0]; rfl
    have hp : s.paced = s := by
      unfold State.paced
      rw [if_pos hheads]
      exact (s.paceRound_leaves k).2.2 hc
    rw [hp]
    exact State.agenda_sendFrames k (s.links k) (fun x hl => State.mem_links hl) s hheads hc

/-! ### Training, samples and counted beats -/

theorem State.module_setModule_at (s : State) (p m q j : Nat) (x : Module) :
    (s.setModule p m x).module q j = if q = p ∧ j = m then x else s.module q j := by
  by_cases h : q = p
  · rw [h, State.module_setModule]
    simp
  · rw [if_neg (fun c => h c.1)]
    unfold State.module State.setModule
    rw [State.die_setDie, if_neg h]

theorem State.expSeq_setModule (s : State) (p m q j : Nat) (x : Module) (h : x.expSeq = (s.module p m).expSeq) :
    ((s.setModule p m x).module q j).expSeq = (s.module q j).expSeq := by
  rw [State.module_setModule_at]
  split
  · rename_i e
    rw [e.1, e.2, h]
  · rfl

theorem State.expSeq_returnAck (s : State) (p m q j : Nat) : ((s.returnAck p m).module q j).expSeq = (s.module q j).expSeq := by
  unfold State.returnAck
  dsimp only
  split
  · exact s.expSeq_setModule p m q j _ rfl
  · rfl

theorem State.expSeq_sendOn (s : State) (p m id q j : Nat) : ((s.sendOn p m id).module q j).expSeq = (s.module q j).expSeq := by
  have htimer : ∀ u : State, ((u.startTimer p m).module q j).expSeq = (u.module q j).expSeq := fun u => by
    unfold State.startTimer
    dsimp only
    split
    · rfl
    · exact u.expSeq_setModule p m q j _ rfl
  unfold State.sendOn
  dsimp only
  rw [htimer]
  exact s.expSeq_setModule p m q j _ rfl

theorem State.expSeq_forward (s : State) (p id q j : Nat) : ((s.forward p id).module q j).expSeq = (s.module q j).expSeq := by
  unfold State.forward
  split
  · rfl
  · extract_lets dst
    split
    · split <;> rfl
    · split
      · exact s.expSeq_sendOn ..
      · rfl

theorem exec_linkTrainingDone_trains (s : State) (q j : Nat) (hw : Config.wire s.arg.pos s.arg.m = some (q, j)) :
    let k := s.arg.pos
    let m := s.arg.m
    GoesOn .linkTrainingDone s fun t => (t.module k m).up = (s.alive k && s.alive q) ∧ (t.module q j).up = (s.alive k && s.alive q) := by
  intro k m
  have hex := exec_linkTrainingDone s
  unfold execLinkTrainingDone at hex
  dsimp only at hex
  rw [hw] at hex
  dsimp only at hex
  refine goesOn_of hex rfl rfl ⟨?_, ?_⟩
  · refine (congrArg Module.up (State.module_setModule_at ..)).trans ?_
    split
    · rfl
    · exact congrArg Module.up ((State.module_setModule ..).trans (if_pos rfl))
  · exact congrArg Module.up ((State.module_setModule ..).trans (if_pos rfl))

theorem exec_timedBeatDelivery_drops (s : State) (b : Beat) (hb : s.beat s.arg.n = some b) (hh : b.hop + 1 ≥ b.hops.length) (hs : b.stream = true) :
    GoesOn .timedBeatDelivery s fun t => t.beat s.arg.n = none := by
  have hex := exec_timedBeatDelivery s
  unfold execTimedBeatDelivery at hex
  rw [hb] at hex
  dsimp only at hex
  rw [if_neg (Nat.not_lt.2 hh), if_pos hs] at hex
  have hid : b.id = s.arg.n := by simpa using List.find?_some hb
  refine goesOn_of hex rfl rfl (List.find?_eq_none.2 fun x hx => ?_)
  have := of_decide_eq_true (List.mem_filter.1 hx).2
  rw [hid] at this
  simpa using this

theorem State.hubs_returnAck (s : State) (p m : Nat) : (s.returnAck p m).hubs = s.hubs := by
  unfold State.returnAck
  dsimp only
  split <;> rfl

theorem exec_countedBeatReceive_takes (s : State) (hok : s.arg.ok = true)
    (hs : (beatHeaderOf s.arg.value.toNat).seq = (s.module s.arg.pos s.arg.m).expSeq) :
    GoesOn .countedBeatReceive s fun t => (t.module s.arg.pos s.arg.m).expSeq = ((s.module s.arg.pos s.arg.m).expSeq + 1) % 4096 := by
  have hack : ((s.module s.arg.pos s.arg.m).takeAck (beatHeaderOf s.arg.value.toNat).ack s.cy).expSeq =
    (s.module s.arg.pos s.arg.m).expSeq := rfl
  have hex := exec_countedBeatReceive s
  unfold execCountedBeatReceive at hex
  extract_lets p m h k u v at hex
  rw [if_pos (by rw [show (s.setModule p m k).arg.ok = true from hok, hack, hs]; simp)] at hex
  have hv : (v.module p m).expSeq = ((s.module p m).expSeq + 1) % 4096 :=
    (State.expSeq_returnAck ..).trans (congrArg Module.expSeq ((State.module_setModule ..).trans (if_pos rfl)))
  have hvm : v.memory = s.memory := by simp [v, u]
  have hvh : v.hubs = s.hubs := State.hubs_returnAck ..
  obtain ⟨-, -, -, -, -, -, -, -, -, -, hfh, -⟩ := v.forward_frame p v.arg.team
  refine goesOn_of hex ?_ ?_ ?_
  · split
    · exact (v.forward_memory ..).trans hvm
    · exact hvm
  · split
    · exact hfh.trans hvh
    · exact hvh
  · split
    · exact (v.expSeq_forward ..).trans hv
    · exact hv

theorem exec_countedBeatReceive_drops (s : State)
    (h : s.arg.ok = false ∨ (beatHeaderOf s.arg.value.toNat).seq ≠ (s.module s.arg.pos s.arg.m).expSeq) :
    GoesOn .countedBeatReceive s fun t => (t.module s.arg.pos s.arg.m).expSeq = (s.module s.arg.pos s.arg.m).expSeq := by
  have hex := exec_countedBeatReceive s
  unfold execCountedBeatReceive at hex
  extract_lets p m b k u v at hex
  have hu : (u.module p m).expSeq = (s.module p m).expSeq := s.expSeq_setModule p m p m k rfl
  rw [if_neg (fun hc => ?_)] at hex
  · split at hex
    · exact goesOn_of hex (u.returnAck_memory p m) (u.hubs_returnAck p m) ((u.expSeq_returnAck ..).trans hu)
    · exact goesOn_of hex rfl rfl hu
  · obtain ⟨h1, h2⟩ := Bool.and_eq_true_iff.1 hc
    rcases h with h | h
    · exact absurd (h.symm.trans h1) Bool.false_ne_true
    · exact h (of_decide_eq_true h2)

theorem exec_countedRetryTimeout_resends (s : State) (hr : (s.module s.arg.pos s.arg.m).replay ≠ [])
    (hp : (s.module s.arg.pos s.arg.m).prog + 64 ≤ s.cy) :
    GoesOn .countedRetryTimeout s fun t => (t.module s.arg.pos s.arg.m).outq = (s.module s.arg.pos s.arg.m).replay ∧
      (s.cy + 64, Instr.countedRetryTimeout, ({ pos := s.arg.pos, m := s.arg.m } : Arg)) ∈ t.timers := by
  have hex := exec_countedRetryTimeout s
  unfold execCountedRetryTimeout at hex
  dsimp only at hex
  rw [if_neg (by simpa using hr), if_neg (Nat.not_lt.2 hp)] at hex
  exact goesOn_of hex rfl rfl ⟨congrArg Module.outq ((State.module_setModule ..).trans (if_pos rfl)), List.mem_cons_self⟩

theorem exec_sampleReceive_measures (s : State) (hm : (s.die s.arg.pos).member = false) :
    GoesOn .sampleReceive s fun t =>
      let d := s.die s.arg.pos
      let drift : Int := ((s.arg.value.toNat : Int) + 24 - d.cad) * 65536 - sextNat s.arg.frac 32
      let x := t.module s.arg.pos s.arg.m
      x.driftV = true ∧ x.drift = wrapInt drift 32 ∧ x.fill = fillOf drift ∧ x.lastSample = d.cad := by
  have hex := exec_sampleReceive s
  unfold execSampleReceive at hex
  dsimp only at hex
  rw [hm] at hex
  refine goesOn_of hex rfl rfl ?_
  simp only [State.module_setModule, if_pos]
  exact ⟨trivial, rfl, rfl, trivial⟩

/-! ### Bad frames -/

theorem lostWord_standAdoption (p m c j g : Nat) (a : Arg) : lostWord p m c j g .standAdoption a = false := by
  unfold lostWord
  rw [show ((Instr.standAdoption == .sampleReceive) || (Instr.standAdoption == .subminReceive) || (Instr.standAdoption == .downReceive) ||
    (Instr.standAdoption == .coastReceive) || (Instr.standAdoption == .haltFrameReceive) || (Instr.standAdoption == .releaseFrameReceive)) = false
    from rfl, Bool.and_false]

/-- The news of a stand that goes on to the next frame is no lost control word. -/
theorem Due.lostWord_nextFrame (d : Due) (p m c j g p' m' c' : Nat) (h : lostMark p' m' c' d = true) : d.nextFrame.lostWord p m c j g = false := by
  unfold lostMark at h
  unfold Due.nextFrame
  split at h
  · rename_i i a ha
    have hi : i = .standAdoption := by simpa using (Bool.and_eq_true_iff.1 h).2
    rw [hi]
    exact lostWord_standAdoption ..
  · cases h

theorem exec_badFrame_loses (s : State) (hb : s.arg.bytes = [] ∨ corrected s.arg.bytes = false) :
    let k := s.arg.pos
    let m := s.arg.m
    GoesOn .badFrame s fun t =>
      t.beats.length = s.beats.length ∧ (s.arg.size ≠ 0 → t.beats = s.beats) ∧
      (∀ b ∈ s.beats, s.arg.size = 0 → (b.stream = true ∨ s.arg.sub = 0) →
        (b.hops.any fun f => decide (f.2.2 = s.arg.sent) && Config.wire f.1 f.2.1 == some (k, m)) = true → { b with bad := true } ∈ t.beats) ∧
      (∀ u ∈ t.agenda, u.lostWord k m s.arg.sent s.arg.sub s.arg.size = false) ∧
      ∀ x ∈ t.timers, x ∈ s.timers ∧ lostWord k m s.arg.sent s.arg.sub s.arg.size x.2.1 x.2.2 = false ∧
        ¬ (x.2.1 = .countedBeatReceive ∧ x.2.2.pos = k ∧ x.2.2.m = m ∧ x.2.2.sent = s.arg.sent ∧
        x.2.2.sub = s.arg.sub ∧ x.2.2.size = s.arg.size) := by
  intro k m
  have hex := exec_badFrame s
  unfold execBadFrame at hex
  extract_lets c j g hit gone stale v at hex
  rw [if_neg (by rcases hb with h | h <;> rw [h] <;> simp)] at hex
  have hbeats : s.arg.size ≠ 0 → v.beats = s.beats := fun h0 => by
    have hno : ∀ b, hit b = false := fun b => by
      unfold hit
      rw [show (g == 0) = false from beq_eq_false_iff_ne.2 h0]
      rfl
    refine (List.map_congr_left fun b _ => ?_).trans (List.map_id _)
    rw [hno]
    rfl
  have hbad : ∀ b ∈ s.beats, s.arg.size = 0 → (b.stream = true ∨ s.arg.sub = 0) →
      (b.hops.any fun f => decide (f.2.2 = s.arg.sent) && Config.wire f.1 f.2.1 == some (k, m)) = true → { b with bad := true } ∈ v.beats := by
    intro b hm h0 hs hhop
    have hb : hit b = true := by
      have h1 : (g == 0) = true := beq_iff_eq.2 h0
      have h2 : (b.stream || j == 0) = true := by
        rcases hs with h | h
        · rw [h, Bool.true_or]
        · rw [show (j == 0) = true from beq_iff_eq.2 h, Bool.or_true]
      unfold hit
      rw [h1, h2]
      exact hhop
    refine List.mem_map.2 ⟨b, hm, ?_⟩
    rw [if_pos hb]
  have hagenda : ∀ u ∈ v.agenda, u.lostWord k m c j g = false := by
    intro u hu
    obtain ⟨d, hd, rfl⟩ := List.mem_map.1 hu
    split
    · rename_i hc
      exact d.lostWord_nextFrame _ _ _ _ _ _ _ _ (Bool.and_eq_true_iff.1 hc).2
    · simpa using (List.mem_filter.1 hd).2
  have htimers : ∀ x ∈ v.timers, x ∈ s.timers ∧ lostWord k m c j g x.2.1 x.2.2 = false ∧
      ¬ (x.2.1 = .countedBeatReceive ∧ x.2.2.pos = k ∧ x.2.2.m = m ∧ x.2.2.sent = c ∧ x.2.2.sub = j ∧ x.2.2.size = g) := by
    intro x hx
    obtain ⟨hs, hg⟩ := List.mem_filter.1 hx
    have hg' : gone x = false := by simpa using hg
    obtain ⟨h1, h2⟩ := Bool.or_eq_false_iff.1 hg'
    refine ⟨hs, h2, fun ⟨a1, a2, a3, a4, a5, a6⟩ => ?_⟩
    rw [a1, a2, a3, a4, a5, a6] at h1
    simp at h1
  have hlen : v.beats.length = s.beats.length := List.length_map ..
  split at hex <;> exact goesOn_of hex rfl rfl ⟨hlen, hbeats, hbad, hagenda, htimers⟩

theorem exec_badFrame_corrects (s : State) (h : s.arg.bytes ≠ []) (hc : corrected s.arg.bytes = true) : exec .badFrame s = .next s := by
  rw [exec_badFrame]
  unfold execBadFrame
  dsimp only
  rw [if_pos (by rw [hc, bne_iff_ne.2 h]; rfl)]

/-- Settles O49: the frames of a pulse by one lemma a frame, folded over modules that are all different; the other events each by their own. -/
theorem dieLinks : Obligations.DieLinks := by
  unfold Obligations.DieLinks
  intro s k m d md of goes
  obtain ⟨t, hex, hmem, hhubs, houtq, htx, hag⟩ := exec_frameTransmit_sends s
  exact ⟨exec_linkTrainingDone_trains s, ⟨t, hex, hmem, hhubs, houtq⟩, fun h => ⟨t, hex, hmem, hhubs, htx h⟩,
    fun h1 h2 h3 => ⟨t, hex, hmem, hhubs, hag h1 h2 h3⟩, exec_badFrame_loses s, exec_badFrame_corrects s, exec_timedBeatDelivery_drops s,
    exec_countedBeatReceive_takes s, exec_countedBeatReceive_drops s, exec_countedRetryTimeout_resends s, exec_sampleReceive_measures s⟩

end Sys2Proof.Machine
end

section
/-! SUPPORT. Fault records and page-fault batches. -/

namespace Sys2Proof.Machine

open Sys2Proof

/-! ### A record in the ring, or lost -/

theorem State.part_noteFault (s : State) (n kind k : Nat) : (s.noteFault n kind).part k = s.part k := rfl

theorem State.part_queueRecord (s : State) (r : FaultReport) (k : Nat) : (s.queueRecord r).part k = (s.writeRecord r).part k := by
  unfold State.queueRecord State.slotRecord
  split
  · split <;> rfl
  · rfl

theorem State.mem_queueRecord (s : State) (r : FaultReport) : (s.queueRecord r).memory = (s.writeRecord r).memory := by
  unfold State.queueRecord State.slotRecord
  split
  · split
    · exact State.noteFault_memory ..
    · rfl
  · rfl

theorem State.writeRecord_writes (s : State) (r : FaultReport) (h : (s.part r.part).takesRecord = true) :
    let p := s.part r.part
    (s.writeRecord r).part r.part = { p with frHead := (p.frHead + 1) % 2 ^ 32 } ∧
      (s.writeRecord r).memory = (s.hostWrite r.part (some (Config.vfPasid r.part)) (p.frbase + 64 * (p.frHead % 2 ^ p.ringLog))
        (r.bytes r.time p.frHead)).memory := by
  intro p
  unfold State.writeRecord
  dsimp only
  rw [if_pos h, State.part_signal, State.setPart_self, State.signal_memory, State.setPart_memory]
  exact ⟨rfl, rfl⟩

theorem State.writeRecord_loses (s : State) (r : FaultReport) (h : (s.part r.part).takesRecord = false) :
    let p := s.part r.part
    (s.writeRecord r).part r.part = { p with frOvf := true, frLost := satAdd 0xFFFFFFFF p.frLost 1 } ∧
      (s.writeRecord r).memory = s.memory := by
  intro p
  unfold State.writeRecord
  dsimp only
  rw [if_neg (by rw [h]; exact Bool.false_ne_true), State.part_signal, State.setPart_self, State.signal_memory, State.setPart_memory]
  exact ⟨rfl, rfl⟩

theorem Part.takesRecord_iff (p : Part) : p.takesRecord = true ↔ p.frEn = true ∧ p.ringFill p.frTail < 2 ^ p.ringLog := by
  unfold Part.takesRecord
  rw [Bool.and_eq_true, decide_eq_true_iff]

theorem Part.takesRecord_false (p : Part) (h : p.frEn = false ∨ 2 ^ p.ringLog ≤ p.ringFill p.frTail) : p.takesRecord = false := by
  refine Bool.eq_false_iff.2 fun c => ?_
  obtain ⟨h1, h2⟩ := p.takesRecord_iff.1 c
  rcases h with h | h
  · exact absurd (h.symm.trans h1) Bool.false_ne_true
  · omega

/-- A batch is left by a record of any kind. -/
theorem State.batch_queueRecord (s : State) (r : FaultReport) (k : Nat) : ((s.queueRecord r).part k).batch = (s.part k).batch := by
  rw [State.part_queueRecord]
  by_cases hk : k = r.part
  · subst hk
    cases h : (s.part r.part).takesRecord with
    | true => rw [(s.writeRecord_writes r h).1]
    | false => rw [(s.writeRecord_loses r h).1]
  · have hw : ∀ a bs, (s.hostWrite r.part (some (Config.vfPasid r.part)) a bs).parts = s.parts := fun a bs => by simp
    unfold State.writeRecord
    dsimp only
    rw [State.part_signal]
    split
    · rw [State.part_setPart, if_neg hk, State.part_of_parts (hw _ _)]
    · rw [State.part_setPart, if_neg hk]

theorem State.memory_hostWrite_net (s : State) (net : SMap Pkt) (part : Nat) (pasid : Option Nat) (a : Nat) (bs : List Byte) :
    (State.hostWrite { s with net := net } part pasid a bs).memory = (s.hostWrite part pasid a bs).memory := by
  have hr : ∀ a n ls, State.rewritten { s with net := net } a n ls = s.rewritten a n ls := fun a n ls => by
    induction ls with
    | nil => rfl
    | cons l r ih =>
      unfold State.rewritten
      rw [ih]
      rfl
  unfold State.hostWrite State.writeBytes State.memory
  dsimp only
  rw [hr]
  rfl

theorem exec_faultReportReceive_records (s : State) (k : Pkt) (hf : SMap.find s.arg.n s.net = some k) (hk : k.rep.kind ≠ 0x0D) :
    let r := k.rep
    let p := s.part r.part
    ∃ t, exec .faultReportReceive s = .next t ∧ t.hubs = s.hubs ∧ t.net = SMap.drop s.net s.arg.n ∧
      (p.frEn = true → p.ringFill p.frTail < 2 ^ p.ringLog →
        (t.part r.part).frHead = (p.frHead + 1) % 2 ^ 32 ∧ (t.part r.part).frTail = p.frTail ∧
        t.mem = (s.hostWrite r.part (some (Config.vfPasid r.part)) (p.frbase + 64 * (p.frHead % 2 ^ p.ringLog)) (r.bytes r.time p.frHead)).mem) ∧
      (p.frEn = false ∨ 2 ^ p.ringLog ≤ p.ringFill p.frTail →
        (t.part r.part).frOvf = true ∧ (t.part r.part).frLost = satAdd 0xFFFFFFFF p.frLost 1 ∧ SameMemory s t) := by
  intro r p
  let u : State := { s with net := SMap.drop s.net s.arg.n }
  have hex : ∃ t, exec .faultReportReceive s = .next t ∧ t.hubs = (u.queueRecord r).hubs ∧ t.net = (u.queueRecord r).net ∧
      t.parts = (u.queueRecord r).parts ∧ t.memory = (u.queueRecord r).memory := by
    rw [exec_faultReportReceive]
    unfold execFaultReportReceive
    rw [hf]
    dsimp only
    unfold State.merge
    rw [if_neg hk]
    dsimp only
    split <;> exact ⟨_, rfl, rfl, rfl, rfl, rfl⟩
  obtain ⟨t, hex, hh, hn, hp, hm⟩ := hex
  obtain ⟨-, -, -, -, -, hqn, -, -, -, hqh, -⟩ := u.queueRecord_frame r
  have hpart : t.part r.part = (u.writeRecord r).part r.part := (State.part_of_parts hp _).trans (u.part_queueRecord r r.part)
  have hmem : t.memory = (u.writeRecord r).memory := hm.trans (u.mem_queueRecord r)
  refine ⟨t, hex, hh.trans hqh, hn.trans hqn, fun he hr => ?_, fun h => ?_⟩
  · obtain ⟨h1, h2⟩ := u.writeRecord_writes r (p.takesRecord_iff.2 ⟨he, hr⟩)
    rw [hpart, h1]
    have hw : t.memory = (s.hostWrite r.part (some (Config.vfPasid r.part)) (p.frbase + 64 * (p.frHead % 2 ^ p.ringLog)) (r.bytes r.time p.frHead)).memory :=
      hmem.trans (h2.trans (s.memory_hostWrite_net ..))
    exact ⟨rfl, rfl, congrArg Prod.fst hw⟩
  · obtain ⟨h1, h2⟩ := u.writeRecord_loses r (p.takesRecord_false h)
    rw [hpart, h1]
    exact ⟨rfl, rfl, SameMemory.of_eq (hmem.trans h2)⟩

/-! ### The batch of page-not-present faults -/

theorem exec_faultReportReceive_joins (s : State) (k : Pkt) (hf : SMap.find s.arg.n s.net = some k) (hk : k.rep.kind = 0x0D) :
    ∃ t, exec .faultReportReceive s = .next t ∧ t.hubs = s.hubs ∧ SameMemory s t ∧
      (t.part k.rep.part).batch.length = (s.part k.rep.part).batch.length + 1 := by
  have hjoin : ∀ (u : State) (f : PFault), (u.batchFault k.rep.part f).hubs = u.hubs ∧
      ((u.batchFault k.rep.part f).part k.rep.part).batch.length = (u.part k.rep.part).batch.length + 1 := fun u f => by
    unfold State.batchFault
    extract_lets p v
    have hv : (v.part k.rep.part).batch.length = p.batch.length + 1 := by
      unfold v
      rw [State.setPart_self]
      exact List.length_append
    split
    · exact ⟨rfl, hv⟩
    · split
      · exact ⟨rfl, hv⟩
      · exact ⟨rfl, hv⟩
  have hex := exec_faultReportReceive s
  unfold execFaultReportReceive at hex
  rw [hf] at hex
  dsimp only at hex
  unfold State.merge at hex
  rw [if_pos hk] at hex
  obtain ⟨h1, h2⟩ := hjoin { s with net := SMap.drop s.net s.arg.n } _
  exact ⟨_, hex, h1, SameMemory.of_eq (State.batchFault_memory ..), h2⟩

theorem exec_pageFaultBatchClose_closes (s : State) (hb : (s.part s.arg.part).batch ≠ []) (hn : (s.part s.arg.part).batchAt = s.arg.n) :
    ∃ t, exec .pageFaultBatchClose s = .next t ∧ (t.part s.arg.part).batch = [] ∧ t.hubs = s.hubs := by
  have hex := exec_pageFaultBatchClose s
  unfold execPageFaultBatchClose at hex
  dsimp only at hex
  rw [if_neg (by rw [hn]; simpa using hb)] at hex
  have hhubs : ∀ (u : State) a b, (u.signal a b).hubs = u.hubs := fun u a b => by simp
  have hq : ∀ (u : State) r, (u.queueRecord r).hubs = u.hubs := fun u r => by simp
  refine ⟨_, hex, ?_, ?_⟩
  · rw [State.part_signal]
    refine (foldl_keeps (fun u : State => (u.part s.arg.part).batch) _ (fun u x => u.batch_queueRecord _ _) _ _).trans ?_
    rw [State.setPart_self]
  · rw [hhubs]
    exact foldl_keeps State.hubs _ (fun u x => hq u _) _ _

/-- Settles O50: a record by what the writing of it leaves of its partition, in the ring or lost; a page fault by its batch, which a record of any kind leaves alone. -/
theorem faultRecords : Obligations.FaultRecords := by
  unfold Obligations.FaultRecords
  intro s k hf r p g
  exact ⟨exec_faultReportReceive_records s k hf, exec_faultReportReceive_joins s k hf, exec_pageFaultBatchClose_closes s,
    (exec_frtailWrite s).trans (apply_ite Host.Outcome.next _ _ _).symm, (exec_faultRingEnable s).trans (apply_ite Host.Outcome.next _ _ _).symm⟩

end Sys2Proof.Machine
end

section
/-! SUPPORT. Packets of the counted channel. -/

namespace Sys2Proof.Machine

open Sys2Proof

/-! ### Reads, and the accesses of a hub that none waits for -/

theorem State.eccRead_clean (s : State) (die hub eng detail a n : Nat) (h : s.eccBad a n = false) :
    s.eccRead die hub eng detail [(a, n)] = s := by
  have hnone : (if s.ecc.isEmpty then none else [(a, n)].find? fun x => s.eccBad x.1 x.2) = none := by
    split
    · rfl
    · rw [List.find?_cons_of_neg (by rw [h]; exact Bool.false_ne_true), List.find?_nil]
  unfold State.eccRead State.eccFor
  rw [hnone]

theorem State.sendWaiting_none (s : State) (die hub : Nat) (h : ∀ e ∈ (s.hub die hub).accesses, e.waiting = false) :
    s.sendWaiting die hub = s := by
  have hnil : ((s.hub die hub).accesses.filter fun e => e.waiting && mayGo (s.hub die hub).accesses e) = [] :=
    List.filter_eq_nil_iff.2 fun e he => by rw [h e he]; exact Bool.false_ne_true
  unfold State.sendWaiting
  dsimp only
  rw [hnil]
  rfl

/-- An access that has been performed is gone, and with it its place in the mark; no other access was waiting for it. -/
theorem State.storeDone_ends (s : State) (die hub id : Nat) (h : ∀ e ∈ (s.hub die hub).accesses, e.waiting = false) :
    s.storeDone die hub id = s.setHub die hub { s.hub die hub with
      accesses := (s.hub die hub).accesses.filter fun e => decide (e.id ≠ id)
      mark := (s.hub die hub).mark.map fun l => l.filter fun x => decide (x ≠ id) } := by
  unfold State.storeDone
  refine State.sendWaiting_none _ _ _ fun e he => ?_
  rw [State.setHub_self] at he
  exact h e (List.mem_filter.1 he).1

theorem State.loadSampled_marks (s : State) (die hub id : Nat) (h : ∀ e ∈ (s.hub die hub).accesses, e.waiting = false) :
    s.loadSampled die hub id = s.setHub die hub { s.hub die hub with
      accesses := (s.hub die hub).accesses.map fun e => if e.id = id then { e with sampled := true } else e } := by
  unfold State.loadSampled
  refine State.sendWaiting_none _ _ _ fun e he => ?_
  rw [State.setHub_self] at he
  obtain ⟨x, hx, rfl⟩ := List.mem_map.1 he
  split <;> exact h x hx

theorem State.loadDone_ends (s : State) (die hub id : Nat) (h : ∀ e ∈ (s.hub die hub).accesses, e.waiting = false) :
    s.loadDone die hub id = s.setHub die hub { s.hub die hub with
      accesses := (s.hub die hub).accesses.filter fun e => decide (e.id ≠ id) || e.store } := by
  unfold State.loadDone
  refine State.sendWaiting_none _ _ _ fun e he => ?_
  rw [State.setHub_self] at he
  exact h e (List.mem_filter.1 he).1

/-! ### Requests at their target -/

theorem State.refuse_eq (s : State) (id : Nat) (p : Pkt) : s.refuse id p = { s with
    net := if p.typ = 2 then SMap.drop s.net id else SMap.put s.net id { p with lost := true } } := by
  unfold State.refuse
  split <;> rfl

/-- The packets at a reply's deadline: one that has arrived or is lost is gone, any other is late (R45, R200). -/
def State.atDeadline (s : State) (p : Pkt) : State :=
  if p.done || p.lost then { s with net := SMap.drop s.net s.arg.n } else { s with net := SMap.put s.net s.arg.n { p with late := true } }

section
variable (s : State) (p : Pkt) (hf : SMap.find s.arg.n s.net = some p)
include hf

theorem exec_requests_refused (ha : s.accepts p = false) :
    exec .readRequest s = .next (s.refuse s.arg.n p) ∧ exec .write s = .next (s.refuse s.arg.n p) ∧
      exec .atomicRequest s = .next (s.refuse s.arg.n p) ∧ exec .controlSpaceRead s = .next (s.refuse s.arg.n p) := by
  rw [exec_readRequest, exec_write, exec_atomicRequest, exec_controlSpaceRead]
  unfold execReadRequest execWrite execAtomicRequest execControlSpaceRead
  dsimp only
  rw [hf]
  dsimp only
  rw [ha]
  exact ⟨rfl, rfl, rfl, rfl⟩

theorem exec_readRequest_accepted (ha : s.accepts p = true) (hn : p.target ≠ 48 ∨ p.eng ≠ 0 ∨ s.arg.ok = false) :
    exec .readRequest s =
      if s.hbmRefused p then .next ((s.hbmRecord p).reply s.arg.n
        { p with typ := 1, bytes := List.replicate p.n 0, planes := [List.replicate p.n 0], elems := [true], pois := true })
      else .next ((s.eccRead p.die p.hub p.eng p.detail p.places).reply s.arg.n
        { p with typ := 1, bytes := (s.readFor p).1.headD [], planes := (s.readFor p).1, elems := (s.readFor p).2, pois := (s.readFor p).2.contains true }) := by
  have hfar : (p.target = 48 && p.eng = 0 && s.arg.ok : Bool) = false := by
    rcases hn with h | h | h <;> simp [h]
  rw [exec_readRequest]
  unfold execReadRequest
  dsimp only
  rw [hf]
  dsimp only
  rw [if_neg (by rw [ha]; decide), if_neg (by rw [hfar]; exact Bool.false_ne_true)]

theorem exec_readRequest_reads (ha : s.accepts p = true) (hn : p.target ≠ 48 ∨ p.eng ≠ 0 ∨ s.arg.ok = false) (hr : s.hbmRefused p = false)
    (hx : p.xf = none) (he : s.eccBad p.addr p.n = false) :
    exec .readRequest s = .next (s.reply s.arg.n
      { p with
        typ := 1, bytes := s.readBytes p.addr p.n, planes := [s.readBytes p.addr p.n], elems := [s.poisoned p.addr p.n]
        pois := s.poisoned p.addr p.n }) := by
  have hread : s.readFor p = ([s.readBytes p.addr p.n], [s.poisoned p.addr p.n]) := by
    unfold State.readFor
    rw [hx]
  have hplaces : p.places = [(p.addr, p.n)] := by
    unfold Pkt.places
    rw [hx]
  have hcont : ∀ b : Bool, [b].contains true = b := by decide
  rw [exec_readRequest_accepted s p hf ha hn, if_neg (by rw [hr]; exact Bool.false_ne_true), hread, hplaces, State.eccRead_clean _ _ _ _ _ _ _ he,
    hcont]
  rfl

theorem exec_write_writes (ha : s.accepts p = true) (hr : s.hbmRefused p = false) (hx : p.xf = none) :
    exec .write s = .next ((s.writeBytes p.addr p.bytes p.pois).reply s.arg.n { p with typ := 3 }) := by
  rw [exec_write]
  unfold execWrite
  dsimp only
  rw [hf]
  dsimp only
  rw [if_neg (by rw [ha]; decide), if_neg (by rw [hr]; exact Bool.false_ne_true), hx]

theorem exec_refused_keeps (ha : s.accepts p = true) (hr : s.hbmRefused p = true) :
    ((p.target ≠ 48 ∨ p.eng ≠ 0 ∨ s.arg.ok = false) → ∃ t, exec .readRequest s = .next t ∧ SameMemory s t) ∧
      ∃ t, exec .write s = .next t ∧ SameMemory s t := by
  constructor
  · intro hn
    rw [exec_readRequest_accepted s p hf ha hn, if_pos hr]
    exact ⟨_, rfl, SameMemory.of_eq (by simp)⟩
  · rw [exec_write]
    unfold execWrite
    dsimp only
    rw [hf]
    dsimp only
    rw [if_neg (by rw [ha]; decide), if_pos hr]
    exact ⟨_, rfl, SameMemory.of_eq (by simp)⟩

theorem exec_atomicRequest_performs (ha : s.accepts p = true) :
    (∀ q, p.amo = some q → s.eccBad q.addr q.size = false → exec .atomicRequest s =
      .next ((s.perform q).1.reply s.arg.n { p with typ := 5, bytes := leBytes 8 (s.perform q).2.1, pois := (s.perform q).2.2 })) ∧
    (∀ q, p.amo = none → p.slotOp = some q → exec .atomicRequest s =
      .next ((s.slotTable q).1.reply s.arg.n { p with typ := 5, bytes := leBytes 8 (s.slotTable q).2.toNat, pois := false })) := by
  rw [exec_atomicRequest]
  unfold execAtomicRequest
  dsimp only
  rw [hf]
  dsimp only
  rw [if_neg (by rw [ha]; decide)]
  refine ⟨fun q hq he => ?_, fun q hq hs => ?_⟩
  · rw [hq]
    dsimp only
    rw [State.eccRead_clean _ _ _ _ _ _ _ he]
  · rw [hq, hs]

theorem exec_controlSpaceRead_reads (ha : s.accepts p = true) : exec .controlSpaceRead s =
    .next (s.reply s.arg.n { p with typ := 1, bytes := leBytes 8 (s.dieReg p.target p.addr), pois := false }) := by
  rw [exec_controlSpaceRead]
  unfold execControlSpaceRead
  dsimp only
  rw [hf]
  dsimp only
  rw [if_neg (by rw [ha]; decide)]

theorem exec_fenceMarker_replies : exec .fenceMarker s = .next (s.reply s.arg.n { p with typ := 1, bytes := [], pois := false }) := by
  rw [exec_fenceMarker]
  unfold execFenceMarker
  dsimp only
  rw [hf]

/-! ### Replies at the hub -/

theorem exec_readReply_waits (hl : p.late = false) (h0 : p.n ≠ 0) (hw : ∀ e ∈ (s.hub p.die p.hub).accesses, e.waiting = false) :
    ∃ t, exec .readReply s = .next t ∧ t.net = SMap.put s.net s.arg.n { p with done := true } ∧ SameMemory s t ∧
      (t.hub p.die p.hub).s = (s.hub p.die p.hub).s ∧
      ∀ e ∈ (t.hub p.die p.hub).accesses, e.id = s.arg.n → p.xf = none → e.sampled = true := by
  have hhere : s.replyHere s.arg.n p = { s with net := SMap.put s.net s.arg.n { p with done := true } } := by
    unfold State.replyHere
    rw [if_neg]
    simp [hl, h0]
  have hex := exec_readReply s
  unfold execReadReply at hex
  dsimp only at hex
  rw [hf] at hex
  dsimp only at hex
  rw [if_neg h0, hhere] at hex
  clear hhere
  generalize hu : ({ s with net := SMap.put s.net s.arg.n { p with done := true } } : State) = u at hex
  have hnet : u.net = SMap.put s.net s.arg.n { p with done := true } := by rw [← hu]
  have hmem : u.memory = s.memory := by rw [← hu]; rfl
  have hhub : ∀ a b, u.hub a b = s.hub a b := fun a b => by rw [← hu]; rfl
  split at hex
  · rw [State.loadSampled_marks _ _ _ _ (by rw [hhub]; exact hw)] at hex
    refine ⟨_, hex, hnet, SameMemory.of_eq hmem, ?_, fun e he hid _ => ?_⟩
    · rw [State.setHub_self, hhub]
    · rw [State.setHub_self] at he
      obtain ⟨x, -, rfl⟩ := List.mem_map.1 he
      by_cases h : x.id = s.arg.n
      · rw [if_pos h]
      · rw [if_neg h] at hid
        exact absurd hid h
  · rename_i hx
    exact ⟨u, hex, hnet, SameMemory.of_eq hmem, by rw [hhub], fun _ _ _ h => absurd (Option.isNone_iff_eq_none.2 h) hx⟩

theorem exec_atomicReply_ends (hw : ∀ e ∈ (s.hub p.die p.hub).accesses, e.waiting = false) (hl : p.late = false) :
    ∃ t, exec .atomicReply s = .next t ∧ t.net = SMap.put s.net s.arg.n { p with done := true } ∧ SameMemory s t ∧
      ∀ e ∈ (t.hub p.die p.hub).accesses, e.id ≠ s.arg.n := by
  have hex := exec_atomicReply s
  unfold execAtomicReply at hex
  dsimp only at hex
  rw [hf] at hex
  dsimp only at hex
  rw [if_neg (by rw [hl]; exact Bool.false_ne_true), State.storeDone_ends _ _ _ _ (by exact hw)] at hex
  refine ⟨_, hex, rfl, SameMemory.of_eq rfl, fun e he => ?_⟩
  rw [State.setHub_self] at he
  exact of_decide_eq_true (List.mem_filter.1 he).2

theorem exec_writeAcknowledgement_ends (hw : ∀ e ∈ (s.hub p.die p.hub).accesses, e.waiting = false) (hx : p.xf = none) :
    ∃ t, exec .writeAcknowledgement s = .next t ∧ t.net = SMap.drop s.net s.arg.n ∧ SameMemory s t ∧
      (∀ e ∈ (t.hub p.die p.hub).accesses, e.id ≠ s.arg.n) ∧
      (t.hub p.die p.hub).mark = (s.hub p.die p.hub).mark.map fun l => l.filter fun x => decide (x ≠ s.arg.n) := by
  have hex := exec_writeAcknowledgement s
  unfold execWriteAcknowledgement at hex
  dsimp only at hex
  rw [hf] at hex
  dsimp only at hex
  rw [hx] at hex
  dsimp only at hex
  rw [State.storeDone_ends _ _ _ _ (by exact hw)] at hex
  refine ⟨_, hex, rfl, SameMemory.of_eq rfl, fun e he => ?_, ?_⟩
  · rw [State.setHub_self] at he
    exact of_decide_eq_true (List.mem_filter.1 he).2
  · rw [State.setHub_self]
    rfl

theorem exec_countedReplyDeadline_eq (hx : p.xf = none) : exec .countedReplyDeadline s =
    .next (((s.atDeadline p).loadResult p (if p.done then BitVec.ofNat 64 (leNat p.bytes) else 0) (!p.done || p.pois)).loadDone
      p.die p.hub s.arg.n) := by
  rw [exec_countedReplyDeadline]
  unfold execCountedReplyDeadline
  dsimp only
  rw [hf]
  dsimp only
  split
  · rename_i h
    exact absurd (hx.symm.trans h) (by simp)
  · rfl

theorem exec_countedReplyDeadline_delivers (hw : ∀ e ∈ (s.hub p.die p.hub).accesses, e.waiting = false) (hx : p.xf = none)
    (hr : (s.hub p.die p.hub).run = .running) :
    ∃ t, exec .countedReplyDeadline s = .next t ∧ SameMemory s t ∧
      (t.hub p.die p.hub).readS p.reg =
        (if p.reg = 0 then {} else if p.done && !p.pois then ⟨BitVec.ofNat 64 (leNat p.bytes), false⟩ else ⟨0, true⟩) ∧
      ∀ r, r ≠ p.reg → (t.hub p.die p.hub).readS r = (s.hub p.die p.hub).readS r := by
  let v : W64 := if p.done then BitVec.ofNat 64 (leNat p.bytes) else 0
  have hacc : ∀ (h : Hub) r (x : W64) b, (h.writeS r x b).accesses = h.accesses := fun h r x b => by
    unfold Hub.writeS
    split <;> rfl
  have hload : ∀ u : State, u.memory = s.memory → (∀ a b, u.hub a b = s.hub a b) →
      ((u.loadResult p v (!p.done || p.pois)).loadDone p.die p.hub s.arg.n).memory = s.memory ∧
      ∀ r, (((u.loadResult p v (!p.done || p.pois)).loadDone p.die p.hub s.arg.n).hub p.die p.hub).readS r =
        ((s.hub p.die p.hub).writeS p.reg v (!p.done || p.pois)).readS r := fun u hm hh => by
    have hres : u.loadResult p v (!p.done || p.pois) = u.setHub p.die p.hub ((s.hub p.die p.hub).writeS p.reg v (!p.done || p.pois)) := by
      unfold State.loadResult
      dsimp only
      rw [hh, if_neg (by rw [hr]; simp)]
    rw [hres, State.loadDone_ends]
    · rw [State.setHub_self, State.setHub_self]
      exact ⟨hm, fun _ => rfl⟩
    · rw [State.setHub_self, hacc]
      exact hw
  have hend : ∃ t, exec .countedReplyDeadline s = .next t ∧ t.memory = s.memory ∧
      ∀ r, (t.hub p.die p.hub).readS r = ((s.hub p.die p.hub).writeS p.reg v (!p.done || p.pois)).readS r := by
    refine ⟨_, exec_countedReplyDeadline_eq s p hf hx, hload (s.atDeadline p) ?_ fun a b => ?_⟩
    · unfold State.atDeadline
      split <;> rfl
    · unfold State.atDeadline
      split <;> rfl
  obtain ⟨t, hex, hm, hread⟩ := hend
  refine ⟨t, hex, SameMemory.of_eq hm, ?_, fun r hne => ?_⟩
  · rw [hread, Hub.readS_writeS]
    by_cases h0 : p.reg = 0
    · rw [if_neg (fun c => c.2 h0), if_pos h0]
      unfold Hub.readS
      rw [if_pos h0]
    · rw [if_pos ⟨rfl, h0⟩, if_neg h0]
      unfold v
      cases p.done <;> cases p.pois <;> rfl
  · rw [hread, Hub.readS_writeS, if_neg (fun c => hne c.1)]

end

/-- Settles O51: each packet's event by its own lemma; at a hub where no access waits, the end of one is one change of that hub. -/
theorem packetsArrive : Obligations.PacketsArrive := by
  unfold Obligations.PacketsArrive
  intro s p hf id h near drops
  refine ⟨fun ha => ?_, fun ha => ⟨fun hr hx => ⟨fun hn he => exec_readRequest_reads s p hf ha hn hr hx he, exec_write_writes s p hf ha hr hx⟩,
    exec_refused_keeps s p hf ha, (exec_atomicRequest_performs s p hf ha).1, (exec_atomicRequest_performs s p hf ha).2,
    exec_controlSpaceRead_reads s p hf ha⟩, exec_fenceMarker_replies s p hf, exec_readReply_waits s p hf,
    fun hw => ⟨exec_atomicReply_ends s p hf hw, exec_writeAcknowledgement_ends s p hf hw, exec_countedReplyDeadline_delivers s p hf hw⟩⟩
  have h := exec_requests_refused s p hf ha
  rw [State.refuse_eq] at h
  exact h

end Sys2Proof.Machine
end

section
/-! SUPPORT. Translation fills, shootdowns and retries. -/

namespace Sys2Proof.Machine

open Sys2Proof

/-! ### Packets on their way leave every die but its modules -/

theorem State.die_setModule {α : Type} (f : Die → α) (hf : ∀ d m, f { d with modules := m } = f d) (s : State) (p m q : Nat) (x : Module) :
    f ((s.setModule p m x).die q) = f (s.die q) := by
  unfold State.setModule
  rw [State.die_setDie]
  split
  · rename_i h
    rw [h]
    exact hf ..
  · rfl

theorem State.die_forward {α : Type} (f : Die → α) (hf : ∀ d m, f { d with modules := m } = f d) (s : State) (p id q : Nat) :
    f ((s.forward p id).die q) = f (s.die q) := by
  have htimer : ∀ (u : State) m, f ((u.startTimer p m).die q) = f (u.die q) := fun u m => by
    unfold State.startTimer
    dsimp only
    split
    · rfl
    · exact u.die_setModule f hf ..
  unfold State.forward
  split
  · rfl
  · extract_lets dst
    split
    · split <;> rfl
    · split
      · unfold State.sendOn
        dsimp only
        rw [htimer]
        exact s.die_setModule f hf ..
      · rfl

theorem State.net_sendOn (s : State) (p m id : Nat) : (s.sendOn p m id).net = s.net := by
  have htimer : ∀ u : State, (u.startTimer p m).net = u.net := fun u => by
    unfold State.startTimer
    dsimp only
    split <;> rfl
  exact htimer _

/-- A packet that has an event at its end stays listed while it is on its way. -/
theorem State.net_launch (s : State) (a id : Nat) (p : Pkt) (i : Instr) (h : arrivalEvent p = some i) :
    (s.launch a id p).net = SMap.put s.net id p := by
  have hfind : SMap.find id (SMap.put s.net id p) = some p := SMap.find_put_self ..
  unfold State.launch State.forward
  dsimp only
  rw [hfind]
  dsimp only
  rw [h]
  generalize (if p.back then p.die else if p.target < 48 then p.target else State.actingH { s with net := SMap.put s.net id p }) = dst
  split
  · rfl
  · split
    · exact State.net_sendOn ..
    · rfl

/-! ### Fills -/

theorem exec_translationFillRequest_fills (s : State) (p : Pkt) (f : _) (hp : SMap.find s.arg.n s.net = some p) (hf : p.fill = some f)
    (ha : s.accepts p = true) (hb : (s.die p.target).bcache = []) :
    let e := (s.walk p.part f.pasid f.va).entry p.part f.pasid f.va
    ∃ t, exec .translationFillRequest s = .next t ∧ (t.die p.target).bcache = [e] ∧ SameMemory s t ∧
      SMap.find s.arg.n t.net = some { p with typ := 7, res := some e, back := true } := by
  intro e
  have hex : ∃ u : State, exec .translationFillRequest s = .next (u.reply s.arg.n { p with typ := 7, res := some e }) ∧
      (u.die p.target).bcache = [e] ∧ u.memory = s.memory := by
    rw [exec_translationFillRequest]
    unfold execTranslationFillRequest
    dsimp only
    rw [hp]
    dsimp only
    rw [hf]
    dsimp only
    rw [if_neg (by rw [ha]; decide), hb, List.find?_nil]
    refine ⟨_, rfl, ?_, ?_⟩
    · split
      · exact congrArg Die.bcache (State.setDie_self ..)
      · exact congrArg Die.bcache (State.setDie_self ..)
    · split <;> rfl
  obtain ⟨u, hex, hd, hm⟩ := hex
  refine ⟨_, hex, ?_, SameMemory.of_eq (by simp [hm]), ?_⟩
  · exact (State.die_forward Die.bcache (fun _ _ => rfl) _ _ _ _).trans hd
  · unfold State.reply
    rw [State.net_launch _ _ _ _ .translationFillReply rfl, SMap.find_put_self]

theorem exec_translationFillReply_fills (s : State) (p : Pkt) (e : Xlat) (hp : SMap.find s.arg.n s.net = some p) (he : p.res = some e) :
    ∃ t, exec .translationFillReply s = .next t ∧ t.net = SMap.drop s.net s.arg.n ∧
      (t.die p.die).dtc = (fillCache (s.die p.die).dtc e).take 512 ∧ SameMemory s t ∧ t.hubs = s.hubs := by
  have hex := exec_translationFillReply s
  unfold execTranslationFillReply at hex
  dsimp only at hex
  rw [hp] at hex
  dsimp only at hex
  rw [he] at hex
  exact ⟨_, hex, rfl, congrArg Die.dtc (State.setDie_self ..), SameMemory.of_eq rfl, rfl⟩

/-! ### Entries that are dropped -/

theorem State.die_dropXlat (s : State) (part : Nat) (bad : Xlat → Bool) (d : Nat) :
    (s.dropXlat part bad).die d = { s.die d with
      dtc := (s.die d).dtc.filter fun e => !(e.part == part && bad e), bcache := (s.die d).bcache.filter fun e => !(e.part == part && bad e) } := by
  unfold State.die
  exact SMap.get_map {} (fun x : Die => { x with
    dtc := x.dtc.filter fun e => !(e.part == part && bad e), bcache := x.bcache.filter fun e => !(e.part == part && bad e) }) s.dies d rfl

theorem State.dropXlat_drops (s : State) (part : Nat) (bad : Xlat → Bool) (d : Nat) (e : Xlat)
    (h : e ∈ ((s.dropXlat part bad).die d).dtc ∨ e ∈ ((s.dropXlat part bad).die d).bcache) (hp : e.part = part) : bad e = false := by
  rw [State.die_dropXlat] at h
  have hk : (!(e.part == part && bad e)) = true := by
    rcases h with h | h <;> exact (List.mem_filter.1 h).2
  rw [hp, beq_self_eq_true, Bool.true_and] at hk
  simpa using hk

theorem exec_xlinvShootdown_begins (s : State) (hb : (s.part s.arg.part).xlBusy = false) :
    let k := s.arg.part
    let g := s.part k
    let v := s.arg.value.toNat
    let size := if bits v 63 62 = 0 then 2 ^ 16 else if bits v 63 62 = 1 then 2 ^ 21 else if bits v 63 62 = 2 then 2 ^ 30 else 2 ^ 48
    let va := bits v 31 0 * 65536 / size * size
    ∃ t, exec .xlinvShootdown s = .next t ∧ SameMemory s t ∧ t.hubs = s.hubs ∧
      (∀ d e, e ∈ (t.die d).dtc ∨ e ∈ (t.die d).bcache → e.part = k → e.pasid = bits v 51 32 → rangesMeet e.va e.size va size = false) ∧
      ((s.partHubs k).length = 0 → (t.part k).xlBusy = false ∧ (t.part k).xlDone = (g.xlDone + 1) % 2 ^ 32) ∧
      ((s.partHubs k).length ≠ 0 → (t.part k).xlBusy = true ∧ (t.part k).shoot = some (bits v 51 32, va, size) ∧
        (t.part k).xlPend = (s.partHubs k).length) := by
  intro k g v size va
  let bad : Xlat → Bool := fun e => e.pasid == bits v 51 32 && rangesMeet e.va e.size va size
  have hbad : ∀ u : State, u.dies = (s.dropXlat k bad).dies →
      ∀ d e, e ∈ (u.die d).dtc ∨ e ∈ (u.die d).bcache → e.part = k → e.pasid = bits v 51 32 → rangesMeet e.va e.size va size = false := by
    intro u hu d e he hk hp
    have hd : u.die d = (s.dropXlat k bad).die d := by unfold State.die; rw [hu]
    rw [hd] at he
    have h : bad e = false := s.dropXlat_drops k bad d e he hk
    unfold bad at h
    rw [hp, beq_self_eq_true, Bool.true_and] at h
    exact h
  have hhubs : (s.dropXlat k bad).partHubs k = s.partHubs k := rfl
  have hex := exec_xlinvShootdown s
  unfold execXlinvShootdown at hex
  extract_lets sz size' pasid va' w p hs q u at hex
  rw [if_neg (by rw [hb]; exact Bool.false_ne_true)] at hex
  by_cases he : hs.isEmpty
  · rw [if_pos he] at hex
    have h0 : (s.partHubs k).length = 0 := List.length_eq_zero_iff.2 (List.isEmpty_iff.1 he)
    refine ⟨_, hex, SameMemory.of_eq rfl, rfl, hbad _ rfl, fun _ => ?_, fun h => absurd h0 h⟩
    rw [State.setPart_self]
    exact ⟨rfl, rfl⟩
  · rw [if_neg he] at hex
    have h0 : (s.partHubs k).length ≠ 0 := fun h => he (List.isEmpty_iff.2 (List.length_eq_zero_iff.1 h))
    have hfold : ∀ {β : Type} (f : State → β) (hf : ∀ (u : State) i p, f (u.sendWithin (50 * Config.cyPerUs) i p) = f u) (l : List (Nat × Nat)) (u : State),
        f (l.foldl (fun (s : State) x => s.sendWithin (50 * Config.cyPerUs) .shootdown
          { typ := 8, die := s.actingH, part := k, target := x.1, n := x.2 }) u) = f u := fun f hf l u => foldl_keeps f _ (fun u x => hf u _ _) l u
    refine ⟨_, hex, SameMemory.of_eq (hfold State.memory (fun _ _ _ => rfl) _ _), hfold State.hubs (fun _ _ _ => rfl) _ _,
      hbad _ (hfold State.dies (fun _ _ _ => rfl) _ _), fun h => absurd h h0, fun _ => ?_⟩
    have hpart := hfold (fun u => u.part k) (fun _ _ _ => rfl) ((s.dropXlat k bad).partHubs k)
    rw [show State.part _ k = _ from hpart _, State.setPart_self]
    exact ⟨rfl, rfl, rfl⟩

theorem exec_shootdown_tells (s : State) (p : Pkt) (pasid va size : Nat) (hp : SMap.find s.arg.n s.net = some p)
    (hs : (s.part p.part).shoot = some (pasid, va, size)) (ho : s.arg.ok = true) (hnet : ∀ e ∈ s.net, e.1 = s.arg.n) (hag : s.agenda = []) :
    let f := s.part p.part
    ∃ t, exec .shootdown s = .next t ∧ SameMemory s t ∧
      (t.hub p.target p.n).handles = (s.hub p.target p.n).handles.map (fun e => (e.1, e.2.shoot pasid va size)) ∧
      (f.xlPend ≤ 1 → (t.part p.part).xlBusy = false ∧ (t.part p.part).xlDone = (f.xlDone + 1) % 2 ^ 32) ∧
      (1 < f.xlPend → (t.part p.part).xlPend = f.xlPend - 1) := by
  intro f
  let u := State.shootHub { s with net := SMap.drop s.net s.arg.n } p.part p.target p.n pasid va size
  have hpart : ∃ y, u.part p.part = { f with susp := y } := ⟨_, State.setPart_self ..⟩
  have hhub : (u.hub p.target p.n).handles = (s.hub p.target p.n).handles.map (fun e => (e.1, e.2.shoot pasid va size)) :=
    congrArg Hub.handles (State.setHub_self ..)
  have hold : u.oldAccess p.target p.n u.netSeq (s.die p.target).cad = false := by
    have hn : u.net = [] := List.filter_eq_nil_iff.2 fun e he => by simp [hnet e he]
    have ha : u.agenda = [] := by
      show s.agenda.map _ = []
      rw [hag]
      rfl
    unfold State.oldAccess
    rw [hn, ha]
    rfl
  have hex : exec .shootdown s = .next (u.shotHub p.part p.target p.n u.netSeq (s.die p.target).cad) := by
    rw [exec_shootdown]
    unfold execShootdown
    dsimp only
    rw [if_neg (by rw [ho]; decide), hp]
    dsimp only
    rw [show State.part { s with net := SMap.drop s.net s.arg.n } p.part = s.part p.part from rfl, hs]
    rfl
  obtain ⟨y, hy⟩ := hpart
  unfold State.shotHub at hex
  dsimp only at hex
  rw [if_neg (by rw [hold]; exact Bool.false_ne_true), hy] at hex
  refine ⟨_, hex, SameMemory.of_eq ?_, ?_, fun h => ?_, fun h => ?_⟩
  · split <;> rfl
  · split <;> exact hhub
  · rw [if_pos (show ({ f with susp := y } : Part).xlPend ≤ 1 from h), State.setPart_self]
    exact ⟨rfl, rfl⟩
  · rw [if_neg (show ¬ ({ f with susp := y } : Part).xlPend ≤ 1 from Nat.not_le.2 h), State.setPart_self]

theorem exec_xlretry_drops (s : State) :
    let k := s.arg.part
    ∃ t, exec .xlretry s = .next t ∧ SameMemory s t ∧ (t.part k).xlgen = ((s.part k).xlgen + 1) % 2 ^ 32 ∧
      ∀ d e, e ∈ (t.die d).dtc ∨ e ∈ (t.die d).bcache → e.part = k → e.res = 0 := by
  intro k
  refine ⟨_, exec_xlretry s, SameMemory.of_eq rfl, ?_, fun d e he hk => ?_⟩
  · rw [State.setPart_self]
    rfl
  · have h := s.dropXlat_drops k (fun e => e.res != 0) d e he hk
    simpa using h

/-- Settles O52: fills, shootdowns and retries each by its own lemma; a packet on its way leaves every die but its modules. -/
theorem translations : Obligations.Translations := by
  unfold Obligations.Translations
  intro s id k g
  refine ⟨exec_translationFillRequest_fills s, exec_translationFillReply_fills s, fun hb => ?_, exec_xlinvShootdown_begins s,
    fun p pasid va size hp hs ho _ => exec_shootdown_tells s p pasid va size hp hs ho, exec_xlretry_drops s⟩
  rw [exec_xlinvShootdown]
  unfold execXlinvShootdown
  dsimp only
  rw [if_pos hb]

end Sys2Proof.Machine
end

section
/-! SUPPORT. The requests of a partition's mailbox. -/

namespace Sys2Proof.Machine

open Sys2Proof

/-! ### Answers of firmware -/

/-- The bytes of a mailbox that holds the given doublewords. -/
def mailBytes (ws : List Nat) : SMap Byte := (ws.flatMap (leBytes 8)).zipIdx.map fun x => (x.2, x.1)

theorem State.respond_vf (s : State) (k : Nat) (ws : List Nat) :
    (s.respond (k + 1) ws).part k = { s.part k with mbRsp := mailBytes ws } ∧ (s.respond (k + 1) ws).dev = s.dev ∧
      (s.respond (k + 1) ws).slots = s.slots ∧ (s.respond (k + 1) ws).hubs = s.hubs := by
  have h : s.respond (k + 1) ws = ((s.setPart k { s.part k with mbRsp := mailBytes ws }).after s.transit .mailboxDone { fn := k + 1 }).useFree := rfl
  rw [h]
  exact ⟨State.setPart_self .., rfl, rfl, rfl⟩

theorem State.respond_pf (s : State) (ws : List Nat) :
    (s.respond 0 ws).dev = { s.dev with pfRsp := mailBytes ws } ∧ (s.respond 0 ws).parts = s.parts ∧ (s.respond 0 ws).pls = s.pls ∧
      (s.respond 0 ws).hubs = s.hubs := ⟨rfl, rfl, rfl, rfl⟩

/-- A request of a partition is answered with the given doublewords, in a state of the given kind. -/
def AnswersVf (i : Instr) (s : State) (ws : List Nat) (f : State → Prop) : Prop :=
  ∃ t, exec i s = .next t ∧ (t.part s.arg.part).mbRsp = mailBytes ws ∧ SameMemory s t ∧ f t

theorem answersVf_of {i : Instr} {s u : State} {ws : List Nat} {f : State → Prop} (h : exec i s = .next (u.respond (s.arg.part + 1) ws))
    (hm : u.memory = s.memory) (hf : f (u.respond (s.arg.part + 1) ws)) : AnswersVf i s ws f :=
  ⟨_, h, by rw [(u.respond_vf _ ws).1], SameMemory.of_eq ((State.respond_memory ..).trans hm), hf⟩

theorem State.part_respond_vf (s : State) (k : Nat) (ws : List Nat) :
    (s.respond (k + 1) ws).part k = { s.part k with mbRsp := mailBytes ws } := (s.respond_vf k ws).1

theorem State.qreg_respond_vf (s : State) (k : Nat) (ws : List Nat) (q : Nat) : (s.respond (k + 1) ws).qreg q = s.qreg q := by
  unfold State.qreg
  rw [(s.respond_vf k ws).2.1]

theorem State.slot_respond (s : State) (k : Nat) (ws : List Nat) (n : Nat) : (s.respond (k + 1) ws).slot n = s.slot n := by
  unfold State.slot
  rw [(s.respond_vf k ws).2.2.1]

/-! ### The queues of a partition -/

theorem exec_qcreate_locked (s : State) (hm : s.mailOk (s.arg.part + 1) [4096, 2 ^ 64, 2048, 2 ^ 20] = true) (ht : (s.part s.arg.part).tdisp ≠ 0) :
    AnswersVf .qcreate s [4] fun t => t.dev.qregs = s.dev.qregs := by
  have hex := exec_qcreate s
  unfold execQcreate State.serveVf at hex
  dsimp only at hex
  rw [if_pos hm, if_pos (show s.locked s.arg.part = true from bne_iff_ne.2 ht)] at hex
  exact answersVf_of hex rfl (congrArg Dev.qregs (s.respond_vf _ _).2.1)

theorem exec_qcreate_creates (s : State) (hm : s.mailOk (s.arg.part + 1) [4096, 2 ^ 64, 2048, 2 ^ 20] = true) :
    let k := s.arg.part
    let m := s.mail (k + 1)
    let q := m 1
    (s.part k).tdisp = 0 → (s.qreg q).1 = false → 1 ≤ m 3 % 32 → m 3 % 32 ≤ 20 → bits (m 3) 7 5 = 0 → bits (m 3) 10 8 ≤ (s.part k).cap →
      m 2 % 256 = 0 → AnswersVf .qcreate s [0] fun t => t.qreg q = (true, k, false, 0, 0) ∧ SMap.get [] t.dev.fwsram (imageAt q) =
        ({ rbase := m 2, qid := q, part := k, pasid := m 4, log2n := m 3 % 32, cap := bits (m 3) 10 8 } : Qcb).bytes := by
  intro k m q ht hq h1 h2 h3 h4 h5
  let b : Qcb := { rbase := m 2, qid := q, part := k, pasid := m 4, log2n := m 3 % 32, cap := bits (m 3) 10 8 }
  have hok : ((s.qreg q).1 || m 3 % 32 = 0 || 20 < m 3 % 32 || bits (m 3) 7 5 != 0 || (s.part k).cap < bits (m 3) 10 8 || m 2 % 256 != 0 : Bool) = false := by
    have h1' : ¬ m 3 % 32 = 0 := by omega
    have h2' : ¬ 20 < m 3 % 32 := by omega
    have h4' : ¬ (s.part k).cap < bits (m 3) 10 8 := by omega
    rw [hq, h3, h5, decide_eq_false h1', decide_eq_false h2', decide_eq_false h4']
    rfl
  have hex : exec .qcreate s = .next ((((s.setImage q b).setQreg q (true, k, false, 0, 0)).setPend q false).respond (k + 1) [0]) := by
    rw [exec_qcreate]
    unfold execQcreate State.serveVf
    dsimp only
    rw [if_pos hm, if_neg (show ¬ s.locked k = true by unfold State.locked; rw [ht]; decide)]
    exact if_neg (by rw [show _ = false from hok]; exact Bool.false_ne_true)
  refine answersVf_of hex rfl ⟨?_, ?_⟩
  · rw [State.qreg_respond_vf]
    exact State.qreg_setQreg (s.setImage q b) q _
  · rw [(State.respond_vf ..).2.1]
    exact SMap.get_put_self ..

theorem exec_qdestroy_destroys (s : State) (hm : s.mailOk (s.arg.part + 1) [4096] = true) :
    let k := s.arg.part
    let q := s.mail (k + 1) 1
    let tail := (s.qreg q).2.2.2.2
    s.owns k q = true → (s.part k).tdisp = 0 → ((s.qcb q).state = 0 ∨ (s.qcb q).state = 4) → tail = (s.qcb q).head →
      AnswersVf .qdestroy s [0] fun t => t.qreg q = (false, k, false, 0, tail) := by
  intro k q tail ho ht hst htail
  have hstate : (!((s.qcb q).state == 0 || (s.qcb q).state == 4) || tail != (s.qcb q).head) = false := by
    rw [htail]
    rcases hst with h | h <;> rw [h] <;> simp
  have hex : ∃ u : State, exec .qdestroy s = .next (((u.setQreg q (false, k, false, 0, (u.qreg q).2.2.2.2)).setPend q false).respond (k + 1) [0]) ∧
      u.memory = s.memory ∧ u.dev = s.dev := by
    rw [exec_qdestroy]
    unfold execQdestroy State.serveVf
    dsimp only
    rw [if_pos hm, if_neg (show ¬ s.locked k = true by unfold State.locked; rw [ht]; decide),
      if_neg (show ¬ (!s.owns k q) = true by rw [ho]; decide)]
    refine ⟨_, if_neg (by rw [show _ = false from hstate]; exact Bool.false_ne_true), ?_, ?_⟩
    · split <;> rfl
    · split <;> rfl
  obtain ⟨u, hex, hmem, hdev⟩ := hex
  refine answersVf_of hex hmem ?_
  rw [State.qreg_respond_vf]
  refine (State.qreg_setQreg u q _).trans ?_
  have hq : u.qreg q = s.qreg q := by unfold State.qreg; rw [hdev]
  rw [hq]

theorem exec_qstat_answers (s : State) (hm : s.mailOk (s.arg.part + 1) [4096] = true) :
    let k := s.arg.part
    let q := s.mail (k + 1) 1
    s.owns k q = true → AnswersVf .qstat s (0 :: (List.range 16).map fun i => leNat (((s.qcb q).bytes.drop (8 * i)).take 8)) fun t =>
      t.slots = s.slots ∧ t.hubs = s.hubs := by
  intro k q ho
  have hex := exec_qstat s
  unfold execQstat State.serveVf at hex
  dsimp only at hex
  rw [if_pos hm, if_neg (show ¬ (!s.owns k q) = true by rw [ho]; decide)] at hex
  exact answersVf_of hex rfl ⟨(s.respond_vf _ _).2.2.1, (s.respond_vf _ _).2.2.2⟩

theorem exec_qrestart_restarts (s : State) (n : Nat) (hm : s.mailOk (s.arg.part + 1) [4096, 2] = true) :
    let k := s.arg.part
    let m := s.mail (k + 1)
    let q := m 1
    s.owns k q = true → (s.qcb q).state = 4 → s.heldBy q = some n → AnswersVf .qrestart s [0] fun t =>
      (t.slot n).qcb = { (s.slot n).qcb with state := 0, tail := (s.qreg q).2.2.2.2, head := ((s.slot n).qcb.head + m 2) % 2 ^ 32 } := by
  intro k m q ho h4 hn
  let f : Qcb → Qcb := fun b => { b with state := 0, tail := (s.qreg q).2.2.2.2, head := (b.head + m 2) % 2 ^ 32 }
  let d := s.dropStopped q
  have hslot : d.slot n = s.slot n := rfl
  have hedit : d.editQcb q f = d.setQcb n f := by
    unfold State.editQcb
    rw [show d.heldBy q = some n from hn]
  have hex : ∃ x : Slot, x.qcb = f (s.slot n).qcb ∧ exec .qrestart s =
      .next (((((d.setQcb n f).setImage q ((d.setQcb n f).slot n).qcb)).setSlot n x).respond (k + 1) [0]) := by
    refine ⟨{ ((d.setQcb n f).setImage q ((d.setQcb n f).slot n).qcb).slot n with
      addr := imageAt q, err := 0, bkstop := false, record := {}, validated := false }, ?_, ?_⟩
    · show ((d.setQcb n f).slot n).qcb = _
      unfold State.setQcb
      rw [State.setSlot_self, hslot]
    · rw [exec_qrestart]
      unfold execQrestart State.serveVf
      dsimp only
      rw [if_pos hm, if_neg (show ¬ (!s.owns k q) = true by rw [ho]; decide),
        if_neg (show ¬ ((s.qcb q).state != 4) = true by rw [h4]; decide)]
      rw [show ((s.dropStopped (s.mail (s.arg.part + 1) 1)).editQcb (s.mail (s.arg.part + 1) 1) fun b =>
        { b with state := 0, tail := (s.qreg (s.mail (s.arg.part + 1) 1)).2.2.2.2, head := (b.head + s.mail (s.arg.part + 1) 2) % 2 ^ 32 }) =
        d.setQcb n f from hedit, show (d.setQcb n f).heldBy (s.mail (s.arg.part + 1) 1) = some n from hn]
      rfl
  obtain ⟨x, hx, hex⟩ := hex
  refine answersVf_of hex (by rfl) ?_
  rw [State.slot_respond, State.setSlot_self, hx]

theorem exec_qprio_sets (s : State) (n : Nat) (hm : s.mailOk (s.arg.part + 1) [4096, 8] = true) :
    let k := s.arg.part
    let m := s.mail (k + 1)
    let q := m 1
    s.owns k q = true → m 2 ≤ (s.part k).cap → s.heldBy q = some n → AnswersVf .qprio s [0] fun t =>
      (t.slot n).newCap = some (m 2) ∧ (t.slot n).qcb = (s.slot n).qcb ∧ t.hubs = s.hubs := by
  intro k m q ho hc hn
  have hex := exec_qprio s
  unfold execQprio State.serveVf at hex
  dsimp only at hex
  rw [if_pos hm, if_neg (show ¬ (!s.owns k q || decide ((s.part k).cap < m 2)) = true by
    rw [ho, decide_eq_false (Nat.not_lt.2 hc)]; decide), show s.heldBy (s.mail (s.arg.part + 1) 1) = some n from hn] at hex
  refine answersVf_of hex rfl ?_
  rw [State.slot_respond, State.setSlot_self, (State.respond_vf ..).2.2.2]
  exact ⟨rfl, rfl, rfl⟩

/-! ### The whole partition -/

theorem State.hold_setHold (s : State) (n m : Nat) (b : Bool) : ((s.setHold n b).slot m).hold = if m = n then b else (s.slot m).hold := by
  unfold State.setHold
  extract_lets x back src u
  have hu : u.slots = s.slots := by
    unfold u
    split <;> rfl
  refine (congrArg Slot.hold (State.slot_setSlot ..)).trans ?_
  by_cases h : m = n
  · rw [if_pos h, if_pos h]
  · rw [if_neg h, if_neg h]
    unfold State.slot
    rw [hu]

/-- What a pass over slots that gives each the same HOLD leaves. -/
theorem setHolds_sets (g : State → Nat → State) (b : Bool) (hg : ∀ u n, (g u n).slots = (u.setHold n b).slots) (l : List Nat) (s : State) :
    ∀ n ∈ l, ((l.foldl g s).slot n).hold = b := by
  have hslot : ∀ u n m, ((g u n).slot m).hold = if m = n then b else (u.slot m).hold := fun u n m => by
    rw [← u.hold_setHold n m b]
    unfold State.slot
    rw [hg]
  refine foldl_establishes (fun n (t : State) => (t.slot n).hold = b) g (fun u n => ?_) (fun u n m h => ?_) l s
  · rw [hslot, if_pos rfl]
  · rw [hslot, h, ite_self]

theorem exec_psuspend_holds (s : State) (hm : s.mailOk (s.arg.part + 1) [] = true) :
    let k := s.arg.part
    ∃ t, exec .psuspend s = .next t ∧ (t.part k).suspReq = true ∧ (∀ n ∈ s.slotsOf k, (t.slot n).hold = true) ∧ SameMemory s t := by
  intro k
  have hex := exec_psuspend s
  unfold execPsuspend State.serveVf at hex
  dsimp only at hex
  rw [if_pos hm] at hex
  refine ⟨_, hex, congrArg Part.suspReq (State.setPart_self ..), ?_, SameMemory.of_eq ?_⟩
  · exact setHolds_sets (fun s n => (s.setHold n true).raise .preemptRequest { slot := n }) true (fun _ _ => rfl) (s.slotsOf k) s
  · exact foldl_keeps State.memory (fun (s : State) n => (s.setHold n true).raise .preemptRequest { slot := n })
      (fun u n => u.setHold_memory n true) (s.slotsOf k) s

theorem exec_presume_lets_go (s : State) (hm : s.mailOk (s.arg.part + 1) [] = true) :
    let k := s.arg.part
    AnswersVf .presume s [0] fun t => (t.part k).suspended = false ∧ (t.part k).suspReq = false ∧ ∀ n ∈ s.slotsOf k, (t.slot n).hold = false := by
  intro k
  have hex := exec_presume s
  unfold execPresume State.serveVf at hex
  dsimp only at hex
  rw [if_pos hm] at hex
  refine answersVf_of hex (foldl_keeps State.memory (fun (s : State) n => s.setHold n false) (fun u n => u.setHold_memory n false) (s.slotsOf k) s) ?_
  rw [State.part_respond_vf, State.setPart_self]
  refine ⟨rfl, rfl, fun n hn => ?_⟩
  rw [State.slot_respond]
  exact setHolds_sets (fun s n => s.setHold n false) false (fun _ _ => rfl) (s.slotsOf k) s n hn

theorem State.presetFor_resets (s : State) (part fn : Nat) :
    ((s.presetFor part fn).part part).rstBusy = true ∧ fn ∈ ((s.presetFor part fn).part part).waits := by
  have hb : ((s.startReset part 1 (s.hardComing part)).part part).rstBusy = true := by
    cases h : (s.part part).rstBusy with
    | false => exact (s.startReset_busy part 1 _ h).1
    | true =>
      unfold State.startReset
      rw [if_pos h]
      exact h
  unfold State.presetFor
  dsimp only
  rw [State.setPart_self]
  exact ⟨hb, List.mem_append_right _ List.mem_cons_self⟩

theorem exec_psuspendResponse_answers (s : State) (hs : (s.part s.arg.part).suspReq = true) :
    let k := s.arg.part
    ((∀ n ∈ s.slotsOf k, (s.slot n).qcb.state ≠ 2) → AnswersVf .psuspendResponse s [0] fun t => (t.part k).suspended = true) ∧
      ((∃ n ∈ s.slotsOf k, (s.slot n).qcb.state = 2) → s.arg.n ≤ s.cy → AnswersVf .psuspendResponse s [3] fun t => t.slots = s.slots) := by
  intro k
  have hex := exec_psuspendResponse s
  unfold execPsuspendResponse at hex
  dsimp only at hex
  rw [if_neg (by rw [hs]; decide)] at hex
  refine ⟨fun h => ?_, fun ⟨n, hn, h2⟩ hc => ?_⟩
  · rw [if_pos] at hex
    · refine answersVf_of hex rfl ?_
      rw [State.part_respond_vf, State.setPart_self]
    · rw [List.any_eq_false.2 fun n hn => by simpa using h n hn]
      rfl
  · rw [if_neg, if_pos hc] at hex
    · exact answersVf_of hex rfl (s.respond_vf _ _).2.2.1
    · rw [List.any_eq_true.2 ⟨n, hn, by simpa using h2⟩]
      decide

/-- Settles O53: each request by its own lemma, over what an answer leaves of its partition. -/
theorem partitionRequests : Obligations.PartitionRequests := by
  unfold Obligations.PartitionRequests
  intro s k fn g m q tail rsp answers
  refine ⟨fun hm => ⟨exec_qcreate_locked s hm, exec_qcreate_creates s hm⟩,
    fun hm ho => ⟨exec_qdestroy_destroys s hm ho, exec_qstat_answers s hm ho⟩, exec_qrestart_restarts s, exec_qprio_sets s,
    fun hm => ⟨exec_psuspend_holds s hm, exec_presume_lets_go s hm, _, ?_, s.presetFor_resets k fn⟩, exec_psuspendResponse_answers s⟩
  rw [exec_preset]
  unfold execPreset State.serveVf
  exact if_pos hm

end Sys2Proof.Machine
end

section
/-! SUPPORT. The PF's requests and the mailboxes. -/

namespace Sys2Proof.Machine

open Sys2Proof

/-! ### The PF's requests -/

theorem State.signal_dev (s : State) (fn vec : Nat) : ∃ m, (s.signal fn vec).dev = { s.dev with msix := m } := by
  unfold State.signal
  split
  · exact ⟨_, rfl⟩
  · dsimp only
    split
    · exact ⟨_, rfl⟩
    · exact ⟨_, rfl⟩

/-- The map entries that a request writes change no other field of the partition. -/
theorem Part.writeMap_keeps {α : Type} (f : Part → α) (hf : ∀ p m, f { p with ldmap := m } = f p) (p : Part) (n v mask : Nat) :
    f (p.writeMap n v mask) = f p := by
  unfold Part.writeMap
  split
  · rfl
  · exact hf ..

/-- A lock of a map that is asked for leaves the cap, the quota and all memory. -/
theorem execLdmapLock_keeps (s : State) : ∃ t, execLdmapLock s = .next t ∧ t.memory = s.memory ∧ t.hubs = s.hubs ∧
    (t.part s.arg.part).cap = (s.part s.arg.part).cap ∧ (t.part s.arg.part).quota = (s.part s.arg.part).quota := by
  unfold execLdmapLock
  dsimp only
  split
  · exact ⟨_, rfl, rfl, rfl, by rw [State.setPart_self], by rw [State.setPart_self]⟩
  · split
    · exact ⟨_, rfl, rfl, rfl, by rw [State.setPart_self], by rw [State.setPart_self]⟩
    · refine ⟨_, rfl, rfl, rfl, ?_⟩
      have h : ∀ (u : State) (x : Part) i bs, ((u.setPart s.arg.part x).extendPart s.arg.part i bs).part s.arg.part =
          { x with pmeas := SMap.put x.pmeas i (extendMeas (SMap.get 0 x.pmeas i) bs) } := fun u x i bs => by
        unfold State.extendPart
        rw [State.setPart_self, State.setPart_self]
      have hk : ∀ (u : State), (u.installKey s.arg.part).part s.arg.part = u.part s.arg.part := fun u => rfl
      rw [hk, h]
      exact ⟨rfl, rfl⟩

/-- A request of the PF is answered with the given doublewords, in a state of the given kind. -/
def AnswersPf (i : Instr) (s : State) (ws : State → List Nat) (f : State → Prop) : Prop :=
  ∃ t, exec i s = .next t ∧ t.dev.pfRsp = mailBytes (ws t) ∧ t.memory = s.memory ∧ f t

theorem exec_pconfig_configures (s : State) (hm : s.mailOk 0 ([16, 8, 17] ++ List.replicate 12 (2 ^ 64)) = true) (h3 : s.mail 0 3 ≠ 0)
    (ht : (s.part (s.mail 0 1)).tdisp = 0) :
    let m := s.mail 0
    let part := m 1
    AnswersPf .pconfig s (fun t => [0, (t.part part).ldmapCtl]) fun t =>
      (t.part part).cap = m 2 ∧ (t.part part).quota = m 3 ∧ t.hubs = s.hubs := by
  intro m part
  let p := (List.range 12).foldl (fun (p : Part) n => p.writeMap n (m (4 + n)) (2 ^ 64 - 1)) { s.part part with cap := m 2, quota := m 3 }
  let u : State := { (s.setPart part p) with arg := { part := part } }
  have hp : u.part part = p := State.setPart_self ..
  have hcap : p.cap = m 2 := foldl_keeps Part.cap _ (fun q n => q.writeMap_keeps Part.cap (fun _ _ => rfl) _ _ _) _ _
  have hquota : p.quota = m 3 := foldl_keeps Part.quota _ (fun q n => q.writeMap_keeps Part.quota (fun _ _ => rfl) _ _ _) _ _
  obtain ⟨t, hlock, hmem, hhubs, hc, hq⟩ := execLdmapLock_keeps u
  have hex : exec .pconfig s = .next (t.respond 0 [0, (t.part part).ldmapCtl]) := by
    rw [exec_pconfig]
    unfold execPconfig State.servePf
    dsimp only
    rw [if_pos hm, if_neg h3, if_neg (show ¬ s.locked part = true by unfold State.locked; rw [ht]; decide)]
    rw [show execLdmapLock { (s.setPart (s.mail 0 1) ((List.range 12).foldl (fun (p : Part) n => p.writeMap n (s.mail 0 (4 + n)) (2 ^ 64 - 1))
      { s.part (s.mail 0 1) with cap := s.mail 0 2, quota := s.mail 0 3 })) with arg := { part := s.mail 0 1 } } = .next t from hlock]
    rfl
  exact ⟨_, hex, rfl, hmem, hc.trans ((congrArg Part.cap hp).trans hcap), hq.trans ((congrArg Part.quota hp).trans hquota), hhubs⟩


theorem exec_paceform_locked (s : State) (hm : s.mailOk 0 [16, 16, 2 ^ 48] = true)
    (ht : (s.part (s.mail 0 2)).tdisp ≠ 0 ∨ (s.part (s.pl (s.mail 0 1)).part).tdisp ≠ 0) :
    AnswersPf .paceform s (fun _ => [4]) fun t => t.pls = s.pls ∧ t.hubs = s.hubs := by
  have hl : (s.locked (s.mail 0 2) || s.locked (s.pl (s.mail 0 1)).part) = true := by
    unfold State.locked
    rcases ht with h | h
    · rw [bne_iff_ne.2 h, Bool.true_or]
    · rw [bne_iff_ne.2 h, Bool.or_true]
  have hex := exec_paceform s
  unfold execPaceform State.servePf at hex
  dsimp only at hex
  rw [if_pos hm, if_pos hl] at hex
  exact ⟨_, hex, rfl, rfl, rfl, rfl⟩

theorem execPacelineForm_keeps (s : State) (hm : s.arg.m = 0) : ∃ t, execPacelineForm s = .next t ∧ t.memory = s.memory ∧ t.hubs = s.hubs := by
  unfold execPacelineForm
  dsimp only
  rw [if_pos hm]
  split
  · exact ⟨_, rfl, rfl, rfl⟩
  · split <;> exact ⟨_, rfl, rfl, rfl⟩

theorem exec_paceform_answers (s : State) (hm : s.mailOk 0 [16, 16, 2 ^ 48] = true) (h1 : (s.part (s.mail 0 2)).tdisp = 0)
    (h2 : (s.part (s.pl (s.mail 0 1)).part).tdisp = 0) :
    AnswersPf .paceform s (fun t => [0, (t.pl (s.mail 0 1)).ctl]) fun t => t.hubs = s.hubs := by
  let n := s.mail 0 1
  let u : State := if (s.pl n).formed then s else s.setPl n { s.pl n with mem := s.mail 0 3, part := s.mail 0 2 }
  have hu : u.memory = s.memory ∧ u.hubs = s.hubs := by
    unfold u
    split <;> exact ⟨rfl, rfl⟩
  obtain ⟨t, hform, hmem, hhubs⟩ := execPacelineForm_keeps { u with arg := { n := n } } rfl
  have hl : ¬ (s.locked (s.mail 0 2) || s.locked (s.pl (s.mail 0 1)).part) = true := by
    unfold State.locked
    rw [h1, h2]
    decide
  have hex : exec .paceform s = .next (t.respond 0 [0, (t.pl n).ctl]) := by
    rw [exec_paceform]
    unfold execPaceform State.servePf
    dsimp only
    rw [if_pos hm, if_neg hl]
    change (match execPacelineForm { u with arg := { n := n } } with
      | .next t => t.answer 0 [0, (t.pl n).ctl]
      | r => r) = _
    rw [hform]
    rfl
  exact ⟨_, hex, rfl, hmem.trans hu.1, hhubs.trans hu.2⟩

theorem exec_sched_sets (s : State) (hm : s.mailOk 0 [2 ^ 64] = true) : AnswersPf .sched s (fun _ => [0]) fun t =>
    t.dev.grace = bits (s.mail 0 1) 51 32 ∧ t.dev.agestep = bits (s.mail 0 1) 19 0 := by
  have hex := exec_sched s
  unfold execSched State.servePf at hex
  dsimp only at hex
  rw [if_pos hm] at hex
  exact ⟨_, hex, rfl, rfl, rfl, rfl⟩

theorem exec_sleepRequest_refused (s : State) (hm : s.mailOk 0 [] = true)
    (hb : ((List.range 16).any fun p => s.hasLaunch p || (s.part p).scrubbing || (s.part p).rstBusy) = true) :
    AnswersPf .sleepRequest s (fun _ => [3]) fun t => t.dev.power = s.dev.power := by
  have hex := exec_sleepRequest s
  unfold execSleepRequest State.servePf at hex
  dsimp only at hex
  rw [if_pos hm, if_pos hb] at hex
  exact ⟨_, hex, rfl, rfl, rfl⟩

theorem exec_sleepRequest_sleeps (s : State) (hm : s.mailOk 0 [] = true)
    (hb : ((List.range 16).any fun p => s.hasLaunch p || (s.part p).scrubbing || (s.part p).rstBusy) = false) :
    ∃ t, exec .sleepRequest s = .next t ∧ t.dev.power = .sleep ∧ t.dev.pfRsp = mailBytes [0] ∧ t.dev.pfDone = true ∧
      t.dev.pfBusy = false ∧ ∀ a, Memory.read t.mem a = if isSram (homeOf a) then 0 else Memory.read s.mem a := by
  have hex := exec_sleepRequest s
  unfold execSleepRequest State.servePf at hex
  dsimp only at hex
  rw [if_pos hm, if_neg (by rw [hb]; exact Bool.false_ne_true)] at hex
  obtain ⟨m, hd⟩ := State.signal_dev { s with dev := { s.dev with pfRsp := mailBytes [0], pfDone := true, pfBusy := false } } 0 3
  have hdev : (s.answerNow [0]).dev = _ := hd
  have hmem : (s.answerNow [0]).mem = s.mem := congrArg Prod.fst (State.signal_memory ..)
  refine ⟨_, hex, rfl, ?_, ?_, ?_, fun a => ?_⟩
  · exact congrArg Dev.pfRsp hdev
  · exact congrArg Dev.pfDone hdev
  · exact congrArg Dev.pfBusy hdev
  · refine (Memory.read_filter _ (fun a => !isSram (homeOf a)) a).trans ?_
    rw [hmem]
    cases isSram (homeOf a) <;> rfl

/-! ### GO and DONE -/

theorem State.wakeDies_awake (s : State) (hp : s.dev.power = .active) (hg : s.dev.gatedAt = none) : s.wakeDies = s := by
  unfold State.wakeDies State.dozing
  rw [if_neg (by rw [hp, hg]; decide)]

theorem State.serve_leaves (s : State) (fn : Nat) : (s.serve fn).hubs = s.hubs ∧ (s.serve fn).dev.pfBusy = s.dev.pfBusy ∧
    ∀ k, ((s.serve fn).part k).mbBusy = (s.part k).mbBusy := by
  have hr : ∀ ws, (s.respond fn ws).hubs = s.hubs ∧ (s.respond fn ws).dev.pfBusy = s.dev.pfBusy ∧
      ∀ k, ((s.respond fn ws).part k).mbBusy = (s.part k).mbBusy := fun ws => by
    cases fn with
    | zero => exact ⟨rfl, rfl, fun _ => rfl⟩
    | succ k =>
      obtain ⟨hp, hd, -, hh⟩ := s.respond_vf k ws
      refine ⟨hh, congrArg Dev.pfBusy hd, fun j => ?_⟩
      show ((s.setPart k { s.part k with mbRsp := mailBytes ws }).part j).mbBusy = _
      rw [State.part_setPart]
      split
      · rename_i h
        rw [h]
      · rfl
  unfold State.serve
  split
  · exact hr _
  · split
    · exact ⟨rfl, rfl, fun _ => rfl⟩
    · extract_lets code
      split
      · exact hr _
      · exact hr _

theorem exec_mailboxGo_pf (s : State) (hf : s.arg.fn = 0) (hp : s.dev.power = .active) (hg : s.dev.gatedAt = none) :
    (s.dev.pfBusy = true → exec .mailboxGo s = .next s) ∧
      (s.dev.pfBusy = false → ∃ t, exec .mailboxGo s = .next t ∧ t.dev.pfBusy = true ∧ SameMemory s t ∧ t.hubs = s.hubs) := by
  have hex : exec .mailboxGo s = if s.dev.pfBusy then .next s else
      let u := State.interrupt { s with dev := { s.dev with pfBusy := true } } 0 1
      if u.dev.bootRec then .next u.romServe else .next (if u.fwRuns then u.serve 0 else u) := by
    rw [exec_mailboxGo]
    unfold execMailboxGo
    dsimp only
    rw [if_neg (show ¬ (s.dev.power = .sleep ∧ s.arg.fn = 0) from fun h => absurd (hp.symm.trans h.1) (by decide)),
      s.wakeDies_awake hp hg, if_pos hf]
  refine ⟨fun hb => hex.trans (if_pos hb), fun hb => ?_⟩
  rw [if_neg (by rw [hb]; exact Bool.false_ne_true)] at hex
  extract_lets src u at hex
  have hrom : u.romServe.dev.pfBusy = true ∧ u.romServe.hubs = s.hubs := by
    unfold State.romServe
    split <;> exact ⟨rfl, rfl⟩
  split at hex
  · exact ⟨_, hex, hrom.1, SameMemory.of_eq ((State.romServe_memory u).trans rfl), hrom.2⟩
  · split at hex
    · obtain ⟨hh, hpf, -⟩ := u.serve_leaves 0
      exact ⟨_, hex, hpf, SameMemory.of_eq ((u.serve_memory 0).trans rfl), hh⟩
    · exact ⟨_, hex, rfl, SameMemory.of_eq rfl, rfl⟩

theorem exec_mailboxGo_vf (s : State) (h1 : 1 ≤ s.arg.fn) (h16 : s.arg.fn ≤ 16) (hp : s.dev.power = .active) (hr : s.dev.bootRec = false)
    (hb : (s.part (s.arg.fn - 1)).mbBusy = false) :
    ∃ t, exec .mailboxGo s = .next t ∧ (t.part (s.arg.fn - 1)).mbBusy = true ∧ SameMemory s t ∧ t.hubs = s.hubs := by
  let k := s.arg.fn - 1
  obtain ⟨hwa, hwm, hwh, hwd, hwp⟩ : s.wakeDies.arg = s.arg ∧ s.wakeDies.memory = s.memory ∧ s.wakeDies.hubs = s.hubs ∧
      s.wakeDies.dev = s.dev ∧ s.wakeDies.part k = s.part k := by
    unfold State.wakeDies
    split <;> exact ⟨rfl, rfl, rfl, rfl, rfl⟩
  let u := (s.wakeDies.setPart k { s.part k with mbBusy := true }).interrupt k 1
  have hu : (u.part k).mbBusy = true := by
    unfold u State.interrupt
    exact congrArg Part.mbBusy (State.setPart_self ..)
  have hex : exec .mailboxGo s = .next (if u.fwRuns then u.serve s.arg.fn else u) := by
    rw [exec_mailboxGo]
    unfold execMailboxGo
    dsimp only
    rw [if_neg (show ¬ (s.dev.power = .sleep ∧ s.arg.fn = 0) from fun h => absurd (hp.symm.trans h.1) (by decide)),
      if_neg (show ¬ s.arg.fn = 0 by omega), if_neg, show s.wakeDies.part (s.arg.fn - 1) = s.part k from hwp, if_neg]
    · rw [show (s.part k).mbBusy = false from hb]
      exact Bool.false_ne_true
    · rw [hwd, hr, decide_eq_false (by omega)]
      decide
  obtain ⟨hh, -, hmb⟩ := u.serve_leaves s.arg.fn
  split at hex
  · exact ⟨_, hex, (hmb k).trans hu, SameMemory.of_eq ((u.serve_memory _).trans hwm), hh.trans hwh⟩
  · exact ⟨_, hex, hu, SameMemory.of_eq hwm, hwh⟩

theorem exec_mailboxDone_pf (s : State) (hf : s.arg.fn = 0) :
    ∃ t, exec .mailboxDone s = .next t ∧ t.dev.pfDone = true ∧ t.dev.pfBusy = false ∧ SameMemory s t := by
  have hex := exec_mailboxDone s
  unfold execMailboxDone at hex
  dsimp only at hex
  rw [if_pos hf] at hex
  obtain ⟨m, hd⟩ := State.signal_dev { s with dev := { s.dev with pfDone := true, pfBusy := false } } 0 3
  exact ⟨_, hex, congrArg Dev.pfDone hd, congrArg Dev.pfBusy hd, SameMemory.of_eq (State.signal_memory ..)⟩

theorem exec_mailboxDone_vf (s : State) (hf : s.arg.fn ≠ 0) :
    ∃ t, exec .mailboxDone s = .next t ∧ (t.part (s.arg.fn - 1)).mbDone = true ∧ (t.part (s.arg.fn - 1)).mbBusy = false ∧ SameMemory s t := by
  have hex := exec_mailboxDone s
  unfold execMailboxDone at hex
  dsimp only at hex
  rw [if_neg hf] at hex
  refine ⟨_, hex, ?_, ?_, SameMemory.of_eq (State.signal_memory ..)⟩
  · rw [State.part_signal, State.setPart_self]
  · rw [State.part_signal, State.setPart_self]

/-- Settles O54: each request of the PF and each of the mailboxes' own events by its own lemma. -/
theorem packageRequests : Obligations.PackageRequests := by
  unfold Obligations.PackageRequests
  intro s m part rsp busy
  refine ⟨fun hm h3 ht => ?_, fun hm ht => ?_, fun hm h1 h2 => ?_, fun hm => ?_, fun hm => ?_, fun hm => ⟨fun hb => ?_, exec_sleepRequest_sleeps s hm⟩,
    exec_mailboxGo_pf s, exec_mailboxGo_vf s, exec_mailboxDone_pf s, exec_mailboxDone_vf s⟩
  · obtain ⟨t, hex, hr, hmem, hc, hq, hh⟩ := exec_pconfig_configures s hm h3 ht
    exact ⟨t, hex, hc, hq, hr, SameMemory.of_eq hmem, hh⟩
  · obtain ⟨t, hex, hr, hmem, hp, hh⟩ := exec_paceform_locked s hm ht
    exact ⟨t, hex, hr, hp, SameMemory.of_eq hmem, hh⟩
  · obtain ⟨t, hex, hr, hmem, hh⟩ := exec_paceform_answers s hm h1 h2
    exact ⟨t, hex, hr, SameMemory.of_eq hmem, hh⟩
  · obtain ⟨t, hex, hr, hmem, hg, ha⟩ := exec_sched_sets s hm
    exact ⟨t, hex, hg, ha, hr, SameMemory.of_eq hmem⟩
  · rw [exec_presetPf]
    unfold execPresetPf State.servePf
    rw [if_pos hm]
    exact ⟨_, rfl, s.presetFor_resets part 0⟩
  · obtain ⟨t, hex, hr, hmem, hp⟩ := exec_sleepRequest_refused s hm hb
    exact ⟨t, hex, hr, hp, SameMemory.of_eq hmem⟩

end Sys2Proof.Machine
end

section
/-! SUPPORT. Boot, recovery and debug tokens. -/

namespace Sys2Proof.Machine

open Sys2Proof

/-! ### The steps of a boot -/

/-- What the steps of a boot leave alone: the hubs, the slots, the partitions and memory. -/
def State.outsideRom (s : State) : SMap Hub × SMap Slot × SMap Part × (List Host.Cell × SMap Bool × SMap Nat × SMap Bool) :=
  (s.hubs, s.slots, s.parts, s.memory)

theorem State.outsideRom_signal (s : State) (fn vec : Nat) : (s.signal fn vec).outsideRom = s.outsideRom := by
  unfold State.signal
  split
  · rfl
  · dsimp only
    split <;> rfl

theorem State.boot_leaves (s : State) (f : Dev → Dev) : (s.boot f).outsideRom = s.outsideRom ∧ (s.boot f).dev.base = (f s.dev).base :=
  ⟨State.outsideRom_signal .., State.devBase_signal ..⟩

theorem State.startFirmware_starts (s : State) (h : List Byte) : (s.startFirmware h).outsideRom = s.outsideRom ∧
    ∃ m v w, (s.startFirmware h).dev.base =
      { s.dev.base with meas := m, bootStage := 5, bootErr := 0, bootRec := false, bootMinsvn := v, bootSvn := w } := by
  unfold State.startFirmware
  extract_lets svn u v
  obtain ⟨h1, h2⟩ := u.boot_leaves fun d => { d with bootStage := 5, bootErr := 0, bootRec := false, bootMinsvn := max d.bootMinsvn svn, bootSvn := svn }
  exact ⟨h1, _, _, _, h2⟩


/-- The fuses, the power state and the BUSY of the PF mailbox, which a boot leaves as it finds them. -/
def Dev.fuses (d : Dev) : SMap Nat × Bool × Power × Bool := (d.mix, d.vdbgoff, d.power, d.pfBusy)

theorem Dev.fuses_of_base {d e : Dev} (h : d.base = e.base) : d.fuses = e.fuses := congrArg (fun x => x.fuses) h

theorem State.stage_leaves (s : State) (n : Nat) :
    (s.stage n).outsideRom = s.outsideRom ∧ (s.stage n).dev.base = { s.dev.base with bootStage := n } := s.boot_leaves _

/-- Where a boot stands: ERR, whether it waits for a recovery image, and STAGE. -/
def Dev.rom (d : Dev) : Nat × Bool × Nat := (d.bootErr, d.bootRec, d.bootStage)

theorem State.boot_fuses (s : State) (f : Dev → Dev) : (s.boot f).dev.fuses = (f s.dev).fuses := by
  obtain ⟨m, h⟩ := State.signal_dev { s with dev := f s.dev } 0 1
  unfold State.boot
  rw [h]
  rfl

theorem State.boot_rom (s : State) (f : Dev → Dev) : (s.boot f).dev.rom = (f s.dev).rom := by
  obtain ⟨m, h⟩ := State.signal_dev { s with dev := f s.dev } 0 1
  unfold State.boot
  rw [h]
  rfl

theorem State.extendDev_boots (s : State) (i : Nat) (bs : List Byte) : (s.extendDev i bs).outsideRom = s.outsideRom ∧
    (s.extendDev i bs).dev.fuses = s.dev.fuses ∧ (s.extendDev i bs).dev.rom = s.dev.rom := ⟨rfl, rfl, rfl⟩

theorem State.imageErr_short (s : State) (i : ImageAt) (h : i.len < imageHeader) : s.imageErr i = (2, []) := by
  unfold State.imageErr State.imageBytes
  rw [if_neg (by omega)]

theorem State.bootImage_boots (s : State) (n : Nat) (hp : s.dev.pfBusy = false) :
    (s.bootImage n).outsideRom = s.outsideRom ∧ (s.bootImage n).dev.fuses = s.dev.fuses ∧
      (n < imageHeader → (s.bootImage n).dev.bootErr = 2 ∧ (s.bootImage n).dev.bootRec = true ∧ (s.bootImage n).dev.bootStage = 3) := by
  unfold State.bootImage
  extract_lets u src r v w
  obtain ⟨hu1, hu2⟩ := s.stage_leaves 3
  have hfu : u.dev.fuses = s.dev.fuses := (congrArg Dev.fuses (show u.dev.base = { s.dev.base with bootStage := 3 } from hu2)).trans rfl
  have hv : v.outsideRom = s.outsideRom ∧ v.dev.fuses = s.dev.fuses ∧ (n < imageHeader → r.1 = 2 ∧ v.dev.base = u.dev.base) := by
    have hshort : n < imageHeader → r = (2, []) := fun h => State.imageErr_short _ _ (Nat.lt_of_le_of_lt (Nat.min_le_left ..) h)
    unfold v
    split
    · rename_i hpast
      obtain ⟨h1, h2⟩ := u.stage_leaves 4
      refine ⟨h1.trans hu1, ?_, fun h => ?_⟩
      · exact (congrArg Dev.fuses h2).trans hfu
      · rw [hshort h] at hpast
        exact absurd hpast (by decide)
    · exact ⟨hu1, hfu, fun h => ⟨congrArg Prod.fst (hshort h), rfl⟩⟩
  obtain ⟨hv1, hv2, hv3⟩ := hv
  split
  · rename_i h0
    obtain ⟨h1, m, x, y, h2⟩ := v.startFirmware_starts r.2
    refine ⟨h1.trans hv1, (congrArg Dev.fuses h2).trans hv2, fun h => ?_⟩
    rw [(hv3 h).1] at h0
    cases h0
  · obtain ⟨h1, h2⟩ := v.boot_leaves fun d => { d with bootErr := r.1, bootRec := true }
    have hf : w.dev.fuses = s.dev.fuses := (congrArg Dev.fuses h2).trans hv2
    have hpf : w.dev.pfBusy = false := (congrArg (fun x => x.2.2.2) hf).trans hp
    rw [if_neg (by rw [hpf]; exact Bool.false_ne_true)]
    refine ⟨h1.trans hv1, hf, fun h => ?_⟩
    obtain ⟨h3, h4⟩ := hv3 h
    exact ⟨(congrArg Dev.bootErr h2).trans h3, congrArg Dev.bootRec h2,
      (congrArg Dev.bootStage h2).trans ((congrArg Dev.bootStage h4).trans (congrArg Dev.bootStage hu2))⟩

theorem State.mixOk_of_fuses {s t : State} (h : t.dev.fuses = s.dev.fuses) : t.mixOk = s.mixOk := by
  have hm : t.dev.mix = s.dev.mix := congrArg Prod.fst h
  unfold State.mixOk State.fitted State.kind State.good
  rw [hm]

theorem State.runRom_boots (s : State) (n : Nat) (hp : s.dev.pfBusy = false) :
    (s.runRom n).outsideRom = s.outsideRom ∧ (s.runRom n).dev.fuses = s.dev.fuses ∧
      (s.mixOk = false → (s.runRom n).dev.bootErr = 1 ∧ (s.runRom n).dev.bootRec = false ∧ (s.runRom n).dev.bootStage = 2) ∧
      (s.mixOk = true → n < imageHeader →
        (s.runRom n).dev.bootErr = 2 ∧ (s.runRom n).dev.bootRec = true ∧ (s.runRom n).dev.bootStage = 3) := by
  unfold State.runRom
  extract_lets src src2 a b c d
  have hb1 : b.outsideRom = a.outsideRom := (a.boot_leaves _).1
  have hbf : b.dev.fuses = a.dev.fuses := a.boot_fuses _
  have hbr : b.dev.rom = (0, false, 1) := a.boot_rom _
  have hd1 : d.outsideRom = c.outsideRom := (c.boot_leaves _).1
  have hdf : d.dev.fuses = c.dev.fuses := c.boot_fuses _
  have hdr : d.dev.rom = (c.dev.rom.1, c.dev.rom.2.1, 2) := c.boot_rom _
  obtain ⟨he1, he2, he3⟩ := b.extendDev_boots 0 (digestBytes Config.romDigest)
  obtain ⟨hc1, hc2, hc3⟩ := (b.extendDev 0 (digestBytes Config.romDigest)).extendDev_boots 1 b.mixBytes
  clear_value b
  have hd : d.outsideRom = s.outsideRom := hd1.trans (hc1.trans (he1.trans hb1))
  have hf : d.dev.fuses = s.dev.fuses := hdf.trans (hc2.trans (he2.trans hbf))
  have hr : d.dev.rom = (0, false, 2) := by
    rw [hdr, show c.dev.rom = _ from hc3.trans (he3.trans hbr)]
  clear_value d
  rw [State.mixOk_of_fuses hf]
  split
  · rename_i hm
    obtain ⟨h1, h2, h3⟩ := d.bootImage_boots n ((congrArg (fun x => x.2.2.2) hf).trans hp)
    exact ⟨h1.trans hd, h2.trans hf, fun h => absurd (hm.symm.trans h) (by decide), fun _ => h3⟩
  · rename_i hm
    have h1 := (d.boot_leaves fun d => { d with bootErr := 1 }).1
    have h2 := d.boot_fuses fun d => { d with bootErr := 1 }
    have h3 := d.boot_rom fun d => { d with bootErr := 1 }
    exact ⟨h1.trans hd, h2.trans hf,
      fun _ => ⟨congrArg Prod.fst h3, (congrArg (fun x => x.2.1) h3).trans (congrArg (fun x => x.2.1) hr),
        (congrArg (fun x => x.2.2) h3).trans (congrArg (fun x => x.2.2) hr)⟩, fun h => absurd h hm⟩

theorem State.trainLinks_leaves (s : State) : (s.trainLinks).outsideRom = s.outsideRom ∧ s.trainLinks.dev = s.dev := by
  unfold State.trainLinks
  constructor
  · exact foldl_keeps State.outsideRom (fun (s : State) (x : Nat × Nat) => (s.after s.transit .linkTrainingDone { pos := x.1, m := x.2 }).useFree)
      (fun _ _ => rfl) _ _
  · exact foldl_keeps State.dev (fun (s : State) (x : Nat × Nat) => (s.after s.transit .linkTrainingDone { pos := x.1, m := x.2 }).useFree)
      (fun _ _ => rfl) _ _

theorem exec_coldReset_boots (s : State) :
    ∃ t, exec .coldReset s = .next t ∧ t.dev.mix = s.dev.mix ∧ t.dev.vdbgoff = s.dev.vdbgoff ∧ t.dev.power = .active ∧ t.hubs = [] ∧ t.slots = [] ∧
      t.parts = [] ∧ (∀ a, Memory.read t.mem a = if homeFlash ≤ homeOf a then Memory.read s.mem a else 0) ∧
      (s.mixOk = false → t.dev.bootErr = 1 ∧ t.dev.bootRec = false ∧ t.dev.bootStage = 2) ∧
      (s.mixOk = true → s.arg.ok = false → s.arg.off < imageHeader → t.dev.bootErr = 2 ∧ t.dev.bootRec = true ∧ t.dev.bootStage = 3) := by
  let u := s.cold.startClocks.trainLinks
  obtain ⟨ht1, ht2⟩ := s.cold.startClocks.trainLinks_leaves
  have hdev : u.dev = { mix := s.dev.mix, vdbgoff := s.dev.vdbgoff, bootMinsvn := s.dev.bootMinsvn } := ht2
  obtain ⟨h1, h2, h3, h4⟩ := u.runRom_boots s.arg.flashBytes (by rw [hdev])
  have hout := h1.trans ht1
  have hf : (u.runRom s.arg.flashBytes).dev.fuses = (s.dev.mix, s.dev.vdbgoff, .active, false) := by
    rw [h2, hdev]
    rfl
  have hmix : u.mixOk = s.mixOk := by
    unfold State.mixOk State.fitted State.kind State.good
    rw [hdev]
  have hmem : (u.runRom s.arg.flashBytes).mem = s.cold.mem := congrArg (fun x => x.2.2.2.1) hout
  refine ⟨_, exec_coldReset s, congrArg Prod.fst hf, congrArg (fun x => x.2.1) hf, congrArg (fun x => x.2.2.1) hf, congrArg Prod.fst hout,
    congrArg (fun x => x.2.1) hout, congrArg (fun x => x.2.2.1) hout, fun a => ?_, fun h => h3 (hmix.trans h), fun h hok hoff => h4 (hmix.trans h) ?_⟩
  · rw [hmem]
    refine (Memory.read_filter s.mem (fun a => decide (homeFlash ≤ homeOf a)) a).trans ?_
    simp only [decide_eq_true_eq]
    rfl
  · unfold Arg.flashBytes
    rw [hok]
    exact hoff

/-! ### Firmware's first report and recovery -/

theorem exec_firmwareFirstReport_reports (s : State) (hs : s.dev.bootStage = 5) (hp : s.dev.pfBusy = false)
    (hm : ∀ p, p < 16 → (s.part p).mbBusy = false) :
    ∃ t, exec .firmwareFirstReport s = .next t ∧ t.dev.bootStage = 6 ∧ SameMemory s t ∧ t.hubs = s.hubs := by
  obtain ⟨h1, h2⟩ := s.stage_leaves 6
  have hpf : (s.stage 6).dev.pfBusy = false := (congrArg Dev.pfBusy h2).trans hp
  have hpart : ∀ p, (s.stage 6).part p = s.part p := fun p => State.part_of_parts (congrArg (fun x => x.2.2.1) h1) p
  have hfold : ∀ l : List Nat, (∀ p ∈ l, p < 16) → l.foldl (fun (s : State) p =>
      if (s.part p).mbBusy && !(s.part p).waits.contains (p + 1) then s.serve (p + 1) else s) (s.stage 6) = s.stage 6 := fun l => by
    induction l with
    | nil => exact fun _ => rfl
    | cons p r ih =>
      intro hl
      rw [List.foldl_cons, if_neg]
      · exact ih fun q hq => hl q (List.mem_cons_of_mem _ hq)
      · rw [hpart, hm p (hl p List.mem_cons_self), Bool.false_and]
        exact Bool.false_ne_true
  have hex := exec_firmwareFirstReport s
  unfold execFirmwareFirstReport at hex
  dsimp only at hex
  rw [if_neg (fun h => h hs), hpf, Bool.false_and, if_neg Bool.false_ne_true, hfold _ fun p h => List.mem_range.1 h] at hex
  exact ⟨_, hex, congrArg Dev.bootStage h2, SameMemory.of_eq (congrArg (fun x => x.2.2.2) h1), congrArg Prod.fst h1⟩

theorem exec_recoveryImageLoad_loads (s : State) (hr : s.dev.bootRec = true) :
    let i : ImageAt := ⟨flat (homeHost 16 none) (s.mail 0 1), s.mail 0 2⟩
    let r := ((s.stage 3).imageErr i).1
    (i.len < imageHeader → r = 2) ∧ ∃ t, exec .recoveryImageLoad s = .next t ∧ t.dev.pfRsp = mailBytes [r] ∧ t.dev.bootErr = r ∧
      (r = 0 → t.dev.bootStage = 5 ∧ t.dev.bootRec = false) ∧ (r ≠ 0 → t.dev.bootRec = true ∧ SameMemory s t) := by
  intro i r
  refine ⟨fun h => congrArg Prod.fst ((s.stage 3).imageErr_short i h), ?_⟩
  rw [exec_recoveryImageLoad]
  unfold execRecoveryImageLoad
  extract_lets u r' v bs
  rw [if_neg (by rw [hr]; decide)]
  have hv : v.memory = s.memory ∧ v.dev.bootRec = true := by
    obtain ⟨h1, h2⟩ := s.stage_leaves 3
    unfold v
    split
    · obtain ⟨h3, h4⟩ := u.stage_leaves 4
      exact ⟨(congrArg (fun x => x.2.2.2) h3).trans (congrArg (fun x => x.2.2.2) h1),
        (congrArg Dev.bootRec h4).trans ((congrArg Dev.bootRec h2).trans hr)⟩
    · exact ⟨congrArg (fun x => x.2.2.2) h1, (congrArg Dev.bootRec h2).trans hr⟩
  have hr' : r'.1 = r := rfl
  clear_value v r r'
  subst hr'
  by_cases h0 : r'.1 = 0
  · rw [if_neg (fun h => h h0)]
    obtain ⟨-, m, x, y, h2⟩ := (v.writeBytes (flat homeFlash 0) bs false).startFirmware_starts r'.2
    exact ⟨_, rfl, congrArg (fun x => mailBytes [x]) h0.symm, (congrArg Dev.bootErr h2).trans h0.symm,
      fun _ => ⟨congrArg Dev.bootStage h2, congrArg Dev.bootRec h2⟩, fun h => absurd h0 h⟩
  · rw [if_pos h0]
    have h1 := (v.boot_leaves fun d => { d with bootErr := r'.1 }).1
    have h2 : (v.boot fun d => { d with bootErr := r'.1 }).dev.rom = (r'.1, v.dev.bootRec, v.dev.bootStage) := v.boot_rom _
    generalize v.boot (fun d => { d with bootErr := r'.1 }) = w at h1 h2
    obtain ⟨herr, hrec⟩ := Prod.ext_iff.1 h2
    have hmem : w.memory = s.memory := (congrArg (fun x => x.2.2.2) h1).trans hv.1
    obtain ⟨h3, -, -, -⟩ := w.respond_pf [r'.1]
    have h4 : (w.respond 0 [r'.1]).memory = w.memory := rfl
    generalize w.respond 0 [r'.1] = x at h3 h4
    refine ⟨x, rfl, ?_, ?_, fun h => absurd h h0, fun _ => ⟨?_, SameMemory.of_eq (h4.trans hmem)⟩⟩
    · rw [h3]
    · rw [h3]
      exact herr
    · rw [h3]
      exact (congrArg Prod.fst hrec).trans hv.2

/-! ### Debug tokens -/

theorem State.devBase_passLaunches (s : State) (part : Nat) : (s.passLaunches part).dev.base = s.dev.base := by
  unfold State.passLaunches
  extract_lets reset t
  have ht : t.dev.base = s.dev.base := by
    refine foldl_keeps (fun t : State => t.dev.base) _ (fun u n => ?_) _ s
    extract_lets st live v w x
    have hv : v.dev.base = u.dev.base := by
      unfold v
      split
      · exact State.devBase_slotRecord ..
      · rfl
    refine Eq.trans ?_ hv
    show w.dev.base = _
    unfold w
    split
    · rw [State.dev_dropLaunch]
    · rfl
  split <;> exact (State.devBase_loseSaved ..).trans ht

theorem State.dev_zeroDies (ps : List Nat) : ∀ s : State, (s.zeroDies ps).dev = s.dev := by
  induction ps with
  | nil => exact fun _ => rfl
  | cons p r ih => exact fun s => ih (s.zeroDie p)

/-- A scrub begins: the device is as it was, the partition counts an epoch and scrubs, and no other partition changes. -/
theorem State.scrubDies_begins (s : State) (k : Nat) : (s.scrubDies k).dev = s.dev ∧
    ∀ q, (s.scrubDies k).part q = if q = k then { s.part k with
      epoch := (s.part k).epoch + 1, scrubbing := true, phases := [], barriers := [], susp := [],
      rstPhase := if (s.part k).rstBusy then 4 else (s.part k).rstPhase } else s.part q := by
  unfold State.scrubDies
  extract_lets p t ds v w x
  constructor
  · exact State.dev_zeroDies ds _
  · intro q
    refine (State.part_of_parts (t := ((x.after (1 + Config.transit x.free % (4900 * Config.cyPerUs)) .partitionScrubDone { part := k }).useFree))
      (s := t) ?_ q).trans (State.part_setPart ..)
    exact State.parts_zeroDies ds _

theorem State.scrub_begins (s : State) (k : Nat) : (s.scrub k).dev.base = s.dev.base ∧ ((s.scrub k).part k).scrubbing = true ∧
    ((s.scrub k).part k).enter = (s.part k).enter ∧ ((s.scrub k).part k).tdisp = (s.part k).tdisp ∧ ((s.scrub k).part k).epoch = (s.part k).epoch + 1 ∧
    ∀ q, ((s.scrub k).part q).rstBusy = (s.part q).rstBusy ∧ ((s.part q).scrubbing = true → ((s.scrub k).part q).scrubbing = true) := by
  have hpass : ∀ q, ((s.passLaunches k).part q).mapRegs = (s.part q).mapRegs := s.mapRegs_passLaunches k
  obtain ⟨hd, hp⟩ := (s.passLaunches k).scrubDies_begins k
  unfold State.scrub
  refine ⟨(congrArg Dev.base hd).trans (s.devBase_passLaunches k), ?_, ?_, ?_, ?_, fun q => ⟨?_, fun h => ?_⟩⟩
  · rw [hp, if_pos rfl]
  · rw [hp, if_pos rfl]
    exact congrArg (fun x => x.2.2.2.2.2.2.1) (hpass k)
  · rw [hp, if_pos rfl]
    exact congrArg (fun x => x.2.2.2.2.2.2.2) (hpass k)
  · rw [hp, if_pos rfl]
    exact congrArg (fun x => x.2.2.2.1 + 1) (hpass k)
  · rw [hp]
    split
    · rename_i hq
      rw [hq]
      exact congrArg (fun x => x.2.2.2.2.1) (hpass k)
    · exact congrArg (fun x => x.2.2.2.2.1) (hpass q)
  · rw [hp]
    split
    · rfl
    · exact (congrArg (fun x => x.2.2.2.2.2.1) (hpass q)).trans h

/-- The scrubs of every partition that is not being reset. -/
def State.scrubAll (s : State) : State := (List.range 16).foldl (fun (s : State) p => if (s.part p).rstBusy then s else s.scrub p) s

theorem State.scrubAll_scrubs (s : State) : s.scrubAll.dev.base = s.dev.base ∧
    ∀ p, p < 16 → (s.part p).rstBusy = false → (s.scrubAll.part p).scrubbing = true := by
  constructor
  · refine foldl_keeps (fun t : State => t.dev.base) _ (fun u p => ?_) _ s
    split
    · rfl
    · exact (u.scrub_begins p).1
  · intro p hp h0
    have hbusy : ∀ u : State, ∀ a q, ((if (u.part a).rstBusy then u else u.scrub a).part q).rstBusy = (u.part q).rstBusy := fun u a q => by
      split
      · rfl
      · exact ((u.scrub_begins a).2.2.2.2.2 q).1
    have hkept := foldl_keeps (fun t : State => (t.part p).rstBusy) (fun (s : State) p => if (s.part p).rstBusy then s else s.scrub p)
      (fun u a => hbusy u a p) (List.range 16) s
    have hest := foldl_establishes (fun q (t : State) => (t.part q).rstBusy = true ∨ (t.part q).scrubbing = true)
      (fun (s : State) p => if (s.part p).rstBusy then s else s.scrub p)
      (fun u a => ?_) (fun u a b h => ?_) (List.range 16) s p (List.mem_range.2 hp)
    · refine Or.resolve_left hest fun h => ?_
      rw [show (_ : Bool) = _ from hkept, h0] at h
      cases h
    · by_cases hb : (u.part a).rstBusy = true
      · rw [if_pos hb]
        exact .inl hb
      · rw [if_neg hb]
        exact .inr (u.scrub_begins a).2.1
    · rw [hbusy u b a]
      refine h.imp_right fun h => ?_
      split
      · exact h
      · exact ((u.scrub_begins b).2.2.2.2.2 a).2 h

section
variable {s : State} (hfw : s.fwRuns = true)
include hfw

theorem exec_debugToken_partition (hk : fieldOf s.arg.bytes 1 1 = 1) (hfn : s.arg.fn = fieldOf s.arg.bytes 2 1 + 1) (hp : fieldOf s.arg.bytes 2 1 < 16)
    (hb : (s.part (fieldOf s.arg.bytes 2 1)).rstBusy = false) (hl : s.hasLaunch (fieldOf s.arg.bytes 2 1) = false) :
    let t := s.arg.bytes
    let part := fieldOf t 2 1
    ∃ u, exec .debugToken s = .next u ∧
      (s.tokenOk t (s.part part).ownkh = true → (u.part part).scrubbing = true ∧ (u.part part).enter = true ∧
        (u.part part).epoch = (s.part part).epoch + 1) ∧
      (s.tokenOk t (s.part part).ownkh = false → u = s) := by
  intro t part
  rw [exec_debugToken]
  unfold execDebugToken
  dsimp only
  rw [if_neg (by simp [hfw]; omega), hk]
  rw [if_neg (by rw [hb]; exact Bool.false_ne_true), hl]
  cases ht : s.tokenOk t (s.part part).ownkh with
  | false => exact ⟨s, if_pos (.inr (.inl (by decide))), nofun, fun _ => rfl⟩
  | true =>
    obtain ⟨-, h2, h3, -, h4, -⟩ := (s.setPart part { s.part part with enter := true }).scrub_begins part
    rw [State.setPart_self] at h3 h4
    exact ⟨_, if_neg (by simp [hfn]), fun _ => ⟨h2, h3, h4⟩, nofun⟩

/-- What a token of kind 2 does, which the PF brings. -/
theorem exec_debugToken_kind2 (hk : fieldOf s.arg.bytes 1 1 = 2) (hfn : s.arg.fn = 0) : exec .debugToken s =
    if fieldOf s.arg.bytes 2 1 ≠ 0 ∨ !s.tokenOk s.arg.bytes Config.khash ∨ s.dev.vdbgoff ∨ (List.range 16).any s.hasLaunch then .next s
    else .next (State.scrubAll { s with dev := { s.dev with vendorEnter := true } }) := by
  rw [exec_debugToken]
  unfold execDebugToken
  rw [if_neg (by simp [hfw, hfn]), hk]
  refine if_congr ?_ rfl rfl
  simp [hfn]

theorem exec_debugToken_vendor (hk : fieldOf s.arg.bytes 1 1 = 2) (hfn : s.arg.fn = 0) (hp : fieldOf s.arg.bytes 2 1 = 0)
    (hv : s.dev.vdbgoff = false) (hl : ∀ p, p < 16 → s.hasLaunch p = false) :
    let t := s.arg.bytes
    ∃ u, exec .debugToken s = .next u ∧
      (s.tokenOk t Config.khash = true → u.dev.vendorEnter = true ∧ u.dev.bootDbg = s.dev.bootDbg ∧
        ∀ p, p < 16 → (s.part p).rstBusy = false → (u.part p).scrubbing = true) ∧
      (s.tokenOk t Config.khash = false → u = s) := by
  intro t
  have hany : (List.range 16).any s.hasLaunch = false := by
    rw [List.any_eq_false]
    intro p h
    rw [hl p (List.mem_range.1 h)]
    exact Bool.false_ne_true
  rw [exec_debugToken_kind2 hfw hk hfn, hany, hv]
  cases ht : s.tokenOk t Config.khash with
  | false => exact ⟨s, if_pos (.inr (.inl (by decide))), nofun, fun _ => rfl⟩
  | true =>
    let v : State := { s with dev := { s.dev with vendorEnter := true } }
    obtain ⟨h1, h2⟩ := v.scrubAll_scrubs
    have hv1 : v.dev.base.vendorEnter = true := rfl
    have hv2 : v.dev.base.bootDbg = s.dev.bootDbg := rfl
    have hv3 : ∀ p, v.part p = s.part p := fun _ => rfl
    rw [if_neg (by simp [hp])]
    refine ⟨v.scrubAll, rfl, fun _ => ?_, nofun⟩
    generalize v.scrubAll = x at h1 h2
    rw [← h1] at hv1 hv2
    exact ⟨hv1, hv2, fun p h hb => h2 p h ((congrArg Part.rstBusy (hv3 p)).trans hb)⟩

end

/-- Settles O55: a boot changes the device alone and is followed step by step through the ROM; a token's scrubs are followed partition by partition. -/
theorem bootAndTokens : Obligations.BootAndTokens := by
  unfold Obligations.BootAndTokens
  intro s
  refine ⟨exec_coldReset_boots s, exec_firmwareFirstReport_reports s, exec_recoveryImageLoad_loads s, fun hfw hk hfn hp hb => ?_,
    exec_debugToken_partition, exec_debugToken_vendor, fun h => ?_⟩
  · rw [exec_debugToken]
    unfold execDebugToken
    dsimp only
    rw [if_neg (by simp [hfw]; omega), hk]
    rw [if_pos hb, if_pos hfn]
    rfl
  · rw [exec_debugToken]
    unfold execDebugToken
    exact if_pos (by simpa using h)

end Sys2Proof.Machine
end

section
/-! SUPPORT. SPDM, IDE keys and TDISP. -/

namespace Sys2Proof.Machine

open Sys2Proof

/-! ### Responses -/

/-- A request is answered with the bytes given, the responder is left as given, and one free value is used. -/
def Sends (i : Instr) (s : State) (b : List Byte) (y : Spdm) : Prop :=
  ∃ t, exec i s = .next t ∧ t.outs = s.outs ++ [.spdm s.arg.fn b] ∧ t.responder s.arg.fn = y ∧ t.free = s.free + 1 ∧ SameMemory s t ∧ t.hubs = s.hubs

section
variable {s : State} {i : Instr} (hup : s.spdmUp s.arg.fn = true)
include hup

theorem State.spdmWith_up (r : SpdmReq) (extra : List Byte) (f : Spdm → Spdm) : s.spdmWith r extra f =
    (s.useFree.setResponder s.arg.fn (f (s.responder s.arg.fn))).sendSpdm s.arg.fn (Config.spdmBody s.free r.code s.arg.bytes ++ extra) := by
  unfold State.spdmWith
  dsimp only
  rw [if_pos hup]

theorem sends_spdmWith {r : SpdmReq} {extra : List Byte} {f : Spdm → Spdm} (h : exec i s = .next (s.spdmWith r extra f)) :
    Sends i s (Config.spdmBody s.free r.code s.arg.bytes ++ extra) (f (s.responder s.arg.fn)) := by
  rw [State.spdmWith_up hup] at h
  exact ⟨_, h, rfl, SMap.get_put_self .., rfl, SameMemory.of_eq rfl, rfl⟩

theorem sends_spdmStep {r : SpdmReq} {f : Spdm → Spdm} (h : exec i s = .next (s.spdmStep r f)) :
    Sends i s (Config.spdmBody s.free r.code s.arg.bytes) (f (s.responder s.arg.fn)) := by
  have hs := sends_spdmWith hup h
  rwa [List.append_nil] at hs

theorem exec_getCertificate_slot0 (h0 : fieldOf s.arg.bytes 2 1 % 16 = 0) : exec .getCertificate s =
    .next (s.spdmWith .certificate ((Config.certChain.drop (fieldOf s.arg.bytes 4 2)).take (fieldOf s.arg.bytes 6 2)) id) := by
  rw [exec_getCertificate]
  unfold execGetCertificate
  dsimp only
  rw [if_neg (by rw [h0, hup]; decide)]

theorem exec_getCertificate_other (h0 : fieldOf s.arg.bytes 2 1 % 16 ≠ 0) :
    exec .getCertificate s = .next { s with outs := s.outs ++ [.spdm s.arg.fn spdmError] } := by
  rw [exec_getCertificate]
  unfold execGetCertificate
  dsimp only
  rw [if_pos (by rw [hup, Bool.true_and]; simpa using h0)]
  rfl

theorem exec_challenge_signs : Sends .challenge s (Config.spdmBody s.free SpdmReq.challenge.code s.arg.bytes ++
    identitySign (Config.spdmBody s.free SpdmReq.challenge.code s.arg.bytes)) (s.responder s.arg.fn) := by
  have hex := exec_challenge s
  unfold execChallenge at hex
  dsimp only at hex
  rw [if_neg (by rw [hup]; decide)] at hex
  exact ⟨_, hex, rfl, rfl, rfl, SameMemory.of_eq rfl, rfl⟩

theorem exec_getMeasurements_signs :
    let b := Config.spdmBody s.free SpdmReq.measurements.code s.arg.bytes ++ (s.blocks s.arg.fn).flatMap fun y => BitVec.ofNat 8 y.1 :: y.2
    Sends .getMeasurements s (b ++ identitySign b) (s.responder s.arg.fn) := by
  intro b
  have hex := exec_getMeasurements s
  unfold execGetMeasurements at hex
  dsimp only at hex
  rw [if_neg (by rw [hup]; decide)] at hex
  exact ⟨_, hex, rfl, rfl, rfl, SameMemory.of_eq rfl, rfl⟩

/-! ### OWNKH, keys and the states of an interface -/

/-- A vendor-defined request is answered; within a session, of an unlocked interface, its 32 bytes set OWNKH. -/
theorem exec_vendorDefinedRequest_cases :
    exec .vendorDefinedRequest s = .next (s.spdmStep .vendor id) ∨ ∃ p, partOfFn s.arg.fn = some p ∧
      exec .vendorDefinedRequest s = .next (((s.spdmStep .vendor id).setPart p { s.part p with ownkh := BitVec.ofNat 256 (leNat s.arg.bytes) }).extendPart p 2
        s.arg.bytes) := by
  rw [exec_vendorDefinedRequest]
  unfold execVendorDefinedRequest
  dsimp only
  split
  · rename_i p hp
    split
    · exact .inr ⟨p, hp, rfl⟩
    · exact .inl rfl
  · exact .inl rfl

theorem exec_vendorDefinedRequest_sends :
    Sends .vendorDefinedRequest s (Config.spdmBody s.free SpdmReq.vendor.code s.arg.bytes) (s.responder s.arg.fn) := by
  obtain h | ⟨p, -, h⟩ := exec_vendorDefinedRequest_cases hup
  · exact sends_spdmStep hup h
  · refine ⟨_, h, ?_⟩
    rw [show s.spdmStep .vendor id = _ from s.spdmWith_up hup .vendor [] id, List.append_nil]
    exact ⟨rfl, SMap.get_put_self .., rfl, SameMemory.of_eq rfl, rfl⟩

theorem exec_ideKm_keeps (hf : (s.responder s.arg.fn).finished = true) :
    exec .ideKm s = .next (s.setResponder s.arg.fn { s.responder s.arg.fn with ideKey := s.arg.bytes }) := by
  rw [exec_ideKm]
  unfold execIdeKm
  dsimp only
  rw [hup, hf]
  rfl

variable {p : Nat} (hp : partOfFn s.arg.fn = some p)
include hp

theorem exec_vendorDefinedRequest_owns (hf : (s.responder s.arg.fn).finished = true) (ht : (s.part p).tdisp = 0) (hl : s.arg.bytes.length = 32) :
    ∃ t, exec .vendorDefinedRequest s = .next t ∧ (t.part p).ownkh = BitVec.ofNat 256 (leNat s.arg.bytes) := by
  have hex := exec_vendorDefinedRequest s
  unfold execVendorDefinedRequest at hex
  dsimp only at hex
  rw [hp] at hex
  dsimp only at hex
  rw [if_pos (by rw [hup, hf, ht, hl]; decide)] at hex
  refine ⟨_, hex, ?_⟩
  unfold State.extendPart
  dsimp only
  rw [State.setPart_self, State.setPart_self]

theorem filter_up : (partOfFn s.arg.fn).filter (fun _ => s.spdmUp s.arg.fn) = some p := by
  rw [hp, hup]
  rfl

theorem exec_tdispLockInterface_locks (ht : (s.part p).tdisp = 0) :
    ∃ t, exec .tdispLockInterface s = .next t ∧ (t.part p).tdisp = 1 ∧ SameMemory s t ∧ t.hubs = s.hubs := by
  have hex := exec_tdispLockInterface s
  unfold execTdispLockInterface at hex
  rw [filter_up hup hp] at hex
  dsimp only at hex
  rw [if_pos ht] at hex
  refine ⟨_, hex, ?_, SameMemory.of_eq rfl, rfl⟩
  unfold State.extendPart
  dsimp only
  rw [State.setPart_self, State.setPart_self]

theorem exec_tdispStartInterface_starts (ht : (s.part p).tdisp = 1) :
    exec .tdispStartInterface s = .next (s.setPart p { s.part p with tdisp := 2 }) := by
  rw [exec_tdispStartInterface]
  unfold execTdispStartInterface
  rw [filter_up hup hp]
  dsimp only
  rw [if_pos ht]

theorem exec_tdispStopInterface_stops : exec .tdispStopInterface s = .next (s.setPart p { s.part p with tdisp := 0 }) := by
  rw [exec_tdispStopInterface]
  unfold execTdispStopInterface
  rw [filter_up hup hp]

end

theorem exec_tdispError_scrubs {s : State} {p : Nat} (hp : partOfFn s.arg.fn = some p) :
    ∃ t, exec .tdispError s = .next t ∧ (t.part p).tdisp = 3 ∧ (t.part p).scrubbing = true := by
  have hex := exec_tdispError s
  unfold execTdispError at hex
  rw [hp] at hex
  dsimp only at hex
  obtain ⟨-, h1, -, h2, -⟩ := (s.setPart p { s.part p with tdisp := 3, enter := false }).scrub_begins p
  rw [State.setPart_self] at h2
  exact ⟨_, hex, h2, h1⟩

/-- Settles O56: each response is one sending by the responder; the states of an interface are written in turn. -/
theorem spdmAndTdisp : Obligations.SpdmAndTdisp := by
  unfold Obligations.SpdmAndTdisp
  intro s
  refine ⟨fun hup => ⟨sends_spdmStep hup (exec_getVersion s), sends_spdmStep hup (exec_getCapabilities s),
    sends_spdmWith hup (exec_negotiateAlgorithms s), sends_spdmStep hup (exec_getDigests s),
    fun h => sends_spdmWith hup (exec_getCertificate_slot0 hup h), exec_getCertificate_other hup, exec_challenge_signs hup,
    sends_spdmStep hup (exec_keyExchange s), sends_spdmStep hup (exec_finish s), sends_spdmStep hup (exec_endSession s),
    exec_getMeasurements_signs hup, exec_vendorDefinedRequest_sends hup, exec_ideKm_keeps hup, fun p hp => ⟨exec_vendorDefinedRequest_owns hup hp,
      exec_tdispLockInterface_locks hup hp, exec_tdispStartInterface_starts hup hp, exec_tdispStopInterface_stops hup hp⟩⟩,
    fun p hp => exec_tdispError_scrubs hp⟩

end Sys2Proof.Machine
end

section
/-! SUPPORT. The control and debug windows. -/

namespace Sys2Proof.Machine

open Sys2Proof

/-! ### The control window -/

theorem exec_controlWindowWrite_refused {s : State} (h : (s.arg.size ≠ 4 ∧ s.arg.size ≠ 8) ∨ s.arg.off % s.arg.size ≠ 0) (hfn : s.arg.fn ≤ 16)
    (hoff : s.arg.off < 0x4000000) : exec .controlWindowWrite s = .next { s with outs := s.outs ++ [.unsupported s.arg.fn 0] } := by
  have hw : windowOk s.arg.off s.arg.size = false := by
    unfold windowOk
    simp only [Bool.and_eq_false_iff, Bool.or_eq_false_iff, beq_eq_false_iff_ne]
    exact h
  rw [exec_controlWindowWrite]
  unfold execControlWindowWrite firmwareFn
  dsimp only
  rw [if_neg (by simp; omega), hw, if_pos (by decide)]
  rfl

/-- A doubleword of a partition's block is written by firmware, or by a function of an active device. -/
theorem exec_controlWindowWrite_block {s : State} {k o : Nat} (hk : k < 16) (hz : s.arg.size = 8) (hoff : s.arg.off = 0x100000 + 0x10000 * k + o)
    (ho : o < 0x10000) (h8 : o % 8 = 0) (hsees : sees s.arg.fn k = true) (hfn : s.arg.fn ≤ firmwareFn)
    (hup : (s.arg.fn == firmwareFn) = true ∨ s.dev.power = .active ∧ s.dev.bootRec = false) :
    exec .controlWindowWrite s =
      .next (s.writePart k o s.arg.value.toNat (2 ^ 64 - 1) (s.arg.fn == firmwareFn) (partOfFn s.arg.fn == some k)) := by
  have hw : windowOk s.arg.off s.arg.size = true := by
    unfold windowOk
    rw [hz, show s.arg.off % 8 = 0 by omega]
    rfl
  have hguard : ¬ (!s.arg.fn == firmwareFn && (s.dev.power == .sleep && !(s.arg.fn == 0 && s.arg.off / 8 * 8 == 0x80208) || s.dev.power == .off ||
      (s.dev.bootRec && s.arg.fn != 0))) = true := by
    obtain h | ⟨hp, hr⟩ := hup
    · rw [h]
      exact Bool.false_ne_true
    · rw [hp, hr]
      simp
  have ho8 : s.arg.off / 8 * 8 = 0x100000 + 0x10000 * k + o := by omega
  have hpart : (0x100000 + 0x10000 * k + o - 0x100000) / 0x10000 = k := by omega
  have hrest : (0x100000 + 0x10000 * k + o) % 0x10000 = o := by omega
  rw [exec_controlWindowWrite]
  unfold execControlWindowWrite
  dsimp only
  rw [if_neg, hw, if_neg (by decide), if_neg hguard, ho8, if_pos (by omega), hpart, hrest, if_pos hsees, if_pos hz, if_pos hz]
  simp only [Bool.or_eq_true, Bool.and_eq_true, decide_eq_true_eq, not_or]
  exact ⟨by omega, fun h => absurd h.2 (by omega)⟩

section
variable {s : State} {k : Nat} (hk : k < 16) (hz : s.arg.size = 8)
include hk hz

theorem exec_controlWindowWrite_vf {o : Nat} (hfn : s.arg.fn = k + 1) (hp : s.dev.power = .active) (hr : s.dev.bootRec = false)
    (hoff : s.arg.off = 0x100000 + 0x10000 * k + o) (ho : o < 0x10000) (h8 : o % 8 = 0) :
    exec .controlWindowWrite s = .next (s.writePart k o s.arg.value.toNat (2 ^ 64 - 1) false true) := by
  have hpf : partOfFn s.arg.fn = some k := by
    unfold partOfFn
    rw [hfn, if_pos (by omega)]
    rfl
  have hfw : (s.arg.fn == firmwareFn) = false := by
    unfold firmwareFn
    rw [beq_eq_false_iff_ne]
    omega
  have h := exec_controlWindowWrite_block (o := o) hk hz hoff ho h8 (by unfold sees; rw [hpf]; exact beq_self_eq_true k) (by unfold firmwareFn; omega) (.inr ⟨hp, hr⟩)
  rwa [hfw, hpf, beq_self_eq_true] at h

theorem exec_controlWindowWrite_firmware {o : Nat} (hfn : s.arg.fn = firmwareFn)
    (hoff : s.arg.off = 0x100000 + 0x10000 * k + o) (ho : o < 0x10000) (h8 : o % 8 = 0) :
    exec .controlWindowWrite s = .next (s.writePart k o s.arg.value.toNat (2 ^ 64 - 1) true false) := by
  have h := exec_controlWindowWrite_block (o := o) hk hz hoff ho h8 (by rw [hfn]; rfl) (by omega) (.inl (by rw [hfn]; rfl))
  rw [hfn] at h
  exact h

end

/-- A doubleword written whole is taken as it stands. -/
theorem and_fullMask (v : BitVec 64) : v.toNat &&& (2 ^ 64 - 1) = v.toNat := by
  rw [Nat.and_two_pow_sub_one_eq_mod, Nat.mod_eq_of_lt v.isLt]

/-- Where a write of a partition's block does not touch a frozen fault ring. -/
theorem Part.ringChange_other (p : Part) (o v mask : Nat) (h1 : o ≠ 0x100) (h2 : o ≠ 0x108) : p.ringChange o v mask = false := by
  unfold Part.ringChange
  rw [if_neg h1, if_neg h2]

section
variable (s : State) (k : Nat) (v : BitVec 64)

theorem State.writePart_mailbox (h : v.toNat % 2 = 1) :
    s.writePart k 0x208 v.toNat (2 ^ 64 - 1) false true = s.strike .mailboxGo { fn := k + 1 } := by
  unfold State.writePart strikes
  dsimp only
  rw [Part.ringChange_other _ _ _ _ (by decide) (by decide), and_fullMask, Bool.and_false, show v.toNat.testBit 0 = true by rw [Nat.testBit_zero, h]; rfl]
  rfl

theorem State.writePart_tail : s.writePart k 0x118 v.toNat (2 ^ 64 - 1) false true =
    s.strike .frtailWrite { part := k, value := BitVec.ofNat 64 (v.toNat % 2 ^ 32) } := by
  unfold State.writePart
  dsimp only
  rw [Part.ringChange_other _ _ _ _ (by decide) (by decide), Bool.and_false]
  rfl

theorem State.writePart_shootdown :
    s.writePart k 0x310 v.toNat (2 ^ 64 - 1) false true = s.strike .xlinvShootdown { part := k, value := v } := by
  unfold State.writePart
  dsimp only
  rw [Part.ringChange_other _ _ _ _ (by decide) (by decide), Bool.and_false, and_fullMask, BitVec.ofNat_toNat, BitVec.setWidth_eq]
  rfl

theorem State.writePart_lock (h : s.frozen k = false) : s.writePart k 0x60 v.toNat (2 ^ 64 - 1) true false =
    s.strike (if v.toNat % 2 = 1 then .ldmapLock else .ldmapUnlock) { part := k } := by
  unfold State.writePart
  have hb : v.toNat.testBit 0 = decide (v.toNat % 2 = 1) := Nat.testBit_zero _
  have hm : (2 ^ 64 - 1).testBit 0 = true := by decide
  dsimp only
  rw [h, hb, hm, if_neg (by decide), if_neg (by decide), if_pos rfl, if_pos (by decide)]
  simp only [decide_eq_true_eq]

end

/-! ### The debug window and the rank table -/

/-- A write of memory does not depend on the partitions. -/
theorem State.mem_writeBytes_parts (s : State) (ps : SMap Part) (a : Nat) (bs : List Byte) (p : Bool) :
    (State.writeBytes { s with parts := ps } a bs p).mem = (s.writeBytes a bs p).mem := by
  have hr : ∀ ls, State.rewritten { s with parts := ps } a bs.length ls = s.rewritten a bs.length ls := fun ls => by
    induction ls with
    | nil => rfl
    | cons l r ih =>
      unfold State.rewritten
      rw [ih]
      rfl
  unfold State.writeBytes
  dsimp only
  rw [hr]

section
variable {s : State} (hp : s.dev.power = .active) (hg : s.dev.gatedAt = none)
include hp hg

theorem exec_debugWindowAccess_refused (h : s.debugDie s.arg.fn s.arg.off = none) :
    exec .debugWindowAccess s = .next { s with outs := s.outs ++ [.unsupported s.arg.fn 4] } := by
  rw [exec_debugWindowAccess]
  unfold execDebugWindowAccess
  dsimp only
  rw [s.wakeDies_awake hp hg, h]
  rfl

theorem exec_debugWindowAccess_writes {p : Nat} (h : s.debugDie s.arg.fn s.arg.off = some p) (hn : s.arg.n = 1) :
    ∃ t, exec .debugWindowAccess s = .next t ∧ t.hubs = s.hubs ∧ t.outs = s.outs ∧
      t.mem = (s.writeBytes (flat (homeBuf p) (s.arg.off % 2 ^ 30)) (s.arg.bytes.take (2 ^ 30 - s.arg.off % 2 ^ 30)) false).mem := by
  have hex := exec_debugWindowAccess s
  unfold execDebugWindowAccess at hex
  dsimp only at hex
  rw [s.wakeDies_awake hp hg, h] at hex
  dsimp only at hex
  rw [if_pos hn] at hex
  refine ⟨_, hex, ?_, ?_, ?_⟩
  · simp
  · simp
  · exact State.mem_writeBytes_parts ..

theorem exec_debugWindowAccess_reads {p : Nat} (h : s.debugDie s.arg.fn s.arg.off = some p) (hn : s.arg.n = 0) :
    exec .debugWindowAccess s = .next { s with outs := s.outs ++
      [.debugRead s.arg.fn (s.readBytes (flat (homeBuf p) (s.arg.off % 2 ^ 30)) (min s.arg.size (2 ^ 30 - s.arg.off % 2 ^ 30)))] } := by
  rw [exec_debugWindowAccess]
  unfold execDebugWindowAccess
  dsimp only
  rw [s.wakeDies_awake hp hg, h]
  dsimp only
  rw [if_neg (by omega)]

end

theorem exec_ranktabWrite_keeps {s : State} (h : (s.xdie s.arg.pos).colls = []) : exec .ranktabWrite s = .next (s.setXdie s.arg.pos
    { s.xdie s.arg.pos with ranktab := SMap.put (s.xdie s.arg.pos).ranktab s.arg.rank (s.arg.value &&& 0xC0FF800000000000) }) := by
  rw [exec_ranktabWrite]
  unfold execRanktabWrite
  dsimp only
  rw [h]
  rfl

/-- Settles O57: a write of a block is a write of one of its registers, and each register is read off in turn. -/
theorem windowAccesses : Obligations.WindowAccesses := by
  unfold Obligations.WindowAccesses
  intro s
  refine ⟨exec_controlWindowWrite_refused, fun hk hfn hz hp hr => ⟨fun ho hv => ?_, fun ho => ?_, fun ho => ?_⟩, fun hk hfn hz ho hf => ?_,
    fun hp hg => ⟨exec_debugWindowAccess_refused hp hg, fun p h => ⟨exec_debugWindowAccess_writes hp hg h, exec_debugWindowAccess_reads hp hg h⟩⟩,
    exec_ranktabWrite_keeps⟩
  · rw [exec_controlWindowWrite_vf hk hz hfn hp hr ho (by decide) (by decide), State.writePart_mailbox _ _ _ hv]
    rfl
  · rw [exec_controlWindowWrite_vf hk hz hfn hp hr ho (by decide) (by decide), State.writePart_tail]
    rfl
  · rw [exec_controlWindowWrite_vf hk hz hfn hp hr ho (by decide) (by decide), State.writePart_shootdown]
    rfl
  · rw [exec_controlWindowWrite_firmware hk hz hfn ho (by decide) (by decide), State.writePart_lock _ _ _ hf]
    rfl

end Sys2Proof.Machine
end

section
/-! SUPPORT. Long links and endpoint packets. -/

namespace Sys2Proof.Machine

open Sys2Proof

/-! ### Ports -/

/-- A port of the long links. -/
def State.lport (s : State) (pos m : Nat) : LPort := (s.xdie pos).port m

/-- What an event of a long-link port leaves alone: hubs and memory, and the rank table, by which a rank is the package's own. -/
def State.besidePorts (s : State) (pos : Nat) : SMap Hub × (List Host.Cell × SMap Bool × SMap Nat × SMap Bool) × SMap W64 × Nat :=
  (s.hubs, s.memory, (s.xdie pos).ranktab, s.cy)

/-- The state with one port set. -/
def State.setLport (s : State) (pos m : Nat) (p : LPort) : State := s.setXdie pos ((s.xdie pos).setPort m p)

theorem State.lport_setLport (s : State) (pos m : Nat) (p : LPort) : (s.setLport pos m p).lport pos m = p := by
  unfold State.lport State.setLport State.xdie State.setXdie XDie.port XDie.setPort
  rw [SMap.get_put_self, SMap.get_put_self]

theorem State.besidePorts_setLport (s : State) (pos m : Nat) (p : LPort) : (s.setLport pos m p).besidePorts pos = s.besidePorts pos := by
  unfold State.besidePorts State.setLport State.xdie State.setXdie XDie.setPort
  rw [SMap.get_put_self]
  rfl

theorem State.kickPort_leaves (s : State) (pos m : Nat) : (s.kickPort pos m).besidePorts pos = s.besidePorts pos ∧
    (s.kickPort pos m).outs = s.outs ∧ ∃ b, (s.kickPort pos m).lport pos m = { s.lport pos m with busy := b } := by
  unfold State.kickPort
  extract_lets x p due
  split
  · exact ⟨rfl, rfl, p.busy, rfl⟩
  · exact ⟨State.besidePorts_setLport s pos m { p with busy := true }, rfl, true, State.lport_setLport s pos m { p with busy := true }⟩

theorem State.flitTimer_leaves (s : State) (pos m : Nat) : (s.flitTimer pos m).besidePorts pos = s.besidePorts pos ∧
    (s.flitTimer pos m).outs = s.outs ∧ ∃ b, (s.flitTimer pos m).lport pos m = { s.lport pos m with timing := b } := by
  unfold State.flitTimer
  extract_lets x p
  split
  · exact ⟨rfl, rfl, p.timing, rfl⟩
  · exact ⟨State.besidePorts_setLport s pos m { p with timing := true }, rfl, true, State.lport_setLport s pos m { p with timing := true }⟩

theorem State.putFlit_puts (s : State) (pos m : Nat) (p : LPort) (f : Flit) : (s.putFlit pos m p f).besidePorts pos = s.besidePorts pos ∧
    (s.putFlit pos m p f).outs = s.outs ++ [.flit pos m f.bytes f] ∧ (s.putFlit pos m p f).lport pos m = p :=
  ⟨s.besidePorts_setLport pos m p, rfl, s.lport_setLport pos m p⟩

theorem goesOn_beside {i : Instr} {s t : State} {f : State → Prop} (pos : Nat) (h : exec i s = .next t) (hb : t.besidePorts pos = s.besidePorts pos)
    (hf : f t) : GoesOn i s f := goesOn_of h (congrArg (fun x => x.2.1) hb) (congrArg Prod.fst hb) hf

theorem XDie.isOwn_of_ranktab {x y : XDie} (h : x.ranktab = y.ranktab) (r : Nat) : x.isOwn r = y.isOwn r := by
  unfold XDie.isOwn XDie.rank XDie.ownRank
  rw [h]

theorem exec_longLinkTrained_trains (s : State) :
    GoesOn .longLinkTrained s fun t => (t.lport s.arg.pos s.arg.m).up = true ∧ (t.lport s.arg.pos s.arg.m).peer = s.arg.n % 4096 ∧
      (t.lport s.arg.pos s.arg.m).seq = 0 ∧ (t.lport s.arg.pos s.arg.m).exp = 0 ∧ (t.lport s.arg.pos s.arg.m).ack = 4095 ∧
      (t.lport s.arg.pos s.arg.m).queue = (s.lport s.arg.pos s.arg.m).queue ∧ (t.lport s.arg.pos s.arg.m).lost = (s.lport s.arg.pos s.arg.m).lost := by
  let p := s.lport s.arg.pos s.arg.m
  let q : LPort := { lerr := p.lerr, lost := p.lost, queue := p.queue, up := true, peer := s.arg.n % 4096, progress := s.cy, busy := p.busy
                     timing := p.timing, times := p.times, shaped := p.shaped }
  obtain ⟨hb, -, b, hp⟩ := (s.setLport s.arg.pos s.arg.m q).kickPort_leaves s.arg.pos s.arg.m
  rw [State.lport_setLport] at hp
  refine goesOn_beside (t := (s.setLport s.arg.pos s.arg.m q).kickPort s.arg.pos s.arg.m) s.arg.pos (exec_longLinkTrained s) (hb.trans (s.besidePorts_setLport ..)) ?_
  rw [hp]
  exact ⟨rfl, rfl, rfl, rfl, rfl, rfl, rfl⟩

/-! ### Sending -/

section
variable {s : State} (hup : (s.lport s.arg.pos s.arg.m).up = true)
include hup

theorem exec_flitTransmit_sends {c w : Nat} {g : Flit} {r : List Flit} (hg : (s.lport s.arg.pos s.arg.m).gone = (s.lport s.arg.pos s.arg.m).replay.length)
    (hl : (s.lport s.arg.pos s.arg.m).replay.length < 512)
    (hn : ({ s.lport s.arg.pos s.arg.m with busy := false, times := flitTime s.cy } : LPort).nextClass = some (c, w))
    (ht : takeClass c (s.lport s.arg.pos s.arg.m).queue = some (g, r)) :
    let p := s.lport s.arg.pos s.arg.m
    let sent := { g with seq := p.seq, ack := p.ack, nak := p.nak }
    GoesOn .flitTransmit s fun t => t.outs = s.outs ++ [.flit s.arg.pos s.arg.m sent.bytes sent] ∧ (t.lport s.arg.pos s.arg.m).queue = r ∧
      (t.lport s.arg.pos s.arg.m).seq = (p.seq + 1) % 4096 ∧ (t.lport s.arg.pos s.arg.m).replay = p.replay ++ [(sent, 0)] := by
  intro p sent
  have hnone : p.replay[p.gone]? = none := List.getElem?_eq_none (Nat.le_of_eq hg.symm)
  have hex := exec_flitTransmit s
  unfold execFlitTransmit at hex
  extract_lets pos m x src q quiet at hex
  have hq : q.replay[q.gone]? = none := hnone
  rw [if_neg (by rw [show q.up = true from hup]; decide), hq] at hex
  dsimp only at hex
  rw [if_neg (show ¬ 512 ≤ q.replay.length from Nat.not_le.2 hl), show q.nextClass = some (c, w) from hn, Option.bind_some, show takeClass (c, w).1 q.queue = some (g, r) from ht] at hex
  dsimp only [Option.map_some] at hex
  refine goesOn_beside s.arg.pos hex ?_ ?_
  · rw [(State.kickPort_leaves _ _ _).1, (State.flitTimer_leaves _ _ _).1, (State.putFlit_puts ..).1]
  · obtain ⟨-, ho, b, hp⟩ := State.kickPort_leaves (State.flitTimer (s.putFlit pos m _ _) pos m) pos m
    obtain ⟨-, ho2, b2, hp2⟩ := State.flitTimer_leaves (s.putFlit pos m _ _) pos m
    obtain ⟨-, ho3, hp3⟩ := s.putFlit_puts pos m _ _
    rw [hp2, hp3] at hp
    rw [hp]
    exact ⟨ho.trans (ho2.trans ho3), rfl, rfl, rfl⟩

theorem exec_flitTransmit_resends {g : Flit} {n : Nat} (hg : (s.lport s.arg.pos s.arg.m).replay[(s.lport s.arg.pos s.arg.m).gone]? = some (g, n)) :
    let p := s.lport s.arg.pos s.arg.m
    let sent := { g with ack := p.ack, nak := p.nak }
    GoesOn .flitTransmit s fun t => t.outs = s.outs ++ [.flit s.arg.pos s.arg.m sent.bytes sent] ∧ (t.lport s.arg.pos s.arg.m).queue = p.queue ∧
      (t.lport s.arg.pos s.arg.m).gone = p.gone + 1 ∧ (t.lport s.arg.pos s.arg.m).retries = satAdd 0xFFFF p.retries 1 := by
  intro p sent
  have hex := exec_flitTransmit s
  unfold execFlitTransmit at hex
  extract_lets pos m x src q quiet at hex
  rw [if_neg (by rw [show q.up = true from hup]; decide), show q.replay[q.gone]? = some (g, n) from hg] at hex
  dsimp only at hex
  refine goesOn_beside s.arg.pos hex ?_ ?_
  · rw [(State.kickPort_leaves _ _ _).1, (State.putFlit_puts ..).1]
  · obtain ⟨-, ho, b, hp⟩ := State.kickPort_leaves (s.putFlit pos m _ _) pos m
    obtain ⟨-, ho3, hp3⟩ := s.putFlit_puts pos m _ _
    rw [hp3] at hp
    rw [hp]
    exact ⟨ho.trans ho3, rfl, rfl, rfl⟩

/-! ### Receiving -/

theorem exec_euzinFlitReceive_bad (hbad : flitGood s.arg.bytes = false) :
    let p := s.lport s.arg.pos s.arg.m
    GoesOn .euzinFlitReceive s fun t => (t.lport s.arg.pos s.arg.m).nak = true ∧ (t.lport s.arg.pos s.arg.m).exp = p.exp ∧
      (t.lport s.arg.pos s.arg.m).replay = p.replay := by
  intro p
  have hex := exec_euzinFlitReceive s
  unfold execEuzinFlitReceive at hex
  extract_lets pos m f x q at hex
  rw [if_neg (by rw [show q.up = true from hup]; decide), hbad, if_pos (by decide)] at hex
  obtain ⟨hb, -, b, hp⟩ := (s.setLport pos m { q with nak := true }).kickPort_leaves pos m
  rw [State.lport_setLport] at hp
  refine goesOn_beside (t := (s.setLport pos m { q with nak := true }).kickPort pos m) s.arg.pos hex (hb.trans (s.besidePorts_setLport ..)) ?_
  rw [hp]
  exact ⟨rfl, rfl, rfl⟩

/-- The flits that a good flit's ACK leaves unacknowledged. -/
def State.unacked (s : State) : List (Flit × Nat) :=
  (s.lport s.arg.pos s.arg.m).replay.filter fun (y : Flit × Nat) =>
    decide ((y.1.seq + 4096 - ((flitOf s.arg.bytes s.arg.flit).ack + 1) % 4096) % 4096 < 2048)

/-- The state once the ACK of a good flit has acted. -/
def State.acked (s : State) : State :=
  let p := s.lport s.arg.pos s.arg.m
  let n := p.replay.length - s.unacked.length
  (s.setLport s.arg.pos s.arg.m { p with replay := s.unacked, gone := p.gone - n, progress := if 0 < n then s.cy else p.progress }).kickPort
    s.arg.pos s.arg.m

omit hup in
theorem State.acked_leaves (s : State) : s.acked.besidePorts s.arg.pos = s.besidePorts s.arg.pos ∧
    (s.acked.lport s.arg.pos s.arg.m).replay = s.unacked ∧ (s.acked.lport s.arg.pos s.arg.m).exp = (s.lport s.arg.pos s.arg.m).exp ∧
    (s.acked.lport s.arg.pos s.arg.m).up = (s.lport s.arg.pos s.arg.m).up := by
  unfold State.acked
  extract_lets p n
  obtain ⟨hb, -, b, hp⟩ := (s.setLport s.arg.pos s.arg.m
    { p with replay := s.unacked, gone := p.gone - n, progress := if 0 < n then s.cy else p.progress }).kickPort_leaves s.arg.pos s.arg.m
  rw [State.lport_setLport] at hp
  refine ⟨hb.trans (s.besidePorts_setLport ..), ?_⟩
  rw [hp]
  exact ⟨rfl, rfl, rfl⟩

section
variable (hgood : flitGood s.arg.bytes = true) (hnak : (flitOf s.arg.bytes s.arg.flit).nak = false) (htyp : (flitOf s.arg.bytes s.arg.flit).typ ≠ 2)
include hgood hnak htyp

/-- A good flit, neither a NAK nor collective data, acts once its ACK has. -/
theorem exec_euzinFlitReceive_good : exec .euzinFlitReceive s =
    let f := flitOf s.arg.bytes s.arg.flit
    let u := s.acked
    let p := u.lport s.arg.pos s.arg.m
    if f.typ = 0 ∨ !p.up then .next u
    else if f.seq ≠ p.exp then .next ((u.setLport s.arg.pos s.arg.m { p with nak := true }).kickPort s.arg.pos s.arg.m)
    else .next (((u.setLport s.arg.pos s.arg.m { p with exp := (p.exp + 1) % 4096, ack := f.seq, news := true }).kickPort s.arg.pos s.arg.m).flitAct
      s.arg.pos s.arg.m f) := by
  have hctx : s.arg.dataCtx = none := if_neg htyp
  have hex := exec_euzinFlitReceive s
  unfold execEuzinFlitReceive at hex
  extract_lets pos m f x q kept n u1 u2 y q2 at hex
  have hu : u2 = s.acked := if_neg (by rw [hnak]; exact Bool.false_ne_true)
  rw [if_neg (by rw [show q.up = true from hup]; decide), hgood, if_neg (by decide), hctx, if_neg (by rw [Option.map_none]; decide)] at hex
  refine hex.trans ?_
  unfold q2 y
  rw [hu]
  rfl

end

theorem exec_euzinFlitReceive_idle (hgood : flitGood s.arg.bytes = true) (hnak : (flitOf s.arg.bytes s.arg.flit).nak = false)
    (ht : (flitOf s.arg.bytes s.arg.flit).typ = 0) :
    GoesOn .euzinFlitReceive s fun t => (t.lport s.arg.pos s.arg.m).replay = s.unacked ∧
      (t.lport s.arg.pos s.arg.m).exp = (s.lport s.arg.pos s.arg.m).exp := by
  obtain ⟨hb, h1, h2, -⟩ := s.acked_leaves
  exact goesOn_beside s.arg.pos ((exec_euzinFlitReceive_good hup hgood hnak (by rw [ht]; decide)).trans (if_pos (.inl ht))) hb ⟨h1, h2⟩

theorem exec_euzinFlitReceive_packet (hgood : flitGood s.arg.bytes = true) (hnak : (flitOf s.arg.bytes s.arg.flit).nak = false)
    (ht : (flitOf s.arg.bytes s.arg.flit).typ = 1) (hown : (s.xdie s.arg.pos).isOwn (flitOf s.arg.bytes s.arg.flit).drank = true)
    (hseq : (flitOf s.arg.bytes s.arg.flit).seq = (s.lport s.arg.pos s.arg.m).exp) :
    GoesOn .euzinFlitReceive s fun t => (t.lport s.arg.pos s.arg.m).exp = ((s.lport s.arg.pos s.arg.m).exp + 1) % 4096 ∧
      (t.lport s.arg.pos s.arg.m).ack = (flitOf s.arg.bytes s.arg.flit).seq ∧ (t.lport s.arg.pos s.arg.m).replay = s.unacked := by
  obtain ⟨hb, h1, h2, h3⟩ := s.acked_leaves
  have hex := exec_euzinFlitReceive_good hup hgood hnak (by rw [ht]; decide)
  extract_lets f u p at hex
  have hf : f.typ = 1 := ht
  rw [if_neg (by rw [hf, show p.up = true from h3.trans hup]; decide), if_neg (fun h => h (hseq.trans h2.symm))] at hex
  obtain ⟨hb2, -, b, hp⟩ := (u.setLport s.arg.pos s.arg.m { p with exp := (p.exp + 1) % 4096, ack := f.seq, news := true }).kickPort_leaves
    s.arg.pos s.arg.m
  rw [State.lport_setLport] at hp
  rw [State.besidePorts_setLport] at hb2
  generalize State.kickPort _ s.arg.pos s.arg.m = v at hex hb2 hp
  have hb3 := hb2.trans hb
  have hact : v.flitAct s.arg.pos s.arg.m f = v.deliverTo s.arg.pos (v.partOfDie s.arg.pos)
      { srank := f.srank, spos := f.spos, shub := f.shub, cls := f.cls, drank := f.drank, dpos := f.dpos, dhub := f.dhub, words := f.words } := by
    unfold State.flitAct
    dsimp only
    rw [if_neg (by omega), if_neg, if_pos hf]
    rw [XDie.isOwn_of_ranktab (congrArg (fun x => x.2.2.1) hb3), hown]
    decide
  rw [hact] at hex
  refine goesOn_beside s.arg.pos hex (Eq.trans ?_ hb3) ?_
  · unfold State.besidePorts State.memory
    simp
  · rw [show ∀ q, State.lport (v.deliverTo s.arg.pos (v.partOfDie s.arg.pos) q) s.arg.pos s.arg.m = v.lport s.arg.pos s.arg.m from fun q => by
      unfold State.lport
      simp, hp]
    exact ⟨congrArg (fun e => (e + 1) % 4096) h2, rfl, h1⟩

theorem exec_flitRetryTimeout_resends (hr : (s.lport s.arg.pos s.arg.m).replay ≠ [])
    (ht : (s.lport s.arg.pos s.arg.m).progress + flitTimeout ≤ s.cy) (hk : ∀ y ∈ (s.lport s.arg.pos s.arg.m).replay, y.2 < 2) :
    GoesOn .flitRetryTimeout s fun t => (t.lport s.arg.pos s.arg.m).gone = 0 ∧
      (t.lport s.arg.pos s.arg.m).replay = (s.lport s.arg.pos s.arg.m).replay ∧
      (s.cy + flitTimeout, Instr.flitRetryTimeout, ({ pos := s.arg.pos, m := s.arg.m } : Arg)) ∈ t.timers := by
  have hex := exec_flitRetryTimeout s
  unfold execFlitRetryTimeout at hex
  extract_lets pos m x p at hex
  have hany : ¬ (p.replay.any fun f => decide (2 ≤ f.2)) = true := by
    simp only [List.any_eq_true, decide_eq_true_eq, not_exists, not_and]
    exact fun y hy h => absurd (hk y hy) (by omega)
  have hres : s.resend pos m = (s.setLport pos m { p with gone := 0, progress := s.cy }).kickPort pos m := if_neg hany
  have hemp : p.replay.isEmpty = false := by
    cases h : p.replay with
    | nil => exact absurd h hr
    | cons a r => rfl
  rw [if_neg (by rw [hemp, show p.up = true from hup]; decide), if_neg (show ¬ s.cy < p.progress + flitTimeout from Nat.not_lt.2 ht), hres] at hex
  obtain ⟨hb, -, b, hp⟩ := (s.setLport pos m { p with gone := 0, progress := s.cy }).kickPort_leaves pos m
  rw [State.lport_setLport] at hp
  rw [State.besidePorts_setLport] at hb
  generalize State.kickPort _ pos m = v at hex hb hp
  have hl : (v.after flitTimeout .flitRetryTimeout { pos := pos, m := m }).lport s.arg.pos s.arg.m = v.lport pos m := rfl
  refine goesOn_beside s.arg.pos hex hb ?_
  rw [hl, hp, ← show v.cy = s.cy from congrArg (fun x => x.2.2.2) hb]
  exact ⟨rfl, rfl, List.mem_cons_self⟩

end

theorem exec_euzinFlitReceive_down {s : State} (hd : (s.lport s.arg.pos s.arg.m).up = false) : exec .euzinFlitReceive s = .next s := by
  rw [exec_euzinFlitReceive]
  unfold execEuzinFlitReceive
  dsimp only
  exact if_pos (by rw [show ((s.xdie s.arg.pos).port s.arg.m).up = false from hd]; rfl)

/-! ### Endpoint packets -/

theorem State.netSeq_forward (s : State) (p id : Nat) : (s.forward p id).netSeq = s.netSeq := by
  have htimer : ∀ (u : State) m, (u.startTimer p m).netSeq = u.netSeq := fun u m => by
    unfold State.startTimer
    dsimp only
    split <;> rfl
  unfold State.forward
  split
  · rfl
  · extract_lets dst
    split
    · split <;> rfl
    · split
      · exact htimer _ _
      · rfl

theorem State.netSeq_deliverTo (s : State) (pos part : Nat) (p : EndPacket) {q : Nat} (hq : s.phys part p.dpos = some q)
    (hh : p.dhub < (s.kind q).hubs) : (s.deliverTo pos part p).netSeq = s.netSeq + 1 := by
  unfold State.deliverTo
  rw [hq]
  dsimp only
  rw [if_neg (Nat.not_le.2 hh)]
  exact State.netSeq_forward ..

section
variable {s : State} {k : Pkt} (hk : SMap.find s.arg.n s.net = some k)
include hk

theorem exec_endpointPacket_delivers (hown : (s.xdie k.target).isOwn k.pkt.drank = true) {q : Nat} (hq : s.phys k.part k.pkt.dpos = some q)
    (hh : k.pkt.dhub < (s.kind q).hubs) : GoesOn .endpointPacket s fun t => t.netSeq = s.netSeq + 1 := by
  have hex := exec_endpointPacket s
  unfold execEndpointPacket at hex
  rw [hk] at hex
  dsimp only at hex
  refine goesOn_of (hex.trans (if_pos hown)) ?_ ?_ ?_
  · unfold State.memory
    simp
  · simp
  · exact State.netSeq_deliverTo _ _ _ _ hq hh

theorem exec_endpointPacketDeliver_enters {base len : Nat} (hr : s.ring k.die k.hub = some (base, len)) :
    let n := (len - 256) / 256
    let head := s.readNat base 8
    let full := (head + 2 ^ 64 - s.readNat (base + 8) 8) % 2 ^ 64 = n
    let u := { s with net := SMap.drop s.net s.arg.n }
    (full → exec .endpointPacketDeliver s = .next
      (u.writeBytes (base + 16) (leBytes 8 ((s.readNat (base + 16) 8 + 1) % 2 ^ 64)) false)) ∧
    (¬ full → exec .endpointPacketDeliver s = .next
      ((u.writeBytes (base + 256 + 256 * (head % n)) (ringEntry k.pkt) false).writeBytes base (leBytes 8 ((head + 1) % 2 ^ 64)) false)) := by
  have hex := exec_endpointPacketDeliver s
  unfold execEndpointPacketDeliver at hex
  rw [hk] at hex
  dsimp only at hex
  have hr' : State.ring { s with net := SMap.drop s.net s.arg.n } k.die k.hub = some (base, len) := hr
  rw [hr'] at hex
  exact ⟨fun h => hex.trans (if_pos h), fun h => hex.trans (if_neg h)⟩

end

/-- Settles O58: each event writes one port and may arm its next sending; a packet's delivery leaves the ports. -/
theorem longLinks : Obligations.LongLinks := by
  unfold Obligations.LongLinks
  intro s
  refine ⟨exec_longLinkTrained_trains s, fun hup => ⟨fun c w g r => exec_flitTransmit_sends hup, fun g n => exec_flitTransmit_resends hup,
    exec_euzinFlitReceive_bad hup, exec_euzinFlitReceive_idle hup, exec_euzinFlitReceive_packet hup, exec_flitRetryTimeout_resends hup⟩,
    exec_euzinFlitReceive_down, fun k hk => ⟨fun hown q hq hh => exec_endpointPacket_delivers hk hown hq hh,
      fun base len hr => exec_endpointPacketDeliver_enters hk hr⟩⟩

end Sys2Proof.Machine
end

section
/-! SUPPORT. Collective operations. -/

namespace Sys2Proof.Machine

open Sys2Proof

/-! ### The operations of an X-die -/

theorem XDie.opAt_setOp (x : XDie) (o : Coll) : (x.setOp o).opAt o.ctx o.num = some o := by
  unfold XDie.opAt XDie.setOp
  rw [List.find?_append, List.find?_eq_none.2, Option.none_or]
  · simp
  · intro y hy
    simpa [imp_iff_not_or] using (List.mem_filter.1 hy).2

theorem XDie.opAt_key {x : XDie} {c n : Nat} {o : Coll} (h : x.opAt c n = some o) : o.ctx = c ∧ o.num = n := by
  have hk := List.find?_some h
  simpa using hk

theorem XDie.setOp_setOp (x : XDie) (o p : Coll) (hc : p.ctx = o.ctx) (hn : p.num = o.num) : (x.setOp o).setOp p = x.setOp p := by
  unfold XDie.setOp
  dsimp only
  rw [hc, hn, List.filter_append, List.filter_filter]
  simp

/-- What stands in the reduction buffer but for one operation, and that operation's own bytes. -/
theorem XDie.used_setOp (x : XDie) (o : Coll) : (x.setOp o).used =
    ((x.colls.filter fun y => !(y.ctx == o.ctx && y.num == o.num)).map fun o => o.size (ctxIn (x.context o.ctx)) (ctxMine (x.context o.ctx))).sum +
      o.size (ctxIn (x.context o.ctx)) (ctxMine (x.context o.ctx)) + x.streamSize := by
  have hs : (x.setOp o).streamSize = x.streamSize := rfl
  have hc : ∀ c, (x.setOp o).context c = x.context c := fun _ => rfl
  unfold XDie.used
  simp only [hs, hc]
  unfold XDie.setOp
  rw [List.map_append, List.sum_append, List.map_singleton, List.sum_singleton]

theorem XDie.used_setOp_congr (x : XDie) {o p : Coll} (hc : p.ctx = o.ctx) (hn : p.num = o.num) (hs : ∀ f m, p.size f m = o.size f m) :
    (x.setOp p).used = (x.setOp o).used := by
  rw [XDie.used_setOp, XDie.used_setOp, hc, hn, hs]

theorem XDie.reach_later {x : XDie} {c num : Nat} (h : num < x.opNum c) : x.reach c num = x := by
  unfold XDie.reach
  rw [if_neg]
  simp only [Bool.and_eq_true, decide_eq_true_eq]
  omega

theorem XDie.reach_open {x : XDie} {c num : Nat} {o : Coll} (h : x.op c = some o) : x.reach c num = x := by
  unfold XDie.reach
  rw [h]
  rfl

theorem XDie.opAt_reach (x : XDie) (c num k : Nat) : (x.reach c num).opAt c k = x.opAt c k := by
  unfold XDie.reach
  split <;> rfl

theorem XDie.dropOp_drops (x : XDie) (c : Nat) : (x.dropOp c).opAt c (x.opNum c) = none ∧ (x.dropOp c).opNum c = x.opNum c + 1 := by
  constructor
  · refine List.find?_eq_none.2 fun y hy => ?_
    have h := (List.mem_filter.1 hy).2
    simpa [imp_iff_not_or] using h
  · unfold XDie.opNum XDie.dropOp
    dsimp only
    exact SMap.get_set_self ..

/-! ### Flits leave the operations alone -/

/-- The operations of an X-die with their numbers. -/
def State.ops (s : State) (pos : Nat) : List Coll × SMap Nat := ((s.xdie pos).colls, (s.xdie pos).opNums)

theorem State.opAt_of_ops {s t : State} {pos : Nat} (h : t.ops pos = s.ops pos) (c n : Nat) : (t.xdie pos).opAt c n = (s.xdie pos).opAt c n := by
  have hc : (t.xdie pos).colls = (s.xdie pos).colls := congrArg Prod.fst h
  unfold XDie.opAt
  rw [hc]

theorem State.opNum_of_ops {s t : State} {pos : Nat} (h : t.ops pos = s.ops pos) (c : Nat) : (t.xdie pos).opNum c = (s.xdie pos).opNum c := by
  have hn : (t.xdie pos).opNums = (s.xdie pos).opNums := congrArg Prod.snd h
  unfold XDie.opNum
  rw [hn]

theorem State.op_of_ops {s t : State} {pos : Nat} (h : t.ops pos = s.ops pos) (c : Nat) : (t.xdie pos).op c = (s.xdie pos).op c := by
  unfold XDie.op
  rw [State.opAt_of_ops h, State.opNum_of_ops h]

theorem State.ops_setLport (s : State) (p m : Nat) (l : LPort) (q : Nat) : (s.setLport p m l).ops q = s.ops q := by
  unfold State.ops State.xdie State.setLport State.setXdie State.xdie
  rw [SMap.get_put]
  split
  · rename_i h
    rw [h]
    rfl
  · rfl

theorem State.ops_kickPort (s : State) (p m q : Nat) : (s.kickPort p m).ops q = s.ops q := by
  unfold State.kickPort
  extract_lets x l due
  split
  · rfl
  · exact s.ops_setLport p m { l with busy := true } q

theorem State.ops_sendFlit (s : State) (pos : Nat) (f : Flit) (q : Nat) : (s.sendFlit pos f).ops q = s.ops q := by
  unfold State.sendFlit
  split
  · exact (State.ops_kickPort ..).trans (s.ops_setLport ..)
  · rfl

theorem State.ops_sendControl (s : State) (pos kind c num mine r q : Nat) : (s.sendControl pos kind c num mine r).ops q = s.ops q :=
  s.ops_sendFlit ..

theorem State.ops_sendData (pos c num mine r k : Nat) (f : Nat) : ∀ (s : State) (q : Nat) (ws : List W64),
    (s.sendData pos c num mine r q f ws).ops k = s.ops k := by
  induction f with
  | zero => exact fun _ _ _ => rfl
  | succ f ih =>
    intro s q ws
    cases ws with
    | nil => rfl
    | cons w ws => exact (ih ..).trans (s.ops_sendFlit ..)

/-- The elements of the package's contribution, and the start, of the open operation of a context. -/
def State.opView (s : State) (pos c : Nat) : Option (List (Nat × Nat) × Option Nat) := ((s.xdie pos).op c).map fun o => (o.mine, o.started)

theorem State.opView_setOp {s : State} {pos c : Nat} {o p : Coll} (h : (s.xdie pos).op c = some o) (hc : p.ctx = o.ctx) (hn : p.num = o.num)
    (hm : p.mine = o.mine) (hs : p.started = o.started) : (s.setXdie pos ((s.xdie pos).setOp p)).opView pos c = s.opView pos c := by
  obtain ⟨h1, h2⟩ := XDie.opAt_key h
  have hx : (s.setXdie pos ((s.xdie pos).setOp p)).xdie pos = (s.xdie pos).setOp p := SMap.get_put_self ..
  have hop : ((s.xdie pos).setOp p).op c = some p := by
    have h3 := (s.xdie pos).opAt_setOp p
    rw [hc, hn, h1, h2] at h3
    exact h3
  unfold State.opView
  rw [hx, hop, h, Option.map_some, Option.map_some, hm, hs]

theorem State.opView_of_ops {s t : State} {pos : Nat} (h : t.ops pos = s.ops pos) (c : Nat) : t.opView pos c = s.opView pos c := by
  unfold State.opView
  rw [State.op_of_ops h]

theorem State.opView_spreadShards (pos c : Nat) (l : List Nat) : ∀ s : State, (s.spreadShards pos c l).opView pos c = s.opView pos c := by
  induction l with
  | nil => exact fun _ => rfl
  | cons j r ih =>
    intro s
    refine (ih _).trans ?_
    extract_lets x k
    split
    · rfl
    · rename_i o ho
      split
      · rfl
      · split
        · rfl
        · extract_lets o'
          split
          · exact State.opView_setOp ho rfl rfl rfl rfl
          · exact (State.opView_of_ops (State.ops_sendData ..) c).trans (State.opView_setOp ho rfl rfl rfl rfl)

theorem State.opView_collReady (s : State) (pos c : Nat) : (s.collReady pos c).opView pos c = s.opView pos c := by
  unfold State.collReady
  extract_lets x k
  split
  · rfl
  · rename_i o ho
    extract_lets w t
    split
    · rfl
    · split
      · exact State.opView_setOp ho rfl rfl rfl rfl
      · exact (State.opView_of_ops (State.ops_sendControl ..) c).trans (State.opView_setOp ho rfl rfl rfl rfl)

/-! ### Contributions -/

theorem State.beginOp_begins {s : State} {pos c num : Nat} {y : Coll} (h : (s.xdie pos).opAt c num = some y) :
    let o := { y with started := some (y.started.getD s.cy) }
    (s.beginOp pos c num).2 = o ∧ ((s.beginOp pos c num).1.xdie pos = s.xdie pos ∨ (s.beginOp pos c num).1.xdie pos = (s.xdie pos).setOp o) ∧
      (s.beginOp pos c num).1.inbox = s.inbox ∧ (s.beginOp pos c num).1.memory = s.memory ∧
      (y.started ≠ none → (s.beginOp pos c num).1 = s) := by
  intro o
  unfold State.beginOp
  extract_lets x o1 o2
  have ho1 : o1 = y := by
    unfold o1
    rw [h]
    rfl
  clear_value o1
  subst ho1
  split
  · rename_i t ht
    have : o1.started = some (o1.started.getD s.cy) := by rw [ht]; rfl
    refine ⟨?_, .inl rfl, rfl, rfl, fun _ => rfl⟩
    show o1 = { o1 with started := some (o1.started.getD s.cy) }
    rw [← this]
  · rename_i ht
    have ho : o2 = o := by
      unfold o2 o
      rw [ht]
      rfl
    refine ⟨ho, .inr ?_, rfl, rfl, fun h => absurd ht h⟩
    rw [← ho]
    exact SMap.get_put_self ..

section
variable {s : State} {p : Pkt} {y : Coll} (hp : SMap.find s.arg.n s.net = some p) (hl : s.lowerArrival p.target p.addr = false)
  (hy : (s.xdie p.target).op p.addr = some y)
include hp hl hy

theorem exec_collectiveContribution_differs (h0 : y.count ≠ 0) (hne : p.con.count ≠ y.count) :
    ∃ t, exec .collectiveContribution s = .next t ∧
      t.inbox = s.inbox ++ [(.abort, { pos := p.target, n := p.addr, off := y.num, m := 2 })] ∧
      (y.started ≠ none → t.xdies = s.xdies) ∧ SameMemory s t := by
  obtain ⟨ho, -, hi, hm, hst⟩ := State.beginOp_begins hy
  have hex := exec_collectiveContribution s
  unfold execCollectiveContribution at hex
  rw [hp] at hex
  dsimp only at hex
  rw [if_neg (by rw [hl]; exact Bool.false_ne_true)] at hex
  generalize s.beginOp p.target p.addr ((s.xdie p.target).opNum p.addr) = b at hex ho hi hm hst
  obtain ⟨u, o⟩ := b
  dsimp only at hex ho hi hm hst
  subst ho
  dsimp only at hex
  rw [if_neg h0, if_pos (.inl hne)] at hex
  refine ⟨_, hex, ?_, fun h => ?_, SameMemory.of_eq ?_⟩
  · obtain ⟨-, h, -⟩ := State.reply_frame { u with inbox := u.inbox ++ [(.abort, { pos := p.target, n := p.addr, off := y.num, m := 2 })] }
      s.arg.n { p with typ := 3 }
    rw [h]
    dsimp only
    rw [hi]
  · obtain ⟨-, -, -, -, -, -, -, -, -, -, -, -, h2, -⟩ := State.reply_frame
      { u with inbox := u.inbox ++ [(.abort, { pos := p.target, n := p.addr, off := y.num, m := 2 })] } s.arg.n { p with typ := 3 }
    rw [h2, hst h]
  · rw [State.reply_memory]
    exact hm

theorem exec_collectiveContribution_joins (hc : y.count = p.con.count) (h0 : p.con.count ≠ 0)
    (hv : ∀ v ∈ p.con.vals, v.1 < p.con.count ∧ ∀ z ∈ y.mine, z.1 ≠ v.1)
    (hu : ((s.xdie p.target).setOp { y with mine := y.mine ++ p.con.vals }).used ≤ 8388608) :
    ∃ t, exec .collectiveContribution s = .next t ∧ SameMemory s t ∧
      ∃ z, (t.xdie p.target).op p.addr = some z ∧ z.mine = y.mine ++ p.con.vals ∧ z.started = some (y.started.getD s.cy) := by
  obtain ⟨ho, hx, -, hm, -⟩ := State.beginOp_begins hy
  have hex := exec_collectiveContribution s
  unfold execCollectiveContribution at hex
  rw [hp] at hex
  dsimp only at hex
  rw [if_neg (by rw [hl]; exact Bool.false_ne_true)] at hex
  generalize s.beginOp p.target p.addr ((s.xdie p.target).opNum p.addr) = b at hex ho hx hm
  obtain ⟨u, o⟩ := b
  dsimp only at hex ho hx hm
  subst ho
  dsimp only at hex
  rw [if_neg (fun h => h0 (hc ▸ h))] at hex
  let z : Coll := { y with started := some (y.started.getD s.cy), count := y.count, mine := y.mine ++ p.con.vals }
  obtain ⟨hk1, hk2⟩ := XDie.opAt_key hy
  have hset : (u.xdie p.target).setOp z = (s.xdie p.target).setOp z := by
    obtain h | h := hx
    · rw [h]
    · rw [h]
      exact XDie.setOp_setOp _ _ _ rfl rfl
  have hdup : (p.con.vals.any fun v => decide (y.count ≤ v.1) || y.mine.any fun (w : Nat × Nat) => w.1 == v.1) = false := by
    rw [List.any_eq_false]
    intro v hmem
    obtain ⟨h1, h2⟩ := hv v hmem
    simp only [Bool.or_eq_true, decide_eq_true_eq, List.any_eq_true, beq_iff_eq, not_or, not_exists, not_and]
    exact ⟨by omega, h2⟩
  have hused : ¬ bufferBytes < ((u.xdie p.target).setOp z).used := by
    rw [hset, XDie.used_setOp_congr (s.xdie p.target) (p := z) (o := { y with mine := y.mine ++ p.con.vals }) rfl rfl (fun _ _ => rfl)]
    exact Nat.not_lt.2 hu
  rw [if_neg] at hex
  · refine ⟨_, hex, SameMemory.of_eq (by simp [hm]), ?_⟩
    have hview : ∀ k q, ((((u.setXdie p.target ((u.xdie p.target).setOp z)).spreadShards p.target p.addr k).collReady p.target p.addr).reply s.arg.n
        q).opView p.target p.addr = some (z.mine, z.started) := fun k q => by
      have hr : ∀ w : State, (w.reply s.arg.n q).xdie p.target = w.xdie p.target := fun w => by simp
      unfold State.opView
      rw [hr]
      refine (State.opView_collReady _ p.target p.addr).trans ((State.opView_spreadShards p.target p.addr k _).trans ?_)
      have h := (s.xdie p.target).opAt_setOp z
      unfold State.opView XDie.op
      rw [show (u.setXdie p.target ((u.xdie p.target).setOp z)).xdie p.target = _ from SMap.get_put_self .., hset]
      rw [show z.ctx = p.addr from hk1, show z.num = (s.xdie p.target).opNum p.addr from hk2] at h
      exact congrArg _ h
    obtain ⟨w, hw, hw2⟩ := Option.map_eq_some_iff.1 (hview (List.range (ctxRanks ((u.xdie p.target).context p.addr))) { p with typ := 3 })
    obtain ⟨h1, h2⟩ := Prod.ext_iff.1 hw2
    exact ⟨w, hw, h1, h2⟩
  · rw [hdup]
    rintro (h | h | h)
    · exact h hc.symm
    · cases h
    · exact hused h

end

/-! ### READY, COMMIT and ABORT -/

theorem exec_ready_late {s : State} (h : s.arg.off < (s.xdie s.arg.pos).opNum s.arg.n) : exec .ready s = .next s := by
  rw [exec_ready]
  unfold execReady
  dsimp only
  exact if_pos h

theorem exec_abort_late {s : State} (h : s.arg.off < (s.xdie s.arg.pos).opNum s.arg.n) : exec .abort s = .next s := by
  rw [exec_abort]
  unfold execAbort
  dsimp only
  rw [XDie.reach_later h, if_pos]
  rw [decide_eq_true h]
  rfl

theorem exec_ready_kept {s : State} (h : (s.xdie s.arg.pos).opNum s.arg.n ≤ s.arg.off) :
    let x := s.xdie s.arg.pos
    let was := ((x.opAt s.arg.n s.arg.off).map (·.ready)).getD []
    ∃ t, exec .ready s = .next t ∧ SameMemory s t ∧ t.hubs = s.hubs ∧
      (∃ z, (t.xdie s.arg.pos).opAt s.arg.n s.arg.off = some z ∧ z.ready = was ++ [s.arg.rank]) ∧
      ((∀ j, j < ctxRanks (x.context s.arg.n) → j ∈ was ∨ j = s.arg.rank) →
        (s.cy + 1, Instr.commit, ({ pos := s.arg.pos, n := s.arg.n, off := s.arg.off, rank := 0 } : Arg)) ∈ t.timers) := by
  intro x was
  have hex := exec_ready s
  unfold execReady at hex
  extract_lets pos c num x' k xr o o' u v at hex
  rw [if_neg (Nat.not_lt.2 h)] at hex
  have hat : xr.opAt c num = x.opAt c num := XDie.opAt_reach ..
  have hready : o'.ready = was ++ [s.arg.rank] := by
    show o.ready ++ [s.arg.rank] = _
    unfold o was
    rw [hat]
    cases x.opAt s.arg.n s.arg.off <;> rfl
  have hkey : o'.ctx = c ∧ o'.num = num := by
    show o.ctx = c ∧ o.num = num
    unfold o
    cases hq : xr.opAt c num with
    | none => exact ⟨rfl, rfl⟩
    | some y => exact XDie.opAt_key hq
  have hv : v.memory = s.memory ∧ v.hubs = s.hubs ∧ v.cy = s.cy ∧ (v.xdie pos).opAt c num = some o' := by
    have hu : (u.xdie pos).opAt c num = some o' := by
      have h1 := xr.opAt_setOp o'
      rw [hkey.1, hkey.2] at h1
      exact (congrArg (fun x : XDie => x.opAt c num) (show u.xdie pos = xr.setOp o' from SMap.get_put_self ..)).trans h1
    unfold v
    split
    · exact ⟨rfl, rfl, rfl, hu⟩
    · exact ⟨rfl, rfl, rfl, hu⟩
  obtain ⟨hm, hh, hcy, hop⟩ := hv
  clear_value v
  split at hex
  · refine ⟨_, hex, SameMemory.of_eq hm, hh, ⟨o', hop, hready⟩, fun _ => ?_⟩
    rw [← hcy]
    exact List.mem_cons_self
  · rename_i hall
    refine ⟨_, hex, SameMemory.of_eq hm, hh, ⟨o', hop, hready⟩, fun hj => absurd ?_ hall⟩
    rw [List.all_eq_true]
    intro j hmem
    rw [List.contains_iff_mem, hready, List.mem_append, List.mem_singleton]
    exact hj j (List.mem_range.1 hmem)

theorem State.xdie_endOp (s : State) (pos c status : Nat) : (s.endOp pos c status).xdie pos = (s.xdie pos).dropOp c := by
  unfold State.endOp
  extract_lets x hub t h h' v
  have ht : t.xdie pos = x.dropOp c := SMap.get_put_self ..
  split
  · exact ht
  · refine Eq.trans ?_ ht
    simp

section
variable {s : State} {o : Coll} (ho : (s.xdie s.arg.pos).op s.arg.n = some o)
include ho

theorem XDie.num_of_op : (s.xdie s.arg.pos).opNum s.arg.n = o.num := (XDie.opAt_key ho).2.symm

theorem exec_commit_other (hn : o.num ≠ s.arg.off) : exec .commit s = .next s := by
  rw [exec_commit]
  unfold execCommit
  dsimp only
  rw [ho]
  exact if_pos (by simp [hn])

theorem exec_commit_again (hc : o.committed = true) : exec .commit s = .next s := by
  rw [exec_commit]
  unfold execCommit
  dsimp only
  rw [ho]
  exact if_pos (by simp [hc])

theorem exec_abort_next (hn : o.num < s.arg.off) :
    ∃ t, exec .abort s = .next t ∧ t.xdies = s.xdies ∧ (s.cy + 1, Instr.abort, s.arg) ∈ t.timers := by
  have hnum := XDie.num_of_op ho
  have hex := exec_abort s
  unfold execAbort at hex
  dsimp only at hex
  rw [XDie.reach_open ho, if_neg, if_pos (by omega)] at hex
  · exact ⟨_, hex, rfl, List.mem_cons_self⟩
  · simp only [Bool.or_eq_true, Bool.and_eq_true, decide_eq_true_eq]
    omega

theorem exec_abort_committed (hn : o.num = s.arg.off) (hc : o.committed = true) (h3 : s.arg.m ≠ 3) (h5 : s.arg.m ≠ 5) :
    exec .abort s = .next s := by
  have hnum := XDie.num_of_op ho
  rw [exec_abort]
  unfold execAbort
  dsimp only
  rw [XDie.reach_open ho, if_pos]
  rw [ho]
  simp [hc, h3, h5, hnum, hn]

theorem exec_commit_commits (hn : o.num = s.arg.off) (hc : o.committed = false) :
    ∃ t, exec .commit s = .next t ∧ SameMemory s t ∧
      Out.collective s.arg.pos s.arg.n (ctxMine ((s.xdie s.arg.pos).context s.arg.n)) 1 ∈ t.outs := by
  have hex := exec_commit s
  unfold execCommit at hex
  extract_lets pos c x k mine at hex
  rw [ho] at hex
  dsimp only at hex
  rw [if_neg (by simp [hc, hn])] at hex
  refine ⟨_, hex, SameMemory.of_eq ?_, ?_⟩
  · rw [State.finishColl_memory]
    show State.memory (if _ then _ else _) = _
    have hfold : ∀ (u : State) (l : List Nat), (l.foldl (fun (s : State) r => s.sendControl pos 1 c o.num mine r) u).memory = u.memory := fun u l =>
      foldl_keeps State.memory _ (fun u r => State.sendControl_memory ..) l u
    have hres : ∀ (u : State) (l : List Nat), (l.foldl (fun (s : State) r =>
        o.results.foldl (fun (s : State) (w : Nat × W64) => s.sendResult pos c o.num mine r w.1 w.2) s) u).memory = u.memory := fun u l =>
      foldl_keeps State.memory _ (fun u r => foldl_keeps State.memory _ (fun u w => State.sendResult_memory ..) _ u) l u
    split
    · split
      · exact hfold ..
      · rfl
    · rw [hres]
      split
      · exact hfold ..
      · rfl
  · obtain ⟨-, -, -, -, h, -⟩ := State.finishColl_frame
      { (_ : State) with outs := (_ : State).outs ++ [Out.collective pos c mine 1] } pos c
    rw [h]
    exact List.mem_append_right _ (List.mem_singleton_self _)

theorem exec_abort_drops (hn : o.num = s.arg.off) (hc : o.committed = false) :
    ∃ t, exec .abort s = .next t ∧ SameMemory s t ∧ (t.xdie s.arg.pos).opAt s.arg.n s.arg.off = none ∧
      (t.xdie s.arg.pos).opNum s.arg.n = s.arg.off + 1 := by
  have hnum := XDie.num_of_op ho
  have hex := exec_abort s
  unfold execAbort at hex
  extract_lets pos c num x k mine wins kind u q v w at hex
  have hx : x = s.xdie pos := XDie.reach_open ho
  have hxnum : x.opNum c = num := by rw [hx]; exact hnum.trans hn
  have hu : u.memory = s.memory ∧ u.ops pos = s.ops pos := by
    have hsend : ∀ (t : State) r, (t.sendControl pos kind c num mine r).memory = t.memory := fun t r => State.sendControl_memory ..
    have hops : ∀ (t : State) r, (t.sendControl pos kind c num mine r).ops pos = t.ops pos := fun t r => State.ops_sendControl ..
    unfold u
    split
    · exact ⟨rfl, rfl⟩
    · split
      · exact ⟨foldl_keeps State.memory _ hsend _ _, foldl_keeps (fun t : State => t.ops pos) _ hops _ _⟩
      · split
        · exact ⟨hsend .., hops ..⟩
        · exact ⟨rfl, rfl⟩
  clear_value u
  rw [hxnum, if_neg, if_neg (Nat.lt_irrefl _), hx, show (s.xdie pos).op c = some o from ho, if_neg (by exact Bool.false_ne_true)] at hex
  · refine ⟨_, hex, SameMemory.of_eq ?_, ?_⟩
    · rw [State.endOp_memory]
      exact (State.sendReport_memory ..).trans hu.1
    · have hw : w.ops pos = s.ops pos := (congrArg (fun x : XDie => (x.colls, x.opNums)) (by simp [w])).trans hu.2
      have hwnum : (w.xdie pos).opNum c = num := (State.opNum_of_ops hw c).trans (hnum.trans hn)
      obtain ⟨h1, h2⟩ := (w.xdie pos).dropOp_drops c
      rw [hwnum] at h1 h2
      rw [show (w.endOp pos c 1).xdie s.arg.pos = _ from w.xdie_endOp pos c 1]
      exact ⟨h1, h2⟩
  · rw [hx, show (s.xdie pos).op c = some o from ho, Option.any_some, hc]
    simp

end

theorem exec_collectiveTimeLimit_asks {s : State} {o : Coll} (ho : (s.xdie s.arg.pos).opAt s.arg.n s.arg.off = some o) :
    let late : Arg := { pos := s.arg.pos, n := s.arg.n, off := s.arg.off, m := 1 }
    (s.arg.ok = true → exec .collectiveTimeLimit s = .next
      (if o.started = some s.arg.value.toNat ∧ o.sentReady = false then { s with inbox := s.inbox ++ [(.abort, late)] } else s)) ∧
    (s.arg.ok = false → exec .collectiveTimeLimit s = .next
      (if o.firstReady = some s.arg.value.toNat ∧ o.committed = false then { s with inbox := s.inbox ++ [(.abort, late)] } else s)) := by
  intro late
  have hex := exec_collectiveTimeLimit s
  unfold execCollectiveTimeLimit at hex
  dsimp only at hex
  rw [ho] at hex
  dsimp only at hex
  constructor
  · intro hok
    rw [hok, if_pos rfl] at hex
    rw [hex, apply_ite Host.Outcome.next]
    refine if_congr ?_ rfl rfl
    rw [Bool.and_eq_true, decide_eq_true_eq, Bool.not_eq_true', eq_comm]
  · intro hok
    rw [hok, if_neg Bool.false_ne_true] at hex
    rw [hex, apply_ite Host.Outcome.next]
    refine if_congr ?_ rfl rfl
    rw [Bool.and_eq_true, decide_eq_true_eq, Bool.not_eq_true', eq_comm]

/-- Settles O59: flits and reports leave an X-die's operations, so each event's own change of them is what stands after it. -/
theorem collectives : Obligations.Collectives := by
  unfold Obligations.Collectives
  intro s
  refine ⟨fun p y hp hl hy => ⟨exec_collectiveContribution_differs hp hl hy, exec_collectiveContribution_joins hp hl hy⟩,
    fun h => ⟨exec_ready_late h, exec_abort_late h⟩, exec_ready_kept, fun h => ?_, fun h => ?_, fun o ho => ⟨exec_commit_other ho, exec_abort_next ho,
      fun hn hc => ⟨exec_commit_again ho hc, exec_abort_committed ho hn hc⟩, fun hn hc => ⟨exec_commit_commits ho hn hc, exec_abort_drops ho hn hc⟩⟩,
    fun o ho => exec_collectiveTimeLimit_asks ho⟩
  · rw [exec_commit]
    unfold execCommit
    dsimp only
    rw [h]
  · rw [exec_collectiveTimeLimit]
    unfold execCollectiveTimeLimit
    dsimp only
    rw [h]

end Sys2Proof.Machine
end

section
/-! SUPPORT. Power. -/

namespace Sys2Proof.Machine

open Sys2Proof

/-! ### Limits -/

/-- The device but for the voltages of its islands. -/
def Dev.plain (d : Dev) : Dev := { d with islands := {} }

/-- What the measuring of limits leaves alone, the island voltages apart: the device, the hubs and memory. -/
def State.besideLimits (s : State) : Dev × SMap Hub × (List Host.Cell × SMap Bool × SMap Nat × SMap Bool) := (s.dev.plain, s.hubs, s.memory)

theorem State.setIslands_leaves (s : State) (p : Nat) : (s.setIslands p).besideLimits = s.besideLimits := by
  unfold State.setIslands
  rw [foldl_keeps State.besideLimits _ (fun (t : State) i => ?_)]
  rfl

theorem State.evalDies_leaves (l : List Nat) : ∀ s : State, (s.evalDies l).1.besideLimits = s.besideLimits := by
  induction l with
  | nil => exact fun _ => rfl
  | cons p r ih => exact fun s => (ih _).trans (s.setIslands_leaves p)

theorem State.orderLevels_leaves (s : State) : s.orderLevels.dev = s.dev ∧ s.orderLevels.hubs = s.hubs := by
  have hcoast : ∀ (u : State) n, (u.orderCoast n).dev = u.dev ∧ (u.orderCoast n).hubs = u.hubs := fun u n => by
    unfold State.orderCoast
    extract_lets l ms c q
    split
    · exact ⟨rfl, rfl⟩
    · split
      · exact ⟨rfl, rfl⟩
      · constructor
        · refine foldl_keeps State.dev _ (fun v p => ?_) ms _
          split
          · rfl
          · rfl
        · refine foldl_keeps State.hubs _ (fun v p => ?_) ms _
          split
          · rfl
          · rfl
  have halone : ∀ (u : State) p, (u.coastAlone p).dev = u.dev ∧ (u.coastAlone p).hubs = u.hubs := fun u p => by
    unfold State.coastAlone
    dsimp only
    split <;> exact ⟨rfl, rfl⟩
  unfold State.orderLevels
  exact ⟨(foldl_keeps State.dev _ (fun u n => (hcoast u n).1) _ _).trans (foldl_keeps State.dev _ (fun u p => (halone u p).1) _ _),
    (foldl_keeps State.hubs _ (fun u n => (hcoast u n).2) _ _).trans (foldl_keeps State.hubs _ (fun u p => (halone u p).2) _ _)⟩

theorem State.tripIf_leaves (s : State) (b : Bool) : (s.tripIf b).dev = s.dev ∧ (s.tripIf b).hubs = s.hubs := by
  unfold State.tripIf
  split <;> exact ⟨rfl, rfl⟩

/-- Once the levels are ordered, and a trip where it is due, the device, the hubs and memory are as before. -/
theorem State.settled_leaves (s : State) (b : Bool) : (s.orderLevels.tripIf b).dev = s.dev ∧ (s.orderLevels.tripIf b).hubs = s.hubs ∧
    (s.orderLevels.tripIf b).memory = s.memory := by
  obtain ⟨h1, h2⟩ := s.orderLevels.tripIf_leaves b
  obtain ⟨h3, h4⟩ := s.orderLevels_leaves
  exact ⟨h1.trans h3, h2.trans h4, by rw [State.tripIf_memory, State.orderLevels_memory]⟩

theorem exec_powerLimitEvaluation_moves (s : State) : ∃ t w, exec .powerLimitEvaluation s = .next t ∧ SameMemory s t ∧ t.hubs = s.hubs ∧
    t.dev.reqPkg = s.dev.reqPkg.eval (decide (3000 < Config.sensor w)) (decide (Config.sensor w < 2900)) := by
  have hex := exec_powerLimitEvaluation s
  unfold execPowerLimitEvaluation at hex
  extract_lets x u w r src srcd v at hex
  obtain ⟨h1, h2⟩ := Prod.ext_iff.1 (State.evalDies_leaves s.liveDies s)
  obtain ⟨h3, h4⟩ := Prod.ext_iff.1 h2
  obtain ⟨hd, hh, hm⟩ := v.settled_leaves (x.2 || decide (10 ≤ r.full))
  generalize v.orderLevels.tripIf _ = t at hex hd hh hm
  have hreq : u.dev.reqPkg = s.dev.reqPkg := by
    have h := congrArg Dev.reqPkg h1
    exact h
  have hr : v.dev.reqPkg = s.dev.reqPkg.eval (decide (3000 < Config.sensor u.free)) (decide (Config.sensor u.free < 2900)) := by
    unfold v r
    rw [hreq]
  exact ⟨t, u.free, hex, SameMemory.of_eq (hm.trans h4), hh.trans h3, by rw [hd, hr]⟩

theorem exec_vcoreCurrentEvaluation_moves (s : State) : ∃ t, exec .vcoreCurrentEvaluation s = .next t ∧ SameMemory s t ∧ t.hubs = s.hubs ∧
    t.dev.reqVcore = s.dev.reqVcore.eval (decide (5800 < Config.sensor s.free)) (decide (Config.sensor (s.free + 1) < 5400)) := by
  have hex := exec_vcoreCurrentEvaluation s
  unfold execVcoreCurrentEvaluation at hex
  extract_lets r src srcd v at hex
  obtain ⟨hd, hh, hm⟩ := v.settled_leaves (decide (1000 ≤ r.full))
  generalize v.orderLevels.tripIf _ = t at hex hd hh hm
  exact ⟨t, hex, SameMemory.of_eq hm, hh, by rw [hd]⟩

/-! ### The trip -/

theorem exec_thermalTrip_again {s : State} (h : s.dev.power = .sleep ∨ s.dev.power = .off ∨ s.dev.power = .trip) :
    exec .thermalTrip s = .next s := by
  rw [exec_thermalTrip]
  unfold execThermalTrip
  exact if_pos h

theorem exec_thermalTrip_trips {s : State} (h : s.dev.power = .active ∨ s.dev.power = .idleRetain) :
    ∃ t, exec .thermalTrip s = .next t ∧ t.dev.power = .trip ∧ t.hubs = [] ∧ t.arrays = [] ∧ t.agenda = [] ∧
      ∀ a, isSram (homeOf a) = true → Memory.read t.mem a = 0 := by
  have hex := exec_thermalTrip s
  unfold execThermalTrip at hex
  rw [if_neg (by obtain h | h := h <;> rw [h] <;> decide)] at hex
  generalize (List.range 16).foldl (fun (s : State) p => s.tripPart p) s = u at hex
  let v := u.powerDown .trip
  obtain ⟨m, hdev⟩ := v.signal_dev 0 0
  obtain ⟨-, -, -, ha, -⟩ := v.signal_frame 0 0
  refine ⟨_, hex, ?_, ?_, ?_, ha, fun a hs => ?_⟩
  · exact congrArg Dev.power hdev
  · exact (show (v.signal 0 0).hubs = v.hubs by simp)
  · exact (show (v.signal 0 0).arrays = v.arrays by simp)
  · rw [show (v.signal 0 0).mem = v.mem by simp]
    refine (Memory.read_filter u.mem (fun a => !isSram (homeOf a)) a).trans ?_
    rw [hs]
    rfl

/-! ### Waking -/

/-- The power state, and whether the ROM boots after a wake. -/
def Dev.woken (d : Dev) : Power × Nat := (d.power, d.bootWake)

theorem State.boot_woken (s : State) (f : Dev → Dev) : (s.boot f).dev.woken = (f s.dev).woken := by
  obtain ⟨m, h⟩ := State.signal_dev { s with dev := f s.dev } 0 1
  unfold State.boot
  rw [h]
  rfl

theorem State.startFirmware_woken (s : State) (h : List Byte) : (s.startFirmware h).dev.woken = s.dev.woken := by
  unfold State.startFirmware
  extract_lets svn u v
  have hu : u.dev.woken = s.dev.woken := rfl
  have hv : v.dev.woken = u.dev.woken := u.boot_woken _
  exact hv.trans hu

theorem State.romServe_woken (s : State) : s.romServe.dev.woken = s.dev.woken := by
  unfold State.romServe
  split <;> rfl

theorem State.bootImage_woken (s : State) (n : Nat) : (s.bootImage n).dev.woken = s.dev.woken := by
  unfold State.bootImage
  extract_lets u src r v w
  have hv : v.dev.woken = s.dev.woken := by
    unfold v
    split
    · exact (u.boot_woken _).trans (s.boot_woken _)
    · exact s.boot_woken _
  have hw : w.dev.woken = s.dev.woken := (v.boot_woken _).trans hv
  clear_value v w
  split
  · exact (v.startFirmware_woken _).trans hv
  · split
    · exact w.romServe_woken.trans hw
    · exact hw

theorem State.runRom_woken (s : State) (n : Nat) : (s.runRom n).dev.woken = s.dev.woken := by
  unfold State.runRom
  extract_lets src src2 a b c d
  have hb : b.dev.woken = s.dev.woken := a.boot_woken _
  have hc : c.dev.woken = b.dev.woken := rfl
  have hd : d.dev.woken = c.dev.woken := c.boot_woken _
  have hds := hd.trans (hc.trans hb)
  clear_value d
  split
  · exact (d.bootImage_woken n).trans hds
  · exact (d.boot_woken _).trans hds

theorem State.woken_remeasure (s : State) (k : Nat) : (s.remeasure k).dev = s.dev := by
  have hite : ∀ (c : Prop) [Decidable c] (u v : State), u.dev = s.dev → v.dev = s.dev → (if c then u else v).dev = s.dev := fun c _ u v hu hv => by
    split
    · exact hu
    · exact hv
  unfold State.remeasure
  extract_lets p a b c d
  have hb : b.dev = s.dev := hite _ _ _ rfl rfl
  have hc : c.dev = s.dev := hite _ _ _ hb hb
  have hd : d.dev = s.dev := hite _ _ _ hc hc
  exact hite _ _ _ hd hd

theorem State.dev_startClocks (s : State) : s.startClocks.dev = s.dev := by unfold State.startClocks; rfl

theorem State.wakeUp_wakes (s : State) (n : Nat) : (s.wakeUp n).dev.woken = (.active, 1) := by
  unfold State.wakeUp
  extract_lets src u v w
  have hv : v.dev.woken = (.active, 1) := congrArg Dev.woken (foldl_keeps State.dev _ (fun t k => t.woken_remeasure k) (List.range 16) u)
  have hw : w.dev.woken = (.active, 1) := by
    clear_value v
    have hl : v.startClocks.trainLinks.dev = v.dev := (State.trainLinks_leaves v.startClocks).2.trans v.dev_startClocks
    show (State.runRom v.startClocks.trainLinks n).dev.woken = _
    rw [State.runRom_woken, hl, hv]
  clear_value w
  refine (foldl_keeps (fun t : State => t.dev.woken) _ (fun t k => ?_) (List.range 16) w).trans hw
  split
  · rw [(t.scrubDies_begins k).1]
  · split
    · have h : (t.scrub k).dev.base.woken = t.dev.base.woken := by rw [(t.scrub_begins k).1]
      exact h
    · rfl

theorem State.wakeUp_awake (s : State) (n : Nat) : (s.wakeUp n).dev.power = .active ∧ (s.wakeUp n).dev.bootWake = 1 := by
  have h := s.wakeUp_wakes n
  generalize s.wakeUp n = t at h
  exact ⟨congrArg Prod.fst h, congrArg Prod.snd h⟩

theorem exec_tripExit_wakes {s : State} (hp : s.dev.power = .trip) (hok : s.arg.ok = true) :
    ∃ t, exec .tripExit s = .next t ∧ t.dev.power = .active ∧ t.dev.bootWake = 1 := by
  exact ⟨_, (exec_tripExit s).trans (if_pos ⟨hp, hok⟩), s.wakeUp_awake flashImage.len⟩

theorem exec_wakeFromSleep_wakes {s : State} (hp : s.dev.power = .sleep) :
    ∃ t, exec .wakeFromSleep s = .next t ∧ t.dev.power = .active ∧ t.dev.bootWake = 1 := by
  exact ⟨_, (exec_wakeFromSleep s).trans (if_pos hp), s.wakeUp_awake s.arg.flashBytes⟩

/-! ### Idle-retain -/

theorem State.islands_pos_of_good (s : State) {p : Nat} (hg : s.good p = true) : 1 ≤ (s.kind p).islands := by
  have hcode : ∀ c, 1 ≤ c → c ≤ 6 → 1 ≤ (Config.kindOfCode c).islands := by
    intro c h1 h6
    interval_cases c <;> decide
  have h := hg
  unfold State.good at h
  simp only [Bool.and_eq_true, decide_eq_true_eq] at h
  unfold State.kind
  rw [if_pos hg]
  exact hcode _ h.2.1 h.2.2

/-- The gates of a die outside the H-die, as the power controller sets them. -/
def Gated (s : State) (b : Bool) (p : Nat) (d : Die) : Prop :=
  (s.good p && s.kind p != .hDie) = true → d.gates = if b then 2 ^ (s.kind p).islands - 1 else 0

theorem State.gateDies_gates (s : State) (b : Bool) {p : Nat} (hp : p < 48) (hg : s.good p = true) (hk : s.kind p ≠ .hDie) :
    ((s.gateDies b).die p).gated = b := by
  have hne : ((if b then 2 ^ (s.kind p).islands - 1 else 0) != 0) = b := by
    cases b with
    | false => rfl
    | true =>
      have h : 2 ^ 1 ≤ 2 ^ (s.kind p).islands := Nat.pow_le_pow_right (by decide) (s.islands_pos_of_good hg)
      rw [if_pos rfl, bne_iff_ne]
      omega
  have hdo : (s.good p && s.kind p != .hDie) = true := by
    rw [hg, Bool.true_and]
    simpa using hk
  have hall := foldl_establishes (fun p (m : SMap Die) => Gated s b p (SMap.get {} m p))
    (fun (m : SMap Die) p => if s.good p && s.kind p != .hDie then SMap.put m p { SMap.get {} m p with gates := if b then 2 ^ (s.kind p).islands - 1 else 0 } else m)
    (fun m p h => ?_) (fun m p q hm h => ?_) (List.range 48) s.dies p (List.mem_range.2 hp)
  · exact (congrArg (fun n => n != 0) (hall hdo)).trans hne
  · rw [if_pos h, SMap.get_put_self]
  · split
    · rw [SMap.get_put]
      split
      · rename_i hq
        rw [← hq]
      · exact hm h
    · exact hm h

section
variable {s : State} (hp : s.dev.power = .active) (hr : s.restful = true)
include hp hr

theorem exec_idleRetainEntry_gates (hg : s.dev.gatedAt = none) :
    ∃ t, exec .idleRetainEntry s = .next t ∧ t.dev.power = .active ∧ t.dev.gatedAt = some s.cy ∧ SameMemory s t ∧ t.hubs = s.hubs ∧
      ∀ p, p < 48 → s.good p = true → s.kind p ≠ .hDie → (t.die p).gated = true := by
  have hex := exec_idleRetainEntry s
  unfold execIdleRetainEntry at hex
  rw [if_neg (by rw [hp, hr]; decide), hg] at hex
  exact ⟨_, hex, hp, rfl, SameMemory.of_eq rfl, rfl, fun p => s.gateDies_gates true⟩

theorem exec_idleRetainEntry_enters (hg : s.dev.gatedAt = some s.arg.n) (ht : s.arg.n + 1000 * Config.cyPerUs ≤ s.cy) :
    exec .idleRetainEntry s = .next { s with dev := { s.dev with power := .idleRetain, gatedAt := none } } := by
  rw [exec_idleRetainEntry]
  unfold execIdleRetainEntry
  rw [if_neg (by rw [hp, hr]; decide), hg]
  exact if_pos ⟨rfl, ht⟩

end

theorem exec_wakeFromIdle_wakes {s : State} (hp : s.dev.power = .idleRetain) :
    ∃ t, exec .wakeFromIdle s = .next t ∧ t.dev.power = .active ∧ SameMemory s t ∧ t.hubs = s.hubs ∧
      ∀ p, p < 48 → s.good p = true → s.kind p ≠ .hDie → (t.die p).gated = false := by
  have hex := exec_wakeFromIdle s
  unfold execWakeFromIdle State.dozing at hex
  rw [if_pos (by rw [hp]; rfl)] at hex
  exact ⟨_, hex, rfl, SameMemory.of_eq rfl, rfl, fun p => s.gateDies_gates false⟩

theorem exec_powerOff_leaves (s : State) : ∃ t, exec .powerOff s = .next t ∧ t.dev.power = .off ∧ t.dev.mix = s.dev.mix ∧ t.hubs = [] ∧
    ∀ a, Memory.read t.mem a = if homeFlash ≤ homeOf a then Memory.read s.mem a else 0 := by
  refine ⟨_, exec_powerOff s, rfl, rfl, rfl, fun a => ?_⟩
  refine (Memory.read_filter s.mem (fun a => decide (homeFlash ≤ homeOf a)) a).trans ?_
  simp only [decide_eq_true_eq]
  rfl

/-- Settles O60: the readings move one request each; a wake's boot, scrubs and measurements leave the power state. -/
theorem powerStates : Obligations.PowerStates := by
  unfold Obligations.PowerStates
  intro s
  exact ⟨exec_powerLimitEvaluation_moves s, exec_vcoreCurrentEvaluation_moves s, exec_thermalTrip_again, exec_thermalTrip_trips, exec_tripExit_wakes,
    exec_wakeFromSleep_wakes, fun h => (exec_tripExit s).trans (if_neg fun hp => h hp.1), fun h => (exec_wakeFromSleep s).trans (if_neg h),
    fun hp hr => ⟨exec_idleRetainEntry_gates hp hr, exec_idleRetainEntry_enters hp hr⟩, exec_wakeFromIdle_wakes, exec_powerOff_leaves s⟩

end Sys2Proof.Machine
end

section
/-! SUPPORT. Transfer words. -/

namespace Sys2Proof.Machine

open Sys2Proof

/-! ### Writes made of several runs -/

/-- Some run covers a byte. -/
def Covered (rs : List (Nat × List Byte)) (x : Nat) : Prop := ∃ r ∈ rs, r.1 ≤ x ∧ x < r.1 + r.2.length

theorem read_writeRuns_out {rs : List (Nat × List Byte)} {x : Nat} (h : ¬ Covered rs x) (m : List Host.Cell) :
    Memory.read (writeRuns m rs) x = Memory.read m x := by
  induction rs generalizing m with
  | nil => rfl
  | cons r rs ih =>
    rw [writeRuns, ih (fun ⟨q, hq, hx⟩ => h ⟨q, List.mem_cons_of_mem _ hq, hx⟩), Memory.read_writeAll_out]
    have hr : ¬ (r.1 ≤ x ∧ x < r.1 + r.2.length) := fun hx => h ⟨r, List.mem_cons_self, hx⟩
    omega

theorem homeOf_line (x : Nat) : homeOf (64 * (x / 64)) = homeOf x := by
  unfold homeOf
  omega

theorem State.read_rewrittenRuns (s : State) (rs : List (Nat × List Byte)) (ls : List Nat) (x : Nat) :
    Memory.read (s.rewrittenRuns rs ls) x =
      if x / 64 ∈ ls ∧ SMap.get 0 s.epochs (x / 64) ≠ (s.die (homeDie (homeOf x))).epoch ∧ ¬ coversLine rs (x / 64) = true
      then (s.die (homeDie (homeOf x))).blankByte x else Memory.read s.mem x := by
  induction ls with
  | nil => simp [State.rewrittenRuns]
  | cons l r ih =>
    rw [State.rewrittenRuns]
    by_cases hx : x / 64 = l
    · subst hx
      rw [homeOf_line]
      split
      · rename_i h
        rw [ih, if_neg (fun hc => h.elim hc.2.1 hc.2.2), if_neg (fun hc => h.elim hc.2.1 hc.2.2)]
      · rename_i h
        rw [not_or] at h
        rw [if_pos ⟨List.mem_cons_self, h⟩]
        have hk : 64 * (x / 64) + x % 64 = x := by omega
        have hb : ((List.range 64).map fun i => (s.die (homeDie (homeOf x))).blankByte (64 * (x / 64) + i))[x % 64]? =
            some ((s.die (homeDie (homeOf x))).blankByte x) := by
          rw [List.getElem?_map, List.getElem?_range (by omega), Option.map_some, hk]
        have hread := Memory.read_writeAll _ (s.rewrittenRuns rs r) (64 * (x / 64)) _ _ hb
        rwa [hk] at hread
    · have hstep : Memory.read (if SMap.get 0 s.epochs l = (s.die (homeDie (homeOf (64 * l)))).epoch ∨ coversLine rs l = true then s.rewrittenRuns rs r
          else Memory.writeAll (s.rewrittenRuns rs r) (64 * l) ((List.range 64).map fun i => (s.die (homeDie (homeOf (64 * l)))).blankByte (64 * l + i))) x =
          Memory.read (s.rewrittenRuns rs r) x := by
        split
        · rfl
        · exact Memory.read_writeAll_out _ _ _ _ (by simp only [List.length_map, List.length_range]; omega)
      refine hstep.trans (ih.trans (if_congr ?_ rfl rfl))
      rw [List.mem_cons]
      simp [hx]

theorem get_foldl_set (f : Nat → Nat) (ls : List Nat) (m : SMap Nat) (k : Nat) :
    SMap.get 0 (ls.foldl (fun m l => SMap.set 0 m l (f l)) m) k = if k ∈ ls then f k else SMap.get 0 m k := by
  induction ls generalizing m with
  | nil => rfl
  | cons l r ih =>
    rw [List.foldl_cons, ih, SMap.get_set]
    by_cases h : k = l
    · subst h
      simp
    · simp [h]

theorem mem_runLines_of_covered {rs : List (Nat × List Byte)} {x : Nat} (h : Covered rs x) : x / 64 ∈ runLines rs := by
  obtain ⟨r, hr, h1, h2⟩ := h
  unfold runLines
  rw [List.mem_eraseDups, List.mem_flatMap]
  exact ⟨r, hr, (mem_linesOf ..).2 (by omega)⟩

theorem covered_of_coversLine {rs : List (Nat × List Byte)} {x : Nat} (h : coversLine rs (x / 64) = true) : Covered rs x := by
  unfold coversLine at h
  have hx := List.all_eq_true.1 h (x % 64) (List.mem_range.2 (Nat.mod_lt _ (by decide)))
  obtain ⟨r, hr, hc⟩ := List.any_eq_true.1 hx
  exact ⟨r, hr, by simpa only [decide_eq_true_eq, show 64 * (x / 64) + x % 64 = x by omega] using hc⟩

theorem State.writeScatter_epoch (s : State) (rs : List (Nat × List Byte)) (p : Bool) (x : Nat) :
    SMap.get 0 (s.writeScatter rs p).epochs (x / 64) =
      if x / 64 ∈ runLines rs ∧ isHbm (homeOf x) = true then (s.die (homeDie (homeOf x))).epoch else SMap.get 0 s.epochs (x / 64) := by
  unfold State.writeScatter
  dsimp only
  rw [get_foldl_set (fun l => (s.die (homeDie (homeOf (64 * l)))).epoch), homeOf_line]
  refine if_congr ?_ rfl rfl
  rw [List.mem_filter, homeOf_line]

theorem State.byteAt_writeScatter_in (s : State) (rs : List (Nat × List Byte)) (p : Bool) {x : Nat} (h : Covered rs x) :
    (s.writeScatter rs p).byteAt x = Memory.read (s.writeScatter rs p).mem x := by
  have hd : ∀ q, (s.writeScatter rs p).die q = s.die q := fun _ => rfl
  unfold State.byteAt
  dsimp only
  rw [State.writeScatter_epoch, hd]
  by_cases hh : isHbm (homeOf x) = true
  · rw [if_pos hh, if_pos (if_pos ⟨mem_runLines_of_covered h, hh⟩)]
  · rw [if_neg hh]

theorem State.byteAt_writeScatter_out (s : State) (rs : List (Nat × List Byte)) (p : Bool) {x : Nat} (h : ¬ Covered rs x) :
    (s.writeScatter rs p).byteAt x = s.byteAt x := by
  have hd : ∀ q, (s.writeScatter rs p).die q = s.die q := fun _ => rfl
  have hmem : Memory.read (s.writeScatter rs p).mem x = _ := (read_writeRuns_out h _).trans (s.read_rewrittenRuns rs _ x)
  have hc : ¬ coversLine rs (x / 64) = true := fun hc => h (covered_of_coversLine hc)
  have hl : x / 64 ∈ (runLines rs).filter (fun l => isHbm (homeOf (64 * l))) ↔ x / 64 ∈ runLines rs ∧ isHbm (homeOf x) = true := by
    rw [List.mem_filter, homeOf_line]
  unfold State.byteAt
  dsimp only
  rw [State.writeScatter_epoch, hd, hmem]
  simp only [hl, hc]
  by_cases hh : isHbm (homeOf x) = true
  · by_cases hm : x / 64 ∈ runLines rs
    · by_cases he : SMap.get 0 s.epochs (x / 64) = (s.die (homeDie (homeOf x))).epoch <;> simp [hh, hm, he]
    · simp [hh, hm]
  · simp [hh]

/-! ### The elements of a chunk -/

theorem mem_cut {w : Nat} {addr : Nat → Nat} {l : List Nat} {bs : List Byte} {r : Nat × List Byte} (h : r ∈ cut w addr l bs) :
    ∃ n i : Nat, l[n]? = some i ∧ r.1 = addr i ∧ r.2.length ≤ w := by
  induction l generalizing bs with
  | nil => cases h
  | cons i l ih =>
    rw [cut, List.mem_cons] at h
    obtain h | h := h
    · exact ⟨0, i, rfl, by rw [h], by rw [h]; exact List.length_take_le ..⟩
    · obtain ⟨n, k, hk, h1, h2⟩ := ih h
      exact ⟨n + 1, k, hk, h1, h2⟩

/-- A byte of an element stands at the element's address when the elements do not overlap. -/
theorem read_writeRuns_cut {w : Nat} {addr : Nat → Nat} (l : List Nat) (bs : List Byte) (m : List Host.Cell) {n i j : Nat} {b : Byte}
    (hi : l[n]? = some i) (hj : j < w) (hb : bs[n * w + j]? = some b)
    (hd : ∀ k i' : Nat, k ≠ n → l[k]? = some i' → addr i' + w ≤ addr i ∨ addr i + w ≤ addr i') :
    Memory.read (writeRuns m (cut w addr l bs)) (addr i + j) = b ∧ Covered (cut w addr l bs) (addr i + j) := by
  induction l generalizing bs m n with
  | nil => simp at hi
  | cons a l ih =>
    cases n with
    | zero =>
      rw [List.getElem?_cons_zero, Option.some.injEq] at hi
      subst hi
      rw [Nat.zero_mul, Nat.zero_add] at hb
      have hbt : (bs.take w)[j]? = some b := by rw [List.getElem?_take_of_lt hj, hb]
      have hlen : j < (bs.take w).length := (List.getElem?_eq_some_iff.1 hbt).1
      rw [cut, writeRuns, read_writeRuns_out]
      · exact ⟨Memory.read_writeAll _ _ _ _ _ hbt, _, List.mem_cons_self, Nat.le_add_right .., Nat.add_lt_add_left hlen _⟩
      · rintro ⟨r, hr, h1, h2⟩
        obtain ⟨k, i', hk, h3, h4⟩ := mem_cut hr
        have := hd (k + 1) i' (by omega) hk
        omega
    | succ n =>
      have hb' : (bs.drop w)[n * w + j]? = some b := by
        rw [List.getElem?_drop, show w + (n * w + j) = (n + 1) * w + j by rw [Nat.succ_mul]; omega, hb]
      obtain ⟨h1, r, hr, h2⟩ := ih (bs.drop w) (Memory.writeAll m (addr a) (bs.take w)) hi hb'
        (fun k i' hk hi' => hd (k + 1) i' (by omega) hi')
      rw [cut, writeRuns]
      exact ⟨h1, r, List.mem_cons_of_mem _ hr, h2⟩

section
variable (s : State) (t : XfWord) (c base : Nat) (bs : List Byte) (p : Bool)

theorem State.xfWrite_single : s.xfWrite t c base [bs] p =
    s.writeScatter (cut (t.d.dw t.op) (fun i => t.dstAt base i 0) (t.elems c) bs) p := by
  unfold State.xfWrite
  rw [List.take_of_length_le (by simp), List.zipIdx_singleton, List.flatMap_singleton]

theorem State.byteAt_xfWrite_in {n i j : Nat} {b : Byte} (hi : (t.elems c)[n]? = some i) (hj : j < t.d.dw t.op) (hb : bs[n * t.d.dw t.op + j]? = some b)
    (hd : ∀ m i', m ≠ n → (t.elems c)[m]? = some i' →
      t.dstAt base i' 0 + t.d.dw t.op ≤ t.dstAt base i 0 ∨ t.dstAt base i 0 + t.d.dw t.op ≤ t.dstAt base i' 0) :
    (s.xfWrite t c base [bs] p).byteAt (t.dstAt base i 0 + j) = b := by
  rw [State.xfWrite_single]
  obtain ⟨h1, h2⟩ := read_writeRuns_cut (addr := fun i => t.dstAt base i 0) (t.elems c) bs
    (s.rewrittenRuns (cut (t.d.dw t.op) (fun i => t.dstAt base i 0) (t.elems c) bs)
      ((runLines (cut (t.d.dw t.op) (fun i => t.dstAt base i 0) (t.elems c) bs)).filter fun l => isHbm (homeOf (64 * l)))) hi hj hb hd
  exact (s.byteAt_writeScatter_in _ p h2).trans h1

theorem State.byteAt_xfWrite_out {a : Nat} (h : ∀ i ∈ t.elems c, a < t.dstAt base i 0 ∨ t.dstAt base i 0 + t.d.dw t.op ≤ a) :
    (s.xfWrite t c base [bs] p).byteAt a = s.byteAt a := by
  rw [State.xfWrite_single]
  refine s.byteAt_writeScatter_out _ p ?_
  rintro ⟨r, hr, h1, h2⟩
  obtain ⟨n, i, hi, h3, h4⟩ := mem_cut hr
  have := h i (List.mem_of_getElem? hi)
  omega

end

theorem XfWord.fill_primal {t : XfWord} (hk : t.k = 0) (c : Nat) :
    t.fill c = [((t.elems c).map fun _ => leBytes (2 ^ t.d.esz) t.d.aux.toNat).flatten] := by
  unfold XfWord.fill
  rw [hk]
  rfl

/-! ### The words -/

/-- A word without a TAN before it stands where its stream does. -/
theorem State.wordIdx_of_engine {s : State} (h : s.cur.eng ≠ 1) : s.wordIdx = (s.curHub.stream s.cur.eng).pos := by
  unfold State.wordIdx State.curTan
  rw [if_neg h]
  rfl

theorem State.later_retire (s : State) (l : Nat) (a : Act) (w c : Nat) : (s.later l a).retire w c = afterWords s l a w c := rfl

theorem State.retire_slots (s : State) (c : Nat) : s.retire 1 c = afterSlots s c := rfl

/-- The timeline of a transfer engine. -/
theorem timelineOf_transfer {e : Nat} (h : e = 3 ∨ e = 4) : timelineOf e = if e = 3 then 2 else 3 := by
  obtain rfl | rfl := h <;> rfl

section
variable {s : State} (he : s.cur.eng = 3 ∨ s.cur.eng = 4)
include he

theorem State.xfWaits_iff : s.xfWaits = true ↔ s.curHub.launch.timed = false ∧
    (s.curHub.timeline (if s.cur.eng = 3 then 2 else 3)).count < (s.curHub.timeline (if s.cur.eng = 3 then 2 else 3)).issued := by
  unfold State.xfWaits
  rw [timelineOf_transfer he]
  simp

theorem xfWord_issues {op : Nat} (e : Nat) (hw : s.xfWaits = false)
    (hp : ((op == opZip || op == opUnzip) && s.curHub.portFull s.cur.eng) = false) :
    xfWord op e s = afterWords s 2 (.xf (.desc s.cur.die s.cur.hub s.cur.eng op e (s.die s.cur.die).cad ((s.curHub.stream s.cur.eng).seg.getD 0)
      (s.curHub.stream s.cur.eng).pos ⟨s.curHub.handles, s.curHub.tstride.toNat, s.curHub.ranges s.cur.eng, s.slotTags⟩)) 1 3 := by
  unfold xfWord
  rw [hw, hp, if_neg (by decide)]
  dsimp only
  rw [State.wordIdx_of_engine (by omega), State.later_retire]
  rfl

omit he in
theorem xfWord_waits {op : Nat} (e : Nat) (h : s.xfWaits = true ∨ (op = opZip ∨ op = opUnzip) ∧ s.curHub.portFull s.cur.eng = true) :
    xfWord op e s = s.holdWord := by
  unfold xfWord
  refine if_pos ?_
  simpa using h

end

section
variable {s : State} (e n : BitVec 16)

/-- What a transfer word of an operation leaves when it issues. -/
def State.xfIssued (s : State) (op : Nat) (e : BitVec 16) : Res :=
  .next (afterWords s 2 (.xf (.desc s.cur.die s.cur.hub s.cur.eng op e.toNat (s.die s.cur.die).cad ((s.curHub.stream s.cur.eng).seg.getD 0)
    (s.curHub.stream s.cur.eng).pos ⟨s.curHub.handles, s.curHub.tstride.toNat, s.curHub.ranges s.cur.eng, s.slotTags⟩)) 1 3)

theorem exec_transfer_waits (hw : s.xfWaits = true) : exec (.xfnop n) s = .next s.holdWord ∧ exec (.xfcopy e) s = .next s.holdWord ∧
    exec (.xfcast e) s = .next s.holdWord ∧ exec (.xfzip e) s = .next s.holdWord ∧ exec (.xfunzip e) s = .next s.holdWord ∧
    exec (.xffill e) s = .next s.holdWord ∧ exec (.xfsend e) s = .next s.holdWord ∧ exec (.xfrecv e) s = .next s.holdWord ∧
    exec (.xfvirt e) s = .next s.holdWord := by
  have hword : ∀ op, Host.Outcome.next (xfWord op e.toNat s) = (Host.Outcome.next s.holdWord : Res) := fun op => by rw [xfWord_waits _ (.inl hw)]
  refine ⟨?_, (exec_xfcopy e s).trans (hword _), (exec_xfcast e s).trans (hword _), (exec_xfzip e s).trans (hword _),
    (exec_xfunzip e s).trans (hword _), (exec_xffill e s).trans (hword _), (exec_xfsend e s).trans (hword _), (exec_xfrecv e s).trans (hword _),
    (exec_xfvirt e s).trans (hword _)⟩
  rw [exec_xfnop]
  exact if_pos hw

theorem exec_transfer_issues (he : s.cur.eng = 3 ∨ s.cur.eng = 4) (hw : s.xfWaits = false) : exec (.xfnop n) s = .next (afterSlots s (n.toNat + 1)) ∧
    exec (.xfcopy e) s = s.xfIssued 2 e ∧ exec (.xfcast e) s = s.xfIssued 3 e ∧ exec (.xffill e) s = s.xfIssued 6 e ∧
    exec (.xfsend e) s = s.xfIssued 7 e ∧ exec (.xfrecv e) s = s.xfIssued 8 e ∧ exec (.xfvirt e) s = s.xfIssued 9 e ∧
    (s.curHub.portFull s.cur.eng = false → exec (.xfzip e) s = s.xfIssued 4 e ∧ exec (.xfunzip e) s = s.xfIssued 5 e) := by
  have hword : ∀ op, ((op == opZip || op == opUnzip) && s.curHub.portFull s.cur.eng) = false →
      Host.Outcome.next (xfWord op e.toNat s) = s.xfIssued op e := fun op h => by
    rw [xfWord_issues he _ hw h]
    rfl
  refine ⟨?_, (exec_xfcopy e s).trans (hword _ rfl), (exec_xfcast e s).trans (hword _ rfl), (exec_xffill e s).trans (hword _ rfl),
    (exec_xfsend e s).trans (hword _ rfl), (exec_xfrecv e s).trans (hword _ rfl), (exec_xfvirt e s).trans (hword _ rfl),
    fun hp => ⟨(exec_xfzip e s).trans (hword _ ?_), (exec_xfunzip e s).trans (hword _ ?_)⟩⟩
  · rw [exec_xfnop]
    exact if_neg (by rw [hw]; exact Bool.false_ne_true)
  · rw [hp, Bool.and_false]
  · rw [hp, Bool.and_false]

end

/-! ### The end of a word -/

/-- A reply enters the queue of a hub that has room, whose port is empty. -/
theorem State.pushReply_enters (s : State) (d k e : Nat) (x : Reply) (hp : (s.hub d k).portFull e = false) (hr : (s.hub d k).replies.length < 16) :
    s.pushReply d k e x = (s.setHub d k { s.hub d k with replies := (s.hub d k).replies ++ [x] }).finishOp d k (timelineOf e) x.seq := by
  unfold State.pushReply
  dsimp only
  unfold Hub.portFull at hp
  rw [Option.isSome_eq_false_iff, Option.isNone_iff_eq_none] at hp
  rw [hp]
  exact if_pos hr

theorem State.setHub_setHub (s : State) (d k : Nat) (g h : Hub) : (s.setHub d k g).setHub d k h = s.setHub d k h := by
  unfold State.setHub
  dsimp only
  rw [SMap.put_put]

theorem State.setHub_finishOp (s : State) (d k q n : Nat) (g : Hub) :
    (s.setHub d k g).finishOp d k q n = s.setHub d k (g.setTimeline q ((g.timeline q).finish n)) := by
  unfold State.finishOp
  rw [State.setHub_self]
  exact s.setHub_setHub ..

section
variable {u : State} (hf : (u.hub u.arg.die u.arg.hub).stream u.arg.eng = { ((u.hub u.arg.die u.arg.hub).stream u.arg.eng) with fails := [] })
include hf

/-- The hub once a word without failed destinations is over. -/
def State.wordOver (u : State) : Hub :=
  let h := u.hub u.arg.die u.arg.hub
  h.setStream u.arg.eng { h.stream u.arg.eng with fails := [], pieces := SMap.drop (h.stream u.arg.eng).pieces u.arg.n }

theorem exec_transferWordEnd_eq : exec .transferWordEnd u =
    let a := u.arg
    let v := u.setHub a.die a.hub u.wordOver
    if a.ok then .next (v.post a.die ((u.die a.die).cad + 1) (u.hub a.die a.hub).lpos a.hub a.eng (.opEnd (timelineOf a.eng) a.n))
    else .next (v.pushReply a.die a.hub a.eng ⟨a.value, a.eng, a.m, a.part == 1, a.n⟩) := by
  have hnil : ((u.hub u.arg.die u.arg.hub).stream u.arg.eng).fails = [] := congrArg Eng.fails hf
  have hex := exec_transferWordEnd u
  unfold execTransferWordEnd at hex
  dsimp only at hex
  rw [hnil] at hex
  exact hex

theorem exec_transferWordEnd_counts (hok : u.arg.ok = true) : ∃ t, exec .transferWordEnd u = .next t ∧
    t.agenda = ⟨u.arg.die, (u.die u.arg.die).cad + 1, (u.hub u.arg.die u.arg.hub).lpos, u.arg.hub, u.arg.eng, u.seq,
      .opEnd (timelineOf u.arg.eng) u.arg.n, none, 0⟩ :: u.agenda ∧ OnlyHub u t u.arg.die u.arg.hub := by
  have hex := exec_transferWordEnd_eq hf
  dsimp only at hex
  rw [if_pos hok] at hex
  exact ⟨_, hex, rfl, onlyHub_of_put rfl rfl rfl rfl rfl rfl rfl rfl rfl⟩

theorem exec_transferWordEnd_replies (hok : u.arg.ok = false) (hp : (u.hub u.arg.die u.arg.hub).portFull u.arg.eng = false)
    (hr : (u.hub u.arg.die u.arg.hub).replies.length < 16) : ∃ t, exec .transferWordEnd u = .next t ∧
    (t.hub u.arg.die u.arg.hub).replies = (u.hub u.arg.die u.arg.hub).replies ++
      [⟨u.arg.value, u.arg.eng, u.arg.m, u.arg.part == 1, u.arg.n⟩] ∧ OnlyHub u t u.arg.die u.arg.hub := by
  have hex := exec_transferWordEnd_eq hf
  dsimp only at hex
  rw [if_neg (by rw [hok]; exact Bool.false_ne_true), State.pushReply_enters _ _ _ _ _ (by rw [State.setHub_self]; exact hp)
    (by rw [State.setHub_self]; exact hr), State.setHub_self, State.setHub_finishOp, State.setHub_setHub] at hex
  refine ⟨_, hex, ?_, onlyHub_setHub ..⟩
  rw [State.setHub_self]
  rfl

end

/-- Settles O39: a byte after a write made of runs is that of the run that covers it. -/
theorem transferWords : Obligations.TransferWords := by
  unfold Obligations.TransferWords
  refine ⟨fun s e n he hh => ⟨fun ht hc => exec_transfer_waits e n ((State.xfWaits_iff he).2 ⟨ht, hc⟩), fun hp => ?_, fun h => ?_, fun u hu hf =>
    ⟨exec_transferWordEnd_counts hf, exec_transferWordEnd_replies hf⟩⟩, fun s t c base bs p hk hw hl =>
    ⟨fun n i j b => s.byteAt_xfWrite_in t c base bs p, fun a => s.byteAt_xfWrite_out t c base bs p, XfWord.fill_primal hk c, rfl⟩⟩
  · dsimp only
    rw [exec_xfzip, exec_xfunzip]
    unfold execXfzip execXfunzip
    rw [xfWord_waits _ (.inr ⟨.inl rfl, hp⟩), xfWord_waits _ (.inr ⟨.inr rfl, hp⟩)]
    exact ⟨rfl, rfl⟩
  · have hw : s.xfWaits = false := by
      rw [Bool.eq_false_iff, Ne, State.xfWaits_iff he]
      obtain h | h := h
      · rw [h]
        exact fun hc => absurd hc.1 (by decide)
      · exact fun hc => absurd hc.2 (Nat.not_lt.2 h)
    exact exec_transfer_issues e n he hw

end Sys2Proof.Machine
end

section
/-! SUPPORT. Index words and their commands. -/

namespace Sys2Proof.Machine

open Sys2Proof

/-! ### Index words -/

theorem afterIssue_pos (s : State) (w c : Nat) : ((afterIssue s w c).stream s.cur.eng).pos = (s.curHub.stream s.cur.eng).pos + w :=
  congrArg Eng.pos (SMap.get_put_self ..)

theorem sameRegisters_afterIssue (s : State) (w c : Nat) : SameRegisters s.curHub (afterIssue s w c) := sameRegisters_refl _

section
variable {s : State} (he : s.cur.eng = 5) (op e : Nat)
include he

omit he in
theorem ixWord_full (h : 16 ≤ s.curHub.ixLoad) : ixWord op e s = s.holdWord := by
  unfold ixWord
  refine if_pos ?_
  rw [decide_eq_true h]
  rfl

omit he in
theorem ixWord_port (hp : s.curHub.portFull 5 = true) (hr : s.ixWillReply op (64 * e) = true) : ixWord op e s = s.holdWord := by
  unfold ixWord
  refine if_pos ?_
  rw [hp, hr]
  exact Bool.or_true _

/-- What a command is when its word issues. -/
def State.ixCmd (s : State) (op e : Nat) : IxCmd :=
  { op := op, issue := (s.die s.cur.die).cad, num := 0, seg := (s.curHub.stream 5).seg.getD 0, idx := (s.curHub.stream 5).pos
    off := 64 * e, sets := s.curHub.ranges 5, others := s.othersAtomic s.cur.die s.cur.hub }

theorem ixWord_enters (hl : s.curHub.ixLoad < 16) (hp : s.curHub.portFull 5 = false ∨ s.ixWillReply op (64 * e) = false) :
    ixWord op e s = afterWords (s.setCurHub { s.curHub with ixq := s.curHub.ixq ++ [s.ixCmd op e] }) 2
      (.ix (.block s.cur.die s.cur.hub (s.die s.cur.die).cad)) 1 1 := by
  have hcmd : (⟨op, s.now, 0, s.curEng.seg.getD 0, s.wordIdx, 64 * e, s.curHub.ranges 5, s.othersAtomic s.cur.die s.cur.hub, none⟩ : IxCmd) =
      s.ixCmd op e := by
    rw [State.wordIdx_of_engine (by omega)]
    unfold State.ixCmd State.curEng
    rw [he]
    rfl
  unfold ixWord
  dsimp only
  rw [if_neg, State.later_retire, ← hcmd]
  · rfl
  · simp only [Bool.or_eq_true, decide_eq_true_eq, Bool.and_eq_true, not_or, not_and]
    refine ⟨by omega, fun h1 h2 => ?_⟩
    obtain h | h := hp
    · exact absurd (h1.symm.trans h) (by decide)
    · exact absurd (h2.symm.trans h) (by decide)

theorem ixWord_leaves {i : Instr} (hi : exec i s = .next (ixWord op e s)) :
    (16 ≤ s.curHub.ixLoad → exec i s = .next s.holdWord) ∧
    (s.curHub.portFull 5 = true → s.ixWillReply op (64 * e) = true → exec i s = .next s.holdWord) ∧
    (s.curHub.ixLoad < 16 → s.curHub.portFull 5 = false ∨ s.ixWillReply op (64 * e) = false →
      ∃ t, exec i s = .next t ∧ t.curHub.ixq = s.curHub.ixq ++ [s.ixCmd op e] ∧
        t.agenda = dueOf s 2 (.ix (.block s.cur.die s.cur.hub (s.die s.cur.die).cad)) :: s.agenda ∧
        (t.curHub.stream 5).pos = (s.curHub.stream 5).pos + 1 ∧ SameRegisters s.curHub t.curHub ∧ OnlyHub s t s.cur.die s.cur.hub) := by
  refine ⟨fun h => by rw [hi, ixWord_full _ _ h], fun hp hr => by rw [hi, ixWord_port _ _ hp hr], fun hl hp => ?_⟩
  rw [hi, ixWord_enters he _ _ hl hp]
  let g : Hub := { s.curHub with ixq := s.curHub.ixq ++ [s.ixCmd op e] }
  let u := s.setCurHub g
  have hu : u.curHub = g := State.setHub_self ..
  have ht : (afterWords u 2 (.ix (.block s.cur.die s.cur.hub (s.die s.cur.die).cad)) 1 1).curHub = afterIssue u 1 1 := SMap.get_put_self ..
  refine ⟨_, rfl, ?_, ?_, ?_, ?_, onlyHub_of_put (g := afterIssue u 1 1) (SMap.put_put _ _ _ _) rfl rfl rfl rfl rfl rfl rfl rfl⟩
  · rw [ht]
    exact congrArg Hub.ixq hu
  · have hd : u.wordDetail = s.wordDetail := by
      unfold State.wordDetail State.wordIdx State.curTan State.curEng
      rw [hu]
      rfl
    have hl : u.curHub.lpos = s.curHub.lpos := (congrArg Hub.lpos hu).trans rfl
    show dueOf u 2 _ :: s.agenda = _
    unfold dueOf
    rw [hd, hl]
    rfl
  · have hp : ((afterIssue u 1 1).stream s.cur.eng).pos = (u.curHub.stream s.cur.eng).pos + 1 := afterIssue_pos u 1 1
    rw [ht, ← he, hp, hu]
    rfl
  · rw [ht]
    have h := sameRegisters_afterIssue u 1 1
    rw [hu] at h
    exact h

end

/-! ### Commands -/

theorem State.agenda_ixAt_ixAt (s : State) (d k a b : Nat) (x y : Act) : ((s.ixAt d k a x).ixAt d k b y).agenda =
    ⟨d, b, (s.hub d k).lpos, k, 5, s.seq + 1, y, none, 0⟩ :: ⟨d, a, (s.hub d k).lpos, k, 5, s.seq, x, none, 0⟩ :: s.agenda := rfl

section
variable {u : State}

theorem exec_indexCommandStart_starts {c : IxCmd} {r : List IxCmd} {b : IxBlock} (hn : (u.hub u.arg.die u.arg.hub).ixrun = none)
    (hq : (u.hub u.arg.die u.arg.hub).ixq = c :: r) (hb : c.block = some b) :
    let g := u.hub u.arg.die u.arg.hub
    let now := (u.die u.arg.die).cad
    ∃ t, exec .indexCommandStart u = .next t ∧ (t.hub u.arg.die u.arg.hub).ixq = r ∧
      (t.hub u.arg.die u.arg.hub).ixrun = some { cmd := c, b := b, t0 := now } ∧
      t.agenda = ⟨u.arg.die, now + 8 + b.x c.op + 1, g.lpos, u.arg.hub, 5, u.seq + 1,
          .ev .indexCommandEnd { die := u.arg.die, hub := u.arg.hub }, none, 0⟩ ::
        ⟨u.arg.die, now + 2, g.lpos, u.arg.hub, 5, u.seq, .ix (.operands u.arg.die u.arg.hub), none, 0⟩ :: u.agenda ∧
      OnlyHub u t u.arg.die u.arg.hub := by
  intro g now
  have hex := exec_indexCommandStart u
  unfold execIndexCommandStart at hex
  dsimp only at hex
  rw [hn, hq] at hex
  dsimp only at hex
  rw [hb] at hex
  refine ⟨_, hex, ?_, ?_, ?_, onlyHub_of_put rfl rfl rfl rfl rfl rfl rfl rfl rfl⟩
  · exact congrArg Hub.ixq (State.setHub_self ..)
  · exact congrArg Hub.ixrun (State.setHub_self ..)
  · rw [State.agenda_ixAt_ixAt, State.setHub_self]
    rfl

theorem State.ixNext_none (s : State) (d k : Nat) (h : (s.hub d k).ixq = []) : s.ixNext d k = s := by
  unfold State.ixNext
  dsimp only
  split
  · rename_i heq
    rw [h] at heq
    cases heq
  · rfl

section
variable {r : IxRun} (hr : (u.hub u.arg.die u.arg.hub).ixrun = some r) (hq : (u.hub u.arg.die u.arg.hub).ixq = [])
include hr hq

theorem exec_indexCommandEnd_counts (hn : r.b.replies r.cmd.op = false) :
    ∃ t, exec .indexCommandEnd u = .next t ∧ (t.hub u.arg.die u.arg.hub).ixrun = none ∧
      (t.hub u.arg.die u.arg.hub).timeline 4 = ((u.hub u.arg.die u.arg.hub).timeline 4).finish r.cmd.num ∧ OnlyHub u t u.arg.die u.arg.hub := by
  have hex := exec_indexCommandEnd u
  unfold execIndexCommandEnd at hex
  dsimp only at hex
  rw [hr] at hex
  dsimp only at hex
  rw [hn, if_pos (by decide), State.setHub_finishOp, State.ixNext_none _ _ _ (by rw [State.setHub_self]; exact hq)] at hex
  refine ⟨_, hex, ?_, ?_, onlyHub_setHub ..⟩
  · rw [State.setHub_self]
    rfl
  · rw [State.setHub_self]
    exact SMap.get_put_self ..

theorem exec_indexCommandEnd_replies (hn : r.b.replies r.cmd.op = true) (hp : (u.hub u.arg.die u.arg.hub).portFull 5 = false)
    (hl : (u.hub u.arg.die u.arg.hub).replies.length < 16) :
    ∃ t, exec .indexCommandEnd u = .next t ∧ (t.hub u.arg.die u.arg.hub).ixrun = none ∧
      (t.hub u.arg.die u.arg.hub).replies = (u.hub u.arg.die u.arg.hub).replies ++
        [⟨BitVec.ofNat 64 r.value.1, 5, if r.out ≠ 0 then 1 else 0, r.value.2, r.cmd.num⟩] ∧ OnlyHub u t u.arg.die u.arg.hub := by
  have hex := exec_indexCommandEnd u
  unfold execIndexCommandEnd bitOf at hex
  dsimp only at hex
  rw [hr] at hex
  dsimp only at hex
  rw [hn, if_neg (by decide), hp, if_neg Bool.false_ne_true, State.pushReply_enters _ _ _ _ _ (by rw [State.setHub_self]; exact hp)
    (by rw [State.setHub_self]; exact hl), State.setHub_self, State.setHub_finishOp, State.setHub_setHub,
    State.ixNext_none _ _ _ (by rw [State.setHub_self]; exact hq)] at hex
  refine ⟨_, hex, ?_, ?_, onlyHub_setHub ..⟩
  · rw [State.setHub_self]
    rfl
  · rw [State.setHub_self]
    simp only [decide_eq_true_eq]
    rfl

end

end

/-- Settles O40: a word enters the queue behind those that stand there, and a command is followed from its block to its end. -/
theorem indexWordsAndCommands : Obligations.IndexWordsAndCommands := by
  unfold Obligations.IndexWordsAndCommands
  intro s e n he hh
  exact ⟨exec_ixnop n s, ixWord_leaves he _ _ (exec_ixgather e s), ixWord_leaves he _ _ (exec_ixscatter e s), ixWord_leaves he _ _ (exec_ixscadd e s),
    ixWord_leaves he _ _ (exec_ixcount e s), ixWord_leaves he _ _ (exec_ixcompact e s), ixWord_leaves he _ _ (exec_ixhist e s),
    ixWord_leaves he _ _ (exec_ixamo e s), ixWord_leaves he _ _ (exec_ixcas e s), fun u hu =>
    ⟨fun c r b hn hq hb => exec_indexCommandStart_starts hn hq hb, fun r hr hq =>
      ⟨exec_indexCommandEnd_counts hr hq, exec_indexCommandEnd_replies hr hq⟩⟩⟩

end Sys2Proof.Machine
end

section
/-! SUPPORT. Drafting commands. -/

namespace Sys2Proof.Machine

open Sys2Proof

/-! ### Commands that start -/

/-- A command that passes its checks runs, with its inputs sampled at S + 2, or at S + D. -/
def Starts (i : Instr) (s : State) (D head : Nat) : Prop :=
  let now := (s.die s.cur.die).cad
  let run : DrRun := { hub := s.cur.hub, instr := i, s := now, e := now + D, stride := s.curHub.tstride.toNat, head := head }
  ∃ t, exec i s = .next t ∧ (t.die s.cur.die).draft = some run ∧ t.hubs = s.hubs ∧ SameMemory s t ∧
    t.agenda = ⟨s.cur.die, now + min D 2, s.curHub.lpos, s.cur.hub, 6, s.seq, .draft run, none, 0⟩ :: s.agenda

theorem drStart_starts {s : State} {i : Instr} {p : DPlan} {head : Nat} (hex : exec i s = .next (drStart i p head s))
    (hm : ∀ m ∈ p.reads, s.curHub.mapLost m = none) (hk : (!p.keys || s.curHub.keys.isSome) = true) (ha : p.agree = true)
    (hb : s.drBounds s.cur.die s.curHub.launch.tk s.curHub.tstride.toNat p.spans = none)
    (hs : s.drSets s.cur.die s.cur.hub s.curHub.launch.tk s.curHub.tstride.toNat p.spans = none) : Starts i s p.d head := by
  have hlost : p.reads.findSome? s.curHub.mapLost = none := List.findSome?_eq_none_iff.2 hm
  have hkeys : ¬ (p.keys && s.curHub.keys.isNone) = true := by
    rw [Bool.not_eq_true]
    cases hp : p.keys <;> cases hq : s.curHub.keys <;> simp_all
  unfold drStart at hex
  extract_lets die hub h k stride num now r d at hex
  rw [show p.reads.findSome? h.mapLost = none from hlost] at hex
  dsimp only at hex
  rw [if_neg hkeys, ha, if_neg (by decide), show s.drBounds die k stride p.spans = none from hb] at hex
  dsimp only at hex
  rw [show s.drSets die hub k stride p.spans = none from hs] at hex
  refine ⟨_, hex, congrArg Die.draft (State.setDie_self ..), rfl, SameMemory.of_eq rfl, ?_⟩
  have hmin : (if p.d < 2 then p.d else 2) = min p.d 2 := by
    split <;> omega
  rw [← hmin]
  rfl

theorem exec_dload_starts {s : State} (m : BitVec 3) (e : BitVec 17)
    (hp : s.poisoned (flat (homeScratch (s.kind s.cur.die) s.cur.die s.cur.hub) (64 * e.toNat)) 8 = false) :
    exec (.dload m e) s =
      let x := s.readNat (flat (homeScratch (s.kind s.cur.die) s.cur.die s.cur.hub) (64 * e.toNat)) 8
      let z := imageSize (x % 65536 + 1)
      .next (drStart (.dload m e) { reads := [], spans := [{ off := eOff e, len := z, wr := false }], reg := m.toNat, d := 16 + z / 64 } x s) := by
  have hecc : s.eccBad (flat (homeScratch (s.kind s.cur.die) s.cur.die s.cur.hub) (64 * e.toNat)) 8 = false := by
    unfold State.poisoned at hp
    unfold State.eccBad
    rw [List.any_eq_false] at hp ⊢
    exact fun l hl h => hp l hl (by rw [h, Bool.or_true])
  rw [exec_dload]
  unfold execDload eOff
  dsimp only
  rw [State.eccRead_clean _ _ _ _ _ _ _ hecc, if_neg (by rw [hp]; exact Bool.false_ne_true)]

/-! ### The unit's next command, and the end of one -/

theorem exec_draftingCommandStart_takes {v : State} {y : Nat} {c : DCmd} {rest : List DCmd} (hd : (v.die v.arg.die).draft = none)
    (hg : (v.die v.arg.die).draftGo = none)
    (hf : ((List.range 8).map fun i => ((v.die v.arg.die).draftLast + 1 + i) % 8).find? (fun y => v.drWaits v.arg.die y) = some y)
    (hp : (v.hub v.arg.die y).port = c :: rest) :
    ∃ t, exec .draftingCommandStart v = .next t ∧ (t.hub v.arg.die y).port = rest ∧ (t.die v.arg.die).draftGo = some (y, c) ∧
      (t.die v.arg.die).draftLast = y ∧ SameMemory v t := by
  have hex := exec_draftingCommandStart v
  unfold execDraftingCommandStart at hex
  dsimp only at hex
  rw [if_neg (by rw [hd, hg]; decide), hf] at hex
  dsimp only at hex
  rw [hp] at hex
  refine ⟨_, hex, ?_, ?_, ?_, SameMemory.of_eq rfl⟩
  · exact congrArg Hub.port (State.setHub_self ..)
  · rw [State.setDie_self]
  · rw [State.setDie_self]

/-- What a command leaves in its hub: its map, its keys, and one command more that the port has served. -/
def Hub.Committed (g h : Hub) (y : DrRun) : Prop :=
  (∀ m, y.map = some m → h.mapLost m.1 = none ∧ (h.map m.1).e = m.2.e) ∧ (∀ k, y.keys = some k → h.keys = some k) ∧
    h.portServed = g.portServed + 1

theorem Hub.drCommit_commits (g : Hub) (y : DrRun) : g.Committed (g.drCommit y) y ∧ (g.drCommit y).ports = g.ports ∧
    (g.drCommit y).replies = g.replies ∧ (g.drCommit y).timelines = g.timelines := by
  unfold Hub.drCommit
  extract_lets h1 h2
  have h1map : ∀ m, y.map = some m → h1.mapLost m.1 = none ∧ (h1.map m.1).e = m.2.e := fun m hm => by
    have hget : h1.map m.1 = { m.2 with gen := (g.map m.1).gen, wgen := (g.map m.1).gen } := by
      unfold h1
      rw [hm]
      exact SMap.get_put_self ..
    unfold Hub.mapLost
    dsimp only
    rw [hget]
    exact ⟨if_pos rfl, rfl⟩
  have h1same : h1.portServed = g.portServed ∧ h1.ports = g.ports ∧ h1.replies = g.replies ∧ h1.timelines = g.timelines := by
    unfold h1
    split <;> exact ⟨rfl, rfl, rfl, rfl⟩
  have h2maps : h2.maps = h1.maps := by
    unfold h2
    split <;> rfl
  have h2same : h2.portServed = h1.portServed ∧ h2.ports = h1.ports ∧ h2.replies = h1.replies ∧ h2.timelines = h1.timelines := by
    unfold h2
    split <;> exact ⟨rfl, rfl, rfl, rfl⟩
  obtain ⟨hs1, hp1, hr1, ht1⟩ := h1same
  obtain ⟨hs2, hp2, hr2, ht2⟩ := h2same
  have hmapeq : ∀ m, h2.map m = h1.map m := fun m => by
    unfold Hub.map
    rw [h2maps]
  refine ⟨⟨fun m hm => ?_, fun k hk => ?_, ?_⟩, hp2.trans hp1, hr2.trans hr1, ht2.trans ht1⟩
  · obtain ⟨h3, h4⟩ := h1map m hm
    refine ⟨?_, ?_⟩
    · unfold Hub.mapLost at h3 ⊢
      dsimp only at h3 ⊢
      rw [← hmapeq] at h3
      exact h3
    · rw [← hmapeq] at h4
      exact h4
  · show h2.keys = some k
    unfold h2
    rw [hk]
  · exact congrArg (· + 1) (hs2.trans hs1)

/-- The hub once a command has ended, with its reply. -/
def Hub.drEnded (g : Hub) (y : DrRun) : Hub :=
  let h := g.drCommit y
  match y.reply with
  | none => h.setTimeline 5 ((h.timeline 5).finish y.num)
  | some (c, w) =>
    let x : Reply := ⟨BitVec.ofNat 64 c, 6, w, false, y.num⟩
    if h.portFull 6 then { h with drHeld := some x }
    else if h.replies.length < 16 then ({ h with replies := h.replies ++ [x] } : Hub).setTimeline 5 ((h.timeline 5).finish y.num)
    else { h with ports := SMap.put h.ports 6 { entry := x, op := y.num } }

/-- The hub and the die once the reply of a command that has ended is given. -/
def State.drReplied (u : State) (d k : Nat) (y : DrRun) : State :=
  match y.reply with
  | none => u.finishOp d k 5 y.num
  | some (c, w) =>
    let x : Reply := ⟨BitVec.ofNat 64 c, 6, w, false, y.num⟩
    if (u.hub d k).portFull 6 then u.setHub d k { u.hub d k with drHeld := some x } else u.pushReply d k 6 x

theorem State.drReplied_replies (u : State) (d k : Nat) (y : DrRun) {g : Hub} (hu : u.hub d k = g.drCommit y) :
    (u.drReplied d k y).hub d k = g.drEnded y ∧ (u.drReplied d k y).dies = u.dies ∧ (u.drReplied d k y).memory = u.memory := by
  unfold State.drReplied Hub.drEnded
  rw [hu]
  generalize g.drCommit y = h at hu
  cases y.reply with
  | none =>
    unfold State.finishOp
    rw [hu]
    exact ⟨State.setHub_self .., rfl, rfl⟩
  | some r =>
    dsimp only
    split
    · exact ⟨State.setHub_self .., rfl, rfl⟩
    · rename_i hp
      have hfind : SMap.find 6 h.ports = none := by
        unfold Hub.portFull at hp
        rwa [Bool.not_eq_true, Option.isSome_eq_false_iff, Option.isNone_iff_eq_none] at hp
      unfold State.pushReply
      dsimp only
      rw [hu, hfind]
      dsimp only
      split
      · rw [State.setHub_finishOp]
        exact ⟨State.setHub_self .., rfl, rfl⟩
      · exact ⟨State.setHub_self .., rfl, rfl⟩

theorem exec_draftingCommandEnd_eq {v : State} {y : DrRun} (hy : (v.die v.arg.die).draft = some y) :
    ∃ t, exec .draftingCommandEnd v = .next t ∧ (t.die v.arg.die).draft = none ∧
      t.hub v.arg.die y.hub = (v.hub v.arg.die y.hub).drEnded y ∧ SameMemory v t := by
  let d := v.die v.arg.die
  let u := (v.setHub v.arg.die y.hub ((v.hub v.arg.die y.hub).drCommit y)).setDie v.arg.die { d with draft := none, draftEnd := d.cad - 1 }
  obtain ⟨h1, h2, h3⟩ := u.drReplied_replies v.arg.die y.hub y (g := v.hub v.arg.die y.hub) (State.setHub_self ..)
  have hex : exec .draftingCommandEnd v =
      .next ((u.drReplied v.arg.die y.hub y).post v.arg.die d.cad 0 0 6 (.ev .draftingCommandStart { die := v.arg.die })) := by
    rw [exec_draftingCommandEnd]
    unfold execDraftingCommandEnd
    dsimp only
    rw [hy]
    rfl
  refine ⟨_, hex, ?_, h1, SameMemory.of_eq h3⟩
  have hdie : (u.drReplied v.arg.die y.hub y).die v.arg.die = u.die v.arg.die := by
    unfold State.die
    rw [h2]
  exact (congrArg Die.draft hdie).trans (congrArg Die.draft (State.setDie_self ..))

theorem Hub.drEnded_ends (g : Hub) (y : DrRun) : g.Committed (g.drEnded y) y ∧
    (y.reply = none → (g.drEnded y).timeline 5 = (g.timeline 5).finish y.num) ∧
    ∀ c w, y.reply = some (c, w) →
      (g.portFull 6 = true → (g.drEnded y).drHeld = some ⟨BitVec.ofNat 64 c, 6, w, false, y.num⟩ ∧ (g.drEnded y).replies = g.replies) ∧
      (g.portFull 6 = false → g.replies.length < 16 →
        (g.drEnded y).replies = g.replies ++ [⟨BitVec.ofNat 64 c, 6, w, false, y.num⟩] ∧
        (g.drEnded y).timeline 5 = (g.timeline 5).finish y.num) := by
  obtain ⟨hc, hp, hr, ht⟩ := g.drCommit_commits y
  have hfull : (g.drCommit y).portFull 6 = g.portFull 6 := by
    unfold Hub.portFull
    rw [hp]
  have htl : (g.drCommit y).timeline 5 = g.timeline 5 := by
    unfold Hub.timeline
    rw [ht]
  have hfin : ∀ (h : Hub) x, (h.setTimeline 5 x).timeline 5 = x := fun h x => SMap.get_put_self ..
  unfold Hub.drEnded
  dsimp only
  rw [hfull, htl, hr]
  generalize g.drCommit y = h at hc
  cases hy : y.reply with
  | none => exact ⟨hc, fun _ => hfin .., nofun⟩
  | some r =>
    dsimp only
    refine ⟨?_, nofun, fun c w hcw => ⟨fun hpf => ?_, fun hpf hl => ?_⟩⟩
    · split
      · exact hc
      · split <;> exact hc
    · obtain rfl := Option.some.inj hcw
      rw [if_pos hpf]
      exact ⟨rfl, rfl⟩
    · obtain rfl := Option.some.inj hcw
      rw [if_neg (by rw [hpf]; exact Bool.false_ne_true), if_pos hl]
      exact ⟨rfl, hfin ..⟩

theorem exec_draftingCommandEnd_ends {v : State} {y : DrRun} (hy : (v.die v.arg.die).draft = some y) :
    ∃ t, exec .draftingCommandEnd v = .next t ∧ (t.die v.arg.die).draft = none ∧
      (∀ g, y.map = some g → (t.hub v.arg.die y.hub).mapLost g.1 = none ∧ ((t.hub v.arg.die y.hub).map g.1).e = g.2.e) ∧
      (∀ g, y.keys = some g → (t.hub v.arg.die y.hub).keys = some g) ∧
      (t.hub v.arg.die y.hub).portServed = (v.hub v.arg.die y.hub).portServed + 1 ∧
      (y.reply = none → (t.hub v.arg.die y.hub).timeline 5 = ((v.hub v.arg.die y.hub).timeline 5).finish y.num) ∧
      (∀ c w, y.reply = some (c, w) →
        ((v.hub v.arg.die y.hub).portFull 6 = true →
          (t.hub v.arg.die y.hub).drHeld = some ⟨BitVec.ofNat 64 c, 6, w, false, y.num⟩ ∧
          (t.hub v.arg.die y.hub).replies = (v.hub v.arg.die y.hub).replies) ∧
        ((v.hub v.arg.die y.hub).portFull 6 = false → (v.hub v.arg.die y.hub).replies.length < 16 →
          (t.hub v.arg.die y.hub).replies = (v.hub v.arg.die y.hub).replies ++ [⟨BitVec.ofNat 64 c, 6, w, false, y.num⟩] ∧
          (t.hub v.arg.die y.hub).timeline 5 = ((v.hub v.arg.die y.hub).timeline 5).finish y.num)) ∧ SameMemory v t := by
  obtain ⟨t, ht, hd, hh, hm⟩ := exec_draftingCommandEnd_eq hy
  obtain ⟨⟨h1, h2, h3⟩, h4, h5⟩ := (v.hub v.arg.die y.hub).drEnded_ends y
  rw [← hh] at h1 h2 h3 h4
  exact ⟨t, ht, hd, h1, h2, h3, h4, fun c w hcw => by rw [hh]; exact h5 c w hcw, hm⟩

/-- Settles O41: one lemma starts every command that passes its checks, and another reads off the hub that one leaves when it ends. -/
theorem draftingCommands : Obligations.DraftingCommands := by
  unfold Obligations.DraftingCommands
  intro s d m a b u p r n k w8 w e hh
  refine ⟨fun hm ok hb hs => ?_, fun hm ok hb hs => ?_, fun hm ok hb hs => ?_, fun hm ok hb hs => ?_, fun hm ok hb hs => ?_, fun hm ok hb hs => ?_,
    fun hm ok hb hs => ?_, fun hp hm ok hb hs => ?_, fun v y c rest hd hg hf hp => exec_draftingCommandStart_takes hd hg hf hp,
    fun v y hy _ => exec_draftingCommandEnd_ends hy⟩
  · exact drStart_starts (exec_dkeys n k w8 e s) hm rfl rfl hb hs
  · rw [Bool.and_eq_true] at ok
    exact drStart_starts (exec_dmatch d m u r p e s) hm ok.1 ok.2 hb hs
  · exact drStart_starts (exec_dmerge m w e s) hm rfl rfl hb hs
  · exact drStart_starts (exec_dunmerge m w e s) hm rfl rfl hb hs
  · exact drStart_starts (exec_dcompose d a b s) hm rfl ok hb hs
  · exact drStart_starts (exec_dsizes m e s) hm rfl rfl hb hs
  · exact drStart_starts (exec_dsave m e s) hm rfl rfl hb hs
  · exact drStart_starts (exec_dload_starts m e hp) hm rfl rfl hb hs

end Sys2Proof.Machine
end

section
/-! SUPPORT. How FP32 rounds once (R298, R300): the patterns as numbers, and what roundMag keeps of an exact magnitude. -/

namespace Sys2Proof.Machine

open Sys2Proof

/-! ### The patterns of FP32 as numbers -/

/-- The significand of a finite FP32 magnitude, with its hidden bit. -/
def fp32Mant (p : Nat) : Nat := if p < 2 ^ 23 then p else 2 ^ 23 + p % 2 ^ 23

theorem fp32Units_eq (p : Nat) : fp32Units p = fp32Mant p * 2 ^ (p / 2 ^ 23 - 1) := by
  unfold fp32Units fp32Mant
  split
  · rename_i h
    rw [Nat.div_eq_of_lt h, Nat.zero_sub, Nat.pow_zero, Nat.mul_one]
  · rfl

/-- The pattern of `r` quanta of 2^`q` units, where `r` has 24 bits, or less for the least quantum. -/
theorem fp32Units_pattern {q r : Nat} (hr : r ≤ 2 ^ 24) (hq : q = 0 ∨ 2 ^ 23 ≤ r) : fp32Units (q * 2 ^ 23 + r) = r * 2 ^ q := by
  rw [fp32Units_eq]
  unfold fp32Mant
  by_cases h1 : r < 2 ^ 23
  · obtain rfl : q = 0 := hq.resolve_right (by omega)
    rw [if_pos (by omega), show (0 * 2 ^ 23 + r) / 2 ^ 23 - 1 = 0 by omega, Nat.zero_mul, Nat.zero_add]
  · rw [if_neg (by omega)]
    by_cases h2 : r < 2 ^ 24
    · rw [show (q * 2 ^ 23 + r) / 2 ^ 23 - 1 = q by omega, show 2 ^ 23 + (q * 2 ^ 23 + r) % 2 ^ 23 = r by omega]
    · obtain rfl : r = 2 ^ 24 := by omega
      rw [show (q * 2 ^ 23 + 2 ^ 24) / 2 ^ 23 - 1 = q + 1 by omega, show 2 ^ 23 + (q * 2 ^ 23 + 2 ^ 24) % 2 ^ 23 = 2 ^ 23 by omega, Nat.pow_succ]
      ring

theorem fp32Units_lt_succ (p : Nat) : fp32Units p < fp32Units (p + 1) := by
  have hsplit : ∀ n, ∃ q r, n = q * 2 ^ 23 + r ∧ r < 2 ^ 24 ∧ (q = 0 ∨ 2 ^ 23 ≤ r) := fun n => by
    by_cases h : n < 2 ^ 24
    · exact ⟨0, n, by omega, h, .inl rfl⟩
    · exact ⟨n / 2 ^ 23 - 1, n % 2 ^ 23 + 2 ^ 23, by omega, by omega, .inr (by omega)⟩
  obtain ⟨q, r, rfl, hr, hq⟩ := hsplit p
  rw [fp32Units_pattern (by omega) hq, Nat.add_assoc, fp32Units_pattern (by omega) (by omega)]
  exact Nat.mul_lt_mul_of_pos_right (Nat.lt_succ_self r) (by positivity)

theorem fp32Units_strictMono : StrictMono fp32Units := strictMono_nat_of_lt_succ fp32Units_lt_succ

/-- The pattern between whose value and the next one's a magnitude lies. -/
theorem eq_of_fp32Units_le_lt {u : ℚ} {p r : Nat} (hp : (fp32Units p : ℚ) ≤ u) (hp' : u < fp32Units (p + 1)) (hr : (fp32Units r : ℚ) ≤ u)
    (hr' : u < fp32Units (r + 1)) : p = r := by
  have h1 : fp32Units p < fp32Units (r + 1) := by exact_mod_cast hp.trans_lt hr'
  have h2 : fp32Units r < fp32Units (p + 1) := by exact_mod_cast hr.trans_lt hp'
  have h3 := fp32Units_strictMono.lt_iff_lt.1 h1
  have h4 := fp32Units_strictMono.lt_iff_lt.1 h2
  omega

/-! ### One rounding -/

/-- An exact magnitude of `u` units between m and m + 1 quanta of 2^`e` units: m quanta without a sticky bit, more with one. -/
structure Between (u : ℚ) (m : Nat) (e : Int) (sticky : Bool) : Prop where
  lower : (m : ℚ) * 2 ^ e ≤ u
  upper : u < ((m : ℚ) + 1) * 2 ^ e
  exact : sticky = false ↔ u = (m : ℚ) * 2 ^ e
  wide : sticky = true → 24 ≤ Nat.log2 m

theorem roundsUp_exact {rm r half : Nat} (neg : Bool) (hh : 0 < half) : roundsUp rm neg r 0 half false = false := by
  unfold roundsUp
  rw [show decide (0 ≠ 0) = false by decide, Bool.or_false]
  split
  · rw [decide_eq_false (Nat.not_lt_zero half), decide_eq_false (Nat.ne_of_lt hh)]
    rfl
  · rfl
  · exact Bool.and_false _
  · exact Bool.and_false _

/-- The part of a quantum, in units of the last place kept, by which an exact magnitude lies above the quanta kept. -/
theorem roundsUp_iff {rm r rem half : Nat} {neg sticky : Bool} {d : ℚ} (hrm : rm < 4) (hlow : (rem : ℚ) ≤ d) (hup : d < rem + 1)
    (hst : sticky = false ↔ d = rem) (hd : d ≠ 0) : roundsUp rm neg r rem half sticky = true ↔
      ¬ (rm = 1 ∨ (rm = 2 ∧ neg = false) ∨ (rm = 3 ∧ neg = true)) ∧
        (rm = 2 ∨ rm = 3 ∨ ((half : ℚ) < d ∨ (d = half ∧ r % 2 = 1))) := by
  have hinexact : (decide (rem ≠ 0) || sticky) = true := by
    rw [Bool.or_eq_true, decide_eq_true_eq]
    by_contra hc
    rw [not_or, not_not, Bool.not_eq_true] at hc
    exact hd (by rw [hst.1 hc.2, hc.1, Nat.cast_zero])
  have hhalf : half < rem → (half : ℚ) < d := fun h => (Nat.cast_lt.2 h).trans_le hlow
  have hmore : (half : ℚ) < d ∨ (d = half ∧ r % 2 = 1) ↔ half < rem ∨ (rem = half ∧ (sticky = true ∨ r % 2 = 1)) := by
    constructor
    · intro h
      have hle : half ≤ rem := by
        have : (half : ℚ) < rem + 1 := by
          obtain h | h := h
          · exact h.trans hup
          · exact h.1 ▸ hup
        exact Nat.lt_succ_iff.1 (by exact_mod_cast this)
      obtain hlt | heq := Nat.lt_or_eq_of_le hle
      · exact .inl hlt
      · refine .inr ⟨heq.symm, ?_⟩
        obtain h | h := h
        · refine .inl (Bool.eq_true_of_not_eq_false fun hs => ?_)
          rw [hst.1 hs, heq] at h
          exact lt_irrefl _ h
        · exact .inr h.2
    · rintro (h | ⟨rfl, h⟩)
      · exact .inl (hhalf h)
      · by_cases hs : sticky = false
        · exact .inr ⟨hst.1 hs, h.resolve_left (by rw [hs]; exact Bool.false_ne_true)⟩
        · exact .inl (lt_of_le_of_ne hlow fun he => hs (hst.2 he.symm))
  unfold roundsUp
  rw [hinexact]
  interval_cases rm
  · rw [show (0 = 2 ∨ 0 = 3 ∨ ((half : ℚ) < d ∨ (d = half ∧ r % 2 = 1))) ↔ ((half : ℚ) < d ∨ (d = half ∧ r % 2 = 1)) by simp, hmore]
    simp
  · simp
  · simp
  · simp

/-- The choices of `roundedTo` above the pattern below, as one condition. -/
theorem rounding_choice {p : Nat} {b : Bool} {towards away less more : Prop} [Decidable towards] [Decidable away] [Decidable less] [Decidable more]
    (hb : b = true ↔ ¬ towards ∧ (away ∨ more ∨ (¬ less ∧ p % 2 = 1))) (hmore : more → ¬ less) :
    (if towards then p else if away then p + 1 else if less then p else if more then p + 1 else p + p % 2) = if b then p + 1 else p := by
  by_cases h1 : towards
  · rw [if_pos h1, if_neg fun h => (hb.1 h).1 h1]
  · rw [if_neg h1]
    by_cases h2 : away
    · rw [if_pos h2, if_pos (hb.2 ⟨h1, .inl h2⟩)]
    · rw [if_neg h2]
      by_cases h3 : more
      · rw [if_neg (hmore h3), if_pos h3, if_pos (hb.2 ⟨h1, .inr (.inl h3)⟩)]
      · rw [if_neg h3]
        have hbe : b = true ↔ ¬ less ∧ p % 2 = 1 :=
          hb.trans ⟨fun h => (h.2.resolve_left h2).resolve_left h3, fun h => ⟨h1, .inr (.inr h)⟩⟩
        simp only [hbe]
        by_cases h4 : less
        · rw [if_pos h4, if_neg fun h => h.1 h4]
        · rw [if_neg h4]
          by_cases h5 : p % 2 = 1
          · rw [if_pos ⟨h4, h5⟩, h5]
          · rw [if_neg fun h => h5 h.2]
            omega

/-- An exact magnitude of m quanta and `k` bits more than are kept is rounded as `roundedTo` says. -/
theorem roundedTo_of_between {rm m k q : Nat} {e : Int} {u : ℚ} {neg sticky : Bool} (hrm : rm < 4) (h : Between u m e sticky) (hk : 0 < k)
    (hq : (q : Int) = e + k) (hr : m / 2 ^ k < 2 ^ 24) (hr' : q = 0 ∨ 2 ^ 23 ≤ m / 2 ^ k) :
    (fp32Units (q * 2 ^ 23 + m / 2 ^ k) : ℚ) ≤ u ∧ u < fp32Units (q * 2 ^ 23 + m / 2 ^ k + 1) ∧
      roundedTo rm neg u (q * 2 ^ 23 + m / 2 ^ k) =
        if roundsUp rm neg (m / 2 ^ k) (m % 2 ^ k) (2 ^ (k - 1)) sticky then q * 2 ^ 23 + m / 2 ^ k + 1 else q * 2 ^ 23 + m / 2 ^ k := by
  obtain ⟨hlow, hup, hex, -⟩ := h
  generalize hrd : m / 2 ^ k = r at *
  generalize hremd : m % 2 ^ k = rem
  have hm : m = r * 2 ^ k + rem := by rw [← hrd, ← hremd, Nat.mul_comm, Nat.div_add_mod]
  have hw : (0 : ℚ) < 2 ^ e := by positivity
  generalize hwe : (2 : ℚ) ^ e = w at *
  have hqw : ((2 ^ q : Nat) : ℚ) = 2 ^ k * w := by
    rw [← hwe, Nat.cast_pow, Nat.cast_ofNat, ← zpow_natCast (2 : ℚ) q, hq, zpow_add₀ (by norm_num), zpow_natCast, mul_comm]
  have hlo : (fp32Units (q * 2 ^ 23 + r) : ℚ) = r * 2 ^ k * w := by
    rw [fp32Units_pattern (by omega) hr', Nat.cast_mul, hqw, mul_assoc]
  have hhi : (fp32Units (q * 2 ^ 23 + r + 1) : ℚ) = r * 2 ^ k * w + 2 ^ k * w := by
    rw [Nat.add_assoc, fp32Units_pattern (by omega) (by omega), Nat.cast_mul, hqw, Nat.cast_add, Nat.cast_one]
    ring
  have hmq : (m : ℚ) = r * 2 ^ k + rem := by rw [hm]; push_cast; ring
  have hremlt : rem < 2 ^ k := by rw [← hremd]; exact Nat.mod_lt _ (by positivity)
  have hremle : (rem : ℚ) + 1 ≤ 2 ^ k := by exact_mod_cast hremlt
  have hhalf : (2 : ℚ) ^ k = 2 * ((2 ^ (k - 1) : Nat) : ℚ) := by
    obtain ⟨j, rfl⟩ : ∃ j, k = j + 1 := ⟨k - 1, by omega⟩
    rw [Nat.add_sub_cancel, pow_succ]
    push_cast
    ring
  obtain ⟨d, hd⟩ : ∃ d : ℚ, u = r * 2 ^ k * w + d * w := ⟨(u - r * 2 ^ k * w) / w, by field_simp; ring⟩
  have hdlow : (rem : ℚ) ≤ d := by
    rw [hd, hmq] at hlow
    exact le_of_mul_le_mul_right (by linarith) hw
  have hdup : d < rem + 1 := by
    rw [hd, hmq] at hup
    exact lt_of_mul_lt_mul_right (by linarith) hw.le
  have hdex : sticky = false ↔ d = rem := by
    rw [hex, hd, hmq, add_mul, add_right_inj]
    exact ⟨fun h => mul_right_cancel₀ hw.ne' h, fun h => by rw [h]⟩
  have hcmp : (u - r * 2 ^ k * w < r * 2 ^ k * w + 2 ^ k * w - u ↔ d < ((2 ^ (k - 1) : Nat) : ℚ)) ∧
      (r * 2 ^ k * w + 2 ^ k * w - u < u - r * 2 ^ k * w ↔ ((2 ^ (k - 1) : Nat) : ℚ) < d) := by
    rw [hd, hhalf]
    constructor
    · constructor
      · exact fun h => lt_of_mul_lt_mul_right (by linarith) hw.le
      · exact fun h => by nlinarith
    · constructor
      · exact fun h => lt_of_mul_lt_mul_right (by linarith) hw.le
      · exact fun h => by nlinarith
  refine ⟨?_, ?_, ?_⟩
  · rw [hlo, hd]
    have : (0 : ℚ) ≤ d := (Nat.cast_nonneg rem).trans hdlow
    nlinarith
  · rw [hhi, hd]
    nlinarith
  · have hpar : (q * 2 ^ 23 + r) % 2 = r % 2 := by omega
    unfold roundedTo
    dsimp only
    rw [hlo, hhi]
    by_cases hd0 : d = 0
    · have hu : u = r * 2 ^ k * w := by rw [hd, hd0]; ring
      have hrem : rem = 0 := by
        have : (rem : ℚ) ≤ 0 := hd0 ▸ hdlow
        exact_mod_cast le_antisymm this (Nat.cast_nonneg rem)
      have hst : sticky = false := hdex.2 (by rw [hd0, hrem, Nat.cast_zero])
      rw [if_pos hu, hrem, hst, roundsUp_exact neg (by positivity), if_neg Bool.false_ne_true]
    · have hu : u ≠ r * 2 ^ k * w := fun h => hd0 (by
        rw [hd, add_eq_left] at h
        exact (mul_eq_zero.1 h).resolve_right hw.ne')
      rw [if_neg hu]
      simp only [hcmp.1, hcmp.2]
      refine rounding_choice ((roundsUp_iff hrm hdlow hdup hdex hd0).trans (and_congr_right' ?_)) fun h => not_lt_of_gt h
      rw [or_assoc, hpar]
      refine or_congr_right (or_congr_right (or_congr_right' fun h => and_congr_left' ?_))
      rw [not_lt]
      exact ⟨fun h' => h'.ge, fun h' => le_antisymm (not_lt.1 h) h'⟩

theorem pow_le_of_log2 {m a : Nat} (hm : m ≠ 0) (h : a ≤ Nat.log2 m) : 2 ^ a ≤ m :=
  (Nat.pow_le_pow_right (by decide) h).trans (Nat.log2_self_le hm)

theorem lt_pow_of_log2 {m a : Nat} (h : Nat.log2 m < a) : m < 2 ^ a :=
  Nat.lt_log2_self.trans_le (Nat.pow_le_pow_right (by decide) h)

/-- An exact magnitude of `m` quanta of 2^`e`, with no fewer bits than are asked for, is the pattern that `roundMag` gives. -/
theorem fp32_roundMag {rm m : Nat} {e : Int} {u : ℚ} {neg sticky : Bool} (hrm : rm < 4) (hm : m ≠ 0) (h : Between u m (e + 149) sticky) :
    ∃ p, (fp32Units p : ℚ) ≤ u ∧ u < fp32Units (p + 1) ∧ fp32.roundMag rm neg m e sticky = roundedTo rm neg u p := by
  obtain ⟨q, hqdef⟩ : ∃ q : Int, q = if (Nat.log2 m : Int) + e - 23 < -149 then -149 else (Nat.log2 m : Int) + e - 23 := ⟨_, rfl⟩
  have hq : -149 ≤ q ∧ (Nat.log2 m : Int) + e - 23 ≤ q ∧ (q = -149 ∨ q = (Nat.log2 m : Int) + e - 23) := by
    rw [hqdef]
    split <;> omega
  obtain ⟨hqmin, hq0, hqor⟩ := hq
  have hround : fp32.roundMag rm neg m e sticky = (q + 149).toNat * 2 ^ 23 +
      (if q - e ≤ 0 then
        (if roundsUp rm neg (m * 2 ^ (-(q - e)).toNat) (if sticky then 1 else 0) 2 false then m * 2 ^ (-(q - e)).toNat + 1 else m * 2 ^ (-(q - e)).toNat)
      else if roundsUp rm neg (m / 2 ^ (q - e).toNat) (m % 2 ^ (q - e).toNat) (2 ^ ((q - e).toNat - 1)) sticky then m / 2 ^ (q - e).toNat + 1
      else m / 2 ^ (q - e).toNat) := by
    unfold Fmt.roundMag
    dsimp only
    rw [if_neg hm, show fp32.qmin = -149 by decide, show fp32.m = 23 by decide, Nat.cast_ofNat, ← hqdef, Int.sub_neg]
  rw [hround]
  by_cases hsh : q - e ≤ 0
  · rw [if_pos hsh]
    have hns : sticky = false := by
      by_contra hc
      have := h.wide (Bool.eq_true_of_not_eq_false hc)
      omega
    obtain ⟨j, hj⟩ : ∃ j : Nat, e = q + j := ⟨(e - q).toNat, by omega⟩
    rw [show (-(q - e)).toNat = j by omega, hns, if_neg Bool.false_ne_true, roundsUp_exact neg (by decide), if_neg Bool.false_ne_true]
    have hlt : m * 2 ^ j < 2 ^ 24 := by
      calc m * 2 ^ j < 2 ^ (Nat.log2 m + 1) * 2 ^ j := Nat.mul_lt_mul_of_pos_right Nat.lt_log2_self (by positivity)
        _ = 2 ^ (Nat.log2 m + 1 + j) := (Nat.pow_add ..).symm
        _ ≤ 2 ^ 24 := Nat.pow_le_pow_right (by decide) (by omega)
    have hor : (q + 149).toNat = 0 ∨ 2 ^ 23 ≤ m * 2 ^ j := by
      refine hqor.imp (by omega) fun hq => ?_
      calc 2 ^ 23 = 2 ^ (Nat.log2 m) * 2 ^ j := by rw [← Nat.pow_add]; congr 1; omega
        _ ≤ m * 2 ^ j := Nat.mul_le_mul_right _ (Nat.log2_self_le hm)
    have hu : u = fp32Units ((q + 149).toNat * 2 ^ 23 + m * 2 ^ j) := by
      rw [h.exact.1 hns, fp32Units_pattern hlt.le hor, hj, show q + j + 149 = ((j + (q + 149).toNat : Nat) : Int) by omega, zpow_natCast, pow_add]
      push_cast
      ring
    refine ⟨_, hu.ge, ?_, ?_⟩
    · rw [hu]
      exact_mod_cast fp32Units_lt_succ _
    · unfold roundedTo
      dsimp only
      rw [if_pos hu]
  · rw [if_neg hsh]
    obtain ⟨k, hk⟩ : ∃ k : Nat, q = e + k := ⟨(q - e).toNat, by omega⟩
    obtain rfl : (q - e).toNat = k := by omega
    have hlt : m / 2 ^ (q - e).toNat < 2 ^ 24 := by
      rw [Nat.div_lt_iff_lt_mul (by positivity), ← Nat.pow_add]
      exact lt_pow_of_log2 (by omega)
    have hor : (q + 149).toNat = 0 ∨ 2 ^ 23 ≤ m / 2 ^ (q - e).toNat := by
      refine hqor.imp (by omega) fun hq => ?_
      rw [Nat.le_div_iff_mul_le (by positivity), ← Nat.pow_add]
      exact pow_le_of_log2 hm (by omega)
    obtain ⟨hlo, hhi, heq⟩ := roundedTo_of_between (neg := neg) hrm h (k := (q - e).toNat) (q := (q + 149).toNat) (by omega) (by omega) hlt hor
    refine ⟨_, hlo, hhi, ?_⟩
    rw [heq]
    simp only [Nat.add_assoc]
    rw [← apply_ite ((q + 149).toNat * 2 ^ 23 + ·)]

theorem roundedTo_le (rm : Nat) (neg : Bool) (u : ℚ) (p : Nat) : roundedTo rm neg u p ≤ p + 1 := by
  unfold roundedTo
  dsimp only
  split_ifs <;> omega

/-- A magnitude above the largest finite one is infinity's, but for a rounding mode that rounds its sign towards zero. -/
theorem fp32_signed_roundedTo {rm p : Nat} (neg : Bool) (u : ℚ) (hrm : rm < 4) (hp : p < 0x7F800000) :
    (if fp32.maxFinite < roundedTo rm neg u p then fp32.overflow .arith rm neg else fp32.signed neg (roundedTo rm neg u p)) =
      (if neg then 2 ^ 31 else 0) + roundedTo rm neg u p := by
  have hsign : ∀ x, fp32.signed neg x = (if neg then 2 ^ 31 else 0) + x := fun x => by
    cases neg
    · exact (Nat.zero_add x).symm
    · rfl
  split
  · rename_i hlt
    rw [show fp32.maxFinite = 0x7F7FFFFF by decide] at hlt
    have hle := roundedTo_le rm neg u p
    have hr : roundedTo rm neg u p = 0x7F800000 := by omega
    have hup : ¬ (rm = 1 ∨ (rm = 2 ∧ neg = false) ∨ (rm = 3 ∧ neg = true)) := fun hc => by
      unfold roundedTo at hr
      dsimp only at hr
      rw [if_pos hc, ite_self] at hr
      omega
    have hmax : (rm == 1 || (rm == 2 && !neg) || (rm == 3 && neg)) = false := by
      rw [← Bool.not_eq_true]
      simpa [and_assoc] using hup
    rw [hr, ← show fp32.infPattern = 0x7F800000 by decide, ← hsign]
    show (if (rm == 1 || (rm == 2 && !neg) || (rm == 3 && neg)) = true then _ else _) = _
    rw [hmax, if_neg Bool.false_ne_true]
  · exact hsign _

/-- A value that is not 0 is rounded once by RM. -/
theorem roundedOnce_round {rm m : Nat} {e : Int} {v : ℚ} {neg sticky : Bool} (hrm : rm < 4) (hm : m ≠ 0) (hneg : neg = decide (v < 0))
    (h : Between |v| m (e + 149) sticky) : RoundedOnce rm v (fp32.round .arith rm (.num neg m e sticky)) := by
  intro p hp hlo hhi
  obtain ⟨q, hqlo, hqhi, heq⟩ := fp32_roundMag (neg := neg) hrm hm h
  obtain rfl := eq_of_fp32Units_le_lt hlo hhi hqlo hqhi
  unfold Fmt.round
  dsimp only
  rw [heq, fp32_signed_roundedTo neg |v| hrm hp, hneg]
  simp only [decide_eq_true_eq]

end Sys2Proof.Machine
end

section
/-! SUPPORT. The exact value of a number and of the sum, product and quotient of numbers, which rounding takes once (R298 to R302). -/

namespace Sys2Proof.Machine

open Sys2Proof

/-! ### The exact value of a number, in units of 2^-149 -/

/-- The magnitude of a number with its sign, in units of the least FP32 subnormal; 0 for the special values. -/
def Real'.units : Real' → ℚ
  | .num neg m e _ => (if neg then -1 else 1) * ((m : ℚ) * 2 ^ (e + 149))
  | _ => 0

/-- A number without a sticky bit: an exact one. -/
def Real'.Exact (v : Real') : Prop := ∃ neg m e, v = .num neg m e false

theorem decode_fp32_finite {x : Nat} (hx : fp32Finite x) : fp32.decode x =
    .num (decide (2 ^ 31 ≤ x)) (fp32Mant (x % 2 ^ 31)) (((x % 2 ^ 31 / 2 ^ 23 - 1 : Nat) : Int) - 149) false := by
  obtain ⟨hlt, hfin⟩ := hx
  have hbit : x.testBit 31 = decide (2 ^ 31 ≤ x) := by
    rw [Nat.testBit_eq_decide_div_mod_eq]
    exact decide_eq_decide.2 (by omega)
  have hmant : x % 2 ^ 31 % 2 ^ 23 = x % 2 ^ 23 := Nat.mod_mod_of_dvd x ⟨2 ^ 8, by decide⟩
  show (if x % 2 ^ 31 / 2 ^ 23 = 255 then _ else if x % 2 ^ 31 / 2 ^ 23 = 0 then
    Real'.num (x.testBit 31) (x % 2 ^ 31 % 2 ^ 23) (-149) false
    else .num (x.testBit 31) (2 ^ 23 + x % 2 ^ 31 % 2 ^ 23) (-149 + ((x % 2 ^ 31 / 2 ^ 23 - 1 : Nat) : Int)) false) = _
  rw [if_neg (by omega), hbit]
  unfold fp32Mant
  by_cases h : x % 2 ^ 31 < 2 ^ 23
  · rw [if_pos (by omega), if_pos h, show x % 2 ^ 31 % 2 ^ 23 = x % 2 ^ 31 by omega, show x % 2 ^ 31 / 2 ^ 23 - 1 = 0 by omega]
    rfl
  · rw [if_neg (by omega), if_neg h]
    exact congrArg (Real'.num _ _ · false) (by omega)

theorem fp32Value_eq {x : Nat} (hx : fp32Finite x) :
    fp32Value x = (if decide (2 ^ 31 ≤ x) then -1 else 1) * ((fp32Mant (x % 2 ^ 31) * 2 ^ (x % 2 ^ 31 / 2 ^ 23 - 1) : Nat) : Int) := by
  obtain ⟨hlt, hfin⟩ := hx
  unfold fp32Value
  by_cases h : x < 2 ^ 31
  · rw [if_pos h, decide_eq_false (by omega), if_neg Bool.false_ne_true, one_mul, ← fp32Units_eq, Nat.mod_eq_of_lt h]
  · rw [if_neg h, decide_eq_true (by omega), if_pos rfl, neg_one_mul, ← fp32Units_eq, show x % 2 ^ 31 = x - 2 ^ 31 by omega]

/-- A finite pattern is an exact number of at most 24 bits, of the value that it has. -/
theorem decode_units {x : Nat} (hx : fp32Finite x) : (fp32.decode x).units = fp32Value x := by
  rw [decode_fp32_finite hx, fp32Value_eq hx]
  show _ * (_ * (2 : ℚ) ^ (_ - 149 + 149)) = _
  rw [sub_add_cancel, zpow_natCast]
  push_cast
  split <;> simp

theorem decode_exact {x : Nat} (hx : fp32Finite x) : (fp32.decode x).Exact := ⟨_, _, _, decode_fp32_finite hx⟩

/-- An exact number that is not 0 is rounded once. -/
theorem roundedOnce_exact {rm m : Nat} {e : Int} {neg : Bool} (hrm : rm < 4) (hv : (Real'.num neg m e false).units ≠ 0) :
    RoundedOnce rm (Real'.num neg m e false).units (fp32.round .arith rm (.num neg m e false)) := by
  have hpow : (0 : ℚ) < 2 ^ (e + 149) := by positivity
  have hm : m ≠ 0 := by
    rintro rfl
    exact hv (by simp [Real'.units])
  have hmq : (0 : ℚ) < m := by exact_mod_cast Nat.pos_of_ne_zero hm
  have hpos : (0 : ℚ) < m * 2 ^ (e + 149) := mul_pos hmq hpow
  have hsign : neg = decide ((Real'.num neg m e false).units < 0) := by
    cases neg
    · exact (decide_eq_false (by simpa [Real'.units] using hpos.le)).symm
    · exact (decide_eq_true (by simpa [Real'.units] using hpos)).symm
  have habs : |(Real'.num neg m e false).units| = m * 2 ^ (e + 149) := by
    rw [Real'.units, abs_mul, abs_of_pos hpos]
    cases neg <;> simp
  refine roundedOnce_round hrm hm hsign ⟨habs.ge, ?_, ⟨fun _ => habs, fun _ => rfl⟩, nofun⟩
  rw [habs]
  linarith

theorem Real'.Exact.rounded {rm : Nat} {v : Real'} {u : ℚ} (hrm : rm < 4) (hv : v.Exact) (hu : v.units = u) (h0 : u ≠ 0) :
    RoundedOnce rm u (fp32.round .arith rm v) := by
  obtain ⟨neg, m, e, rfl⟩ := hv
  subst hu
  exact roundedOnce_exact hrm h0

/-! ### The operations -/

theorem scaled_units (neg s : Bool) (m : Nat) {e q : Int} (h : q ≤ e) : (scaled neg m e q : ℚ) * 2 ^ (q + 149) = (Real'.num neg m e s).units := by
  have hpow : ((2 : ℚ) ^ (e - q).toNat) * 2 ^ (q + 149) = 2 ^ (e + 149) := by
    rw [← zpow_natCast, ← zpow_add₀ (by norm_num)]
    congr 1
    omega
  unfold scaled Real'.units
  cases neg <;> push_cast [← hpow] <;> simp <;> ring

theorem ofInt_units (x q : Int) (z : Bool) : (ofInt x q z).Exact ∧ (ofInt x q z).units = x * 2 ^ (q + 149) := by
  unfold ofInt
  by_cases h : x = 0
  · rw [if_pos h, h]
    exact ⟨⟨_, _, _, rfl⟩, by simp [Real'.units]⟩
  · rw [if_neg h]
    refine ⟨⟨_, _, _, rfl⟩, ?_⟩
    show (if decide (x < 0) = true then -1 else 1) * ((x.natAbs : ℚ) * 2 ^ (q + 149)) = _
    rw [Nat.cast_natAbs, Int.cast_abs]
    by_cases hx : x < 0
    · rw [decide_eq_true hx, if_pos rfl, abs_of_neg (by exact_mod_cast hx)]
      ring
    · rw [decide_eq_false hx, if_neg Bool.false_ne_true, abs_of_nonneg (by exact_mod_cast not_lt.1 hx), one_mul]

theorem Real'.Exact.add {a b : Real'} (rm : Nat) (ha : a.Exact) (hb : b.Exact) : (a.add rm b).Exact ∧ (a.add rm b).units = a.units + b.units := by
  obtain ⟨na, ma, ea, rfl⟩ := ha
  obtain ⟨nb, mb, eb, rfl⟩ := hb
  obtain ⟨q, hq⟩ : ∃ q, q = if ea ≤ eb then ea else eb := ⟨_, rfl⟩
  have hle : q ≤ ea ∧ q ≤ eb := by
    rw [hq]
    split <;> omega
  obtain ⟨hex, hun⟩ := ofInt_units (scaled na ma ea q + scaled nb mb eb q) q (if na = nb then na else decide (rm = 2))
  rw [Int.cast_add, add_mul, scaled_units na false ma hle.1, scaled_units nb false mb hle.2] at hun
  subst hq
  exact ⟨hex, hun⟩

theorem Real'.Exact.negate {a : Real'} (ha : a.Exact) : a.negate.Exact ∧ a.negate.units = -a.units := by
  obtain ⟨n, m, e, rfl⟩ := ha
  refine ⟨⟨_, _, _, rfl⟩, ?_⟩
  cases n <;> simp [Real'.negate, Real'.units]

theorem Real'.Exact.mul {a b : Real'} (ha : a.Exact) (hb : b.Exact) : (a.mul b).Exact ∧ (a.mul b).units = a.units * b.units / 2 ^ 149 := by
  obtain ⟨na, ma, ea, rfl⟩ := ha
  obtain ⟨nb, mb, eb, rfl⟩ := hb
  refine ⟨⟨_, _, _, rfl⟩, ?_⟩
  have hpow : (2 : ℚ) ^ (ea + eb + 149) = 2 ^ (ea + 149) * 2 ^ (eb + 149) / 2 ^ 149 := by
    rw [eq_div_iff (by positivity), ← zpow_natCast, ← zpow_add₀ (by norm_num), ← zpow_add₀ (by norm_num)]
    congr 1
    push_cast
    ring
  unfold Real'.mul Real'.units
  dsimp only
  rw [hpow]
  cases na <;> cases nb <;> push_cast <;> simp <;> ring

/-- A quotient of two numbers that are not 0 is rounded once: 128 bits and a sticky bit tell on which side of a half it lies. -/
theorem Real'.Exact.div {rm : Nat} {a b : Real'} (hrm : rm < 4) (ha : a.Exact) (hb : b.Exact) (ha0 : a.units ≠ 0) (hb0 : b.units ≠ 0) :
    RoundedOnce rm (a.units / b.units * 2 ^ 149) (fp32.round .arith rm (a.div b)) := by
  obtain ⟨na, ma, ea, rfl⟩ := ha
  obtain ⟨nb, mb, eb, rfl⟩ := hb
  have hma : ma ≠ 0 := by
    rintro rfl
    exact ha0 (by simp [Real'.units])
  have hmb : mb ≠ 0 := by
    rintro rfl
    exact hb0 (by simp [Real'.units])
  obtain ⟨k, hk⟩ : ∃ k, k = 128 + Nat.log2 mb := ⟨_, rfl⟩
  have hdiv : (Real'.num na ma ea false).div (.num nb mb eb false) =
      .num (na != nb) (ma * 2 ^ k / mb) (ea - eb - (k : Int)) (decide (ma * 2 ^ k % mb ≠ 0)) := by
    unfold Real'.div
    dsimp only
    rw [if_neg hmb, if_neg hma, ← hk]
  have hmaq : (0 : ℚ) < ma := by exact_mod_cast Nat.pos_of_ne_zero hma
  have hmbq : (0 : ℚ) < mb := by exact_mod_cast Nat.pos_of_ne_zero hmb
  have hpow : (2 : ℚ) ^ (ea + 149) / 2 ^ (eb + 149) * 2 ^ 149 = 2 ^ k * 2 ^ (ea - eb - (k : Int) + 149) := by
    rw [← zpow_sub₀ (by norm_num), ← zpow_natCast, ← zpow_natCast, ← zpow_add₀ (by norm_num), ← zpow_add₀ (by norm_num)]
    congr 1
    push_cast
    ring
  have hw : (0 : ℚ) < 2 ^ (ea - eb - (k : Int) + 149) := by positivity
  have hwide : 2 ^ 24 ≤ ma * 2 ^ k / mb := by
    rw [Nat.le_div_iff_mul_le (Nat.pos_of_ne_zero hmb)]
    calc 2 ^ 24 * mb ≤ 2 ^ 24 * 2 ^ (Nat.log2 mb + 1) := Nat.mul_le_mul_left _ Nat.lt_log2_self.le
      _ = 2 ^ (24 + (Nat.log2 mb + 1)) := (Nat.pow_add ..).symm
      _ ≤ 2 ^ k := Nat.pow_le_pow_right (by decide) (by omega)
      _ ≤ ma * 2 ^ k := Nat.le_mul_of_pos_left _ (Nat.pos_of_ne_zero hma)
  have hval : (Real'.num na ma ea false).units / (Real'.num nb mb eb false).units * 2 ^ 149 =
      (if na != nb then -1 else 1) * (((ma * 2 ^ k : Nat) : ℚ) / mb * 2 ^ (ea - eb - (k : Int) + 149)) := by
    have h : (ma : ℚ) * 2 ^ (ea + 149) / (mb * 2 ^ (eb + 149)) * 2 ^ 149 = ((ma * 2 ^ k : Nat) : ℚ) / mb * 2 ^ (ea - eb - (k : Int) + 149) := by
      rw [mul_div_mul_comm, mul_assoc, hpow]
      push_cast
      ring
    rw [← h]
    unfold Real'.units
    cases na <;> cases nb <;> simp [neg_div, div_neg]
  rw [hval, hdiv]
  generalize ea - eb - (k : Int) = e at *
  generalize hX : ma * 2 ^ k = X at *
  have hmod : ((X / mb : Nat) : ℚ) * mb + (X % mb : Nat) = X := by exact_mod_cast Nat.div_add_mod' X mb
  have hXpos : (0 : ℚ) < X := by
    rw [← hX]
    exact_mod_cast Nat.mul_pos (Nat.pos_of_ne_zero hma) (by positivity)
  have hpos : (0 : ℚ) < X / mb * 2 ^ (e + 149) := by positivity
  have hsign : (na != nb) = decide ((if (na != nb) = true then (-1 : ℚ) else 1) * (X / mb * 2 ^ (e + 149)) < 0) := by
    cases na != nb
    · exact (decide_eq_false (by simpa using hpos.le)).symm
    · exact (decide_eq_true (by simpa using hpos)).symm
  have habs : |(if (na != nb) = true then (-1 : ℚ) else 1) * (X / mb * 2 ^ (e + 149))| = X / mb * 2 ^ (e + 149) := by
    rw [abs_mul, abs_of_pos hpos]
    cases na != nb <;> simp
  refine roundedOnce_round hrm (by omega) hsign ?_
  rw [habs]
  have hrem : ((X % mb : Nat) : ℚ) < mb := by exact_mod_cast Nat.mod_lt X (Nat.pos_of_ne_zero hmb)
  refine ⟨mul_le_mul_of_nonneg_right ?_ hw.le, mul_lt_mul_of_pos_right ?_ hw, ?_, fun _ => (Nat.le_log2 (by omega)).2 hwide⟩
  · rw [le_div_iff₀ hmbq, ← hmod]
    exact le_add_of_nonneg_right (Nat.cast_nonneg _)
  · rw [div_lt_iff₀ hmbq, ← hmod]
    linarith
  · rw [decide_eq_false_iff_not, not_not, mul_left_inj' hw.ne', div_eq_iff hmbq.ne', ← hmod, add_eq_left, Nat.cast_eq_zero]

end Sys2Proof.Machine
end

section
/-! SUPPORT. FP32 patterns compare as their values do; NaN; the results of rounding stay within 32 bits (R292, R300, R301). -/

namespace Sys2Proof.Machine

open Sys2Proof

/-! ### Comparison -/

theorem Real'.Exact.cmp {a b : Real'} (ha : a.Exact) (hb : b.Exact) : a.cmp b = some (compare a.units b.units) := by
  obtain ⟨na, ma, ea, rfl⟩ := ha
  obtain ⟨nb, mb, eb, rfl⟩ := hb
  obtain ⟨q, hq⟩ : ∃ q, q = if ea ≤ eb then ea else eb := ⟨_, rfl⟩
  have hle : q ≤ ea ∧ q ≤ eb := by
    rw [hq]
    split <;> omega
  have hpow : (0 : ℚ) < 2 ^ (q + 149) := by positivity
  rw [← scaled_units na false ma hle.1, ← scaled_units nb false mb hle.2]
  show some (compare (scaled na ma ea (if ea ≤ eb then ea else eb)) _) = _
  rw [← hq]
  refine congrArg some ?_
  obtain h | h | h := lt_trichotomy (scaled na ma ea q) (scaled nb mb eb q)
  · rw [compare_lt_iff_lt.2 h, compare_lt_iff_lt.2 (mul_lt_mul_of_pos_right (by exact_mod_cast h) hpow)]
  · rw [h, compare_eq_iff_eq.2 rfl, compare_eq_iff_eq.2 rfl]
  · rw [compare_gt_iff_gt.2 h, compare_gt_iff_gt.2 (mul_lt_mul_of_pos_right (by exact_mod_cast h) hpow)]

/-- Finite patterns compare as their values do. -/
theorem fp32_cmp {x y : Nat} (hx : fp32Finite x) (hy : fp32Finite y) :
    (fp32.decode x).cmp (fp32.decode y) = some (compare (fp32Value x) (fp32Value y)) := by
  rw [(decode_exact hx).cmp (decode_exact hy), decode_units hx, decode_units hy]
  refine congrArg some ?_
  obtain h | h | h := lt_trichotomy (fp32Value x) (fp32Value y)
  · rw [compare_lt_iff_lt.2 h, compare_lt_iff_lt.2 (by exact_mod_cast h)]
  · rw [h, compare_eq_iff_eq.2 rfl, compare_eq_iff_eq.2 rfl]
  · rw [compare_gt_iff_gt.2 h, compare_gt_iff_gt.2 (by exact_mod_cast h)]

theorem some_beq_ordering (o p : Ordering) : (some o == some p) = decide (o = p) := by
  cases o <;> cases p <;> rfl

theorem fp32_eq_iff {x y : Nat} (hx : fp32Finite x) (hy : fp32Finite y) : fp32.eq x y = decide (fp32Value x = fp32Value y) := by
  unfold Fmt.eq
  rw [fp32_cmp hx hy, some_beq_ordering]
  exact decide_eq_decide.2 compare_eq_iff_eq

theorem fp32_lt_iff {x y : Nat} (hx : fp32Finite x) (hy : fp32Finite y) : fp32.lt x y = decide (fp32Value x < fp32Value y) := by
  unfold Fmt.lt
  rw [fp32_cmp hx hy, some_beq_ordering]
  exact decide_eq_decide.2 compare_lt_iff_lt

theorem fp32_le_iff {x y : Nat} (hx : fp32Finite x) (hy : fp32Finite y) : fp32.le x y = decide (fp32Value x ≤ fp32Value y) := by
  unfold Fmt.le
  rw [fp32_lt_iff hx hy, fp32_eq_iff hx hy, ← Bool.decide_or]
  exact decide_eq_decide.2 le_iff_lt_or_eq.symm

theorem fp32_pick {x y : Nat} (hx : fp32Finite x) (hy : fp32Finite y) (max : Bool) :
    fp32.pick max x y = some (if max then decide (fp32Value x < fp32Value y) else decide (fp32Value y < fp32Value x)) := by
  unfold Fmt.pick
  rw [fp32_cmp hx hy]
  obtain h | h | h := lt_trichotomy (fp32Value x) (fp32Value y)
  · rw [compare_lt_iff_lt.2 h, decide_eq_true h, decide_eq_false h.not_gt]
    cases max <;> rfl
  · rw [h, compare_eq_iff_eq.2 rfl, decide_eq_false (lt_irrefl _), ite_self]
  · rw [compare_gt_iff_gt.2 h, decide_eq_true h, decide_eq_false h.not_gt]
    cases max <;> rfl

/-- MIN and MAX of finite patterns: the first operand where the two are equal. -/
theorem fp32_minmax {x y : Nat} (hx : fp32Finite x) (hy : fp32Finite y) :
    fp32.minmax false x y = (if fp32Value y < fp32Value x then y else x) ∧ fp32.minmax true x y = if fp32Value x < fp32Value y then y else x := by
  unfold Fmt.minmax
  rw [fp32_pick hx hy, fp32_pick hx hy, if_neg Bool.false_ne_true, if_pos rfl]
  constructor
  · by_cases h : fp32Value y < fp32Value x
    · rw [decide_eq_true h, if_pos h]
    · rw [decide_eq_false h, if_neg h]
  · by_cases h : fp32Value x < fp32Value y
    · rw [decide_eq_true h, if_pos h]
    · rw [decide_eq_false h, if_neg h]

/-! ### NaN -/

@[simp] theorem Real'.nan_add (rm : Nat) (b : Real') : Real'.nan.add rm b = .nan := rfl
@[simp] theorem Real'.add_nan (rm : Nat) (a : Real') : a.add rm .nan = .nan := by cases a <;> rfl
@[simp] theorem Real'.nan_mul (b : Real') : Real'.nan.mul b = .nan := rfl
@[simp] theorem Real'.mul_nan (a : Real') : a.mul .nan = .nan := by cases a <;> rfl
@[simp] theorem Real'.nan_div (b : Real') : Real'.nan.div b = .nan := rfl
@[simp] theorem Real'.div_nan (a : Real') : a.div .nan = .nan := by cases a <;> rfl
@[simp] theorem Real'.nan_cmp (b : Real') : Real'.nan.cmp b = none := rfl
@[simp] theorem Real'.cmp_nan (a : Real') : a.cmp .nan = none := by cases a <;> rfl
@[simp] theorem Real'.negate_nan : Real'.nan.negate = .nan := rfl
@[simp] theorem Fmt.round_nan (f : Fmt) (o : Ovf) (rm : Nat) : f.round o rm .nan = f.nan := rfl

/-- An FP32 pattern above infinity's is a NaN (R292). -/
theorem decode_fp32_nan {x : Nat} (hx : 0x7F800000 < x % 2 ^ 31) : fp32.decode x = .nan := by
  show (if x % 2 ^ 31 / 2 ^ 23 = 255 then if x % 2 ^ 31 % 2 ^ 23 = 0 then Real'.inf (x.testBit 31) else .nan else _) = _
  rw [if_pos (by omega), if_neg (by omega)]

/-! ### Results stay within the format -/

/-- A result of rounding to FP32 has 32 bits. -/
theorem fp32_round_lt (o : Ovf) (rm : Nat) (v : Real') : fp32.round o rm v < 2 ^ 32 := by
  have hsigned : ∀ neg : Bool, ∀ x, x ≤ 0x7F800000 → fp32.signed neg x < 2 ^ 32 := fun neg x hx => by
    have hle : fp32.signed neg x ≤ 2 ^ 31 + x := by
      cases neg
      · exact Nat.le_add_left _ _
      · exact le_refl _
    omega
  have hinf : fp32.infPattern = 0x7F800000 := by decide
  have hmax : fp32.maxFinite = 0x7F7FFFFF := by decide
  cases v with
  | nan => exact show fp32.nan < 2 ^ 32 by decide
  | inf neg => exact hsigned neg _ hinf.le
  | num neg m e sticky =>
    unfold Fmt.round
    dsimp only
    split
    · have hm := hsigned neg _ (hmax.le.trans (by decide))
      have hi := hsigned neg _ hinf.le
      unfold Fmt.overflow
      cases o
      · show (if _ then fp32.signed neg fp32.maxFinite else fp32.signed neg fp32.infPattern) < _
        split
        · exact hm
        · exact hi
      · exact hm
      · show (if _ then fp32.signed neg fp32.maxFinite else fp32.signed neg fp32.infPattern) < _
        split
        · exact hm
        · exact hi
    · exact hsigned neg _ (by omega)

theorem fp32_minmax_lt {x y : Nat} (max : Bool) (hx : x < 2 ^ 32) (hy : y < 2 ^ 32) : fp32.minmax max x y < 2 ^ 32 := by
  unfold Fmt.minmax
  split
  · exact show fp32.nan < 2 ^ 32 by decide
  · exact hx
  · exact hy

end Sys2Proof.Machine
end

section
/-! SUPPORT. The slot operations of the fabric as changes of one stage, the lanes of a word, and the end of a pulse (R476 to R481). -/

namespace Sys2Proof.Machine

open Sys2Proof

/-! ### The stage of a fabric element -/

/-- A state whose element at hand has its stage changed by `g`, and nothing else. -/
def State.staged (s : State) (g : FStage → FStage) : State :=
  { s with xdies := SMap.put s.xdies s.cur.die { s.xdie s.cur.die with
      stage := SMap.put (s.xdie s.cur.die).stage s.cur.hub (g (SMap.get {} (s.xdie s.cur.die).stage s.cur.hub)) } }

theorem State.fabStage_eq (s : State) (f : FStage → FStage) : s.fabStage f = s.staged fun g => { f g with slots := g.slots + 1 } := rfl

theorem State.fabResult_some (s : State) (d : Nat) (v : W64) :
    s.fabResult d (some v) = s.staged fun g => { g with regs := g.regs ++ [(d, v)], slots := g.slots + 1 } := rfl

theorem State.fabResult_none (s : State) (d : Nat) : s.fabResult d none = s.staged fun g => { g with slots := g.slots + 1 } := rfl

/-- The result of a slot operation of two operands is written where both are valid. -/
theorem fabBinary_some {s : State} {a b : R5} {y z : W64} (d : BitVec 4) (f : Nat → Nat → Nat) (hy : s.fabOperand a.toNat = some y)
    (hz : s.fabOperand b.toNat = some z) : fabBinary d a b f s = s.fabResult d.toNat (some (lanes2 f y z)) := by
  unfold fabBinary
  rw [hy, hz]

theorem fabBinary_none {s : State} {a b : R5} (d : BitVec 4) (f : Nat → Nat → Nat)
    (h : s.fabOperand a.toNat = none ∨ s.fabOperand b.toNat = none) : fabBinary d a b f s = s.fabResult d.toNat none := by
  unfold fabBinary
  obtain h | h := h
  · rw [h]
  · rw [h]
    cases s.fabOperand a.toNat <;> rfl

theorem laneNonzero_eq (x : Nat) : laneNonzero x = decide (x % 2 ^ 31 ≠ 0) := rfl

theorem execFsel_some {s : State} {a b c : R5} {y z w : W64} (d : BitVec 4) (hy : s.fabOperand a.toNat = some y)
    (hz : s.fabOperand b.toNat = some z) (hw : s.fabOperand c.toNat = some w) : execFsel d a b c s = .next (s.fabResult d.toNat (some (ofLanes
      (if lane w 0 % 2 ^ 31 ≠ 0 then lane y 0 else lane z 0) (if lane w 1 % 2 ^ 31 ≠ 0 then lane y 1 else lane z 1)))) := by
  unfold execFsel
  rw [hy, hz, hw]
  simp only [laneNonzero_eq, decide_eq_true_eq]

theorem execFsel_none {s : State} {a b : R5} (d : BitVec 4) (c : R5) (h : s.fabOperand a.toNat = none ∨ s.fabOperand b.toNat = none) :
    execFsel d a b c s = .next (s.fabResult d.toNat none) := by
  unfold execFsel
  obtain h | h := h
  · rw [h]
  · rw [h]
    cases s.fabOperand a.toNat <;> rfl

theorem execFzip_none {s : State} {a b : R5} (d : BitVec 4) (h : s.fabOperand a.toNat = none ∨ s.fabOperand b.toNat = none) :
    execFzip d a b s = .next (s.fabResult d.toNat none) := by
  unfold execFzip
  obtain h | h := h
  · rw [h]
  · rw [h]
    cases s.fabOperand a.toNat <;> rfl

theorem execFacc_none {s : State} {a : R5} (d : BitVec 4) (h : s.fabOperand a.toNat = none) :
    execFacc d a s = .next (s.fabResult d.toNat none) := by
  unfold execFacc
  rw [h]
  cases s.fabOperand d.toNat <;> rfl

theorem execFemit_accepts {s : State} (a : R5) (h : s.curX.accepts s.cur.hub = true) : execFemit a s = .next (s.fabStage fun g =>
    match s.fabOperand a.toNat with
    | some v => { g with emit := some v }
    | none => g) := by
  unfold execFemit
  rw [h]
  rfl

theorem execFemit_holds {s : State} (a : R5) (h : s.curX.accepts s.cur.hub = false) :
    execFemit a s = .next (s.fabStage fun g => { g with hold := true }) := by
  unfold execFemit
  rw [h]
  rfl

theorem execFloopb_counts {s : State} (t : BitVec 6) (f : BitVec 4) : execFloopb t 1 f s = .next (s.fabStage fun g =>
    match s.fabOperand f.toNat with
    | some v =>
      if 1 < v.toNat then { g with regs := g.regs ++ [(f.toNat, v - 1)], target := some t.toNat }
      else { g with regs := g.regs ++ [(f.toNat, 0)] }
    | none => g) := rfl

/-! ### Lanes -/

theorem ofLanes_toNat (x y : Nat) : (ofLanes x y).toNat = x % 2 ^ 32 + y % 2 ^ 32 * 2 ^ 32 := by
  unfold ofLanes
  rw [BitVec.toNat_ofNat]
  exact Nat.mod_eq_of_lt (by omega)

theorem lane_zero (w : W64) : lane w 0 = w.toNat % 2 ^ 32 := by
  unfold lane
  rw [Nat.mul_zero, Nat.pow_zero, Nat.div_one]

theorem lane_one (w : W64) : lane w 1 = w.toNat / 2 ^ 32 := by
  unfold lane
  rw [Nat.mul_one]
  exact Nat.mod_eq_of_lt (by omega)

theorem lanes2_toNat {f : Nat → Nat → Nat} (hf : ∀ u v, f u v < 2 ^ 32) (y z : W64) :
    (lanes2 f y z).toNat = f (lane y 0) (lane z 0) + f (lane y 1) (lane z 1) * 2 ^ 32 := by
  unfold lanes2
  rw [ofLanes_toNat, Nat.mod_eq_of_lt (hf _ _), Nat.mod_eq_of_lt (hf _ _)]

theorem not_isNan_finite {x : Nat} (hx : fp32Finite x) : fp32.isNan x = false := by
  unfold Fmt.isNan
  rw [decode_fp32_finite hx]
  rfl

theorem isNan_nan {x : Nat} (hx : 0x7F800000 < x % 2 ^ 31) : fp32.isNan x = true := by
  unfold Fmt.isNan
  rw [decode_fp32_nan hx]
  rfl

theorem laneMax_finite {x y : Nat} (hx : fp32Finite x) (hy : fp32Finite y) :
    laneMax x y = (if fp32Value x < fp32Value y then y else x) ∧ laneMin x y = if fp32Value y < fp32Value x then y else x := by
  unfold laneMax laneMin
  rw [not_isNan_finite hx, not_isNan_finite hy, fp32_lt_iff hx hy, fp32_lt_iff hy hx]
  simp only [Bool.or_self, Bool.false_eq_true, if_false, decide_eq_true_eq, and_self]

theorem laneMax_nan {x y : Nat} (h : 0x7F800000 < x % 2 ^ 31 ∨ 0x7F800000 < y % 2 ^ 31) : laneMax x y = 0x7FC00000 ∧ laneMin x y = 0x7FC00000 := by
  have hnan : (fp32.isNan x || fp32.isNan y) = true := by
    obtain h | h := h
    · rw [isNan_nan h, Bool.true_or]
    · rw [isNan_nan h, Bool.or_true]
  unfold laneMax laneMin
  rw [hnan, if_pos rfl, if_pos rfl]
  exact ⟨rfl, rfl⟩

/-! ### The end of a pulse -/

theorem XDie.commitElem_holds {x : XDie} {n : Nat} (lg : Nat) (h : (x.stageOf n).hold = true) : x.commitElem lg n = x := by
  unfold XDie.commitElem
  exact if_pos h

theorem XDie.commitElem_moves {x : XDie} {n : Nat} (lg : Nat) (hh : (x.stageOf n).hold = false) (ht : (x.stageOf n).take = false)
    (he : (x.stageOf n).emit = none) : x.commitElem lg n = x.setElem n { x.elem n with
      f := (x.stageOf n).regs.foldl (fun m r => SMap.put m r.1 ⟨r.2, true⟩) (x.elem n).f
      pc := if lg ≤ (x.stageOf n).target.getD ((x.elem n).pc + 1) then 0 else (x.stageOf n).target.getD ((x.elem n).pc + 1) } := by
  unfold XDie.commitElem
  dsimp only
  rw [hh, ht, he]
  rfl

theorem XDie.elem_setElem (x : XDie) (n : Nat) (e : Elem) : (x.setElem n e).elem n = e := SMap.get_put_self ..

theorem XDie.elem_setElem_ne (x : XDie) {n m : Nat} (e : Elem) (h : m ≠ n) : (x.setElem n e).elem m = x.elem m := SMap.get_put_ne _ _ _ h

/-- Settles O42: each slot operation is a change of the stage of the element at hand; the numbers come from the comparison of finite patterns. -/
theorem fabricSlots : Obligations.FabricSlots := by
  refine ⟨?_, ?_, ?_, ?_⟩
  · intro s d a b c k m f t h p q n x out slot reg va vb
    refine ⟨rfl, ?_, ?_, ?_, ?_, rfl, ?_, ?_, ?_, ?_, ?_⟩
    · intro y z hy hz
      change s.fabOperand a.toNat = some y at hy
      change s.fabOperand b.toNat = some z at hz
      have hbin : ∀ g, (.next (fabBinary d a b g s) : Res) = .next (s.staged (reg (lanes2 g y z))) := fun g => by
        rw [fabBinary_some d g hy hz]
        rfl
      refine ⟨hbin _, hbin _, hbin _, hbin _, hbin _, ?_, ?_⟩
      · exact fun w hw => execFsel_some d hy hz hw
      · show execFzip d a b s = _
        unfold execFzip
        rw [hy, hz]
        rfl
    · intro y hy
      change s.fabOperand a.toNat = some y at hy
      refine ⟨?_, ?_, ?_, ?_, ?_, ?_, ?_⟩
      · show execFmov d a s = _
        unfold execFmov
        rw [hy]
        rfl
      · intro z hz
        show execFacc d a s = _
        unfold execFacc
        rw [hz, hy]
        rfl
      · show execFroute a m s = _
        unfold execFroute
        rw [hy]
        rfl
      · intro ha
        refine (execFemit_accepts a ha).trans ?_
        rw [hy]
        rfl
      · intro hp
        show execFcvt d a p 0 n s = _
        unfold execFcvt
        dsimp only
        rw [hy]
        rfl
      · intro hq
        show execFcvt d a p q n s = _
        unfold execFcvt
        dsimp only
        rw [hy]
        dsimp only
        rw [if_neg hq]
        rfl
      · show execFunzip d a h s = _
        unfold execFunzip
        rw [hy]
        rfl
    · intro w hw
      show execFtake d s = _
      unfold execFtake
      rw [show s.curX.offered (s.die s.cur.die).coast s.cur.hub = some w from hw]
      rfl
    · intro hw
      show execFtake d s = _
      unfold execFtake
      rw [show s.curX.offered (s.die s.cur.die).coast s.cur.hub = none from hw]
      rfl
    · intro hf
      refine (execFloopb_counts t f).trans ?_
      rw [hf]
      rfl
    · intro v hf
      refine ⟨fun hv => (execFloopb_counts t f).trans ?_, fun hv => (execFloopb_counts t f).trans ?_⟩
      · rw [hf]
        simp only [if_pos hv]
        rfl
      · rw [hf]
        simp only [if_neg (Nat.not_lt.2 hv)]
        rfl
    · exact fun ha => execFemit_holds a ha
    · intro hab
      have hbin : ∀ g, (.next (fabBinary d a b g s) : Res) = .next (s.staged slot) := fun g => by
        rw [fabBinary_none d g hab]
        rfl
      exact ⟨hbin _, hbin _, hbin _, hbin _, hbin _, execFsel_none d c hab, execFzip_none d hab⟩
    · intro ha
      change s.fabOperand a.toNat = none at ha
      refine ⟨?_, execFacc_none d ha, ?_, ?_, ?_, ?_⟩
      · show execFmov d a s = _
        unfold execFmov
        rw [ha]
        rfl
      · show execFcvt d a p q n s = _
        unfold execFcvt
        dsimp only
        rw [ha]
        rfl
      · show execFunzip d a h s = _
        unfold execFunzip
        rw [ha]
        rfl
      · intro hacc
        refine (execFemit_accepts a hacc).trans ?_
        rw [ha]
        rfl
      · show execFroute a m s = _
        unfold execFroute
        rw [ha]
        rfl
  · intro f y z i hi hf part
    have hy := hf (lane y 0) (lane z 0)
    have hz := hf (lane y 1) (lane z 1)
    show (if i = 0 then (lanes2 f y z).toNat % 2 ^ 32 else (lanes2 f y z).toNat / 2 ^ 32) =
      f (if i = 0 then y.toNat % 2 ^ 32 else y.toNat / 2 ^ 32) (if i = 0 then z.toNat % 2 ^ 32 else z.toNat / 2 ^ 32)
    rw [lanes2_toNat hf]
    by_cases h0 : i = 0
    · rw [if_pos h0, if_pos h0, if_pos h0, ← lane_zero, ← lane_zero]
      omega
    · rw [if_neg h0, if_neg h0, if_neg h0, ← lane_one, ← lane_one]
      omega
  · exact fun x y => ⟨laneMax_finite, laneMax_nan, fp32_round_lt .., fp32_round_lt ..⟩
  · intro x lg n g u pc
    refine ⟨fun hh => XDie.commitElem_holds lg hh, fun hh ht he => ?_⟩
    have hu : u = _ := XDie.commitElem_moves lg hh ht he
    rw [hu, XDie.elem_setElem]
    refine ⟨rfl, fun k hk => XDie.elem_setElem_ne x _ hk, rfl, ?_, ?_⟩
    · intro hr
      exact (congrArg (List.foldl _ _) hr).trans rfl
    · intro r v hr
      have hput : List.foldl (fun m r => SMap.put m r.1 (⟨r.2, true⟩ : FWord)) (x.elem n).f (x.stageOf n).regs = SMap.put (x.elem n).f r ⟨v, true⟩ :=
        (congrArg (List.foldl _ _) hr).trans rfl
      dsimp only
      rw [hput]
      exact ⟨SMap.get_put_self .., fun k hk => SMap.get_put_ne _ _ _ hk⟩

end Sys2Proof.Machine
end

section
/-! SUPPORT. Vector words list their writes; vector writes that lie apart read back (R385, R388, R395). -/

namespace Sys2Proof.Machine

open Sys2Proof

/-! ### Vector words -/

/-- A vector word under a TAN and an ETYPE that it takes lists its writes. -/
theorem vecWord_writes {s : State} {tan : Option TanOk} {ety : Nat → Bool} (m l : Nat) (ds : List Nat) (f : VCtx → List VWrite)
    (ht : tanLegal tan s.curTan = true) (he : ety s.curHub.shape.ety = true) : vecWord tan ety m l ds f s = afterWord s l (.vec (f s.vctx)) := by
  have hc : (!tanLegal tan s.curTan || !ety s.vctx.h.shape.ety) = false := by
    rw [show s.vctx.h = s.curHub from rfl, ht, he]
    rfl
  unfold vecWord
  dsimp only
  rw [hc, if_neg Bool.false_ne_true]
  rfl

/-! ### Vector writes that land -/

/-- The place of the first byte that a vector write writes. -/
def VWrite.start (x : VWrite) : Nat := vkey x.tan x.reg x.off
/-- The bytes that a vector write leaves: zeros for a poisoned one. -/
def VWrite.data (x : VWrite) : List Byte := if x.pois = some true then x.bytes.map fun _ => 0 else x.bytes
/-- The place of the first poison bit that a vector write sets or clears. -/
def VWrite.poisStart (x : VWrite) : Nat := vkey 0 x.reg x.off

/-- Two vector writes write no byte in common, and no poison bit. -/
def VWrite.Apart (x y : VWrite) : Prop :=
  (∀ n, x.start ≤ n → n < x.start + x.bytes.length → n < y.start ∨ y.start + y.bytes.length ≤ n) ∧
  (x.pois ≠ none → y.pois ≠ none → ∀ n, x.poisStart ≤ n → n < x.poisStart + x.bytes.length → n < y.poisStart ∨ y.poisStart + y.bytes.length ≤ n)

theorem VWrite.data_length (x : VWrite) : x.data.length = x.bytes.length := by
  unfold VWrite.data
  split
  · exact List.length_map _
  · rfl

theorem get_vwrite_bytes {x : VWrite} (hx : x.mask = 255) (h : Hub) (n : Nat) :
    SMap.get 0 (h.vwrite x).vbytes n = if x.start ≤ n then x.data.getD (n - x.start) (SMap.get 0 h.vbytes n) else SMap.get 0 h.vbytes n := by
  unfold Hub.vwrite
  dsimp only
  rw [hx]
  exact get_putBytes ..

theorem get_vwrite_pois (x : VWrite) (h : Hub) (n : Nat) : SMap.get false (h.vwrite x).vpois n =
    if x.poisStart ≤ n ∧ n < x.poisStart + x.bytes.length then x.pois.getD (SMap.get false h.vpois n) else SMap.get false h.vpois n := by
  unfold Hub.vwrite
  dsimp only
  cases hp : x.pois with
  | none => exact (ite_self _).symm
  | some p => exact get_putPois ..

theorem vwriteAll_bytes_out {ws : List VWrite} {n : Nat} (hm : ∀ x ∈ ws, x.mask = 255)
    (hn : ∀ x ∈ ws, n < x.start ∨ x.start + x.bytes.length ≤ n) (h : Hub) :
    SMap.get 0 (h.vwriteAll ws).vbytes n = SMap.get 0 h.vbytes n := by
  induction ws generalizing h with
  | nil => rfl
  | cons x r ih =>
    rw [Hub.vwriteAll, ih (fun y hy => hm y (.tail _ hy)) (fun y hy => hn y (.tail _ hy)), get_vwrite_bytes (hm x (.head _))]
    obtain hx | hx := hn x (.head _)
    · exact if_neg (by omega)
    · rw [List.getD_eq_default _ _ (by rw [VWrite.data_length]; omega), ite_self]

theorem vwriteAll_pois_out {ws : List VWrite} {n : Nat}
    (hn : ∀ x ∈ ws, x.pois ≠ none → n < x.poisStart ∨ x.poisStart + x.bytes.length ≤ n) (h : Hub) :
    SMap.get false (h.vwriteAll ws).vpois n = SMap.get false h.vpois n := by
  induction ws generalizing h with
  | nil => rfl
  | cons x r ih =>
    rw [Hub.vwriteAll, ih (fun y hy => hn y (.tail _ hy)), get_vwrite_pois]
    by_cases hp : x.pois = none
    · rw [hp, Option.getD_none, ite_self]
    · exact if_neg (by have := hn x (.head _) hp; omega)

/-- A byte of one of several writes that lie apart reads back. -/
theorem vwriteAll_bytes_in {ws : List VWrite} {x : VWrite} {i : Nat} (hm : ∀ x ∈ ws, x.mask = 255) (hws : ws.Pairwise VWrite.Apart)
    (hx : x ∈ ws) (hi : i < x.bytes.length) (h : Hub) : SMap.get 0 (h.vwriteAll ws).vbytes (x.start + i) = x.data.getD i 0 := by
  induction ws generalizing h with
  | nil => exact absurd hx List.not_mem_nil
  | cons y r ih =>
    rw [Hub.vwriteAll]
    obtain ⟨hy, hr⟩ := List.pairwise_cons.1 hws
    obtain rfl | hx := List.mem_cons.1 hx
    · rw [vwriteAll_bytes_out (fun z hz => hm z (.tail _ hz)) (fun z hz => (hy z hz).1 _ (by omega) (by omega)), get_vwrite_bytes (hm x (.head _)),
        if_pos (by omega), Nat.add_sub_cancel_left]
      rw [List.getD_eq_getElem _ _ (by rw [VWrite.data_length]; exact hi), List.getD_eq_getElem _ _ (by rw [VWrite.data_length]; exact hi)]
    · exact ih (fun z hz => hm z (.tail _ hz)) hr hx _

theorem vwriteAll_pois_in {ws : List VWrite} {x : VWrite} {i : Nat} {p : Bool} (hws : ws.Pairwise VWrite.Apart) (hx : x ∈ ws)
    (hp : x.pois = some p) (hi : i < x.bytes.length) (h : Hub) : SMap.get false (h.vwriteAll ws).vpois (x.poisStart + i) = p := by
  induction ws generalizing h with
  | nil => exact absurd hx List.not_mem_nil
  | cons y r ih =>
    rw [Hub.vwriteAll]
    obtain ⟨hy, hr⟩ := List.pairwise_cons.1 hws
    obtain rfl | hx := List.mem_cons.1 hx
    · rw [vwriteAll_pois_out (fun z hz hzp => (hy z hz).2 (by rw [hp]; exact Option.some_ne_none p) hzp _ (by omega) (by omega)), get_vwrite_pois,
        if_pos (by omega), hp, Option.getD_some]
    · exact ih hr hx _

/-- Vector writes leave the masks, the scalar registers and the shape as they are. -/
theorem vwriteAll_beside (ws : List VWrite) (h : Hub) :
    (h.vwriteAll ws).masks = h.masks ∧ (h.vwriteAll ws).s = h.s ∧ (h.vwriteAll ws).p = h.p ∧ (h.vwriteAll ws).shape = h.shape := by
  induction ws generalizing h with
  | nil => exact ⟨rfl, rfl, rfl, rfl⟩
  | cons x r ih =>
    obtain ⟨hm, hs, hp, hsh⟩ := ih (h.vwrite x)
    exact ⟨hm, hs, hp, hsh⟩

/-! ### The writes of elements -/

theorem vkey_add (t r off i : Nat) : vkey t r off + i = vkey t r (off + i) := Nat.add_assoc ..

theorem any_range_const {w : Nat} (hw : 0 < w) (p : Bool) : ((List.range w).any fun _ => p) = p := by
  cases p
  · exact List.any_eq_false.2 fun _ _ => Bool.false_ne_true
  · exact List.any_eq_true.2 ⟨0, List.mem_range.2 hw, rfl⟩

theorem any_congr_mem {α : Type} {l : List α} {f g : α → Bool} (h : ∀ x ∈ l, f x = g x) : l.any f = l.any g := by
  induction l with
  | nil => rfl
  | cons x r ih => rw [List.any_cons, List.any_cons, h x (.head _), ih fun y hy => h y (.tail _ hy)]

/-- An element whose bytes are those of two hubs alike reads alike. -/
theorem elem_congr {g h : Hub} {j r off w : Nat} (hb : ∀ i, i < w → SMap.get 0 g.vbytes (vkey j r (off + i)) = SMap.get 0 h.vbytes (vkey j r (off + i)))
    (hp : ∀ i, i < w → SMap.get false g.vpois (vkey 0 r (off + i)) = SMap.get false h.vpois (vkey 0 r (off + i))) :
    g.elemPois r off w = h.elemPois r off w ∧ g.elem j r off w = h.elem j r off w := by
  have hpois : g.elemPois r off w = h.elemPois r off w := any_congr_mem fun i hi => hp i (List.mem_range.1 hi)
  have hbytes : g.vbytesAt j r off w = h.vbytesAt j r off w := List.map_congr_left fun i hi => hb i (List.mem_range.1 hi)
  refine ⟨hpois, ?_⟩
  unfold Hub.elem
  rw [hpois, hbytes]

/-- A write of an element under a word without TSEL: the primal one, or one of its shadows'. -/
theorem mem_writes {c : VCtx} (hc : c.tan.sel = 0) {d off w v : Nat} {p : Bool} {ts : List Nat} {x : VWrite} :
    x ∈ c.writes d off w v p ts ↔ x = ⟨d, 0, off, leBytes w v, some p, 255⟩ ∨
      ∃ j y, ts[j]? = some y ∧ x = ⟨d, j + 1, off, leBytes w y, none, 255⟩ := by
  unfold VCtx.writes
  rw [if_pos hc, List.mem_cons, List.mem_map]
  refine or_congr_right ⟨?_, ?_⟩
  · rintro ⟨y, hy, rfl⟩
    exact ⟨y.2, y.1, List.mem_zipIdx_iff_getElem?.1 hy, rfl⟩
  · rintro ⟨j, y, hy, rfl⟩
    exact ⟨(y, j), List.mem_zipIdx_iff_getElem?.2 hy, rfl⟩

/-- Writes to one register of different planes or of bytes that do not overlap lie apart, but for poison, which has one plane. -/
theorem apart_of {d t u off off' w : Nat} {bs bs' : List Byte} {p q : Option Bool} (hd : d < 32) (hb : bs.length = w) (hb' : bs'.length = w)
    (ho : off + w ≤ 4096) (ho' : off' + w ≤ 4096) (h : t ≠ u ∧ q = none ∨ off + w ≤ off' ∨ off' + w ≤ off) :
    VWrite.Apart ⟨d, t, off, bs, p, 255⟩ ⟨d, u, off', bs', q, 255⟩ := by
  unfold VWrite.Apart VWrite.start VWrite.poisStart vkey
  dsimp only
  rw [hb, hb']
  refine ⟨fun n h1 h2 => ?_, fun _ hq n h1 h2 => ?_⟩
  · obtain ⟨h, -⟩ | h | h := h <;> omega
  · obtain ⟨-, h⟩ | h | h := h
    · exact absurd h hq
    · omega
    · omega

/-- Two elements of one width overlap only where their indices agree. -/
theorem elements_apart {i j w : Nat} (hij : i ≠ j) : i * w + w ≤ j * w ∨ j * w + w ≤ i * w := by
  obtain h | h := Nat.lt_or_gt_of_ne hij
  · exact .inl (by rw [← Nat.succ_mul]; exact Nat.mul_le_mul_right w h)
  · exact .inr (by rw [← Nat.succ_mul]; exact Nat.mul_le_mul_right w h)

/-- What a write of `emit` is: one plane of one element. -/
theorem mem_emit {c : VCtx} (hc : c.tan.sel = 0) {d : Nat} {es : List Elt} {x : VWrite} (hx : x ∈ c.emit d es) :
    ∃ e ∈ es, ∃ t bs q, x = ⟨d, t, e.i * c.w, bs, q, 255⟩ ∧ bs.length = c.w ∧ x ∈ c.writes d (e.i * c.w) c.w e.v e.p e.ts := by
  obtain ⟨e, he, hx⟩ := List.mem_flatMap.1 hx
  obtain rfl | ⟨j, y, -, rfl⟩ := (mem_writes hc).1 hx
  · exact ⟨e, he, _, _, _, rfl, leBytes_length .., hx⟩
  · exact ⟨e, he, _, _, _, rfl, leBytes_length .., hx⟩

theorem writes_apart {c : VCtx} (hc : c.tan.sel = 0) {d off w : Nat} (hd : d < 32) (ho : off + w ≤ 4096) (v : Nat) (p : Bool) (ts : List Nat) :
    (c.writes d off w v p ts).Pairwise VWrite.Apart := by
  unfold VCtx.writes
  rw [if_pos hc, List.pairwise_cons]
  constructor
  · intro x hx
    obtain ⟨y, -, rfl⟩ := List.mem_map.1 hx
    exact apart_of hd (leBytes_length ..) (leBytes_length ..) ho ho (.inl ⟨by omega, rfl⟩)
  · rw [List.pairwise_map, List.pairwise_iff_getElem]
    intro i j hi hj hij
    simp only [List.getElem_zipIdx]
    exact apart_of hd (leBytes_length ..) (leBytes_length ..) ho ho (.inl ⟨by omega, rfl⟩)

theorem emit_apart {c : VCtx} (hc : c.tan.sel = 0) {d : Nat} {es : List Elt} (hd : d < 32) (hes : (es.map (·.i)).Nodup)
    (hin : ∀ e ∈ es, (e.i + 1) * c.w ≤ 4096) : (c.emit d es).Pairwise VWrite.Apart := by
  refine List.pairwise_flatMap.2 ⟨fun e he => writes_apart hc hd (by rw [← Nat.succ_mul]; exact hin e he) .., ?_⟩
  refine (List.pairwise_map.1 hes).imp_of_mem fun {e f} he hf hef x hx y hy => ?_
  have hx' := mem_emit hc (List.mem_flatMap.2 ⟨e, List.mem_singleton_self e, hx⟩)
  have hy' := mem_emit hc (List.mem_flatMap.2 ⟨f, List.mem_singleton_self f, hy⟩)
  obtain ⟨e', he', t, bs, q, rfl, hbs, -⟩ := hx'
  obtain ⟨f', hf', t', bs', q', rfl, hbs', -⟩ := hy'
  obtain rfl := List.mem_singleton.1 he'
  obtain rfl := List.mem_singleton.1 hf'
  exact apart_of hd hbs hbs' (by rw [← Nat.succ_mul]; exact hin _ he) (by rw [← Nat.succ_mul]; exact hin _ hf) (.inr (elements_apart hef))

theorem emit_mask {c : VCtx} (hc : c.tan.sel = 0) {d : Nat} {es : List Elt} : ∀ x ∈ c.emit d es, x.mask = 255 := by
  intro x hx
  obtain ⟨e, -, t, bs, q, rfl, -, -⟩ := mem_emit hc hx
  rfl

section Emitted

variable {c : VCtx} {d : Nat} {es : List Elt} (hc : c.tan.sel = 0) (hd : d < 32) (hes : (es.map (·.i)).Nodup)
  (hin : ∀ e ∈ es, (e.i + 1) * c.w ≤ 4096)

include hc hd hes hin

/-- An element that has been written has the poison that was written. -/
theorem emit_elemPois {e : Elt} (hw : 0 < c.w) (he : e ∈ es) (h : Hub) : (h.vwriteAll (c.emit d es)).elemPois d (e.i * c.w) c.w = e.p := by
  have hmem : (⟨d, 0, e.i * c.w, leBytes c.w e.v, some e.p, 255⟩ : VWrite) ∈ c.emit d es :=
    List.mem_flatMap.2 ⟨e, he, (mem_writes hc).2 (.inl rfl)⟩
  refine Eq.trans (any_congr_mem fun i hi => ?_) (any_range_const hw e.p)
  have hlt : i < (leBytes c.w e.v).length := by rw [leBytes_length]; exact List.mem_range.1 hi
  rw [Hub.vbytePois, ← vkey_add]
  exact vwriteAll_pois_in (emit_apart hc hd hes hin) hmem rfl hlt h

/-- A plane of an element that has been written reads as the value written, or as zeros where the element is poisoned. -/
theorem emit_elem {e : Elt} (hw : 0 < c.w) (he : e ∈ es) {j v : Nat} {q : Option Bool}
    (hmem : (⟨d, j, e.i * c.w, leBytes c.w v, q, 255⟩ : VWrite) ∈ c.emit d es) (hq : q = none ∨ q = some e.p) (h : Hub) :
    (h.vwriteAll (c.emit d es)).elem j d (e.i * c.w) c.w = if e.p then 0 else v % 2 ^ (8 * c.w) := by
  unfold Hub.elem
  rw [emit_elemPois hc hd hes hin hw he]
  cases hp : e.p with
  | true => rfl
  | false =>
    rw [if_neg Bool.false_ne_true, if_neg Bool.false_ne_true, ← leNat_leBytes]
    have hdata : VWrite.data ⟨d, j, e.i * c.w, leBytes c.w v, q, 255⟩ = leBytes c.w v := by
      refine if_neg ?_
      rw [hp] at hq
      obtain rfl | rfl := hq
      · exact nofun
      · exact fun h => Bool.false_ne_true (Option.some.inj h)
    refine congrArg leNat (List.ext_getElem ?_ fun i h1 h2 => ?_)
    · exact (List.length_map _).trans (List.length_range.trans (leBytes_length ..).symm)
    · have hin' := vwriteAll_bytes_in (emit_mask hc) (emit_apart hc hd hes hin) hmem h2 h
      rw [hdata, List.getD_eq_getElem _ _ h2] at hin'
      simp only [Hub.vbytesAt, List.getElem_map, List.getElem_range, ← vkey_add]
      exact hin'

end Emitted

/-- Settles O33: the words list their writes, and the writes of distinct elements lie apart, so each reads back. -/
theorem vectorIntegerWords : Obligations.VectorIntegerWords := by
  refine ⟨?_, ?_⟩
  · intro s d a b m heng htan c w sg out
    have hword : ∀ (ety : Nat → Bool) (f : ITy → Nat → Nat → Nat), ety s.curHub.shape.ety = true → intWord ety f d a b m s =
        afterWord s 4 (.vec (c.emit d.toNat ((c.actives m.toNat).map fun i =>
          ⟨i, f c.ety.asInt (c.get 0 a.toNat i) (c.get 0 b.toNat i), c.pois a.toNat i || c.pois b.toNat i, (List.range c.k).map fun _ => 0⟩))) := by
      intro ety f hety
      unfold intWord
      rw [vecWord_writes _ _ _ _ (by rw [show s.curTan = none from (if_pos heng).trans htan]; rfl) hety]
      have hsel : c.tan.sel = 0 := by
        show (s.curHub.tan.getD {}).sel = 0
        rw [htan]
        rfl
      have hks : c.noTan = (List.range c.k).map fun _ => 0 := by
        unfold VCtx.noTan VCtx.ks
        rw [if_pos hsel, List.map_map]
        rfl
      have hsrc : ∀ r i, c.src r i = c.get 0 r i := fun r i => by
        unfold VCtx.src VCtx.plane
        rw [hsel]
      simp only [hsrc, hks, c]
    have hout : ∀ (j : Instr) (ety : Nat → Bool) (f : ITy → Nat → Nat → Nat), ety s.curHub.shape.ety = true →
        exec j s = .next (intWord ety f d a b m s) → out j (f c.ety.asInt) := fun j ety f hety hj => hj.trans (congrArg _ (hword ety f hety))
    refine ⟨fun hty => ?_, (hout _ anyTy _ rfl (exec_vand d a b m s) :), (hout _ anyTy _ rfl (exec_vor d a b m s) :), (hout _ anyTy _ rfl (exec_vxor d a b m s) :), (hout _ anyTy _ rfl (exec_vshl d a b m s) :), (hout _ anyTy _ rfl (exec_vshr d a b m s) :), (hout _ anyTy _ rfl (exec_vshra d a b m s) :)⟩
    have hint : isIntTy s.curHub.shape.ety = true := decide_eq_true hty
    exact ⟨(hout _ _ _ hint (exec_viadd d a b m s) :), (hout _ _ _ hint (exec_visub d a b m s) :), (hout _ _ _ hint (exec_vimul d a b m s) :), (hout _ _ _ hint (exec_vimin d a b m s) :), (hout _ _ _ hint (exec_vimax d a b m s) :), (hout _ _ _ hint (exec_viadds d a b m s) :)⟩
  · intro c h d es hc hw hd hes hin t
    refine ⟨fun e he => ⟨?_, ?_, fun j x hj => ?_⟩, fun i j hi hlim => ?_, fun r j off n hr hrd hlim => ?_, ?_⟩
    · exact emit_elemPois hc hd hes hin hw he h
    · exact emit_elem hc hd hes hin hw he (List.mem_flatMap.2 ⟨e, he, (mem_writes hc).2 (.inl rfl)⟩) (.inr rfl) h
    · exact emit_elem hc hd hes hin hw he (List.mem_flatMap.2 ⟨e, he, (mem_writes hc).2 (.inr ⟨j, x, hj, rfl⟩)⟩) (.inl rfl) h
    · rw [Nat.succ_mul] at hlim
      refine elem_congr (fun n hn => vwriteAll_bytes_out (emit_mask hc) (fun x hx => ?_) h) fun n hn => vwriteAll_pois_out (fun x hx _ => ?_) h
      · obtain ⟨e, he, t, bs, q, rfl, hbs, -⟩ := mem_emit hc hx
        have h1 := elements_apart (w := c.w) (hi e he)
        have h2 := hin e he
        rw [Nat.succ_mul] at h2
        unfold VWrite.start vkey
        dsimp only
        rw [hbs]
        omega
      · obtain ⟨e, he, t, bs, q, rfl, hbs, -⟩ := mem_emit hc hx
        have h1 := elements_apart (w := c.w) (hi e he)
        have h2 := hin e he
        rw [Nat.succ_mul] at h2
        unfold VWrite.poisStart vkey
        dsimp only
        rw [hbs]
        omega
    · refine elem_congr (fun k hk => vwriteAll_bytes_out (emit_mask hc) (fun x hx => ?_) h) fun k hk => vwriteAll_pois_out (fun x hx _ => ?_) h
      · obtain ⟨e, he, t, bs, q, rfl, hbs, -⟩ := mem_emit hc hx
        have h2 := hin e he
        rw [Nat.succ_mul] at h2
        unfold VWrite.start vkey
        dsimp only
        rw [hbs]
        omega
      · obtain ⟨e, he, t, bs, q, rfl, hbs, -⟩ := mem_emit hc hx
        have h2 := hin e he
        rw [Nat.succ_mul] at h2
        unfold VWrite.poisStart vkey
        dsimp only
        rw [hbs]
        omega
    · obtain ⟨hm, hs, hp, hsh⟩ := vwriteAll_beside (c.emit d es) h
      exact ⟨hm, hs, hp, hsh⟩

end Sys2Proof.Machine
end

section
/-! SUPPORT. Compares, VSEL and mask words; the relations, and mask bits that land (R274, R396 to R398). -/

namespace Sys2Proof.Machine

open Sys2Proof

/-! ### Compares -/

theorem State.curTan_of_eng {s : State} (h : s.cur.eng = 1) : s.curTan = s.curHub.tan := if_pos h

/-- A compare without a TAN and without a poisoned active element lists the bits of its active elements. -/
theorem cmpWord_clean {s : State} {a b : R5} {m : BitVec 3} (rel : Nat) (e : BitVec 3) (ht : s.curTan = none)
    (hp : ∀ i ∈ s.vctx.actives m.toNat, s.vctx.pois a.toNat i = false ∧ s.vctx.pois b.toNat i = false) :
    cmpWord rel e a b m s = afterWord s 4 (.maskBits e.toNat ((s.vctx.actives m.toNat).map fun i =>
      (i, s.vctx.ety.holds s.vctx.ftz rel (s.vctx.get 0 a.toNat i) (s.vctx.get 0 b.toNat i)))) := by
  have hfind : (s.vctx.actives m.toNat).find? (fun i => s.vctx.pois a.toNat i || s.vctx.pois b.toNat i) = none := by
    refine List.find?_eq_none.2 fun i hi => ?_
    obtain ⟨h1, h2⟩ := hp i hi
    rw [h1, h2]
    exact Bool.false_ne_true
  unfold cmpWord
  dsimp only
  rw [ht, hfind]
  rfl

theorem cmpWord_poisoned {s : State} {a b : R5} {m : BitVec 3} {i : Nat} (rel : Nat) (e : BitVec 3) (ht : s.curTan = none)
    (hp : (s.vctx.actives m.toNat).find? (fun i => s.vctx.pois a.toNat i || s.vctx.pois b.toNat i) = some i) :
    cmpWord rel e a b m s = s.engFault 0x0A 2 i 1 1 [] := by
  unfold cmpWord
  dsimp only
  rw [ht, hp]
  rfl

theorem maskWord_bits {s : State} (ht : s.curTan = none) (e f g : BitVec 3) (k : Bool → Bool → Bool) : maskWord e f g k s =
    afterWord s 4 (.maskBits e.toNat ((List.range s.vctx.len).map fun i => (i, k (s.vctx.h.maskBit f.toNat i) (s.vctx.h.maskBit g.toNat i)))) := by
  unfold maskWord
  dsimp only
  rw [ht]
  rfl

/-- A TAN that leaves v(c) alone, and marks no operand constant where it selects a tangent, is one that VSEL takes. -/
theorem tanLegal_two {s : State} (hs : s.cur.eng = 1) (hc : s.vctx.tan.cc = false)
    (hsel : s.vctx.tan.sel ≠ 0 → s.vctx.tan.ca = false ∧ s.vctx.tan.cb = false) : tanLegal (some ⟨true, true, false, true⟩) s.curTan = true := by
  rw [State.curTan_of_eng hs]
  cases ht : s.curHub.tan with
  | none => rfl
  | some t =>
    have htan : s.vctx.tan = t := by
      show s.curHub.tan.getD {} = t
      rw [ht]
      rfl
    rw [htan] at hc hsel
    unfold tanLegal
    dsimp only
    rw [hc]
    by_cases h0 : t.sel = 0
    · simp [h0]
    · obtain ⟨h1, h2⟩ := hsel h0
      simp [h1, h2]

/-! ### The relations -/

/-- FTZ keeps a finite pattern finite, and makes it a zero where it is a subnormal. -/
theorem fp32_flush {x : Nat} (hx : fp32Finite x) (z : Bool) : fp32Finite (fp32.flush z x) ∧
    fp32Value (fp32.flush z x) = if z = true ∧ x % 2 ^ 31 < 2 ^ 23 then 0 else fp32Value x := by
  have hzero : x % 2 ^ 31 = 0 → fp32Value x = 0 := fun h => by
    rw [fp32Value_eq hx, h]
    exact mul_eq_zero_of_right _ rfl
  have hsub : fp32.isSubnormal x = decide (x % 2 ^ 31 < 2 ^ 23 ∧ x % 2 ^ 31 ≠ 0) := by
    show (decide (x % 2 ^ 31 / 2 ^ 23 = 0) && decide (x % 2 ^ 23 ≠ 0)) = _
    rw [← Bool.decide_and]
    exact decide_eq_decide.2 (by omega)
  unfold Fmt.flush
  rw [hsub]
  cases z with
  | false =>
    rw [Bool.false_and, if_neg Bool.false_ne_true, if_neg fun h => Bool.false_ne_true h.1]
    exact ⟨hx, rfl⟩
  | true =>
    rw [Bool.true_and]
    by_cases h : x % 2 ^ 31 < 2 ^ 23
    · rw [if_pos (show true = true ∧ x % 2 ^ 31 < 2 ^ 23 from ⟨rfl, h⟩)]
      by_cases h0 : x % 2 ^ 31 = 0
      · rw [decide_eq_false fun h => h.2 h0, if_neg Bool.false_ne_true]
        exact ⟨hx, hzero h0⟩
      · rw [decide_eq_true ⟨h, h0⟩, if_pos rfl]
        cases x.testBit (fp32.e + fp32.m)
        · exact ⟨⟨by decide, by decide⟩, by decide⟩
        · exact ⟨⟨by decide, by decide⟩, by decide⟩
    · rw [if_neg (show ¬(true = true ∧ x % 2 ^ 31 < 2 ^ 23) from fun h' => h h'.2), decide_eq_false fun h' => h h'.1, if_neg Bool.false_ne_true]
      exact ⟨hx, rfl⟩

/-- FTZ leaves a NaN a NaN. -/
theorem decode_flush_nan {x : Nat} (hx : 0x7F800000 < x % 2 ^ 31) (z : Bool) : fp32.decode (fp32.flush z x) = .nan := by
  have hsub : fp32.isSubnormal x = false := by
    show (decide (x % 2 ^ 31 / 2 ^ 23 = 0) && decide (x % 2 ^ 23 ≠ 0)) = false
    rw [decide_eq_false (by omega), Bool.false_and]
  unfold Fmt.flush
  rw [hsub, Bool.and_false, if_neg Bool.false_ne_true]
  exact decode_fp32_nan hx

/-- Patterns of `w` bits are equal where the numbers that they are agree. -/
theorem sextNat_inj {w x y : Nat} (hw : 0 < w) (hx : x < 2 ^ w) (hy : y < 2 ^ w) (h : sextNat x w = sextNat y w) : x = y := by
  unfold sextNat at h
  rw [Nat.mod_eq_of_lt hx, Nat.mod_eq_of_lt hy] at h
  split at h <;> split at h <;> omega

/-- The four relations on integers. -/
theorem int_holds {t : ITy} (z : Bool) {x y : Nat} (hinj : t.decode x = t.decode y → x = y) :
    (ETy.int t).holds z 0 x y = decide (t.decode x = t.decode y) ∧ (ETy.int t).holds z 1 x y = decide (t.decode x ≠ t.decode y) ∧
    (ETy.int t).holds z 2 x y = decide (t.decode x < t.decode y) ∧ (ETy.int t).holds z 3 x y = decide (t.decode x ≤ t.decode y) := by
  have heq : (x == y) = decide (t.decode x = t.decode y) := by
    rw [Bool.eq_iff_iff, beq_iff_eq, decide_eq_true_eq]
    exact ⟨fun h => congrArg _ h, hinj⟩
  refine ⟨heq, ?_, rfl, rfl⟩
  rw [decide_not, ← heq]
  rfl

theorem iTy_decode_inj {w x y : Nat} (sg : Bool) (hw : 0 < w) (hx : x < 2 ^ w) (hy : y < 2 ^ w)
    (h : (ITy.mk w sg).decode x = (ITy.mk w sg).decode y) : x = y := by
  unfold ITy.decode at h
  cases sg with
  | true => exact sextNat_inj hw hx hy h
  | false =>
    dsimp only at h
    rw [if_neg Bool.false_ne_true, if_neg Bool.false_ne_true, Nat.mod_eq_of_lt hx, Nat.mod_eq_of_lt hy] at h
    exact Int.ofNat.inj h

/-! ### Mask bits that land -/

theorem Hub.maskWrite_cons (h : Hub) (e : Nat) (x : Nat × Bool) (r : List (Nat × Bool)) : h.maskWrite e (x :: r) = (h.maskWrite e [x]).maskWrite e r := rfl

theorem Hub.maskWrite_out {e m i : Nat} {l : List (Nat × Bool)} (hl : ∀ x ∈ l, x.1 < 4096) (hi : i < 4096) (hne : m ≠ e ∨ ∀ x ∈ l, x.1 ≠ i) (h : Hub) :
    (h.maskWrite e l).maskBit m i = h.maskBit m i := by
  induction l generalizing h with
  | nil => rfl
  | cons x r ih =>
    rw [Hub.maskWrite_cons, ih (fun y hy => hl y (.tail _ hy)) (hne.imp_right fun h y hy => h y (.tail _ hy)),
      Hub.maskBit_maskWrite _ _ _ _ _ _ (hl x (.head _)) hi, if_neg]
    rintro ⟨rfl, rfl⟩
    exact hne.elim (fun h => h rfl) fun h => h x (.head _) rfl

theorem Hub.maskWrite_in {e : Nat} {l : List (Nat × Bool)} (hl : ∀ x ∈ l, x.1 < 4096) (hnd : (l.map (·.1)).Nodup) {x : Nat × Bool} (hx : x ∈ l) (h : Hub) :
    (h.maskWrite e l).maskBit e x.1 = (decide (e = 0) || x.2) := by
  induction l generalizing h with
  | nil => exact absurd hx List.not_mem_nil
  | cons y r ih =>
    rw [List.map_cons, List.nodup_cons] at hnd
    rw [Hub.maskWrite_cons]
    obtain rfl | hx' := List.mem_cons.1 hx
    · have hout : ∀ y ∈ r, y.1 ≠ x.1 := fun y hy he => hnd.1 (he ▸ List.mem_map_of_mem hy)
      rw [Hub.maskWrite_out (fun y hy => hl y (.tail _ hy)) (hl x hx) (.inr hout), Hub.maskBit_maskWrite _ _ _ _ _ _ (hl x hx) (hl x hx), if_pos ⟨rfl, rfl⟩]
    · exact ih (fun y hy => hl y (.tail _ hy)) hnd.2 hx' _

theorem Hub.maskWrite_beside (e : Nat) (l : List (Nat × Bool)) (h : Hub) : (h.maskWrite e l).vbytes = h.vbytes ∧ (h.maskWrite e l).s = h.s := by
  induction l generalizing h with
  | nil => exact ⟨rfl, rfl⟩
  | cons x r ih =>
    obtain ⟨hv, hs⟩ := ih (h.maskWrite e [x])
    have hone : (h.maskWrite e [x]).vbytes = h.vbytes ∧ (h.maskWrite e [x]).s = h.s := by
      simp only [Hub.maskWrite]
      split <;> exact ⟨rfl, rfl⟩
    exact ⟨hv.trans hone.1, hs.trans hone.2⟩

/-- Settles O34: the relations rest on the comparison of finite patterns and on the numbers that patterns of w bits are. -/
theorem vectorComparesAndMasks : Obligations.VectorComparesAndMasks := by
  refine ⟨?_, ?_, ?_, ?_, ?_⟩
  · intro s d a b e f g m heng c cmp bit x y
    refine ⟨fun htan => ?_, fun hcc hsel => ?_⟩
    · have ht : s.curTan = none := (State.curTan_of_eng heng).trans htan
      have hcmp : ∀ j rel, exec j s = .next (cmpWord rel e a b m s) → cmp j rel := fun j rel hj =>
        ⟨fun hp => hj.trans (congrArg _ (cmpWord_clean rel e ht hp)), fun i hi => hj.trans (congrArg _ (cmpWord_poisoned rel e ht hi))⟩
      exact ⟨hcmp _ _ (exec_vcmpeq e a b m s), hcmp _ _ (exec_vcmpne e a b m s), hcmp _ _ (exec_vcmplt e a b m s), hcmp _ _ (exec_vcmple e a b m s),
        (exec_vmand e f g s).trans (congrArg _ (maskWord_bits ht e f g _)), (exec_vmor e f g s).trans (congrArg _ (maskWord_bits ht e f g _)),
        (exec_vmxor e f g s).trans (congrArg _ (maskWord_bits ht e f g _)), (exec_vmnot e f s).trans (congrArg _ (maskWord_bits ht e f f _))⟩
    · refine (exec_vsel d a b e m s).trans (congrArg _ ((vecWord_writes _ _ _ _ (tanLegal_two heng hcc hsel) rfl).trans ?_))
      simp only [VCtx.moved, Bool.or_false]
      rfl
  · intro ty x y z h1 h2
    have hty : ∃ w sg, 0 < w ∧ etype ty = .int ⟨w, sg⟩ ∧ (w = if ty < 7 then 32 else if ty < 9 then 16 else 8) ∧ sg = decide (ty % 2 = 1) := by
      interval_cases ty
      · exact ⟨32, true, by decide, rfl, rfl, rfl⟩
      · exact ⟨32, false, by decide, rfl, rfl, rfl⟩
      · exact ⟨16, true, by decide, rfl, rfl, rfl⟩
      · exact ⟨16, false, by decide, rfl, rfl, rfl⟩
      · exact ⟨8, true, by decide, rfl, rfl, rfl⟩
      · exact ⟨8, false, by decide, rfl, rfl, rfl⟩
    obtain ⟨w, sg, hw, het, hweq, hsg⟩ := hty
    dsimp only
    rw [← hweq, het]
    intro hx hy
    have hv : ∀ x, (ITy.mk w sg).decode x = if ty % 2 = 1 then sextNat x w else ((x % 2 ^ w : Nat) : Int) := fun x => by
      unfold ITy.decode
      rw [hsg]
      simp only [decide_eq_true_eq]
    have h := int_holds (t := ⟨w, sg⟩) z (iTy_decode_inj sg hw hx hy)
    rw [hv, hv] at h
    exact h
  · intro x y z hx hy v
    obtain ⟨hfx, hvx⟩ := fp32_flush hx z
    obtain ⟨hfy, hvy⟩ := fp32_flush hy z
    have heq : fp32.eq (fp32.flush z x) (fp32.flush z y) = decide (v x = v y) := by rw [fp32_eq_iff hfx hfy, hvx, hvy]
    refine ⟨heq, ?_, ?_, ?_⟩
    · show (!fp32.eq (fp32.flush z x) (fp32.flush z y)) = _
      rw [heq, decide_not]
    · show fp32.lt (fp32.flush z x) (fp32.flush z y) = _
      rw [fp32_lt_iff hfx hfy, hvx, hvy]
    · show fp32.le (fp32.flush z x) (fp32.flush z y) = _
      rw [fp32_le_iff hfx hfy, hvx, hvy]
  · intro x y rel z hnan hrel
    have hcmp : (fp32.decode (fp32.flush z x)).cmp (fp32.decode (fp32.flush z y)) = none := by
      obtain h | h := hnan
      · rw [decode_flush_nan h, Real'.nan_cmp]
      · rw [decode_flush_nan h, Real'.cmp_nan]
    have heq : fp32.eq (fp32.flush z x) (fp32.flush z y) = false := by rw [Fmt.eq, hcmp]; rfl
    have hlt : fp32.lt (fp32.flush z x) (fp32.flush z y) = false := by rw [Fmt.lt, hcmp]; rfl
    have hle : fp32.le (fp32.flush z x) (fp32.flush z y) = false := by rw [Fmt.le, hlt, heq]; rfl
    interval_cases rel
    · exact heq
    · exact congrArg Bool.not heq
    · exact hlt
    · exact hle
  · intro h e l hnd hl
    obtain ⟨hv, hs⟩ := Hub.maskWrite_beside e l h
    exact ⟨fun x hx => Hub.maskWrite_in hl hnd hx h, fun m i hi hne => Hub.maskWrite_out hl hi hne h, hv, hs⟩

end Sys2Proof.Machine
end

section
/-! SUPPORT. Vector words without a TAN: permutes, random numbers, tangent moves (R404, R407, R414). -/

namespace Sys2Proof.Machine

open Sys2Proof

/-! ### Moves -/

section WithoutTan

variable {s : State} (heng : s.cur.eng = 1) (htan : s.curHub.tan = none)

include heng htan

/-- A word without a TAN issues under an ETYPE that it takes. -/
theorem vecWord_plain {ety : Nat → Bool} (tan : Option TanOk) (m l : Nat) (ds : List Nat) (f : VCtx → List VWrite)
    (he : ety s.curHub.shape.ety = true) : vecWord tan ety m l ds f s = afterWord s l (.vec (f s.vctx)) :=
  vecWord_writes m l ds f (by rw [State.curTan_of_eng heng, htan]; rfl) he

omit heng in
theorem vctx_tan : s.vctx.tan = {} := by
  show s.curHub.tan.getD {} = {}
  rw [htan]
  rfl

omit heng in
/-- Without a TAN an element moves with its value, its poison and its tangents. -/
theorem moved_plain (r j i : Nat) (p : Bool) : s.vctx.moved s.vctx.tan.ca r j i p =
    ⟨i, s.vctx.get 0 r j, s.vctx.pois r j || p, s.vctx.ks.map fun t => s.vctx.get t r j⟩ := by
  unfold VCtx.moved VCtx.src VCtx.plane
  rw [vctx_tan htan]
  rfl

/-- A permute without a TAN, by the index that each element takes. -/
theorem permWord_plain {f : VCtx → Nat → Option Nat × Bool} {ix : Nat → Int} (d a : R5) (m : BitVec 3)
    (hf : ∀ i, (f s.vctx i).1 = if ix i < 0 then none else some (ix i).toNat) :
    permWord f d a m s = afterWord s 6 (.vec (s.vctx.emit d.toNat ((s.vctx.actives m.toNat).map fun i =>
      if 0 ≤ ix i ∧ ix i < s.vctx.vl then
        ⟨i, s.vctx.get 0 a.toNat (ix i).toNat, s.vctx.pois a.toNat (ix i).toNat || (f s.vctx i).2, s.vctx.ks.map fun t => s.vctx.get t a.toNat (ix i).toNat⟩
      else ⟨i, 0, (f s.vctx i).2, s.vctx.ks.map fun _ => 0⟩))) := by
  unfold permWord
  rw [vecWord_plain heng htan _ _ _ _ _ rfl]
  refine congrArg (fun es => afterWord s 6 (.vec (s.vctx.emit d.toNat es))) (List.map_congr_left fun i _ => ?_)
  dsimp only
  rw [hf i]
  by_cases h0 : ix i < 0
  · rw [if_pos h0, if_neg (show ¬(0 ≤ ix i ∧ ix i < s.vctx.vl) from fun h => h0.not_ge h.1)]
    rfl
  · rw [if_neg h0]
    dsimp only
    rw [moved_plain htan]
    exact if_congr (by omega) rfl rfl

end WithoutTan

/-! ### Random numbers -/

theorem philoxRound_lt {x : Nat × Nat × Nat × Nat} {y z : Nat} (h0 : x.1 < 2 ^ 32) (h1 : x.2.1 < 2 ^ 32) (h2 : x.2.2.1 < 2 ^ 32)
    (h3 : x.2.2.2 < 2 ^ 32) (hy : y < 2 ^ 32) (hz : z < 2 ^ 32) : (philoxRound x y z).1 < 2 ^ 32 ∧ (philoxRound x y z).2.1 < 2 ^ 32 ∧
      (philoxRound x y z).2.2.1 < 2 ^ 32 ∧ (philoxRound x y z).2.2.2 < 2 ^ 32 := by
  have high : ∀ c u : Nat, c < 2 ^ 32 → u < 2 ^ 32 → c * u / 2 ^ 32 < 2 ^ 32 := fun c u hc hu =>
    Nat.div_lt_of_lt_mul (Nat.mul_lt_mul'' hc hu)
  have low : ∀ u : Nat, u % 2 ^ 32 < 2 ^ 32 := fun u => Nat.mod_lt u (by positivity)
  dsimp only [philoxRound]
  exact ⟨Nat.xor_lt_two_pow (Nat.xor_lt_two_pow (high _ _ (by decide) h2) h1) hy, low _,
    Nat.xor_lt_two_pow (Nat.xor_lt_two_pow (high _ _ (by decide) h0) h3) hz, low _⟩

theorem philox_succ (n : Nat) : philox (n + 1) = fun x y0 y1 =>
    philox n (philoxRound x y0 y1) ((y0 + 0x9E3779B9) % 2 ^ 32) ((y1 + 0xBB67AE85) % 2 ^ 32) := rfl

/-- A word of a Philox block is a number of 32 bits. -/
theorem wordOf_philox_lt (n : Nat) (x : Nat × Nat × Nat × Nat) (y z i : Nat) (h0 : x.1 < 2 ^ 32) (h1 : x.2.1 < 2 ^ 32) (h2 : x.2.2.1 < 2 ^ 32)
    (h3 : x.2.2.2 < 2 ^ 32) (hy : y < 2 ^ 32) (hz : z < 2 ^ 32) : wordOf (philox n x y z) i < 2 ^ 32 := by
  induction n generalizing x y z with
  | zero =>
    unfold philox
    match i with
    | 0 => exact h0
    | 1 => exact h1
    | 2 => exact h2
    | _ + 3 => exact h3
  | succ n ih =>
    obtain ⟨k0, k1, k2, k3⟩ := philoxRound_lt h0 h1 h2 h3 hy hz
    have low : ∀ u : Nat, u % 2 ^ 32 < 2 ^ 32 := fun u => Nat.mod_lt u (by positivity)
    rw [philox_succ]
    exact ih _ _ _ k0 k1 k2 k3 (low _) (low _)

/-! ### A move reads back -/

theorem etype_bytes_pos (n : Nat) : 0 < (etype n).bytes := by
  unfold etype
  split <;> decide

theorem vregBytes_le (k : Config.Kind) : vregBytes k ≤ 4096 := by
  cases k <;> decide

/-- An active element lies within its register. -/
theorem active_in_register {s : State} {m i : Nat} (hi : i ∈ s.vctx.actives m) : (i + 1) * s.vctx.w ≤ 4096 := by
  have hvl : i < s.vctx.vl := List.mem_range.1 (List.mem_of_mem_filter hi)
  have hn : i + 1 ≤ vregBytes (s.kind s.cur.die) / s.vctx.w := hvl.trans_le (Nat.min_le_right _ _)
  exact ((Nat.mul_le_mul_right _ hn).trans (Nat.div_mul_le_self _ _)).trans (vregBytes_le _)

theorem elem_lt (h : Hub) (j r off w : Nat) : h.elem j r off w < 2 ^ (8 * w) := by
  unfold Hub.elem
  split
  · positivity
  · refine (leNat_lt _).trans_eq ?_
    unfold Hub.vbytesAt
    rw [List.length_map, List.length_range]

/-- A vector write that comes about acts on the hub at hand. -/
theorem vec_lands {s t : State} {l : Nat} {ws : List VWrite} (ht : t.cur = s.cur) :
    (t.land (dueOf s l (.vec ws))).curHub = t.curHub.vwriteAll ws := by
  show ((t.hubDo s.cur.die s.cur.hub fun h => h.vwriteAll ws).hub t.cur.die t.cur.hub) = _
  rw [State.hub_hubDo, if_pos (by rw [ht])]
  unfold State.curHub
  rw [ht]

/-- Settles O36: a permute is read off its index by element; what VBCAST writes reads back by the law of emitted elements. -/
theorem vectorMoves : Obligations.VectorMoves := by
  refine ⟨?_, wordOf_philox_lt, by decide, ?_⟩
  · intro s d a b e m heng htan c word out perm hp
    refine ⟨?_, ?_, ?_, ?_, ?_, ?_⟩
    · exact congrArg _ (permWord_plain (f := fun c i => (some (c.get 0 b.toNat i), c.pois b.toNat i)) heng htan d a m fun i => rfl)
    · exact congrArg _ (permWord_plain heng htan d a m fun i => rfl)
    · exact congrArg _ (permWord_plain (f := fun c _ => (some (c.head b.toNat), c.h.elemPois b.toNat 0 4)) heng htan d a m fun i => rfl)
    · intro hty
      refine congrArg _ (vecWord_plain heng htan none _ _ _ _ ?_)
      obtain h | h | h := hty
      · exact congrArg (fun t => t == 0 || t == 5 || t == 6) h
      · exact congrArg (fun t => t == 0 || t == 5 || t == 6) h
      · exact congrArg (fun t => t == 0 || t == 5 || t == 6) h
    · exact congrArg _ (vecWord_plain heng htan none _ _ _ _ rfl)
    · exact congrArg _ (vecWord_plain heng htan none _ _ _ _ rfl)
  · intro s d a b m heng htan hhub heng1 c j hhead hj hpois
    have hsel : c.tan.sel = 0 := congrArg Tan.sel (vctx_tan htan)
    have hw : 0 < c.w := etype_bytes_pos _
    have hword := permWord_plain (f := fun c _ => (some (c.head b.toNat), c.h.elemPois b.toNat 0 4)) (ix := fun _ => (j : Int)) heng htan d a m
      fun i => rfl
    have hcond : 0 ≤ (j : Int) ∧ (j : Int) < c.vl := by omega
    simp only [show (0 ≤ (j : Int) ∧ (j : Int) < s.vctx.vl) = True from eq_true hcond, if_true, Int.toNat_natCast] at hword
    have hex : exec (.vbcast d a b m) s = .next _ := congrArg Host.Outcome.next hword
    refine ⟨_, _, hex, rfl, fun i hi => ?_⟩
    have hv : c.get 0 a.toNat j = c.h.elem 0 a.toNat (j * c.w) c.w := if_neg (Nat.not_lt_zero _)
    have hes := emit_elem (es := (c.actives m.toNat).map fun i => ⟨i, c.get 0 a.toNat j, c.pois a.toNat j || c.h.elemPois b.toNat 0 4,
      c.ks.map fun t => c.get t a.toNat j⟩) (d := d.toNat) hsel d.isLt (by
        rw [List.map_map]
        exact (List.map_id (c.actives m.toNat)).symm ▸ List.Nodup.filter _ List.nodup_range) (by
        intro e he
        obtain ⟨k, hk, rfl⟩ := List.mem_map.1 he
        exact active_in_register hk) hw (List.mem_map_of_mem hi)
        (List.mem_flatMap.2 ⟨_, List.mem_map_of_mem hi, (mem_writes hsel).2 (.inl rfl)⟩) (.inr rfl)
    rw [vec_lands (s := s) (t := afterWord s 6 _) rfl]
    refine (hes _).trans ?_
    dsimp only
    rw [hpois, hhead, Bool.or_self, if_neg Bool.false_ne_true, hv, Nat.mod_eq_of_lt (elem_lt ..)]

end Sys2Proof.Machine
end

section
/-! SUPPORT. Vector loads and stores, the shape words, TAN and VNOP; effects that a word lists (R405 to R411). -/

namespace Sys2Proof.Machine

open Sys2Proof

/-! ### Vector memory and shape -/

section Lists

variable {s : State} (heng : s.cur.eng = 1) (htan : s.curHub.tan = none)

include heng htan

theorem curTan_none : s.curTan = none := (State.curTan_of_eng heng).trans htan

theorem execVld_samples {d a : R5} {o : BitVec 15} {as : List Nat} (hp : s.curHub.elemPois a.toNat 0 4 = false) (hn : 0 < s.vctx.vl * s.vctx.w)
    (h : s.vecAddrs .read (s.curHub.elem 0 a.toNat 0 4 + 64 * o.toNat) (s.vctx.vl * s.vctx.w) s.vctx.ks = .ok as) :
    execVld d a o s = .next (afterWord s 2 (.sample (as.headD 0) (s.vctx.vl * s.vctx.w)
      (.vec s.cur.die s.cur.hub d.toNat s.vctx.w s.vctx.vl as 0 ((s.die s.cur.die).cad + 5)))) := by
  have hca : s.vctx.tan.ca = false := congrArg Tan.ca (vctx_tan htan)
  have hh : s.vctx.h = s.curHub := rfl
  unfold execVld
  dsimp only
  rw [curTan_none heng htan, hh, hp, hca, if_neg (by exact Bool.false_ne_true), if_neg Bool.false_ne_true, if_neg hn.ne', if_neg Bool.false_ne_true, h,
    if_neg Bool.false_ne_true]
  rfl

end Lists

/-- An effect of the word at hand stands in the agenda, with some place in the issue order. -/
def Listed (s : State) (l : Nat) (a : Act) (t : State) : Prop := ∃ q, { dueOf s l a with seq := q } ∈ t.agenda

theorem Listed.mem {s t : State} {l : Nat} {a : Act} (h : Listed s l a t) : dueOf s l a ∈ t.agenda.map fun u => { u with seq := s.seq } := by
  obtain ⟨q, hq⟩ := h
  exact List.mem_map.2 ⟨_, hq, rfl⟩

/-- The word at hand lists an effect. -/
theorem listed_later (s : State) (l : Nat) (a : Act) : Listed s l a (s.later l a) := ⟨s.seq, .head _⟩

theorem Listed.later {s t : State} {l : Nat} {a : Act} (h : Listed s l a t) (k : Nat) (b : Act) : Listed s l a (t.later k b) := by
  obtain ⟨q, hq⟩ := h
  exact ⟨q, .tail _ hq⟩

theorem Listed.laterAll {s t : State} {l : Nat} {a : Act} (h : Listed s l a t) (xs : List (Nat × Act)) : Listed s l a (t.laterAll xs) := by
  induction xs generalizing t with
  | nil => exact h
  | cons x r ih => exact ih (h.later _ _)

/-- A word's effects are all listed. -/
theorem listed_laterAll (s : State) {xs : List (Nat × Act)} {x : Nat × Act} (hx : x ∈ xs) : Listed s x.1 x.2 (s.laterAll xs) := by
  induction xs generalizing s with
  | nil => exact absurd hx List.not_mem_nil
  | cons y r ih =>
    obtain rfl | hx := List.mem_cons.1 hx
    · exact (listed_later s _ _).laterAll r
    · obtain ⟨q, hq⟩ := ih (s.later y.1 y.2) hx
      exact ⟨q, hq⟩

/-- An operation counts as issued, and nothing else of its hub's timelines changes. -/
theorem issued_issueOp (s : State) : ((s.issueOp).curHub.timeline (timelineOf s.cur.eng)).issued = (s.curHub.timeline (timelineOf s.cur.eng)).issued + 1 := by
  have hhub : s.issueOp.curHub = s.curHub.issueOp (timelineOf s.cur.eng) := SMap.get_put_self ..
  rw [hhub]
  exact congrArg Timeline.issued (SMap.get_put_self ..)

theorem timeline_retire (s : State) (w c q : Nat) : (s.retire w c).curHub.timeline q = s.curHub.timeline q := by
  have hhub : (s.retire w c).curHub = _ := SMap.get_put_self ..
  rw [hhub]
  rfl

/-- The state that VST leaves, from the writes of its planes. -/
def vstLeaves (s : State) (d : R5) (as : List Nat) : State := ((((s.laterAll (s.vctx.stores d.toNat as)).endOpAt 3 1 s.nextOp).issueOp).retire 1 1)

theorem mem_stores {c : VCtx} {d : Nat} {as : List Nat} {q y : Nat} (h : as[q]? = some y) :
    (3, Act.write y (((List.range c.vl).map fun i => leBytes c.w (c.get q d i)).flatten) false) ∈ c.stores d as :=
  List.mem_flatMap.2 ⟨(y, q), List.mem_zipIdx_iff_getElem?.2 h, .head _⟩

theorem vstLeaves_spec {s : State} (heng : s.cur.eng = 1) (d : R5) (as : List Nat) :
    (∀ x ∈ s.vctx.stores d.toNat as, Listed s x.1 x.2 (vstLeaves s d as)) ∧
    ((vstLeaves s d as).curHub.timeline 1).issued = (s.curHub.timeline 1).issued + 1 ∧
    Listed s 3 (.opEnd 1 ((s.curHub.timeline 1).issued + 1)) (vstLeaves s d as) ∧ SameMemory s (vstLeaves s d as) := by
  obtain ⟨u, hu⟩ : ∃ u, u = s.laterAll (s.vctx.stores d.toNat as) := ⟨_, rfl⟩
  have hnext : s.nextOp = (s.curHub.timeline 1).issued + 1 := by
    unfold State.nextOp
    rw [heng]
    rfl
  have hcur : u.cur = s.cur := by rw [hu]; simp
  have hhub : u.curHub = s.curHub := by
    unfold State.curHub
    rw [hcur, hu]
    simp
  have hdue : ∀ l a, { dueOf u l a with seq := s.seq } = dueOf s l a := fun l a => by
    unfold dueOf State.wordDetail State.wordIdx State.curTan State.curEng
    rw [hhub, hcur, hu]
    simp
  have hag : (vstLeaves s d as).agenda = (u.later 3 (.opEnd 1 s.nextOp)).agenda := by rw [hu]; rfl
  refine ⟨fun x hx => ?_, ?_, ?_, SameMemory.of_eq (by simp [vstLeaves])⟩
  · obtain ⟨q, hq⟩ := (hu ▸ listed_laterAll s hx : Listed s x.1 x.2 u).later 3 (.opEnd 1 s.nextOp)
    exact ⟨q, hag ▸ hq⟩
  · unfold vstLeaves
    rw [timeline_retire, ← hu]
    have h := issued_issueOp (u.endOpAt 3 1 s.nextOp)
    have htl : timelineOf (u.endOpAt 3 1 s.nextOp).cur.eng = 1 := by
      rw [show (u.endOpAt 3 1 s.nextOp).cur = s.cur from hcur, heng]
      rfl
    rw [htl, show (u.endOpAt 3 1 s.nextOp).curHub = s.curHub from hhub] at h
    exact h
  · obtain ⟨q, hq⟩ := listed_later u 3 (.opEnd 1 s.nextOp)
    refine ⟨q, ?_⟩
    rw [hag, ← hdue, ← hnext]
    exact hq

theorem execVst_stores {s : State} (heng : s.cur.eng = 1) (htan : s.curHub.tan = none) {d a : R5} {o : BitVec 15} {as : List Nat}
    (hp : s.curHub.elemPois a.toNat 0 4 = false) (hn : 0 < s.vctx.vl * s.vctx.w)
    (h : s.vecAddrs .write (s.curHub.elem 0 a.toNat 0 4 + 64 * o.toNat) (s.vctx.vl * s.vctx.w) s.vctx.ks = .ok as) :
    execVst d a o s = .next (vstLeaves s d as) := by
  have hca : s.vctx.tan.ca = false := congrArg Tan.ca (vctx_tan htan)
  have hh : s.vctx.h = s.curHub := rfl
  unfold execVst
  dsimp only
  rw [curTan_none heng htan, hh, hp, hca, if_neg (by exact Bool.false_ne_true), if_neg Bool.false_ne_true, if_neg hn.ne', if_neg Bool.false_ne_true, h]
  rfl

/-- Settles O37: without a TAN each word takes its one branch; the writes of a VST are all listed. -/
theorem vectorMemoryAndShape : Obligations.VectorMemoryAndShape := by
  intro s d a o t f g l n x i j k heng htan c p z e
  have ht : s.curTan = none := curTan_none heng htan
  have hsome : ¬ s.curTan.isSome = true := by rw [ht]; exact Bool.false_ne_true
  refine ⟨fun as hp hn => ⟨fun h => execVld_samples heng htan hp hn h, fun h => ?_⟩, ?_, fun hp h1 h2 h3 => ?_, ?_, fun hpos => ?_⟩
  · obtain ⟨hst, hissued, hend, hmem⟩ := vstLeaves_spec heng d as
    exact ⟨_, execVst_stores heng htan hp hn h, fun q y hy => (hst _ (mem_stores hy)).mem, hissued, hend.mem, hmem⟩
  · show execShape t f g l s = _
    unfold execShape
    rw [if_neg hsome]
    rfl
  · show execShaper a s = _
    unfold execShaper
    dsimp only
    rw [if_neg hsome, if_neg (show ¬ s.vctx.h.elemPois a.toNat 0 4 = true by rw [show s.vctx.h.elemPois a.toNat 0 4 = false from hp]; exact Bool.false_ne_true),
      show s.vctx.head a.toNat = p from rfl]
    exact if_neg (by omega)
  · show execVnop n s = _
    unfold execVnop
    rw [if_neg hsome]
    rfl
  · have hex : execTan x i j k s = .next (s.setCurHub { s.curHub.setStream s.cur.eng { s.curHub.stream s.cur.eng with
        pos := (s.curHub.stream s.cur.eng).pos + 1 } with tan := some ⟨x.toNat, decide (i = 1), decide (j = 1), decide (k = 1)⟩ }) := by
      have hlen : ¬ (s.curHub.segment 1 (s.curEng.seg.getD 0)).2 ≤ s.curEng.pos + 1 := by
        unfold State.curEng
        rw [heng]
        exact Nat.not_le.2 hpos
      unfold execTan
      dsimp only
      rw [if_neg hsome, if_neg hlen]
      rfl
    rw [heng] at hex
    refine ⟨_, hex, ?_⟩
    have hhub : ∀ h, (s.setCurHub h).curHub = h := fun h => SMap.get_put_self ..
    rw [hhub]
    have hstream : ∀ u : Eng, SMap.get {} (SMap.put s.curHub.streams 1 u) 1 = u := fun u => SMap.get_put_self ..
    exact ⟨rfl, congrArg Eng.pos (hstream _), (congrArg Eng.next (hstream _)).trans rfl, ⟨rfl, rfl, rfl, rfl⟩⟩

end Sys2Proof.Machine
end

section
/-! SUPPORT. Exact zeros, square roots and integer parts of FP32 (R298 to R302, R347). -/

namespace Sys2Proof.Machine

open Sys2Proof

/-! ### Exact zeros, square roots and integer parts -/

/-- An exact zero rounds to zero. -/
theorem roundMag_zero (f : Fmt) (rm : Nat) (neg : Bool) (e : Int) : f.roundMag rm neg 0 e false = 0 := by
  unfold Fmt.roundMag
  dsimp only
  rw [if_pos rfl, Int.sub_self, Int.toNat_zero, Nat.zero_mul, Nat.zero_add]
  split
  · rw [Nat.zero_mul, if_neg Bool.false_ne_true, roundsUp_exact neg (by decide), if_neg Bool.false_ne_true]
  · rw [Nat.zero_div, Nat.zero_mod, roundsUp_exact neg (by positivity), if_neg Bool.false_ne_true]

theorem round_zero (f : Fmt) (o : Ovf) (rm : Nat) (neg : Bool) (e : Int) : f.round o rm (.num neg 0 e false) = f.signed neg 0 := by
  unfold Fmt.round
  dsimp only
  rw [roundMag_zero, if_neg (Nat.not_lt_zero _)]

/-- A negative number that is not 0 has no square root. -/
theorem sqrt_negative {x : Nat} (h : 2 ^ 31 < x) (h' : x ≤ 0xFF800000) : (fp32.decode x).sqrt = .nan := by
  by_cases hx : x = 0xFF800000
  · rw [hx]
    decide
  · have hfin : fp32Finite x := ⟨by omega, by omega⟩
    have hm : fp32Mant (x % 2 ^ 31) ≠ 0 := by
      unfold fp32Mant
      split <;> omega
    rw [decode_fp32_finite hfin, decide_eq_true (show 2 ^ 31 ≤ x by omega)]
    unfold Real'.sqrt
    dsimp only
    rw [if_neg hm, if_pos rfl]

/-- The integer part of a finite value, towards zero. -/
theorem roundInt_towards_zero (neg : Bool) (m : Nat) (k : Nat) :
    roundInt 1 neg m ((k : Int) - 149) = ((if neg then -1 else 1) * ((m * 2 ^ k : Nat) : Int)).tdiv (2 ^ 149) := by
  have hmag : (if 0 ≤ (k : Int) - 149 then m * 2 ^ ((k : Int) - 149).toNat else
      (if roundsUp 1 neg (m / 2 ^ (-((k : Int) - 149)).toNat) (m % 2 ^ (-((k : Int) - 149)).toNat) (2 ^ ((-((k : Int) - 149)).toNat - 1)) false
        then m / 2 ^ (-((k : Int) - 149)).toNat + 1 else m / 2 ^ (-((k : Int) - 149)).toNat)) = m * 2 ^ k / 2 ^ 149 := by
    split
    · rename_i h
      obtain ⟨j, rfl⟩ : ∃ j, k = 149 + j := ⟨k - 149, by omega⟩
      rw [show (((149 + j : Nat) : Int) - 149).toNat = j by omega, Nat.pow_add, ← Nat.mul_assoc, Nat.mul_right_comm, Nat.mul_div_cancel _ (by positivity)]
    · rename_i h
      obtain ⟨j, hj⟩ : ∃ j, 149 = k + j := ⟨149 - k, by omega⟩
      rw [show ∀ r rem half : Nat, roundsUp 1 neg r rem half false = false from fun _ _ _ => rfl, if_neg Bool.false_ne_true, show (-((k : Int) - 149)).toNat = j by omega, hj, Nat.pow_add, Nat.mul_comm m,
        Nat.mul_div_mul_left _ _ (by positivity)]
  unfold roundInt
  dsimp only
  rw [hmag]
  have hdiv : ((m * 2 ^ k : Nat) : Int).tdiv (2 ^ 149) = ((m * 2 ^ k / 2 ^ 149 : Nat) : Int) := by
    rw [show (2 : Int) ^ 149 = ((2 ^ 149 : Nat) : Int) by norm_num]
    exact Int.ofNat_tdiv _ _
  cases neg
  · rw [if_neg Bool.false_ne_true, if_neg Bool.false_ne_true, one_mul, hdiv]
  · rw [if_pos rfl, if_pos rfl, neg_one_mul, Int.neg_tdiv, hdiv]

theorem fp32_ofReal_towards_zero {x : Nat} (hx : fp32Finite x) :
    ITy.ofReal ⟨64, true⟩ 1 (fp32.decode x) = ITy.clamp ⟨64, true⟩ ((fp32Value x).tdiv (2 ^ 149)) := by
  rw [decode_fp32_finite hx, fp32Value_eq hx, ← roundInt_towards_zero]
  rfl

/-- An integer in the range of S64 is not clamped. -/
theorem clamp_s64 {v : Int} (h : |v| < 2 ^ 63) : ITy.clamp ⟨64, true⟩ v = wrapInt v 64 := by
  obtain ⟨h1, h2⟩ := abs_lt.1 h
  have hmin : ITy.minVal ⟨64, true⟩ = -(2 ^ 63) := by decide
  have hmax : ITy.maxVal ⟨64, true⟩ = 2 ^ 63 - 1 := by decide
  unfold ITy.clamp
  rw [hmin, hmax, if_neg (by omega), if_neg (by omega)]

theorem tdiv_lt {v : Int} (h : |v| < 2 ^ 212) : |v.tdiv (2 ^ 149)| < 2 ^ 63 := by
  rw [Int.abs_eq_natAbs, Int.natAbs_tdiv]
  rw [Int.abs_eq_natAbs] at h
  have h' : v.natAbs < 2 ^ 212 := by exact_mod_cast h
  have : v.natAbs / 2 ^ 149 < 2 ^ 63 := Nat.div_lt_of_lt_mul (by rw [← Nat.pow_add]; exact h')
  exact_mod_cast this

/-- Each operation of two values, rounded once where the exact result is not 0. -/
theorem fp32_rounded {rm x y : Nat} (hrm : rm < 4) (hx : fp32Finite x) (hy : fp32Finite y) :
    ((fp32Value x : ℚ) + fp32Value y ≠ 0 → RoundedOnce rm (fp32Value x + fp32Value y) (fp32.add rm x y)) ∧
    ((fp32Value x : ℚ) - fp32Value y ≠ 0 → RoundedOnce rm (fp32Value x - fp32Value y) (fp32.sub rm x y)) ∧
    ((fp32Value x : ℚ) * fp32Value y ≠ 0 → RoundedOnce rm (fp32Value x * fp32Value y / 2 ^ 149) (fp32.mul rm x y)) ∧
    ((fp32Value x : ℚ) ≠ 0 → (fp32Value y : ℚ) ≠ 0 → RoundedOnce rm (fp32Value x / fp32Value y * 2 ^ 149) (fp32.div rm x y)) := by
  have ha := decode_exact hx
  have hb := decode_exact hy
  have hu := decode_units hx
  have hv := decode_units hy
  refine ⟨fun h => ?_, fun h => ?_, fun h => ?_, fun h h' => ?_⟩
  · obtain ⟨he, hs⟩ := ha.add rm hb
    exact he.rounded hrm (by rw [hs, hu, hv]) h
  · obtain ⟨hn, hns⟩ := hb.negate
    obtain ⟨he, hs⟩ := ha.add rm hn
    exact he.rounded hrm (by rw [hs, hu, hns, hv, sub_eq_add_neg]) h
  · obtain ⟨he, hs⟩ := ha.mul hb
    exact he.rounded hrm (by rw [hs, hu, hv]) (div_ne_zero h (by positivity))
  · have hd := Real'.Exact.div hrm ha hb (by rw [hu]; exact h) (by rw [hv]; exact h')
    rw [hu, hv] at hd
    exact hd

/-- A NaN operand gives the canonical NaN, and false compares. -/
theorem fp32_nan_operand {x y : Nat} (rm : Nat) (h : 0x7F800000 < x % 2 ^ 31 ∨ 0x7F800000 < y % 2 ^ 31) :
    fp32.add rm x y = 0x7FC00000 ∧ fp32.sub rm x y = 0x7FC00000 ∧ fp32.mul rm x y = 0x7FC00000 ∧ fp32.div rm x y = 0x7FC00000 ∧
    fp32.minmax false x y = 0x7FC00000 ∧ fp32.minmax true x y = 0x7FC00000 ∧
    fp32.eq x y = false ∧ fp32.lt x y = false ∧ fp32.le x y = false := by
  have hnan : fp32.nan = 0x7FC00000 := by decide
  unfold Fmt.add Fmt.sub Fmt.mul Fmt.div Fmt.minmax Fmt.pick Fmt.le Fmt.eq Fmt.lt
  obtain h | h := h
  · rw [decode_fp32_nan h]
    simp [hnan]
  · rw [decode_fp32_nan h]
    simp [hnan]

/-- Settles O13: a sum, difference, product or quotient is an exact value, or 128 bits and a sticky bit of one, which roundMag rounds once. -/
theorem scalarFloatForms : Obligations.ScalarFloatForms := by
  refine ⟨?_, ?_, ?_, ?_⟩
  · intro s d a b e r x y p out cmp
    have hx : x < 2 ^ 32 := Nat.mod_lt _ (by positivity)
    have hy : y < 2 ^ 32 := Nat.mod_lt _ (by positivity)
    have hlo : ∀ v, v < 2 ^ 32 → ofLo32 v = BitVec.ofNat 64 v := fun v hv => by
      unfold ofLo32
      rw [Nat.mod_eq_of_lt hv]
    have two : ∀ (j : Instr) (f : Nat → Nat → Nat), f x y < 2 ^ 32 → exec j s = .next (fpOp d a b f s) → out j (f x y) p :=
      fun j f hf hj => ⟨hf, hj.trans (aluOp_out _ _ _ _ _ _ _ (hlo _ hf))⟩
    have one : ∀ (j : Instr) (f : W64 → Nat), f (s.readS a).v < 2 ^ 32 → exec j s = .next (aluImm d a 4 (fun x => ofLo32 (f x)) s) →
        out j (f (s.readS a).v) (s.readS a).p := fun j f hf hj => ⟨hf, hj.trans (aluImm_out _ _ _ _ _ _ (hlo _ hf))⟩
    exact ⟨two _ _ (fp32_round_lt ..) (exec_sfadd d a b r s), two _ _ (fp32_round_lt ..) (exec_sfsub d a b r s),
      two _ _ (fp32_round_lt ..) (exec_sfmul d a b r s), two _ _ (fp32_round_lt ..) (exec_sfdiv d a b r s),
      one _ (fun x => fp32.sqrt r.toNat (lo32 x)) (fp32_round_lt ..) (exec_sfsqrt d a r s), two _ _ (fp32_minmax_lt _ hx hy) (exec_sfmin d a b s),
      two _ _ (fp32_minmax_lt _ hx hy) (exec_sfmax d a b s), rfl, rfl, rfl, rfl,
      one _ (fun x => fp32.round .sat r.toNat (ofInt x.toInt 0 false)) (fp32_round_lt ..) (exec_sfcvtf d a r s)⟩
  · intro rm x y hrm hx hy u v
    obtain ⟨hadd, hsub, hmul, hdiv⟩ := fp32_rounded hrm hx hy
    obtain ⟨hmin, hmax⟩ := fp32_minmax hx hy
    refine ⟨hadd, hsub, hmul, hdiv, ?_, ?_, ?_, ?_, ?_, fun h => ?_⟩
    · rw [fp32_eq_iff hx hy]
      exact decide_eq_decide.2 Int.cast_inj.symm
    · rw [fp32_lt_iff hx hy]
      exact decide_eq_decide.2 Int.cast_lt.symm
    · rw [fp32_le_iff hx hy]
      exact decide_eq_decide.2 Int.cast_le.symm
    · rw [hmin]
      exact if_congr Int.cast_lt.symm rfl rfl
    · rw [hmax]
      exact if_congr Int.cast_lt.symm rfl rfl
    · rw [fp32_ofReal_towards_zero hx]
      have h' : |(fp32Value x : ℚ)| < 2 ^ 212 := h
      exact clamp_s64 (tdiv_lt (by exact_mod_cast h'))
  · intro rm x y h
    obtain ⟨h1, h2, h3, h4, h5, h6, h7, h8, h9⟩ := fp32_nan_operand rm h
    refine ⟨h1, h2, h3, h4, h5, h6, h7, h8, h9, fun hx => ?_⟩
    unfold Fmt.sqrt
    rw [decode_fp32_nan hx]
    exact ⟨show fp32.nan = 0x7FC00000 by decide, rfl⟩
  · intro rm x
    refine ⟨fun h => ?_, ?_, ?_, ?_⟩
    · unfold Fmt.sqrt
      rw [sqrt_negative h.1 h.2, Fmt.round_nan]
      decide
    · unfold Fmt.sqrt
      rw [show (fp32.decode (2 ^ 31)).sqrt = .num true 0 0 false by decide, round_zero]
      decide
    · unfold Fmt.sqrt
      rw [show (fp32.decode 0).sqrt = .num false 0 0 false by decide, round_zero]
      decide
    · unfold Fmt.sqrt
      rw [show (fp32.decode 0x7F800000).sqrt = .inf false by decide]
      rfl

end Sys2Proof.Machine
end

section
/-! SUPPORT. Vector FP words, their tangents, and the special inputs of the five formats (R292 to R303, R314 to R316, R392 to R394). -/

namespace Sys2Proof.Machine

open Sys2Proof

/-! ### Special inputs of the five formats -/

/-- The formats of the vector engine. -/
def vecFormats : List Fmt := [fp32, bf16, fp16, e4m3, e5m2]
/-- The infinity of a format, or the largest finite magnitude of E4M3 in its place (R292, R300). -/
def Fmt.infMag (f : Fmt) : Nat := if f = e4m3 then 0x7E else (2 ^ f.e - 1) * 2 ^ f.m
/-- The magnitude of 1. -/
def Fmt.oneMag (f : Fmt) : Nat := (2 ^ (f.e - 1) - 1) * 2 ^ f.m
/-- The canonical NaN of a format of the vector engine. -/
def Fmt.nanMag (f : Fmt) : Nat := if f = e4m3 then 0x7F else f.infMag + 2 ^ (f.m - 1)
/-- The functions of one operand. -/
def Fmt.unary (f : Fmt) (rm : Nat) : List (Nat → Nat) :=
  [f.sqrt rm, f.recip rm, f.rsqrt rm, fun x => f.exp2 rm (f.decode x), fun x => f.log2 rm (f.decode x), fun x => f.ln rm (f.decode x),
    fun x => f.tanh rm (f.decode x), f.negate, f.magnitude]

theorem nan_eq_nanMag : ∀ f ∈ vecFormats, f.nan = f.nanMag := by decide

theorem unary_zero : ∀ f ∈ vecFormats, ∀ rm, rm < 4 → (f.unary rm).map (· 0) =
    [0, f.infMag, f.infMag, f.oneMag, f.signBit + f.infMag, f.signBit + f.infMag, 0, f.signBit, 0] := by decide

theorem unary_negative_zero : ∀ f ∈ vecFormats, ∀ rm, rm < 4 → (f.unary rm).map (· f.signBit) =
    [f.signBit, f.signBit + f.infMag, f.signBit + f.infMag, f.oneMag, f.signBit + f.infMag, f.signBit + f.infMag, f.signBit, 0, 0] := by decide

theorem logarithms_of_one : ∀ f ∈ vecFormats, ∀ rm, rm < 4 →
    f.log2 rm (f.decode f.oneMag) = 0 ∧ f.ln rm (f.decode f.oneMag) = 0 := by decide

theorem unary_infinity : ∀ f ∈ vecFormats, ∀ rm, rm < 4 → f ≠ e4m3 → (f.unary rm).map (· f.infMag) =
      [f.infMag, 0, 0, f.infMag, f.infMag, f.infMag, f.oneMag, f.signBit + f.infMag, f.infMag] ∧
    f.recip rm (f.signBit + f.infMag) = f.signBit ∧ f.exp2 rm (f.decode (f.signBit + f.infMag)) = 0 ∧
    f.tanh rm (f.decode (f.signBit + f.infMag)) = f.signBit + f.oneMag := by decide

/-- What the formats of the vector engine have in common: an IEEE top, or E4M3's single NaN. -/
theorem vecFormats_top : ∀ f ∈ vecFormats, (f.top = .ieee ∧ f ≠ e4m3 ∨ f = e4m3) ∧ 0 < f.m := by decide

/-- The patterns that are NaN: those above infinity's magnitude, or above the largest finite one of E4M3 (R292). -/
theorem decode_eq_nan_iff {f : Fmt} (hf : f ∈ vecFormats) (x : Nat) : f.decode x = .nan ↔ f.infMag < x % 2 ^ (f.e + f.m) := by
  have hlt : x % 2 ^ (f.e + f.m) < 2 ^ (f.e + f.m) := Nat.mod_lt _ (by positivity)
  obtain ⟨⟨htop, hne⟩ | rfl, hm⟩ := vecFormats_top f hf
  · unfold Fmt.infMag Fmt.decode
    rw [if_neg hne, htop]
    dsimp only
    generalize x % 2 ^ (f.e + f.m) = g at *
    have hdm := Nat.div_add_mod g (2 ^ f.m)
    have hml := Nat.mod_lt g (show 0 < 2 ^ f.m by positivity)
    have hdl : g / 2 ^ f.m < 2 ^ f.e := Nat.div_lt_of_lt_mul (by rw [← Nat.pow_add, Nat.add_comm]; exact hlt)
    by_cases htopex : g / 2 ^ f.m = 2 ^ f.e - 1
    · rw [if_pos htopex]
      rw [htopex, Nat.mul_comm] at hdm
      by_cases hmant : g % 2 ^ f.m = 0
      · rw [if_pos hmant]
        exact ⟨nofun, fun h => by omega⟩
      · rw [if_neg hmant]
        exact ⟨fun _ => by omega, fun _ => rfl⟩
    · rw [if_neg htopex]
      have hle : g < (2 ^ f.e - 1) * 2 ^ f.m := (Nat.div_lt_iff_lt_mul (by positivity)).1 (by omega)
      split
      · exact ⟨nofun, fun h => by omega⟩
      · exact ⟨nofun, fun h => by omega⟩
  · show (if x % 2 ^ 7 = 127 then Real'.nan else _) = .nan ↔ 0x7E < x % 2 ^ 7
    have hlt' : x % 2 ^ 7 < 2 ^ 7 := hlt
    split
    · exact ⟨fun _ => by omega, fun _ => rfl⟩
    · split
      · exact ⟨nofun, fun h => by omega⟩
      · exact ⟨nofun, fun h => by omega⟩

theorem isNan_eq {f : Fmt} (hf : f ∈ vecFormats) (x : Nat) : f.isNan x = decide (f.infMag < x % 2 ^ (f.e + f.m)) := by
  unfold Fmt.isNan
  rw [Bool.eq_iff_iff, beq_iff_eq, decide_eq_true_eq]
  exact decode_eq_nan_iff hf x

theorem testBit_sign {f : Fmt} {x : Nat} (hx : x < 2 * 2 ^ (f.e + f.m)) : x.testBit (f.e + f.m) = decide (2 ^ (f.e + f.m) ≤ x) := by
  rw [Nat.testBit_eq_decide_div_mod_eq]
  refine decide_eq_decide.2 ⟨fun h => ?_, fun h => ?_⟩
  · by_contra hc
    rw [Nat.div_eq_of_lt (by omega)] at h
    exact absurd h (by decide)
  · rw [show x / 2 ^ (f.e + f.m) = 1 from Nat.div_eq_of_lt_le (by omega) (by omega)]

/-- Negation and magnitude act on the sign alone. -/
theorem negate_magnitude {f : Fmt} (hf : f ∈ vecFormats) {x : Nat} (hx : x < 2 * 2 ^ (f.e + f.m)) (hn : x % 2 ^ (f.e + f.m) ≤ f.infMag) :
    f.negate x = (x + 2 ^ (f.e + f.m)) % (2 * 2 ^ (f.e + f.m)) ∧ f.magnitude x = x % 2 ^ (f.e + f.m) := by
  unfold Fmt.negate Fmt.magnitude
  rw [isNan_eq hf, decide_eq_false (Nat.not_lt.2 hn), if_neg Bool.false_ne_true, if_neg Bool.false_ne_true, testBit_sign hx]
  refine ⟨?_, rfl⟩
  unfold Fmt.signBit
  generalize 2 ^ (f.e + f.m) = g at *
  by_cases h : g ≤ x
  · rw [decide_eq_true h, if_pos rfl, Nat.mod_eq_sub_mod (by omega), Nat.mod_eq_of_lt (by omega)]
    omega
  · rw [decide_eq_false h, if_neg Bool.false_ne_true, Nat.mod_eq_of_lt (by omega)]

/-- FTZ makes a subnormal a zero of its sign and touches nothing else. -/
theorem flush_eq {f : Fmt} {x : Nat} (hx : x < 2 * 2 ^ (f.e + f.m)) : f.flush false x = x ∧
    f.flush true x = if x % 2 ^ (f.e + f.m) < 2 ^ f.m then x / 2 ^ (f.e + f.m) * 2 ^ (f.e + f.m) else x := by
  refine ⟨rfl, ?_⟩
  have hdm := Nat.div_add_mod' x (2 ^ (f.e + f.m))
  have hmm : x % 2 ^ (f.e + f.m) % 2 ^ f.m = x % 2 ^ f.m := Nat.mod_mod_of_dvd x (Nat.pow_dvd_pow 2 (Nat.le_add_left ..))
  have hdiv : x % 2 ^ (f.e + f.m) / 2 ^ f.m = 0 ↔ x % 2 ^ (f.e + f.m) < 2 ^ f.m := by
    rw [Nat.div_eq_zero_iff]
    exact or_iff_right (by positivity)
  unfold Fmt.flush Fmt.isSubnormal
  rw [Bool.true_and, ← Bool.decide_and, testBit_sign hx]
  simp only [hdiv]
  by_cases h : x % 2 ^ (f.e + f.m) < 2 ^ f.m
  · rw [if_pos h]
    rw [Nat.mod_eq_of_lt h] at hmm
    by_cases h0 : x % 2 ^ f.m = 0
    · rw [decide_eq_false fun hc => hc.2 h0, if_neg Bool.false_ne_true]
      omega
    · rw [decide_eq_true ⟨h, h0⟩, if_pos rfl]
      unfold Fmt.signed Fmt.signBit
      generalize 2 ^ (f.e + f.m) = g at *
      by_cases hs : g ≤ x
      · rw [decide_eq_true hs, if_pos rfl, show x / g = 1 from Nat.div_eq_of_lt_le (by omega) (by omega)]
        omega
      · rw [decide_eq_false hs, if_neg Bool.false_ne_true, Nat.div_eq_of_lt (by omega), Nat.zero_mul]
  · rw [if_neg h, decide_eq_false fun hc => h hc.1, if_neg Bool.false_ne_true]

/-- A negative pattern that is neither a zero nor a NaN. -/
theorem decode_negative {f : Fmt} (hf : f ∈ vecFormats) {x : Nat} (h : 2 ^ (f.e + f.m) < x) (h' : x ≤ 2 ^ (f.e + f.m) + f.infMag) :
    f.decode x = .inf true ∨ ∃ m e s, m ≠ 0 ∧ f.decode x = .num true m e s := by
  have hinf : ∀ f ∈ vecFormats, f.infMag < 2 ^ (f.e + f.m) := by decide
  have hi := hinf f hf
  have hmod : x % 2 ^ (f.e + f.m) = x - 2 ^ (f.e + f.m) := by
    rw [Nat.mod_eq_sub_mod h.le, Nat.mod_eq_of_lt (by omega)]
  have hnan : f.decode x ≠ .nan := fun hc => absurd ((decode_eq_nan_iff hf x).1 hc) (by omega)
  have hsign : x.testBit (f.e + f.m) = true := by
    rw [testBit_sign (by omega)]
    exact decide_eq_true h.le
  have hmag : x % 2 ^ (f.e + f.m) ≠ 0 := by omega
  have hsub : x % 2 ^ (f.e + f.m) / 2 ^ f.m = 0 → x % 2 ^ (f.e + f.m) % 2 ^ f.m ≠ 0 := fun hd hm => hmag (by
    have := Nat.div_add_mod (x % 2 ^ (f.e + f.m)) (2 ^ f.m)
    rw [hd, hm] at this
    omega)
  have hnorm : 2 ^ f.m + x % 2 ^ (f.e + f.m) % 2 ^ f.m ≠ 0 := by positivity
  unfold Fmt.decode at hnan ⊢
  dsimp only at hnan ⊢
  rw [hsign] at hnan ⊢
  obtain ⟨⟨htop, -⟩ | rfl, -⟩ := vecFormats_top f hf
  · rw [htop] at hnan ⊢
    dsimp only at hnan ⊢
    by_cases h1 : x % 2 ^ (f.e + f.m) / 2 ^ f.m = 2 ^ f.e - 1
    · rw [if_pos h1] at hnan ⊢
      by_cases h2 : x % 2 ^ (f.e + f.m) % 2 ^ f.m = 0
      · exact .inl (if_pos h2)
      · exact absurd (if_neg h2) hnan
    · rw [if_neg h1]
      by_cases h2 : x % 2 ^ (f.e + f.m) / 2 ^ f.m = 0
      · exact .inr ⟨_, _, _, hsub h2, if_pos h2⟩
      · exact .inr ⟨_, _, _, hnorm, if_neg h2⟩
  · by_cases h1 : x % 2 ^ (e4m3.e + e4m3.m) = 2 ^ (e4m3.e + e4m3.m) - 1
    · exact absurd (if_pos h1) hnan
    · right
      by_cases h2 : x % 2 ^ (e4m3.e + e4m3.m) / 2 ^ e4m3.m = 0
      · exact ⟨_, _, _, hsub h2, (if_neg h1).trans (if_pos h2)⟩
      · exact ⟨_, _, _, hnorm, (if_neg h1).trans (if_neg h2)⟩

/-- The roots and the logarithms of a negative value are NaN. -/
theorem roots_of_negative {f : Fmt} (hf : f ∈ vecFormats) (rm : Nat) {x : Nat} (h : 2 ^ (f.e + f.m) < x) (h' : x ≤ 2 ^ (f.e + f.m) + f.infMag) :
    f.sqrt rm x = f.nan ∧ f.rsqrt rm x = f.nan ∧ f.log2 rm (f.decode x) = f.nan ∧ f.ln rm (f.decode x) = f.nan := by
  unfold Fmt.sqrt Fmt.rsqrt
  obtain hd | ⟨m, e, s, hm, hd⟩ := decode_negative hf h h'
  · rw [hd]
    exact ⟨rfl, rfl, rfl, rfl⟩
  · rw [hd]
    unfold Real'.sqrt Real'.rsqrt Fmt.log2 Fmt.ln
    dsimp only
    rw [if_neg hm, if_neg hm, if_neg hm, if_neg hm]
    exact ⟨rfl, rfl, rfl, rfl⟩

/-- A NaN operand gives the canonical NaN. -/
theorem nan_operand {f : Fmt} {x : Nat} (hx : f.decode x = .nan) (rm y z : Nat) (mx : Bool) :
    (f.add rm x y = f.nan ∧ f.add rm y x = f.nan) ∧ (f.sub rm x y = f.nan ∧ f.sub rm y x = f.nan) ∧ (f.mul rm x y = f.nan ∧ f.mul rm y x = f.nan) ∧
    (f.div rm x y = f.nan ∧ f.div rm y x = f.nan) ∧ f.fma rm x y z = f.nan ∧ f.fma rm y x z = f.nan ∧ f.fma rm y z x = f.nan ∧
    f.pick mx x y = none ∧ f.pick mx y x = none := by
  unfold Fmt.add Fmt.sub Fmt.mul Fmt.div Fmt.fma Fmt.pick
  rw [hx]
  simp

theorem nan_unary {f : Fmt} {x : Nat} (hx : f.decode x = .nan) (rm : Nat) : ∀ g ∈ f.unary rm, g x = f.nan := by
  have hisNan : f.isNan x = true := by
    unfold Fmt.isNan
    rw [hx]
    rfl
  have hneg : f.negate x = f.nan := by
    unfold Fmt.negate
    rw [hisNan, if_pos rfl]
  have hmag : f.magnitude x = f.nan := by
    unfold Fmt.magnitude
    rw [hisNan, if_pos rfl]
  have hsqrt : f.sqrt rm x = f.nan := by rw [Fmt.sqrt, hx]; rfl
  have hrecip : f.recip rm x = f.nan := by rw [Fmt.recip, hx]; rfl
  have hrsqrt : f.rsqrt rm x = f.nan := by rw [Fmt.rsqrt, hx]; rfl
  unfold Fmt.unary
  simp only [List.forall_mem_cons, hsqrt, hrecip, hrsqrt, hx, hneg, hmag, true_and]
  exact ⟨rfl, rfl, rfl, rfl, fun _ h => absurd h List.not_mem_nil⟩

/-! ### The words -/

/-- A TAN that a word of `n` sources takes. -/
theorem tanLegal_sources {s : State} (hs : s.cur.eng = 1) {n : Nat} (hb : s.vctx.tan.cb = true → 2 ≤ n) (hc : s.vctx.tan.cc = true → 3 ≤ n)
    (hsel : s.vctx.tan.sel ≠ 0 → s.vctx.tan.ca = false ∧ s.vctx.tan.cb = false ∧ s.vctx.tan.cc = false) :
    tanLegal (some ⟨true, decide (2 ≤ n), decide (3 ≤ n), true⟩) s.curTan = true := by
  rw [State.curTan_of_eng hs]
  cases ht : s.curHub.tan with
  | none => rfl
  | some t =>
    have htan : s.vctx.tan = t := by
      show s.curHub.tan.getD {} = t
      rw [ht]
      rfl
    rw [htan] at hb hc hsel
    have hb' : (!t.cb || decide (2 ≤ n)) = true := by
      cases h : t.cb
      · rfl
      · exact decide_eq_true (hb h)
    have hc' : (!t.cc || decide (3 ≤ n)) = true := by
      cases h : t.cc
      · rfl
      · exact decide_eq_true (hc h)
    unfold tanLegal
    dsimp only
    rw [hb', hc']
    by_cases h0 : t.sel = 0
    · simp [h0]
    · obtain ⟨h1, h2, h3⟩ := hsel h0
      simp [h1, h2, h3]

/-- An FP word of `n` sources writes the operation's result and tangents to every active element. -/
theorem fpWord_writes {s : State} (hs : s.cur.eng = 1) (hty : s.curHub.shape.ety < 5) (op : FpOp) {n : Nat} (l : Nat) (d a b e : R5) (m : BitVec 3)
    (rm : Nat) (hb : s.vctx.tan.cb = true → 2 ≤ n) (hc : s.vctx.tan.cc = true → 3 ≤ n)
    (hsel : s.vctx.tan.sel ≠ 0 → s.vctx.tan.ca = false ∧ s.vctx.tan.cb = false ∧ s.vctx.tan.cc = false) :
    fpWord op n l d a b e m rm s = afterWord s l (.vec (s.vctx.emit d.toNat ((s.vctx.actives m.toNat).map fun i =>
      s.vctx.fpElt op n rm a.toNat b.toNat e.toNat i))) :=
  vecWord_writes _ _ _ _ (tanLegal_sources hs hb hc hsel) (decide_eq_true hty)

/-- An exact a × b + c that is not 0 is rounded once. -/
theorem fp32_fma_rounded {rm x y z : Nat} (hrm : rm < 4) (hx : fp32Finite x) (hy : fp32Finite y) (hz : fp32Finite z)
    (h : (fp32Value x : ℚ) * fp32Value y / 2 ^ 149 + fp32Value z ≠ 0) :
    RoundedOnce rm ((fp32Value x : ℚ) * fp32Value y / 2 ^ 149 + fp32Value z) (fp32.fma rm x y z) := by
  obtain ⟨hm, hms⟩ := (decode_exact hx).mul (decode_exact hy)
  obtain ⟨ha, has⟩ := hm.add rm (decode_exact hz)
  exact ha.rounded hrm (by rw [has, hms, decode_units hx, decode_units hy, decode_units hz]) h

/-- Settles O32: the words are the elements of fpWord; special inputs are evaluated by format and rounding mode, the rest follows from what the patterns are. -/
theorem vectorFloatWords : Obligations.VectorFloatWords := by
  refine ⟨?_, ?_, ?_, ?_⟩
  · intro s d a b e m r heng hty c f fl x y z rm out pick
    have hout : ∀ (j : Instr) (n l : Nat) (op : FpOp) (b' e' : R5) (rm : Nat) (v : Nat → Nat), exec j s = .next (fpWord op n l d a b' e' m rm s) →
        (∀ i, c.fpElt op n rm a.toNat b'.toNat e'.toNat i = c.fpElt op n rm a.toNat b.toNat e.toNat i) →
        (∀ i, v i = (c.fpElt op n rm a.toNat b.toNat e.toNat i).v) → out j n l op rm v := by
      intro j n l op b' e' rm v hj hbe hv hb hc hsel
      refine hj.trans (congrArg _ ((fpWord_writes heng hty op l d a b' e' m rm hb hc hsel).trans ?_))
      refine congrArg (fun es => afterWord s l (.vec (s.vctx.emit d.toNat es))) (List.map_congr_left fun i _ => (hbe i).trans ?_)
      rw [hv i]
      rfl
    have hself : ∀ (op : FpOp) (n : Nat) (rm : Nat) (i : Nat),
        c.fpElt op n rm a.toNat b.toNat e.toNat i = c.fpElt op n rm a.toNat b.toNat e.toNat i := fun _ _ _ _ => rfl
    have htwo : ∀ (op : FpOp) (rm : Nat) (i : Nat),
        c.fpElt op 2 rm a.toNat b.toNat (0 : R5).toNat i = c.fpElt op 2 rm a.toNat b.toNat e.toNat i := fun _ _ _ => by
      simp only [VCtx.fpElt, show ¬ 3 ≤ 2 by decide, if_false, decide_false, Bool.false_and]
    have hone : ∀ (op : FpOp) (rm : Nat) (i : Nat),
        c.fpElt op 1 rm a.toNat (0 : R5).toNat (0 : R5).toNat i = c.fpElt op 1 rm a.toNat b.toNat e.toNat i := fun _ _ _ => by
      simp only [VCtx.fpElt, show ¬ 2 ≤ 1 by decide, show ¬ 3 ≤ 1 by decide, if_false, decide_false, Bool.false_and]
    have hpick : ∀ (j : Instr) (max : Bool), exec j s = .next (minmaxWord max d a b m s) → pick j max := fun j max hj hcc hsel => by
      refine hj.trans (congrArg _ ((vecWord_writes _ _ _ _ (tanLegal_two heng hcc hsel) (decide_eq_true hty)).trans ?_))
      refine congrArg (fun es => afterWord s 4 (.vec (s.vctx.emit d.toNat es))) (List.map_congr_left fun i _ => ?_)
      unfold VCtx.minmaxElt
      show (match f.pick max (x i) (y i) with | none => _ | some false => _ | some true => _) = _
      cases f.pick max (x i) (y i) with
      | none => rfl
      | some t => cases t <;> rfl
    exact ⟨hout _ 2 4 .add b 0 _ _ (exec_vadd d a b m r s) (htwo .add _) fun _ => rfl,
      hout _ 2 4 .sub b 0 _ _ (exec_vsub d a b m r s) (htwo .sub _) fun _ => rfl,
      hout _ 2 4 .mul b 0 _ _ (exec_vmul d a b m r s) (htwo .mul _) fun _ => rfl,
      hout _ 2 14 .div b 0 _ _ (exec_vdiv d a b m r s) (htwo .div _) fun _ => rfl,
      hout _ 3 5 .fma b e _ _ (exec_vfma d a b e m r s) (hself .fma 3 _) fun _ => rfl,
      hout _ 1 14 .sqrt 0 0 _ _ (exec_vsqrt d a m r s) (hone .sqrt _) fun _ => rfl,
      hout _ 1 12 .rcp 0 0 _ _ (exec_vrcp d a m r s) (hone .rcp _) fun _ => rfl,
      hout _ 1 12 .rsqrt 0 0 _ _ (exec_vrsqrt d a m r s) (hone .rsqrt _) fun _ => rfl,
      hout _ 1 12 .exp2 0 0 _ _ (exec_vexp2 d a m r s) (hone .exp2 _) fun _ => rfl,
      hout _ 1 12 .log2 0 0 _ _ (exec_vlog2 d a m r s) (hone .log2 _) fun _ => rfl,
      hout _ 1 12 .ln 0 0 _ _ (exec_vln d a m r s) (hone .ln _) fun _ => rfl,
      hout _ 1 12 .tanh 0 0 _ _ (exec_vtanh d a m r s) (hone .tanh _) fun _ => rfl,
      hout _ 1 4 .neg 0 0 _ _ (exec_vneg d a m s) (hone .neg _) fun _ => rfl,
      hout _ 1 4 .abs 0 0 _ _ (exec_vabs d a m s) (hone .abs _) fun _ => rfl,
      hpick _ _ (exec_vmin d a b m s), hpick _ _ (exec_vmax d a b m s)⟩
  · intro x a b y u v w one n k
    refine ⟨rfl, rfl, rfl, rfl, rfl, rfl, rfl, rfl, rfl, rfl, rfl, rfl, rfl, rfl, rfl, rfl, rfl, rfl, rfl, rfl, fun op => ?_⟩
    cases op <;> rfl
  · intro f hf rm x y z mx hrm sgn inf one nan fn1
    have hnan : f.nan = nan := nan_eq_nanMag f hf
    refine ⟨fun hx => ?_, fun hx hn => negate_magnitude hf hx hn, fun hx => flush_eq hx, unary_zero f hf rm hrm, unary_negative_zero f hf rm hrm,
      (logarithms_of_one f hf rm hrm).1, (logarithms_of_one f hf rm hrm).2, fun h h' => ?_, fun hne => unary_infinity f hf rm hrm hne⟩
    · have hdec := (decode_eq_nan_iff hf x).2 hx
      obtain ⟨h1, h2, h3, h4, h5, h6, h7, h8, h9⟩ := nan_operand hdec rm y z mx
      rw [← hnan]
      refine ⟨?_, nan_unary hdec rm, h5, h6, h7, h8, h9⟩
      simp only [List.forall_mem_cons]
      exact ⟨h1, h2, h3, h4, fun _ h => absurd h List.not_mem_nil⟩
    · obtain ⟨h1, h2, h3, h4⟩ := roots_of_negative hf rm h h'
      rw [← hnan]
      simp only [List.forall_mem_cons]
      exact ⟨h1, h2, h3, h4, fun _ h => absurd h List.not_mem_nil⟩
  · intro rm x y z hrm hx hy hz u v w
    obtain ⟨hadd, hsub, hmul, hdiv⟩ := fp32_rounded hrm hx hy
    exact ⟨hadd, hsub, hmul, hdiv, fp32_fma_rounded hrm hx hy hz⟩

end Sys2Proof.Machine
end

section
/-! SUPPORT. Conversions, the fixed tree, the two kept of four, and the words of conversions and reductions (R299, R305, R309 to R311, R399 to R403). -/

namespace Sys2Proof.Machine

open Sys2Proof

/-! ### Conversions -/

/-- A result that does not overflow is the same under every treatment of overflow. -/
theorem round_of_le {rm m : Nat} {e : Int} {neg sticky : Bool} (o : Ovf) (h : fp32.roundMag rm neg m e sticky ≤ 0x7F7FFFFF) :
    fp32.round o rm (.num neg m e sticky) = fp32.signed neg (fp32.roundMag rm neg m e sticky) :=
  if_neg (Nat.not_lt.2 h)

/-- An integer of at most 33 bits is rounded once to FP32, and never overflows. -/
theorem roundedOnce_ofInt {rm : Nat} {v : Int} (o : Ovf) (hrm : rm < 4) (hv : v ≠ 0) (hlim : v.natAbs ≤ 2 ^ 32) :
    RoundedOnce rm ((v : ℚ) * 2 ^ 149) (fp32.round o rm (ofInt v 0 false)) := by
  obtain ⟨hex, hun⟩ := ofInt_units v 0 false
  have hone := hex.rounded hrm hun (mul_ne_zero (by exact_mod_cast hv) (by positivity))
  have hform : ofInt v 0 false = .num (decide (v < 0)) v.natAbs 0 false := if_neg hv
  have hunits : |(v : ℚ)| * 2 ^ 149 = v.natAbs * 2 ^ ((0 : Int) + 149) := by
    rw [Nat.cast_natAbs, Int.cast_abs]
    rfl
  have hpow : (0 : ℚ) < 2 ^ ((0 : Int) + 149) := by positivity
  obtain ⟨p, hlo, -, heq⟩ := fp32_roundMag (neg := decide (v < 0)) (u := |(v : ℚ)| * 2 ^ 149) hrm (Int.natAbs_ne_zero.2 hv)
    ⟨hunits.ge, by rw [hunits]; linarith, ⟨fun _ => hunits, fun _ => rfl⟩, nofun⟩
  have hp : p ≤ 159 * 2 ^ 23 := by
    rw [← fp32Units_strictMono.le_iff_le]
    have hbig : fp32Units (159 * 2 ^ 23) = 2 ^ 181 := by
      rw [show 159 * 2 ^ 23 = 158 * 2 ^ 23 + 2 ^ 23 by norm_num, fp32Units_pattern (by norm_num) (.inr (le_refl _)), ← Nat.pow_add]
    rw [hbig]
    have hle : |(v : ℚ)| * 2 ^ 149 ≤ 2 ^ 32 * 2 ^ 149 := by
      refine mul_le_mul_of_nonneg_right ?_ (by positivity)
      rw [← Int.cast_abs, Int.abs_eq_natAbs]
      exact_mod_cast hlim
    rw [← pow_add] at hle
    exact_mod_cast hlo.trans hle
  have hmag : fp32.roundMag rm (decide (v < 0)) v.natAbs 0 false ≤ 0x7F7FFFFF := by
    have := roundedTo_le rm (decide (v < 0)) (|(v : ℚ)| * 2 ^ 149) p
    omega
  rw [hform, round_of_le .arith hmag, Int.zero_add, zpow_ofNat] at hone
  rw [hform, round_of_le o hmag]
  exact hone

/-- A finite FP32 value stays itself. -/
theorem round_decode {x : Nat} (hx : fp32Finite x) (o : Ovf) (rm : Nat) (hrm : rm < 4) : fp32.round o rm (fp32.decode x) = x := by
  have hsigned : fp32.signed (decide (2 ^ 31 ≤ x)) (x % 2 ^ 31) = x := by
    obtain ⟨hlt, -⟩ := hx
    unfold Fmt.signed
    by_cases h : 2 ^ 31 ≤ x
    · rw [decide_eq_true h, if_pos rfl, show fp32.signBit = 2 ^ 31 by decide]
      omega
    · rw [decide_eq_false h, if_neg Bool.false_ne_true]
      omega
  rw [decode_fp32_finite hx]
  by_cases hm : fp32Mant (x % 2 ^ 31) = 0
  · have hz : x % 2 ^ 31 = 0 := by
      unfold fp32Mant at hm
      split at hm <;> omega
    rw [hm, round_zero, ← hz]
    exact hsigned
  · generalize hq : x % 2 ^ 31 / 2 ^ 23 - 1 = q
    have hu : (fp32Units (x % 2 ^ 31) : ℚ) = (fp32Mant (x % 2 ^ 31) : ℚ) * 2 ^ ((q : Int) - 149 + 149) := by
      rw [fp32Units_eq, hq, sub_add_cancel, zpow_natCast]
      push_cast
      rfl
    have hpow : (0 : ℚ) < 2 ^ ((q : Int) - 149 + 149) := by positivity
    obtain ⟨p, hlo, hhi, heq⟩ := fp32_roundMag (neg := decide (2 ^ 31 ≤ x)) (u := fp32Units (x % 2 ^ 31)) hrm hm
      ⟨hu.ge, by rw [hu]; linarith, ⟨fun _ => hu, fun _ => rfl⟩, nofun⟩
    obtain rfl := eq_of_fp32Units_le_lt hlo hhi (le_refl _) (by exact_mod_cast fp32Units_lt_succ _)
    have hself : roundedTo rm (decide (2 ^ 31 ≤ x)) (fp32Units (x % 2 ^ 31)) (x % 2 ^ 31) = x % 2 ^ 31 := by
      unfold roundedTo
      exact if_pos rfl
    rw [hself] at heq
    have hfin := hx.2
    rw [round_of_le o (by rw [heq]; omega), heq]
    exact hsigned

/-- The integer types by their ETYPE codes. -/
theorem etype_int {ty : Nat} (h : 5 ≤ ty) (h' : ty ≤ 10) :
    etype ty = .int ⟨if ty < 7 then 32 else if ty < 9 then 16 else 8, decide (ty % 2 = 1)⟩ := by
  interval_cases ty <;> rfl

/-- The patterns of the ends of an integer type's range. -/
theorem ends_of_range {ty : Nat} (h : 5 ≤ ty) (h' : ty ≤ 10) :
    wrapInt (ITy.maxVal ⟨if ty < 7 then 32 else if ty < 9 then 16 else 8, decide (ty % 2 = 1)⟩) (if ty < 7 then 32 else if ty < 9 then 16 else 8) =
      (if ty % 2 = 1 then 2 ^ ((if ty < 7 then 32 else if ty < 9 then 16 else 8) - 1) - 1 else 2 ^ (if ty < 7 then 32 else if ty < 9 then 16 else 8) - 1) ∧
    wrapInt (ITy.minVal ⟨if ty < 7 then 32 else if ty < 9 then 16 else 8, decide (ty % 2 = 1)⟩) (if ty < 7 then 32 else if ty < 9 then 16 else 8) =
      if ty % 2 = 1 then 2 ^ ((if ty < 7 then 32 else if ty < 9 then 16 else 8) - 1) else 0 := by
  interval_cases ty <;> decide

theorem iTy_decode_mk (w ty x : Nat) : (ITy.mk w (decide (ty % 2 = 1))).decode x = if ty % 2 = 1 then sextNat x w else ((x % 2 ^ w : Nat) : Int) := by
  unfold ITy.decode
  simp only [decide_eq_true_eq]

theorem sextNat_bound {w : Nat} (hw : 0 < w) (x : Nat) : (sextNat x w).natAbs ≤ 2 ^ w := by
  have hx : x % 2 ^ w < 2 ^ w := Nat.mod_lt _ (by positivity)
  unfold sextNat
  split <;> omega

/-! ### The fixed tree -/

/-- A pair of the tree: an absent member passes its partner up. -/
def treePair (f : Nat → Nat → Nat) (u v : Option Nat) : Option Nat :=
  match u, v with
  | some x, some y => some (f x y)
  | none, y => y
  | x, none => x

theorem treeLevel_length {α : Type} (f : α → α → α) (l : List (Option α)) : (treeLevel f l).length = (l.length + 1) / 2 := by
  induction l using treeLevel.induct with
  | case1 => rw [treeLevel, List.length_nil]
  | case2 x => rw [treeLevel, List.length_singleton]
  | case3 y r ih => simp only [treeLevel, List.length_cons, ih]; omega
  | case4 x r ih => simp only [treeLevel, List.length_cons, ih]; omega
  | case5 x y r ih => simp only [treeLevel, List.length_cons, ih]; omega

/-- Fuel beyond the length of the list changes nothing. -/
theorem treeUp_eq_tree {α : Type} (f : α → α → α) (n : Nat) (l : List (Option α)) (h : l.length ≤ n) : treeUp f n l = tree f l := by
  induction n using Nat.strongRecOn generalizing l with
  | _ n ih =>
    unfold tree
    match n, hl : l.length with
    | 0, 0 => rfl
    | 0, k + 1 => omega
    | n + 1, 0 =>
      rw [treeUp, treeUp, if_pos (by omega)]
    | n + 1, k + 1 =>
      rw [treeUp, treeUp]
      by_cases h1 : l.length ≤ 1
      · rw [if_pos h1, if_pos h1]
      · have hlev := treeLevel_length f l
        rw [if_neg h1, if_neg h1, ih n (Nat.lt_succ_self n) _ (by omega), ih k (by omega) _ (by omega)]

/-- A level of the tree combines adjacent pairs. -/
theorem treeLevel_eq (f : Nat → Nat → Nat) (l : List (Option Nat)) : treeLevel f l =
    (List.range ((l.length + 1) / 2)).map fun i => treePair f (l.getD (2 * i) none) (l.getD (2 * i + 1) none) := by
  have hcons : ∀ (x y : Option Nat) (r : List (Option Nat)), (List.range (((x :: y :: r).length + 1) / 2)).map
      (fun i => treePair f ((x :: y :: r).getD (2 * i) none) ((x :: y :: r).getD (2 * i + 1) none)) =
      treePair f x y :: (List.range ((r.length + 1) / 2)).map fun i => treePair f (r.getD (2 * i) none) (r.getD (2 * i + 1) none) := fun x y r => by
    rw [List.length_cons, List.length_cons, show (r.length + 1 + 1 + 1) / 2 = (r.length + 1) / 2 + 1 by omega, List.range_succ_eq_map, List.map_cons,
      List.map_map]
    rfl
  induction l using treeLevel.induct with
  | case1 =>
    rw [treeLevel]
    rfl
  | case2 x =>
    rw [treeLevel]
    cases x <;> simp [treePair]
  | case3 y r ih =>
    rw [hcons, treeLevel, ih]
    rfl
  | case4 x r ih =>
    rw [hcons, treeLevel, ih]
    rfl
  | case5 x y r ih =>
    rw [hcons, treeLevel, ih]
    rfl

theorem tree_level {α : Type} (f : α → α → α) {l : List (Option α)} (h : 1 < l.length) : tree f l = tree f (treeLevel f l) := by
  have hlev := treeLevel_length f l
  obtain ⟨n, hn⟩ : ∃ n, l.length = n + 1 := ⟨l.length - 1, by omega⟩
  rw [tree, hn, treeUp, if_neg (by omega), treeUp_eq_tree f n _ (by omega)]

/-! ### The two kept of four -/

/-- The position that `largest` takes of ascending ones: the largest key, the lowest position on a tie. -/
theorem largest_spec (key : Nat → Nat) {ps : List Nat} (hne : ps ≠ []) (hs : ps.Pairwise (· < ·)) :
    largest key ps ∈ ps ∧ ∀ p ∈ ps, key p ≤ key (largest key ps) ∧ (key p = key (largest key ps) → largest key ps ≤ p) := by
  induction ps with
  | nil => exact absurd rfl hne
  | cons p r ih =>
    obtain ⟨hp, hr'⟩ := List.pairwise_cons.1 hs
    match r, hp, hr', ih with
    | [], _, _, _ => exact ⟨.head _, fun q hq => by obtain rfl := List.mem_singleton.1 hq; exact ⟨le_refl _, fun _ => le_refl _⟩⟩
    | q :: r, hp, hr', ih =>
      obtain ⟨hmem, hmax⟩ := ih nofun hr'
      have hcons : largest key (p :: q :: r) = if key p < key (largest key (q :: r)) then largest key (q :: r) else p := rfl
      rw [hcons]
      split
      · rename_i hlt
        refine ⟨.tail _ hmem, fun u hu => ?_⟩
        obtain rfl | hu := List.mem_cons.1 hu
        · exact ⟨hlt.le, fun h => absurd h hlt.ne⟩
        · exact hmax u hu
      · rename_i hlt
        refine ⟨.head _, fun u hu => ?_⟩
        obtain rfl | hu := List.mem_cons.1 hu
        · exact ⟨le_refl _, fun _ => le_refl _⟩
        · exact ⟨(hmax u hu).1.trans (Nat.not_lt.1 hlt), fun _ => (hp u hu).le⟩

/-- The two positions kept have the largest keys, the lower on a tie (R305, R402). -/
theorem keepTwo_spec (key : Nat → Nat) : (keepTwo key).1 < (keepTwo key).2 ∧ (keepTwo key).2 < 4 ∧
    ∀ p, p < 4 → p ≠ (keepTwo key).1 → p ≠ (keepTwo key).2 → key p ≤ key (keepTwo key).1 ∧ key p ≤ key (keepTwo key).2 ∧
      (key p = key (keepTwo key).1 → (keepTwo key).1 < p) ∧ (key p = key (keepTwo key).2 → (keepTwo key).2 < p) := by
  obtain ⟨x, hx⟩ : ∃ x, x = largest key [0, 1, 2, 3] := ⟨_, rfl⟩
  obtain ⟨y, hy⟩ : ∃ y, y = largest key ([0, 1, 2, 3].filter fun p => decide (p ≠ x)) := ⟨_, rfl⟩
  have hk : keepTwo key = (min x y, max x y) := by rw [hy, hx]; rfl
  have hall : ∀ p, p < 4 → p ∈ [0, 1, 2, 3] := fun p hp => by interval_cases p <;> decide
  obtain ⟨hxm, hxmax⟩ := largest_spec key (ps := [0, 1, 2, 3]) nofun (by decide)
  rw [← hx] at hxm hxmax
  have hrest : ∀ p, p < 4 → p ≠ x → p ∈ [0, 1, 2, 3].filter fun p => decide (p ≠ x) := fun p hp hpx =>
    List.mem_filter.2 ⟨hall p hp, decide_eq_true hpx⟩
  have hne : ([0, 1, 2, 3].filter fun p => decide (p ≠ x)) ≠ [] := fun h => by
    by_cases h0 : x = 0
    · have := hrest 1 (by omega) (by omega)
      rw [h] at this
      exact List.not_mem_nil this
    · have := hrest 0 (by omega) (Ne.symm h0)
      rw [h] at this
      exact List.not_mem_nil this
  obtain ⟨hym, hymax⟩ := largest_spec key hne (List.Pairwise.filter _ (by decide))
  rw [← hy] at hym hymax
  obtain ⟨hym, hyx⟩ := List.mem_filter.1 hym
  have hyx : y ≠ x := of_decide_eq_true hyx
  have hlt : ∀ p ∈ [0, 1, 2, 3], p < 4 := by decide
  have hx4 := hlt x hxm
  have hy4 := hlt y hym
  rw [hk]
  refine ⟨min_lt_max.2 hyx.symm, max_lt hx4 hy4, fun p hp h1 h2 => ?_⟩
  dsimp only at h1 h2 ⊢
  have hpx : p ≠ x := fun h => by omega
  have hpy : p ≠ y := fun h => by omega
  obtain ⟨hle, htie⟩ := hxmax p (hall p hp)
  obtain ⟨hle', htie'⟩ := hymax p (hrest p hp hpx)
  obtain h | h := Nat.lt_or_gt_of_ne hyx
  · rw [min_eq_right h.le, max_eq_left h.le]
    exact ⟨hle', hle, fun h => lt_of_le_of_ne (htie' h) hpy.symm, fun h => lt_of_le_of_ne (htie h) hpx.symm⟩
  · rw [min_eq_left h.le, max_eq_right h.le]
    exact ⟨hle, hle', fun h => lt_of_le_of_ne (htie h) hpx.symm, fun h => lt_of_le_of_ne (htie' h) hpy.symm⟩

/-! ### The words -/

theorem scanFrom_length (f : Nat → Nat → Nat) (o : Option Nat) (l : List Nat) : (scanFrom f o l).length = l.length := by
  induction l generalizing o with
  | nil => cases o <;> rfl
  | cons x r ih =>
    cases o with
    | none => exact congrArg (· + 1) (ih _)
    | some y => exact congrArg (· + 1) (ih _)

/-- A TAN that marks at most v(a) constant, and not where it selects a tangent, is one that a word of one source takes. -/
theorem tanLegal_one {s : State} (hs : s.cur.eng = 1) (hb : s.vctx.tan.cb = false) (hc : s.vctx.tan.cc = false)
    (hsel : s.vctx.tan.sel ≠ 0 → s.vctx.tan.ca = false) : tanLegal (some ⟨true, false, false, true⟩) s.curTan = true :=
  tanLegal_sources (n := 1) hs (fun h => absurd (hb ▸ h) Bool.false_ne_true) (fun h => absurd (hc ▸ h) Bool.false_ne_true)
    fun h => ⟨hsel h, hb, hc⟩

/-- What a scan leaves for the tangents: each prefix canonical, or +0. -/
theorem scan_tangent {c : VCtx} {live : Bool} {is : List Nat} {g : Nat → List Nat} (hg : ∀ t, (g t).length = is.length) {k : Nat} (hk : k < is.length) :
    (c.ks.map fun t => if live then (g t).map c.canonTan else is.map fun _ => 0).map (fun l => l.getD k 0) =
      c.ks.map fun u => if live then c.canonTan ((g u).getD k 0) else 0 := by
  rw [List.map_map]
  refine List.map_congr_left fun t _ => ?_
  show (if live = true then (g t).map c.canonTan else is.map fun _ => 0).getD k 0 = _
  cases live with
  | true =>
    rw [if_pos rfl, if_pos rfl, List.getD_eq_getElem _ _ (by rw [List.length_map, hg]; exact hk), List.getElem_map,
      List.getD_eq_getElem _ _ (by rw [hg]; exact hk)]
  | false =>
    rw [if_neg Bool.false_ne_true, if_neg Bool.false_ne_true, List.getD_eq_getElem _ _ (by rw [List.length_map]; exact hk), List.getElem_map]

/-- Settles O35: the words unfold to their elements; an integer of 33 bits never overflows FP32, a level of the tree is a map of pairs, and largest takes the lowest of the largest. -/
theorem vectorConversionsAndReductions : Obligations.VectorConversionsAndReductions := by
  refine ⟨?_, ?_, ?_, ?_, keepTwo_spec⟩
  · intro s d a b t o m r heng c out segs bad opt live tans
    refine ⟨fun hcb hcc hsel => ?_, fun htan => ?_⟩
    · have hleg := tanLegal_one heng hcb hcc hsel
      have hout : ∀ (j : Instr) (l : Nat) (ds : List Nat) (f : VCtx → List VWrite) (ws : List VWrite),
          exec j s = .next (vecWord (some ⟨true, false, false, true⟩) anyTy m.toNat l ds f s) → f c = ws → out j l ws :=
        fun j l ds f ws hj hf => hj.trans (congrArg _ ((vecWord_writes _ _ _ _ hleg rfl).trans (congrArg (fun w => afterWord s l (.vec w)) hf)))
      refine ⟨?_, ?_, ?_, ?_⟩
      · refine hout _ _ _ _ _ (exec_vcvt d a t o m r s) ?_
        dsimp only
        rw [Bool.and_right_comm]
        rfl
      · exact hout _ _ _ _ _ (exec_vrsum d a m s) rfl
      · intro max
        cases max
        · exact hout _ _ _ _ _ (exec_vrmin d a m s) rfl
        · exact hout _ _ _ _ _ (exec_vrmax d a m s) rfl
      · refine hout _ _ _ _ _ (exec_vscan d a m s) ?_
        refine congrArg (c.emit d.toNat) (congrArg List.flatten (List.map_congr_left fun q _ => List.map_congr_left fun x hx => ?_))
        obtain ⟨-, hlt, -⟩ := List.mem_zipIdx hx
        exact congrArg (Elt.mk x.1 _ (bad q)) (scan_tangent (fun t => (scanFrom_length ..).trans (List.length_map _)) (by omega))
    · have hout : ∀ (j : Instr) (ety : Nat → Bool) (k l : Nat) (ds : List Nat) (f : VCtx → List VWrite) (ws : List VWrite), ety s.curHub.shape.ety = true →
          exec j s = .next (vecWord none ety k l ds f s) → f c = ws → out j l ws :=
        fun j ety k l ds f ws hety hj hf =>
          hj.trans (congrArg _ ((vecWord_plain heng htan _ _ _ _ _ hety).trans (congrArg (fun w => afterWord s l (.vec w)) hf)))
      refine ⟨fun hty => ?_, fun hty => ?_, ?_, ?_⟩
      · intro f n
        have hety : decide (s.curHub.shape.ety < 3) = true := decide_eq_true hty
        exact ⟨hout _ _ _ _ _ _ _ hety (exec_vpack d a t b r s) rfl, hout _ _ _ _ _ _ _ hety (exec_vunpack d a t b s) rfl⟩
      · intro two nibble spoiled keep
        have hety : (fun t => t == 3 || t == 4) s.curHub.shape.ety = true := by
          obtain h | h := hty
          · exact congrArg (fun t => t == 3 || t == 4) h
          · exact congrArg (fun t => t == 3 || t == 4) h
        have hkeep : ∀ off i, c.writes d.toNat off 1 (c.kept m.toNat a.toNat i).1 (c.kept m.toNat a.toNat i).2.1 (c.kept m.toNat a.toNat i).2.2 = keep off i := by
          intro off i
          show _ = if c.active m.toNat i then _ else _
          unfold VCtx.kept
          split <;> rfl
        refine hout _ _ _ _ _ _ _ hety (exec_vprune24 d a b m s) ?_
        dsimp only
        simp only [hkeep]
        refine congrArg₂ (· ++ ·) rfl (List.map_congr_left fun q hq => ?_)
        have hq' : 2 * q < ceilDiv c.vl 4 := by
          have := List.mem_range.1 hq
          unfold ceilDiv at this ⊢
          omega
        have hlo : nibble (2 * q) = (two (2 * q)).1 + 4 * (two (2 * q)).2 := if_pos hq'
        have hsp : spoiled (2 * q) = (List.range 4).any fun p => c.active m.toNat (4 * (2 * q) + p) && c.pois a.toNat (4 * (2 * q) + p) := by
          show (decide (2 * q < ceilDiv c.vl 4) && _) = _
          rw [decide_eq_true hq', Bool.true_and]
        rw [hlo, hsp]
      · intro slot
        refine ⟨hout _ anyTy _ _ _ _ _ rfl (exec_vargmax d a m s) ?_, hout _ anyTy _ _ _ _ _ rfl (exec_vpopnz d a m s) rfl⟩
        refine congrArg List.flatten (List.map_congr_left fun q _ => congrArg (fun v => slot q v) ?_)
        cases c.present m.toNat q <;> rfl
      · exact hout _ anyTy _ _ _ _ _ rfl (exec_vnzmap d a m s) rfl
  · intro ty t2 rm x o h1 h2 h3 h4 hrm bits w v
    have het : etype ty = .int ⟨w, decide (ty % 2 = 1)⟩ := etype_int h1 h2
    have het2 : etype t2 = .int ⟨bits t2, decide (t2 % 2 = 1)⟩ := etype_int h3 h4
    have hv : (ITy.mk (bits t2) (decide (t2 % 2 = 1))).decode x = v := iTy_decode_mk ..
    have hbits : 0 < bits t2 ∧ bits t2 ≤ 32 := by
      show 0 < (if t2 < 7 then 32 else if t2 < 9 then 16 else 8) ∧ (if t2 < 7 then 32 else if t2 < 9 then 16 else 8) ≤ 32
      split
      · decide
      · split <;> decide
    refine ⟨fun hx => ?_, ?_, ?_, ?_, fun hv0 => ?_, fun hx => round_decode hx o rm hrm⟩
    · rw [het]
      show ITy.ofReal _ rm (fp32.decode x) = 0
      rw [decode_fp32_nan hx]
      rfl
    · rw [het]
      show ITy.ofReal _ rm (fp32.decode 0x7F800000) = _
      rw [show fp32.decode 0x7F800000 = .inf false by decide]
      exact (ends_of_range h1 h2).1
    · rw [het]
      show ITy.ofReal _ rm (fp32.decode 0xFF800000) = _
      rw [show fp32.decode 0xFF800000 = .inf true by decide]
      exact (ends_of_range h1 h2).2
    · rw [het, het2]
      show ((wrapInt ((ITy.mk (bits t2) (decide (t2 % 2 = 1))).decode x) w : Nat) : Int) = v % 2 ^ w
      rw [hv]
      unfold wrapInt
      rw [Int.toNat_of_nonneg (Int.emod_nonneg _ (by positivity))]
      norm_cast
    · rw [het2]
      show RoundedOnce rm (v * 2 ^ 149) (fp32.round o rm (ofInt ((ITy.mk (bits t2) (decide (t2 % 2 = 1))).decode x) 0 false))
      rw [hv]
      refine roundedOnce_ofInt o hrm hv0 ?_
      have hpow : 2 ^ bits t2 ≤ 2 ^ 32 := Nat.pow_le_pow_right (by decide) hbits.2
      have hmod : x % 2 ^ bits t2 < 2 ^ bits t2 := Nat.mod_lt _ (by positivity)
      have hsext := sextNat_bound hbits.1 x
      show (if t2 % 2 = 1 then sextNat x (bits t2) else ((x % 2 ^ bits t2 : Nat) : Int)).natAbs ≤ 2 ^ 32
      split <;> omega
  · intro f l hl pair
    refine ⟨?_, fun x => ?_⟩
    · rw [tree_level f hl, treeLevel_eq]
      refine congrArg (tree f) (List.map_congr_left fun i _ => ?_)
      show treePair f (l.getD (2 * i) none) (l.getD (2 * i + 1) none) = pair (l.getD (2 * i) none) (l.getD (2 * i + 1) none)
      cases l.getD (2 * i) none <;> cases l.getD (2 * i + 1) none <;> rfl
    · rfl
  · decide

end Sys2Proof.Machine
end

section
/-! SUPPORT. Words of the matrix engine. -/

namespace Sys2Proof.Machine

open Sys2Proof

/-! ### Words of the matrix engine -/

/-- An effect of the word at hand stands in the agenda, whatever its place in the issue order and the DETAIL kept with it. -/
def ListedAs (s : State) (l : Nat) (a : Act) (t : State) : Prop := ∃ q dt, { dueOf s l a with seq := q, detail := dt } ∈ t.agenda

theorem ListedAs.mem {s t : State} {l : Nat} {a : Act} (h : ListedAs s l a t) :
    dueOf s l a ∈ t.agenda.map fun u => { u with seq := s.seq, detail := s.wordDetail } := by
  obtain ⟨q, dt, hq⟩ := h
  exact List.mem_map.2 ⟨_, hq, rfl⟩

/-- The end of an issue lists nothing. -/
theorem ListedAs.issued {s t : State} {l : Nat} {a : Act} (h : ListedAs s l a t) (w c : Nat) : ListedAs s l a (t.issueOp.retire w c) := h

theorem State.curHub_issueOp (s : State) : s.issueOp.curHub = s.curHub.issueOp (timelineOf s.cur.eng) := SMap.get_put_self ..

/-- An operation of the matrix engine counts as issued on tl.m. -/
theorem issued_matrix {u s : State} (heng : s.cur.eng = 2) (hcur : u.cur = s.cur) (htl : u.curHub.timelines = s.curHub.timelines) (w c : Nat) :
    ((u.issueOp.retire w c).curHub.timeline 0).issued = (s.curHub.timeline 0).issued + 1 := by
  have h := issued_issueOp u
  rw [hcur, heng] at h
  rw [timeline_retire]
  refine h.trans ?_
  unfold Hub.timeline
  rw [htl]
  rfl

/-- The issue of an operation touches the hub at hand alone. -/
theorem onlyHub_issued {u s : State} (hcur : u.cur = s.cur) (hh : u.hubs = s.hubs) (hm : u.memory = s.memory) (hp : u.parts = s.parts)
    (hs : u.slots = s.slots) (hd : u.dies = s.dies) (ha : u.arrays = s.arrays) (hx : u.xdies = s.xdies) (hl : u.pls = s.pls) (hv : u.dev = s.dev)
    (w c : Nat) : OnlyHub s (u.issueOp.retire w c) s.cur.die s.cur.hub := by
  have hhubs : (u.issueOp.retire w c).hubs = SMap.put s.hubs (8 * s.cur.die + s.cur.hub) (u.issueOp.retire w c).curHub := by
    have hcur' : (u.issueOp.retire w c).curHub = _ := SMap.get_put_self ..
    rw [hcur', ← hh, ← hcur]
    exact SMap.put_put ..
  exact onlyHub_of_put hhubs hm hp hs hd ha hx hl hv

/-- The stream after an issue of `c` slots, and what of the hub stays. -/
theorem retire_hub (u : State) (w c : Nat) : ((u.retire w c).curHub.stream u.cur.eng).next = u.now + c * u.period ∧
    (u.retire w c).curHub.runs = u.curHub.runs := by
  have hhub : (u.retire w c).curHub = _ := SMap.get_put_self ..
  rw [hhub]
  exact ⟨congrArg Eng.next (SMap.get_put_self ..), rfl⟩

theorem period_congr {s u : State} (hcur : u.cur = s.cur) (hk : u.kind = s.kind) (hl : u.curHub.launch = s.curHub.launch) (hp : u.curHub.lpos = s.curHub.lpos) :
    u.period = s.period := by
  have hal : u.alternates s.cur.die s.cur.hub s.cur.eng = s.alternates s.cur.die s.cur.hub s.cur.eng := by
    unfold State.curHub at hl hp
    rw [hcur] at hl hp
    unfold State.alternates Hub.alternating
    rw [hk, hl, hp]
  unfold State.period
  rw [hcur, hal]

/-! ### Rows enter -/

/-- What the entry of rows of step `t` keeps: all but the planes' last entries and the agenda, where only entries of the step go. -/
structure Entering (t : MatStep) (s u : State) : Prop where
  cur : u.cur = s.cur
  hubs : u.hubs = s.hubs
  steps : (u.arr t.die t.arr).steps = (s.arr t.die t.arr).steps
  acc : (u.arr t.die t.arr).acc = (s.arr t.die t.arr).acc
  listed : ∀ d ∈ s.agenda, (∀ i, d.act ≠ .mat (.enter t i)) → d ∈ u.agenda

theorem Entering.refl (t : MatStep) (s : State) : Entering t s s := ⟨rfl, rfl, rfl, rfl, fun _ h _ => h⟩

theorem Entering.trans {t : MatStep} {s u v : State} (h : Entering t s u) (h' : Entering t u v) : Entering t s v :=
  ⟨h'.cur.trans h.cur, h'.hubs.trans h.hubs, h'.steps.trans h.steps, h'.acc.trans h.acc, fun d hd hne => h'.listed d (h.listed d hd hne) hne⟩

theorem Entering.matAt (t : MatStep) (s : State) (at_ : Nat) (x : MatAct) : Entering t s (s.matAt t at_ x) :=
  ⟨rfl, rfl, rfl, rfl, fun _ h _ => .tail _ h⟩

theorem Entering.setPlane (t : MatStep) (s : State) (n : Nat) (p : Plane) : Entering t s (s.setArr t.die t.arr ((s.arr t.die t.arr).setPlane n p)) := by
  have harr : (s.setArr t.die t.arr ((s.arr t.die t.arr).setPlane n p)).arr t.die t.arr = (s.arr t.die t.arr).setPlane n p :=
    (State.arr_setArr ..).trans (if_pos rfl)
  refine ⟨rfl, rfl, ?_, ?_, fun _ h _ => h⟩
  · rw [harr]
    unfold Arr.setPlane
    split <;> rfl
  · rw [harr]
    unfold Arr.setPlane
    split <;> rfl

/-- A row of a step outside the MX modes enters: its sample is listed two scy later. -/
theorem enterRow_plain {t : MatStep} {s : State} (hmx : (t.amx && !t.epi) = false) (i : Nat) (hlive : s.stepLive t = true) :
    Entering t s (s.enterRow t i) ∧ ∃ q, ⟨t.die, (s.die t.die).cad + 2, (s.hub t.die t.hub).lpos, t.hub, 2, q,
      Act.mat (.sample t i (s.arr t.die t.arr).activeNo []), none, 0⟩ ∈ (s.enterRow t i).agenda := by
  obtain ⟨u, hu⟩ : ∃ u, u = s.setArr t.die t.arr ((s.arr t.die t.arr).setPlane (s.arr t.die t.arr).activeNo
      { (s.arr t.die t.arr).plane (s.arr t.die t.arr).activeNo with lastEntry := some (s.die t.die).cad }) := ⟨_, rfl⟩
  obtain ⟨v, hv⟩ : ∃ v, v = u.matAt t ((s.die t.die).cad + 2) (.sample t i (s.arr t.die t.arr).activeNo []) := ⟨_, rfl⟩
  have hrow : s.enterRow t i = if i + 1 < t.rows then v.matAt t (t.entry (i + 1)) (.enter t (i + 1)) else v := by
    unfold State.enterRow
    dsimp only
    rw [hlive, hmx, if_neg (by exact Bool.false_ne_true), if_neg Bool.false_ne_true, hv, hu]
  have hsv : Entering t s v := by
    rw [hv, hu]
    exact (Entering.setPlane ..).trans (Entering.matAt ..)
  have hlist : ∃ q, ⟨t.die, (s.die t.die).cad + 2, (s.hub t.die t.hub).lpos, t.hub, 2, q,
      Act.mat (.sample t i (s.arr t.die t.arr).activeNo []), none, 0⟩ ∈ v.agenda := by
    rw [hv, hu]
    exact ⟨_, .head _⟩
  rw [hrow]
  split
  · obtain ⟨q, hq⟩ := hlist
    exact ⟨hsv.trans (Entering.matAt ..), q, .tail _ hq⟩
  · exact ⟨hsv, hlist⟩

theorem stepLive_congr {t : MatStep} {s u : State} (h : Entering t s u) : u.stepLive t = s.stepLive t := by
  unfold State.stepLive
  rw [h.steps]

/-- The rows that enter with row i keep all but the planes' last entries; row i's sample is listed. -/
theorem enterRows_plain {t : MatStep} (hmx : (t.amx && !t.epi) = false) (n i : Nat) {s : State} (hlive : s.stepLive t = true) :
    Entering t s (s.enterRows t i (n + 1)) ∧ ∃ q, ⟨t.die, (s.die t.die).cad + 2, (s.hub t.die t.hub).lpos, t.hub, 2, q,
      Act.mat (.sample t i (s.arr t.die t.arr).activeNo []), none, 0⟩ ∈ (s.enterRows t i (n + 1)).agenda := by
  induction n generalizing i s with
  | zero =>
    obtain ⟨hk, q, hq⟩ := enterRow_plain hmx i hlive
    rw [State.enterRows]
    dsimp only
    split
    · rw [State.enterRows]
      refine ⟨hk.trans ⟨rfl, rfl, rfl, rfl, fun d hd hne => List.mem_filter.2 ⟨hd, decide_eq_true (hne _)⟩⟩, q, ?_⟩
      exact List.mem_filter.2 ⟨hq, decide_eq_true (by simp)⟩
    · exact ⟨hk, q, hq⟩
  | succ n ih =>
    obtain ⟨hk, q, hq⟩ := enterRow_plain hmx i hlive
    rw [State.enterRows]
    dsimp only
    split
    · obtain ⟨u, hu⟩ : ∃ u, u = { s.enterRow t i with
          agenda := (s.enterRow t i).agenda.filter fun d => decide (d.act ≠ Act.mat (.enter t (i + 1))) } := ⟨_, rfl⟩
      have hu' : Entering t (s.enterRow t i) u := by
        rw [hu]
        exact ⟨rfl, rfl, rfl, rfl, fun d hd hne => List.mem_filter.2 ⟨hd, decide_eq_true (hne _)⟩⟩
      have hall := hk.trans hu'
      obtain ⟨hrest, -⟩ := ih (i + 1) (s := u) ((stepLive_congr hall).trans hlive)
      rw [← hu]
      refine ⟨hall.trans hrest, q, (hu'.trans hrest).listed _ hq fun k => ?_⟩
      simp
    · exact ⟨hk, q, hq⟩

/-! ### Steps -/

/-- A step outside the MX modes starts: it runs, its first row is sampled two scy later, and it counts on tl.m. -/
theorem startStep_runs {s : State} (heng : s.cur.eng = 2) {t : MatStep} (hdie : t.die = s.cur.die) (harr : t.arr = s.cur.hub / 2) (hhub : t.hub = s.cur.hub)
    (hid : t.id = s.curHub.runs + 1) (hrows : t.rows ≠ 0) (hmx : (t.amx && !t.epi) = false) :
    let u := (startStep t s).issueOp.retire 2 1
    (u.curHub.timeline 0).issued = (s.curHub.timeline 0).issued + 1 ∧ u.curHub.runs = s.curHub.runs + 1 ∧
    u.curArr.steps = s.curArr.steps ++ [(t, 0)] ∧ u.curArr.acc = s.curArr.acc ∧ ListedAs s 2 (.mat (.sample t 0 s.curArr.activeNo [])) u ∧ SameMemory s u := by
  intro u
  obtain ⟨h, hh⟩ : ∃ h : Hub, h = { s.curHub with runs := t.id, sq := if t.amx && !t.epi then s.curHub.sq else s.curHub.sq.filter fun e => decide (e.2.2 ≠ t.id) } :=
    ⟨_, rfl⟩
  obtain ⟨v, hv⟩ : ∃ v, v = (s.setCurHub h).setCurArr { s.curArr with steps := s.curArr.steps ++ [(t, 0)] } := ⟨_, rfl⟩
  have hstart : startStep t s = v.enterRows t 0 t.rows := by rw [hv, hh]; rfl
  have hvarr : v.arr t.die t.arr = { s.curArr with steps := s.curArr.steps ++ [(t, 0)] } := by
    rw [hv, hdie, harr]
    exact (State.arr_setArr ..).trans (if_pos rfl)
  have hvcur : v.cur = s.cur := by rw [hv]; rfl
  have hvhub : v.curHub = h := by
    rw [hv]
    exact SMap.get_put_self ..
  have hlive : v.stepLive t = true := by
    unfold State.stepLive
    rw [hvarr]
    exact List.any_eq_true.2 ⟨(t, 0), List.mem_append_right _ (.head _), by simp⟩
  obtain ⟨n, hn⟩ : ∃ n, t.rows = n + 1 := ⟨t.rows - 1, by omega⟩
  obtain ⟨hkeep, q, hq⟩ := enterRows_plain hmx n 0 hlive
  rw [← hn, ← hstart] at hkeep hq
  have hcur : (startStep t s).cur = s.cur := hkeep.cur.trans hvcur
  have hcurHub : (startStep t s).curHub = h := by
    rw [← hvhub]
    unfold State.curHub State.hub
    rw [hkeep.hubs, hkeep.cur]
  have hcurArr : u.curArr = (startStep t s).arr t.die t.arr := by
    show (startStep t s).arr (startStep t s).cur.die ((startStep t s).cur.hub / 2) = _
    rw [hcur, hdie, harr]
  refine ⟨issued_matrix heng hcur (by rw [hcurHub, hh]) 2 1, ?_, ?_, ?_, ?_, SameMemory.of_eq (by simp [u])⟩
  · show ((startStep t s).issueOp.retire 2 1).curHub.runs = _
    rw [(retire_hub _ _ _).2, State.curHub_issueOp, hcurHub, hh, ← hid]
    rfl
  · rw [hcurArr, hkeep.steps, hvarr]
  · rw [hcurArr, hkeep.acc, hvarr]
  · refine ListedAs.issued (t := startStep t s) ⟨q, 0, ?_⟩ 2 1
    have hlpos : (v.hub t.die t.hub).lpos = s.curHub.lpos := by
      rw [hdie, hhub, ← hvcur]
      exact (congrArg Hub.lpos hvhub).trans (by rw [hh]; rfl)
    have hcad : v.die t.die = s.die s.cur.die := by rw [hv, hdie]; rfl
    rw [hlpos, hcad, hvarr, hdie, hhub] at hq
    unfold dueOf
    rw [heng]
    exact hq

/-! ### The words -/

theorem matStep_mx {s : State} (h : s.curArr.amx = false ∨ s.curArr.epi = true) : (s.curArr.amx && !s.curArr.epi) = false := by
  obtain h | h := h
  · rw [h, Bool.false_and]
  · rw [h, Bool.not_true, Bool.and_false]

theorem execMrun_starts {s : State} {n : BitVec 2} {r : BitVec 8} {t : BitVec 12} {e : BitVec 17}
    (hc : s.matCheck .read (rowOffsets (e.toNat * 64) (t.toNat * 64) (r.toNat + 1)) (rowBytes s.curArr.af s.curArr.wf) true = none)
    (hsp : isSparse s.curArr.wf = false) (hcl : s.stepClash n.toNat = none) : execMrun n r t e s =
      .next ((startStep (s.matStep n.toNat (r.toNat + 1) (s.ownBase + e.toNat * 64) (t.toNat * 64) none) s).issueOp.retire 2 1) := by
  unfold execMrun
  dsimp only
  rw [hc]
  dsimp only
  rw [hsp, if_neg Bool.false_ne_true, hcl]

/-- The step of MRUN.s, with the pair of metadata registers as it stands at issue. -/
def State.sparseStep (s : State) (n rows base stride g : Nat) : MatStep :=
  { s.matStep n rows base stride (some g) with
    nib := s.curArr.md.filter fun e => decide (g * 8192 ≤ e.1 ∧ e.1 < (g + 2) * 8192)
    nibPois := s.curArr.mdpois.filter fun e => decide (g * 8192 ≤ e.1 ∧ e.1 < (g + 2) * 8192) }

theorem execMrunS_starts {s : State} {n : BitVec 2} {r : BitVec 8} {m : BitVec 4} {t : BitVec 12} {e : BitVec 17}
    (hc : s.matCheck .read (rowOffsets (e.toNat * 64) (t.toNat * 64) (r.toNat + 1)) (rowBytes s.curArr.af s.curArr.wf) true = none)
    (hsp : isSparse s.curArr.wf = true) (hcl : s.stepClash n.toNat = none) (hp : s.curArr.pairLegal m.toNat = true) : execMrunS n r m t e s =
      .next ((startStep (s.sparseStep n.toNat (r.toNat + 1) (s.ownBase + e.toNat * 64) (t.toNat * 64) m.toNat) s).issueOp.retire 2 1) := by
  unfold execMrunS
  dsimp only
  rw [hc]
  dsimp only
  rw [hsp, if_neg (by exact Bool.false_ne_true), hcl]
  dsimp only
  rw [hp, if_neg (by exact Bool.false_ne_true)]
  rfl

/-- The drain that MDRAIN performs. -/
def State.drainStep (s : State) (n : BitVec 2) (r0 r : BitVec 8) (f : BitVec 4) (t : BitVec 15) (e : BitVec 17) : MatStep :=
  { s.matStep n.toNat (r.toNat + 1) (s.ownBase + e.toNat * 64) (t.toNat * 64) none with
    row0 := r0.toNat, fmt := f.toNat, scale := s.ownBase + s.curHub.drainBase }

theorem matCheck_inside {s : State} {u : Use} {os : List Nat} {n : Nat} {planes : Bool} (h : s.matCheck u os n planes = none) :
    (os.any fun o => decide ((s.kind s.cur.die).scratchSize < o + n)) = false := by
  rw [← Bool.not_eq_true]
  intro hc
  unfold State.matCheck at h
  dsimp only at h
  rw [if_pos hc] at h
  exact absurd h (Option.some_ne_none _)

theorem execMdrain_drains {s : State} {n : BitVec 2} {r0 r : BitVec 8} {f : BitVec 4} {t : BitVec 15} {e : BitVec 17}
    (hc : s.matCheck .write (rowOffsets (e.toNat * 64) (t.toNat * 64) (r.toNat + 1)) (256 * drainWidth f.toNat) true = none)
    (hsc : (s.drainStep n r0 r f t e).drainScaled = false) :
    execMdrain n r0 r f t e s = .next (((s.drainRow (s.drainStep n r0 r f t e) 0).issueOp).retire 2 (r.toNat + 1)) := by
  unfold execMdrain
  extract_lets rows off stride step d scales rowsAt n' size outOfBounds fault
  have hscales : scales = none := if_neg (by rw [show d.drainScaled = false from hsc]; exact Bool.false_ne_true)
  have hin : outOfBounds = false := matCheck_inside hc
  have hfault : fault = none := by
    have hcheck : s.matCheck .write rowsAt n' true = none := hc
    unfold fault
    rw [hin, hscales, hcheck]
    rfl
  rw [hfault]
  rfl

/-- The converted bytes of a committed row, as the drain writes them. -/
def State.drainedRow (s : State) (t : MatStep) (row : Nat) : List Byte :=
  ((List.range 256).map fun j => leBytes (drainWidth t.fmt) (drainConvert (t.af == 4) t.fmt
    (if (s.arr t.die t.arr).accPois 1 t.acc row j then 0 else (s.arr t.die t.arr).accAt 1 t.acc 0 row j) (some 0))).flatten

/-- A drain without a scale block writes its row 16 scy later, the primal values first; the agenda alone changes. -/
theorem drainRow_plain {s : State} {t : MatStep} (hsc : t.drainScaled = false) (i : Nat) : ∃ ag q out, s.drainRow t i = { s with agenda := ag, seq := q } ∧
    out.head? = some (s.drainedRow t (t.row0 + i)) ∧ ∃ q', ⟨t.die, (s.die t.die).cad + 16, (s.hub t.die t.hub).lpos, t.hub, 2, q',
      Act.mat (.drainWrite t i out ((List.range 256).map fun j => (s.arr t.die t.arr).accPois 1 t.acc (t.row0 + i) j)), none, 0⟩ ∈ ag := by
  have hhead : ∀ (F : Nat → List Nat), (F 0 = (List.range 256).map fun j =>
      if (s.arr t.die t.arr).accPois 1 t.acc (t.row0 + i) j then 0 else (s.arr t.die t.arr).accAt 1 t.acc 0 (t.row0 + i) j) →
      (((List.range (t.k + 1)).map F).map fun l => (l.zipIdx.map fun x =>
        leBytes (drainWidth t.fmt) (drainConvert (t.af == 4) t.fmt x.1 (some 0))).flatten).head? = some (s.drainedRow t (t.row0 + i)) := by
    intro F hF
    rw [List.range_succ_eq_map, List.map_cons, List.map_cons, List.head?_cons, hF]
    refine congrArg (fun l => some (List.flatten l)) ?_
    rw [show (fun x : Nat × Nat => leBytes (drainWidth t.fmt) (drainConvert (t.af == 4) t.fmt x.1 (some 0))) =
      (fun v => leBytes (drainWidth t.fmt) (drainConvert (t.af == 4) t.fmt v (some 0))) ∘ Prod.fst from rfl, ← List.map_map, List.zipIdx_map_fst,
      List.map_map]
    rfl
  have hzero : (List.range 256).map (fun j => if ((s.arr t.die t.arr).accPois 1 t.acc (t.row0 + i) j || (t.af == 4 && (0 : Nat) != 0)) = true then 0
      else (s.arr t.die t.arr).accAt 1 t.acc 0 (t.row0 + i) j) = (List.range 256).map fun j =>
      if (s.arr t.die t.arr).accPois 1 t.acc (t.row0 + i) j then 0 else (s.arr t.die t.arr).accAt 1 t.acc 0 (t.row0 + i) j := by
    simp only [bne_self_eq_false, Bool.and_false, Bool.or_false]
  have hout := hhead (fun tan => (List.range 256).map fun j =>
    if (s.arr t.die t.arr).accPois 1 t.acc (t.row0 + i) j || (t.af == 4 && tan != 0) then 0
    else (s.arr t.die t.arr).accAt 1 t.acc tan (t.row0 + i) j) hzero
  unfold State.drainRow
  dsimp only
  rw [hsc, if_neg Bool.false_ne_true]
  by_cases hlast : i + 1 < t.rows
  · rw [if_pos hlast]
    exact ⟨_, _, _, rfl, hout, _, .head _⟩
  · rw [if_neg hlast]
    exact ⟨_, _, _, rfl, hout, _, .head _⟩

end Sys2Proof.Machine
end

section
/-! SUPPORT. The matrix words, and what the matrix operations leave in the array (R258, R259, R277 to R282, R415 to R435). -/

namespace Sys2Proof.Machine

open Sys2Proof

/-! ### The words of the matrix engine at issue (R415 to R435) -/

section Words
variable (s : State)

theorem execMmode_sets {x : BitVec 1} {a w : BitVec 4} (h : legalMode x.toNat a.toNat w.toNat = true) :
    execMmode x a w s = .next (afterWord s 1 (.mat (.mode s.cur.die (s.cur.hub / 2) a.toNat w.toNat (decide (x = 1))))) := by
  unfold execMmode
  rw [h]
  rfl

/-- A change of the hub at hand that the retirement of its word follows. -/
theorem onlyHub_retire {u s : State} {h : Hub} {w c : Nat} (hcur : u.cur = s.cur) (hh : u.hubs = SMap.put s.hubs (8 * s.cur.die + s.cur.hub) h) (hm : u.memory = s.memory)
    (hp : u.parts = s.parts) (hs : u.slots = s.slots) (hd : u.dies = s.dies) (ha : u.arrays = s.arrays) (hx : u.xdies = s.xdies)
    (hl : u.pls = s.pls) (hv : u.dev = s.dev) : OnlyHub s (u.retire w c) s.cur.die s.cur.hub := by
  have hhubs : (u.retire w c).hubs = SMap.put s.hubs (8 * s.cur.die + s.cur.hub) (u.retire w c).curHub := by
    have hret : (u.retire w c).curHub = _ := SMap.get_put_self ..
    rw [hret, ← hcur]
    show SMap.put u.hubs _ _ = _
    rw [hh, hcur]
    exact SMap.put_put ..
  exact onlyHub_of_put hhubs hm hp hs hd ha hx hl hv

theorem retire_matrixState (u : State) (w c : Nat) : (u.retire w c).curHub.sq = u.curHub.sq ∧ (u.retire w c).curHub.drainBase = u.curHub.drainBase := by
  have hhub : (u.retire w c).curHub = _ := SMap.get_put_self ..
  rw [hhub]
  exact ⟨rfl, rfl⟩

theorem curHub_setCurHub (h : Hub) : (s.setCurHub h).curHub = h := SMap.get_put_self ..

theorem execMscmode_clears (y : BitVec 1) : ∃ t, execMscmode y s = .next t ∧ t.curHub.sq = [] ∧
    t.agenda = dueOf s 1 (.mat (.scaleMode s.cur.die (s.cur.hub / 2) (decide (y = 1)))) :: s.agenda ∧ OnlyHub s t s.cur.die s.cur.hub := by
  have hhub := curHub_setCurHub s { s.curHub with sq := [] }
  refine ⟨_, rfl, ?_, ?_, ?_⟩
  · rw [(retire_matrixState _ _ _).1]
    exact congrArg Hub.sq hhub
  · have hdue : ∀ x, dueOf (s.setCurHub { s.curHub with sq := [] }) 1 x = dueOf s 1 x := fun x => by
      unfold dueOf State.wordDetail State.wordIdx State.curEng State.curTan
      rw [hhub]
      rfl
    exact congrArg (· :: s.agenda) (hdue _)
  · exact onlyHub_retire rfl rfl rfl rfl rfl rfl rfl rfl rfl rfl

theorem execMseta_sets (e : BitVec 17) : ∃ t, execMseta e s = .next t ∧ t.curHub.drainBase = 64 * e.toNat ∧ t.agenda = s.agenda ∧
    OnlyHub s t s.cur.die s.cur.hub := by
  refine ⟨_, rfl, ?_, rfl, ?_⟩
  · rw [(retire_matrixState _ _ _).2, curHub_setCurHub]
    exact Nat.mul_comm ..
  · exact onlyHub_retire rfl rfl rfl rfl rfl rfl rfl rfl rfl rfl

theorem execMzero_zeroes {n : BitVec 2} (h : ∀ u ∈ s.curArr.steps, u.1.acc ≠ n.toNat) :
    execMzero n s = .next (afterWord s 1 (.mat (.zero s.cur.die (s.cur.hub / 2) n.toNat))) := by
  have hany : ¬ (s.curArr.steps.any fun x => x.1.acc == n.toNat) = true := fun hc => by
    obtain ⟨u, hu, hacc⟩ := List.any_eq_true.1 hc
    exact h u hu (eq_of_beq hacc)
  unfold execMzero
  rw [if_neg hany]
  rfl

theorem execMswap_swaps (h : s.curArr.loadingAt s.now = false) : execMswap s = .next (afterWord s 1 (.mat (.swap s.cur.die (s.cur.hub / 2)))) := by
  unfold execMswap
  rw [h]
  rfl

theorem execMloadw_loads {e : BitVec 17} (hsize : e.toNat * 256 + 256 * colBytes s.curArr.wf ≤ Config.weightSize)
    (hset : s.violation s.cur.die s.cur.hub 2 .read (flat (homeWeight s.cur.die (s.cur.hub / 2)) (e.toNat * 256)) (256 * colBytes s.curArr.wf) = none)
    (hrow : ∀ l, s.curArr.shadow.lastEntry = some l → l + 264 ≤ s.now + 16) (hload : s.curArr.loadingAt s.now = false) :
    execMloadw e s = .next ((((s.setCurArr { s.curArr with loading := some (s.now + 271) }).later 14
      (.mat (.loadSample (s.matStep 0 0 (flat (homeWeight s.cur.die (s.cur.hub / 2)) (e.toNat * 256)) 0 none) 0))).issueOp).retire 2 1) := by
  have hbusy : (match s.curArr.shadow.lastEntry with | some l => decide (s.now + 16 < l + 264) | none => false) = false := by
    cases hl : s.curArr.shadow.lastEntry with
    | none => rfl
    | some l => exact decide_eq_false (Nat.not_lt.2 (hrow l hl))
  unfold execMloadw
  dsimp only
  rw [if_neg (Nat.not_lt.2 hsize), hset]
  dsimp only
  rw [hload]
  exact if_neg (Bool.not_eq_true _ ▸ hbusy)

theorem execMmeta_samples {m : BitVec 4} {e : BitVec 17} (h : s.matCheck .read [e.toNat * 64] 8192 false = none) :
    execMmeta m e s = .next (((s.later 2 (.mat (.mdSample (s.matStep 0 0 (s.ownBase + e.toNat * 64) 0 none) m.toNat))).issueOp).retire 2 1) := by
  unfold execMmeta
  rw [h]

theorem execMscq_samples {q : BitVec 9} {e : BitVec 20} (h : s.matCheck .read [e.toNat * 8] (8 * (q.toNat + 1)) false = none)
    (hroom : s.curArr.epi = true ∨ s.curHub.sq.length + s.scqComing s.cur.die s.cur.hub + (q.toNat + 1) ≤ if s.period = 2 then 256 else 512) :
    execMscq q e s = .next (afterWords s 2 (.mat (.scqSample (s.matStep 0 0 (s.ownBase + e.toNat * 8) 0 none) (q.toNat + 1))) 2 1) := by
  unfold execMscq
  dsimp only
  rw [h]
  refine if_neg ?_
  rw [Bool.and_eq_true, Bool.not_eq_true', decide_eq_true_eq]
  rintro ⟨hepi, hlt⟩
  exact hroom.elim (fun h => Bool.false_ne_true (hepi.symm.trans h)) (Nat.not_le.2 hlt)

end Words

theorem drainStep_unscaled {s : State} {n : BitVec 2} {r0 r : BitVec 8} {f : BitVec 4} {t : BitVec 15} {e : BitVec 17}
    (h : s.curArr.epi = false ∨ s.curArr.af = 4) : (s.drainStep n r0 r f t e).drainScaled = false := by
  show (s.curArr.epi && s.curArr.af != 4) = false
  obtain h | h := h
  · rw [h, Bool.false_and]
  · rw [h, bne_self_eq_false, Bool.and_false]

theorem period_issueOp (s : State) : s.issueOp.period = s.period := by
  refine period_congr rfl rfl ?_ ?_
  · rw [State.curHub_issueOp]
    rfl
  · rw [State.curHub_issueOp]
    rfl

/-- The effect of a word that changed its array alone before listing it. -/
theorem listedAs_setCurArr (s : State) (x : Arr) (l : Nat) (a : Act) : ListedAs s l a ((s.setCurArr x).later l a) := ⟨_, _, .head _⟩

theorem listedAs_later (s : State) (l : Nat) (a : Act) : ListedAs s l a (s.later l a) := ⟨_, _, .head _⟩

/-! ### The accumulators -/

theorem get_foldl_set_out {α β : Type} {_ : DecidableEq α} (d : α) (k : β → Nat) (g : β → α) {ts : List β} {x : Nat} (h : ∀ t ∈ ts, k t ≠ x)
    (m : SMap α) : SMap.get d (ts.foldl (fun m t => SMap.set d m (k t) (g t)) m) x = SMap.get d m x := by
  induction ts generalizing m with
  | nil => rfl
  | cons t r ih => rw [List.foldl_cons, ih (fun u hu => h u (.tail _ hu)), SMap.get_set, if_neg (h t (.head _)).symm]

theorem get_foldl_set_in {α β : Type} {_ : DecidableEq α} (d : α) {k : β → Nat} (hk : Function.Injective k) (g : β → α) {ts : List β} {t : β} (ht : t ∈ ts)
    (m : SMap α) : SMap.get d (ts.foldl (fun m t => SMap.set d m (k t) (g t)) m) (k t) = g t := by
  induction ts generalizing m with
  | nil => exact absurd ht List.not_mem_nil
  | cons u r ih =>
    rw [List.foldl_cons]
    by_cases hr : t ∈ r
    · exact ih hr _
    · obtain rfl := (List.mem_cons.1 ht).resolve_right hr
      rw [get_foldl_set_out d k g (fun x hx he => hr (by obtain rfl := hk he; exact hx)), SMap.get_set_self]

theorem accKey_inj {c n v i j c' n' v' i' j' : Nat} (hn : n < 4) (hv : v < 5) (hi : i < 256) (hj : j < 256) (hn' : n' < 4) (hv' : v' < 5) (hi' : i' < 256)
    (hj' : j' < 256) (h : accKey c n v i j = accKey c' n' v' i' j') : c = c' ∧ n = n' ∧ v = v' ∧ i = i' ∧ j = j' := by
  unfold accKey at h
  omega

/-- Copies one element of an accumulator, with its tangents, from its working copy to the committed one. -/
def Arr.copyElem (n i : Nat) (a : Arr) (j : Nat) : Arr :=
  { a with
    acc := (List.range 5).foldl (fun m t => SMap.set 0 m (accKey 1 n t i j) (a.accAt 0 n t i j)) a.acc
    apois := SMap.set false a.apois (accKey 1 n 0 i j) (a.accPois 0 n i j) }

theorem Arr.copyRows_eq (a : Arr) (n r : Nat) :
    a.copyRows 0 1 n r = (List.range r).foldl (fun a i => (List.range 256).foldl (Arr.copyElem n i) a) a := rfl

section Elements

variable {c m n v i j : Nat} (hm : m < 4) (hn : n < 4) (hv : v < 5) (hi : i < 256) (hj : j < 256)

include hm hn hv hi hj

theorem Arr.accAt_copyElem {i' j' : Nat} (hi' : i' < 256) (hj' : j' < 256) (a : Arr) : (Arr.copyElem n i' a j').accAt c m v i j =
    if c = 1 ∧ m = n ∧ i = i' ∧ j = j' then a.accAt 0 n v i j else a.accAt c m v i j := by
  show SMap.get 0 ((List.range 5).foldl (fun m t => SMap.set 0 m (accKey 1 n t i' j') (a.accAt 0 n t i' j')) a.acc) (accKey c m v i j) = _
  split
  · rename_i h
    obtain ⟨rfl, rfl, rfl, rfl⟩ := h
    refine get_foldl_set_in 0 (k := fun t => accKey 1 m t i j) (fun t u h => ?_) (fun t => a.accAt 0 m t i j) (List.mem_range.2 hv) a.acc
    simp only [accKey] at h
    omega
  · rename_i h
    refine get_foldl_set_out 0 _ _ (fun t ht he => h ?_) _
    obtain ⟨rfl, rfl, -, rfl, rfl⟩ := accKey_inj hn (List.mem_range.1 ht) hi' hj' hm hv hi hj he
    exact ⟨rfl, rfl, rfl, rfl⟩

theorem Arr.accAt_copyRow {i' : Nat} {js : List Nat} (hi' : i' < 256) (hjs : ∀ j' ∈ js, j' < 256) (a : Arr) :
    (js.foldl (Arr.copyElem n i') a).accAt c m v i j = if c = 1 ∧ m = n ∧ i = i' ∧ j ∈ js then a.accAt 0 n v i j else a.accAt c m v i j := by
  induction js generalizing a with
  | nil => exact (if_neg fun h => absurd h.2.2.2 List.not_mem_nil).symm
  | cons k r ih =>
    have hk := hjs k (.head _)
    have hzero : (Arr.copyElem n i' a k).accAt 0 n v i j = a.accAt 0 n v i j := by
      rw [Arr.accAt_copyElem hn hn hv hi hj hi' hk, if_neg fun h => absurd h.1 (by decide)]
    rw [List.foldl_cons, ih (fun j' hj' => hjs j' (.tail _ hj')), hzero, Arr.accAt_copyElem hm hn hv hi hj hi' hk]
    by_cases h1 : c = 1 ∧ m = n ∧ i = i' ∧ j ∈ r
    · obtain ⟨h2, h3, h4, h5⟩ := h1
      rw [if_pos ⟨h2, h3, h4, h5⟩, if_pos ⟨h2, h3, h4, .tail _ h5⟩]
    · rw [if_neg h1]
      refine if_congr ⟨fun ⟨h2, h3, h4, h5⟩ => ⟨h2, h3, h4, h5 ▸ .head _⟩, fun ⟨h2, h3, h4, h5⟩ => ⟨h2, h3, h4, ?_⟩⟩ rfl rfl
      exact (List.mem_cons.1 h5).resolve_right fun h => h1 ⟨h2, h3, h4, h⟩

/-- The rows below `r` of an accumulator's committed copy become the working ones', and every other element stays. -/
theorem Arr.accAt_copyRows {r : Nat} (hr : r ≤ 256) (a : Arr) :
    (a.copyRows 0 1 n r).accAt c m v i j = if c = 1 ∧ m = n ∧ i < r then a.accAt 0 n v i j else a.accAt c m v i j := by
  have hrows : ∀ (is : List Nat), (∀ i' ∈ is, i' < 256) → ∀ a : Arr, (is.foldl (fun a i => (List.range 256).foldl (Arr.copyElem n i) a) a).accAt c m v i j =
      if c = 1 ∧ m = n ∧ i ∈ is then a.accAt 0 n v i j else a.accAt c m v i j := by
    intro is
    induction is with
    | nil => exact fun _ a => (if_neg fun h => absurd h.2.2 List.not_mem_nil).symm
    | cons k is ih =>
      intro his a
      have hk := his k (.head _)
      have hjs : ∀ j' ∈ List.range 256, j' < 256 := fun j' h => List.mem_range.1 h
      have hzero : ((List.range 256).foldl (Arr.copyElem n k) a).accAt 0 n v i j = a.accAt 0 n v i j := by
        rw [Arr.accAt_copyRow hn hn hv hi hj hk hjs, if_neg fun h => absurd h.1 (by decide)]
      rw [List.foldl_cons, ih (fun i' h => his i' (.tail _ h)), hzero, Arr.accAt_copyRow hm hn hv hi hj hk hjs]
      by_cases h1 : c = 1 ∧ m = n ∧ i ∈ is
      · obtain ⟨h2, h3, h4⟩ := h1
        rw [if_pos ⟨h2, h3, h4⟩, if_pos ⟨h2, h3, .tail _ h4⟩]
      · rw [if_neg h1]
        refine if_congr ⟨fun ⟨h2, h3, h4, _⟩ => ⟨h2, h3, h4 ▸ .head _⟩, fun ⟨h2, h3, h4⟩ => ⟨h2, h3, ?_, List.mem_range.2 hj⟩⟩ rfl rfl
        exact (List.mem_cons.1 h4).resolve_right fun h => h1 ⟨h2, h3, h⟩
  rw [Arr.copyRows_eq, hrows _ fun i' h => (List.mem_range.1 h).trans_le hr]
  exact if_congr (by rw [List.mem_range]) rfl rfl

/-- MZERO clears an accumulator in both copies, and leaves the others. -/
theorem Arr.accAt_zero (a : Arr) : (a.zero n).accAt c m v i j = (if m = n then 0 else a.accAt c m v i j) ∧
    (a.zero n).accPois c m i j = if m = n then false else a.accPois c m i j := by
  have hkey : ∀ v, v < 5 → accKey c m v i j / 327680 % 4 = m := fun v hv => by
    unfold accKey
    omega
  unfold Arr.zero Arr.accAt Arr.accPois
  dsimp only
  rw [SMap.get_filter 0 (fun k => !decide (k / 327680 % 4 = n)), SMap.get_filter false (fun k => !decide (k / 327680 % 4 = n)), hkey v hv, hkey 0 (by decide)]
  by_cases h : m = n
  · rw [decide_eq_true h, if_pos h, if_pos h]
    exact ⟨rfl, rfl⟩
  · rw [decide_eq_false h, if_neg h, if_neg h]
    exact ⟨rfl, rfl⟩

end Elements

/-- A step that has written its last row commits (R258, R279). -/
theorem exec_matrixStepCommit_commits (s : State) {x : MatStep × Nat}
    (hx : (s.arr s.arg.die s.arg.m).steps.find? (fun x => x.1.hub == s.arg.hub && x.1.id == s.arg.n && x.1.rows == x.2) = some x) :
    ∃ t, exec .matrixStepCommit s = .next t ∧ (t.arr s.arg.die s.arg.m).acc = ((s.arr s.arg.die s.arg.m).copyRows 0 1 x.1.acc x.1.rows).acc ∧
      t.agenda = ⟨s.arg.die, (s.die s.arg.die).cad + 1, (s.hub s.arg.die s.arg.hub).lpos, s.arg.hub, 2, s.seq, .opEnd 0 x.1.num, none, 0⟩ :: s.agenda ∧
      SameMemory s t := by
  have hhub : x.1.hub = s.arg.hub := by
    have h := List.find?_some hx
    simp only [Bool.and_eq_true, beq_iff_eq] at h
    exact h.1.1
  have hex := exec_matrixStepCommit s
  unfold execMatrixStepCommit at hex
  dsimp only at hex
  rw [hx] at hex
  rw [← hhub]
  refine ⟨_, hex, ?_, rfl, ⟨rfl, rfl, rfl, rfl⟩⟩
  rw [State.post_get_arr, State.arr_setArr, if_pos rfl]

/-- Settles O38: a word that is not refused takes the one branch left; rows outside the MX modes enter without a scale entry; accKey tells the accumulators, copies and elements apart. -/
theorem matrixWords : Obligations.MatrixWords := by
  refine ⟨?_, ?_⟩
  · intro s n r r0 m x y a w f t12 t15 e e20 q n16 heng _ arr now nA base counts lists rows drains step runs
    refine ⟨rfl, execMmode_sets s, execMscmode_clears s y, execMseta_sets s e, execMzero_zeroes s, execMswap_swaps s, ?_, ?_, execMscq_samples s, ?_, ?_, ?_⟩
    · intro from_ hsize hset hrow hload
      refine ⟨_, execMloadw_loads s hsize hset hrow hload, issued_matrix heng rfl rfl 2 1, ?_, ((listedAs_setCurArr ..).issued 2 1).mem,
        SameMemory.of_eq (by simp)⟩
      exact congrArg Arr.loading ((State.arr_setArr ..).trans (if_pos rfl))
    · intro h
      exact ⟨_, execMmeta_samples s h, issued_matrix heng rfl rfl 2 1, ((listedAs_later ..).issued 2 1).mem,
        onlyHub_issued rfl rfl rfl rfl rfl rfl rfl rfl rfl rfl 2 1⟩
    · intro hc hsp hcl _ hmx
      obtain ⟨h1, h2, h3, h4, h5, h6⟩ := startStep_runs (s := s) heng (t := step none) rfl rfl rfl rfl (Nat.succ_ne_zero _) (matStep_mx hmx)
      exact ⟨_, execMrun_starts hc hsp hcl, h1, h2, h3, h4, h5.mem, h6⟩
    · intro hc hsp hcl hpair hmx
      obtain ⟨h1, h2, h3, h4, h5, h6⟩ := startStep_runs (s := s) heng (t := step (some m.toNat)) rfl rfl rfl rfl (Nat.succ_ne_zero _) (matStep_mx hmx)
      exact ⟨_, execMrunS_starts hc hsp hcl (hpair rfl), h1, h2, h3, h4, h5.mem, h6⟩
    · intro hc hplain
      have hsc := drainStep_unscaled (n := n) (r0 := r0) (r := r) (f := f) (t := t15) (e := e) hplain
      obtain ⟨ag, sq, out, hrow, hout, q', hmem⟩ := drainRow_plain (s := s) hsc 0
      have hex := execMdrain_drains hc hsc
      rw [hrow] at hex
      have hlist : ListedAs s 16 (.mat (.drainWrite (s.drainStep n r0 r f t15 e) 0 out ((List.range 256).map fun j => arr.accPois 1 n.toNat r0.toNat j)))
          { s with agenda := ag, seq := sq } := by
        refine ⟨q', 0, ?_⟩
        unfold dueOf
        rw [heng]
        exact hmem
      refine ⟨_, s.drainStep n r0 r f t15 e, out, _, hex, issued_matrix heng rfl rfl 2 _, (hlist.issued 2 _).mem, rfl, rfl, rfl, rfl, rfl, hout, rfl, ?_,
        onlyHub_issued rfl rfl rfl rfl rfl rfl rfl rfl rfl rfl 2 _⟩
      obtain ⟨hnext, -⟩ := retire_hub ({ s with agenda := ag, seq := sq }.issueOp) 2 (r.toNat + 1)
      have hperiod : ({ s with agenda := ag, seq := sq }.issueOp).period = s.period := period_issueOp _
      have heng' : ({ s with agenda := ag, seq := sq }.issueOp).cur.eng = 2 := heng
      rw [hperiod, heng'] at hnext
      exact hnext
  · intro s d a n k af wf b
    have harr : ∀ x : Arr, (s.setArr d a x).arr d a = x := fun x => (State.arr_setArr ..).trans (if_pos rfl)
    refine ⟨?_, ?_, ?_, ?_, ?_⟩
    · intro t
      have ht : t.arr d a = (s.arr d a).zero n := harr _
      rw [ht]
      refine ⟨fun c hc j i v hn hv hi hj => ?_, fun c m v i j hm hmn hn hv hi hj => ?_, rfl, rfl, ⟨rfl, rfl, rfl, rfl⟩, rfl⟩
      · obtain ⟨h1, h2⟩ := Arr.accAt_zero (c := c) hn hn hv hi hj (s.arr d a)
        exact ⟨h1.trans (if_pos rfl), h2.trans (if_pos rfl)⟩
      · obtain ⟨h1, h2⟩ := Arr.accAt_zero (c := c) hm hn hv hi hj (s.arr d a)
        exact ⟨h1.trans (if_neg hmn), h2.trans (if_neg hmn)⟩
    · intro t
      have ht : t.arr d a = { s.arr d a with swapped := !(s.arr d a).swapped } := harr _
      rw [ht]
      refine ⟨?_, ?_, rfl, ⟨rfl, rfl, rfl, rfl⟩, rfl⟩
      · unfold Arr.active Arr.shadow Arr.activeNo
        cases (s.arr d a).swapped <;> rfl
      · unfold Arr.active Arr.shadow Arr.activeNo
        cases (s.arr d a).swapped <;> rfl
    · intro t
      have ht : t.arr d a = { s.arr d a with af := af, wf := wf, amx := b } := harr _
      rw [ht]
      exact ⟨rfl, rfl, rfl, rfl, ⟨rfl, rfl, rfl, rfl⟩, rfl⟩
    · intro t
      have ht : t.arr d a = { s.arr d a with epi := b } := harr _
      rw [ht]
      exact ⟨rfl, rfl, ⟨rfl, rfl, rfl, rfl⟩, rfl⟩
    · rintro x rfl rfl rfl hx hrows
      obtain ⟨t, hex, hacc, hag, hmem⟩ := exec_matrixStepCommit_commits s hx
      have hat : ∀ c m v i j, (t.arr s.arg.die s.arg.m).accAt c m v i j =
          ((s.arr s.arg.die s.arg.m).copyRows 0 1 x.1.acc x.1.rows).accAt c m v i j := fun c m v i j => congrArg (SMap.get 0 · _) hacc
      refine ⟨t, hex, fun v i j hv hi hj hn => ?_, fun m v i j hv hi hj hn hm hne => ?_, hag, hmem⟩
      · rw [hat, Arr.accAt_copyRows hn hn hv hi hj hrows]
        by_cases h : i < x.1.rows
        · rw [if_pos ⟨rfl, rfl, h⟩, if_pos h]
        · rw [if_neg fun h' => h h'.2.2, if_neg h]
      · rw [hat, Arr.accAt_copyRows hm hn hv hi hj hrows, if_neg fun h => hne h.2.1]

end Sys2Proof.Machine
end
